-- ==== Sys2Proof/Word.lean ====
section
/-! DEFINITION. The word types of the model: bytes, register words, cell addresses and the sorted
association list that holds every sparse table of the state. -/

namespace Sys2Proof

/-- One byte. -/
abbrev Byte := BitVec 8

/-- A 64-bit register or image word (R446, R5). -/
abbrev Word64 := BitVec 64

/-- A 32-bit word. -/
abbrev Word32 := BitVec 32

/-- The 16-bit cell address of R1. -/
abbrev CellAddr := BitVec 16

/-- A sparse table: keys with values, kept in rising order of the key by `SMap.put`. -/
abbrev SMap (α : Type) := List (Nat × α)

end Sys2Proof
end

