-- ==== Sys2Proof/Syntax.lean ====
section
/-! DEFINITION. The commands of the panel, one constructor per row of spec/opcode_table.json, and the data
their operands carry: what the panel's environment supplies with a command (errors found by a code, link bits
flipped in flight, outcomes of training and rehearsals, bytes the host placed). -/

namespace Sys2Proof

/-- An access through BAR0 (R8): by the host, or by stage-core firmware at 0xC000_0000_0000 + offset (R252). -/
structure BarAccess where
  off : Nat
  /-- width in bytes -/
  width : Nat
  write : Bool
  data : Word64
  firmware : Bool
deriving DecidableEq, Repr

/-- What the code of R128 finds in one 32 B word that a command reads: the word (device address / 32), the
corrected bit (none: uncorrectable) and the syndrome. -/
structure EccEvent where
  word : Nat
  bit : Option Nat
  syndrome : Nat
deriving DecidableEq, Repr

/-- What the code of R256 finds in one 64 B DRAM unit that a command reads: corrected (with the device) or
uncorrectable. -/
structure DramErr where
  unit : Nat
  corrected : Bool
  device : Nat
deriving DecidableEq, Repr

/-- A cell, and what the code finds in the words of it that a command reads. -/
structure CellRead where
  cell : CellAddr
  ecc : List EccEvent
deriving DecidableEq, Repr

/-- A cell, and whether the command's read of its scene store meets an uncorrectable word (R207). -/
structure StoreRead where
  cell : CellAddr
  store : Bool
deriving DecidableEq, Repr

/-- A cell whose engine reads a descriptor from its scene store and a cue from a bank. -/
structure DescRead where
  cell : CellAddr
  ecc : List EccEvent
  store : Bool
deriving DecidableEq, Repr

/-- A cell of a pair, and what the codes find where the pair's items act. -/
structure PairRead where
  cell : CellAddr
  dram : List DramErr
  ecc : List EccEvent
deriving DecidableEq, Repr

/-- A block, and what the codes find where a packet at its transport acts. -/
structure BlkRead where
  blk : Nat
  dram : List DramErr
  ecc : List EccEvent
deriving DecidableEq, Repr

/-- A shard, and what the code finds in the DRAM that the end of a step reads. -/
structure ShardRead where
  shard : Nat
  dram : List DramErr
deriving DecidableEq, Repr

/-- A shadow or residue mismatch of a V-cell instruction (R99, R100): kind, slot, and whether the reissue
mismatches again. -/
structure ShadowHit where
  residue : Bool
  slot : Nat
  again : Bool
deriving DecidableEq, Repr

/-- Physical events of one V-cell instruction. -/
structure VHw where
  ecc : List EccEvent
  shadow : Option ShadowHit
  /-- the fetch from the scene store meets an uncorrectable word (R207) -/
  store : Bool
deriving DecidableEq, Repr

/-- A lockstep mismatch of an S-cell (R103, R119). -/
structure LockHit where
  point : Nat
  reg : Nat
  issueSlot : Nat
deriving DecidableEq, Repr

/-- Physical events of one S-cell instruction. -/
structure SHw where
  ecc : List EccEvent
  lock : Option LockHit
  /-- the fetch from the scene store meets an uncorrectable word (R207) -/
  store : Bool
deriving DecidableEq, Repr

/-- Physical events of one K-step of an M-cell: code outcomes of the words read, and the accumulators that a
fault gave a wrong value (row, column, value). -/
structure MHw where
  ecc : List EccEvent
  wrong : List (Nat × Nat × Nat)
deriving DecidableEq, Repr

/-- One failing bit of a March run (R139, R140): row within the strip, word, bit and March element. -/
structure MarchFail where
  row : Nat
  col : Nat
  bit : Nat
  element : Nat
deriving DecidableEq, Repr

/-- One rigging entry that firmware rewrites (R161, Table 6.6): table 0 slot entry (port, index), 1 stage
configuration, 2 receive map. -/
structure RigEdit where
  blk : Nat
  variant : Nat
  table : Nat
  port : Nat
  index : Nat
  value : Nat
deriving DecidableEq, Repr

/-- A 32 B word among a rehearsal kernel's outputs, and whether it is poisoned (R274). -/
structure OutWord where
  poison : Bool
  data : List Byte
deriving DecidableEq, Repr

/-- What a dress rehearsal found (R276): the outputs of an engine's kernel, a row read back from a bank (its 128 bytes), or a flit
received on an output of a crossing (the block's cell 0 names it), as the levels of its 68 wires. -/
inductive RehearsalFail where
  | engine (cell : CellAddr) (kernel : Nat) (step : Nat) (outs : List OutWord)
  | bank (cell : CellAddr) (bank : Nat) (step : Nat) (row : Nat) (data : List Byte)
  | link (cell : CellAddr) (out : Nat) (step : Nat) (flit : Nat) (wires : Nat)
deriving DecidableEq, Repr

/-- A PCI Express reset of R322. -/
inductive PcieReset where
  | fundamental
  | hot
  | linkDown
  | functionLevel
deriving DecidableEq, Repr

/-- A scene image (Table 8.1): its first 0x800 bytes as 64-bit words (missing words are zero) and its engine
section: 1024-bit descriptors, 64-bit V-cell or 32-bit S-cell instructions. -/
structure SceneImage where
  head : List Word64
  eng : List Nat
deriving DecidableEq, Repr

/-- A record of the scenes section (Table 8.4, type 0x03). -/
structure SceneRec where
  logical : Nat
  reserveBank : Nat
  reserveOff : Nat
  images : List SceneImage
deriving DecidableEq, Repr

/-- A record of the fold-groups section (Table 8.4, type 0x04): barrier object, reserved bytes and 16 schedule
entries of Table 8.5a. -/
structure FoldRec where
  barrier : Nat
  rsv : Nat
  entries : List Word64
deriving DecidableEq, Repr

/-- One variant of a crossing's rigging (Table 6.6). Keys: slot entries port * 64 + entry; stage
configurations port * 16 + stage; receive map port * 32 + entry. -/
structure Variant where
  slots : SMap Nat
  stages : SMap Nat
  rx : SMap Nat
deriving DecidableEq, Repr

/-- The rigging of one crossing (Table 8.4, type 0x05). -/
structure CrossRig where
  blk : Nat
  foldGroup : Nat
  variants : List Variant
deriving DecidableEq, Repr

/-- One hop of a circuit's path: block, input port and stage, output ports. -/
structure PathHop where
  blk : Nat
  inPort : Nat
  stage : Nat
  outs : List Nat
deriving DecidableEq, Repr

/-- One circuit of the rigging section: its path, the slots it holds and its latency budget. -/
structure Circuit where
  path : List PathHop
  slots : Nat
  latBudget : Nat
deriving DecidableEq, Repr

/-- An end of a channel: a cell's endpoint, or a unit (0xF000 + porter, 0xF040 stager, 0xF048 + stage core),
or a host ring (0x1_0000 + ring index). Ends of `open` endpoints are joined later. -/
structure ChanEnd where
  unit : Nat
  ep : Nat
deriving DecidableEq, Repr

/-- A row of the channel table (Table 8.4, type 0x06): type of Table 7.2, its ends (logical addresses), and the
circuit that carries it. -/
structure ChanRec where
  ty : Nat
  send : Option ChanEnd
  recv : Option ChanEnd
  circuit : Option Nat
deriving DecidableEq, Repr

/-- A combine entry of R171. -/
structure CombineRec where
  blk : Nat
  object : Nat
  flag : Bool
  childMask : Nat
  parent : Nat
deriving DecidableEq, Repr

/-- A weights-manifest extent (Table 8.4, type 0x09). -/
structure Extent where
  logical : Nat
  bank : Nat
  offset : Nat
  rsv : Nat
  length : Nat
  source : Nat
deriving DecidableEq, Repr

/-- An entry of the wings table (Table 8.4, type 0x0A). -/
structure WingRec where
  logical : Nat
  ep : Nat
  rate : Nat
  dl : Nat
deriving DecidableEq, Repr

/-- The sections of a stage package (Table 8.4), as PACKAGE_LOAD reads them (log 6). -/
structure Package where
  /-- cast entries: logical cell address and the entry of Table 8.6 -/
  cast : List (Nat × Nat)
  under : List (Nat × List Nat)
  /-- spare regions: die column and die row -/
  spares : List (Nat × Nat)
  scenes : List SceneRec
  folds : List FoldRec
  rigging : List CrossRig
  circuits : List Circuit
  chans : List ChanRec
  trees : List CombineRec
  groups : List (Nat × Nat × Nat)
  weights : List Extent
  wings : List WingRec
deriving DecidableEq, Repr

/-- A Nymak request (R325): header fields and argument bytes as the mailbox holds them when go is written. -/
structure NyReq where
  opcode : Nat
  session : Nat
  tag : Nat
  flags : Nat
  /-- a reserved byte of the header is not zero -/
  rsv : Bool
  /-- host address of an indirect body -/
  bodyAddr : Nat
  arg : List Byte
deriving DecidableEq, Repr

/-- What a porter's accesses meet: code outcomes, a host error, the bytes read from the host, and the bytes that a failing host write had
moved (R264). -/
structure PorterEv where
  ecc : List EccEvent
  dram : List DramErr
  hostError : Bool
  hostData : List Byte
  done : Nat
deriving DecidableEq, Repr

/-- The outcome that the environment gives a bring-up step. -/
structure StepEnv where
  /-- the failure cause the step meets, 0 when it passes -/
  cause : Nat
  unit : Nat
  detail : Nat
  bad : List Nat
  /-- what a dress rehearsal meets -/
  rehearsed : List RehearsalFail
deriving DecidableEq, Repr

/-- A rope frame (Table 15.3): its 32 B header, its payload (in clear when it is received, encrypted with its tag behind it when it is
sent, R381), whether its tag passes (log 5), and the uncorrectable codewords that overlap it (R379); the granules of its payload
that its sender marked as poison travel in the header's `poisoned` flag. -/
structure RopeFrame where
  hdr : List Byte
  payload : List Byte
  tagOk : Bool
  fec : Nat
deriving DecidableEq, Repr

/-- A frame that arrives, and what the code finds in the DRAM that it reads or writes in part. -/
structure FrameRead where
  frame : RopeFrame
  dram : List DramErr
deriving DecidableEq, Repr


/-- The commands of the panel: one constructor for each row of spec/opcode_table.json. -/
inductive Instr where
  /-- REGISTER_WRITE (R10): A host or firmware write to a BAR0 register that has no row of its own acts according to the field's access code. -/
  | registerWrite (a : BarAccess)
  /-- EVENT_ENABLE_WRITE (R448): Writing an enable bit to 1 while its status bit is set raises MSI-X vector 0. -/
  | eventEnableWrite (value : Word64)
  /-- SWEEP_CTRL_WRITE (R143): A write to SP_SWEEP_CTRL clamps the period and, with enable 0, stops the sweep after the current strip is restored. -/
  | sweepCtrlWrite (g : Nat) (value : Word64)
  /-- MC_INJECT_ARM (R84): Setting inject in MC_CK_CTRL arms one checksum injection on an M-cell. -/
  | mcInjectArm (c : CellAddr) (value : Word64)
  /-- VC_INJECT_ARM (R101): Setting inject in VC_CK_CTRL arms one result-bit inversion on a V-cell. -/
  | vcInjectArm (c : CellAddr) (value : Word64)
  /-- ARB_APPLY (R251): Setting apply in ARB_CTRL stages the new budget table, or sets bad_sum when the shares exceed 256. -/
  | arbApply (value : Word64)
  /-- FAULT_REPORT_ARRIVAL (R14): A fault report carried on the fault sideband reaches the stage cores. -/
  | faultReportArrival (idx : Nat)
  /-- FENCE_REMOVE (R17): Stage-core firmware removes a fence, and the unit returns under the stale-state rule. -/
  | fenceRemove (c : CellAddr) (block : Bool)
  /-- M_DESCRIPTOR_DECODE (R67): An M-cell decodes the next operator descriptor, after any awaited cue, and starts filling and streaming. -/
  | mDescriptorDecode (c : DescRead)
  /-- K_STEP (R53): The tile forms one K-step of products and adds them into the accumulators with one rounding. -/
  | kStep (c : CellAddr) (hw : MHw)
  /-- K_STEP_CHECK (R77): The checksum margin resolves the row and column checks of a K-step. -/
  | kStepCheck (c : CellAddr)
  /-- REPLAY_DONE (R80): A replay of a check group completes and its checks pass or mismatch again. -/
  | replayDone (c : CellAddr) (hw : MHw)
  /-- DRAIN_ROW (R72): One output row drains to a bank or to a queue endpoint, waiting while the endpoint is full. -/
  | drainRow (c : CellRead)
  /-- BEAT_START (R211): A cell starts a new beat of its engine section, with the program counter at 0. -/
  | beatStart (c : StoreRead)
  /-- VNOP (R89): V-cell no-operation. -/
  | vnop (c : CellAddr) (hw : VHw)
  /-- VADD (R89): V-cell elementwise add. -/
  | vadd (c : CellAddr) (hw : VHw)
  /-- VSUB (R89): V-cell elementwise subtract. -/
  | vsub (c : CellAddr) (hw : VHw)
  /-- VMUL (R89): V-cell elementwise multiply. -/
  | vmul (c : CellAddr) (hw : VHw)
  /-- VFMA (R89): V-cell fused multiply-add with one rounding. -/
  | vfma (c : CellAddr) (hw : VHw)
  /-- VMAX (R90): V-cell elementwise maximum. -/
  | vmax (c : CellAddr) (hw : VHw)
  /-- VMIN (R90): V-cell elementwise minimum. -/
  | vmin (c : CellAddr) (hw : VHw)
  /-- VABS (R89): V-cell elementwise absolute value. -/
  | vabs (c : CellAddr) (hw : VHw)
  /-- VNEG (R89): V-cell elementwise negation. -/
  | vneg (c : CellAddr) (hw : VHw)
  /-- VCMP (R90): V-cell comparison writing a mask register. -/
  | vcmp (c : CellAddr) (hw : VHw)
  /-- VSEL (R89): V-cell select by mask. -/
  | vsel (c : CellAddr) (hw : VHw)
  /-- VMOV (R89): V-cell register move. -/
  | vmov (c : CellAddr) (hw : VHw)
  /-- VIADD (R89): V-cell integer add modulo 2^32. -/
  | viadd (c : CellAddr) (hw : VHw)
  /-- VISUB (R89): V-cell integer subtract modulo 2^32. -/
  | visub (c : CellAddr) (hw : VHw)
  /-- VIMUL (R89): V-cell integer multiply, low 32 bits. -/
  | vimul (c : CellAddr) (hw : VHw)
  /-- VAND (R89): V-cell bitwise AND. -/
  | vand (c : CellAddr) (hw : VHw)
  /-- VOR (R89): V-cell bitwise OR. -/
  | vor (c : CellAddr) (hw : VHw)
  /-- VXOR (R89): V-cell bitwise XOR. -/
  | vxor (c : CellAddr) (hw : VHw)
  /-- VSHL (R89): V-cell shift left. -/
  | vshl (c : CellAddr) (hw : VHw)
  /-- VSHR (R89): V-cell logical shift right. -/
  | vshr (c : CellAddr) (hw : VHw)
  /-- VSAR (R89): V-cell arithmetic shift right. -/
  | vsar (c : CellAddr) (hw : VHw)
  /-- VCVT (R91): V-cell conversion of FP32 to a narrower format part, optionally stochastic. -/
  | vcvt (c : CellAddr) (hw : VHw)
  /-- VCVTW (R91): V-cell exact widening of a part to FP32. -/
  | vcvtw (c : CellAddr) (hw : VHw)
  /-- VQMX (R92): V-cell quantisation of FP32 to MX blocks with computed scales. -/
  | vqmx (c : CellAddr) (hw : VHw)
  /-- VQB (R92): V-cell quantisation of FP32 to B4S16 or B6S16 blocks. -/
  | vqb (c : CellAddr) (hw : VHw)
  /-- VDQ (R92): V-cell decoding of block-scaled elements to FP32. -/
  | vdq (c : CellAddr) (hw : VHw)
  /-- VITOF (R89): V-cell INT32 to FP32 conversion. -/
  | vitof (c : CellAddr) (hw : VHw)
  /-- VFTOI (R89): V-cell FP32 to INT32 conversion, saturating. -/
  | vftoi (c : CellAddr) (hw : VHw)
  /-- VEXP2 (R94): V-cell base-2 exponential, correctly rounded. -/
  | vexp2 (c : CellAddr) (hw : VHw)
  /-- VLOG2 (R94): V-cell base-2 logarithm, correctly rounded. -/
  | vlog2 (c : CellAddr) (hw : VHw)
  /-- VRCP (R94): V-cell reciprocal, correctly rounded. -/
  | vrcp (c : CellAddr) (hw : VHw)
  /-- VRSQRT (R94): V-cell reciprocal square root, correctly rounded. -/
  | vrsqrt (c : CellAddr) (hw : VHw)
  /-- VTANH (R94): V-cell hyperbolic tangent, correctly rounded. -/
  | vtanh (c : CellAddr) (hw : VHw)
  /-- VSIGM (R94): V-cell sigmoid, correctly rounded. -/
  | vsigm (c : CellAddr) (hw : VHw)
  /-- VGELU (R94): V-cell GELU, correctly rounded. -/
  | vgelu (c : CellAddr) (hw : VHw)
  /-- VRSUM (R95): V-cell fixed-tree sum of active elements. -/
  | vrsum (c : CellAddr) (hw : VHw)
  /-- VRMAX (R95): V-cell largest active element. -/
  | vrmax (c : CellAddr) (hw : VHw)
  /-- VRMIN (R95): V-cell smallest active element. -/
  | vrmin (c : CellAddr) (hw : VHw)
  /-- VRARGMAX (R95): V-cell index of the largest active element. -/
  | vrargmax (c : CellAddr) (hw : VHw)
  /-- VRISUM (R95): V-cell integer sum of active elements modulo 2^32. -/
  | vrisum (c : CellAddr) (hw : VHw)
  /-- VPERM (R89): V-cell permute by index vector. -/
  | vperm (c : CellAddr) (hw : VHw)
  /-- VROT (R89): V-cell rotate by immediate. -/
  | vrot (c : CellAddr) (hw : VHw)
  /-- VBCAST (R89): V-cell broadcast of one element. -/
  | vbcast (c : CellAddr) (hw : VHw)
  /-- VSPLAT (R89): V-cell fill of every slot from an address register. -/
  | vsplat (c : CellAddr) (hw : VHw)
  /-- VEXT (R89): V-cell extraction of one slot into an address register. -/
  | vext (c : CellAddr) (hw : VHw)
  /-- VMLOG (R89): V-cell logic on mask registers. -/
  | vmlog (c : CellAddr) (hw : VHw)
  /-- VLD (R96): V-cell load of 256 B from a bank. -/
  | vld (c : CellAddr) (hw : VHw)
  /-- VST (R96): V-cell store of 256 B to a bank. -/
  | vst (c : CellAddr) (hw : VHw)
  /-- VGATH (R96): V-cell gather of 32-bit words. -/
  | vgath (c : CellAddr) (hw : VHw)
  /-- VSCAT (R96): V-cell scatter of 32-bit words. -/
  | vscat (c : CellAddr) (hw : VHw)
  /-- VRECV (R97): V-cell receive of the next message on an endpoint, waiting while it is empty. -/
  | vrecv (c : CellAddr) (hw : VHw)
  /-- VSEND (R97): V-cell send of granules to an endpoint, waiting for credit. -/
  | vsend (c : CellAddr) (hw : VHw)
  /-- VCUEW (R97): V-cell wait for and take the next cue on an endpoint. -/
  | vcuew (c : CellAddr) (hw : VHw)
  /-- VCUEP (R97): V-cell post of a cue on an endpoint. -/
  | vcuep (c : CellAddr) (hw : VHw)
  /-- VAMOV (R89): V-cell load of an immediate into an address register. -/
  | vamov (c : CellAddr) (hw : VHw)
  /-- VAADD (R89): V-cell address-register add. -/
  | vaadd (c : CellAddr) (hw : VHw)
  /-- VLOOP (R97): V-cell hardware loop over the next instructions. -/
  | vloop (c : CellAddr) (hw : VHw)
  /-- VBR (R89): V-cell unconditional branch. -/
  | vbr (c : CellAddr) (hw : VHw)
  /-- VBNZ (R89): V-cell branch if an address register is non-zero. -/
  | vbnz (c : CellAddr) (hw : VHw)
  /-- VEND (R89): V-cell end of this beat's program. -/
  | vend (c : CellAddr) (hw : VHw)
  /-- NOP (R107): S-cell no-operation. -/
  | sNop (c : CellAddr) (hw : SHw)
  /-- ADD (R107): S-cell integer add. -/
  | sAdd (c : CellAddr) (hw : SHw)
  /-- SUB (R107): S-cell integer subtract. -/
  | sSub (c : CellAddr) (hw : SHw)
  /-- AND (R107): S-cell bitwise AND. -/
  | sAnd (c : CellAddr) (hw : SHw)
  /-- OR (R107): S-cell bitwise OR. -/
  | sOr (c : CellAddr) (hw : SHw)
  /-- XOR (R107): S-cell bitwise XOR. -/
  | sXor (c : CellAddr) (hw : SHw)
  /-- SHL (R107): S-cell shift left. -/
  | shl (c : CellAddr) (hw : SHw)
  /-- SHR (R107): S-cell logical shift right. -/
  | shr (c : CellAddr) (hw : SHw)
  /-- SAR (R107): S-cell arithmetic shift right. -/
  | sar (c : CellAddr) (hw : SHw)
  /-- MUL (R107): S-cell multiply, low 64 bits. -/
  | sMul (c : CellAddr) (hw : SHw)
  /-- MULHU (R107): S-cell unsigned multiply, high 64 bits. -/
  | mulhu (c : CellAddr) (hw : SHw)
  /-- MIN (R107): S-cell signed minimum. -/
  | sMin (c : CellAddr) (hw : SHw)
  /-- MAX (R107): S-cell signed maximum. -/
  | sMax (c : CellAddr) (hw : SHw)
  /-- MINU (R107): S-cell unsigned minimum. -/
  | minu (c : CellAddr) (hw : SHw)
  /-- MAXU (R107): S-cell unsigned maximum. -/
  | maxu (c : CellAddr) (hw : SHw)
  /-- ADDI (R107): S-cell add immediate. -/
  | addi (c : CellAddr) (hw : SHw)
  /-- ANDI (R107): S-cell AND immediate. -/
  | andi (c : CellAddr) (hw : SHw)
  /-- ORI (R107): S-cell OR immediate. -/
  | ori (c : CellAddr) (hw : SHw)
  /-- XORI (R107): S-cell XOR immediate. -/
  | xori (c : CellAddr) (hw : SHw)
  /-- SHLI (R107): S-cell shift left by immediate. -/
  | shli (c : CellAddr) (hw : SHw)
  /-- SHRI (R107): S-cell logical shift right by immediate. -/
  | shri (c : CellAddr) (hw : SHw)
  /-- SARI (R107): S-cell arithmetic shift right by immediate. -/
  | sari (c : CellAddr) (hw : SHw)
  /-- SETI (R107): S-cell set register to sign-extended 16-bit immediate. -/
  | seti (c : CellAddr) (hw : SHw)
  /-- APPI (R107): S-cell shift register left 16 and append an immediate. -/
  | appi (c : CellAddr) (hw : SHw)
  /-- CMP (R107): S-cell integer comparison writing a predicate. -/
  | cmp (c : CellAddr) (hw : SHw)
  /-- CMPI (R107): S-cell comparison with immediate writing a predicate. -/
  | cmpi (c : CellAddr) (hw : SHw)
  /-- PLOG (R107): S-cell logic on predicates. -/
  | plog (c : CellAddr) (hw : SHw)
  /-- LD (R107): S-cell load of 8 B. -/
  | sLd (c : CellAddr) (hw : SHw)
  /-- LDW (R107): S-cell load of 4 B, zero-extended. -/
  | ldw (c : CellAddr) (hw : SHw)
  /-- ST (R107): S-cell store of 8 B. -/
  | sSt (c : CellAddr) (hw : SHw)
  /-- STW (R107): S-cell store of 4 B. -/
  | stw (c : CellAddr) (hw : SHw)
  /-- FADD (R107): S-cell FP32 add. -/
  | fadd (c : CellAddr) (hw : SHw)
  /-- FMUL (R107): S-cell FP32 multiply. -/
  | fmul (c : CellAddr) (hw : SHw)
  /-- FCMP (R107): S-cell FP32 comparison writing a predicate. -/
  | fcmp (c : CellAddr) (hw : SHw)
  /-- FCVT (R107): S-cell conversion selected by func. -/
  | fcvt (c : CellAddr) (hw : SHw)
  /-- BR (R107): S-cell relative branch. -/
  | br (c : CellAddr) (hw : SHw)
  /-- BRL (R107): S-cell branch and link. -/
  | brl (c : CellAddr) (hw : SHw)
  /-- JR (R107): S-cell jump to register target. -/
  | jr (c : CellAddr) (hw : SHw)
  /-- CUE (R113): S-cell posts a cue on an endpoint over virtual channel 2. -/
  | cue (c : CellAddr) (hw : SHw)
  /-- CUEW (R107): S-cell waits for and takes the next cue on an endpoint. -/
  | cuew (c : CellAddr) (hw : SHw)
  /-- SEND (R107): S-cell sends one message of granules to an endpoint, waiting for credit. -/
  | sSend (c : CellAddr) (hw : SHw)
  /-- RECV (R111): S-cell receives the next message on an endpoint into its scratchpad. -/
  | sRecv (c : CellAddr) (hw : SHw)
  /-- PSEL (R115): S-cell consumes both heads of a predicated pair and keeps one by predicate. -/
  | psel (c : CellAddr) (hw : SHw)
  /-- POST (R107): S-cell remote write of granules to another cell's scratchpad under a grant. -/
  | post (c : CellAddr) (hw : SHw)
  /-- GREQ (R116): S-cell sends a space-grant request and waits for the answer. -/
  | greq (c : CellAddr) (hw : SHw)
  /-- BARA (R113): S-cell arrives at a barrier. -/
  | bara (c : CellAddr) (hw : SHw)
  /-- BARW (R107): S-cell waits until a barrier completes. -/
  | barw (c : CellAddr) (hw : SHw)
  /-- FLAGO (R113): S-cell ORs a value into a flag word. -/
  | flago (c : CellAddr) (hw : SHw)
  /-- FLAGR (R173): S-cell reads its block's copy of a flag word. -/
  | flagr (c : CellAddr) (hw : SHw)
  /-- KVREQ (R234): S-cell submits a 64 B KV stager request and receives a ticket, waiting while all tickets are held. -/
  | kvreq (c : CellAddr) (hw : SHw)
  /-- KVPOLL (R236): S-cell reads the status of a KV stager ticket. -/
  | kvpoll (c : CellAddr) (hw : SHw)
  /-- RAND (R117): S-cell computes one Philox4x32 generator call. -/
  | rand (c : CellAddr) (hw : SHw)
  /-- CTR (R107): S-cell reads a counter selected by immediate. -/
  | ctr (c : CellAddr) (hw : SHw)
  /-- END (R107): S-cell end of this beat's program. -/
  | sEnd (c : CellAddr) (hw : SHw)
  /-- CORRECTED_WRITE_BACK (R129): The bank writes a corrected word back at the next idle clock of its port. -/
  | correctedWriteBack (addr : Nat)
  /-- REMOTE_WRITE (R132): A remote write reaching the consumer's local port is checked against the live grants and lands or is refused. -/
  | remoteWrite (c : CellAddr)
  /-- GRANT_ACQUIRE (R135): An ACQUIRE request reaches the consumer and a FREE window is granted or an outcome returned. -/
  | grantAcquire (c : CellAddr)
  /-- GRANT_RELEASE (R135): A RELEASE request ends a grant early with a smaller count. -/
  | grantRelease (c : CellAddr)
  /-- GRANT_FREE (R135): A FREE request from the consumer's block returns a FILLED window to FREE. -/
  | grantFree (c : CellAddr)
  /-- GRANT_ANSWER (R136): A grant answer item reaches the requesting writer. -/
  | grantAnswer (c : CellAddr)
  /-- SWEEP_STRIP (R139): The background sweep tests the next strip of a bank: copy, redirect, March C-, restore. -/
  | sweepStrip (c : CellAddr) (bank : Nat) (runs : List (List MarchFail)) (bad : List EccEvent)
  /-- SEAM_FLIT_TIME (R149): A receiving seam bridge checks one flit time's CRCs and delivers, poisons or discards it. -/
  | seamFlitTime (blk : Nat) (dir : Nat) (flips : List Nat)
  /-- SEAM_ERROR_THRESHOLD (R151): Three CRC failures within 1 ms make the seam bridge hold the link and start a wire test. -/
  | seamErrorThreshold (blk : Nat) (dir : Nat)
  /-- SEAM_WIRE_TEST_DONE (R151): The wire test ends and the bridge swaps spares or starts a full retrain. -/
  | seamWireTestDone (blk : Nat) (dir : Nat) (badWires : List Nat) (badClock : Bool)
  /-- SEAM_RETRAIN_DONE (R151): A full seam retrain ends, and a failed retrain takes the link down. -/
  | seamRetrainDone (blk : Nat) (dir : Nat) (ok : Bool)
  /-- SLOT_PERIOD_START (R155): A region starts a slot period at each 32 ns multiple of its house clock. -/
  | slotPeriodStart (g : Nat)
  /-- CIRCUIT_SLOT (R153): An output slot carries the circuit's flit, a virtual-channel-3 or a packet flit, by priority. -/
  | circuitSlot (blk : Nat) (out : Nat) (slot : Nat) (pick : Nat)
  /-- RIGGING_REWRITE (R161): Firmware rewrites rigging entries, which take effect at the next period. -/
  | riggingRewrite (edits : List RigEdit)
  /-- PACKET_HOP (R163): A crossing routes a packet head flit by destination, home hub port, detour or dimension order. -/
  | packetHop (blk : Nat) (inPort : Nat)
  /-- DETOUR_INSTALL (R165): Firmware installs a checked set of detour entries around a crevasse. -/
  | detourInstall (set : List (Nat × List Word64))
  /-- VC2_ITEM_HOP (R154): A virtual-channel-2 item moves one hop on the side lane. -/
  | vc2ItemHop (blk : Nat) (inPort : Nat)
  /-- TRANSPORT_RECEIVE (R168): A block or hub receives a transport packet and accepts, discards, NAKs or acknowledges it. -/
  | transportReceive (blk : BlkRead) (toHub : Bool)
  /-- TRANSPORT_NAK (R168): A sender receiving a NAK resends every unacknowledged packet. -/
  | transportNak (blk : Nat) (toHub : Bool)
  /-- TRANSPORT_RESEND_TIMEOUT (R168): After 4 us without a new acknowledgement the sender resends from the oldest packet. -/
  | transportResendTimeout (blk : Nat) (toHub : Bool)
  /-- TRANSPORT_ACK_TIMER (R168): The receiver sends a cumulative acknowledgement when 1 us has passed. -/
  | transportAckTimer (blk : Nat) (toHub : Bool)
  /-- TRANSPORT_CREDIT (R167): A CREDIT packet or credit field returns transport credit to a sender. -/
  | transportCredit (blk : Nat) (toHub : Bool)
  /-- PACKET_DELIVER (R169): A packet between two blocks is checked at its destination and acted on. -/
  | packetDeliver (c : CellAddr)
  /-- PACKET_READ (R169): A READ of a scratchpad is answered with READ_DATA. -/
  | packetRead (c : CellAddr) (ecc : List EccEvent)
  /-- READ_DATA (R169): A READ_DATA packet returns the read granules to the requester. -/
  | readData (c : CellAddr)
  /-- MULTICAST_COPY (R170): A crossing copies a multicast packet to the ports of its group mask. -/
  | multicastCopy (blk : Nat) (inPort : Nat)
  /-- MULTICAST_NAK (R170): A leaf's NAK makes the sender resend the packet by unicast to that leaf. -/
  | multicastNak (blk : Nat)
  /-- BARRIER_ARRIVAL (R172): A barrier arrival item reaches a combine entry and is combined towards the root. -/
  | barrierArrival (blk : Nat)
  /-- BARRIER_COMPLETION (R172): A barrier completion travels down the tree to the member cells. -/
  | barrierCompletion (blk : Nat)
  /-- FLAG_UPDATE (R173): A flag update item is ORed towards the root, which holds the flag word. -/
  | flagUpdate (blk : Nat)
  /-- FLAG_VALUE (R173): A new flag value travels down the tree and updates block copies. -/
  | flagValue (blk : Nat)
  /-- CHANNEL_DRAIN_DONE (R180): After a destroy, every flit of the channel has landed or been discarded and the index is freed. -/
  | channelDrainDone (idx : Nat)
  /-- MESSAGE_ARRIVAL (R182): A message lands in a receiving endpoint's storage or wings. -/
  | messageArrival (c : CellAddr) (ep : Nat)
  /-- CREDIT_FLUSH_TIMER (R183): A receiving endpoint sends a credit item 1 us after the oldest unsent credit was freed. -/
  | creditFlushTimer (c : CellAddr) (ep : Nat)
  /-- CREDIT_ITEM (R183): A credit item reaches a sending endpoint and raises its credit. -/
  | creditItem (c : CellAddr)
  /-- CUE_ARRIVAL (R186): A cue item lands in a cue endpoint as an 8 B entry. -/
  | cueArrival (c : CellRead)
  /-- CHORUS_CONTRIBUTION (R189): A chorus endpoint adds a contribution into its item's slot or drops it. -/
  | chorusContribution (c : CellRead) (ep : Nat)
  /-- CHORUS_WINDOW_ITEM (R189): A chorus window item advances a sender's window limit. -/
  | chorusWindowItem (c : CellAddr)
  /-- GATE_STEP (R194): A cue gate consumes one cue and one data item and moves the item. -/
  | gateStep (c : CellAddr) (ep : Nat) (ecc : List EccEvent)
  /-- CUE_TIMEOUT (R200): One side of a gate has waited for skew_limit and a cue-timeout event is raised. -/
  | cueTimeout (c : CellAddr) (ep : Nat)
  /-- WING_MOVE (R197): The local port moves the oldest wing message into a freed queue cell. -/
  | wingMove (c : CellRead) (ep : Nat)
  /-- CHANNEL_STALL (R200): A sender waiting stall_limit without credit raises a channel stall event. -/
  | channelStall (c : CellAddr) (ep : Nat)
  /-- BARRIER_STALL (R200): A cell waiting stall_limit at a barrier raises a barrier stall event. -/
  | barrierStall (c : CellAddr)
  /-- HANG_DECLARE (R201): The lead declares a hang when two or more stall events have held for stall_limit with no consumption. -/
  | hangDeclare
  /-- SCENE_BARRIER_ARRIVAL (R214): A cell that has run its last beat of an entry arrives at its group's scene barrier. -/
  | sceneBarrierArrival (c : CellAddr)
  /-- SCENE_REFILL_DONE (R215): A scene image refill from reserve or DRAM completes and the cell starts. -/
  | sceneRefillDone (c : CellAddr) (ecc : Bool)
  /-- ACT_OPEN (R228): At an act's open time the block controllers release act-gated entries. -/
  | actOpen
  /-- CURTAIN_COMMIT (R241): At an act's curtain each taking-part slot commits or drops and the next roster is fixed. -/
  | curtainCommit
  /-- WATCHDOG_PERIOD (R295): With no act open or queued, a period of 16 x stall_limit without a beat end advances the watchdog. -/
  | watchdogPeriod
  /-- COMPLETION_DELIVERY (R247): After a commit the panel writes TOKENS, ACT_SUMMARY and SLOT_EVENT entries as ring space allows. -/
  | completionDelivery (ring : Nat)
  /-- ROSTER (R235): KV stager op writing an act's roster into a window. -/
  | roster (ticket : Nat)
  /-- APPEND (R235): KV stager op staging KV rows from a cell to DRAM. -/
  | append (ticket : Nat) (ecc : List EccEvent)
  /-- APPEND_LANDED (R240): An APPEND's rows finish landing in DRAM and the ticket reports DONE. -/
  | appendLanded (ticket : Nat)
  /-- COMPLETE (R235): KV stager op staging a slot's sampled token for the act. -/
  | complete (ticket : Nat)
  /-- STREAM (R238): KV stager op delivering cold pages for this or the next act. -/
  | stream (ticket : Nat)
  /-- FETCH (R235): KV stager op delivering committed hot or cold pages. -/
  | fetch (ticket : Nat)
  /-- PAGE_DELIVERY (R235): A porter delivers one page or roster into its assigned window. -/
  | pageDelivery (porter : Nat) (ecc : List DramErr)
  /-- SLOT_CLOSE_DONE (R231): A slot close completes: pages freed and erased and a CLOSED event written. -/
  | slotCloseDone (slot : Nat)
  /-- PROMPT (R246): A PROMPT submission entry appends prompt identifiers to a slot or is refused. -/
  | prompt (ring : Nat) (entry : List Byte)
  /-- ENROL (R246): An ENROL submission entry pauses or resumes a slot. -/
  | enrol (ring : Nat) (entry : List Byte)
  /-- ARBITER_PERIOD (R250): The arbiter starts a period of 256 grants, refreshing class credit and applying a staged table. -/
  | arbiterPeriod (res : Nat)
  /-- ARBITER_GRANT (R250): The arbiter gives one 256 B grant to a class by credit or borrowing. -/
  | arbiterGrant (res : Nat)
  /-- DRAM_READ (R256): A DRAM unit read is decrypted and delivered clean, corrected or as poison. -/
  | dramRead (addr : Nat) (errs : List DramErr)
  /-- DRAM_WRITE (R256): A DRAM unit write is encrypted and stored, with read-modify-write for partial units. -/
  | dramWrite (addr : Nat) (data : List Byte) (errs : List DramErr)
  /-- DRAM_CORRECTED_REWRITE (R256): A corrected DRAM unit is rewritten at the next idle slot of its channel. -/
  | dramCorrectedRewrite (unit : Nat)
  /-- BAR4_ACCESS (R319): A host access through BAR4 reaches DRAM through the aperture in class 3. -/
  | bar4Access (off : Nat) (len : Nat) (write : Bool) (data : List Byte) (poison : Bool) (errs : List DramErr)
  /-- PORTER_DESC (R260): A PORTER_DESC submission entry queues a descriptor on a porter. -/
  | porterDesc (ring : Nat) (entry : List Byte)
  /-- PORTER_NOP (R259): A porter starts a NOP descriptor. -/
  | porterNop (p : Nat)
  /-- PORTER_COPY (R259): A porter starts a COPY descriptor. -/
  | porterCopy (p : Nat) (ev : PorterEv)
  /-- PORTER_FILL (R259): A porter starts a FILL descriptor. -/
  | porterFill (p : Nat) (ev : PorterEv)
  /-- PORTER_FENCE (R261): A FENCE descriptor starts once every descriptor ahead of it has completed. -/
  | porterFence (p : Nat)
  /-- PORTER_DONE (R264): A porter descriptor completes and sends its completion to notify_handle. -/
  | porterDone (p : Nat)
  /-- PORTER_STEAL (R262): A porter idle for 200 ns steals half the eligible descriptors of a victim. -/
  | porterSteal (p : Nat)
  /-- PORTER_GRANT_RETRY (R263): A porter whose ACQUIRE was answered BUSY retries after 1 us. -/
  | porterGrantRetry (p : Nat)
  /-- SPOT_REHEARSAL (R270): A block controller runs a spot-rehearsal kernel on a cell every 2 s. -/
  | spotRehearsal (c : CellAddr) (outs : List OutWord) (ecc : Bool) (cut : Bool)
  /-- DRESS_REHEARSAL_DONE (R304): A recovery's dress rehearsal ends, fencing failing cells or entering DARK above 2 %. -/
  | dressRehearsalDone (fails : List RehearsalFail)
  /-- PAIRED_ITEM_COMPARE (R281): Base camp matches a paired item with its twin's, hashes both and acts or declares a mismatch. -/
  | pairedItemCompare (c : PairRead)
  /-- PAIRED_ITEM_TIMEOUT (R281): The twin item has not arrived stall_limit after the first, a paired mismatch. -/
  | pairedItemTimeout (c : CellAddr)
  /-- TALLY_SAMPLE (R282): The block controller forms a cell tally and sends its record to the lead. -/
  | tallySample (c : CellAddr)
  /-- TALLY_COMPARE (R282): Firmware compares twins' tally records and declares a mismatch if they differ. -/
  | tallyCompare (c : CellAddr)
  /-- TALLY_TIMEOUT (R282): A tally record with no partner within stall_limit is a paired mismatch. -/
  | tallyTimeout (c : CellAddr)
  /-- CAIRN_FLUSH (R289): A staged cairn record reaches module flash. -/
  | cairnFlush
  /-- PROGRESS_STUCK (R292): A cell with no progress for stall_limit within a beat is fenced. -/
  | progressStuck (c : CellAddr)
  /-- QUIESCE_DONE (R306): Every region and base-camp unit acknowledges quiesce. -/
  | quiesceDone
  /-- QUIESCE_TIMEOUT (R306): Quiesce misses its 5 ms bound and a compute reset takes over. -/
  | quiesceTimeout
  /-- HEARTBEAT_TICK (R296): A stage core advances its heartbeat every 100 us. -/
  | heartbeatTick (n : Nat)
  /-- HEARTBEAT_LOSS (R296): A heartbeat unchanged for 1 ms marks the stage core lost and restarts it. -/
  | heartbeatLoss (n : Nat)
  /-- CORE_REJOIN (R296): A restarted stage core rejoins after its image is verified. -/
  | coreRejoin (n : Nat) (verified : Bool)
  /-- SNAPSHOT_DONE (R299): The frozen field's hang snapshot has been written and encrypted. -/
  | snapshotDone (ecc : List EccEvent)
  /-- COMPUTE_RESET_DONE (R303): Every region and base-camp unit acknowledges the compute reset. -/
  | computeResetDone
  /-- COMPUTE_RESET_TIMEOUT (R303): An acknowledgement is missing at 5 ms and the panel enters DARK. -/
  | computeResetTimeout
  /-- RESTART_FROM_BELAY (R310): Reloads finish, belay extents are copied back, scene stores refilled and the panel enters RUNNING. -/
  | restartFromBelay (dram : List DramErr)
  /-- BELAY_HOLD (R309): A fold group's scene barrier that ends its belay entry is held. -/
  | belayHold (group : Nat)
  /-- BELAY_COPY_DONE (R309): The belay copy and header are written and the barriers released. -/
  | belayCopyDone (dram : List DramErr)
  /-- PCIE_LINK_TRAIN (R316): The PCI Express link trains or retrains and settles at a mode or as degraded. -/
  | pcieLinkTrain (rate : Nat) (width : Nat) (flit : Bool) (degraded : Bool)
  /-- PCIE_RESET (R322): A fundamental, hot, link-down or function-level reset closes sessions, destroys rings and may unload the package. -/
  | pcieReset (kind : PcieReset)
  /-- BAR4_RESIZE (R319): Resizing BAR4 sets APERTURE_BASE to zero. -/
  | bar4Resize (size : Nat)
  /-- HELLO (R329): Nymak command opening or closing a mailbox session. -/
  | hello (mb : Nat) (req : NyReq)
  /-- PACKAGE_LOAD (R210): Nymak command loading a stage package under the tests of Table 8.5. -/
  | packageLoad (mb : Nat) (req : NyReq) (pkg : Package)
  /-- PACKAGE_LOAD_PROCEED (R210): A deferred PACKAGE_LOAD proceeds once the strike has finished. -/
  | packageLoadProceed
  /-- PACKAGE_UNLOAD (R336): Nymak command unloading the package, destroying channels, closing slots and striking. -/
  | packageUnload (mb : Nat) (req : NyReq) (ns : Nat)
  /-- CHANNEL_CREATE (R337): Nymak command joining an open endpoint or creating a host ring. -/
  | channelCreate (mb : Nat) (req : NyReq)
  /-- CHANNEL_DESTROY (R180): Nymak command shutting a channel or ring down. -/
  | channelDestroy (mb : Nat) (req : NyReq)
  /-- ACT_SCHEDULE (R226): Nymak command queuing an act record. -/
  | actSchedule (mb : Nat) (req : NyReq)
  /-- ACT_STOP (R227): Nymak command removing queued acts and optionally aborting the act in progress. -/
  | actStop (mb : Nat) (req : NyReq)
  /-- SLOT_OPEN (R230): Nymak command opening a sequence slot. -/
  | slotOpen (mb : Nat) (req : NyReq)
  /-- SLOT_CLOSE (R231): Nymak command moving a slot to CLOSING. -/
  | slotClose (mb : Nat) (req : NyReq)
  /-- BELAY_SET (R308): Nymak command arming a belay. -/
  | belaySet (mb : Nat) (req : NyReq)
  /-- RESTART (R297): Nymak command forcing the hang route. -/
  | restart (mb : Nat) (req : NyReq)
  /-- STRIKE (R338): Nymak command striking every cell and crypto-erasing job DRAM or listed regions. -/
  | strike (mb : Nat) (req : NyReq) (ns : Nat)
  /-- FENCE_QUERY (R339): Nymak command returning fence counts and copying the cast list and distance table. -/
  | fenceQuery (mb : Nat) (req : NyReq)
  /-- REQUALIFY (R370): Nymak command naming units as candidates or returning a region to service. -/
  | requalify (mb : Nat) (req : NyReq)
  /-- REGION_RETURN_DONE (R371): A requalified region is powered, struck, verified and rehearsed. -/
  | regionReturnDone (g : Nat) (reached : Bool) (fails : List RehearsalFail)
  /-- ATTEST (R421): Nymak command queuing an evidence request or copying the certificate. -/
  | attest (mb : Nat) (req : NyReq)
  /-- EVIDENCE_SIGN (R421): Doreana signs the evidence at the head of its queue and copies it out. -/
  | evidenceSign
  /-- KEY_IMPORT (R423): Nymak command importing the job data key under the current KEM key. -/
  | keyImport (mb : Nat) (req : NyReq)
  /-- KEM_KEY_MAKE (R423): Doreana makes a new KEM key after the previous one is consumed. -/
  | kemKeyMake
  /-- ROPE_ENABLE (R378): ROPE_CONFIG op enabling a ring and opening its bypass. -/
  | ropeEnable (mb : Nat) (req : NyReq)
  /-- ROPE_DISABLE (R395): ROPE_CONFIG op disabling a ring. -/
  | ropeDisable (mb : Nat) (req : NyReq)
  /-- ROPE_PEERS (R394): ROPE_CONFIG op replacing the rope peer list. -/
  | ropePeers (mb : Nat) (req : NyReq)
  /-- ROPE_CONFIG_SPARE (R375): ROPE_CONFIG op commanding a lane spare swap. -/
  | ropeConfigSpare (mb : Nat) (req : NyReq)
  /-- ROPE_LANDING (R385): ROPE_CONFIG op opening a landing for a stream. -/
  | ropeLanding (mb : Nat) (req : NyReq)
  /-- ROPE_LANDING_CLOSE (R394): ROPE_CONFIG op closing a stream landing. -/
  | ropeLandingClose (mb : Nat) (req : NyReq)
  /-- REDUCE_CONFIG (R387): Nymak command configuring the reduction team. -/
  | reduceConfig (mb : Nat) (req : NyReq)
  /-- TELEMETRY_CONFIG (R435): Nymak command configuring telemetry to a completion ring. -/
  | telemetryConfig (mb : Nat) (req : NyReq)
  /-- CAIRN_READ (R340): Nymak command copying held cairn records. -/
  | cairnRead (mb : Nat) (req : NyReq)
  /-- MODE_SET (R267): Nymak command selecting Checked or Paired service for the next load. -/
  | modeSet (mb : Nat) (req : NyReq)
  /-- SNAPSHOT_READ (R341): Nymak command copying encrypted snapshot bytes to the host. -/
  | snapshotRead (mb : Nat) (req : NyReq)
  /-- DEFERRAL_FINAL (R334): A deferred function comes up or fails and its deferral-log entry becomes final. -/
  | deferralFinal (mb : Nat) (entry : Nat)
  /-- RING_DOORBELL (R320): A host write to a ring doorbell moves its ring position. -/
  | ringDoorbell (off : Nat) (width : Nat) (write : Bool) (data : Word64)
  /-- PAD_ENTRY (R346): The panel passes a PAD entry at the ring end. -/
  | padEntry (ring : Nat) (entry : List Byte)
  /-- MESSAGE_ENTRY (R344): A MESSAGE submission entry is sent to the joined endpoint. -/
  | messageEntry (ring : Nat) (entry : List Byte)
  /-- RING_IRQ_TIMER (R347): irq_delay_us after the first unsignalled entry the ring's vector is raised. -/
  | ringIrqTimer (ring : Nat)
  /-- RING_SHUTDOWN_DONE (R349): 50 us after destroy the ring's shutdown ends and its index may be reused. -/
  | ringShutdownDone (ring : Nat)
  /-- START_COLD (R355): Sequencer command starting a cold start. -/
  | startCold (value : Word64)
  /-- START_WARM (R355): Sequencer command starting a warm start. -/
  | startWarm (value : Word64)
  /-- POWER_CHECK (R352): Bring-up step checking the input and starting converters and rails. -/
  | powerCheck (value : Word64) (env : StepEnv)
  /-- SECURE_BOOT (R416): Bring-up step verifying the firmware images. -/
  | secureBoot (value : Word64) (env : StepEnv)
  /-- FW_LOAD (R352): Bring-up step loading or reusing stage-core and house-core firmware. -/
  | fwLoad (value : Word64) (env : StepEnv)
  /-- SEAM_TRAIN (R352): Bring-up step training or verifying seams and hub ports. -/
  | seamTrain (value : Word64) (env : StepEnv)
  /-- DRAM_TRAIN (R254): Bring-up step training or verifying the DRAM channels. -/
  | dramTrain (value : Word64) (env : StepEnv)
  /-- ROPE_TRAIN (R352): Bring-up step training the rope ports. -/
  | ropeTrain (value : Word64) (env : StepEnv)
  /-- BIST (R360): Bring-up step running built-in self-test and repair. -/
  | bist (value : Word64) (env : StepEnv)
  /-- MAP_MERGE (R364): Bring-up step merging defect maps and burning fuses. -/
  | mapMerge (value : Word64) (env : StepEnv)
  /-- PARTNER_CHECK (R366): Bring-up step voting cells against their neighbours. -/
  | partnerCheck (value : Word64) (env : StepEnv)
  /-- RIGGING_BASE (R352): Bring-up step loading hub-hole detours, home ports and the distance table. -/
  | riggingBase (value : Word64) (env : StepEnv)
  /-- DRESS_REHEARSAL (R368): Bring-up step running the dress rehearsal on every serviceable unit. -/
  | dressRehearsal (value : Word64) (env : StepEnv)
  /-- STRIKE_STEP (R352): Bring-up step striking every cell and erasing job DRAM and the snapshot region. -/
  | strikeStep (value : Word64) (env : StepEnv)
  /-- READY_STEP (R352): Bring-up step saving maps and settings, locking RWL fields and entering READY. -/
  | readyStep (value : Word64) (env : StepEnv)
  /-- STEP_COMPLETE (R352): A bring-up step finishes, setting step_done or failing the start. -/
  | stepComplete
  /-- STEP_TIMEOUT (R352): A step exceeds its bound and fails with cause 0x0C. -/
  | stepTimeout
  /-- LOAD_RECHECK (R358): Input power first passing 50 % of the limit triggers the link recheck under load. -/
  | loadRecheck
  /-- LOAD_RECHECK_DONE (R358): The recheck finishes and the heavy set is written. -/
  | loadRecheckDone (env : StepEnv)
  /-- POWER_BAND_LIGHT (R357): Input below 50 % of the limit for 60 s returns the power band to light. -/
  | powerBandLight
  /-- STREAM_FRAME (R385): A rope STREAM frame lands in its landing or is forwarded. -/
  | streamFrame (port : Nat) (frame : FrameRead)
  /-- PARTIAL_FRAME (R390): A child's PARTIAL frame is added into the reducer buffer. -/
  | partialFrame (port : Nat) (frame : FrameRead)
  /-- PARAM_FRAME (R391): A PARAM frame of the broadcast lands and is forwarded to children. -/
  | paramFrame (port : Nat) (frame : FrameRead)
  /-- CTRL_FRAME (R380): A CTRL frame carries acknowledgement, NAK, spare switch or clock stamps. -/
  | ctrlFrame (port : Nat) (frame : RopeFrame)
  /-- ROPE_HELLO_FRAME (R383): A HELLO frame piece is reassembled into a session hello. -/
  | ropeHelloFrame (port : Nat) (frame : RopeFrame)
  /-- SESSION_FRAME (R383): A SESSION frame piece is reassembled into a session reply. -/
  | sessionFrame (port : Nat) (frame : RopeFrame)
  /-- REASSEMBLY_TIMEOUT (R383): A message not complete within 100 ms is discarded and a new HELLO follows. -/
  | reassemblyTimeout (port : Nat)
  /-- ROPE_REPLAY_TIMEOUT (R380): After 10 us without progress the sender replays from the oldest frame. -/
  | ropeReplayTimeout (port : Nat)
  /-- ROPE_ACK_TIMER (R380): The receiver acknowledges when 2 us have passed. -/
  | ropeAckTimer (port : Nat)
  /-- FEC_THRESHOLD (R375): More than 2^20 corrected symbols on a lane in 1 s triggers a spare swap. -/
  | fecThreshold (port : Nat) (lane : Nat)
  /-- SPARE_SWAP (R375): A logical rope lane moves to a spare at an agreed seq. -/
  | spareSwap (port : Nat) (lane : Nat)
  /-- BYPASS_OPEN (R378): At break time T the bypass opens and lanes 0-15 train. -/
  | bypassOpen (ring : Nat)
  /-- ROPE_REKEY (R384): A session rekeys after 3,600 s or 2^40 frames. -/
  | ropeRekey (port : Nat)
  /-- REDUCTION_STEP_OPEN (R389): Step k of every shard opens at t0 + k x period_ns. -/
  | reductionStepOpen (k : Nat)
  /-- REDUCTION_CUTOFF (R390): At a node's cutoff its in-time contributions close and it sends its partial or runs the summit step. -/
  | reductionCutoff (shard : ShardRead) (k : Nat)
  /-- REDUCTION_ABANDON (R390): At cutoff plus level_ns the node abandons incomplete contributions and sends an empty partial. -/
  | reductionAbandon (shard : ShardRead) (k : Nat)
  /-- INPUT_VOLTAGE_CHANGE (R396): The input voltage crosses a band of Table 16.1. -/
  | inputVoltageChange (mv : Nat)
  /-- CONVERTER_FAIL (R397): A failed converter is switched out within 5 us. -/
  | converterFail (n : Nat)
  /-- REGULATOR_FAULT (R397): A die regulator fault puts its region in CUT. -/
  | regulatorFault (g : Nat)
  /-- POWER_SAMPLE (R399): The power controller samples input power every 1 us. -/
  | powerSample (watts : Nat)
  /-- POWER_STEP_RAISE (R399): Every 100 us while over the limit, the power step code rises by one. -/
  | powerStepRaise
  /-- POWER_STEP_LOWER (R399): Every 1 ms while below 95 % of the limit, the power step code falls by one. -/
  | powerStepLower
  /-- FAST_CUT_HOLD_END (R400): The fast-cut hold of 1 ms ends and R399 resumes. -/
  | fastCutHoldEnd
  /-- FREQUENCY_CHANGE (R401): A region changes frequency step, voltage first when raising. -/
  | frequencyChange (g : Nat)
  /-- REFCLK_LOST (R402): The reference stops and the loops hold, setting ref_lost. -/
  | refclkLost
  /-- REFCLK_RETURN (R402): The reference returns. -/
  | refclkReturn
  /-- HOUSE_CLOCK_BEACON (R403): The master beacon corrects every region copy of the house clock. -/
  | houseClockBeacon (t : Nat)
  /-- HC_SYNC_EXCHANGE (R404): Every 100 us a follower exchanges stamps with its rope neighbour and slews. -/
  | hcSyncExchange (t2 : Nat) (t3 : Nat) (t4 : Nat) (locked : Bool) (depth : Nat)
  /-- THERMAL_STEP_UP (R406): At or above 95 C the thermal step code rises by one. -/
  | thermalStepUp (g : Nat) (temp : Int)
  /-- THERMAL_STEP_DOWN (R406): Below 92 C for 1 ms the thermal step code falls by one. -/
  | thermalStepDown (g : Nat) (temp : Int)
  /-- GHOST_ENTRY (R407): A region enters GHOST, stopping cells and slowing its mesh. -/
  | ghostEntry (g : Nat) (temp : Int) (working : Nat)
  /-- CUT_ENTRY (R408): A region enters CUT, stopping routers and becoming a crevasse. -/
  | cutEntry (g : Nat) (temp : Int)
  /-- CUT_EXIT (R409): Below 90 C for 1 s a region leaves CUT for GHOST. -/
  | cutExit (g : Nat) (temp : Int)
  /-- GHOST_EXIT (R409): Below 90 C for 100 ms a region leaves GHOST. -/
  | ghostExit (g : Nat) (temp : Int)
  /-- DOR_ENROL (R414): Setting enrol submits a staged owner enrolment record. -/
  | dorEnrol (value : Word64)
  /-- DOR_POLICY (R415): Setting policy submits a staged burn-policy record. -/
  | dorPolicy (value : Word64)
  /-- DOR_UNLOCK (R427): Setting unlock submits a debug token, which unlocks after destroying keys or is refused. -/
  | dorUnlock (value : Word64)
  /-- JTAG_INSTRUCTION (R426): A JTAG instruction is loaded and allowed or refused by the unlock state. -/
  | jtagInstruction (ir : Nat)
  /-- DOE_ATTEST (R422): A DOE attestation request object returns evidence or the certificate. -/
  | doeAttest (obj : List Byte)
  /-- SET_ENDPOINT_ID (R429): The bus owner assigns the MCTP endpoint ID. -/
  | setEndpointId (eid : Nat)
  /-- DYNAMIC_ADDRESS_ASSIGN (R429): An I3C controller assigns the dynamic address by ENTDAA or SETDASA. -/
  | dynamicAddressAssign (addr : Nat)
  /-- PLDM_SENSOR_READ (R431): A PLDM request reads a sensor. -/
  | pldmSensorRead (sensor : Nat)
  /-- SENSOR_REFRESH (R431): Numeric sensors refresh every 1 ms. -/
  | sensorRefresh (values : List (Nat × Int))
  /-- LIMIT_EFFECTER (R433): A PLDM effecter write sets limit_w. -/
  | limitEffecter (watts : Nat)
  /-- STATE (R434): Vendor command returning panel state and fence counts. -/
  | stateCmd
  /-- CAIRN_GET (R434): Vendor command returning one cairn record. -/
  | cairnGet (seq : Nat)
  /-- ROPE_SPARE (R434): Vendor command commanding a rope lane spare swap. -/
  | ropeSpare (port : Nat) (lane : Nat)
  /-- DEPTH_SAMPLE (R436): At each multiple of depth_us the selected regions sample endpoint fills. -/
  | depthSample
  /-- COUNTER_SAMPLE (R436): At each multiple of counter_us counter records are taken. -/
  | counterSample
  /-- TELEMETRY_WRITE (R438): A staged telemetry record is written to its ring when space allows. -/
  | telemetryWrite
  /-- POWER_QUALIFIED (R458): VIN in range and PWR_OK high for 10 ms power the always-on domain. -/
  | powerQualified
  /-- STANDBY_ENTRY (R458): The panel enters STANDBY, zeroes the house clock and raises STANDBY_OK. -/
  | standbyEntry
  /-- PWR_OK_LOW (R459): PWR_OK low for 10 us takes the panel to OFF. -/
  | pwrOkLow
  /-- PANEL_RESET (R459): PANEL_RESET_N low for 10 us takes the panel to OFF. -/
  | panelReset
  /-- POWER_LOSS (R459): VIN outside 52-63 V for 50 us takes the panel to OFF. -/
  | powerLoss
  /-- THERMTRIP (R459): The hardware trip at 125 C drives THERMTRIP_N low. -/
  | thermtrip
  /-- ROPE_TRAINING_DONE (R378): Training of a rope port's spares or lanes ends, and the ring moves on or goes DOWN. -/
  | ropeTrainingDone (port : Nat) (ok : Bool) (badLanes : List Nat)
  /-- ROPE_LINK_LOST (R395): A rope link is lost mid-step when its neighbour loses power, goes DARK or closes its bypass. -/
  | ropeLinkLost (port : Nat)
  /-- ROPE_DISABLE_DRAIN_END (R395): Replay after DISABLE ends when every frame is acknowledged or 1 ms has passed, and the session ends and the bypass closes. -/
  | ropeDisableDrainEnd (ring : Nat)
  /-- ROPE_HELLO_RETRY (R383): 100 ms after a discarded HELLO or SESSION message, the stage-right end sends a new HELLO. -/
  | ropeHelloRetry (port : Nat)
  /-- HOST_ACCESS_ERROR (R323): A panel request to host memory completes with an error or times out, and the ring concerned stops with last_err 0x07. -/
  | hostAccessError (ring : Nat)
  /-- BUS_MASTER_ENABLE_CHANGE (R323): The host changes Bus Master Enable, which stops or resumes ring reads, completion writes and host-bound porter work. -/
  | busMasterEnableChange (enable : Bool)
  /-- MB_DOORBELL_GO (R324): A go write to a mailbox doorbell that names no served command is completed at once by the house core, or with BAD_ARG for an unknown opcode. -/
  | mbDoorbellGo (mb : Nat) (req : NyReq)
  /-- REGION_CONTROLLER_UNREACHABLE (R221): The hub finds that it cannot reach a region's controller, and firmware declares the region lost. -/
  | regionControllerUnreachable (g : Nat)
  /-- OOB_UNSUPPORTED_MESSAGE (R429): An MCTP message of an unsupported type is answered with the binding's error and counted in err_count. -/
  | oobUnsupportedMessage (ty : Nat)
deriving DecidableEq, Repr

end Sys2Proof
end

