-- ==== Sys2Proof/Config.lean ====
section
/-! DEFINITION. What a module fixes at manufacture and what the spec leaves open: constants without a body, so that
nothing can be proved of their values (log 3, log 5). -/

namespace Sys2Proof

/-- A value the spec leaves open, drawn by the counter `State.freeIdx` (log 3). -/
opaque Config.freeValue : Nat → BitVec 64

/-- The result of an operation that the spec states no result for on some operands (R59: identical operands give identical bits): a code
of the operation, and its operands (log 3). -/
opaque Config.openResult : Nat → Nat → Nat → BitVec 64

/-- Column of the check matrix for stored bit 0-271 of a word, its weight made odd by `Machine.eccColumn` (R128; log 5). -/
opaque Config.eccColumn : Nat → BitVec 16

/-- The eight fault-sideband bits of Table 6.3 while a report crosses a seam, whose code the spec does not give (log 78): the report's
cell, cause and kind. -/
opaque Config.faultByte : Nat → Nat → Nat → BitVec 8

/-- Bytes the spec leaves open (keys, signatures, random strings), drawn by the counter (log 3, log 5). -/
opaque Config.freeBytes : Nat → Nat → List Byte

/-- A correctly rounded special-function result where the enclosing interval does not decide (log 7): function
code and operand. -/
opaque Config.undecided : Nat → Nat → BitVec 32

/-- PCI vendor identifier of the function (R447; log 5). -/
opaque Config.vendor : BitVec 16

/-- Silicon stepping of base camp, from fuses (R447; log 5). -/
opaque Config.stepping : BitVec 8

/-- Module build level, from flash (R447; log 5). -/
opaque Config.moduleRev : BitVec 8

/-- Module serial number, from flash (R447; log 5). -/
opaque Config.serial : BitVec 64

/-- Identity certificate (R412; log 5). -/
opaque Config.certificate : List Byte

/-- Identity public key of the panel, 64 B (R412; log 5). -/
opaque Config.publicKey : List Byte

/-- Version words of a firmware image by slot (R416; log 5). -/
opaque Config.fwVersion : Nat → BitVec 32

/-- Shape of a rehearsal kernel by its place in Table 11.2 (log 133): rows of A, columns of B, elements reduced over. -/
opaque Config.kernelShape : Nat → Nat × Nat × Nat

/-- The element, by seed, at which kernel M7 injects (R275; log 133). -/
opaque Config.kernelInject : Nat → Nat × Nat

/-- The expected signatures of the signed firmware image (R274; log 5): kernel by its place in Table 11.2, seed, step. -/
opaque Config.signature : Nat → Nat → Nat → BitVec 64

/-- The signature over all kernels of an engine type (0 M, 1 V, 2 S) that firmware expects in PARTNER_CHECK (R366; log 5). -/
opaque Config.partnerSig : Nat → BitVec 64

/-- AES-256-GCM (R257, R300, R384, R424; log 5): key, nonce, additional data, plaintext; ciphertext and tag. -/
opaque Config.aesGcm : List Byte → List Byte → List Byte → List Byte → List Byte × List Byte

/-- AES-256-XTS encryption of a data unit (R257; log 5): key pair, tweak, plaintext. -/
opaque Config.aesXts : List Byte → Nat → List Byte → List Byte

/-- ML-KEM decapsulation (R423; log 5): key number and ciphertext; the shared secret. -/
opaque Config.decapsulate : Nat → List Byte → List Byte

/-- ML-KEM encapsulation (R382; log 5): encapsulation key and randomness; ciphertext and shared secret. -/
opaque Config.encapsulate : List Byte → List Byte → List Byte × List Byte

/-- ML-KEM decapsulation with the key that Doreana holds for an encapsulation key it has sent (R382; log 5). -/
opaque Config.decapsulateOwn : List Byte → List Byte → List Byte

/-- SLH-DSA verification (R414, R416, R427; log 5): public key, message, signature. -/
opaque Config.verify : List Byte → List Byte → List Byte → Bool

/-- SLH-DSA signature of Doreana's identity key (R421; log 5). -/
opaque Config.sign : List Byte → List Byte

/-- Opening of AES-256-GCM (R423; log 5): key, nonce, additional data, ciphertext, tag; none when the tag fails. -/
opaque Config.gcmOpen : List Byte → List Byte → List Byte → List Byte → List Byte → Option (List Byte)

/-- ML-KEM-1024 encapsulation key by KEM key number (Table 17.3; log 5). -/
opaque Config.kemKey : Nat → List Byte

/-- Belvan's public key (R416, R426; log 5). -/
opaque Config.belvanKey : List Byte

end Sys2Proof
end

