-- ==== Sys2Proof/Machine/Bits.lean ====
section
/-! DEFINITION. Bit fields, byte order (R5), sign extension, saturation, and the operations of the sparse table. -/

namespace Sys2Proof.Machine

/-- Bits [lo + w - 1 : lo] of a number. -/
def bits (x lo w : Nat) : Nat := x >>> lo % 2 ^ w

/-- Bit n of a number. -/
def bitAt (x n : Nat) : Bool := x.testBit n

/-- `x` with bits [lo + w - 1 : lo] replaced by `v`. -/
def setBits (x lo w v : Nat) : Nat :=
  (x >>> (lo + w)) <<< (lo + w) + (v % 2 ^ w) <<< lo + x % 2 ^ lo

/-- The two's-complement value of the low `w` bits. -/
def toSigned (w x : Nat) : Int :=
  let y := x % 2 ^ w
  if y < 2 ^ (w - 1) then (y : Int) else (y : Int) - 2 ^ w

/-- The low `w` bits of an integer, as a number. -/
def ofSigned (w : Nat) (x : Int) : Nat := (x % (2 ^ w : Int)).toNat

/-- An addition that stops at the largest value of a `w`-bit field. -/
def satAdd (w x k : Nat) : Nat := min (x + k) (2 ^ w - 1)

/-- Limit an integer to a range. -/
def clampInt (lo hi x : Int) : Int := if x < lo then lo else if hi < x then hi else x

/-- One bit as a number. -/
def b2n (b : Bool) : Nat := if b then 1 else 0

/-- `n` bytes of a number, least significant first (R5). -/
def toLE : Nat → Nat → List Byte
  | 0, _ => []
  | n + 1, x => BitVec.ofNat 8 x :: toLE n (x >>> 8)

/-- The number that bytes spell, least significant first (R5). -/
def ofLE : List Byte → Nat
  | [] => 0
  | b :: bs => b.toNat + (ofLE bs) <<< 8

/-- Bytes of 64-bit words, in order (R5). -/
def wordBytes (ws : List Word64) : List Byte := ws.flatMap fun w => toLE 8 w.toNat

/-- A list cut into pieces of `n` (`k` pieces at most). -/
def chunks {α : Type} (n : Nat) : Nat → List α → List (List α)
  | 0, _ => []
  | k + 1, xs => if xs.isEmpty then [] else xs.take n :: chunks n k (xs.drop n)

/-- Numbers `0 … n - 1` for which `p` holds. -/
def indices (n : Nat) (p : Nat → Bool) : List Nat := (List.range n).filter p

/-- The value at a key, if listed. -/
def SMap.get? {α : Type} : SMap α → Nat → Option α
  | [], _ => none
  | (k, v) :: m, a => if k = a then some v else SMap.get? m a

/-- The value at a key; `d` where nothing is listed. -/
def SMap.getD {α : Type} (m : SMap α) (a : Nat) (d : α) : α := (SMap.get? m a).getD d

/-- The table with a key removed. -/
def SMap.del {α : Type} : SMap α → Nat → SMap α
  | [], _ => []
  | (k, v) :: m, a => if k = a then SMap.del m a else (k, v) :: SMap.del m a

/-- Insert before the first greater key. -/
def SMap.ins {α : Type} : SMap α → Nat → α → SMap α
  | [], a, x => [(a, x)]
  | (k, v) :: m, a, x => if k < a then (k, v) :: SMap.ins m a x else (a, x) :: (k, v) :: m

/-- The table with a key's value replaced. -/
def SMap.put {α : Type} (m : SMap α) (a : Nat) (x : α) : SMap α := SMap.ins (SMap.del m a) a x

/-- Replace the value at a key by a function of it. -/
def SMap.upd {α : Type} (m : SMap α) (a : Nat) (d : α) (f : α → α) : SMap α :=
  SMap.put m a (f (SMap.getD m a d))

/-- Apply a function to every listed value. -/
def SMap.mapVal {α β : Type} (f : Nat → α → β) (m : SMap α) : SMap β := m.map fun p => (p.1, f p.1 p.2)

/-- The listed keys. -/
def SMap.keys {α : Type} (m : SMap α) : List Nat := m.map (·.1)

/-- A set of numbers, rising: add one. -/
def NSet.add : List Nat → Nat → List Nat
  | [], a => [a]
  | k :: m, a => if k < a then k :: NSet.add m a else if k = a then k :: m else a :: k :: m

/-- A set of numbers: remove one. -/
def NSet.del (m : List Nat) (a : Nat) : List Nat := m.filter (· ≠ a)

/-- The element at a place of a list; `d` beyond its end. -/
def nth {α : Type} (xs : List α) (i : Nat) (d : α) : α := xs.getD i d

/-- Replace the element at a place of a list (nothing beyond its end). -/
def setNth {α : Type} : List α → Nat → α → List α
  | [], _, _ => []
  | _ :: xs, 0, y => y :: xs
  | x :: xs, i + 1, y => x :: setNth xs i y

/-- A left fold that carries the place. -/
def foldIdx {α β : Type} (f : Nat → β → α → β) : Nat → β → List α → β
  | _, b, [] => b
  | i, b, x :: xs => foldIdx f (i + 1) (f i b x) xs

/-- The first place at which `p` holds. -/
def findPlace {α : Type} (p : α → Bool) : List α → Option Nat
  | [] => none
  | x :: xs => if p x then some 0 else (findPlace p xs).map (· + 1)

end Sys2Proof.Machine
end

