-- ==== Sys2Proof/Machine/Regs.lean ====
section
/-! DEFINITION. The registers of BAR0 and of the region windows (R442-R451): every field of every register table
of the spec with its place, access code (R10), reset value and reset domain (R12). -/

namespace Sys2Proof.Machine

/-- A register field at a BAR0 offset: least significant bit and width. -/
structure RF where
  off : Nat
  lo : Nat
  w : Nat
deriving DecidableEq, Repr

/-- Access codes of Table 0.3. -/
inductive Access where
  | ro | rw | wo | w1c | w1s | rwl | rws
deriving DecidableEq, Repr

/-- Reset domains of Table 0.4. -/
inductive Domain where
  | cold | warm | compute
deriving DecidableEq, Repr

/-- A field of a register table. -/
structure FieldSpec where
  lo : Nat
  w : Nat
  acc : Access
  reset : Nat
deriving DecidableEq, Repr

/-- A register (or a row of registers at a fixed stride): in a region window or in BAR0, first offset, stride,
count, reset domain and fields. -/
structure RegRow where
  win : Bool
  base : Nat
  stride : Nat
  count : Nat
  domain : Domain
  fields : List FieldSpec
deriving DecidableEq, Repr

/-- Window index g = row * 12 + column of a cell address (R449). -/
def gOf (c : Nat) : Nat := (c >>> 12) * 12 + bits c 8 4

/-- Block number of a cell address (Table 0.2). -/
def bOf (c : Nat) : Nat := bits c 5 3

/-- Cell number of a cell address (Table 0.2). -/
def cOf (c : Nat) : Nat := bits c 0 3

/-- Window index of a block key (cell address / 32). -/
def bkG (b : Nat) : Nat := (b >>> 7) * 12 + bits b 3 4

/-- Block number of a block key. -/
def bkB (b : Nat) : Nat := bits b 0 3

/-- BAR0 offset of a region window (R449). -/
def winBase (g : Nat) : Nat := 0x2000000 + g * 0x10000

namespace Reg

/-- `refused_count` of `SP_GRANT_COUNTS` (R137). -/
def SP_GRANT_COUNTS_refused_count (c : Nat) : RF := ⟨winBase (gOf c) + 0xA0E0 + (bOf c * 7 + cOf c) * 0x100, 0, 24⟩
/-- `last_writer` of `SP_GRANT_COUNTS` (R137). -/
def SP_GRANT_COUNTS_last_writer (c : Nat) : RF := ⟨winBase (gOf c) + 0xA0E0 + (bOf c * 7 + cOf c) * 0x100, 24, 16⟩
/-- `last_reason` of `SP_GRANT_COUNTS` (R137). -/
def SP_GRANT_COUNTS_last_reason (c : Nat) : RF := ⟨winBase (gOf c) + 0xA0E0 + (bOf c * 7 + cOf c) * 0x100, 40, 8⟩
/-- `busy_count` of `SP_GRANT_COUNTS` (R137). -/
def SP_GRANT_COUNTS_busy_count (c : Nat) : RF := ⟨winBase (gOf c) + 0xA0E0 + (bOf c * 7 + cOf c) * 0x100, 48, 16⟩
/-- `state` of `PANEL_STATE` (R33). -/
def PANEL_STATE_state : RF := ⟨0x10, 0, 3⟩
/-- `prev_state` of `PANEL_STATE` (R33). -/
def PANEL_STATE_prev_state : RF := ⟨0x10, 4, 3⟩
/-- `dark_cause` of `PANEL_STATE` (R33). -/
def PANEL_STATE_dark_cause : RF := ⟨0x10, 8, 8⟩
/-- `transition_count` of `PANEL_STATE` (R33). -/
def PANEL_STATE_transition_count : RF := ⟨0x10, 16, 16⟩
/-- `state_changed` of `PANEL_STATE` (R33). -/
def PANEL_STATE_state_changed : RF := ⟨0x10, 32, 1⟩
/-- `replay_ok_count` of `MC_CK_COUNTS` (R83). -/
def MC_CK_COUNTS_replay_ok_count (c : Nat) : RF := ⟨winBase (gOf c) + 0x8000 + (bOf c * 4 + cOf c) * 0x40, 0, 24⟩
/-- `fault_count` of `MC_CK_COUNTS` (R83). -/
def MC_CK_COUNTS_fault_count (c : Nat) : RF := ⟨winBase (gOf c) + 0x8000 + (bOf c * 4 + cOf c) * 0x40, 24, 16⟩
/-- `skip_count` of `MC_CK_COUNTS` (R83). -/
def MC_CK_COUNTS_skip_count (c : Nat) : RF := ⟨winBase (gOf c) + 0x8000 + (bOf c * 4 + cOf c) * 0x40, 40, 24⟩
/-- `valid` of `MC_CK_LAST` (R83). -/
def MC_CK_LAST_valid (c : Nat) : RF := ⟨winBase (gOf c) + 0x8008 + (bOf c * 4 + cOf c) * 0x40, 0, 1⟩
/-- `row_hit` of `MC_CK_LAST` (R83). -/
def MC_CK_LAST_row_hit (c : Nat) : RF := ⟨winBase (gOf c) + 0x8008 + (bOf c * 4 + cOf c) * 0x40, 1, 1⟩
/-- `col_hit` of `MC_CK_LAST` (R83). -/
def MC_CK_LAST_col_hit (c : Nat) : RF := ⟨winBase (gOf c) + 0x8008 + (bOf c * 4 + cOf c) * 0x40, 2, 1⟩
/-- `replay_failed` of `MC_CK_LAST` (R83). -/
def MC_CK_LAST_replay_failed (c : Nat) : RF := ⟨winBase (gOf c) + 0x8008 + (bOf c * 4 + cOf c) * 0x40, 3, 1⟩
/-- `row` of `MC_CK_LAST` (R83). -/
def MC_CK_LAST_row (c : Nat) : RF := ⟨winBase (gOf c) + 0x8008 + (bOf c * 4 + cOf c) * 0x40, 4, 5⟩
/-- `col` of `MC_CK_LAST` (R83). -/
def MC_CK_LAST_col (c : Nat) : RF := ⟨winBase (gOf c) + 0x8008 + (bOf c * 4 + cOf c) * 0x40, 9, 5⟩
/-- `overrun` of `MC_CK_LAST` (R83). -/
def MC_CK_LAST_overrun (c : Nat) : RF := ⟨winBase (gOf c) + 0x8008 + (bOf c * 4 + cOf c) * 0x40, 15, 1⟩
/-- `desc` of `MC_CK_LAST` (R83). -/
def MC_CK_LAST_desc (c : Nat) : RF := ⟨winBase (gOf c) + 0x8008 + (bOf c * 4 + cOf c) * 0x40, 16, 6⟩
/-- `scene` of `MC_CK_LAST` (R83). -/
def MC_CK_LAST_scene (c : Nat) : RF := ⟨winBase (gOf c) + 0x8008 + (bOf c * 4 + cOf c) * 0x40, 22, 3⟩
/-- `kstep` of `MC_CK_LAST` (R83). -/
def MC_CK_LAST_kstep (c : Nat) : RF := ⟨winBase (gOf c) + 0x8008 + (bOf c * 4 + cOf c) * 0x40, 32, 16⟩
/-- `excess` of `MC_CK_LAST` (R83). -/
def MC_CK_LAST_excess (c : Nat) : RF := ⟨winBase (gOf c) + 0x8008 + (bOf c * 4 + cOf c) * 0x40, 48, 8⟩
/-- `inject` of `MC_CK_CTRL` (R83). -/
def MC_CK_CTRL_inject (c : Nat) : RF := ⟨winBase (gOf c) + 0x8010 + (bOf c * 4 + cOf c) * 0x40, 0, 1⟩
/-- `inject_row` of `MC_CK_CTRL` (R83). -/
def MC_CK_CTRL_inject_row (c : Nat) : RF := ⟨winBase (gOf c) + 0x8010 + (bOf c * 4 + cOf c) * 0x40, 1, 5⟩
/-- `inject_col` of `MC_CK_CTRL` (R83). -/
def MC_CK_CTRL_inject_col (c : Nat) : RF := ⟨winBase (gOf c) + 0x8010 + (bOf c * 4 + cOf c) * 0x40, 6, 5⟩
/-- `corrected_count` of `VC_CK_COUNTS` (R101). -/
def VC_CK_COUNTS_corrected_count (c : Nat) : RF := ⟨winBase (gOf c) + 0x8800 + (bOf c * 2 + cOf c - 4) * 0x40, 0, 24⟩
/-- `fault_count` of `VC_CK_COUNTS` (R101). -/
def VC_CK_COUNTS_fault_count (c : Nat) : RF := ⟨winBase (gOf c) + 0x8800 + (bOf c * 2 + cOf c - 4) * 0x40, 24, 16⟩
/-- `skip_count` of `VC_CK_COUNTS` (R101). -/
def VC_CK_COUNTS_skip_count (c : Nat) : RF := ⟨winBase (gOf c) + 0x8800 + (bOf c * 2 + cOf c - 4) * 0x40, 40, 24⟩
/-- `valid` of `VC_CK_LAST` (R101). -/
def VC_CK_LAST_valid (c : Nat) : RF := ⟨winBase (gOf c) + 0x8808 + (bOf c * 2 + cOf c - 4) * 0x40, 0, 1⟩
/-- `residue_hit` of `VC_CK_LAST` (R101). -/
def VC_CK_LAST_residue_hit (c : Nat) : RF := ⟨winBase (gOf c) + 0x8808 + (bOf c * 2 + cOf c - 4) * 0x40, 1, 1⟩
/-- `reissue_failed` of `VC_CK_LAST` (R101). -/
def VC_CK_LAST_reissue_failed (c : Nat) : RF := ⟨winBase (gOf c) + 0x8808 + (bOf c * 2 + cOf c - 4) * 0x40, 2, 1⟩
/-- `overrun` of `VC_CK_LAST` (R101). -/
def VC_CK_LAST_overrun (c : Nat) : RF := ⟨winBase (gOf c) + 0x8808 + (bOf c * 2 + cOf c - 4) * 0x40, 3, 1⟩
/-- `slot` of `VC_CK_LAST` (R101). -/
def VC_CK_LAST_slot (c : Nat) : RF := ⟨winBase (gOf c) + 0x8808 + (bOf c * 2 + cOf c - 4) * 0x40, 4, 6⟩
/-- `pc` of `VC_CK_LAST` (R101). -/
def VC_CK_LAST_pc (c : Nat) : RF := ⟨winBase (gOf c) + 0x8808 + (bOf c * 2 + cOf c - 4) * 0x40, 16, 9⟩
/-- `scene` of `VC_CK_LAST` (R101). -/
def VC_CK_LAST_scene (c : Nat) : RF := ⟨winBase (gOf c) + 0x8808 + (bOf c * 2 + cOf c - 4) * 0x40, 25, 3⟩
/-- `op` of `VC_CK_LAST` (R101). -/
def VC_CK_LAST_op (c : Nat) : RF := ⟨winBase (gOf c) + 0x8808 + (bOf c * 2 + cOf c - 4) * 0x40, 32, 8⟩
/-- `inject` of `VC_CK_CTRL` (R101). -/
def VC_CK_CTRL_inject (c : Nat) : RF := ⟨winBase (gOf c) + 0x8810 + (bOf c * 2 + cOf c - 4) * 0x40, 0, 1⟩
/-- `inject_slot` of `VC_CK_CTRL` (R101). -/
def VC_CK_CTRL_inject_slot (c : Nat) : RF := ⟨winBase (gOf c) + 0x8810 + (bOf c * 2 + cOf c - 4) * 0x40, 1, 6⟩
/-- `inject_bit` of `VC_CK_CTRL` (R101). -/
def VC_CK_CTRL_inject_bit (c : Nat) : RF := ⟨winBase (gOf c) + 0x8810 + (bOf c * 2 + cOf c - 4) * 0x40, 7, 5⟩
/-- `valid` of `SC_LOCKSTEP_LAST` (R103). -/
def SC_LOCKSTEP_LAST_valid (c : Nat) : RF := ⟨winBase (gOf c) + 0x8C08 + (bOf c) * 0x40, 0, 1⟩
/-- `overrun` of `SC_LOCKSTEP_LAST` (R103). -/
def SC_LOCKSTEP_LAST_overrun (c : Nat) : RF := ⟨winBase (gOf c) + 0x8C08 + (bOf c) * 0x40, 1, 1⟩
/-- `pc` of `SC_LOCKSTEP_LAST` (R103). -/
def SC_LOCKSTEP_LAST_pc (c : Nat) : RF := ⟨winBase (gOf c) + 0x8C08 + (bOf c) * 0x40, 4, 12⟩
/-- `scene` of `SC_LOCKSTEP_LAST` (R103). -/
def SC_LOCKSTEP_LAST_scene (c : Nat) : RF := ⟨winBase (gOf c) + 0x8C08 + (bOf c) * 0x40, 16, 3⟩
/-- `point` of `SC_LOCKSTEP_LAST` (R103). -/
def SC_LOCKSTEP_LAST_point (c : Nat) : RF := ⟨winBase (gOf c) + 0x8C08 + (bOf c) * 0x40, 19, 3⟩
/-- `reg` of `SC_LOCKSTEP_LAST` (R103). -/
def SC_LOCKSTEP_LAST_reg (c : Nat) : RF := ⟨winBase (gOf c) + 0x8C08 + (bOf c) * 0x40, 22, 5⟩
/-- `issue_slot` of `SC_LOCKSTEP_LAST` (R103). -/
def SC_LOCKSTEP_LAST_issue_slot (c : Nat) : RF := ⟨winBase (gOf c) + 0x8C08 + (bOf c) * 0x40, 27, 1⟩
/-- `corrected_count` of `SP_ECC_COUNTS` (R131). -/
def SP_ECC_COUNTS_corrected_count (c : Nat) (k : Nat) : RF := ⟨winBase (gOf c) + 0xA000 + ((bOf c * 7 + cOf c) * 8 + k) * 0x20, 0, 24⟩
/-- `ue_count` of `SP_ECC_COUNTS` (R131). -/
def SP_ECC_COUNTS_ue_count (c : Nat) (k : Nat) : RF := ⟨winBase (gOf c) + 0xA000 + ((bOf c * 7 + cOf c) * 8 + k) * 0x20, 24, 16⟩
/-- `poison_read_count` of `SP_ECC_COUNTS` (R131). -/
def SP_ECC_COUNTS_poison_read_count (c : Nat) (k : Nat) : RF := ⟨winBase (gOf c) + 0xA000 + ((bOf c * 7 + cOf c) * 8 + k) * 0x20, 40, 24⟩
/-- `valid` of `SP_ECC_LAST` (R131). -/
def SP_ECC_LAST_valid (c : Nat) (k : Nat) : RF := ⟨winBase (gOf c) + 0xA008 + ((bOf c * 7 + cOf c) * 8 + k) * 0x20, 0, 1⟩
/-- `uncorrectable` of `SP_ECC_LAST` (R131). -/
def SP_ECC_LAST_uncorrectable (c : Nat) (k : Nat) : RF := ⟨winBase (gOf c) + 0xA008 + ((bOf c * 7 + cOf c) * 8 + k) * 0x20, 1, 1⟩
/-- `overrun` of `SP_ECC_LAST` (R131). -/
def SP_ECC_LAST_overrun (c : Nat) (k : Nat) : RF := ⟨winBase (gOf c) + 0xA008 + ((bOf c * 7 + cOf c) * 8 + k) * 0x20, 2, 1⟩
/-- `row` of `SP_ECC_LAST` (R131). -/
def SP_ECC_LAST_row (c : Nat) (k : Nat) : RF := ⟨winBase (gOf c) + 0xA008 + ((bOf c * 7 + cOf c) * 8 + k) * 0x20, 4, 13⟩
/-- `col` of `SP_ECC_LAST` (R131). -/
def SP_ECC_LAST_col (c : Nat) (k : Nat) : RF := ⟨winBase (gOf c) + 0xA008 + ((bOf c * 7 + cOf c) * 8 + k) * 0x20, 17, 2⟩
/-- `bit` of `SP_ECC_LAST` (R131). -/
def SP_ECC_LAST_bit (c : Nat) (k : Nat) : RF := ⟨winBase (gOf c) + 0xA008 + ((bOf c * 7 + cOf c) * 8 + k) * 0x20, 19, 9⟩
/-- `syndrome` of `SP_ECC_LAST` (R131). -/
def SP_ECC_LAST_syndrome (c : Nat) (k : Nat) : RF := ⟨winBase (gOf c) + 0xA008 + ((bOf c * 7 + cOf c) * 8 + k) * 0x20, 32, 16⟩
/-- `master` of `SP_ECC_LAST` (R131). -/
def SP_ECC_LAST_master (c : Nat) (k : Nat) : RF := ⟨winBase (gOf c) + 0xA008 + ((bOf c * 7 + cOf c) * 8 + k) * 0x20, 48, 3⟩
/-- `enable` of `SP_SWEEP_CTRL` (R143). -/
def SP_SWEEP_CTRL_enable (g : Nat) : RF := ⟨winBase (g) + 0x9010, 0, 1⟩
/-- `period` of `SP_SWEEP_CTRL` (R143). -/
def SP_SWEEP_CTRL_period (g : Nat) : RF := ⟨winBase (g) + 0x9010, 1, 12⟩
/-- `pass_count` of `SP_SWEEP_CTRL` (R143). -/
def SP_SWEEP_CTRL_pass_count (g : Nat) : RF := ⟨winBase (g) + 0x9010, 16, 16⟩
/-- `fail_count` of `SP_SWEEP_CTRL` (R143). -/
def SP_SWEEP_CTRL_fail_count (g : Nat) : RF := ⟨winBase (g) + 0x9010, 32, 16⟩
/-- `valid` of `SP_SWEEP_FAIL` (R143). -/
def SP_SWEEP_FAIL_valid (g : Nat) : RF := ⟨winBase (g) + 0x9018, 0, 1⟩
/-- `repaired` of `SP_SWEEP_FAIL` (R143). -/
def SP_SWEEP_FAIL_repaired (g : Nat) : RF := ⟨winBase (g) + 0x9018, 1, 1⟩
/-- `unrepairable` of `SP_SWEEP_FAIL` (R143). -/
def SP_SWEEP_FAIL_unrepairable (g : Nat) : RF := ⟨winBase (g) + 0x9018, 2, 1⟩
/-- `overrun` of `SP_SWEEP_FAIL` (R143). -/
def SP_SWEEP_FAIL_overrun (g : Nat) : RF := ⟨winBase (g) + 0x9018, 3, 1⟩
/-- `cell` of `SP_SWEEP_FAIL` (R143). -/
def SP_SWEEP_FAIL_cell (g : Nat) : RF := ⟨winBase (g) + 0x9018, 4, 6⟩
/-- `bank` of `SP_SWEEP_FAIL` (R143). -/
def SP_SWEEP_FAIL_bank (g : Nat) : RF := ⟨winBase (g) + 0x9018, 10, 3⟩
/-- `shadow` of `SP_SWEEP_FAIL` (R143). -/
def SP_SWEEP_FAIL_shadow (g : Nat) : RF := ⟨winBase (g) + 0x9018, 13, 1⟩
/-- `row` of `SP_SWEEP_FAIL` (R143). -/
def SP_SWEEP_FAIL_row (g : Nat) : RF := ⟨winBase (g) + 0x9018, 14, 13⟩
/-- `col` of `SP_SWEEP_FAIL` (R143). -/
def SP_SWEEP_FAIL_col (g : Nat) : RF := ⟨winBase (g) + 0x9018, 27, 2⟩
/-- `bit` of `SP_SWEEP_FAIL` (R143). -/
def SP_SWEEP_FAIL_bit (g : Nat) : RF := ⟨winBase (g) + 0x9018, 29, 9⟩
/-- `element` of `SP_SWEEP_FAIL` (R143). -/
def SP_SWEEP_FAIL_element (g : Nat) : RF := ⟨winBase (g) + 0x9018, 38, 3⟩
/-- `cell` of `SP_REPAIR_SEL` (R143). -/
def SP_REPAIR_SEL_cell (g : Nat) : RF := ⟨winBase (g) + 0x9000, 0, 6⟩
/-- `bank` of `SP_REPAIR_SEL` (R143). -/
def SP_REPAIR_SEL_bank (g : Nat) : RF := ⟨winBase (g) + 0x9000, 6, 3⟩
/-- `entry` of `SP_REPAIR_SEL` (R143). -/
def SP_REPAIR_SEL_entry (g : Nat) : RF := ⟨winBase (g) + 0x9000, 9, 5⟩
/-- `used` of `SP_REPAIR_DATA` (R143). -/
def SP_REPAIR_DATA_used (g : Nat) : RF := ⟨winBase (g) + 0x9008, 0, 1⟩
/-- `kind` of `SP_REPAIR_DATA` (R143). -/
def SP_REPAIR_DATA_kind (g : Nat) : RF := ⟨winBase (g) + 0x9008, 1, 1⟩
/-- `target` of `SP_REPAIR_DATA` (R143). -/
def SP_REPAIR_DATA_target (g : Nat) : RF := ⟨winBase (g) + 0x9008, 2, 13⟩
/-- `source` of `SP_REPAIR_DATA` (R143). -/
def SP_REPAIR_DATA_source (g : Nat) : RF := ⟨winBase (g) + 0x9008, 15, 2⟩
/-- `burn_pending` of `SP_REPAIR_DATA` (R143). -/
def SP_REPAIR_DATA_burn_pending (g : Nat) : RF := ⟨winBase (g) + 0x9008, 17, 1⟩
/-- `burned` of `SP_REPAIR_DATA` (R143). -/
def SP_REPAIR_DATA_burned (g : Nat) : RF := ⟨winBase (g) + 0x9008, 18, 1⟩
/-- `state` of `SEAM_STATUS` (R176). -/
def SEAM_STATUS_state (g : Nat) (i : Nat) : RF := ⟨winBase (g) + 0xE000 + (i) * 0x10, 0, 3⟩
/-- `hub` of `SEAM_STATUS` (R176). -/
def SEAM_STATUS_hub (g : Nat) (i : Nat) : RF := ⟨winBase (g) + 0xE000 + (i) * 0x10, 3, 1⟩
/-- `ghost` of `SEAM_STATUS` (R176). -/
def SEAM_STATUS_ghost (g : Nat) (i : Nat) : RF := ⟨winBase (g) + 0xE000 + (i) * 0x10, 4, 1⟩
/-- `spare0` of `SEAM_STATUS` (R176). -/
def SEAM_STATUS_spare0 (g : Nat) (i : Nat) : RF := ⟨winBase (g) + 0xE000 + (i) * 0x10, 5, 7⟩
/-- `spare1` of `SEAM_STATUS` (R176). -/
def SEAM_STATUS_spare1 (g : Nat) (i : Nat) : RF := ⟨winBase (g) + 0xE000 + (i) * 0x10, 12, 7⟩
/-- `retrain_count` of `SEAM_STATUS` (R176). -/
def SEAM_STATUS_retrain_count (g : Nat) (i : Nat) : RF := ⟨winBase (g) + 0xE000 + (i) * 0x10, 19, 13⟩
/-- `crc_err_count` of `SEAM_STATUS` (R176). -/
def SEAM_STATUS_crc_err_count (g : Nat) (i : Nat) : RF := ⟨winBase (g) + 0xE000 + (i) * 0x10, 32, 16⟩
/-- `lost_count` of `SEAM_STATUS` (R176). -/
def SEAM_STATUS_lost_count (g : Nat) (i : Nat) : RF := ⟨winBase (g) + 0xE000 + (i) * 0x10, 48, 16⟩
/-- `late_count` of `XR_COUNTS` (R176). -/
def XR_COUNTS_late_count (b : Nat) : RF := ⟨winBase (bkG b) + 0xE100 + (bkB b) * 0x10, 0, 16⟩
/-- `rig_discard_count` of `XR_COUNTS` (R176). -/
def XR_COUNTS_rig_discard_count (b : Nat) : RF := ⟨winBase (bkG b) + 0xE100 + (bkB b) * 0x10, 16, 12⟩
/-- `unroutable_count` of `XR_COUNTS` (R176). -/
def XR_COUNTS_unroutable_count (b : Nat) : RF := ⟨winBase (bkG b) + 0xE100 + (bkB b) * 0x10, 28, 12⟩
/-- `pkt_drop_count` of `XR_COUNTS` (R176). -/
def XR_COUNTS_pkt_drop_count (b : Nat) : RF := ⟨winBase (bkG b) + 0xE100 + (bkB b) * 0x10, 40, 12⟩
/-- `vc2_drop_count` of `XR_COUNTS` (R176). -/
def XR_COUNTS_vc2_drop_count (b : Nat) : RF := ⟨winBase (bkG b) + 0xE100 + (bkB b) * 0x10, 52, 12⟩
/-- `cell` of `EP_SEL` (R204). -/
def EP_SEL_cell (g : Nat) : RF := ⟨winBase (g) + 0x7000, 0, 6⟩
/-- `endpoint` of `EP_SEL` (R204). -/
def EP_SEL_endpoint (g : Nat) : RF := ⟨winBase (g) + 0x7000, 6, 5⟩
/-- `kind` of `EP_STATE` (R204). -/
def EP_STATE_kind (g : Nat) : RF := ⟨winBase (g) + 0x7008, 0, 2⟩
/-- `dir` of `EP_STATE` (R204). -/
def EP_STATE_dir (g : Nat) : RF := ⟨winBase (g) + 0x7008, 2, 1⟩
/-- `gate` of `EP_STATE` (R204). -/
def EP_STATE_gate (g : Nat) : RF := ⟨winBase (g) + 0x7008, 3, 1⟩
/-- `stalled` of `EP_STATE` (R204). -/
def EP_STATE_stalled (g : Nat) : RF := ⟨winBase (g) + 0x7008, 4, 1⟩
/-- `open` of `EP_STATE` (R204). -/
def EP_STATE_open (g : Nat) : RF := ⟨winBase (g) + 0x7008, 5, 1⟩
/-- `fill` of `EP_STATE` (R204). -/
def EP_STATE_fill (g : Nat) : RF := ⟨winBase (g) + 0x7008, 6, 15⟩
/-- `next_tag` of `EP_STATE` (R204). -/
def EP_STATE_next_tag (g : Nat) : RF := ⟨winBase (g) + 0x7008, 21, 8⟩
/-- `handle` of `EP_STATE` (R204). -/
def EP_STATE_handle (g : Nat) : RF := ⟨winBase (g) + 0x7008, 32, 32⟩
/-- `count` of `EP_COUNT` (R204). -/
def EP_COUNT_count (g : Nat) (i : Nat) : RF := ⟨winBase (g) + 0x7010 + (i) * 0x8, 0, 48⟩
/-- `apply` of `ARB_CTRL` (R251). -/
def ARB_CTRL_apply : RF := ⟨0x20000, 0, 1⟩
/-- `bad_sum` of `ARB_CTRL` (R251). -/
def ARB_CTRL_bad_sum : RF := ⟨0x20000, 1, 1⟩
/-- `share` of `ARB_CLASS` (R251). -/
def ARB_CLASS_share (i : Nat) : RF := ⟨0x20100 + (i) * 0x10, 0, 9⟩
/-- `borrow` of `ARB_CLASS` (R251). -/
def ARB_CLASS_borrow (i : Nat) : RF := ⟨0x20100 + (i) * 0x10, 9, 1⟩
/-- `cap` of `ARB_CLASS` (R251). -/
def ARB_CLASS_cap (i : Nat) : RF := ⟨0x20100 + (i) * 0x10, 10, 9⟩
/-- `live_share` of `ARB_CLASS` (R251). -/
def ARB_CLASS_live_share (i : Nat) : RF := ⟨0x20100 + (i) * 0x10, 32, 9⟩
/-- `live_borrow` of `ARB_CLASS` (R251). -/
def ARB_CLASS_live_borrow (i : Nat) : RF := ⟨0x20100 + (i) * 0x10, 41, 1⟩
/-- `live_cap` of `ARB_CLASS` (R251). -/
def ARB_CLASS_live_cap (i : Nat) : RF := ⟨0x20100 + (i) * 0x10, 42, 9⟩
/-- `guaranteed` of `ARB_COUNTS` (R251). -/
def ARB_COUNTS_guaranteed (i : Nat) : RF := ⟨0x20108 + (i) * 0x10, 0, 32⟩
/-- `borrowed` of `ARB_COUNTS` (R251). -/
def ARB_COUNTS_borrowed (i : Nat) : RF := ⟨0x20108 + (i) * 0x10, 32, 32⟩
/-- `rate` of `DRAM_CFG` (R258). -/
def DRAM_CFG_rate : RF := ⟨0x100000, 0, 3⟩
/-- `trained` of `DRAM_CFG` (R258). -/
def DRAM_CFG_trained : RF := ⟨0x100000, 3, 1⟩
/-- `size_gib` of `DRAM_CFG` (R258). -/
def DRAM_CFG_size_gib : RF := ⟨0x100000, 16, 16⟩
/-- `guard_count` of `DRAM_CFG` (R258). -/
def DRAM_CFG_guard_count : RF := ⟨0x100000, 48, 16⟩
/-- `state` of `DRAM_CH_STATUS` (R258). -/
def DRAM_CH_STATUS_state (i : Nat) : RF := ⟨0x100100 + (i) * 0x20, 0, 4⟩
/-- `corrected_count` of `DRAM_CH_STATUS` (R258). -/
def DRAM_CH_STATUS_corrected_count (i : Nat) : RF := ⟨0x100100 + (i) * 0x20, 4, 24⟩
/-- `ue_count` of `DRAM_CH_STATUS` (R258). -/
def DRAM_CH_STATUS_ue_count (i : Nat) : RF := ⟨0x100100 + (i) * 0x20, 28, 16⟩
/-- `poison_read_count` of `DRAM_CH_STATUS` (R258). -/
def DRAM_CH_STATUS_poison_read_count (i : Nat) : RF := ⟨0x100100 + (i) * 0x20, 44, 20⟩
/-- `valid` of `DRAM_ECC_LAST` (R258). -/
def DRAM_ECC_LAST_valid (i : Nat) : RF := ⟨0x100108 + (i) * 0x20, 0, 1⟩
/-- `uncorrectable` of `DRAM_ECC_LAST` (R258). -/
def DRAM_ECC_LAST_uncorrectable (i : Nat) : RF := ⟨0x100108 + (i) * 0x20, 1, 1⟩
/-- `overrun` of `DRAM_ECC_LAST` (R258). -/
def DRAM_ECC_LAST_overrun (i : Nat) : RF := ⟨0x100108 + (i) * 0x20, 2, 1⟩
/-- `sub` of `DRAM_ECC_LAST` (R258). -/
def DRAM_ECC_LAST_sub (i : Nat) : RF := ⟨0x100108 + (i) * 0x20, 3, 1⟩
/-- `device` of `DRAM_ECC_LAST` (R258). -/
def DRAM_ECC_LAST_device (i : Nat) : RF := ⟨0x100108 + (i) * 0x20, 4, 4⟩
/-- `unit` of `DRAM_ECC_LAST` (R258). -/
def DRAM_ECC_LAST_unit (i : Nat) : RF := ⟨0x100108 + (i) * 0x20, 8, 31⟩
/-- `pending` of `PORTER_STATUS` (R265). -/
def PORTER_STATUS_pending (i : Nat) : RF := ⟨0x30000 + (i) * 0x10, 0, 9⟩
/-- `state` of `PORTER_STATUS` (R265). -/
def PORTER_STATUS_state (i : Nat) : RF := ⟨0x30000 + (i) * 0x10, 9, 2⟩
/-- `last_status` of `PORTER_STATUS` (R265). -/
def PORTER_STATUS_last_status (i : Nat) : RF := ⟨0x30000 + (i) * 0x10, 16, 8⟩
/-- `stolen_out` of `PORTER_STATUS` (R265). -/
def PORTER_STATUS_stolen_out (i : Nat) : RF := ⟨0x30000 + (i) * 0x10, 32, 16⟩
/-- `stolen_in` of `PORTER_STATUS` (R265). -/
def PORTER_STATUS_stolen_in (i : Nat) : RF := ⟨0x30000 + (i) * 0x10, 48, 16⟩
/-- `bytes` of `PORTER_BYTES` (R265). -/
def PORTER_BYTES_bytes (i : Nat) : RF := ⟨0x30008 + (i) * 0x10, 0, 64⟩
/-- `mode` of `SERVICE_MODE` (R267). -/
def SERVICE_MODE_mode : RF := ⟨0x20, 0, 1⟩
/-- `loaded_paired` of `SERVICE_MODE` (R267). -/
def SERVICE_MODE_loaded_paired : RF := ⟨0x20, 1, 1⟩
/-- `pair_mismatch_count` of `SERVICE_MODE` (R267). -/
def SERVICE_MODE_pair_mismatch_count : RF := ⟨0x20, 8, 24⟩
/-- `spot_fail_count` of `SERVICE_MODE` (R267). -/
def SERVICE_MODE_spot_fail_count : RF := ⟨0x20, 32, 16⟩
/-- `cairn_drop_count` of `SERVICE_MODE` (R267). -/
def SERVICE_MODE_cairn_drop_count : RF := ⟨0x20, 48, 16⟩
/-- `kernel` of `RH_STATUS` (R272). -/
def RH_STATUS_kernel (c : Nat) : RF := ⟨winBase (gOf c) + 0x9100 + (bOf c * 7 + cOf c) * 0x8, 0, 8⟩
/-- `seed` of `RH_STATUS` (R272). -/
def RH_STATUS_seed (c : Nat) : RF := ⟨winBase (gOf c) + 0x9100 + (bOf c * 7 + cOf c) * 0x8, 8, 4⟩
/-- `pass` of `RH_STATUS` (R272). -/
def RH_STATUS_pass (c : Nat) : RF := ⟨winBase (gOf c) + 0x9100 + (bOf c * 7 + cOf c) * 0x8, 12, 1⟩
/-- `dress` of `RH_STATUS` (R272). -/
def RH_STATUS_dress (c : Nat) : RF := ⟨winBase (gOf c) + 0x9100 + (bOf c * 7 + cOf c) * 0x8, 13, 1⟩
/-- `spot_count` of `RH_STATUS` (R272). -/
def RH_STATUS_spot_count (c : Nat) : RF := ⟨winBase (gOf c) + 0x9100 + (bOf c * 7 + cOf c) * 0x8, 16, 24⟩
/-- `fail_count` of `RH_STATUS` (R272). -/
def RH_STATUS_fail_count (c : Nat) : RF := ⟨winBase (gOf c) + 0x9100 + (bOf c * 7 + cOf c) * 0x8, 40, 16⟩
/-- `phase` of `RECOVERY_STATUS` (R314). -/
def RECOVERY_STATUS_phase : RF := ⟨0x30, 0, 3⟩
/-- `cause` of `RECOVERY_STATUS` (R314). -/
def RECOVERY_STATUS_cause : RF := ⟨0x30, 3, 4⟩
/-- `snapshot_valid` of `RECOVERY_STATUS` (R314). -/
def RECOVERY_STATUS_snapshot_valid : RF := ⟨0x30, 7, 1⟩
/-- `graph_hangs` of `RECOVERY_STATUS` (R314). -/
def RECOVERY_STATUS_graph_hangs : RF := ⟨0x30, 8, 8⟩
/-- `job_restarts` of `RECOVERY_STATUS` (R314). -/
def RECOVERY_STATUS_job_restarts : RF := ⟨0x30, 16, 8⟩
/-- `last_us` of `RECOVERY_STATUS` (R314). -/
def RECOVERY_STATUS_last_us : RF := ⟨0x30, 32, 32⟩
/-- `live` of `HEARTBEAT` (R314). -/
def HEARTBEAT_live : RF := ⟨0x38, 0, 8⟩
/-- `lead` of `HEARTBEAT` (R314). -/
def HEARTBEAT_lead : RF := ⟨0x38, 8, 3⟩
/-- `core_restarts` of `HEARTBEAT` (R314). -/
def HEARTBEAT_core_restarts : RF := ⟨0x38, 16, 16⟩
/-- `epoch` of `CELL_EPOCH` (R314). -/
def CELL_EPOCH_epoch (c : Nat) : RF := ⟨winBase (gOf c) + 0x9400 + (bOf c * 7 + cOf c) * 0x8, 0, 16⟩
/-- `return_count` of `CELL_EPOCH` (R314). -/
def CELL_EPOCH_return_count (c : Nat) : RF := ⟨winBase (gOf c) + 0x9400 + (bOf c * 7 + cOf c) * 0x8, 16, 16⟩
/-- `epoch_drop_count` of `CELL_EPOCH` (R314). -/
def CELL_EPOCH_epoch_drop_count (c : Nat) : RF := ⟨winBase (gOf c) + 0x9400 + (bOf c * 7 + cOf c) * 0x8, 32, 16⟩
/-- `fence_cause` of `CELL_EPOCH` (R314). -/
def CELL_EPOCH_fence_cause (c : Nat) : RF := ⟨winBase (gOf c) + 0x9400 + (bOf c * 7 + cOf c) * 0x8, 48, 8⟩
/-- `fenced` of `CELL_EPOCH` (R314). -/
def CELL_EPOCH_fenced (c : Nat) : RF := ⟨winBase (gOf c) + 0x9400 + (bOf c * 7 + cOf c) * 0x8, 56, 1⟩
/-- `rate` of `PCIE_LINK` (R316). -/
def PCIE_LINK_rate : RF := ⟨0x48, 0, 3⟩
/-- `width` of `PCIE_LINK` (R316). -/
def PCIE_LINK_width : RF := ⟨0x48, 3, 5⟩
/-- `flit` of `PCIE_LINK` (R316). -/
def PCIE_LINK_flit : RF := ⟨0x48, 8, 1⟩
/-- `degraded` of `PCIE_LINK` (R316). -/
def PCIE_LINK_degraded : RF := ⟨0x48, 9, 1⟩
/-- `retrain_count` of `PCIE_LINK` (R316). -/
def PCIE_LINK_retrain_count : RF := ⟨0x48, 16, 16⟩
/-- `flr_count` of `PCIE_LINK` (R316). -/
def PCIE_LINK_flr_count : RF := ⟨0x48, 32, 16⟩
/-- `base` of `APERTURE_BASE` (R319). -/
def APERTURE_BASE_base : RF := ⟨0x40, 0, 41⟩
/-- `go` of `MB_DOORBELL` (R328). -/
def MB_DOORBELL_go (i : Nat) : RF := ⟨0x1008000 + (i) * 0x10000, 0, 1⟩
/-- `busy` of `MB_STATUS` (R328). -/
def MB_STATUS_busy (i : Nat) : RF := ⟨0x1008008 + (i) * 0x10000, 0, 1⟩
/-- `done` of `MB_STATUS` (R328). -/
def MB_STATUS_done (i : Nat) : RF := ⟨0x1008008 + (i) * 0x10000, 1, 1⟩
/-- `deferred` of `MB_STATUS` (R328). -/
def MB_STATUS_deferred (i : Nat) : RF := ⟨0x1008008 + (i) * 0x10000, 2, 1⟩
/-- `session_open` of `MB_STATUS` (R328). -/
def MB_STATUS_session_open (i : Nat) : RF := ⟨0x1008008 + (i) * 0x10000, 3, 1⟩
/-- `by_lead` of `MB_STATUS` (R328). -/
def MB_STATUS_by_lead (i : Nat) : RF := ⟨0x1008008 + (i) * 0x10000, 4, 1⟩
/-- `last_status` of `MB_STATUS` (R328). -/
def MB_STATUS_last_status (i : Nat) : RF := ⟨0x1008008 + (i) * 0x10000, 8, 8⟩
/-- `last_opcode` of `MB_STATUS` (R328). -/
def MB_STATUS_last_opcode (i : Nat) : RF := ⟨0x1008008 + (i) * 0x10000, 16, 8⟩
/-- `ignored_count` of `MB_STATUS` (R328). -/
def MB_STATUS_ignored_count (i : Nat) : RF := ⟨0x1008008 + (i) * 0x10000, 32, 16⟩
/-- `defer_pending` of `MB_STATUS` (R328). -/
def MB_STATUS_defer_pending (i : Nat) : RF := ⟨0x1008008 + (i) * 0x10000, 48, 7⟩
/-- `code` of `SEQ_CMD` (R355). -/
def SEQ_CMD_code : RF := ⟨0x100, 0, 4⟩
/-- `step` of `SEQ_STATUS` (R355). -/
def SEQ_STATUS_step : RF := ⟨0x108, 0, 4⟩
/-- `running` of `SEQ_STATUS` (R355). -/
def SEQ_STATUS_running : RF := ⟨0x108, 4, 1⟩
/-- `warm` of `SEQ_STATUS` (R355). -/
def SEQ_STATUS_warm : RF := ⟨0x108, 5, 1⟩
/-- `cold_only` of `SEQ_STATUS` (R355). -/
def SEQ_STATUS_cold_only : RF := ⟨0x108, 6, 1⟩
/-- `partner_needed` of `SEQ_STATUS` (R355). -/
def SEQ_STATUS_partner_needed : RF := ⟨0x108, 7, 1⟩
/-- `last_err` of `SEQ_STATUS` (R355). -/
def SEQ_STATUS_last_err : RF := ⟨0x108, 8, 3⟩
/-- `step_done` of `SEQ_STATUS` (R355). -/
def SEQ_STATUS_step_done : RF := ⟨0x108, 11, 1⟩
/-- `skipped` of `SEQ_STATUS` (R355). -/
def SEQ_STATUS_skipped : RF := ⟨0x108, 12, 1⟩
/-- `burn_allowed` of `SEQ_STATUS` (R355). -/
def SEQ_STATUS_burn_allowed : RF := ⟨0x108, 13, 1⟩
/-- `start_busy_count` of `SEQ_STATUS` (R355). -/
def SEQ_STATUS_start_busy_count : RF := ⟨0x108, 16, 16⟩
/-- `locked_write_count` of `SEQ_STATUS` (R355). -/
def SEQ_STATUS_locked_write_count : RF := ⟨0x108, 32, 16⟩
/-- `fail_cause` of `SEQ_RESULT` (R355). -/
def SEQ_RESULT_fail_cause : RF := ⟨0x110, 0, 8⟩
/-- `fail_step` of `SEQ_RESULT` (R355). -/
def SEQ_RESULT_fail_step : RF := ⟨0x110, 8, 4⟩
/-- `fail_unit` of `SEQ_RESULT` (R355). -/
def SEQ_RESULT_fail_unit : RF := ⟨0x110, 12, 16⟩
/-- `cold_starts` of `SEQ_RESULT` (R355). -/
def SEQ_RESULT_cold_starts : RF := ⟨0x110, 32, 32⟩
/-- `us` of `SEQ_STEP_TIME` (R355). -/
def SEQ_STEP_TIME_us (i : Nat) : RF := ⟨0x188 + (i - 1) * 0x8, 0, 32⟩
/-- `skipped` of `SEQ_STEP_TIME` (R355). -/
def SEQ_STEP_TIME_skipped (i : Nat) : RF := ⟨0x188 + (i - 1) * 0x8, 32, 1⟩
/-- `state` of `ROPE_STATUS` (R394). -/
def ROPE_STATUS_state (i : Nat) : RF := ⟨0x80000 + (i) * 0x40, 0, 3⟩
/-- `bypass_open` of `ROPE_STATUS` (R394). -/
def ROPE_STATUS_bypass_open (i : Nat) : RF := ⟨0x80000 + (i) * 0x40, 3, 1⟩
/-- `rate` of `ROPE_STATUS` (R394). -/
def ROPE_STATUS_rate (i : Nat) : RF := ⟨0x80000 + (i) * 0x40, 4, 1⟩
/-- `narrow` of `ROPE_STATUS` (R394). -/
def ROPE_STATUS_narrow (i : Nat) : RF := ⟨0x80000 + (i) * 0x40, 5, 1⟩
/-- `spare0_for` of `ROPE_STATUS` (R394). -/
def ROPE_STATUS_spare0_for (i : Nat) : RF := ⟨0x80000 + (i) * 0x40, 6, 5⟩
/-- `spare1_for` of `ROPE_STATUS` (R394). -/
def ROPE_STATUS_spare1_for (i : Nat) : RF := ⟨0x80000 + (i) * 0x40, 11, 5⟩
/-- `spare_by` of `ROPE_STATUS` (R394). -/
def ROPE_STATUS_spare_by (i : Nat) : RF := ⟨0x80000 + (i) * 0x40, 16, 2⟩
/-- `auth_fail` of `ROPE_STATUS` (R394). -/
def ROPE_STATUS_auth_fail (i : Nat) : RF := ⟨0x80000 + (i) * 0x40, 18, 1⟩
/-- `peer` of `ROPE_STATUS` (R394). -/
def ROPE_STATUS_peer (i : Nat) : RF := ⟨0x80000 + (i) * 0x40, 19, 13⟩
/-- `retrain_count` of `ROPE_STATUS` (R394). -/
def ROPE_STATUS_retrain_count (i : Nat) : RF := ⟨0x80000 + (i) * 0x40, 32, 16⟩
/-- `session_count` of `ROPE_STATUS` (R394). -/
def ROPE_STATUS_session_count (i : Nat) : RF := ⟨0x80000 + (i) * 0x40, 48, 16⟩
/-- `fec_uncorrected` of `ROPE_COUNTS` (R394). -/
def ROPE_COUNTS_fec_uncorrected (i : Nat) : RF := ⟨0x80008 + (i) * 0x40, 0, 16⟩
/-- `replay_count` of `ROPE_COUNTS` (R394). -/
def ROPE_COUNTS_replay_count (i : Nat) : RF := ⟨0x80008 + (i) * 0x40, 16, 16⟩
/-- `tag_fail_count` of `ROPE_COUNTS` (R394). -/
def ROPE_COUNTS_tag_fail_count (i : Nat) : RF := ⟨0x80008 + (i) * 0x40, 32, 16⟩
/-- `fwd_drop_count` of `ROPE_COUNTS` (R394). -/
def ROPE_COUNTS_fwd_drop_count (i : Nat) : RF := ⟨0x80008 + (i) * 0x40, 48, 8⟩
/-- `landing_drop_count` of `ROPE_COUNTS` (R394). -/
def ROPE_COUNTS_landing_drop_count (i : Nat) : RF := ⟨0x80008 + (i) * 0x40, 56, 8⟩
/-- `late_local` of `ROPE_RED_COUNTS` (R394). -/
def ROPE_RED_COUNTS_late_local : RF := ⟨0x80200, 0, 16⟩
/-- `late_in` of `ROPE_RED_COUNTS` (R394). -/
def ROPE_RED_COUNTS_late_in : RF := ⟨0x80200, 16, 16⟩
/-- `last_count` of `ROPE_RED_COUNTS` (R394). -/
def ROPE_RED_COUNTS_last_count : RF := ⟨0x80200, 32, 16⟩
/-- `miss_count` of `ROPE_RED_COUNTS` (R394). -/
def ROPE_RED_COUNTS_miss_count : RF := ⟨0x80200, 48, 16⟩
/-- `limit_w` of `POWER_CTRL` (R411). -/
def POWER_CTRL_limit_w : RF := ⟨0x400, 0, 16⟩
/-- `peak_enable` of `POWER_CTRL` (R411). -/
def POWER_CTRL_peak_enable : RF := ⟨0x400, 16, 1⟩
/-- `input_w` of `POWER_STATUS` (R411). -/
def POWER_STATUS_input_w : RF := ⟨0x408, 0, 16⟩
/-- `input_mv` of `POWER_STATUS` (R411). -/
def POWER_STATUS_input_mv : RF := ⟨0x408, 16, 16⟩
/-- `band_heavy` of `POWER_STATUS` (R411). -/
def POWER_STATUS_band_heavy : RF := ⟨0x408, 32, 1⟩
/-- `undervolt` of `POWER_STATUS` (R411). -/
def POWER_STATUS_undervolt : RF := ⟨0x408, 33, 1⟩
/-- `overvolt` of `POWER_STATUS` (R411). -/
def POWER_STATUS_overvolt : RF := ⟨0x408, 34, 1⟩
/-- `ref_lost` of `POWER_STATUS` (R411). -/
def POWER_STATUS_ref_lost : RF := ⟨0x408, 35, 1⟩
/-- `converters` of `POWER_STATUS` (R411). -/
def POWER_STATUS_converters : RF := ⟨0x408, 36, 5⟩
/-- `power_step` of `POWER_STATUS` (R411). -/
def POWER_STATUS_power_step : RF := ⟨0x408, 41, 4⟩
/-- `limit_events` of `POWER_STATUS` (R411). -/
def POWER_STATUS_limit_events : RF := ⟨0x408, 48, 16⟩
/-- `ns` of `HOUSE_CLOCK` (R411). -/
def HOUSE_CLOCK_ns : RF := ⟨0x410, 0, 64⟩
/-- `source` of `HC_SYNC` (R411). -/
def HC_SYNC_source : RF := ⟨0x418, 0, 2⟩
/-- `ring` of `HC_SYNC` (R411). -/
def HC_SYNC_ring : RF := ⟨0x418, 2, 2⟩
/-- `side` of `HC_SYNC` (R411). -/
def HC_SYNC_side : RF := ⟨0x418, 4, 1⟩
/-- `locked` of `HC_SYNC` (R411). -/
def HC_SYNC_locked : RF := ⟨0x418, 5, 1⟩
/-- `depth` of `HC_SYNC` (R411). -/
def HC_SYNC_depth : RF := ⟨0x418, 8, 8⟩
/-- `offset_ns` of `HC_SYNC` (R411). -/
def HC_SYNC_offset_ns : RF := ⟨0x418, 32, 16⟩
/-- `step_count` of `HC_SYNC` (R411). -/
def HC_SYNC_step_count : RF := ⟨0x418, 48, 16⟩
/-- `tstate` of `REGION_THERMAL` (R411). -/
def REGION_THERMAL_tstate (g : Nat) : RF := ⟨winBase (g) + 0x6000, 0, 2⟩
/-- `lost` of `REGION_THERMAL` (R411). -/
def REGION_THERMAL_lost (g : Nat) : RF := ⟨winBase (g) + 0x6000, 2, 1⟩
/-- `fstep` of `REGION_THERMAL` (R411). -/
def REGION_THERMAL_fstep (g : Nat) : RF := ⟨winBase (g) + 0x6000, 3, 4⟩
/-- `power_held` of `REGION_THERMAL` (R411). -/
def REGION_THERMAL_power_held (g : Nat) : RF := ⟨winBase (g) + 0x6000, 7, 1⟩
/-- `temp` of `REGION_THERMAL` (R411). -/
def REGION_THERMAL_temp (g : Nat) : RF := ⟨winBase (g) + 0x6000, 8, 12⟩
/-- `sensors_ok` of `REGION_THERMAL` (R411). -/
def REGION_THERMAL_sensors_ok (g : Nat) : RF := ⟨winBase (g) + 0x6000, 20, 8⟩
/-- `dim_count` of `REGION_THERMAL` (R411). -/
def REGION_THERMAL_dim_count (g : Nat) : RF := ⟨winBase (g) + 0x6000, 32, 16⟩
/-- `dark_count` of `REGION_THERMAL` (R411). -/
def REGION_THERMAL_dark_count (g : Nat) : RF := ⟨winBase (g) + 0x6000, 48, 8⟩
/-- `fstep_max` of `REGION_FCAP` (R411). -/
def REGION_FCAP_fstep_max (g : Nat) : RF := ⟨winBase (g) + 0x6008, 0, 4⟩
/-- `owner_enrolled` of `DOR_STATUS` (R428). -/
def DOR_STATUS_owner_enrolled : RF := ⟨0x200000, 0, 1⟩
/-- `owner_slot` of `DOR_STATUS` (R428). -/
def DOR_STATUS_owner_slot : RF := ⟨0x200000, 1, 2⟩
/-- `burn_allowed` of `DOR_STATUS` (R428). -/
def DOR_STATUS_burn_allowed : RF := ⟨0x200000, 3, 1⟩
/-- `job_key` of `DOR_STATUS` (R428). -/
def DOR_STATUS_job_key : RF := ⟨0x200000, 4, 1⟩
/-- `kem_ready` of `DOR_STATUS` (R428). -/
def DOR_STATUS_kem_ready : RF := ⟨0x200000, 5, 1⟩
/-- `log_folded` of `DOR_STATUS` (R428). -/
def DOR_STATUS_log_folded : RF := ⟨0x200000, 6, 1⟩
/-- `svn_stage` of `DOR_STATUS` (R428). -/
def DOR_STATUS_svn_stage : RF := ⟨0x200000, 8, 8⟩
/-- `svn_house` of `DOR_STATUS` (R428). -/
def DOR_STATUS_svn_house : RF := ⟨0x200000, 16, 8⟩
/-- `log_entries` of `DOR_STATUS` (R428). -/
def DOR_STATUS_log_entries : RF := ⟨0x200000, 24, 13⟩
/-- `attest_queue` of `DOR_STATUS` (R428). -/
def DOR_STATUS_attest_queue : RF := ⟨0x200000, 37, 3⟩
/-- `enrol_err` of `DOR_STATUS` (R428). -/
def DOR_STATUS_enrol_err : RF := ⟨0x200000, 40, 8⟩
/-- `attest_count` of `DOR_STATUS` (R428). -/
def DOR_STATUS_attest_count : RF := ⟨0x200000, 48, 16⟩
/-- `unlock` of `DOR_DEBUG` (R428). -/
def DOR_DEBUG_unlock : RF := ⟨0x200010, 0, 1⟩
/-- `unlocked` of `DOR_DEBUG` (R428). -/
def DOR_DEBUG_unlocked : RF := ⟨0x200010, 1, 1⟩
/-- `scope` of `DOR_DEBUG` (R428). -/
def DOR_DEBUG_scope : RF := ⟨0x200010, 2, 3⟩
/-- `unlock_fail_count` of `DOR_DEBUG` (R428). -/
def DOR_DEBUG_unlock_fail_count : RF := ⟨0x200010, 16, 16⟩
/-- `challenge` of `DOR_DEBUG` (R428). -/
def DOR_DEBUG_challenge : RF := ⟨0x200010, 32, 32⟩
/-- `enrol` of `DOR_ENROL_CTRL` (R428). -/
def DOR_ENROL_CTRL_enrol : RF := ⟨0x200018, 0, 1⟩
/-- `policy` of `DOR_ENROL_CTRL` (R428). -/
def DOR_ENROL_CTRL_policy : RF := ⟨0x200018, 1, 1⟩
/-- `digest` of `DOR_LOG_DIGEST` (R428). -/
def DOR_LOG_DIGEST_digest (i : Nat) : RF := ⟨0x200040 + (i) * 0x8, 0, 64⟩
/-- `enabled` of `TELEM_STATUS` (R440). -/
def TELEM_STATUS_enabled : RF := ⟨0x40000, 0, 1⟩
/-- `kinds` of `TELEM_STATUS` (R440). -/
def TELEM_STATUS_kinds : RF := ⟨0x40000, 1, 5⟩
/-- `staged` of `TELEM_STATUS` (R440). -/
def TELEM_STATUS_staged : RF := ⟨0x40000, 8, 24⟩
/-- `ring` of `TELEM_STATUS` (R440). -/
def TELEM_STATUS_ring : RF := ⟨0x40000, 32, 32⟩
/-- `depth_drops` of `TELEM_DROPS` (R440). -/
def TELEM_DROPS_depth_drops : RF := ⟨0x40008, 0, 16⟩
/-- `channel_drops` of `TELEM_DROPS` (R440). -/
def TELEM_DROPS_channel_drops : RF := ⟨0x40008, 16, 16⟩
/-- `hub_drops` of `TELEM_DROPS` (R440). -/
def TELEM_DROPS_hub_drops : RF := ⟨0x40008, 32, 16⟩
/-- `other_drops` of `TELEM_DROPS` (R440). -/
def TELEM_DROPS_other_drops : RF := ⟨0x40008, 48, 16⟩
/-- `static_addr` of `OOB_STATUS` (R440). -/
def OOB_STATUS_static_addr : RF := ⟨0x40010, 0, 7⟩
/-- `i3c` of `OOB_STATUS` (R440). -/
def OOB_STATUS_i3c : RF := ⟨0x40010, 7, 1⟩
/-- `dyn_addr` of `OOB_STATUS` (R440). -/
def OOB_STATUS_dyn_addr : RF := ⟨0x40010, 8, 7⟩
/-- `eid` of `OOB_STATUS` (R440). -/
def OOB_STATUS_eid : RF := ⟨0x40010, 16, 8⟩
/-- `msg_count` of `OOB_STATUS` (R440). -/
def OOB_STATUS_msg_count : RF := ⟨0x40010, 32, 16⟩
/-- `err_count` of `OOB_STATUS` (R440). -/
def OOB_STATUS_err_count : RF := ⟨0x40010, 48, 16⟩
/-- `vendor` of `PANEL_ID` (R447). -/
def PANEL_ID_vendor : RF := ⟨0x0, 0, 16⟩
/-- `part` of `PANEL_ID` (R447). -/
def PANEL_ID_part : RF := ⟨0x0, 16, 16⟩
/-- `family` of `PANEL_ID` (R447). -/
def PANEL_ID_family : RF := ⟨0x0, 32, 8⟩
/-- `stepping` of `PANEL_ID` (R447). -/
def PANEL_ID_stepping : RF := ⟨0x0, 40, 8⟩
/-- `module_rev` of `PANEL_ID` (R447). -/
def PANEL_ID_module_rev : RF := ⟨0x0, 48, 8⟩
/-- `serial` of `PANEL_SERIAL` (R447). -/
def PANEL_SERIAL_serial : RF := ⟨0x8, 0, 64⟩
/-- `stage` of `FW_VERSION` (R447). -/
def FW_VERSION_stage : RF := ⟨0x18, 0, 32⟩
/-- `house` of `FW_VERSION` (R447). -/
def FW_VERSION_house : RF := ⟨0x18, 32, 32⟩
/-- `events` of `EVENT_STATUS` (R448). -/
def EVENT_STATUS_events : RF := ⟨0x10000, 0, 9⟩
/-- `enable` of `EVENT_ENABLE` (R448). -/
def EVENT_ENABLE_enable : RF := ⟨0x10008, 0, 9⟩
/-- `offset` of `BAD_ACCESS_INFO` (R448). -/
def BAD_ACCESS_INFO_offset : RF := ⟨0x10010, 0, 26⟩
/-- `write` of `BAD_ACCESS_INFO` (R448). -/
def BAD_ACCESS_INFO_write : RF := ⟨0x10010, 26, 1⟩
/-- `reason` of `BAD_ACCESS_INFO` (R448). -/
def BAD_ACCESS_INFO_reason : RF := ⟨0x10010, 27, 2⟩
/-- `bar2` of `BAD_ACCESS_INFO` (R448). -/
def BAD_ACCESS_INFO_bar2 : RF := ⟨0x10010, 29, 1⟩
/-- `count` of `BAD_ACCESS_INFO` (R448). -/
def BAD_ACCESS_INFO_count : RF := ⟨0x10010, 32, 32⟩
/-- `die_col` of `REGION_ID` (R451). -/
def REGION_ID_die_col (g : Nat) : RF := ⟨winBase (g) + 0x0, 0, 4⟩
/-- `die_row` of `REGION_ID` (R451). -/
def REGION_ID_die_row (g : Nat) : RF := ⟨winBase (g) + 0x0, 4, 4⟩
/-- `g` of `REGION_ID` (R451). -/
def REGION_ID_g (g : Nat) : RF := ⟨winBase (g) + 0x0, 8, 8⟩
/-- `blocks_fenced` of `REGION_ID` (R451). -/
def REGION_ID_blocks_fenced (g : Nat) : RF := ⟨winBase (g) + 0x0, 16, 8⟩
/-- `spare_region` of `REGION_ID` (R451). -/
def REGION_ID_spare_region (g : Nat) : RF := ⟨winBase (g) + 0x0, 24, 1⟩
/-- `block_fenced` of `BLK_STATUS` (R451). -/
def BLK_STATUS_block_fenced (b : Nat) : RF := ⟨winBase (bkG b) + 0xE200 + (bkB b) * 0x10, 0, 1⟩
/-- `cell_fence_valid` of `BLK_STATUS` (R451). -/
def BLK_STATUS_cell_fence_valid (b : Nat) : RF := ⟨winBase (bkG b) + 0xE200 + (bkB b) * 0x10, 1, 1⟩
/-- `fenced_cell` of `BLK_STATUS` (R451). -/
def BLK_STATUS_fenced_cell (b : Nat) : RF := ⟨winBase (bkG b) + 0xE200 + (bkB b) * 0x10, 2, 3⟩
/-- `fenced_drop_count` of `BLK_STATUS` (R451). -/
def BLK_STATUS_fenced_drop_count (b : Nat) : RF := ⟨winBase (bkG b) + 0xE200 + (bkB b) * 0x10, 16, 24⟩
/-- `cell_fault_count` of `BLK_STATUS` (R451). -/
def BLK_STATUS_cell_fault_count (b : Nat) : RF := ⟨winBase (bkG b) + 0xE200 + (bkB b) * 0x10, 40, 16⟩

end Reg

/-- Register rows, part 0. -/
def regRows0 : List RegRow :=
  [
   ⟨true, 0xA0E0, 0x100, 56, .warm, [⟨0, 24, .ro, 0x0⟩, ⟨24, 16, .ro, 0x0⟩, ⟨40, 8, .ro, 0x0⟩, ⟨48, 16, .ro, 0x0⟩]⟩, -- SP_GRANT_COUNTS (R137)
   ⟨false, 0x10, 0x0, 1, .cold, [⟨0, 3, .ro, 0x1⟩, ⟨4, 3, .ro, 0x0⟩, ⟨8, 8, .ro, 0x0⟩, ⟨16, 16, .ro, 0x0⟩, ⟨32, 1, .w1c, 0x0⟩]⟩, -- PANEL_STATE (R33)
   ⟨true, 0x8000, 0x40, 32, .warm, [⟨0, 24, .ro, 0x0⟩, ⟨24, 16, .ro, 0x0⟩, ⟨40, 24, .ro, 0x0⟩]⟩, -- MC_CK_COUNTS (R83)
   ⟨true, 0x8008, 0x40, 32, .warm, [⟨0, 1, .w1c, 0x0⟩, ⟨1, 1, .ro, 0x0⟩, ⟨2, 1, .ro, 0x0⟩, ⟨3, 1, .ro, 0x0⟩, ⟨4, 5, .ro, 0x0⟩, ⟨9, 5, .ro, 0x0⟩, ⟨15, 1, .ro, 0x0⟩, ⟨16, 6, .ro, 0x0⟩, ⟨22, 3, .ro, 0x0⟩, ⟨32, 16, .ro, 0x0⟩, ⟨48, 8, .ro, 0x0⟩]⟩, -- MC_CK_LAST (R83)
   ⟨true, 0x8010, 0x40, 32, .compute, [⟨0, 1, .w1s, 0x0⟩, ⟨1, 5, .rw, 0x0⟩, ⟨6, 5, .rw, 0x0⟩]⟩, -- MC_CK_CTRL (R83)
   ⟨true, 0x8800, 0x40, 16, .warm, [⟨0, 24, .ro, 0x0⟩, ⟨24, 16, .ro, 0x0⟩, ⟨40, 24, .ro, 0x0⟩]⟩, -- VC_CK_COUNTS (R101)
   ⟨true, 0x8808, 0x40, 16, .warm, [⟨0, 1, .w1c, 0x0⟩, ⟨1, 1, .ro, 0x0⟩, ⟨2, 1, .ro, 0x0⟩, ⟨3, 1, .ro, 0x0⟩, ⟨4, 6, .ro, 0x0⟩, ⟨16, 9, .ro, 0x0⟩, ⟨25, 3, .ro, 0x0⟩, ⟨32, 8, .ro, 0x0⟩]⟩, -- VC_CK_LAST (R101)
   ⟨true, 0x8810, 0x40, 16, .compute, [⟨0, 1, .w1s, 0x0⟩, ⟨1, 6, .rw, 0x0⟩, ⟨7, 5, .rw, 0x0⟩]⟩, -- VC_CK_CTRL (R101)
   ⟨true, 0x8818, 0x40, 16, .compute, [⟨0, 12, .ro, 0x0⟩, ⟨12, 3, .ro, 0x0⟩, ⟨16, 8, .ro, 0x0⟩, ⟨24, 16, .ro, 0x0⟩, ⟨40, 24, .ro, 0x0⟩]⟩, -- ENG_STATUS_V (R102)
   ⟨true, 0x8C00, 0x40, 8, .compute, [⟨0, 12, .ro, 0x0⟩, ⟨12, 3, .ro, 0x0⟩, ⟨16, 8, .ro, 0x0⟩, ⟨24, 16, .ro, 0x0⟩, ⟨40, 24, .ro, 0x0⟩]⟩, -- ENG_STATUS_S (R102)
   ⟨true, 0x8C08, 0x40, 8, .warm, [⟨0, 1, .w1c, 0x0⟩, ⟨1, 1, .ro, 0x0⟩, ⟨4, 12, .ro, 0x0⟩, ⟨16, 3, .ro, 0x0⟩, ⟨19, 3, .ro, 0x0⟩, ⟨22, 5, .ro, 0x0⟩, ⟨27, 1, .ro, 0x0⟩]⟩, -- SC_LOCKSTEP_LAST (R103)
   ⟨true, 0xA000, 0x20, 448, .warm, [⟨0, 24, .ro, 0x0⟩, ⟨24, 16, .ro, 0x0⟩, ⟨40, 24, .ro, 0x0⟩]⟩, -- SP_ECC_COUNTS (R131)
   ⟨true, 0xA008, 0x20, 448, .warm, [⟨0, 1, .w1c, 0x0⟩, ⟨1, 1, .ro, 0x0⟩, ⟨2, 1, .ro, 0x0⟩, ⟨4, 13, .ro, 0x0⟩, ⟨17, 2, .ro, 0x0⟩, ⟨19, 9, .ro, 0x0⟩, ⟨32, 16, .ro, 0x0⟩, ⟨48, 3, .ro, 0x0⟩]⟩, -- SP_ECC_LAST (R131)
   ⟨true, 0x9010, 0x0, 1, .warm, [⟨0, 1, .rws, 0x1⟩, ⟨1, 12, .rws, 0x258⟩, ⟨16, 16, .ro, 0x0⟩, ⟨32, 16, .ro, 0x0⟩]⟩ -- SP_SWEEP_CTRL (R143)
  ]

/-- Register rows, part 1. -/
def regRows1 : List RegRow :=
  [
   ⟨true, 0x9018, 0x0, 1, .warm, [⟨0, 1, .w1c, 0x0⟩, ⟨1, 1, .ro, 0x0⟩, ⟨2, 1, .ro, 0x0⟩, ⟨3, 1, .ro, 0x0⟩, ⟨4, 6, .ro, 0x0⟩, ⟨10, 3, .ro, 0x0⟩, ⟨13, 1, .ro, 0x0⟩, ⟨14, 13, .ro, 0x0⟩, ⟨27, 2, .ro, 0x0⟩, ⟨29, 9, .ro, 0x0⟩, ⟨38, 3, .ro, 0x0⟩]⟩, -- SP_SWEEP_FAIL (R143)
   ⟨true, 0x9000, 0x0, 1, .compute, [⟨0, 6, .rw, 0x0⟩, ⟨6, 3, .rw, 0x0⟩, ⟨9, 5, .rw, 0x0⟩]⟩, -- SP_REPAIR_SEL (R143)
   ⟨true, 0x9008, 0x0, 1, .cold, [⟨0, 1, .ro, 0x0⟩, ⟨1, 1, .ro, 0x0⟩, ⟨2, 13, .ro, 0x0⟩, ⟨15, 2, .ro, 0x0⟩, ⟨17, 1, .ro, 0x0⟩, ⟨18, 1, .ro, 0x0⟩]⟩, -- SP_REPAIR_DATA (R143)
   ⟨true, 0xE000, 0x10, 12, .warm, [⟨0, 3, .ro, 0x0⟩, ⟨3, 1, .ro, 0x0⟩, ⟨4, 1, .ro, 0x0⟩, ⟨5, 7, .ro, 0x7f⟩, ⟨12, 7, .ro, 0x7f⟩, ⟨19, 13, .ro, 0x0⟩, ⟨32, 16, .ro, 0x0⟩, ⟨48, 16, .ro, 0x0⟩]⟩, -- SEAM_STATUS (R176)
   ⟨true, 0xE100, 0x10, 8, .warm, [⟨0, 16, .ro, 0x0⟩, ⟨16, 12, .ro, 0x0⟩, ⟨28, 12, .ro, 0x0⟩, ⟨40, 12, .ro, 0x0⟩, ⟨52, 12, .ro, 0x0⟩]⟩, -- XR_COUNTS (R176)
   ⟨true, 0x7000, 0x0, 1, .warm, [⟨0, 6, .rw, 0x0⟩, ⟨6, 5, .rw, 0x0⟩]⟩, -- EP_SEL (R204)
   ⟨true, 0x7008, 0x0, 1, .compute, [⟨0, 2, .ro, 0x0⟩, ⟨2, 1, .ro, 0x0⟩, ⟨3, 1, .ro, 0x0⟩, ⟨4, 1, .ro, 0x0⟩, ⟨5, 1, .ro, 0x0⟩, ⟨6, 15, .ro, 0x0⟩, ⟨21, 8, .ro, 0x0⟩, ⟨32, 32, .ro, 0x0⟩]⟩, -- EP_STATE (R204)
   ⟨true, 0x7010, 0x8, 5, .warm, [⟨0, 48, .ro, 0x0⟩]⟩, -- EP_COUNT (R204)
   ⟨false, 0x20000, 0x0, 1, .warm, [⟨0, 1, .w1s, 0x0⟩, ⟨1, 1, .w1c, 0x0⟩]⟩, -- ARB_CTRL (R251)
   ⟨false, 0x20100, 0x10, 16, .warm, [⟨0, 9, .rw, 0x0⟩, ⟨9, 1, .rw, 0x1⟩, ⟨10, 9, .rw, 0x100⟩, ⟨32, 9, .ro, 0x0⟩, ⟨41, 1, .ro, 0x1⟩, ⟨42, 9, .ro, 0x100⟩]⟩, -- ARB_CLASS (R251)
   ⟨false, 0x20108, 0x10, 16, .warm, [⟨0, 32, .ro, 0x0⟩, ⟨32, 32, .ro, 0x0⟩]⟩, -- ARB_COUNTS (R251)
   ⟨false, 0x100000, 0x0, 1, .cold, [⟨0, 3, .rwl, 0x5⟩, ⟨3, 1, .ro, 0x0⟩, ⟨16, 16, .ro, 0x0⟩, ⟨48, 16, .ro, 0x0⟩]⟩, -- DRAM_CFG (R258)
   ⟨false, 0x100100, 0x20, 24, .warm, [⟨0, 4, .ro, 0x0⟩, ⟨4, 24, .ro, 0x0⟩, ⟨28, 16, .ro, 0x0⟩, ⟨44, 20, .ro, 0x0⟩]⟩, -- DRAM_CH_STATUS (R258)
   ⟨false, 0x100108, 0x20, 24, .warm, [⟨0, 1, .w1c, 0x0⟩, ⟨1, 1, .ro, 0x0⟩, ⟨2, 1, .ro, 0x0⟩, ⟨3, 1, .ro, 0x0⟩, ⟨4, 4, .ro, 0x0⟩, ⟨8, 31, .ro, 0x0⟩]⟩ -- DRAM_ECC_LAST (R258)
  ]

/-- Register rows, part 2. -/
def regRows2 : List RegRow :=
  [
   ⟨false, 0x30000, 0x10, 64, .compute, [⟨0, 9, .ro, 0x0⟩, ⟨9, 2, .ro, 0x0⟩, ⟨16, 8, .ro, 0x0⟩, ⟨32, 16, .ro, 0x0⟩, ⟨48, 16, .ro, 0x0⟩]⟩, -- PORTER_STATUS (R265)
   ⟨false, 0x30008, 0x10, 64, .warm, [⟨0, 64, .ro, 0x0⟩]⟩, -- PORTER_BYTES (R265)
   ⟨false, 0x20, 0x0, 1, .warm, [⟨0, 1, .ro, 0x0⟩, ⟨1, 1, .ro, 0x0⟩, ⟨8, 24, .ro, 0x0⟩, ⟨32, 16, .ro, 0x0⟩, ⟨48, 16, .ro, 0x0⟩]⟩, -- SERVICE_MODE (R267)
   ⟨true, 0x9100, 0x8, 56, .warm, [⟨0, 8, .ro, 0x0⟩, ⟨8, 4, .ro, 0x0⟩, ⟨12, 1, .ro, 0x0⟩, ⟨13, 1, .ro, 0x0⟩, ⟨16, 24, .ro, 0x0⟩, ⟨40, 16, .ro, 0x0⟩]⟩, -- RH_STATUS (R272)
   ⟨false, 0x30, 0x0, 1, .warm, [⟨0, 3, .ro, 0x0⟩, ⟨3, 4, .ro, 0x0⟩, ⟨7, 1, .ro, 0x0⟩, ⟨8, 8, .ro, 0x0⟩, ⟨16, 8, .ro, 0x0⟩, ⟨32, 32, .ro, 0x0⟩]⟩, -- RECOVERY_STATUS (R314)
   ⟨false, 0x38, 0x0, 1, .warm, [⟨0, 8, .ro, 0x0⟩, ⟨8, 3, .ro, 0x0⟩, ⟨16, 16, .ro, 0x0⟩]⟩, -- HEARTBEAT (R314)
   ⟨true, 0x9400, 0x8, 56, .cold, [⟨0, 16, .ro, 0x0⟩, ⟨16, 16, .ro, 0x0⟩, ⟨32, 16, .ro, 0x0⟩, ⟨48, 8, .ro, 0x0⟩, ⟨56, 1, .ro, 0x0⟩]⟩, -- CELL_EPOCH (R314)
   ⟨false, 0x48, 0x0, 1, .cold, [⟨0, 3, .ro, 0x0⟩, ⟨3, 5, .ro, 0x0⟩, ⟨8, 1, .ro, 0x0⟩, ⟨9, 1, .ro, 0x0⟩, ⟨16, 16, .ro, 0x0⟩, ⟨32, 16, .ro, 0x0⟩]⟩, -- PCIE_LINK (R316)
   ⟨false, 0x40, 0x0, 1, .warm, [⟨0, 41, .rw, 0x0⟩]⟩, -- APERTURE_BASE (R319)
   ⟨false, 0x1008000, 0x10000, 8, .warm, [⟨0, 1, .wo, 0x0⟩]⟩, -- MB_DOORBELL (R328)
   ⟨false, 0x1008008, 0x10000, 8, .warm, [⟨0, 1, .ro, 0x0⟩, ⟨1, 1, .w1c, 0x0⟩, ⟨2, 1, .w1c, 0x0⟩, ⟨3, 1, .ro, 0x0⟩, ⟨4, 1, .ro, 0x0⟩, ⟨8, 8, .ro, 0x0⟩, ⟨16, 8, .ro, 0x0⟩, ⟨32, 16, .ro, 0x0⟩, ⟨48, 7, .ro, 0x0⟩]⟩, -- MB_STATUS (R328)
   ⟨false, 0x100, 0x0, 1, .cold, [⟨0, 4, .wo, 0x0⟩]⟩, -- SEQ_CMD (R355)
   ⟨false, 0x108, 0x0, 1, .cold, [⟨0, 4, .ro, 0x0⟩, ⟨4, 1, .ro, 0x0⟩, ⟨5, 1, .ro, 0x0⟩, ⟨6, 1, .ro, 0x1⟩, ⟨7, 1, .ro, 0x0⟩, ⟨8, 3, .ro, 0x0⟩, ⟨11, 1, .w1c, 0x0⟩, ⟨12, 1, .ro, 0x0⟩, ⟨13, 1, .ro, 0x0⟩, ⟨16, 16, .ro, 0x0⟩, ⟨32, 16, .ro, 0x0⟩]⟩, -- SEQ_STATUS (R355)
   ⟨false, 0x110, 0x0, 1, .cold, [⟨0, 8, .ro, 0x0⟩, ⟨8, 4, .ro, 0x0⟩, ⟨12, 16, .ro, 0x0⟩, ⟨32, 32, .ro, 0x0⟩]⟩ -- SEQ_RESULT (R355)
  ]

/-- Register rows, part 3. -/
def regRows3 : List RegRow :=
  [
   ⟨false, 0x188, 0x8, 13, .cold, [⟨0, 32, .ro, 0x0⟩, ⟨32, 1, .ro, 0x0⟩]⟩, -- SEQ_STEP_TIME (R355)
   ⟨false, 0x80000, 0x40, 6, .cold, [⟨0, 3, .ro, 0x0⟩, ⟨3, 1, .ro, 0x0⟩, ⟨4, 1, .ro, 0x0⟩, ⟨5, 1, .ro, 0x0⟩, ⟨6, 5, .ro, 0x1f⟩, ⟨11, 5, .ro, 0x1f⟩, ⟨16, 2, .ro, 0x0⟩, ⟨18, 1, .ro, 0x0⟩, ⟨19, 13, .ro, 0x1fff⟩, ⟨32, 16, .ro, 0x0⟩, ⟨48, 16, .ro, 0x0⟩]⟩, -- ROPE_STATUS (R394)
   ⟨false, 0x80008, 0x40, 6, .warm, [⟨0, 16, .ro, 0x0⟩, ⟨16, 16, .ro, 0x0⟩, ⟨32, 16, .ro, 0x0⟩, ⟨48, 8, .ro, 0x0⟩, ⟨56, 8, .ro, 0x0⟩]⟩, -- ROPE_COUNTS (R394)
   ⟨false, 0x80200, 0x0, 1, .warm, [⟨0, 16, .ro, 0x0⟩, ⟨16, 16, .ro, 0x0⟩, ⟨32, 16, .ro, 0x0⟩, ⟨48, 16, .ro, 0x0⟩]⟩, -- ROPE_RED_COUNTS (R394)
   ⟨false, 0x400, 0x0, 1, .cold, [⟨0, 16, .rws, 0x34bc⟩, ⟨16, 1, .rws, 0x1⟩]⟩, -- POWER_CTRL (R411)
   ⟨false, 0x408, 0x0, 1, .warm, [⟨0, 16, .ro, 0x0⟩, ⟨16, 16, .ro, 0x0⟩, ⟨32, 1, .ro, 0x0⟩, ⟨33, 1, .ro, 0x0⟩, ⟨34, 1, .ro, 0x0⟩, ⟨35, 1, .ro, 0x0⟩, ⟨36, 5, .ro, 0x0⟩, ⟨41, 4, .ro, 0x0⟩, ⟨48, 16, .ro, 0x0⟩]⟩, -- POWER_STATUS (R411)
   ⟨false, 0x410, 0x0, 1, .cold, [⟨0, 64, .ro, 0x0⟩]⟩, -- HOUSE_CLOCK (R411)
   ⟨false, 0x418, 0x0, 1, .cold, [⟨0, 2, .rws, 0x0⟩, ⟨2, 2, .rws, 0x0⟩, ⟨4, 1, .rws, 0x0⟩, ⟨5, 1, .ro, 0x0⟩, ⟨8, 8, .ro, 0xff⟩, ⟨32, 16, .ro, 0x0⟩, ⟨48, 16, .ro, 0x0⟩]⟩, -- HC_SYNC (R411)
   ⟨true, 0x6000, 0x0, 1, .warm, [⟨0, 2, .ro, 0x0⟩, ⟨2, 1, .ro, 0x0⟩, ⟨3, 4, .ro, 0x0⟩, ⟨7, 1, .ro, 0x0⟩, ⟨8, 12, .ro, 0x0⟩, ⟨20, 8, .ro, 0xff⟩, ⟨32, 16, .ro, 0x0⟩, ⟨48, 8, .ro, 0x0⟩]⟩, -- REGION_THERMAL (R411)
   ⟨true, 0x6008, 0x0, 1, .warm, [⟨0, 4, .rw, 0x0⟩]⟩, -- REGION_FCAP (R411)
   ⟨false, 0x200000, 0x0, 1, .cold, [⟨0, 1, .ro, 0x0⟩, ⟨1, 2, .ro, 0x0⟩, ⟨3, 1, .ro, 0x0⟩, ⟨4, 1, .ro, 0x0⟩, ⟨5, 1, .ro, 0x0⟩, ⟨6, 1, .ro, 0x0⟩, ⟨8, 8, .ro, 0x0⟩, ⟨16, 8, .ro, 0x0⟩, ⟨24, 13, .ro, 0x0⟩, ⟨37, 3, .ro, 0x0⟩, ⟨40, 8, .ro, 0x0⟩, ⟨48, 16, .ro, 0x0⟩]⟩, -- DOR_STATUS (R428)
   ⟨false, 0x200010, 0x0, 1, .cold, [⟨0, 1, .w1s, 0x0⟩, ⟨1, 1, .ro, 0x0⟩, ⟨2, 3, .ro, 0x0⟩, ⟨16, 16, .ro, 0x0⟩, ⟨32, 32, .ro, 0x0⟩]⟩, -- DOR_DEBUG (R428)
   ⟨false, 0x200018, 0x0, 1, .cold, [⟨0, 1, .w1s, 0x0⟩, ⟨1, 1, .w1s, 0x0⟩]⟩, -- DOR_ENROL_CTRL (R428)
   ⟨false, 0x200040, 0x8, 8, .cold, [⟨0, 64, .ro, 0x0⟩]⟩ -- DOR_LOG_DIGEST (R428)
  ]

/-- Register rows, part 4. -/
def regRows4 : List RegRow :=
  [
   ⟨false, 0x40000, 0x0, 1, .warm, [⟨0, 1, .ro, 0x0⟩, ⟨1, 5, .ro, 0x0⟩, ⟨8, 24, .ro, 0x0⟩, ⟨32, 32, .ro, 0x0⟩]⟩, -- TELEM_STATUS (R440)
   ⟨false, 0x40008, 0x0, 1, .warm, [⟨0, 16, .ro, 0x0⟩, ⟨16, 16, .ro, 0x0⟩, ⟨32, 16, .ro, 0x0⟩, ⟨48, 16, .ro, 0x0⟩]⟩, -- TELEM_DROPS (R440)
   ⟨false, 0x40010, 0x0, 1, .cold, [⟨0, 7, .ro, 0x0⟩, ⟨7, 1, .ro, 0x0⟩, ⟨8, 7, .ro, 0x0⟩, ⟨16, 8, .ro, 0x0⟩, ⟨32, 16, .ro, 0x0⟩, ⟨48, 16, .ro, 0x0⟩]⟩, -- OOB_STATUS (R440)
   ⟨false, 0x0, 0x0, 1, .cold, [⟨0, 16, .ro, 0x0⟩, ⟨16, 16, .ro, 0x140⟩, ⟨32, 8, .ro, 0x1⟩, ⟨40, 8, .ro, 0x0⟩, ⟨48, 8, .ro, 0x0⟩]⟩, -- PANEL_ID (R447)
   ⟨false, 0x8, 0x0, 1, .cold, [⟨0, 64, .ro, 0x0⟩]⟩, -- PANEL_SERIAL (R447)
   ⟨false, 0x18, 0x0, 1, .warm, [⟨0, 32, .ro, 0x0⟩, ⟨32, 32, .ro, 0x0⟩]⟩, -- FW_VERSION (R447)
   ⟨false, 0x10000, 0x0, 1, .warm, [⟨0, 9, .w1c, 0x0⟩]⟩, -- EVENT_STATUS (R448)
   ⟨false, 0x10008, 0x0, 1, .warm, [⟨0, 9, .rw, 0x1ff⟩]⟩, -- EVENT_ENABLE (R448)
   ⟨false, 0x10010, 0x0, 1, .warm, [⟨0, 26, .ro, 0x0⟩, ⟨26, 1, .ro, 0x0⟩, ⟨27, 2, .ro, 0x0⟩, ⟨29, 1, .ro, 0x0⟩, ⟨32, 32, .ro, 0x0⟩]⟩, -- BAD_ACCESS_INFO (R448)
   ⟨true, 0x0, 0x0, 1, .cold, [⟨0, 4, .ro, 0x0⟩, ⟨4, 4, .ro, 0x0⟩, ⟨8, 8, .ro, 0x0⟩, ⟨16, 8, .ro, 0x0⟩, ⟨24, 1, .ro, 0x0⟩]⟩, -- REGION_ID (R451)
   ⟨true, 0xE200, 0x10, 8, .cold, [⟨0, 1, .ro, 0x0⟩, ⟨1, 1, .ro, 0x0⟩, ⟨2, 3, .ro, 0x0⟩, ⟨16, 24, .ro, 0x0⟩, ⟨40, 16, .ro, 0x0⟩]⟩ -- BLK_STATUS (R451)
  ]

/-- Every register row (Table 19.3, Table 19.5). -/
def regRows : List RegRow := regRows0 ++ regRows1 ++ regRows2 ++ regRows3 ++ regRows4

/-- Default guaranteed shares of the arbiter's classes (Table 10.1). -/
def arbDefaultShare : List Nat := [102, 77, 61, 15, 1, 0, 0, 0, 0, 0, 0, 0, 0, 0, 0, 0]

/-- Whether a row holds a register at an offset (within its window for a window row). -/
def RegRow.holds (r : RegRow) (o : Nat) : Bool :=
  if r.stride = 0 then o == r.base
  else r.base ≤ o && (o - r.base) % r.stride == 0 && (o - r.base) / r.stride < r.count

/-- The row of the register at a BAR0 offset, none where the offset names no register (R444). -/
def regRowAt (off : Nat) : Option RegRow :=
  let o := (off - 0x2000000) % 0x10000
  if 0x2000000 ≤ off ∧ off < 0x2900000 then
    -- slot k = 7 of a cell holds its grant counters only (R450)
    if 0xA000 ≤ o ∧ o < 0xD800 ∧ (o - 0xA000) / 0x20 % 8 = 7 ∧ (o - 0xA000) % 0x20 ≠ 0 then none
    else regRows.find? fun r => r.win && r.holds o
  else regRows.find? fun r => !r.win && r.holds off

/-- Reset word of a row's fields. -/
def RegRow.resetWord (r : RegRow) : Nat := r.fields.foldl (fun a f => a + f.reset <<< f.lo) 0

end Sys2Proof.Machine
end

