-- ==== Sys2Proof/Machine/Float.lean ====
section
/-! DEFINITION. Number formats and arithmetic (spec/02_number_formats.md, R34-R57): decoding to exact values,
exact sums and products, and one rounding into each target format. -/

namespace Sys2Proof.Machine

/-- A decoded value: NaN, an infinity, or the exact `± m * 2 ^ e` (R36; a zero keeps its sign, R37). -/
inductive FV where
  | nan
  | inf (neg : Bool)
  | fin (neg : Bool) (m : Nat) (e : Int)
deriving DecidableEq, Repr

/-- What a format's codes above its largest finite one mean (Table 2.2). -/
inductive FTop where
  | ieee      -- an infinity, then NaNs
  | nanOnly   -- one NaN code (E4M3)
  | none      -- neither
deriving DecidableEq, Repr

/-- A floating-point layout of Table 2.2. -/
structure FFmt where
  /-- exponent bits -/
  eb : Nat
  /-- mantissa bits -/
  mb : Nat
  bias : Nat
  top : FTop
deriving DecidableEq, Repr

/-- FP32 of Table 2.2. -/
def FFmt.fp32 : FFmt := ⟨8, 23, 127, .ieee⟩
/-- BF16 of Table 2.2. -/
def FFmt.bf16 : FFmt := ⟨8, 7, 127, .ieee⟩
/-- FP16 of Table 2.2. -/
def FFmt.fp16 : FFmt := ⟨5, 10, 15, .ieee⟩
/-- E4M3 of Table 2.2. -/
def FFmt.e4m3 : FFmt := ⟨4, 3, 7, .nanOnly⟩
/-- E5M2 of Table 2.2. -/
def FFmt.e5m2 : FFmt := ⟨5, 2, 15, .ieee⟩
/-- E3M2 of Table 2.2. -/
def FFmt.e3m2 : FFmt := ⟨3, 2, 3, .none⟩
/-- E2M3 of Table 2.2. -/
def FFmt.e2m3 : FFmt := ⟨2, 3, 1, .none⟩
/-- E2M1 of Table 2.2. -/
def FFmt.e2m1 : FFmt := ⟨2, 1, 1, .none⟩

/-- Width of a code in bits. -/
def FFmt.width (f : FFmt) : Nat := 1 + f.eb + f.mb

/-- Magnitude code of the first infinity (IEEE formats). -/
def FFmt.infCode (f : FFmt) : Nat := (2 ^ f.eb - 1) <<< f.mb

/-- Magnitude code of the largest finite value (Table 2.2). -/
def FFmt.maxCode (f : FFmt) : Nat :=
  match f.top with
  | .ieee => f.infCode - 1
  | .nanOnly => 2 ^ (f.eb + f.mb) - 2
  | .none => 2 ^ (f.eb + f.mb) - 1

/-- Canonical NaN code (Table 2.3); 0 where the format has none (the block scale then carries it). -/
def FFmt.nanCode (f : FFmt) : Nat :=
  match f.top with
  | .ieee => f.infCode + 2 ^ (f.mb - 1)
  | .nanOnly => 2 ^ (f.eb + f.mb) - 1
  | .none => 0

/-- Decode a code (R36, R37, R42). -/
def FFmt.decode (f : FFmt) (x : Nat) : FV :=
  let neg := bitAt x (f.eb + f.mb)
  let mag := bits x 0 (f.eb + f.mb)
  let e := mag >>> f.mb
  let m := bits mag 0 f.mb
  let lo : Int := 1 - (f.bias : Int) - f.mb
  if f.top = .ieee ∧ e = 2 ^ f.eb - 1 then (if m = 0 then .inf neg else .nan)
  else if f.top = .nanOnly ∧ mag = 2 ^ (f.eb + f.mb) - 1 then .nan
  else if e = 0 then .fin neg m lo
  else .fin neg (2 ^ f.mb + m) (lo + ((e : Int) - 1))

/-- The code with its sign bit. -/
def FFmt.signed (f : FFmt) (neg : Bool) (mag : Nat) : Nat := if neg then mag + 2 ^ (f.eb + f.mb) else mag

/-- Rounding of a conversion (R46): to nearest even, or stochastic with the element's random word (R49). -/
inductive Rnd where
  | rne
  | sr (word : Nat)
deriving DecidableEq, Repr

/-- floor(log2 (n / d)) of two positive numbers. -/
def floorLog2 (n d : Nat) : Int :=
  let k : Int := (Nat.log2 n : Int) - Nat.log2 d
  let le : Bool := if 0 ≤ k then d <<< k.toNat ≤ n else d ≤ n <<< (-k).toNat
  if le then k else k - 1

/-- Round `num / den` to an integer, ties to even. -/
def rneDiv (num den : Nat) : Nat :=
  let q := num / den
  let r := num % den
  if den < 2 * r ∨ (2 * r = den ∧ q % 2 = 1) then q + 1 else q

/-- Stochastic rounding of `num / den` (a power of two `2 ^ w` in every use, R49) to an integer. -/
def srDiv (num w word : Nat) : Nat :=
  let k := num >>> w
  let d := num % 2 ^ w
  let (d, w) := if 32 < w then (d >>> (w - 32), 32) else (d, w)
  if 2 ^ w ≤ d + (word % 2 ^ 32) >>> (32 - w) then k + 1 else k

/-- Magnitude code of the positive `n / d * 2 ^ e` rounded on the format's grid, as if the exponent range were
unbounded above (R46); the code may exceed `maxCode`, which is overflow. -/
def FFmt.roundMag (f : FFmt) (r : Rnd) (n d : Nat) (e : Int) : Nat :=
  let umin : Int := 1 - (f.bias : Int) - f.mb
  let u : Int := max (floorLog2 n d + e - f.mb) umin
  let sh : Int := e - u
  let k := match r with
    | .rne => if 0 ≤ sh then rneDiv (n <<< sh.toNat) d else rneDiv n (d <<< (-sh).toNat)
    | .sr word => if 0 ≤ sh then rneDiv (n <<< sh.toNat) d else srDiv (n / d) (-sh).toNat word
  ((u - umin).toNat) <<< f.mb + k

/-- Convert an exact value to a format with one rounding (R46, R47, Table 2.4). -/
def FFmt.ofFV (f : FFmt) (r : Rnd) (sat : Bool) : FV → Nat
  | .nan => f.nanCode
  | .inf neg =>
    match f.top with
    | .ieee => f.signed neg f.infCode
    | .nanOnly => if sat then f.signed neg f.maxCode else f.nanCode
    | .none => f.signed neg f.maxCode
  | .fin neg m e =>
    if m = 0 then f.signed neg 0
    else
      let c := f.roundMag r m 1 e
      if c ≤ f.maxCode then f.signed neg c
      else if sat then f.signed neg f.maxCode
      else
        match f.top with
        | .ieee => f.signed neg f.infCode
        | .nanOnly => f.nanCode
        | .none => f.signed neg f.maxCode

/-- Round an exact value to FP32, nearest even; overflow gives the infinity of its sign (R43, R57). -/
def round32 (v : FV) : Nat := FFmt.fp32.ofFV .rne false v

/-- The exact value of an FP32 code. -/
def val32 (x : Nat) : FV := FFmt.fp32.decode x

/-- Round an exact rational `± n / d * 2 ^ e` to FP32. -/
def roundRat32 (neg : Bool) (n d : Nat) (e : Int) : Nat :=
  if n = 0 then FFmt.fp32.signed neg 0
  else
    let c := FFmt.fp32.roundMag .rne n d e
    if c ≤ FFmt.fp32.maxCode then FFmt.fp32.signed neg c else FFmt.fp32.signed neg FFmt.fp32.infCode

/-- Negation of a value. -/
def FV.neg : FV → FV
  | .nan => .nan
  | .inf s => .inf (!s)
  | .fin s m e => .fin (!s) m e

/-- Magnitude of a value. -/
def FV.abs : FV → FV
  | .nan => .nan
  | .inf _ => .inf false
  | .fin _ m e => .fin false m e

/-- The sign of a value (false for NaN). -/
def FV.isNeg : FV → Bool
  | .nan => false
  | .inf s => s
  | .fin s _ _ => s

/-- Whether a value is a zero. -/
def FV.isZero : FV → Bool
  | .fin _ m _ => m == 0
  | _ => false

/-- Whether a value is finite. -/
def FV.isFin : FV → Bool
  | .fin _ _ _ => true
  | _ => false

/-- Exact product (R43: zero times infinity is NaN). -/
def FV.mul : FV → FV → FV
  | .nan, _ => .nan
  | _, .nan => .nan
  | .inf a, .inf b => .inf (a != b)
  | .inf a, .fin b m _ => if m = 0 then .nan else .inf (a != b)
  | .fin a m _, .inf b => if m = 0 then .nan else .inf (a != b)
  | .fin a m e, .fin b n g => .fin (a != b) (m * n) (e + g)

/-- The smallest exponent of the finite values of a list. -/
def minExp (vs : List FV) : Int :=
  vs.foldl (fun a v => match v with | .fin _ _ e => min a e | _ => a) 0

/-- A finite value as an integer multiple of `2 ^ u`, for `u` at most its exponent. -/
def FV.scaled (u : Int) : FV → Int
  | .fin neg m e => let k : Int := (m <<< (e - u).toNat : Nat); if neg then -k else k
  | _ => 0

/-- The exact value of an integer multiple of `2 ^ u`; a zero takes the sign given. -/
def FV.ofScaled (zneg : Bool) (u k : Int) : FV :=
  if k = 0 then .fin zneg 0 0 else .fin (k < 0) k.natAbs u

/-- Exact sum of a list (R43; R53: an exact zero is +0 unless every addend is −0). -/
def FV.sum (vs : List FV) : FV :=
  if vs.any (· == .nan) then .nan
  else
    let p := vs.any (· == .inf false)
    let n := vs.any (· == .inf true)
    if p && n then .nan else if p then .inf false else if n then .inf true
    else
      let u := minExp vs
      let k := (vs.map (FV.scaled u)).foldl (· + ·) 0
      FV.ofScaled (!vs.isEmpty && vs.all fun v => v.isZero && v.isNeg) u k

/-- Exact sum of two values. -/
def FV.add (a b : FV) : FV := FV.sum [a, b]

/-- Compare two values other than NaN: negative, zero or positive as a is below, equal to or above b;
−0 equals +0. -/
def FV.cmp (a b : FV) : Int :=
  match a, b with
  | .inf s, .inf t => if s = t then 0 else if s then -1 else 1
  | .inf s, _ => if s then -1 else 1
  | _, .inf t => if t then 1 else -1
  | x, y =>
    let u := min (minExp [x]) (minExp [y])
    let d := x.scaled u - y.scaled u
    if d < 0 then -1 else if d = 0 then 0 else 1

/-- FP32 addition, subtraction, multiplication and fused multiply-add, one rounding each (R57). -/
def fadd32 (a b : Nat) : Nat := round32 ((val32 a).add (val32 b))
/-- FP32 multiplication (R57). -/
def fmul32 (a b : Nat) : Nat := round32 ((val32 a).mul (val32 b))
/-- FP32 fused multiply-add, one rounding (R57). -/
def ffma32 (a b c : Nat) : Nat := round32 (((val32 a).mul (val32 b)).add (val32 c))
/-- FP32 negation of a value; a NaN is written canonical (R42). -/
def fneg32 (a : Nat) : Nat := round32 (val32 a).neg
/-- FP32 magnitude of a value; a NaN is written canonical (R42). -/
def fabs32 (a : Nat) : Nat := round32 (val32 a).abs

/-- FP32 division, one rounding: RNE32(x / y), with the special values of R43. -/
def fdiv32 (a b : Nat) : Nat :=
  match val32 a, val32 b with
  | .nan, _ => FFmt.fp32.nanCode
  | _, .nan => FFmt.fp32.nanCode
  | .inf _, .inf _ => FFmt.fp32.nanCode
  | .inf s, .fin t _ _ => FFmt.fp32.signed (s != t) FFmt.fp32.infCode
  | .fin s _ _, .inf t => FFmt.fp32.signed (s != t) 0
  | .fin s m e, .fin t n g =>
    if n = 0 then
      if m = 0 then FFmt.fp32.nanCode else FFmt.fp32.signed (s != t) FFmt.fp32.infCode
    else roundRat32 (s != t) m n (e - g)

/-- The exact value of an integer. -/
def FV.ofInt (x : Int) : FV := .fin (x < 0) x.natAbs 0

/-- Round a finite value to the nearest integer, ties to even (R48). -/
def FV.toIntRne : FV → Int
  | .fin neg m e =>
    let k := if 0 ≤ e then m <<< e.toNat else rneDiv m (1 <<< (-e).toNat)
    if neg then -(k : Int) else (k : Int)
  | _ => 0

/-- Conversion to a two's-complement integer of `w` bits, saturating (R48, Table 2.4). -/
def FV.toSat (w : Nat) (v : FV) : Nat :=
  let hi : Int := 2 ^ (w - 1) - 1
  let lo : Int := -(2 ^ (w - 1))
  match v with
  | .nan => 0
  | .inf neg => ofSigned w (if neg then lo else hi)
  | v => ofSigned w (clampInt lo hi v.toIntRne)

/-- INT32 to FP32, nearest even (R48). -/
def int32ToFp32 (x : Nat) : Nat := round32 (FV.ofInt (toSigned 32 x))

/-- The floating-point layout of an element of a format code (Table 2.1); none for integers and reserved codes. -/
def fmtElem (code : Nat) : Option FFmt :=
  match code with
  | 0x00 => some .fp32
  | 0x01 => some .bf16
  | 0x02 => some .fp16
  | 0x03 => some .e4m3
  | 0x04 => some .e5m2
  | 0x05 => some .e4m3
  | 0x06 => some .e5m2
  | 0x07 => some .e3m2
  | 0x08 => some .e2m3
  | 0x09 => some .e2m1
  | 0x0C => some .e2m1
  | 0x0D => some .e3m2
  | _ => none

/-- Element bits of a format code (Table 2.1). -/
def fmtBits (code : Nat) : Nat :=
  match code with
  | 0x00 => 32 | 0x01 => 16 | 0x02 => 16 | 0x03 => 8 | 0x04 => 8 | 0x05 => 8 | 0x06 => 8
  | 0x07 => 6 | 0x08 => 6 | 0x09 => 4 | 0x0A => 8 | 0x0B => 4 | 0x0C => 4 | 0x0D => 6 | 0x0E => 32
  | _ => 0

/-- Whether a format code is defined (R34, Table 2.1). -/
def fmtValid (code : Nat) : Bool := code ≤ 0x0E

/-- Whether a format is an integer format. -/
def fmtInt (code : Nat) : Bool := code == 0x0A || code == 0x0B || code == 0x0E

/-- Whether a format has an E8M0 scale per 32 elements (R40). -/
def fmtMx (code : Nat) : Bool := 0x05 ≤ code && code ≤ 0x09

/-- Whether a format has an E4M3 scale per 16 elements and a tensor scale (R41). -/
def fmtS16 (code : Nat) : Bool := code == 0x0C || code == 0x0D

/-- Elements under one block scale; 0 for unscaled formats. -/
def fmtBlock (code : Nat) : Nat := if fmtMx code then 32 else if fmtS16 code then 16 else 0

/-- Whether a format is an FP8 format whose subnormal inputs `fp8_in_ftz` flushes (R45). -/
def fmtFp8 (code : Nat) : Bool := 0x03 ≤ code && code ≤ 0x06

/-- Flush a subnormal value of an FP8 layout to a zero of its sign (R45). -/
def flushSub (f : FFmt) (x : Nat) : Nat :=
  if bits x f.mb f.eb = 0 then x - bits x 0 f.mb else x

/-- The value of one element code, before its block scale (R36, R37, R45). -/
def elemVal (code : Nat) (ftz : Bool) (x : Nat) : FV :=
  match fmtElem code with
  | some f => f.decode (if ftz && fmtFp8 code then flushSub f x else x)
  | none => FV.ofInt (toSigned (fmtBits code) x)

/-- The value of a block scale (R40, R41); NaN makes the whole block NaN. -/
def scaleVal (code : Nat) (s : Nat) : FV :=
  if fmtMx code then (if s = 0xFF then .nan else .fin false 1 ((s : Int) - 127))
  else if fmtS16 code then (if bitAt s 7 || s == 0x7F then .nan else FFmt.e4m3.decode s)
  else .fin false 1 0

/-- An element with its block scale included and its tensor scale excluded (R40, R41, R53). -/
def blockElem (code : Nat) (ftz : Bool) (scale x : Nat) : FV := (elemVal code ftz x).mul (scaleVal code scale)

/-- Element i of packed data of a format (R38): element widths that fill whole units of bytes. -/
def packedElem (code : Nat) (data : List Byte) (i : Nat) : Nat :=
  let w := fmtBits code
  if w = 6 then bits (ofLE ((data.drop (i / 4 * 3)).take 3)) (6 * (i % 4)) 6
  else if w = 4 then bits (nth data (i / 2) 0).toNat (4 * (i % 2)) 4
  else ofLE ((data.drop (i * (w / 8))).take (w / 8))

/-- Bytes that `n` elements of a format take, padded to the packing unit (R38). -/
def packedBytes (code n : Nat) : Nat :=
  let w := fmtBits code
  if w = 6 then (n + 3) / 4 * 3 else if w = 4 then (n + 1) / 2 else n * (w / 8)

/-- Pack element codes (R38), padding with zero codes. -/
def packElems (code : Nat) (xs : List Nat) : List Byte :=
  let w := fmtBits code
  let unit := if w = 6 then 4 else if w = 4 then 2 else 1
  (chunks unit xs.length xs).flatMap fun c =>
    toLE (unit * w / 8) (foldIdx (fun i a x => a + (x % 2 ^ w) <<< (i * w)) 0 0 c)

/-- Convert an exact value to an element code of a format, with one rounding (R46-R49). -/
def convElem (code : Nat) (r : Rnd) (sat : Bool) (v : FV) : Nat :=
  match fmtElem code with
  | some f => f.ofFV r sat v
  | none => v.toSat (fmtBits code)

/-- floor(log2) of a finite non-zero value's magnitude. -/
def FV.floorLog : FV → Int
  | .fin _ m e => (Nat.log2 m : Int) + e
  | _ => 0

/-- e_max of R51. -/
def mxEmax (code : Nat) : Int :=
  match code with
  | 0x05 => 8 | 0x06 => 15 | 0x07 => 4 | 0x08 => 2 | _ => 2

/-- The largest magnitude of finite values. -/
def FV.amax (vs : List FV) : FV :=
  vs.foldl (fun a v => if a.cmp v.abs < 0 then v.abs else a) (.fin false 0 0)

/-- The canonical NaN block of a block-scaled format (Table 2.3): its scale and its element code. -/
def nanBlock (code n : Nat) : Nat × List Nat :=
  let elem := if code = 0x05 then 0x7F else if code = 0x06 then 0x7E else 0
  (if fmtMx code then 0xFF else 0x7F, List.replicate n elem)

/-- The zero of a sign in a floating-point format (R37). -/
def zeroOf (code : Nat) (neg : Bool) : Nat := convElem code .rne true (.fin neg 0 0)

/-- Quantise FP32 values to one MX block (R51): scale and element codes; `rs` gives each element's rounding. The elements of a
block of zeros keep their signs (R37). -/
def quantMx (code : Nat) (rs : Nat → Rnd) (xs : List Nat) : Nat × List Nat :=
  let vs := xs.map val32
  if vs.any fun v => !v.isFin then nanBlock code xs.length
  else
    let am := FV.amax vs
    if am.isZero then (0, vs.map fun v => zeroOf code v.isNeg)
    else
      let ex := max (am.floorLog - mxEmax code) (-127)
      let elem := fun (i : Nat) (x : Nat) =>
        match val32 x with
        | .fin s m e => convElem code (rs i) true (val32 (round32 (.fin s m (e - ex))))
        | v => convElem code (rs i) true v
      ((ex + 127).toNat, foldIdx (fun i a x => a ++ [elem i x]) 0 [] xs)

/-- Quantise FP32 values to one B4S16 or B6S16 block under the tensor scale `t` (R52). A quotient that is infinite or NaN makes the whole block NaN (Table 2.4). Under a
scale of 0 every element is the zero of its sign (R37; log 116). -/
def quantS16 (code : Nat) (rs : Nat → Rnd) (t : Nat) (xs : List Nat) : Nat × List Nat :=
  let vs := xs.map val32
  if vs.any fun v => !v.isFin then nanBlock code xs.length
  else
    let m := round32 (FV.ofInt (if code = 0x0C then 6 else 28))
    let s := FFmt.e4m3.ofFV .rne true (val32 (fdiv32 (round32 (FV.amax vs)) (fmul32 m t)))
    if s % 128 = 0 then (s, vs.map fun v => zeroOf code v.isNeg)
    else
      let d := round32 ((FFmt.e4m3.decode s).mul (val32 t))
      let qs := xs.map fun x => val32 (fdiv32 x d)
      if qs.any fun v => !v.isFin then nanBlock code xs.length
      else (s, foldIdx (fun i a q => a ++ [convElem code (rs i) true q]) 0 [] qs)

end Sys2Proof.Machine
end

