-- ==== Sys2Proof/Machine/State.lean ====
section
/-! DEFINITION. The state of the panel: plain data, one structure per part of the hardware, and its value right
after the first power-up (STANDBY, R31, R33). -/

namespace Sys2Proof.Machine

/-- Why a command stops. Raised by no command whose operands name units of the panel. -/
inductive Fault where
  /-- A command names a cell, block, region, bank, port or unit that the panel does not have (R3): there is no
  unit to act. Raised by the unit checks of Machine/Ops.lean. Safe: the panel has no such event. -/
  | noSuchUnit (n : Nat)
deriving DecidableEq, Repr

/-- Why a command is refused. -/
inductive Refusal where
  /-- The command has no meaning yet. Raised only by Machine/Dispatch.lean. Safe. -/
  | notModelled (mnemonic : String)
deriving DecidableEq, Repr

/-- What leaves the panel at its contacts (log 8): interrupts, data read, host writes, frames and answers. -/
inductive Out where
  /-- MSI-X vector (R321) -/
  | msix (vector : Nat)
  /-- granules written to host memory as poisoned data (R256) -/
  | hostPoison (addr : Nat) (len : Nat)
  /-- data of a BAR read -/
  | barRead (off : Nat) (data : Nat)
  /-- a read answered with all ones and no register behind it -/
  | barOnes (off : Nat)
  /-- bytes written to host memory -/
  | hostWrite (addr : Nat) (data : List Byte)
  /-- bytes a BAR4 read returns; none for poison -/
  | bar4Data (off : Nat) (data : Option (List Byte))
  /-- a frame sent on a rope port -/
  | rope (port : Nat) (frame : RopeFrame)
  /-- an error reported through AER (R323) -/
  | aer (uncorrectable : Bool)
  /-- an answer on the out-of-band port -/
  | oob (data : List Byte)
  /-- an answer on the DOE mailbox -/
  | doe (data : List Byte)
  /-- an answer of the JTAG port: accepted or not -/
  | jtag (ir : Nat) (allowed : Bool)
deriving DecidableEq, Repr

/-- A 32 B word in flight with its poison mark (R5, R150). -/
structure Gran where
  data : List Byte
  poison : Bool
deriving DecidableEq, Repr

/-! ### Memory -/

/-- Key generation and erased mark of one 64 KiB granule (R257, R258). -/
structure Granule where
  gen : Nat
  erased : Bool
deriving DecidableEq, Repr

/-- The bytes of DRAM and of every scratchpad by device address, in canonical form (log 2), and the marks beside
them: poisoned 32 B scratchpad words (device address / 32, R129), poisoned 64 B DRAM units (R256), corrected
words and units waiting for their write-back (R129, R256), the key-generation table by runs (R257), and the strip of the last-written
word of each bank (R299). -/
structure MemSt where
  cells : List Host.Cell
  spPoison : List Nat
  dramPoison : List Nat
  writeBack : List Nat
  rewrite : List Nat
  granules : SMap Granule
  lastStrip : SMap Nat
deriving DecidableEq, Repr

/-! ### Cells -/

/-- One record of a receiving endpoint's queue (R182): a message at granule `pos` of `n` granules with its
message number, a pad of `n` granules, or a cue entry at entry `pos`. -/
structure QRec where
  pad : Bool
  pos : Nat
  n : Nat
  num : Nat
deriving DecidableEq, Repr

/-- One open slot of a chorus endpoint (R187-R190). -/
structure ChSlot where
  item : Nat
  count : Nat
  released : Bool
deriving DecidableEq, Repr

/-- A queue endpoint in use (R181-R204): its record of Table 7.3, its channel, and its state as a sender and as
a receiver. `stallAt` and `starveAt`: the cell clock up to which a wait under way has been counted (R203). -/
structure EpSt where
  cfg : Nat
  handle : Nat
  credit : Nat
  tail : Nat
  sent : Nat
  stall : Nat
  msgNo : Nat
  limit : Nat
  waitSince : Option Nat
  stalled : Option Nat
  recs : List QRec
  rtail : Nat
  wing : List QRec
  wtail : Nat
  unsent : Nat
  unsentSince : Nat
  got : Nat
  starve : Nat
  dropped : Nat
  conNo : Nat
  stallAt : Option Nat
  starveAt : Option Nat
deriving DecidableEq, Repr

/-- The further state of an endpoint: chorus window and slots (R187-R190), cue gate (R193-R195), tally (R282),
an active cue timeout (R200) and which side of the gate waits (true: the data), whether its channel is being shut down (R180), the messages
counted in per channel index (R188, R193), and the channel indexes whose contribution under way is being discarded (R191). -/
structure EpAux where
  base : Nat
  slots : SMap ChSlot
  winSent : Nat
  gateTag : Nat
  gateStopped : Bool
  skewSince : Option Nat
  skewData : Bool
  timeout : Option Nat
  tally : Nat
  draining : Bool
  nums : SMap Nat
  skip : List Nat
deriving DecidableEq, Repr

/-- A static grant in force (R133). -/
structure Grant where
  bank : Nat
  offset : Nat
  length : Nat
  writer : Nat
deriving DecidableEq, Repr

/-- State of a dynamic window (R135). -/
inductive WinState where
  | free
  | granted
  | filled
deriving DecidableEq, Repr

/-- A dynamic window in force (R134, R135): its record of Table 8.1, state, writer, count and bytes landed. -/
structure Win where
  decl : Nat
  st : WinState
  writer : Nat
  count : Nat
  landed : Nat
deriving DecidableEq, Repr

/-- A virtual-channel-2 item (Table 7.4). -/
structure Item where
  ty : Nat
  epoch : Nat
  dst : Nat
  dstEp : Nat
  src : Nat
  srcEp : Nat
  tag : Nat
  w1 : Nat
  w2 : Nat
deriving DecidableEq, Repr

/-- A message on its way to a receiving endpoint (R182): its channel handle, message number,
sender's epoch, and its granules, or the size of a pad record (R184); of a contribution, one flit's granules (R56): the
place of the first in the contribution, and whether they are its last. -/
structure Msg where
  handle : Nat
  num : Nat
  epoch : Nat
  pad : Nat
  grans : List Gran
  start : Nat
  final : Bool
deriving DecidableEq, Repr

/-- A flit (R148): virtual channel, stage, framing, error mark, epoch, the channel it belongs to (the circuit's
identity; the model's own), the granules of the message it holds, its 256 data bytes, its poison bits, and the times of its nominal and actual arrival. -/
structure Flit where
  vc : Nat
  stage : Nat
  head : Bool
  tail : Bool
  linkErr : Bool
  epoch : Nat
  chan : Nat
  pad : Nat
  n : Nat
  data : List Byte
  poison : Nat
  due : Nat
  atT : Nat
deriving DecidableEq, Repr

/-- A remote write at a consumer's local port (R132); `owed`: granules of transport credit that go back once it is done with (R167). -/
structure RemWrite where
  writer : Nat
  addr : Nat
  grans : List Gran
  owed : Nat
deriving DecidableEq, Repr

/-- A packet (R166): header words and payload granules. -/
structure Packet where
  hdr : List Word64
  payload : List Gran
  linkErr : Bool
deriving DecidableEq, Repr

/-- Where a cell stands in its fold group's schedule (R211-R215, R228). -/
inductive Phase where
  | idle
  | gated
  | ready
  | inBeat
  | atBarrier
  | changing
  | refill
  | stopped
deriving DecidableEq, Repr

/-- What a cell waits on within a beat (R102, R292). -/
inductive WaitOn where
  | none
  | queue (ep : Nat)
  | barrier (obj : Nat)
  | grant
  | ticket
deriving DecidableEq, Repr

/-- Program state of an engine (R102), its progress counter (R292), what it waits on, the corrected events of the
last second (R81, R100), the time of its last beat end, an active barrier stall (R200), and the time of the cell's
last consumption (R201). -/
structure EngSt where
  pc : Nat
  run : Nat
  cause : Nat
  beats : Nat
  lockstep : Nat
  progress : Nat
  progressAt : Nat
  wait : WaitOn
  waitAt : Nat
  corrected : List Nat
  beatAt : Nat
  barStall : Option Nat
  consumedAt : Nat
deriving DecidableEq, Repr

/-- V-cell registers (Table 4.1): vectors as 2,048-bit numbers, their poison bits, masks, address registers,
loop stack (start, end, remaining), the checked-instruction count and the stochastic VCVT count. -/
structure VSt where
  v : SMap Nat
  vp : SMap Nat
  m : SMap Nat
  a : SMap Nat
  ap : Nat
  loops : List (Nat × Nat × Nat)
  checked : Nat
  srCount : Nat
deriving DecidableEq, Repr

/-- S-cell registers (R105): g, poison bits, predicates; and the answer of a grant request (R136). -/
structure SSt where
  g : SMap Nat
  gp : Nat
  p : Nat
  answer : Option Nat
deriving DecidableEq, Repr

/-- The phase of an M-cell's operator (R67-R81). -/
inductive MPhase where
  | idle
  | stream
  | check
  | replay
  | done
deriving DecidableEq, Repr

/-- A converted output row that waits to drain (R72): the descriptor, block and row it belongs to, its element codes,
the poisoned columns as bits, and whether it is the descriptor's last. -/
structure DrainRow where
  desc : Nat
  mIdx : Nat
  nIdx : Nat
  row : Nat
  vals : List Nat
  poison : Nat
  last : Bool
deriving DecidableEq, Repr

/-- The operands of a K-step as the array and the margin both see them (R73, R75): for every row of the block and for
every output column, its decoded elements and whether a word they came from is poisoned. -/
structure KOps where
  rows : List (List FV × Bool)
  cols : List (List FV × Bool)
deriving DecidableEq, Repr

/-- M-cell state (R60, R65, R67-R81): descriptor index, phase, loop indices (with `sub`, the 32-row sub-block under way in
output-stationary flow), accumulators (keyed row * 32 + column; unlisted
is +0) with their poison, the replay buffer of the values before the K-step, the starting values' poison, the check
group under check, the operands of the K-step, rows waiting to drain, done cues owed (endpoint), the write-back
count of each descriptor, and accumulators kept in place (keyed block * 16,384 + row * 32 + column). -/
structure MSt where
  desc : Nat
  phase : MPhase
  mIdx : Nat
  nIdx : Nat
  kIdx : Nat
  sub : Nat
  acc : SMap Nat
  accPoison : List Nat
  old : SMap Nat
  oldPoison : List Nat
  initPoison : List Nat
  group : Nat
  ops : KOps
  drain : List DrainRow
  cues : List Nat
  wbs : SMap Nat
  keep : SMap Nat
  keepPoison : List Nat
deriving DecidableEq, Repr

/-- The engine state that a spot rehearsal saves (R271): both lockstep copies of an S-cell. -/
inductive RhSaved where
  | none
  | m (x : MSt)
  | v (x : VSt)
  | s (x y : SSt)
deriving DecidableEq, Repr

/-- The rehearsal area, the top 32 KiB of a scene store (R271): operands with their block scales, the element of M7's injection, the
expected signature, the outputs, and the saved engine state. -/
structure RhArea where
  operands : List (List Byte × List Byte)
  inject : Option (Nat × Nat)
  expected : Nat
  outs : List OutWord
  saved : RhSaved
deriving DecidableEq, Repr

/-- Scene store and place in the schedule of a cell (R206-R215). -/
structure SceneSt where
  store : List SceneImage
  sched : List Word64
  logical : Nat
  group : Nat
  playing : Bool
  phase : Phase
  entry : Nat
  beatsLeft : Nat
  cur : Option SceneImage
  loadedAt : Nat
  loadedClk : Nat
  entryDone : Bool
  area : RhArea
deriving DecidableEq, Repr

/-- What stands at a cell's local port: items, messages to land, flits of messages and packets not yet whole,
packets, remote writes, and the answers owed. -/
structure PortSt where
  inbox : List Item
  msgs : SMap (List Msg)
  part : SMap (List Flit)
  pktPart : List (List Byte × Nat × Bool)
  pkts : List Packet
  writes : List RemWrite
deriving DecidableEq, Repr

/-- Grants in force at a cell (R133-R136) and the load grants of R263. -/
structure GrantSt where
  static : List Grant
  wins : SMap Win
  load : List (Nat × Nat × Nat)
deriving DecidableEq, Repr

/-- Barriers as a member cell sees them (R172): arrivals made and generations completed. -/
structure BarCell where
  arrived : Nat
  done : Nat
deriving DecidableEq, Repr

/-- Counts of Checked and Paired service kept for a cell: spot rehearsals (R270), the time of the last one,
compared items (R281), and the last beat at which a tally was taken (R282). -/
structure RhSt where
  spot : Nat
  spotAt : Nat
  compared : Nat
  tallies : List (Nat × Nat × Nat)
deriving DecidableEq, Repr

/-- One cell. -/
structure CellSt where
  scene : SceneSt
  eng : EngSt
  v : VSt
  sc : SSt
  m : MSt
  eps : SMap EpSt
  aux : SMap EpAux
  port : PortSt
  grants : GrantSt
  bars : SMap BarCell
  rh : RhSt
deriving DecidableEq, Repr

/-- A spare in use in a bank (R140, R143): index 0-15 rows, 16-19 column groups. -/
structure Repair where
  spare : Nat
  col : Bool
  target : Nat
  source : Nat
  burnPending : Bool
  burned : Bool
deriving DecidableEq, Repr

/-- The sweep of one bank (R138, R139): next strip (256: the shadow strip), passes done, time of the last strip;
and the bank's repairs. -/
structure BankSt where
  strip : Nat
  passes : Nat
  atT : Nat
  repairs : List Repair
deriving DecidableEq, Repr

/-! ### Mesh -/

/-- A combine entry (R171-R173): child mask, parent, arrivals of both parities, current parity. -/
structure CombineSt where
  childMask : Nat
  parent : Nat
  mask0 : Nat
  mask1 : Nat
  parity : Nat
  word : Nat
deriving DecidableEq, Repr

/-- A stage buffer (R157): its flits (at most two) and the outputs that have taken the first. -/
structure StageBuf where
  flits : List Flit
  taken : Nat
deriving DecidableEq, Repr

/-- A packet buffer of an input port (R174): its flits, and the outputs the packet at its head is routed to and
has been taken by. -/
structure PktBuf where
  flits : List Flit
  route : Nat
  taken : Nat
  discard : Bool
deriving DecidableEq, Repr

/-- One crossing. `treeIn`: what its combine unit, as a root, sends down its own trees. `injFlits` (by input port * 16 + stage),
`injPkts` and `injItems` (by local port): what its cells have sent and wait to inject by credit (R157, R174). -/
structure XrSt where
  foldGroup : Nat
  entry : Nat
  variants : List Variant
  variant : Nat
  nextVariant : Option Nat
  rewrites : List RigEdit
  stages : SMap StageBuf
  vc1 : SMap PktBuf
  vc2 : SMap (List Item)
  vc3 : SMap (List Flit)
  lastVc3 : SMap Nat
  inProgress : SMap Nat
  detours : List Word64
  combine : SMap CombineSt
  treeIn : List Item
  flags : SMap Nat
  groups : SMap Nat
  home : Nat
  periodAt : Nat
  injFlits : SMap (List Flit)
  injPkts : SMap (List Flit)
  injItems : SMap (List Item)
deriving DecidableEq, Repr

/-- One direction of a seam or hub port: flits and items on the wires, the fragments received of
the item under way, fragments sent, whether one was lost, and the recent CRC
failures (R148-R151). Keyed block * 4 + output port; the hub's side is keyed 65,536 + hub port. `credits`: `credit` fields of
Table 6.3 that wait to go over; `spares`: wires replaced at the hub end, which has no register of its own. -/
structure WireSt where
  flits : List Flit
  items : List Item
  rx : List Nat
  sent : Nat
  lost : Bool
  fails : List Nat
  held : Bool
  credits : List Nat
  spares : List Nat
deriving DecidableEq, Repr

/-- Transport state of one direction between a block and the hub (R166-R168). `resend`: packets still to be sent again, which wait
for credit. -/
structure TpSt where
  waiting : List Packet
  unacked : List Packet
  next : Nat
  credit : Nat
  resends : Nat
  progressAt : Nat
  inq : List Packet
  expect : Nat
  nakSent : Bool
  accepted : Nat
  ackAt : Nat
  owed : Nat
  resend : List Packet
deriving DecidableEq, Repr

/-- A fault report on the fault sideband (R14). -/
structure Report where
  cell : Nat
  /-- fence condition code of Table 12.1, or 0 for a cell fault of R294 -/
  cause : Nat
  kind : Nat
  /-- regions it has still to pass, the one it stands at first -/
  way : List Nat
deriving DecidableEq, Repr

/-- The mesh: crossings, wires, transport by block (block * 2 + direction, 1 towards the hub), multicast NAKs on
their way to senders, items and messages that reached the hub, the number of multicast packets sent by base camp, and fault reports in
flight. -/
structure MeshSt where
  xr : SMap XrSt
  wires : SMap WireSt
  tp : SMap TpSt
  hubPart : SMap (List (List Byte × Nat × Bool))
  hubItems : List Item
  hubFlits : SMap (List Flit)
  hubMsgs : List Msg
  hubPkts : List (Nat × Packet)
  mcast : List (Nat × Packet)
  mcastNo : Nat
  reports : List Report
deriving DecidableEq, Repr

/-! ### Channels -/

/-- The counters of a channel's ends at base camp (R203): messages sent and received, clocks of stall and of starve, and the time since
which a message waits for credit. -/
structure HubCount where
  sent : Nat
  got : Nat
  stall : Nat
  starve : Nat
  since : Option Nat
deriving DecidableEq, Repr

/-- An index of the handle space (R177-R180). Ends are physical. -/
structure ChanSt where
  gen : Nat
  live : Bool
  ty : Nat
  send : Option ChanEnd
  recv : Option ChanEnd
  circuit : Option Nat
  fromPkg : Bool
  draining : Bool
  next : Option (ChanEnd × ChanEnd × Nat)
  hub : HubCount
deriving DecidableEq, Repr

/-! ### Package, recovery -/

/-- The loaded package (R208-R222): its sections, digest, limits, options, the cast in force (logical cell to
entry of Table 8.6), the reserve, spare regions left, and held belay barriers. -/
structure Loaded where
  pkg : Package
  digest : List Byte
  stallLimit : Nat
  skewLimit : Nat
  spareMode : Bool
  paired : Bool
  cast : SMap Nat
  reserve : List Nat
  spares : List Nat
  circuits : List Circuit
  handles : List Nat
  loading : Bool
deriving DecidableEq, Repr

/-- A belay (R308, R309): its argument, where the command came from, the groups held. -/
structure Belay where
  mb : Nat
  region : Nat
  len : Nat
  atEntry : List Nat
  extents : List (Nat × Nat × Nat × Nat)
  held : List Nat
  copying : Bool
deriving DecidableEq, Repr

/-- Recovery (R297-R311; and since when two stall events or more have been active without a break, R201): its route (Table 12.2) and
start, the start of the 5 ms bound, the step of its reload and the half of the belay that it takes (R310), logical cells to reload, blocks
under rehearsal and the pair of a mismatch, whether the restart will be refused; the act watchdog's count and the idle
periods (R295); hang and restart counts by digest (R202, R298); stage cores' last heartbeats and the lost ones (R296);
snapshots since the cold start with Doreana's random number, cause, time and act of the last; graph-defect entries; the last
mismatch of each pair; and the last complete belay of the loaded package with the entries its groups start at. -/
structure RecSt where
  startAt : Nat
  boundAt : Nat
  reload : List Nat
  blocks : List Nat
  pairKey : Nat
  refuse : Bool
  watchdog : Nat
  periods : Nat
  periodAt : Nat
  periodBeat : Bool
  hangs : List (List Byte × Nat)
  restarts : List (List Byte × Nat)
  coreAt : List Nat
  lost : List Nat
  snapNumber : Nat
  snapRandom : Nat
  snapCause : Nat
  snapTime : Nat
  snapAct : Nat
  route : Nat
  graph : List (List Byte)
  lastPair : List (Nat × Nat)
  lastBelay : Option Belay
  twoSince : Option Nat
  loadStep : Nat
  half : Option Nat
deriving DecidableEq, Repr

/-- A cairn record (Table 11.6). -/
structure Cairn where
  kind : Nat
  seq : Nat
  time : Nat
  act : Nat
  locKind : Nat
  locIndex : Nat
  physical : Nat
  logical : Nat
  detail : Nat
  kernel : Nat
  seed : Nat
  step : Nat
  expected : Nat
  observed : Nat
  regs : List Word64
  ext : List (List Byte)
  env : List Nat
deriving DecidableEq, Repr

/-- Cairn staging and flash (R289). -/
structure CairnSt where
  staging : List Cairn
  flash : List Cairn
  next : Nat
deriving DecidableEq, Repr

/-- An item of a paired cell at base camp that waits for its comparison (R281): the logical primary cell, item number,
whether it came from the twin half, its time; and the item: a packet, a stager ticket, or a porter's COPY with the bytes
read. -/
structure HeldItem where
  primary : Nat
  num : Nat
  twin : Bool
  atT : Nat
  pkt : Option Packet
  ticket : Option Nat
  porter : Option Nat
  grans : List Gran
deriving DecidableEq, Repr

/-- A tally record (R282). -/
structure TallyRec where
  logical : Nat
  scene : Nat
  beat : Nat
  tally : Nat
  atT : Nat
deriving DecidableEq, Repr

/-- Paired service (R281, R282). -/
structure PairSt where
  held : List HeldItem
  tallies : List TallyRec
deriving DecidableEq, Repr

/-! ### Acts and generation -/

/-- A queued act record (Table 9.1): its opening time, act length in ns, number of acts (0: until ACT_STOP), kind,
number of its first act, and how many of its acts have opened or were skipped. -/
structure ActRec where
  openAt : Nat
  len : Nat
  count : Nat
  kind : Nat
  first : Nat
  done : Nat
deriving DecidableEq, Repr

/-- A roster entry (Table 9.8). -/
structure RosterEnt where
  slot : Nat
  gen : Nat
  st : Nat
  final : Bool
  length : Nat
  chunk : Nat
  last : Nat
  promptAddr : Nat
  sampling : List Byte
deriving DecidableEq, Repr

/-- The act in progress (R225, R228); an aborted act keeps its curtain. -/
structure Act where
  num : Nat
  openAt : Nat
  curtain : Nat
  kind : Nat
  restarted : Bool
  aborted : Bool
  roster : List RosterEnt
deriving DecidableEq, Repr

/-- A change of a slot that waits for the curtain of its act (R229). -/
inductive Change where
  | prompt (slot gen : Nat) (ids : List Nat) (last held : Bool)
  | enrol (slot gen : Nat) (resume : Bool)
  | close (slot gen : Nat)
deriving DecidableEq, Repr

/-- The act queue (R224-R228): the roster of the next act once it is fixed, the next act number, the last act whose
curtain has passed, whether the next roster follows a restart, and the changes that wait. -/
structure ActsSt where
  queue : List ActRec
  cur : Option Act
  fixed : Option (List RosterEnt)
  nextNum : Nat
  done : Nat
  restart : Bool
  changes : List (Nat × Change)
deriving DecidableEq, Repr

/-- What a slot has staged in the act in progress (R239, R240): tokens by layer, pages taken, APPENDs that have not
landed, the staged token, the completion stamp. -/
structure StageSt where
  toks : List (Nat × Nat)
  pages : SMap Nat
  landing : Nat
  token : Option Nat
  stop : Bool
  stamp : Option Nat
  noPages : Bool
deriving DecidableEq, Repr

/-- A sequence slot (R229-R233): state, generation, descriptor (Table 9.4), committed length, last token, prompt
identifiers received and committed, whether `last` was seen, tokens generated, pages (p * layers + l to DRAM address),
prompt pages, prompt pages and identifiers of entries read but not yet in effect, what it has staged, the time of its
close, and a SLOT_OPEN deferred behind the close (mailbox, log entry, descriptor). -/
structure SlotSt where
  st : Nat
  gen : Nat
  layers : Nat
  tok : Nat
  hot : Nat
  pt : Nat
  maxLen : Nat
  cring : Nat
  chunkD : Nat
  chunkP : Nat
  sampling : List Byte
  len : Nat
  last : Nat
  got : Nat
  used : Nat
  full : Bool
  made : Nat
  pages : SMap Nat
  prompts : SMap Nat
  rsv : List Nat
  pend : Nat
  stage : StageSt
  closeAt : Nat
  reopen : Option (Nat × Nat × List Byte)
deriving DecidableEq, Repr

/-- A KV stager ticket (R234-R238): its request, whether it has been judged, its status and quantity, the next page of
a STREAM, the descriptors still out, whether all have been submitted, its porter, the ticket
whose outcome it reports in Paired service, and the committed length at acceptance. -/
structure Ticket where
  cell : Nat
  op : Nat
  slot : Nat
  layer : Nat
  windows : Nat
  gen : Nat
  act : Nat
  addr : Nat
  first : Nat
  count : Nat
  token : Nat
  stop : Bool
  target : Nat
  judged : Bool
  status : Nat
  qty : Nat
  nextPage : Nat
  out : Nat
  closed : Bool
  porter : Nat
  mate : Option Nat
  len : Nat
deriving DecidableEq, Repr

/-- The KV stager: the pool (R232), its pages in use (64 KiB page numbers from the pool's base), tickets, porter
rotation, and the last window assigned for each target (R235). -/
structure KvSt where
  base : Nat
  len : Nat
  used : List Nat
  tickets : SMap Ticket
  turn : Nat
  rot : SMap Nat
deriving DecidableEq, Repr

/-! ### Base camp -/

/-- A porter descriptor (Table 10.5): its eight words; who submitted it (0 stage-core firmware, 1 the KV stager, 2 + i
host ring i); the stager's ticket and the pages or entries it counts; the bytes of a roster; and every queue it has been
in with its number there (R261). -/
structure Desc where
  words : List Nat
  owner : Nat
  ticket : Nat
  qty : Nat
  data : List Gran
  trail : List (Nat × Nat)
deriving DecidableEq, Repr

/-- What a porter's running descriptor waits for (R261-R264). -/
inductive PorterPhase where
  | idle
  | started
  | acquiring
  | busy
  | granted
  | moved
  | sending
deriving DecidableEq, Repr

/-- A porter (R259-R265): its queue, the descriptor it runs, the outcome so far, the time of its last change, the
number of descriptors submitted to it, and the cells whose grant it still waits for. -/
structure PorterSt where
  queue : List Desc
  run : Option Desc
  phase : PorterPhase
  status : Nat
  moved : Nat
  atT : Nat
  subs : Nat
  targets : List Nat
deriving DecidableEq, Repr

/-- A request that waits at the arbiter (R248, R250): resource, class, who waits for it, grants of 256 B still to be
given. -/
structure ArbReq where
  res : Nat
  cls : Nat
  owner : Nat
  left : Nat
deriving DecidableEq, Repr

/-- The period of one resource (R250): grants left, credit and grants taken by class, the two round-robin places, and
the table in force (share, borrow, cap). -/
structure ResSt where
  left : Nat
  credit : List Nat
  taken : List Nat
  rr1 : Nat
  rr2 : Nat
  table : List (Nat × Bool × Nat)
  changed : Bool
deriving DecidableEq, Repr

/-- A hub unit's end of a channel, keyed by channel index (R182-R184): credit, tail, messages that wait for credit. -/
structure HubEp where
  credit : Nat
  tail : Nat
  waiting : List (List Gran)
deriving DecidableEq, Repr

/-- Base camp: arbiter, porters, hub units' channel ends, the packets each hub unit dropped (R252), the budget table that the last `apply`
took (R251), firmware's descriptors that wait for a queue with room (R260), and whether one of its copies delivered poison (R310). -/
structure HubSt where
  reqs : List ArbReq
  res : SMap ResSt
  porters : SMap PorterSt
  eps : SMap HubEp
  drops : SMap Nat
  applying : List (Nat × Bool × Nat)
  fw : List Desc
  fwPoison : Bool
deriving DecidableEq, Repr

/-! ### Host interface -/

/-- A completion entry that waits to be written: type and body from byte 16 (Table 13.13a). -/
structure RingEntry where
  ty : Nat
  body : List Byte
deriving DecidableEq, Repr

/-- A host ring index (R178, R342-R349): generation; whether it is live, or in the shutdown of R349 and since when; its
binding, porter or joined endpoint, size exponent, vector, interrupt delay and addresses; head and tail in granules; the
next sequence number; waiting completion entries; errors; the first entry not yet signalled; and a ring whose creation
was deferred behind the shutdown (mailbox, log entry, argument). -/
structure RingSt where
  gen : Nat
  live : Bool
  closing : Option Nat
  binding : Nat
  porter : Nat
  chan : Nat
  size : Nat
  vector : Nat
  delay : Nat
  base : Nat
  wb : Nat
  head : Nat
  tail : Nat
  seq : Nat
  waiting : List RingEntry
  errs : Nat
  lastErr : Nat
  stopped : Bool
  errSeq : Nat
  unsignalled : Option Nat
  next : Option (Nat × Nat × List Byte)
deriving DecidableEq, Repr

/-- A mailbox (R327-R330): its session, and the command it runs with the stamp of its acceptance. -/
structure MbSt where
  session : Nat
  cmd : Option (NyReq × Nat)
deriving DecidableEq, Repr

/-- A PACKAGE_UNLOAD, STRIKE or refused restart that runs: the mailbox that waits for it (8: none), its opcode, its
result, the time it ends (R144, R336, R338), how long it takes, and whether it started again after a compute reset (R29). -/
structure StrikeSt where
  mb : Nat
  opcode : Nat
  result : Nat
  endAt : Nat
  areas : List (Nat × Nat)
  ns : Nat
  again : Bool
deriving DecidableEq, Repr

/-- A PACKAGE_LOAD that waits: deferred behind a strike (log entry) or passing the tests of Table 8.5. -/
structure LoadSt where
  mb : Nat
  entry : Nat
  req : NyReq
  pkg : Package
deriving DecidableEq, Repr

/-- The host interface: BAR4 size, Bus Master Enable, rings, mailboxes, the session that imported the job key, running
strikes and waiting loads, the areas a strike of the package erases, a PCI Express reset whose effects wait, and
the deferral-log entries whose function came up or failed (mailbox, entry, status), the deferred channels (index, mailbox,
entry), and the regions REQUALIFY returns (region, mailbox, deferral-log entry; R371). -/
structure HostSt where
  bar4 : Nat
  bme : Bool
  rings : SMap RingSt
  mbs : SMap MbSt
  keySession : Nat
  strike : Option StrikeSt
  load : Option LoadSt
  areas : List (Nat × Nat)
  unloadAfter : Bool
  finals : List (Nat × Nat × Nat)
  defers : List (Nat × Nat × Nat)
  requal : List (Nat × Nat × Option Nat)
deriving DecidableEq, Repr


/-! ### Rope -/

/-- One direction pair of a rope port (R379-R384): frames that wait for credit, the sender's next `seq`, unacknowledged frames, granules sent and
cumulative credit received, time of progress, replays; the receiver's expected `seq`, whether a nak was sent, frames
accepted since the last acknowledgement and since when, granules freed; the control counter, key generation, frames sent
under the key, the frame number of the next frame (`seq` extended to 64 bits), the 64 B of session keys and those before a rekey; the session's
time, times of recent tag failures; the message under reassembly (type, number, bytes, start); lanes that wait
for a spare (with 32 or 64 times who asked); whether the port's training has passed; the number of the next message; and the HELLO sent last. -/
structure RopePortSt where
  waiting : List RopeFrame
  next : Nat
  unacked : List RopeFrame
  sent : Nat
  credit : Nat
  progressAt : Nat
  replays : Nat
  expect : Nat
  nakSent : Bool
  accepted : Nat
  ackAt : Nat
  freed : Nat
  ctrl : Nat
  keyGen : Nat
  frames : Nat
  num : Nat
  keys : List Byte
  oldKeys : List Byte
  sessionAt : Nat
  tagFails : List Nat
  part : Option (Nat × Nat × List Byte × Nat)
  lanes : List Nat
  trained : Bool
  msgNo : Nat
  hello : List Byte
deriving DecidableEq, Repr

/-- A ring (R377, R378, R395): expected neighbours, break time, sides whose session stands, start of its disabling, and
an ENABLE deferred behind it (mailbox, log entry, sides). -/
structure RopeRingSt where
  expected : Nat
  breakAt : Nat
  session : Nat
  disabledAt : Nat
  next : Option (Nat × Nat × Nat)
deriving DecidableEq, Repr

/-- A shard record (Table 15.6). -/
structure Shard where
  shard : Nat
  fmt : Nat
  notify : Nat
  window : Nat
  bytes : Nat
  rbuf : Nat
  paramAddr : Nat
  paramBytes : Nat
deriving DecidableEq, Repr

/-- A contribution at a node (R389, R390): the child's rank (none: the local one), its stamp, bytes so far, count,
whether it is complete. -/
structure Contrib where
  child : Option Nat
  stamp : Nat
  got : Nat
  count : Nat
  complete : Bool
deriving DecidableEq, Repr

/-- A reduction step of a shard at this node (R390-R393): contributions, whether it has ended, the contributors it ended
with, parameters landed, and the marks of the PARAM frames. -/
structure RedStep where
  shard : Nat
  k : Nat
  contribs : List Contrib
  late : List (Option Nat)
  ended : Bool
  count : Nat
  params : Nat
  marks : Nat
  landed : Bool
deriving DecidableEq, Repr

/-- The team (R387): size, rank, timing, rank table, shards. -/
structure Team where
  n : Nat
  rank : Nat
  t0 : Nat
  period : Nat
  cut : Nat
  level : Nat
  ranks : List Nat
  shards : List Shard
deriving DecidableEq, Repr

/-- The rope: ports, rings, peer list (flash), landings (stream to base and length), the team, the rank in a team that PACKAGE_UNLOAD
cleared (R395), and the open steps. -/
structure RopeSt where
  ports : SMap RopePortSt
  rings : SMap RopeRingSt
  peers : List (List Byte)
  landings : SMap (Nat × Nat)
  team : Option Team
  former : Option Nat
  steps : List RedStep
deriving DecidableEq, Repr



/-! ### Bring-up and defect maps -/

/-- A map entry (Table 14.5). -/
structure MapEnt where
  kind : Nat
  source : Nat
  unit : Nat
  index : Nat
  target : Nat
  burnPending : Bool
  burned : Bool
  candidate : Bool
  passes : Nat
  coldStart : Nat
deriving DecidableEq, Repr

/-- One copy of the field map in flash (R362): its sequence number, whether its digest holds, its entries. -/
structure MapCopy where
  seq : Nat
  ok : Bool
  ents : List MapEnt
deriving DecidableEq, Repr

/-- The defect maps (R361-R367): fused entries, regions whose fuse block fails, the factory map and whether its signature
holds, both copies of the field map, what the tests of this start found bad, regions whose controller they could not reach,
the merged map, fuse slots spent by die, cold starts since manufacture, and whether a count of serviceable cells has fallen to the service floor (R369). -/
structure MapSt where
  fuse : List MapEnt
  fuseBad : List Nat
  factory : List MapEnt
  factoryOk : Bool
  copyA : MapCopy
  copyB : MapCopy
  tests : List MapEnt
  unreached : List Nat
  merged : List MapEnt
  slots : SMap Nat
  coldStarts : Nat
  retire : Bool
deriving DecidableEq, Repr

/-- A saved set (R357): whether it was written whole, and the words of the link registers it holds (offset, value). -/
structure SavedSet where
  valid : Bool
  words : List (Nat × Nat)
deriving DecidableEq, Repr

/-- The bring-up sequencer (R350-R359): the step code expected next, the step in progress with the time of its accepted
write and its outcome, heartbeat losses within it (R353), a START whose PACKAGE_UNLOAD steps still run (warm, end), the
two saved sets, the band recorded at the last START_WARM, and a load recheck: its start, and whether the band needs one. -/
structure SeqSt where
  next : Nat
  stepAt : Nat
  env : Option StepEnv
  losses : Nat
  start : Option (Bool × Nat)
  light : SavedSet
  heavy : SavedSet
  bandRec : Bool
  recheck : Option Nat
  rechecked : Bool
  lightAt : Option Nat
deriving DecidableEq, Repr

/-! ### Power, clocks, thermal steps -/

/-- Power control (R396-R400): the samples of the last ms, the start of an unbroken time above the effective limit, the
end of a fast cut's hold, the time of the last power-step change, when the input left 52-63 V, failed converters, and
regions whose die regulator failed. -/
structure PowerSt where
  samples : List Nat
  overAt : Option Nat
  hold : Option Nat
  stepAt : Nat
  outAt : Option Nat
  failed : List Nat
  regFault : List Nat
deriving DecidableEq, Repr

/-- A region's thermal controller (R405-R409): thermal step, time of its last change, since when the sensor has been at
95 °C or above at code 12, and since when below 90 °C. -/
structure ThermSt where
  step : Nat
  stepAt : Nat
  hotAt : Option Nat
  coolAt : Option Nat
  clk : Nat
  clkAt : Nat
deriving DecidableEq, Repr

/-- The house clock's followers and reference (R402, R404): when the reference stopped, and exchanges within ±5 ns in a
row. -/
structure ClockSt where
  lostAt : Option Nat
  inLock : Nat
deriving DecidableEq, Repr

/-! ### Doreana -/

/-- An entry of the measurement log (Table 17.2). -/
structure LogEnt where
  index : Nat
  ty : Nat
  stamp : Nat
  digest : List Byte
  detail : List Byte
deriving DecidableEq, Repr

/-- A request for evidence (R421, R422): the mailbox it came from (8: the DOE mailbox), its argument, the time it reached
the head of the queue. -/
structure EvReq where
  mb : Nat
  nonce : List Byte
  first : Nat
  dest : Nat
  maxBytes : Nat
  atT : Nat
deriving DecidableEq, Repr

/-- Doreana (R412-R428): owner slots burned so far (key digest, revoked), the burn policy in its flash record, the job key
(R423), the KEM key's number and when the last one was dropped, whether DRAM and identity keys stand, the DRAM key pair of the last cold start (R257), the measurement log (R418-R420) with
the entries it holds and how many were made, its running digest, digests logged at the last READY, and the requests for
evidence (R421). -/
structure DorSt where
  owners : List (List Byte × Bool)
  policy : Bool
  jobKey : Option (List Byte)
  kemId : Nat
  kemAt : Nat
  keys : Bool
  dramKey : List Byte
  log : List LogEnt
  total : Nat
  digest : List Byte
  atReady : List (List Byte)
  queue : List EvReq
deriving DecidableEq, Repr

/-! ### Management plane -/

/-- A telemetry record in staging (R438): the ring handle it was staged for, its kind, its body from byte 16, its stamp. -/
structure TelRec where
  ring : Nat
  kind : Nat
  body : List Byte
  stamp : Nat
deriving DecidableEq, Repr

/-- Telemetry and sensors (R431-R439): the intervals and regions in force, the times of the last samples, staged records,
the drop counts the last DROPS entry showed, the next cairn sequence number to report, and the sensor values. -/
structure TelSt where
  depthUs : Nat
  counterUs : Nat
  regions : Nat
  depthAt : Nat
  counterAt : Nat
  staged : List TelRec
  dropsSeen : Nat
  cairnSeen : Nat
  sensors : SMap Int
deriving DecidableEq, Repr

/-! ### Contacts -/

/-- The control contacts (R456-R459): input in mV, PWR_OK, PANEL_RESET_N, TEST_N, the OOB_ADDR straps and the
value sampled on leaving OFF, THERMTRIP_N fallen, and whether the always-on domain is up. -/
structure PinSt where
  mv : Nat
  pwrOk : Bool
  resetN : Bool
  testN : Bool
  straps : Nat
  sampled : Nat
  tripped : Bool
  alwaysOn : Bool
deriving DecidableEq, Repr

/-- What the distance table was last made from (R175; log 32): blocks whose state is not 0, home ports, detour entries, and
mesh outputs (block * 4 + port) that carried no traffic. -/
structure DistSt where
  states : SMap Nat
  homes : SMap Nat
  detours : SMap (List Word64)
  down : List Nat
deriving DecidableEq, Repr

/-- The panel. Registers are kept by 64 KiB window of BAR0, then by offset. -/
structure State where
  pending : List Instr
  now : Nat
  freeIdx : Nat
  out : List Out
  regs : SMap (SMap Word64)
  mem : MemSt
  cells : SMap CellSt
  banks : SMap BankSt
  mesh : MeshSt
  chans : SMap ChanSt
  pkg : Option Loaded
  belay : Option Belay
  rcv : RecSt
  cairn : CairnSt
  pair : PairSt
  acts : ActsSt
  slots : SMap SlotSt
  kv : KvSt
  hub : HubSt
  host : HostSt
  rope : RopeSt
  maps : MapSt
  seq : SeqSt
  power : PowerSt
  therm : SMap ThermSt
  clock : ClockSt
  dor : DorSt
  tel : TelSt
  pins : PinSt
  castGen : Nat
  castTab : SMap Nat
  distGen : Nat
  dist : DistSt
deriving DecidableEq, Repr

/-- An owner's part of flash and fuses in a module that never started (log 14). -/
def MapSt.init : MapSt := ⟨[], [], [], true, ⟨0, true, []⟩, ⟨0, true, []⟩, [], [], [], [], 0, false⟩
/-- No start yet (R354; log 14). -/
def SeqSt.init : SeqSt := ⟨0, 0, none, 0, none, ⟨false, []⟩, ⟨false, []⟩, false, none, false, none⟩
/-- No power history. -/
def PowerSt.init : PowerSt := ⟨[], none, none, 0, none, [], []⟩
/-- Doreana before the first cold start: no owner, no key (log 14). -/
def DorSt.init : DorSt := ⟨[], true, none, 0, 0, false, [], [], 0, List.replicate 64 0, [], []⟩
/-- Telemetry off. -/
def TelSt.init : TelSt := ⟨0, 0, 0, 0, 0, [], 0, 0, []⟩
/-- Contacts with the input good and every control signal high (log 1, log 10). -/
def PinSt.init : PinSt := ⟨60000, true, true, true, 0, 0, false, true⟩
/-- Recovery at rest. -/
def RecSt.init : RecSt :=
  ⟨0, 0, [], [], 0, false, 0, 0, 0, false, [], [], List.replicate 8 0, [], 0, 0, 0, 0, 0, 0, [], [], none, none, 0, none⟩

/-- The panel right after it has left OFF for the first time: STANDBY (R31, R33, R458; log 1), the house clock at 0
(R403), every register at its reset value, nothing in memory (log 2), no package, no command waiting. -/
def State.reset : State where
  pending := []
  now := 0
  freeIdx := 1
  out := []
  regs := []
  mem := ⟨[], [], [], [], [], [], []⟩
  cells := []
  banks := []
  mesh := ⟨[], [], [], [], [], [], [], [], [], 0, []⟩
  chans := []
  pkg := none
  belay := none
  rcv := .init
  cairn := ⟨[], [], 0⟩
  pair := ⟨[], []⟩
  acts := ⟨[], none, none, 1, 0, false, []⟩
  slots := []
  kv := ⟨0, 0, [], [], 0, []⟩
  hub := ⟨[], [], [], [], [], [], [], false⟩
  host := ⟨0x40000000, false, [], [], 0, none, none, [], false, [], [], []⟩
  rope := ⟨[], [], [], [], none, none, []⟩
  maps := .init
  seq := .init
  power := .init
  therm := []
  clock := ⟨none, 0⟩
  dor := .init
  tel := .init
  pins := .init
  castGen := 0
  castTab := []
  distGen := 0
  dist := ⟨[], [], [], []⟩

end Sys2Proof.Machine
end

