-- ==== Sys2Proof/Machine/Ops.lean ====
section
/-! DEFINITION. The shared operations: register fields, events, panel state, free values, outputs, places on the
panel, cells, and memory. -/

namespace Sys2Proof.Machine

/-! ### Register fields -/

/-- Reset value of a BAR0 register (R447, R451, Table 10.1, and the tables of Machine/Regs.lean). -/
def resetWord (off : Nat) : Nat :=
  if off = 0 then
    Config.vendor.toNat + 0x0140 <<< 16 + 1 <<< 32 + Config.stepping.toNat <<< 40 + Config.moduleRev.toNat <<< 48
  else if off = 8 then Config.serial.toNat
  else if off = 0x200010 then (Config.freeValue 0).toNat <<< 32 % 2 ^ 64
  else if 0x20100 ≤ off ∧ off < 0x20200 ∧ off % 0x10 = 0 then
    let sh := nth arbDefaultShare ((off - 0x20100) / 0x10) 0
    sh + 1 <<< 9 + 256 <<< 10 + sh <<< 32 + 1 <<< 41 + 256 <<< 42
  else if 0x2000000 ≤ off ∧ (off - 0x2000000) % 0x10000 = 0 then
    let g := (off - 0x2000000) / 0x10000
    g % 12 + (g / 12) <<< 4 + g <<< 8
  else match regRowAt off with
    | some r => r.resetWord
    | none => 0

/-- The stored word of a register. -/
def State.reg (s : State) (off : Nat) : Nat :=
  match SMap.get? (SMap.getD s.regs (off / 65536) []) off with
  | some w => w.toNat
  | none => resetWord off

/-- Replace a register word. -/
def State.setReg (s : State) (off v : Nat) : State :=
  { s with regs := SMap.upd s.regs (off / 65536) [] fun w => SMap.put w off (BitVec.ofNat 64 v) }

/-- A register field. -/
def State.get (s : State) (f : RF) : Nat := bits (s.reg f.off) f.lo f.w

/-- Replace a register field. -/
def State.set (s : State) (f : RF) (v : Nat) : State := s.setReg f.off (setBits (s.reg f.off) f.lo f.w v)

/-- Add to a counter that saturates at all ones. -/
def State.inc (s : State) (f : RF) (k : Nat := 1) : State := s.set f (satAdd f.w (s.get f) k)

/-- Add to a counter that wraps. -/
def State.wrap (s : State) (f : RF) (k : Nat := 1) : State := s.set f (s.get f + k)

/-- Whether a one-bit field is set. -/
def State.flag (s : State) (f : RF) : Bool := s.get f != 0

/-- Write several fields. -/
def State.sets (s : State) (fs : List (RF × Nat)) : State := fs.foldl (fun s p => s.set p.1 p.2) s

/-! ### Outputs and free values -/

/-- Something leaves the panel (log 8). -/
def State.emit (s : State) (o : Out) : State := { s with out := s.out ++ [o] }

/-- Several things leave the panel. -/
def State.emits (s : State) (os : List Out) : State := { s with out := s.out ++ os }

/-- Draw a value the spec leaves open (log 3). -/
def State.draw (s : State) : BitVec 64 × State := (Config.freeValue s.freeIdx, { s with freeIdx := s.freeIdx + 1 })

/-- Draw `n` bytes the spec leaves open (log 3). -/
def State.drawBytes (s : State) (n : Nat) : List Byte × State :=
  ((Config.freeBytes n s.freeIdx).take n, { s with freeIdx := s.freeIdx + 1 })

/-! ### Events and the panel state -/

/-- Bits of `EVENT_STATUS` (Table 19.4). -/
inductive Ev where
  | stateChange | sequencer | power | badAccess | recoveryDone | cairn | thermal | rope | telemDrop
deriving DecidableEq, Repr

/-- Bit number of an event (Table 19.4). -/
def Ev.bit : Ev → Nat
  | .stateChange => 0 | .sequencer => 1 | .power => 2 | .badAccess => 3 | .recoveryDone => 4
  | .cairn => 5 | .thermal => 6 | .rope => 7 | .telemDrop => 8

/-- Set a status bit; vector 0 is raised when the bit was clear and its enable is 1 (R448). -/
def State.raise (s : State) (e : Ev) : State :=
  let st := s.get Reg.EVENT_STATUS_events
  if bitAt st e.bit then s
  else
    let s := s.set Reg.EVENT_STATUS_events (st + 2 ^ e.bit)
    if bitAt (s.get Reg.EVENT_ENABLE_enable) e.bit then s.emit (.msix 0) else s

/-- The panel states of Table 1.7. -/
inductive PState where
  | off | standby | bringup | ready | running | recovering | dark
deriving DecidableEq, Repr

/-- Code of a panel state (Table 1.7). -/
def PState.code : PState → Nat
  | .off => 0 | .standby => 1 | .bringup => 2 | .ready => 3 | .running => 4 | .recovering => 5 | .dark => 6

/-- The current panel state's code. -/
def State.pst (s : State) : Nat := s.get Reg.PANEL_STATE_state

/-- Whether the panel is in a state. -/
def State.isIn (s : State) (p : PState) : Bool := s.pst == p.code

/-- Whether the field is frozen (R299): from the snapshot to the end of the compute reset the crossings hold their outputs and the porters
stop. -/
def State.frozen (s : State) : Bool :=
  s.isIn .recovering && (s.get Reg.RECOVERY_STATUS_phase == 1 || s.get Reg.RECOVERY_STATUS_phase == 3)

/-- A transition (R33): the previous state, the count, `state_changed`, and the state-change event. -/
def State.goto (s : State) (p : PState) : State :=
  let s := s.set Reg.PANEL_STATE_prev_state s.pst
  let s := s.set Reg.PANEL_STATE_state p.code
  let s := s.wrap Reg.PANEL_STATE_transition_count
  let s := s.set Reg.PANEL_STATE_state_changed 1
  s.raise .stateChange

/-! ### Places -/

/-- Whether a die position is a hub position (the hub hole, R2). -/
def hubDie (col row : Nat) : Bool := (col == 5 || col == 6) && (row == 5 || row == 6)

/-- Whether a cell address is valid (R3). -/
def cellValid (c : Nat) : Bool :=
  c < 0x10000 && c >>> 12 ≤ 11 && bits c 8 4 ≤ 11 && !hubDie (bits c 8 4) (c >>> 12) && bits c 3 2 == 0 && cOf c ≤ 6

/-- Whether a block key (cell address / 32) names a block. -/
def blkValid (b : Nat) : Bool := cellValid (b * 32)

/-- Whether a window index names a field die. -/
def regionValid (g : Nat) : Bool := g < 144 && !hubDie (g % 12) (g / 12)

/-- Every region of the panel. -/
def allRegions : List Nat := (List.range 144).filter regionValid

/-- Block keys of a region. -/
def regionBlocks (g : Nat) : List Nat := (List.range 8).map fun b => (g / 12) <<< 7 + (g % 12) <<< 3 + b

/-- Cells of a block. -/
def blockCells (b : Nat) : List Nat := (List.range 7).map fun c => b * 32 + c

/-- Cells of a region. -/
def regionCells (g : Nat) : List Nat := (regionBlocks g).flatMap blockCells

/-- Block column and block row of a block key (R2). -/
def blkXY (b : Nat) : Nat × Nat := (bits b 3 4 * 4 + bkB b % 4, (b >>> 7) * 2 + bkB b / 4)

/-- Block key at block coordinates, none outside the field (R2). -/
def blkAt (x y : Nat) : Option Nat :=
  let b := (y / 2) <<< 7 + (x / 4) <<< 3 + y % 2 * 4 + x % 4
  if x < 48 ∧ y < 24 ∧ blkValid b then some b else none

/-- Kinds of engine (R206). -/
inductive Engine where
  | m | v | s
deriving DecidableEq, Repr

/-- Engine of a cell (Naming places on the panel). -/
def engineOf (c : Nat) : Engine := if cOf c < 4 then .m else if cOf c < 6 then .v else .s

/-- Banks of a cell (Table 5.1). -/
def bankCount (c : Nat) : Nat := match engineOf c with | .m => 6 | .v => 4 | .s => 2

/-- Device address of offset `o` of a cell's scratchpad window (R4). -/
def spAddr (c o : Nat) : Nat := 0x800000000000 + c <<< 24 + o

/-- Cell and offset of a scratchpad device address; none for an address that is not one or is invalid (R3, R4). -/
def spDecode (a : Nat) : Option (Nat × Nat) :=
  if a < 0x800000000000 ∨ 0x810000000000 ≤ a then none
  else
    let c := (a - 0x800000000000) >>> 24
    let o := a % 2 ^ 24
    if cellValid c ∧ o < bankCount c * 0x100000 then some (c, o) else none

/-- Name of a bank: cell address * 8 + bank. -/
def bankKey (c k : Nat) : Nat := c * 8 + k

/-! ### Cells, crossings, banks -/

/-- An engine at rest (R102). -/
def EngSt.init : EngSt := ⟨0, 0, 0, 0, 0, 0, 0, .none, 0, [], 0, none, 0⟩
/-- V-cell registers at scene load (R86). -/
def VSt.init : VSt := ⟨[], [], [], [], 0, [], 0, 0⟩
/-- S-cell registers at scene load (R105). -/
def SSt.init : SSt := ⟨[], 0, 0, none⟩
/-- An M-cell with no operator. -/
def MSt.init : MSt := ⟨0, .idle, 0, 0, 0, 0, [], [], [], [], [], 0, ⟨[], []⟩, [], [], [], [], []⟩
/-- A rehearsal area with nothing in it. -/
def RhArea.init : RhArea := ⟨[], none, 0, [], .none⟩
/-- A cell with an empty scene store. -/
def SceneSt.init : SceneSt := ⟨[], [], 0, 0, false, .idle, 0, 0, none, 0, 0, false, .init⟩
/-- An empty local port. -/
def PortSt.init : PortSt := ⟨[], [], [], [], [], []⟩
/-- No grants. -/
def GrantSt.init : GrantSt := ⟨[], [], []⟩
/-- No rehearsal yet. -/
def RhSt.init : RhSt := ⟨0, 0, 0, []⟩
/-- A cell as it is after a strike and a reset (R144, R302). -/
def CellSt.init : CellSt :=
  ⟨.init, .init, .init, .init, .init, [], [], .init, .init, [], .init⟩
/-- An endpoint with nothing bound. -/
def EpSt.init : EpSt := ⟨0, 0, 0, 0, 0, 0, 0, 0, none, none, [], 0, [], 0, 0, 0, 0, 0, 0, 0, none, none⟩
/-- The further state of an endpoint at the start (tally: CRC start value of R274). -/
def EpAux.init : EpAux := ⟨0, [], 0, 0, false, none, false, none, 2 ^ 64 - 1, false, [], []⟩
/-- A crossing with nothing loaded: eight empty variants (R156). -/
def XrSt.init : XrSt := 
  ⟨0, 0, List.replicate 8 ⟨[], [], []⟩, 0, none, [], [], [], [], [], [], [], [], [], [], [], [], 0, 0, [], [], []⟩
/-- An idle link direction. -/
def WireSt.init : WireSt := ⟨[], [], [], 0, false, [], false, [], []⟩
/-- Transport at rest: 256 granules of credit (R167). -/
def TpSt.init : TpSt := ⟨[], [], 0, 256, 0, 0, [], 0, false, 0, 0, 0, []⟩
/-- A bank whose sweep starts at strip 0. -/
def BankSt.init : BankSt := ⟨0, 0, 0, []⟩
/-- A free index of the handle space: generation 0x001 (R179). -/
def ChanSt.init : ChanSt := ⟨1, false, 0, none, none, none, false, false, none, ⟨0, 0, 0, 0, none⟩⟩

/-- A region's thermal controller at reset. -/
def ThermSt.init : ThermSt := ⟨0, 0, none, none, 0, 0⟩
/-- The thermal controller of a region. -/
def State.thermal (s : State) (g : Nat) : ThermSt := SMap.getD s.therm g .init
/-- Change a region's thermal controller. -/
def State.modTherm (s : State) (g : Nat) (f : ThermSt → ThermSt) : State := { s with therm := SMap.put s.therm g (f (s.thermal g)) }

/-- The cell at an address. -/
def State.cell (s : State) (c : Nat) : CellSt := SMap.getD s.cells c .init
/-- Replace a cell. -/
def State.setCell (s : State) (c : Nat) (x : CellSt) : State := { s with cells := SMap.put s.cells c x }
/-- Change a cell. -/
def State.modCell (s : State) (c : Nat) (f : CellSt → CellSt) : State := s.setCell c (f (s.cell c))
/-- Change the engine of a cell. -/
def State.modEng (s : State) (c : Nat) (f : EngSt → EngSt) : State := s.modCell c fun x => { x with eng := f x.eng }
/-- Change the place of a cell in its schedule. -/
def State.modScene (s : State) (c : Nat) (f : SceneSt → SceneSt) : State :=
  s.modCell c fun x => { x with scene := f x.scene }
/-- Change the local port of a cell. -/
def State.modPort (s : State) (c : Nat) (f : PortSt → PortSt) : State := s.modCell c fun x => { x with port := f x.port }
/-- Endpoint n of a cell. -/
def State.ep (s : State) (c n : Nat) : EpSt := SMap.getD (s.cell c).eps n .init
/-- Change endpoint n of a cell. -/
def State.modEp (s : State) (c n : Nat) (f : EpSt → EpSt) : State :=
  s.modCell c fun x => { x with eps := SMap.put x.eps n (f (SMap.getD x.eps n .init)) }
/-- The further state of endpoint n of a cell. -/
def State.aux (s : State) (c n : Nat) : EpAux := SMap.getD (s.cell c).aux n .init
/-- Change the further state of endpoint n of a cell. -/
def State.modAux (s : State) (c n : Nat) (f : EpAux → EpAux) : State :=
  s.modCell c fun x => { x with aux := SMap.put x.aux n (f (SMap.getD x.aux n .init)) }
/-- The crossing of a block. -/
def State.xr (s : State) (b : Nat) : XrSt := SMap.getD s.mesh.xr b .init
/-- Change the crossing of a block. -/
def State.modXr (s : State) (b : Nat) (f : XrSt → XrSt) : State :=
  { s with mesh := { s.mesh with xr := SMap.put s.mesh.xr b (f (s.xr b)) } }
/-- A link direction. -/
def State.wire (s : State) (k : Nat) : WireSt := SMap.getD s.mesh.wires k .init
/-- Change a link direction. -/
def State.modWire (s : State) (k : Nat) (f : WireSt → WireSt) : State :=
  { s with mesh := { s.mesh with wires := SMap.put s.mesh.wires k (f (s.wire k)) } }
/-- Transport state of a block's direction. -/
def State.tp (s : State) (b : Nat) (toHub : Bool) : TpSt := SMap.getD s.mesh.tp (b * 2 + b2n toHub) .init
/-- Change the transport state of a block's direction. -/
def State.modTp (s : State) (b : Nat) (toHub : Bool) (f : TpSt → TpSt) : State :=
  { s with mesh := { s.mesh with tp := SMap.put s.mesh.tp (b * 2 + b2n toHub) (f (s.tp b toHub)) } }
/-- A bank's sweep state. -/
def State.bank (s : State) (c k : Nat) : BankSt := SMap.getD s.banks (bankKey c k) .init
/-- Change a bank's sweep state. -/
def State.modBank (s : State) (c k : Nat) (f : BankSt → BankSt) : State :=
  { s with banks := SMap.put s.banks (bankKey c k) (f (s.bank c k)) }
/-- A channel index. -/
def State.chan (s : State) (i : Nat) : ChanSt := SMap.getD s.chans i .init
/-- Change a channel index. -/
def State.modChan (s : State) (i : Nat) (f : ChanSt → ChanSt) : State :=
  { s with chans := SMap.put s.chans i (f (s.chan i)) }

/-- Whether a cell is fenced, alone or with its block (R15). -/
def State.fenced (s : State) (c : Nat) : Bool := s.flag (Reg.CELL_EPOCH_fenced c)

/-- Low 4 bits of a cell's epoch (R313). -/
def State.epoch4 (s : State) (c : Nat) : Nat := s.get (Reg.CELL_EPOCH_epoch c) % 16

/-! ### Memory -/

/-- A byte of a memory list; an unlisted address reads 0 (log 2). -/
def Mem.get (m : List Host.Cell) (a : Nat) : Byte := SMap.getD m a 0

/-- Write a byte; the value 0 removes the entry, so that the form stays canonical. -/
def Mem.put (m : List Host.Cell) (a : Nat) (v : Byte) : List Host.Cell :=
  if v = 0 then SMap.del m a else SMap.put m a v

/-- Write bytes from an address up. -/
def Mem.write : List Host.Cell → Nat → List Byte → List Host.Cell
  | m, _, [] => m
  | m, a, b :: bs => Mem.write (Mem.put m a b) (a + 1) bs

/-- Erase the addresses from `lo` up to `hi`, not included: they read 0. -/
def Mem.clear (m : List Host.Cell) (lo hi : Nat) : List Host.Cell := m.filter fun p => p.1 < lo || hi ≤ p.1

/-- Addresses strictly rising and no entry equal to 0: the canonical form of a memory list. -/
def Mem.sorted : List Host.Cell → Bool
  | [] => true
  | [p] => p.2 != 0
  | p :: q :: m => p.2 != 0 && p.1 < q.1 && Mem.sorted (q :: m)

/-- The canonical form of the memory. -/
def Memory.wf (m : MemSt) : Bool := Mem.sorted m.cells

/-- A byte of the device address space. -/
def State.byte (s : State) (a : Nat) : Byte := Mem.get s.mem.cells a

/-- `n` bytes from an address up. -/
def State.bytes (s : State) (a : Nat) : Nat → List Byte
  | 0 => []
  | n + 1 => s.byte a :: State.bytes s (a + 1) n

/-- The little-endian number at an address (R5). -/
def State.num (s : State) (a n : Nat) : Nat := ofLE (s.bytes a n)

/-- Replace the memory's bytes. -/
def State.setMem (s : State) (m : List Host.Cell) : State := { s with mem := { s.mem with cells := m } }

/-- Write bytes. -/
def State.writeBytes (s : State) (a : Nat) (bs : List Byte) : State := s.setMem (Mem.write s.mem.cells a bs)

/-- Numbers below `lo` or at least `hi` of a mark list. -/
def dropRange (xs : List Nat) (lo hi : Nat) : List Nat := xs.filter fun x => x < lo || hi ≤ x

/-- Zero the device addresses from `lo` up to `hi` (multiples of 64), marks included. -/
def State.clearMem (s : State) (lo hi : Nat) : State :=
  { s with mem := { s.mem with
      cells := Mem.clear s.mem.cells lo hi
      spPoison := dropRange s.mem.spPoison (lo / 32) (hi / 32)
      dramPoison := dropRange s.mem.dramPoison (lo / 64) (hi / 64)
      writeBack := dropRange s.mem.writeBack (lo / 32) (hi / 32)
      rewrite := dropRange s.mem.rewrite (lo / 64) (hi / 64) } }

/-! ### Outcomes -/

/-- The outcome of a command's effect. -/
abbrev Res := Host.Outcome State Fault Refusal

/-- A command on a unit: it stops by name where the panel has no such unit (R3), and has its effect otherwise. -/
def onUnit (ok : Bool) (n : Nat) (s : State) (f : State → State) : Res :=
  if ok then .next (f s) else .fault (.noSuchUnit n)

/-- A command on a cell. -/
def onCell (c : CellAddr) (s : State) (f : State → State) : Res := onUnit (cellValid c.toNat) c.toNat s f

/-- A command on a block. -/
def onBlk (b : Nat) (s : State) (f : State → State) : Res := onUnit (blkValid b) b s f

/-- A command on a region. -/
def onRegion (g : Nat) (s : State) (f : State → State) : Res := onUnit (regionValid g) g s f

/-- The effect of a command whose condition holds; otherwise nothing happens (log 4). -/
def when (p : Bool) (f : State → State) (s : State) : State := if p then f s else s

end Sys2Proof.Machine
end

