-- ==== Sys2Proof/Machine/Faults.lean ====
section
/-! DEFINITION. Cairn records, cell faults, fault reports and fences (R13-R17, R287-R294), and the field map (R362). -/

namespace Sys2Proof.Machine

/-- Number of the act in progress; 0 when none. -/
def State.actNow (s : State) : Nat := match s.acts.cur with | some a => a.num | none => 0

/-- Stall limit of the loaded package in ns (R199). -/
def State.stallNs (s : State) : Nat := match s.pkg with | some p => p.stallLimit * 1000 | none => 2000000

/-- Skew limit of the loaded package in ns (R199). -/
def State.skewNs (s : State) : Nat := match s.pkg with | some p => p.skewLimit * 1000 | none => 100000

/-- Cell clock in MHz of a frequency step (Table 16.2). -/
def stepMHz (n : Nat) : Nat := 3600 - 200 * min n 12

/-- Code a region runs at: the one in force, and at least 6 in BRINGUP (R401). -/
def State.fcode (s : State) (g : Nat) : Nat :=
  let c := s.get (Reg.REGION_THERMAL_fstep g)
  if s.isIn .bringup then max c 6 else c

/-- Tenths of a cell clock that pass in a region in 1 ns (R401); its cell clocks stop in GHOST and CUT (Table 16.2). -/
def State.clockRate (s : State) (g : Nat) : Nat :=
  if 2 ≤ s.get (Reg.REGION_THERMAL_tstate g) then 0 else stepMHz (s.fcode g) / 100

/-- Tenths of a cell clock that a region has counted, at the frequency of its step (log 117). -/
def State.clocks (s : State) (g : Nat) : Nat := (s.thermal g).clk + (s.now - (s.thermal g).clkAt) * s.clockRate g

/-- The region's cell clocks counted so far are kept, before their frequency changes. -/
def State.clockMark (s : State) (g : Nat) : State := s.modTherm g fun x => { x with clk := s.clocks g, clkAt := s.now }

/-- Temperature, core rail, cell clock, mesh clock and firmware version at an event (Table 11.6). -/
def State.cairnEnv (s : State) (g : Nat) : List Nat :=
  [ofSigned 16 (toSigned 12 (s.get (Reg.REGION_THERMAL_temp g))),
   (8500 - 125 * min (s.fcode g) 12) / 10,
   stepMHz (s.fcode g),
   match s.get (Reg.REGION_THERMAL_tstate g) with | 2 => 1000 | 3 => 0 | _ => 2000,
   s.get Reg.FW_VERSION_stage]

/-- A cairn record with its location; the other fields zero, and `kernel` 0xFF (Table 11.6). -/
def Cairn.blank (kind locKind locIndex physical logical detail : Nat) : Cairn :=
  ⟨kind, 0, 0, 0, locKind, locIndex, physical, logical, detail, 0xFF, 0, 0, 0, 0, [], [], []⟩

/-- Change base camp's state. -/
def State.modHub (s : State) (f : HubSt → HubSt) : State := { s with hub := f s.hub }

/-- A transfer asks the arbiter for its grants of 256 B (R248, R250). -/
def State.request (s : State) (res cls owner n : Nat) : State :=
  if n = 0 then s
  else s.modHub fun h => { h with reqs := h.reqs ++ [⟨res, cls, owner, (n + 255) / 256⟩] }

/-- Stage a new cairn record, or drop it when staging is full; its sequence number is used either way (R289). Its write into the panel
area is a request of class 4 (R248): headers of 200 B, the section and its extension entries (R287). -/
def State.stageCairn (s : State) (c : Cairn) : State :=
  let r := { c with seq := s.cairn.next, time := s.now, act := s.actNow
                    env := s.cairnEnv (gOf c.physical) }
  let next := (s.cairn.next + 1) % 2 ^ 32
  if s.cairn.staging.length < 1024 then
    let s := s.request 0 4 0 (344 + 32 * min r.ext.length 120)
    State.raise { s with cairn := { s.cairn with staging := s.cairn.staging ++ [r], next := next } } .cairn
  else
    State.inc { s with cairn := { s.cairn with next := next } } Reg.SERVICE_MODE_cairn_drop_count

/-- Logical address a physical cell plays; 0xFFFF when none (Table 11.6). -/
def State.logicalOf (s : State) (c : Nat) : Nat :=
  let x := (s.cell c).scene
  if x.playing then x.logical else 0xFFFF

/-- A copy of registers for a cairn record. -/
def State.regWords (s : State) (offs : List Nat) : List Word64 := offs.map fun o => BitVec.ofNat 64 (s.reg o)

/-- Regions that a report passes from region `g` to one that borders the hub hole: in dimension order, columns first (R14). -/
def faultWay : Nat → Nat → List Nat
  | 0, g => [g]
  | n + 1, g =>
    let x := g % 12
    let y := g / 12
    let mid := decide (5 ≤ y ∧ y ≤ 6)
    g :: (if x < (if mid then 4 else 5) then faultWay n (g + 1)
      else if (if mid then 7 else 6) < x then faultWay n (g - 1)
      else if mid then []
      else if y < 4 then faultWay n (g + 12)
      else if 7 < y then faultWay n (g - 12)
      else [])

/-- A report on the fault sideband, at the region it is raised in (R14). -/
def State.report (s : State) (c cause kind : Nat) : State :=
  { s with mesh := { s.mesh with reports := s.mesh.reports ++ [⟨c, cause, kind, faultWay 12 (gOf c)⟩] } }

/-- A report of a base-camp unit to the lead stage core, which it reaches without the sideband. -/
def State.hubReport (s : State) (unit kind : Nat) : State :=
  { s with mesh := { s.mesh with reports := s.mesh.reports ++ [⟨unit, 0, kind, []⟩] } }

/-- Raise a cell fault to the block controller: counted (R451) and reported to the stage cores (R14). Kinds of
R294: 1 program fault, 2 refused write, 3 chorus drop, 4 packet header failure, 5 packet to an invalid address,
6 cue mismatch. -/
def State.cellFault (s : State) (c kind : Nat) : State :=
  (s.inc (Reg.BLK_STATUS_cell_fault_count (c / 32))).report c 0 kind

/-- Stop a fenced engine at once: registers and accumulators are lost (R16, R85, R120). -/
def State.stopEngine (s : State) (c : Nat) : State :=
  s.modCell c fun x =>
    { x with
        eng := { x.eng with run := 6, wait := .none }
        v := .init, sc := .init, m := .init
        scene := { x.scene with phase := if x.scene.playing then .stopped else x.scene.phase } }

/-- Mark one cell fenced; a cell already fenced keeps its first code (R291). -/
def State.markFenced (s : State) (c cause : Nat) : State :=
  if s.fenced c then s
  else ((s.set (Reg.CELL_EPOCH_fenced c) 1).set (Reg.CELL_EPOCH_fence_cause c) cause).stopEngine c

/-- A fenced reserve cell leaves the reserve smaller, and a record says so (R219). -/
def State.reserveLoss (s : State) (c : Nat) : State :=
  match s.pkg with
  | some p =>
    if p.reserve.contains c then
      State.stageCairn { s with pkg := some { p with reserve := NSet.del p.reserve c } } (Cairn.blank 0x0D 0 0 c 0xFFFF 0)
    else s
  | none => s

/-- Fence a whole block (R15): the block fence replaces a cell fence, and every cell of it is fenced; cells not
fenced before take the code given. -/
def State.fenceBlock (s : State) (b cause : Nat) : State :=
  let s := (s.set (Reg.BLK_STATUS_block_fenced b) 1).set (Reg.BLK_STATUS_cell_fence_valid b) 0
  let m := s.get (Reg.REGION_ID_blocks_fenced (bkG b))
  let s := s.set (Reg.REGION_ID_blocks_fenced (bkG b)) (m ||| 2 ^ bkB b)
  (blockCells b).foldl (fun s c => (s.markFenced c cause).reserveLoss c) s

/-- A fence condition at a cell (R15, R16, R291): the block controller fences the cell, or, holding a fence of
another cell already, the region controller fences the block (code 0x09). The condition is counted and reported. -/
def State.fenceCell (s : State) (c cause : Nat) : State :=
  let b := c / 32
  let s := s.inc (Reg.BLK_STATUS_cell_fault_count b)
  if s.fenced c then s.report c cause 0
  else if s.flag (Reg.BLK_STATUS_cell_fence_valid b) then (s.fenceBlock b 0x09).report c 0x09 0
  else
    let s := (s.set (Reg.BLK_STATUS_cell_fence_valid b) 1).set (Reg.BLK_STATUS_fenced_cell b) (cOf c)
    ((s.markFenced c cause).reserveLoss c).report c cause 0

/-- A condition for which the region controller or the stage cores fence the cell (Table 12.1): the block controller then
holds no fence of it; when it already holds one of another cell, the block is fenced (R15). -/
def State.fenceAbove (s : State) (c cause : Nat) : State :=
  if s.fenced c then s
  else if s.flag (Reg.BLK_STATUS_cell_fence_valid (c / 32)) then s.fenceBlock (c / 32) 0x09
  else (s.markFenced c cause).reserveLoss c

/-- The corrected-event rule of R81 and R100: record an event; true when it is the fourth within 1 s. -/
def fourthIn1s (now : Nat) (times : List Nat) : Bool × List Nat :=
  let ts := times.filter (fun t => now < t + 1000000000) ++ [now]
  (4 ≤ ts.length, ts)

/-- A program fault (R104): the engine stops with its cause and a cell fault is raised. -/
def State.programFault (s : State) (c cause : Nat) : State :=
  State.cellFault
    (s.modCell c fun x =>
      { x with eng := { x.eng with run := 5, cause := cause, wait := .none }
               scene := { x.scene with phase := .stopped } }) c 1

/-- Whether a cell's clock stands and the cell is not fenced: its crossing holds what is for it (R26). -/
def State.gated (s : State) (c : Nat) : Bool := !s.fenced c && 2 ≤ s.get (Reg.REGION_THERMAL_tstate (gOf c))

/-- A command at a cell's local port, which stands still with the cell's clock (R26). -/
def onPort (c : CellAddr) (s : State) (f : State → State) : Res := onCell c s fun s => when (!s.gated c.toNat) f s

/-! ### The field map (R362) -/

/-- Change the defect maps. -/
def State.modMaps (s : State) (f : MapSt → MapSt) : State := { s with maps := f s.maps }

/-- The field map in use: the valid copy with the higher sequence number (R362). -/
def MapSt.field (m : MapSt) : List MapEnt :=
  if m.copyA.ok ∧ (!m.copyB.ok ∨ m.copyB.seq ≤ m.copyA.seq) then m.copyA.ents else if m.copyB.ok then m.copyB.ents else []

/-- Write the field map, to the copy that does not hold the newer valid version (R362). -/
def State.writeField (s : State) (es : List MapEnt) : State :=
  s.modMaps fun m =>
    let seq := max (if m.copyA.ok then m.copyA.seq else 0) (if m.copyB.ok then m.copyB.seq else 0) + 1
    if m.copyA.ok ∧ (!m.copyB.ok ∨ m.copyB.seq ≤ m.copyA.seq) then { m with copyB := ⟨seq, true, es⟩ } else { m with copyA := ⟨seq, true, es⟩ }

/-- Whether two entries name one unit; a seam wire's link stands in `target` (log 134). -/
def MapEnt.same (a b : MapEnt) : Bool :=
  a.kind == b.kind && a.unit == b.unit && a.index == b.index && (a.kind != 5 || a.target == b.target)

/-- Enter a unit in the field map; a listed one stays listed and is no candidate any more (R362, R370). -/
def State.fieldPut (s : State) (e : MapEnt) : State :=
  let es := s.maps.field
  if es.any e.same then s.writeField (es.map fun f => if e.same f then { f with candidate := false, passes := 0 } else f)
  else s.writeField (es ++ [e])

/-- Enter a unit in the field map by its kind, source, unit and index. -/
def State.fieldAdd (s : State) (kind source unit index : Nat) : State :=
  s.fieldPut ⟨kind, source, unit, index, 0, false, false, false, 0, s.maps.coldStarts⟩

/-- Enter a fenced cell in the field map, or its block when that is fenced (R362). -/
def State.fieldFence (s : State) (source c : Nat) : State :=
  if s.flag (Reg.BLK_STATUS_block_fenced (c / 32)) then s.fieldAdd 2 source (c / 32 * 32) 0 else s.fieldAdd 1 source c 0

/-- Enter repairs of a bank in the field map (R141): each once. -/
def State.fieldRepairs (s : State) (c k : Nat) (rs : List Repair) : State :=
  rs.foldl (fun s r =>
    let kind := if r.col then 4 else 3
    let es := s.maps.field
    if es.any fun e => e.kind == kind && e.unit == c && e.index == k && e.target == r.target then s
    else s.writeField (es ++ [(⟨kind, if r.source = 1 then 2 else 3, c, k, r.target, r.burnPending, r.burned, false, 0,
      s.maps.coldStarts⟩ : MapEnt)])) s

end Sys2Proof.Machine
end

