-- ==== Sys2Proof/Machine/Mail.lean ====
section
/-! DEFINITION. Mailboxes: areas, responses, deferral logs (R324-R328, R333, R334), and bad accesses (R8, R448). -/

namespace Sys2Proof.Machine

/-- A bad access (R8, R320, R444): recorded in `BAD_ACCESS_INFO`, counted, and the event set. -/
def State.badAccess (s : State) (off : Nat) (write : Bool) (reason : Nat) (bar2 : Bool) : State :=
  ((s.sets [(Reg.BAD_ACCESS_INFO_offset, off), (Reg.BAD_ACCESS_INFO_write, b2n write), (Reg.BAD_ACCESS_INFO_reason, reason),
    (Reg.BAD_ACCESS_INFO_bar2, b2n bar2)]).inc Reg.BAD_ACCESS_INFO_count).raise .badAccess

/-! ### Host state -/

/-- Change the host interface's state. -/
def State.modHost (s : State) (f : HostSt → HostSt) : State := { s with host := f s.host }
/-- A mailbox with no session and no command. -/
def MbSt.init : MbSt := ⟨0, none⟩
/-- A mailbox. -/
def State.mb (s : State) (n : Nat) : MbSt := SMap.getD s.host.mbs n .init
/-- Change a mailbox. -/
def State.modMb (s : State) (n : Nat) (f : MbSt → MbSt) : State :=
  s.modHost fun h => { h with mbs := SMap.put h.mbs n (f (s.mb n)) }

/-- First BAR0 offset of a mailbox. -/
def mbBase (n : Nat) : Nat := 0x1000000 + n * 0x10000

/-- Put bytes in a mailbox area, as whole 64-bit words from an offset that is a multiple of 8. -/
def State.putArea (s : State) (off : Nat) (bs : List Byte) : State :=
  foldIdx (fun i s c => s.setReg (off + 8 * i) (ofLE c)) 0 s (chunks 8 bs.length bs)

/-- The 32 B header of a request (Table 13.5). -/
def reqHeader (r : NyReq) : List Byte :=
  toLE 1 r.opcode ++ toLE 1 r.flags ++ toLE 2 0 ++ toLE 4 r.tag ++ toLE 4 r.arg.length ++ toLE 4 r.session ++ toLE 8 r.bodyAddr ++ toLE 8 0

/-- The host writes a request in a mailbox's request area; an indirect body stays in host memory (R325). -/
def State.putRequest (s : State) (mb : Nat) (r : NyReq) : State :=
  s.putArea (mbBase mb) (reqHeader r ++ (if bitAt r.flags 0 then [] else r.arg.take 16352))

/-- A command ends (R326, R327 step 4): the response is written, `busy` cleared, `done` set, and the vector raised. -/
def State.respond (s : State) (mb : Nat) (status : Nat) (result : List Byte) : State :=
  match (s.mb mb).cmd with
  | none => s
  | some (r, stamp) =>
    let head := toLE 1 r.opcode ++ toLE 1 status ++ toLE 2 0 ++ toLE 4 r.tag ++ toLE 4 result.length ++ toLE 4 0 ++ toLE 8 stamp ++ toLE 8 0
    let s := (s.putArea (mbBase mb + 0x4000) (head ++ result)).modMb mb fun m => { m with cmd := none }
    (s.sets [(Reg.MB_STATUS_busy mb, 0), (Reg.MB_STATUS_done mb, 1), (Reg.MB_STATUS_last_status mb, status),
      (Reg.MB_STATUS_last_opcode mb, r.opcode)]).emit (.msix (1 + mb))

/-- Status codes (Table 13.8). -/
inductive St where
  | ok | deferred | busy | badHandle | badArg | noResource | authFail | fenced | dark
deriving DecidableEq, Repr

/-- Code of a status (Table 13.8). -/
def St.code : St → Nat
  | .ok => 0 | .deferred => 1 | .busy => 2 | .badHandle => 0x10 | .badArg => 0x11 | .noResource => 0x12
  | .authFail => 0x20 | .fenced => 0x30 | .dark => 0x40

/-! ### The deferral log (R334) -/

/-- BAR0 offset of a deferral-log entry. -/
def deferAt (mb e : Nat) : Nat := mbBase mb + 0x8100 + 16 * e

/-- The lowest entry of a deferral log whose `valid` is 0, none when the log is full. -/
def State.freeDefer (s : State) (mb : Nat) : Option Nat := (List.range 64).find? fun e => !bitAt (s.reg (deferAt mb e)) 0

/-- Make a deferral-log entry: valid, not final, with the command's opcode, tag and result. -/
def State.putDefer (s : State) (mb e opcode tag result : Nat) : State :=
  let s := s.setReg (deferAt mb e) (1 + opcode <<< 8 + 1 <<< 16 + tag <<< 32)
  (s.setReg (deferAt mb e + 8) result).inc (Reg.MB_STATUS_defer_pending mb)

/-- A function with a deferral-log entry has come up or failed: the entry is about to become final (R334). -/
def State.settleDefer (s : State) (mb e : Nat) (st : St) : State :=
  s.modHost fun h => { h with finals := h.finals ++ [(mb, e, st.code)] }

/-- A deferral-log entry becomes final: its status, `deferred`, and the mailbox's vector (R334). -/
def State.finalDefer (s : State) (mb e status : Nat) : State :=
  let w := s.reg (deferAt mb e)
  if bitAt w 0 && !bitAt w 1 then
    let s := s.setReg (deferAt mb e) (setBits (setBits w 1 1 1) 16 8 status)
    ((s.set (Reg.MB_STATUS_defer_pending mb) (s.get (Reg.MB_STATUS_defer_pending mb) - 1)).set (Reg.MB_STATUS_deferred mb) 1).emit
      (.msix (1 + mb))
  else s

end Sys2Proof.Machine
end

