-- ==== Sys2Proof/Machine/Dram.lean ====
section
/-! DEFINITION. Device addresses and DRAM (R252-R258), the hub arbiter (R248-R251), and BAR4 (R319). -/

namespace Sys2Proof.Machine

/-! ### Addresses (Table 10.2) -/

/-- Populated DRAM. -/
def isDram (a : Nat) : Bool := a < 0x01B000000000
/-- The panel area (R253). -/
def panelArea (a : Nat) : Bool := 0x01AE00000000 ≤ a && a < 0x01B000000000
/-- Whether the bytes from `a` on lie in populated DRAM. -/
def inDram (a n : Nat) : Bool := a + n ≤ 0x01B000000000
/-- Whether the bytes from `a` on lie in job DRAM. -/
def inJob (a n : Nat) : Bool := a + n ≤ 0x01AE00000000
/-- DRAM channel of an address (R255). -/
def dramChan (a : Nat) : Nat := a / 4096 % 24
/-- Channel-local address (R255). -/
def dramLocal (a : Nat) : Nat := a / 4096 / 24 * 4096 + a % 4096

/-! ### Granules (R257, R258) -/

/-- A key granule that was never erased. -/
def Granule.init : Granule := ⟨0, false⟩

/-- The entry of a granule in the key-generation table, which is kept as runs: each listed granule starts a run of equal entries
up to the next listed one; before the first they are as made. -/
def runAt (v : Granule) (k : Nat) : SMap Granule → Granule
  | [] => v
  | (a, x) :: m => if a ≤ k then runAt x k m else v

/-- Runs without those that repeat the entry before them. -/
def runsTrim (v : Granule) : SMap Granule → SMap Granule
  | [] => []
  | (a, x) :: m => if x = v then runsTrim v m else (a, x) :: runsTrim x m

/-- Change the entries of granules from `lo` up to `hi`, not included. -/
def runsMod (m : SMap Granule) (lo hi : Nat) (f : Granule → Granule) : SMap Granule :=
  if hi ≤ lo then m
  else runsTrim .init ((m.filter fun p => p.1 < lo) ++ [(lo, f (runAt .init lo m))] ++
    ((m.filter fun p => lo < p.1 && p.1 < hi).map fun p => (p.1, f p.2)) ++ [(hi, runAt .init hi m)] ++ m.filter fun p => hi < p.1)

/-- The key granule of an address. -/
def State.granule (s : State) (a : Nat) : Granule := runAt .init (a / 65536) s.mem.granules

/-- A granule's entry after a crypto-erase (R258): the next generation, and erased. -/
def Granule.erase (g : Granule) : Granule := ⟨if g.gen = 0x7FFF then 1 else g.gen + 1, true⟩

/-- Crypto-erase the granules of an area (R258): they read as zeros. -/
def State.eraseArea (s : State) (base len : Nat) : State :=
  let lo := base / 65536
  let hi := lo + (len + 65535) / 65536
  let s := s.clearMem (lo * 65536) (hi * 65536)
  { s with mem := { s.mem with granules := runsMod s.mem.granules lo hi Granule.erase } }

/-- Device address of the key-generation table (Table 10.3), whose granules keep generation 0 (R257). -/
def keyTable : Nat := 0x01AE00000000

/-- A granule's 16-bit entry in the key-generation table (R257). -/
def Granule.entry (g : Granule) : Nat := g.gen + (b2n g.erased) <<< 15

/-- The XTS tweak of the unit at an address (R257): address bits [47:6] in [41:0], the key generation in [56:42]. -/
def xtsTweak (a gen : Nat) : Nat := bits a 6 42 + gen <<< 42

/-- The 64 bytes that DRAM holds of a unit (R257): the unit encrypted under the panel's DRAM key. The bytes of State.mem are what a read
delivers after correction and decryption. -/
def State.storedUnit (s : State) (u : Nat) : List Byte :=
  Config.aesXts s.dor.dramKey (xtsTweak (64 * u) (s.granule (64 * u)).gen) (s.bytes (64 * u) 64)

/-! ### Reads (Table 10.4) -/

/-- Record a corrected or uncorrectable read in `DRAM_ECC_LAST`. -/
def State.dramLast (s : State) (u : Nat) (e : DramErr) : State :=
  let a := 64 * u
  let c := dramChan a
  let v := s.flag (Reg.DRAM_ECC_LAST_valid c)
  s.sets [(Reg.DRAM_ECC_LAST_overrun c, b2n v), (Reg.DRAM_ECC_LAST_valid c, 1),
    (Reg.DRAM_ECC_LAST_uncorrectable c, b2n !e.corrected), (Reg.DRAM_ECC_LAST_sub c, dramLocal a / 64 % 2),
    (Reg.DRAM_ECC_LAST_device c, if e.corrected then e.device else 0xF), (Reg.DRAM_ECC_LAST_unit c, dramLocal a / 64)]

/-- Read one 64 B unit with the outcome of its code: its bytes, whether they are poison, and the state. -/
def State.readUnit (s : State) (u : Nat) (errs : List DramErr) : (List Byte × Bool) × State :=
  let c := dramChan (64 * u)
  let data := s.bytes (64 * u) 64
  if (s.granule (64 * u)).erased then ((data, false), s)
  else match errs.find? fun e => e.unit == u && !e.corrected with
    | some e =>
      let s := (s.inc (Reg.DRAM_CH_STATUS_ue_count c)).dramLast u e
      ((data, true), s.stageCairn { Cairn.blank 0x0A 3 c 0 0xFFFF (dramLocal (64 * u) / 64) with
        regs := s.regWords [(Reg.DRAM_ECC_LAST_valid c).off] })
    | none =>
      if s.mem.dramPoison.contains u then ((data, true), s.inc (Reg.DRAM_CH_STATUS_poison_read_count c))
      else match errs.find? fun e => e.unit == u with
        | some e =>
          -- the corrected event goes to the lead stage core within base camp (Table 10.4)
          let s := ((s.inc (Reg.DRAM_CH_STATUS_corrected_count c)).dramLast u e).hubReport c 10
          ((data, false), { s with mem := { s.mem with rewrite := NSet.add s.mem.rewrite u } })
        | none => ((data, false), s)

/-- The bytes of `n` consecutive units from unit `u`, with a poison mark for each. -/
def State.readUnits (s : State) (errs : List DramErr) : Nat → Nat → List (List Byte × Bool) × State
  | _, 0 => ([], s)
  | u, n + 1 =>
    let r := s.readUnit u errs
    let q := State.readUnits r.2 errs (u + 1) n
    (r.1 :: q.1, q.2)

/-- Read `n` bytes at a DRAM address as 32 B granules, each poisoned when its unit is (R129, R256). -/
def State.readDram (s : State) (a n : Nat) (errs : List DramErr) : List Gran × State :=
  if n = 0 then ([], s)
  else
    let u := a / 64
    let r := s.readUnits errs u ((a + n - 1) / 64 - u + 1)
    let bs := ((r.1.flatMap (·.1)).drop (a % 64)).take n
    (foldIdx (fun i acc c => acc ++ [⟨c, (nth r.1 ((a % 64 + 32 * i) / 64) ([], false)).2⟩]) 0 [] (chunks 32 bs.length bs), r.2)

/-! ### Writes (R256, R258) -/

/-- The first write to an erased granule: zeros under the new generation, and the mark cleared. -/
def State.fillGranule (s : State) (a : Nat) : State :=
  if (s.granule a).erased then
    { s with mem := { s.mem with granules := runsMod s.mem.granules (a / 65536) (a / 65536 + 1) fun g => { g with erased := false } } }
  else s

/-- Write bytes within one unit (R256): a whole unit replaces what was there; part of a unit is a read-modify-write,
which keeps a poisoned unit poisoned and loses the new bytes. -/
def State.writeUnit (s : State) (a : Nat) (bs : List Byte) (poison : Bool) (errs : List DramErr) : State :=
  let u := a / 64
  let s := s.fillGranule a
  let mark := fun (s : State) (p : Bool) =>
    { s with mem := { s.mem with
        dramPoison := if p then NSet.add s.mem.dramPoison u else NSet.del s.mem.dramPoison u
        rewrite := NSet.del s.mem.rewrite u } }
  if a % 64 = 0 ∧ bs.length = 64 then mark (s.writeBytes a bs) poison
  else
    let r := s.readUnit u errs
    if r.1.2 || poison then mark r.2 true else mark (r.2.writeBytes a bs) false

/-- Write bytes at a DRAM address, unit by unit. -/
def State.writeDram (s : State) : Nat → List Byte → Bool → List DramErr → Nat → State
  | _, _, _, _, 0 => s
  | a, bs, poison, errs, n + 1 =>
    if bs.isEmpty then s
    else
      let k := 64 - a % 64
      State.writeDram (s.writeUnit a (bs.take k) poison errs) (a + k) (bs.drop k) poison errs n

/-- Write granules of 32 B: the two granules of a unit go together, and the unit is poison when either is. -/
def State.writeGrans (s : State) (a : Nat) (gs : List Gran) (errs : List DramErr) : State :=
  let parts := if a % 64 = 0 then chunks 2 gs.length gs
    else [gs.take 1] ++ chunks 2 gs.length (gs.drop 1)
  (parts.foldl (fun (p : Nat × State) (c : List Gran) =>
    let bs := c.flatMap (·.data)
    (p.1 + bs.length, if bs.isEmpty then p.2 else p.2.writeUnit p.1 bs (c.any (·.poison)) errs)) (a, s)).2

/-- DRAM_READ (R256): a read of the unit at an address; outcomes are counted and reported (Table 10.4). -/
def execDramRead (addr : Nat) (errs : List DramErr) (s : State) : Res :=
  onUnit (isDram addr) addr s fun s => (s.readUnit (addr / 64) errs).2

/-- DRAM_WRITE (R256, R258): bytes are stored in the units they lie in. -/
def execDramWrite (addr : Nat) (data : List Byte) (errs : List DramErr) (s : State) : Res :=
  onUnit (inDram addr data.length) addr s fun s => s.writeDram addr data false errs (data.length / 64 + 2)

/-- DRAM_CORRECTED_REWRITE (Table 10.4): the channel rewrites a corrected unit; a write that landed first has dropped it. -/
def execDramCorrectedRewrite (unit : Nat) (s : State) : Res :=
  onUnit (isDram (64 * unit)) unit s fun s => { s with mem := { s.mem with rewrite := NSet.del s.mem.rewrite unit } }

/-! ### The hub arbiter (R248-R251) -/

/-- Number of arbiter resources: DRAM, PCI Express in and out, six rope ports in and out. -/
def resources : Nat := 15

/-- The table in force, as the live fields hold it (class: share, borrow, cap). -/
def State.liveTable (s : State) : List (Nat × Bool × Nat) :=
  (List.range 16).map fun i =>
    (s.get (Reg.ARB_CLASS_live_share i), s.flag (Reg.ARB_CLASS_live_borrow i), s.get (Reg.ARB_CLASS_live_cap i))

/-- A resource between periods. -/
def ResSt.init : ResSt := ⟨0, [], [], 15, 15, [], false⟩
/-- A resource of the arbiter. -/
def State.res (s : State) (r : Nat) : ResSt := SMap.getD s.hub.res r .init
/-- Change a resource. -/
def State.modRes (s : State) (r : Nat) (f : ResSt → ResSt) : State :=
  s.modHub fun h => { h with res := SMap.put h.res r (f (s.res r)) }

/-- Whether all grants of an owner have been given. -/
def State.granted (s : State) (owner : Nat) : Bool := s.hub.reqs.all fun q => q.owner != owner

/-- Copy the applied table into the live fields and end the apply (R251). -/
def State.applied (s : State) : State :=
  let s := foldIdx (fun i s t => s.sets [(Reg.ARB_CLASS_live_share i, t.1), (Reg.ARB_CLASS_live_borrow i, b2n t.2.1),
    (Reg.ARB_CLASS_live_cap i, t.2.2)]) 0 s s.hub.applying
  (s.set Reg.ARB_CTRL_apply 0).modHub fun h => { h with res := SMap.mapVal (fun _ r => { r with changed := false }) h.res }

/-- Start a period of a resource (R250 step 1, R251): its table, the one that `apply` took while that is pending; credit by share;
an apply ends when every resource has changed. -/
def State.arbPeriod (s : State) (r : Nat) : State :=
  let pend := s.flag Reg.ARB_CTRL_apply
  let old := s.res r
  let t := if pend then s.hub.applying else if old.table.isEmpty then s.liveTable else old.table
  let s := s.modRes r fun x =>
    { x with left := 256, credit := t.map (·.1), taken := List.replicate 16 0, table := t, changed := pend }
  if pend ∧ (List.range resources).all (fun k => (s.res k).changed) then s.applied else s

/-- ARBITER_PERIOD (R250, R251): a period of 256 grants of a resource starts when the last has been used. -/
def execArbiterPeriod (res : Nat) (s : State) : Res :=
  onUnit (res < resources) res s fun s => when ((s.res res).left == 0) (fun s => s.arbPeriod res) s

/-- The next class in round-robin order after `last` for which `p` holds. -/
def nextClass (last : Nat) (p : Nat → Bool) : Option Nat :=
  ((List.range 16).map fun i => (last + 1 + i) % 16).find? p

/-- Give one grant of a resource to a class: its oldest request takes it. -/
def takeGrant (res cls : Nat) : List ArbReq → List ArbReq
  | [] => []
  | q :: qs =>
    if q.res = res ∧ q.cls = cls then (if q.left ≤ 1 then qs else { q with left := q.left - 1 } :: qs)
    else q :: takeGrant res cls qs

/-- One grant of a resource (R250 steps 2 and 3). -/
def State.arbGrant (s : State) (res : Nat) : State :=
  let x := s.res res
  let waits := fun c => s.hub.reqs.any fun q => q.res == res && q.cls == c
  let give := fun (s : State) (c : Nat) => s.modHub fun h => { h with reqs := takeGrant res c h.reqs }
  let took := fun (x : ResSt) (c : Nat) => { x with left := x.left - 1, taken := setNth x.taken c (nth x.taken c 0 + 1) }
  match nextClass x.rr1 fun c => waits c && nth x.credit c 0 != 0 with
  | some c =>
    ((give s c).modRes res fun x => { took x c with credit := setNth x.credit c (nth x.credit c 0 - 1), rr1 := c }).wrap
      (Reg.ARB_COUNTS_guaranteed c)
  | none =>
    match nextClass x.rr2 fun c =>
        let t := nth x.table c (0, false, 0)
        waits c && t.2.1 && decide (nth x.taken c 0 < t.2.2) with
    | some c => ((give s c).modRes res fun x => { took x c with rr2 := c }).wrap (Reg.ARB_COUNTS_borrowed c)
    | none => s

/-- ARBITER_GRANT (R250): the next grant of a resource's period goes to one class. -/
def execArbiterGrant (res : Nat) (s : State) : Res :=
  onUnit (res < resources) res s fun s => when ((s.res res).left != 0) (fun s => s.arbGrant res) s

/-! ### BAR4 (R319, R253) -/

/-- Whether memory requests outside BAR0's identity block are served: not a degraded link (R316). -/
def State.linkServes (s : State) : Bool := !s.flag Reg.PCIE_LINK_degraded

/-- Whether BAR4 answers: READY, RUNNING and RECOVERING (Table 1.7). -/
def State.bar4Answers (s : State) : Bool := s.isIn .ready || s.isIn .running || s.isIn .recovering

/-- An access within BAR4 (R319): the aperture's window of DRAM, all ones where nothing answers. -/
def State.bar4 (s : State) (off len : Nat) (write : Bool) (data : List Byte) (poison : Bool) (errs : List DramErr) : State :=
  let a := s.get Reg.APERTURE_BASE_base / s.host.bar4 * s.host.bar4 + off
  let ones := some (List.replicate len (0xFF : Byte))
  if !s.bar4Answers || !s.linkServes then
    if write then s else s.emit (.bar4Data off ones)
  else if panelArea a then
    let s := s.inc Reg.DRAM_CFG_guard_count
    if write then s else s.emit (.bar4Data off ones)
  else if !inDram a len then
    if write then s else s.emit (.bar4Data off ones)
  else
    let s := (s.request 0 3 0 len).request (if write then 1 else 2) 3 0 len
    if write then s.writeDram a (data.take len) poison errs (len / 64 + 2)
    else
      let r := s.readUnits errs (a / 64) ((a + len - 1) / 64 - a / 64 + 1)
      let bs := ((r.1.flatMap (·.1)).drop (a % 64)).take len
      r.2.emit (.bar4Data off (if r.1.any (·.2) then none else some bs))

/-- BAR4_ACCESS (R319): an access to the DRAM aperture. -/
def execBar4Access (off len : Nat) (write : Bool) (data : List Byte) (poison : Bool) (errs : List DramErr) (s : State) : Res :=
  onUnit (off + len ≤ 2 ^ 41 ∧ 0 < len) off s fun s => when (off + len ≤ s.host.bar4) (fun s => s.bar4 off len write data poison errs) s

end Sys2Proof.Machine
end

