-- ==== Sys2Proof/Machine/RegWrite.lean ====
section
/-! DEFINITION. What a write to a register does, by access code (R9, R10) and by the rules of single fields. -/

namespace Sys2Proof.Machine

/-- Whether a bring-up step has been accepted in this start, or the panel is past bring-up (R443). -/
def State.reached (s : State) (code : Nat) : Bool :=
  if s.isIn .bringup then code < s.seq.next || (code == s.seq.next && s.flag Reg.SEQ_STATUS_running)
  else s.isIn .ready || s.isIn .running || s.isIn .recovering

/-- A field after a write of `v` to the bits of mask `m`. -/
def FieldSpec.after (f : FieldSpec) (locked : Bool) (old v m : Nat) : Nat :=
  let o := bits old f.lo f.w
  let fv := bits v f.lo f.w
  let fm := bits m f.lo f.w
  let put := (o &&& (2 ^ f.w - 1 - fm)) ||| (fv &&& fm)
  match f.acc with
  | .ro => o
  | .wo => o
  | .rw => put
  | .rws => put
  | .rwl => if locked then o else put
  | .w1c => o &&& (2 ^ f.w - 1 - (fv &&& fm))
  | .w1s => o ||| (fv &&& fm)

/-- A register word after a write; reserved bits stay as they are (R9). -/
def RegRow.after (r : RegRow) (locked : Bool) (old v m : Nat) : Nat :=
  r.fields.foldl (fun w f => setBits w f.lo f.w (f.after locked old v m)) old

/-- Whether RWL fields are locked (R10); `rate` of `DRAM_CFG` from the acceptance of DRAM_TRAIN (R254). -/
def State.locked (s : State) (off : Nat) : Bool :=
  s.isIn .ready || s.isIn .running || s.isIn .recovering || (off == 0x100000 && s.reached 5)

/-- Whether a write touches an RWL field. -/
def RegRow.touchesLocked (r : RegRow) (m : Nat) : Bool := r.fields.any fun f => f.acc == .rwl && bits m f.lo f.w != 0

/-- Place of `overrun` in the registers whose `valid` clears it too: within a window, or in BAR0. -/
def overrunBit (off : Nat) : Option Nat :=
  let o := off % 0x10000
  if 0x2000000 ≤ off then
    if 0x8000 ≤ o ∧ o < 0x8800 ∧ o % 0x40 = 8 then some 15
    else if 0x8800 ≤ o ∧ o < 0x8C00 ∧ o % 0x40 = 8 then some 3
    else if 0x8C00 ≤ o ∧ o < 0x8E00 ∧ o % 0x40 = 8 then some 1
    else if o = 0x9018 then some 3
    else if 0xA000 ≤ o ∧ o < 0xD800 ∧ o % 0x20 = 8 then some 2
    else none
  else if 0x100100 ≤ off ∧ off < 0x100400 ∧ off % 0x20 = 8 then some 2
  else none

/-- What single fields store in place of a written value (R143, R251, R254, R319, R411). `v`: the value written. -/
def State.adjust (s : State) (off w v : Nat) : Nat :=
  let o := off % 0x10000
  if off = 0x40 then (if 2 ^ 41 ≤ v then 0 else w / s.host.bar4 * s.host.bar4)
  else if off = 0x400 then setBits w 0 16 (min 13500 (max 4000 (bits w 0 16)))
  else if off = 0x418 then
    let src := if bits w 0 2 = 3 then 0 else bits w 0 2
    let w := setBits w 0 2 src
    if src = bits (s.reg off) 0 2 then w else setBits (setBits w 8 8 (if src = 2 then 0 else 0xFF)) 5 1 0
  else if 0x20100 ≤ off ∧ off < 0x20200 ∧ off % 16 = 0 then setBits w 10 9 (max 1 (bits w 10 9))
  else if off = 0x100000 then setBits w 0 3 (min 5 (bits w 0 3))
  else if 0x2000000 ≤ off ∧ o = 0x6008 then setBits w 0 4 (min 12 (bits w 0 4))
  else if 0x2000000 ≤ off ∧ o = 0x9010 then setBits w 1 12 (min 3600 (max 1 (bits w 1 12)))
  else w

/-- The staged budget table (R251). -/
def State.stagedTable (s : State) : List (Nat × Bool × Nat) :=
  (List.range 16).map fun i =>
    (s.get (Reg.ARB_CLASS_share i), s.flag (Reg.ARB_CLASS_borrow i), s.get (Reg.ARB_CLASS_cap i))

/-- `apply` has been written 1 (R251): refused where the staged shares exceed 256, else every resource is to change to the table
staged now. A refusal leaves an apply that is `pending` to go on to its end (log 125). -/
def State.arbApply (s : State) (pending : Bool) : State :=
  if 256 < ((List.range 16).map fun i => s.get (Reg.ARB_CLASS_share i)).sum then
    s.sets [(Reg.ARB_CTRL_apply, b2n pending), (Reg.ARB_CTRL_bad_sum, 1)]
  else s.modHub fun h =>
    { h with applying := s.stagedTable, res := SMap.mapVal (fun _ (r : ResSt) => { r with changed := false }) h.res }

/-- A write to a register: the fields by their codes, what single fields store, and what the write sets going. -/
def State.regWrite (s : State) (r : RegRow) (off v m : Nat) : State :=
  let old := s.reg off
  let locked := s.locked off
  let w := s.adjust off (r.after locked old v m) v
  let w := match overrunBit off with
    | some k => if bitAt v 0 && bitAt m 0 then setBits w k 1 0 else w
    | none => w
  let s := s.setReg off w
  let s := if locked && r.touchesLocked m then s.inc Reg.SEQ_STATUS_locked_write_count else s
  if off = 0x10008 then (if v &&& m &&& s.get Reg.EVENT_STATUS_events = 0 then s else s.emit (.msix 0))
  else if off = 0x20000 ∧ bitAt v 0 ∧ bitAt m 0 then s.arbApply (bitAt old 0)
  else s

end Sys2Proof.Machine
end

