-- ==== Sys2Proof/Machine/Crc.lean ====
section
/-! DEFINITION. Check codes and generators: the CRCs of R148, R166 and R274, SHAKE256 (R209, R418) and
Philox4x32 with 10 rounds (R50, R117). -/

namespace Sys2Proof.Machine

/-- One step of a CRC that takes the most significant bit first. -/
def crcMsbBit (w poly : Nat) (c : Nat) (b : Bool) : Nat :=
  let top := bitAt c (w - 1) != b
  let s := (c <<< 1) % 2 ^ w
  if top then s ^^^ poly else s

/-- One byte of a CRC that takes the most significant bit first. -/
def crcMsbByte (w poly : Nat) (c : Nat) (x : Byte) : Nat :=
  [7, 6, 5, 4, 3, 2, 1, 0].foldl (fun c i => crcMsbBit w poly c (bitAt x.toNat i)) c

/-- One byte of a reflected CRC (least significant bit first, reversed polynomial). -/
def crcLsbByte (rpoly : Nat) (c : Nat) (x : Byte) : Nat :=
  (List.range 8).foldl (fun c _ => if bitAt c 0 then (c >>> 1) ^^^ rpoly else c >>> 1) (c ^^^ x.toNat)

/-- CRC-16 of a seam flit (Table 6.3): polynomial 0x1021, initial value 0xFFFF. -/
def crc16 (xs : List Byte) : Nat := xs.foldl (crcMsbByte 16 0x1021) 0xFFFF

/-- CRC-8 of the control bits of a seam flit time (Table 6.3): polynomial 0x07, initial value 0xFF. -/
def crc8 (xs : List Byte) : Nat := xs.foldl (crcMsbByte 8 0x07) 0xFF

/-- CRC-32 of a transport packet (Table 6.8): polynomial 0x04C1_1DB7, reflected, initial value and final XOR
all ones. -/
def crc32 (xs : List Byte) : Nat := xs.foldl (crcLsbByte 0xEDB88320) 0xFFFFFFFF ^^^ 0xFFFFFFFF

/-- One byte of the CRC-64 of R274 (reflected form of polynomial 0x42F0_E1EB_A9EA_3693). -/
def crc64Byte (c : Nat) (x : Byte) : Nat := crcLsbByte 0xC96C5795D7870F42 c x

/-- CRC-64 of R274 continued over bytes, before its final XOR. -/
def crc64Run (c : Nat) (xs : List Byte) : Nat := xs.foldl crc64Byte c

/-- CRC-64 of R274: initial value and final XOR all ones. -/
def crc64 (xs : List Byte) : Nat := crc64Run (2 ^ 64 - 1) xs ^^^ (2 ^ 64 - 1)

/-! ### SHAKE256 -/

/-- Rotate a 64-bit lane left. -/
def rotl64 (x : Word64) (n : Nat) : Word64 := x.rotateLeft n

/-- One step of the 8-bit shift register that makes the round constants of Keccak-f[1600] (x^8 + x^6 + x^5 + x^4 + 1). -/
def rcShift (r : Nat) : Nat := if r < 0x80 then 2 * r else (2 * r) ^^^ 0x171

/-- A round constant from the register as it stands, with the register after it: the low bit of each of seven states in turn, at bit
2^j - 1. -/
def rcWord (r : Nat) : Nat × Nat :=
  (List.range 7).foldl (fun p j => (p.1 + p.2 % 2 * 2 ^ (2 ^ j - 1), rcShift p.2)) (0, r)

/-- The round constants of a number of rounds. -/
def rcWords : Nat → Nat → List Nat
  | 0, _ => []
  | n + 1, r => (rcWord r).1 :: rcWords n (rcWord r).2

/-- The round constants of Keccak-f[1600]. -/
def keccakRC : List Nat := rcWords 24 1

/-- Lane x + 5 y that the walk of the rotation offsets visits after another: (x, y) goes to (y, 2 x + 3 y). -/
def rhoNext (i : Nat) : Nat := i / 5 + 5 * ((2 * (i % 5) + 3 * (i / 5)) % 5)

/-- The rotations of the 25 lanes: the walk from lane (1, 0) gives its n-th lane the n-th triangular number. -/
def keccakRho : List Nat :=
  ((List.range 24).foldl (fun (p : List Nat × Nat) n => (setNth p.1 p.2 ((n + 1) * (n + 2) / 2 % 64), rhoNext p.2))
    (List.replicate 25 0, 1)).1

/-- One round of Keccak-f[1600] on 25 lanes (lane x + 5 y). -/
def keccakRound (a : List Word64) (rc : Nat) : List Word64 :=
  let c := (List.range 5).map fun x =>
    nth a x 0 ^^^ nth a (x + 5) 0 ^^^ nth a (x + 10) 0 ^^^ nth a (x + 15) 0 ^^^ nth a (x + 20) 0
  let d := (List.range 5).map fun x => nth c ((x + 4) % 5) 0 ^^^ rotl64 (nth c ((x + 1) % 5) 0) 1
  let t := (List.range 25).map fun i => rotl64 (nth a i 0 ^^^ nth d (i % 5) 0) (nth keccakRho i 0)
  -- lane (x, y) of the permuted state comes from lane ((x + 3 y) mod 5, x)
  let b := (List.range 25).map fun i => nth t ((i % 5 + 3 * (i / 5)) % 5 + 5 * (i % 5)) 0
  let e := (List.range 25).map fun i =>
    let y := 5 * (i / 5)
    nth b i 0 ^^^ (~~~ nth b ((i + 1) % 5 + y) 0 &&& nth b ((i + 2) % 5 + y) 0)
  match e with
  | l :: ls => (l ^^^ BitVec.ofNat 64 rc) :: ls
  | [] => []

/-- Keccak-f[1600]. -/
def keccakF (a : List Word64) : List Word64 := keccakRC.foldl keccakRound a

/-- Absorb one 136-byte block. -/
def keccakAbsorb (a : List Word64) (blk : List Byte) : List Word64 :=
  keccakF (foldIdx (fun i acc l => acc ++ [l ^^^ BitVec.ofNat 64 (ofLE ((blk.drop (8 * i)).take 8))]) 0 [] a)

/-- The padded message of SHAKE256 (suffix 1111, then 10*1; rate 136 bytes). -/
def shakePad (xs : List Byte) : List Byte :=
  let k := 136 - xs.length % 136
  if k = 1 then xs ++ [0x9F] else xs ++ [0x1F] ++ List.replicate (k - 2) 0 ++ [0x80]

/-- SHAKE256 with an output of `n` bytes, at most 136. -/
def shake256 (n : Nat) (xs : List Byte) : List Byte :=
  let p := shakePad xs
  let a := (chunks 136 p.length p).foldl keccakAbsorb (List.replicate 25 0)
  (wordBytes (a.take 17)).take n

/-! ### Philox4x32-10 -/

/-- One round of Philox4x32: counter words and key words. -/
def philoxRound (c : Nat × Nat × Nat × Nat) (k : Nat × Nat) : Nat × Nat × Nat × Nat :=
  let p0 := 0xD2511F53 * c.1
  let p1 := 0xCD9E8D57 * c.2.2.1
  ((p1 >>> 32) ^^^ c.2.1 ^^^ k.1, p1 % 2 ^ 32, (p0 >>> 32) ^^^ c.2.2.2 ^^^ k.2, p0 % 2 ^ 32)

/-- Philox4x32 with 10 rounds: the four output words for a 128-bit counter and a 64-bit key. -/
def philox (ctr key : Nat) : List Nat :=
  let start := (bits ctr 0 32, bits ctr 32 32, bits ctr 64 32, bits ctr 96 32)
  let out := (List.range 10).foldl
    (fun c i => philoxRound c ((bits key 0 32 + i * 0x9E3779B9) % 2 ^ 32, (bits key 32 32 + i * 0xBB67AE85) % 2 ^ 32))
    start
  [out.1, out.2.1, out.2.2.1, out.2.2.2]

end Sys2Proof.Machine
end

