-- ==== Sys2Proof/Machine/Operands.lean ====
section
/-! DEFINITION. The operand forms: fields of scene images (Table 8.1, 8.2), endpoint records (Table 7.3), grant
records (Table 5.5, 5.6), descriptors (Table 3.3), instructions (Table 4.2, 4.7) and packet headers (Table 6.8). -/

namespace Sys2Proof

open Machine

/-- Word i of a scene image's first 0x800 bytes. -/
def SceneImage.word (im : SceneImage) (i : Nat) : Nat := (nth im.head i 0).toNat

/-- Bytes of an entry of the engine section (Table 8.1). -/
def engineEntry (e : Engine) : Nat := match e with | .m => 128 | .v => 8 | .s => 4

/-- Bytes padded with zeros, or cut, to a length. -/
def padTo (n : Nat) (bs : List Byte) : List Byte := bs.take n ++ List.replicate (n - bs.length) 0

/-- Scene index of an image (Table 8.2). -/
def SceneImage.sceneNo (im : SceneImage) : Nat := bits (im.word 0) 4 3
/-- Engine code of an image (Table 8.2). -/
def SceneImage.engine (im : SceneImage) : Nat := bits (im.word 0) 7 2
/-- Generator seed of an image (R50). -/
def SceneImage.seed (im : SceneImage) : Nat := im.word 1
/-- Endpoint of the end cue (Table 8.2). -/
def SceneImage.endEp (im : SceneImage) : Nat := bits (im.word 2) 0 5
/-- Whether the end cue is in use (Table 8.2). -/
def SceneImage.endValid (im : SceneImage) : Bool := bitAt (im.word 2) 5
/-- Logical address of the cell the image configures (Table 8.2). -/
def SceneImage.logical (im : SceneImage) : Nat := bits (im.word 3) 0 16

/-- Record of endpoint n, as a 256-bit number (Table 7.3). -/
def SceneImage.epRec (im : SceneImage) (n : Nat) : Nat :=
  let w := fun k => im.word (8 + 4 * n + k)
  w 0 + w 1 <<< 64 + w 2 <<< 128 + w 3 <<< 192

/-- Words of static grant n (Table 8.1). -/
def SceneImage.grantRec (im : SceneImage) (n : Nat) : Nat × Nat := (im.word (0x88 + 2 * n), im.word (0x89 + 2 * n))

/-- Words of dynamic window n (Table 8.1). -/
def SceneImage.winRec (im : SceneImage) (n : Nat) : Nat × Nat := (im.word (0xC8 + 2 * n), im.word (0xC9 + 2 * n))

/-- Owner code of bank k (Table 5.2, Table 8.1). -/
def SceneImage.owner (im : SceneImage) (k : Nat) : Nat := bits (im.word 0xD8) (2 * k) 2

/-- Object binding i, 0-14 (Table 8.1). -/
def SceneImage.binding (im : SceneImage) (i : Nat) : Nat :=
  bits (im.word (0xD8 + (i + 1) / 2)) (32 * ((i + 1) % 2)) 32

/-- Whether a barrier (flag false) or flag word (flag true) is bound in the scene (R192, Table 8.1). -/
def SceneImage.bound (im : SceneImage) (flag : Bool) (obj : Nat) : Bool :=
  (List.range 15).any fun i =>
    let b := im.binding i
    bitAt b 13 && bits b 0 12 == obj && bitAt b 12 == flag

end Sys2Proof

namespace Sys2Proof.Machine

/-! ### Endpoint records (Table 7.3) -/

/-- Kinds: 0 unused, 1 plain, 2 chorus, 3 cue. -/
def epKind (r : Nat) : Nat := bits r 0 2
/-- Whether the endpoint sends. -/
def epSends (r : Nat) : Bool := bitAt r 2
/-- Whether the endpoint's transport is packets. -/
def epPacket (r : Nat) : Bool := bitAt r 3
/-- Storage bank. -/
def epBank (r : Nat) : Nat := bits r 4 3
/-- Even member of a predicated pair. -/
def epPair (r : Nat) : Bool := bitAt r 7
/-- Storage offset. -/
def epOffset (r : Nat) : Nat := bits r 8 20
/-- log2 of the storage bytes. -/
def epDepthLog (r : Nat) : Nat := bits r 28 5
/-- Longest message in granules. -/
def epMaxGran (r : Nat) : Nat := bits r 33 8
/-- Joined at run time. -/
def epOpen (r : Nat) : Bool := bitAt r 41
/-- Index into the channel table. -/
def epChan (r : Nat) : Nat := bits r 48 16
/-- The endpoint carries a gate. -/
def epGate (r : Nat) : Bool := bitAt r 64
/-- The gate is a merge. -/
def epMerge (r : Nat) : Bool := bitAt r 65
/-- Gate ports minus one. -/
def epGateN (r : Nat) : Nat := bits r 66 2
/-- Gate port i. -/
def epGatePort (r i : Nat) : Nat := bits r (68 + 5 * i) 5
/-- Cue endpoint that steers the gate. -/
def epGateCue (r : Nat) : Nat := bits r 88 5
/-- Wings of n * 4 KiB (plain receiving endpoints). -/
def epWings (r : Nat) : Nat := if epKind r = 1 ∧ !epSends r then bits r 96 8 else 0
/-- Chorus format: 0 FP32, 1 BF16 into FP32, 2 INT32. -/
def epChFmt (r : Nat) : Nat := bits r 96 2
/-- log2 of the slot bytes. -/
def epSlotLog (r : Nat) : Nat := bits r 98 4
/-- Contributions per release; 0 releases on a barrier. -/
def epCount (r : Nat) : Nat := bits r 102 8
/-- Barrier of a barrier release. -/
def epRelBarrier (r : Nat) : Nat := bits r 110 12
/-- Drain order. -/
def epItemMode (r : Nat) : Bool := bitAt r 122
/-- Rows per block of the drain order. -/
def epImRows (r : Nat) : Nat := bits r 128 10
/-- Blocks along M of the drain order. -/
def epImM (r : Nat) : Nat := bits r 138 16
/-- Blocks along N of the drain order. -/
def epImN (r : Nat) : Nat := bits r 154 16
/-- N loop outer. -/
def epImOrder (r : Nat) : Bool := bitAt r 170
/-- Storage in granules of 32 B, or in 8 B entries for a cue endpoint (R182, R183). -/
def epStorage (r : Nat) : Nat := 2 ^ epDepthLog r / (if epKind r = 3 then 8 else 32)
/-- Wings in granules. -/
def epWingGran (r : Nat) : Nat := epWings r * 128
/-- Slots of a chorus endpoint (R187). -/
def epSlots (r : Nat) : Nat := 2 ^ (epDepthLog r - epSlotLog r)
/-- Contribution length of a chorus endpoint in granules (R187). -/
def epContrib (r : Nat) : Nat := 2 ^ epSlotLog r / (if epChFmt r = 1 then 64 else 32)

/-- Item of message number j under `item_mode` (R188). -/
def epItem (r j : Nat) : Nat :=
  if epItemMode r then
    let p := epImRows r * epImM r * epImN r
    let run := j / p
    let q := j % p
    let blk := q / epImRows r
    let row := q % epImRows r
    let m := if epImOrder r then blk % epImM r else blk / epImN r
    let n := if epImOrder r then blk / epImM r else blk % epImN r
    (run * p + (m * epImRows r + row) * epImN r + n) % 2 ^ 32
  else j % 2 ^ 32

/-! ### Dynamic windows (Table 8.1, Table 5.5) and grant requests (Table 5.6) -/

/-- Bank of a window record or static grant word 0. -/
def winBank (r : Nat) : Nat := bits r 1 3
/-- Offset of a window record or static grant word 0. -/
def winOffset (r : Nat) : Nat := bits r 4 20
/-- Length of a window record or static grant word 0. -/
def winLength (r : Nat) : Nat := bits r 24 21
/-- Writers allowed: 1 S-cells, 2 porters, 3 both. -/
def winWriters (r : Nat) : Nat := bits r 45 2
/-- Endpoint of the FILLED cue. -/
def winCueEp (r : Nat) : Nat := bits r 47 5
/-- FILLED windows return to FREE at the beat start. -/
def winAutoFree (r : Nat) : Bool := bitAt r 52

/-- Target of a grant request. -/
def grTarget (r : Nat) : Nat := bits r 0 16
/-- Window of a grant request. -/
def grWindow (r : Nat) : Nat := bits r 16 3
/-- Type of a grant request. -/
def grType (r : Nat) : Nat := bits r 24 2
/-- Count of a grant request. -/
def grCount (r : Nat) : Nat := bits r 32 32
/-- Whether a grant request's reserved fields are zero and its type is defined. -/
def grClean (r : Nat) : Bool := bits r 19 5 == 0 && bits r 26 6 == 0 && grType r != 3

/-! ### Fold schedule entries (Table 8.5a) -/

/-- Scene of a schedule entry. -/
def seScene (e : Nat) : Nat := bits e 0 3
/-- Entry in use. -/
def seValid (e : Nat) : Bool := bitAt e 3
/-- The first beat waits for the next act. -/
def seActGate (e : Nat) : Bool := bitAt e 4
/-- The entry that follows. -/
def seNext (e : Nat) : Nat := bits e 8 4
/-- Beats to run; 0 runs until the end cue. -/
def seBeats (e : Nat) : Nat := bits e 16 32

/-! ### Operator descriptors (Table 3.3): 1,024-bit numbers -/

/-- A field of a descriptor: word, low bit, width. -/
def dsc (d w lo n : Nat) : Nat := bits d (64 * w + lo) n

/-! ### V-cell instructions (Table 4.2) -/

/-- Opcode. -/
def vOp (i : Nat) : Nat := bits i 0 8
/-- Destination register. -/
def vVd (i : Nat) : Nat := bits i 8 5
/-- First source. -/
def vVa (i : Nat) : Nat := bits i 13 5
/-- Second source. -/
def vVb (i : Nat) : Nat := bits i 18 5
/-- Third source. -/
def vVc (i : Nat) : Nat := bits i 23 5
/-- Mask register. -/
def vMask (i : Nat) : Nat := bits i 28 3
/-- Stochastic rounding. -/
def vRound (i : Nat) : Bool := bitAt i 31
/-- Element format. -/
def vFmt (i : Nat) : Nat := bits i 32 5
/-- Saturating conversion. -/
def vSat (i : Nat) : Bool := bitAt i 37
/-- Flush subnormal FP8 inputs. -/
def vFtz (i : Nat) : Bool := bitAt i 38
/-- Immediate. -/
def vImm (i : Nat) : Nat := bits i 40 24

/-! ### S-cell instructions (Table 4.7) -/

/-- Opcode. -/
def sOp (i : Nat) : Nat := bits i 0 6
/-- Guard predicate. -/
def sGuardP (i : Nat) : Nat := bits i 6 3
/-- Guard negation. -/
def sGuardN (i : Nat) : Bool := bitAt i 9
/-- Destination. -/
def sGd (i : Nat) : Nat := bits i 10 5
/-- First source (formats A, I). -/
def sGa (i : Nat) : Nat := bits i 15 5
/-- Second source (format A). -/
def sGb (i : Nat) : Nat := bits i 20 5
/-- Function (format A) and 7-bit immediate (format C). -/
def sFunc (i : Nat) : Nat := bits i 25 7
/-- Signed 12-bit immediate (format I). -/
def sImm (i : Nat) : Int := toSigned 12 (bits i 20 5 + bits i 25 7 <<< 5)
/-- 16-bit immediate (format W). -/
def sImm16 (i : Nat) : Nat := bits i 16 16
/-- Signed branch offset (format B). -/
def sOff (i : Nat) : Int := toSigned 22 (bits i 10 22)
/-- Endpoint (format C). -/
def sEp (i : Nat) : Nat := bits i 15 5
/-- Address register (format C). -/
def sCa (i : Nat) : Nat := bits i 20 5

/-! ### Packets (Table 6.8) -/

/-- Word i of a header. -/
def Packet.w (p : Packet) (i : Nat) : Nat := (nth p.hdr i 0).toNat
/-- Type: 1 WRITE, 2 READ, 3 READ_DATA, 4 MESSAGE, 5 ACK, 6 NAK, 7 CREDIT. -/
def Packet.ty (p : Packet) : Nat := bits (p.w 0) 0 8
/-- Multicast. -/
def Packet.mcast (p : Packet) : Bool := bitAt (p.w 0) 9
/-- Payload granules. -/
def Packet.len (p : Packet) : Nat := bits (p.w 0) 16 8
/-- Arbiter class. -/
def Packet.cls (p : Packet) : Nat := bits (p.w 0) 24 4
/-- Sender's epoch. -/
def Packet.epoch (p : Packet) : Nat := bits (p.w 0) 28 4
/-- Sending endpoint. -/
def Packet.src (p : Packet) : Nat := bits (p.w 0) 32 16
/-- Receiving endpoint. -/
def Packet.dst (p : Packet) : Nat := bits (p.w 0) 48 16
/-- Device address. -/
def Packet.addr (p : Packet) : Nat := p.w 1
/-- Transport sequence number. -/
def Packet.seq (p : Packet) : Nat := bits (p.w 2) 0 16
/-- Cumulative acknowledgement. -/
def Packet.ack (p : Packet) : Nat := bits (p.w 2) 16 16
/-- `ack` is valid. -/
def Packet.ackValid (p : Packet) : Bool := bitAt (p.w 2) 32
/-- Multicast group. -/
def Packet.group (p : Packet) : Nat := bits (p.w 2) 40 12
/-- Channel handle or request tag. -/
def Packet.tag (p : Packet) : Nat := bits (p.w 3) 0 32
/-- Credit returned. -/
def Packet.credit (p : Packet) : Nat := bits (p.w 3) 32 16
/-- Poison bits. -/
def Packet.pmask (p : Packet) : Nat := p.w 4 + p.w 5 <<< 64

end Sys2Proof.Machine
end

