-- ==== Sys2Proof/Machine/Scratch.lean ====
section
/-! DEFINITION. Scratchpads: reads and writes of 32 B words with the outcomes of the code (R122-R131). -/

namespace Sys2Proof.Machine

/-- The word (device address / 32) at offset `o` of a cell's scratchpad. -/
def spWord (c o : Nat) : Nat := spAddr c o / 32

/-! ### The code (R128, R129) -/

/-- Whether a 16-bit number has an odd number of ones. -/
def oddWeight (x : Nat) : Bool := ((List.range 16).filter (bitAt x)).length % 2 == 1

/-- Column of stored bit n of the check matrix: of odd weight (R128), otherwise not stated. -/
def eccColumn (n : Nat) : Nat :=
  let c := (Config.eccColumn n).toNat
  if oddWeight c then c else c ^^^ 1

/-- What Table 5.4 makes of an error at a word: a single-bit error has its bit's column as syndrome; any other syndrome that is neither
zero, nor 0xFFFF, nor a column, is uncorrectable, every other even one among them. None: no read shows this. -/
def EccEvent.judged (e : EccEvent) : Option EccEvent :=
  match e.bit with
  | some n => if n < 272 then some { e with syndrome := eccColumn n } else none
  | none =>
    if e.syndrome = 0 ∨ 0xFFFF ≤ e.syndrome then none
    else if oddWeight e.syndrome && (List.range 272).any (fun n => eccColumn n == e.syndrome) then none
    else some e

/-- The error met at a word (device address / 32), if a read of it meets one. -/
def eccAt (ecc : List EccEvent) (w : Nat) : Option EccEvent := (ecc.find? fun e => e.word == w).bind EccEvent.judged

/-- Whether the cells are being struck (R144): what arrives at one is discarded and not counted. -/
def State.striking (s : State) : Bool := match s.host.strike with | some k => s.now < k.endAt | none => false

/-- Record a read in `SP_ECC_LAST` (R131). -/
def State.eccLast (s : State) (c o master : Nat) (e : EccEvent) : State :=
  let k := o / 0x100000
  let v := s.flag (Reg.SP_ECC_LAST_valid c k)
  s.sets [(Reg.SP_ECC_LAST_overrun c k, b2n v), (Reg.SP_ECC_LAST_valid c k, 1),
    (Reg.SP_ECC_LAST_uncorrectable c k, b2n e.bit.isNone), (Reg.SP_ECC_LAST_row c k, bits o 7 13),
    (Reg.SP_ECC_LAST_col c k, bits o 5 2), (Reg.SP_ECC_LAST_bit c k, e.bit.getD 0x1FF),
    (Reg.SP_ECC_LAST_syndrome c k, e.syndrome), (Reg.SP_ECC_LAST_master c k, master)]

/-- An uncorrectable word: counted, recorded, a cairn record of kind 0x04, and a fence condition (Table 5.4). -/
def State.uncorrectable (s : State) (c o master : Nat) (e : EccEvent) : State :=
  let k := o / 0x100000
  let s := (s.inc (Reg.SP_ECC_COUNTS_ue_count c k)).eccLast c o master e
  let s := s.stageCairn { Cairn.blank 0x04 1 k c (s.logicalOf c) (o % 0x100000) with
    regs := s.regWords [(Reg.SP_ECC_LAST_valid c k).off] }
  s.fenceCell c 0x04

/-- A corrected word: counted, recorded, and owed a write-back (R129). -/
def State.correctedRead (s : State) (c o master : Nat) (e : EccEvent) : State :=
  let k := o / 0x100000
  let s := (s.inc (Reg.SP_ECC_COUNTS_corrected_count c k)).eccLast c o master e
  { s with mem := { s.mem with writeBack := NSet.add s.mem.writeBack (spWord c o) } }

/-- Read the 32 B word at offset `o` (a multiple of 32), with the outcome of its syndrome (Table 5.4). A single-bit
error beside stored poison is read as the poison (log 119). -/
def State.readWord (s : State) (c o master : Nat) (ecc : List EccEvent) : Gran × State :=
  let w := spWord c o
  let data := s.bytes (w * 32) 32
  let poisoned := s.mem.spPoison.contains w
  let stored := (⟨data, poisoned⟩, if poisoned then s.inc (Reg.SP_ECC_COUNTS_poison_read_count c (o / 0x100000)) else s)
  match eccAt ecc w with
  | some e =>
    if e.bit.isNone then (⟨data, true⟩, s.uncorrectable c o master e)
    else if poisoned then stored
    else (⟨data, false⟩, s.correctedRead c o master e)
  | none => stored

/-- Read `n` consecutive words. -/
def State.readWords (s : State) (c o master : Nat) (ecc : List EccEvent) : Nat → List Gran × State
  | 0 => ([], s)
  | n + 1 =>
    let r := s.readWord c o master ecc
    let q := State.readWords r.2 c (o + 32) master ecc n
    (r.1 :: q.1, q.2)

/-- Remember the strip of the last-written word of a bank (R299). -/
def State.touch (s : State) (c o : Nat) : State :=
  { s with mem := { s.mem with lastStrip := SMap.put s.mem.lastStrip (bankKey c (o / 0x100000)) (o % 0x100000 / 4096) } }

/-- Store a whole word: its data and its poison mark (R129); a pending write-back of it is dropped. -/
def State.writeWord (s : State) (c o : Nat) (g : Gran) : State :=
  let w := spWord c o
  let s := (s.writeBytes (w * 32) (g.data.take 32)).touch c o
  { s with mem := { s.mem with
      spPoison := if g.poison then NSet.add s.mem.spPoison w else NSet.del s.mem.spPoison w
      writeBack := NSet.del s.mem.writeBack w } }

/-- Store consecutive whole words. -/
def State.writeWords (s : State) (c o : Nat) : List Gran → State
  | [] => s
  | g :: gs => State.writeWords (s.writeWord c o g) c (o + 32) gs

/-- Store part of a word (R127, R130): a read-modify-write; a poisoned or uncorrectable word is stored back
whole as poison and the new bytes are lost. -/
def State.writePart (s : State) (c o : Nat) (bs : List Byte) (poison : Bool) (ecc : List EccEvent) : State :=
  let base := o / 32 * 32
  let r := s.readWord c base 0 ecc
  if r.1.poison || poison then r.2.writeWord c base ⟨r.1.data, true⟩
  else r.2.writeWord c base ⟨r.1.data.take (o % 32) ++ bs ++ r.1.data.drop (o % 32 + bs.length), false⟩

/-- CORRECTED_WRITE_BACK (R129): the bank writes the corrected word back; a write that landed first has dropped it. -/
def execCorrectedWriteBack (addr : Nat) (s : State) : Res :=
  .next { s with mem := { s.mem with writeBack := NSet.del s.mem.writeBack (addr / 32) } }

/-- Pad bytes with zeros to whole granules (R71, R72, R182). -/
def toGrans (poison : Nat → Bool) (bs : List Byte) : List Gran :=
  let cs := chunks 32 bs.length bs
  foldIdx (fun i a c => a ++ [⟨c ++ List.replicate (32 - c.length) 0, poison i⟩]) 0 [] cs

/-- Bytes of granules. -/
def gransBytes (gs : List Gran) : List Byte := gs.flatMap (·.data)

/-- The offset of an endpoint's storage in its cell's scratchpad. -/
def epBase (r : Nat) : Nat := epBank r * 0x100000 + epOffset r

end Sys2Proof.Machine
end

