-- ==== Sys2Proof/Machine/Net.lean ====
section
/-! DEFINITION. The mesh's plumbing: neighbours and hub ports (R18, R19, R145-R147), items and packets put on their
way (R166, R186), routing (R163-R165), and the base-camp transport's sender (R167, R168). -/

namespace Sys2Proof.Machine

/-- The opposite of a mesh port 0-3 (N, E, S, W). -/
def opp (d : Nat) : Nat := (d + 2) % 4

/-- The block a mesh port of a block faces (Table 6.1), none at an edge or at the hub hole. -/
def neighbour (b d : Nat) : Option Nat :=
  let (x, y) := blkXY b
  match d with
  | 0 => if y = 0 then none else blkAt x (y - 1)
  | 1 => blkAt (x + 1) y
  | 2 => blkAt x (y + 1)
  | 3 => if x = 0 then none else blkAt (x - 1) y
  | _ => none

/-- The hub port a mesh port of a block connects to (Table 1.2). -/
def hubPort (b d : Nat) : Option Nat :=
  let (x, y) := blkXY b
  if d = 2 ∧ y = 9 ∧ 20 ≤ x ∧ x ≤ 27 then some (x - 20)
  else if d = 3 ∧ x = 28 ∧ 10 ≤ y ∧ y ≤ 13 then some (8 + y - 10)
  else if d = 0 ∧ y = 14 ∧ 20 ≤ x ∧ x ≤ 27 then some (12 + 27 - x)
  else if d = 1 ∧ x = 19 ∧ 10 ≤ y ∧ y ≤ 13 then some (20 + 13 - y)
  else none

/-- Block coordinates and mesh port at the field end of a hub port (Table 1.2). -/
def hubPortAt (p : Nat) : Nat × Nat × Nat :=
  if p < 8 then (20 + p, 9, 2) else if p < 12 then (28, 2 + p, 3)
  else if p < 20 then (27 - (p - 12), 14, 0) else (19, 13 - (p - 20), 1)

/-- Block key at the field end of a hub port. -/
def hubPortBlk (p : Nat) : Nat := (blkAt (hubPortAt p).1 (hubPortAt p).2.1).getD 0

/-- Whether two blocks lie on one die. -/
def sameDie (a b : Nat) : Bool := a >>> 3 == b >>> 3

/-- Whether an output of a block is a seam or a hub port (Table 6.2). -/
def isSeam (b d : Nat) : Bool :=
  match neighbour b d with
  | some n => !sameDie b n
  | none => (hubPort b d).isSome

/-- Number of the seam link at a mesh port of a block within its die (R147). -/
def seamLink (b d : Nat) : Nat :=
  match d with
  | 0 => bkB b % 4
  | 1 => 4 + bkB b / 4
  | 2 => 6 + bkB b % 4
  | _ => 10 + bkB b / 4

/-- Key of the wires leaving the hub at a port. -/
def hubWire (p : Nat) : Nat := 0x10000 + p

/-- Key of the wires that arrive at mesh port d of a block; `d` of 4 and more: at the hub end of port d - 4. -/
def wireInto (b d : Nat) : Nat :=
  if 4 ≤ d then b * 4 + (d - 4)
  else match neighbour b d with
    | some n => n * 4 + opp d
    | none => match hubPort b d with
      | some p => hubWire p
      | none => 0xFFFFFF

/-- Whether a link carries traffic: on-die links always; a seam or hub port while its bridge is up (R151, R176). -/
def State.linkUp (s : State) (b d : Nat) : Bool :=
  !isSeam b d || s.get (Reg.SEAM_STATUS_state (bkG b) (seamLink b d)) == 2

/-- Whether a region's crossings are out of service: the region is in CUT or lost with its routers (R165, R408). -/
def State.regionCut (s : State) (g : Nat) : Bool :=
  s.get (Reg.REGION_THERMAL_tstate g) == 3 || (s.flag (Reg.REGION_THERMAL_lost g) && s.maps.unreached.contains g)

/-! ### Items on virtual channel 2 -/

/-- Items a cell has on the side lane at its local port, those that wait to inject among them. -/
def State.laneLoad (s : State) (c : Nat) : Nat :=
  (SMap.getD (s.xr (c / 32)).vc2 (4 + cOf c) []).length + (SMap.getD (s.xr (c / 32)).injItems (4 + cOf c) []).length

/-- Put an item on the side-lane buffer of an input port. -/
def State.pushItem (s : State) (b port : Nat) (it : Item) : State :=
  s.modXr b fun x => { x with vc2 := SMap.upd x.vc2 port [] (· ++ [it]) }

/-- A list kept under a key, or no entry when it is empty. -/
def putList {α : Type} (m : SMap (List α)) (k : Nat) (l : List α) : SMap (List α) := if l.isEmpty then SMap.del m k else SMap.put m k l

/-- A local port injects items while its side-lane buffer has room: 8 items (R174). -/
def XrSt.fillItems (x : XrSt) (port : Nat) : XrSt :=
  let q := SMap.getD x.vc2 port []
  let w := SMap.getD x.injItems port []
  if w.isEmpty then x
  else { x with vc2 := SMap.put x.vc2 port (q ++ w.take (8 - q.length)), injItems := putList x.injItems port (w.drop (8 - q.length)) }

/-- Send an item: a cell's from its local port, a hub unit's through the destination block's home port (R163, R186). -/
def State.sendItem (s : State) (it : Item) : State :=
  if it.src < 0xF000 then
    s.modXr (it.src / 32) fun x =>
      { x with injItems := SMap.upd x.injItems (4 + cOf it.src) [] (· ++ [{ it with epoch := s.epoch4 it.src }]) }.fillItems (4 + cOf it.src)
  else if it.dst < 0xF000 then
    s.modWire (hubWire (s.xr (it.dst / 32)).home) fun w => { w with items := w.items ++ [it] }
  else { s with mesh := { s.mesh with hubItems := s.mesh.hubItems ++ [it] } }

/-- The four words of an item (Table 7.4). -/
def Item.words (i : Item) : List Nat :=
  [i.ty % 16 + (i.epoch % 16) <<< 4 + (i.dst % 2 ^ 16) <<< 8 + (i.dstEp % 32) <<< 24 + (i.src % 2 ^ 16) <<< 32 +
     (i.srcEp % 32) <<< 48 + (i.tag % 256) <<< 56, i.w1 % 2 ^ 64, i.w2 % 2 ^ 64, 0]

/-- The item that four words spell (Table 7.4). -/
def Item.ofWords (ws : List Nat) : Item :=
  let w := nth ws 0 0
  ⟨bits w 0 4, bits w 4 4, bits w 8 16, bits w 24 5, bits w 32 16, bits w 48 5, bits w 56 8, nth ws 1 0, nth ws 2 0⟩

/-! ### Packets -/

/-- A packet with its check words (Table 6.8): `hcrc` over bytes 0-55, `pcrc` over the payload. -/
def Packet.seal (p : Packet) : Packet :=
  let h := (p.hdr.take 7)
  let pc := if p.payload.isEmpty then 0 else crc32 (gransBytes p.payload)
  { p with hdr := h ++ [BitVec.ofNat 64 (crc32 (wordBytes h) + pc <<< 32)] }

/-- A packet from its fields (Table 6.8), not yet numbered. -/
def mkPacket (ty cls epoch src dst addr tag : Nat) (payload : List Gran) : Packet :=
  let pm := foldIdx (fun i a (g : Gran) => a + (b2n g.poison) <<< i) 0 0 payload
  let w0 := ty + (b2n (pm != 0)) <<< 8 + payload.length <<< 16 + cls <<< 24 + epoch <<< 28 + src <<< 32 + dst <<< 48
  Packet.seal ⟨[BitVec.ofNat 64 w0, BitVec.ofNat 64 addr, 0, BitVec.ofNat 64 tag, BitVec.ofNat 64 pm,
    BitVec.ofNat 64 (pm >>> 64), 0, 0], payload, false⟩

/-- Replace bits of a header word. -/
def Packet.setW (p : Packet) (i lo w v : Nat) : Packet :=
  { p with hdr := setNth p.hdr i (BitVec.ofNat 64 (setBits (p.w i) lo w v)) }

/-- Granules a packet counts against transport credit, its header included (R167). -/
def Packet.cost (p : Packet) : Nat := 2 + p.payload.length

/-- The flits of a packet (R166): whole flits, the last padded with zeros. -/
def Packet.flits (p : Packet) : List Flit :=
  let bs := wordBytes p.hdr ++ gransBytes p.payload
  let cs := chunks 256 bs.length bs
  foldIdx (fun i a c => a ++ [⟨1, 0, i == 0, i + 1 == cs.length, false, p.epoch, 0, 0, 8,
    c ++ List.replicate (256 - c.length) 0, 0, 0, 0⟩]) 0 [] cs

/-- Payload granules that follow the header: a READ carries none, its `length` is what it asks for (log 28). -/
def Packet.carried (p : Packet) : Nat := if p.ty = 2 then 0 else p.len

/-- The packet that flits' bytes spell; the payload's poison bits come from `pmask`. A packet whose bytes end before
its payload does keeps what arrived. -/
def Packet.ofBytes (bs : List Byte) (linkErr : Bool) : Packet :=
  let hdr := (List.range 8).map fun i => BitVec.ofNat 64 (ofLE ((bs.drop (8 * i)).take 8))
  let p : Packet := ⟨hdr, [], linkErr⟩
  let pay := (bs.drop 64).take (32 * p.carried)
  { p with payload := toGrans (fun i => bitAt p.pmask i) pay }

/-- Whether a packet's header check passes (R168, R169). -/
def Packet.hOk (p : Packet) : Bool := bits (p.w 7) 0 32 == crc32 (wordBytes (p.hdr.take 7))

/-- Whether a packet's payload check passes (R168, R169). -/
def Packet.pOk (p : Packet) : Bool :=
  p.payload.length == p.carried &&
    bits (p.w 7) 32 32 == (if p.payload.isEmpty then 0 else crc32 (gransBytes p.payload))

/-- Add flits to a packet buffer; while a packet is being discarded its flits are dropped up to its tail, or to the head of the next one
where its tail was lost. A head ends what is left of a route whose tail was lost (R149, R163). -/
def PktBuf.push (q : PktBuf) (f : Flit) : PktBuf :=
  if q.discard && !f.head then { q with discard := !f.tail }
  else if q.flits.isEmpty && f.head then ⟨[f], 0, 0, false⟩
  else { q with flits := q.flits ++ [f], discard := false }

/-- The empty packet buffer. -/
def PktBuf.init : PktBuf := ⟨[], 0, 0, false⟩

/-- Put flits in the packet buffer of an input port. -/
def XrSt.pushFlits (x : XrSt) (port : Nat) (fs : List Flit) : XrSt :=
  { x with vc1 := SMap.upd x.vc1 port .init fun q => fs.foldl PktBuf.push q }

/-- A local port injects packet flits while its buffer has room: 16 flits (R174). -/
def XrSt.fillPkts (x : XrSt) (port : Nat) : XrSt :=
  let n := 16 - (SMap.getD x.vc1 port .init).flits.length
  let w := SMap.getD x.injPkts port []
  if w.isEmpty then x else { x.pushFlits port (w.take n) with injPkts := putList x.injPkts port (w.drop n) }

/-- Put flits in the packet buffer of an input port. -/
def State.pushFlits (s : State) (b port : Nat) (fs : List Flit) : State := s.modXr b fun x => x.pushFlits port fs

/-- A cell hands packet flits to its local port, which injects them by credit (R174). -/
def State.injectPkt (s : State) (b port : Nat) (fs : List Flit) : State :=
  s.modXr b fun x => { x with injPkts := SMap.upd x.injPkts port [] (· ++ fs) }.fillPkts port

/-- A stage of a local port takes circuit flits while it has room: two flits (R157). -/
def XrSt.fillStage (x : XrSt) (key : Nat) : XrSt :=
  let q := SMap.getD x.stages key ⟨[], 0⟩
  let w := SMap.getD x.injFlits key []
  if w.isEmpty then x
  else { x with stages := SMap.put x.stages key { q with flits := q.flits ++ w.take (2 - q.flits.length) }
                injFlits := putList x.injFlits key (w.drop (2 - q.flits.length)) }

/-- A cell hands circuit flits to the stage its queue binding names, which takes them by credit (R157). -/
def State.injectStage (s : State) (b key : Nat) (fs : List Flit) : State :=
  s.modXr b fun x => { x with injFlits := SMap.upd x.injFlits key [] (· ++ fs) }.fillStage key

/-- Put a packet on the wires out of a block (towards the hub or another block) or out of the hub towards a block. -/
def State.launch (s : State) (b : Nat) (toHub : Bool) (p : Packet) : State :=
  if toHub then s.injectPkt b (4 + (if p.src < 0xF000 then cOf p.src else 0)) p.flits
  else s.modWire (hubWire (s.xr b).home) fun w => { w with flits := w.flits ++ p.flits }

/-- Send packets of a transport direction while the credit allows: those to be sent again first, marked `resent`, then waiting ones
within the window of 64; a packet carries the acknowledgement and the credit that its end owes for the other direction (R167,
R168). -/
def State.pump (s : State) (b : Nat) (toHub : Bool) : Nat → State
  | 0 => s
  | n + 1 =>
    let t := s.tp b toHub
    match t.resend, t.waiting with
    | p :: rest, _ =>
      if p.cost ≤ t.credit then
        let s := s.modTp b toHub fun t => { t with resend := rest, credit := t.credit - p.cost }
        State.pump (s.launch b toHub (p.setW 0 10 1 1).seal) b toHub n
      else s
    | [], [] => s
    | [], p :: rest =>
      if t.unacked.length < 64 ∧ p.cost ≤ t.credit then
        let o := s.tp b (!toHub)
        let p := if o.accepted = 0 then p else (p.setW 2 16 16 o.expect).setW 2 32 1 1
        let p := (((p.setW 2 0 16 t.next).setW 2 33 5 (s.xr b).home).setW 3 32 16 o.owed).seal
        let s := s.modTp b (!toHub) fun t => { t with accepted := 0, owed := 0 }
        let s := s.modTp b toHub fun t =>
          { t with waiting := rest, unacked := t.unacked ++ [p], next := (t.next + 1) % 2 ^ 16, credit := t.credit - p.cost
                   progressAt := if t.unacked.isEmpty then s.now else t.progressAt }
        State.pump (s.launch b toHub p) b toHub n
      else s

/-- Send all that a transport direction can. -/
def State.pumpAll (s : State) (b : Nat) (toHub : Bool) : State :=
  s.pump b toHub ((s.tp b toHub).waiting.length + (s.tp b toHub).resend.length)

/-- Credit of a packet goes back to its sender with the next control packet (R167). -/
def State.owe (s : State) (b : Nat) (toHub : Bool) (k : Nat) : State :=
  if k = 0 then s
  else s.modTp b toHub fun t => { t with owed := t.owed + k, ackAt := if t.owed = 0 ∧ t.accepted = 0 then s.now else t.ackAt }

/-- Hand a packet to the base-camp transport of a block's direction. -/
def State.tpSend (s : State) (b : Nat) (toHub : Bool) (p : Packet) : State :=
  let s := s.modTp b toHub fun t => { t with waiting := t.waiting ++ [p] }
  s.pumpAll b toHub

/-- Send a packet from a cell: to a hub unit through the transport, to another block directly (R166). -/
def State.sendPacket (s : State) (c : Nat) (p : Packet) : State :=
  if 0xF000 ≤ p.dst then s.tpSend (c / 32) true p else s.injectPkt (c / 32) (4 + cOf c) p.flits

/-- Whether a flit is a control packet of the base-camp transport (ACK, NAK, CREDIT) on its way into the field: it is for the transport end
of its block, not for the cell its `dst` names, and neither a fence nor a stopped clock of that cell keeps it (log 123). -/
def Flit.control (f : Flit) : Bool :=
  f.vc == 1 && f.head && f.tail && decide (0xF000 ≤ ofLE ((f.data.drop 4).take 2)) &&
    (ofLE (f.data.take 1) == 5 || ofLE (f.data.take 1) == 6 || ofLE (f.data.take 1) == 7)

/-- A control packet (ACK 5, NAK 6, CREDIT 7) sent by the receiver of direction `toHub` back to its sender; a block has no endpoint of its
own, so one to a block names its cell C0 (log 123). -/
def State.tpControl (s : State) (b : Nat) (toHub : Bool) (ty ack credit : Nat) : State :=
  let (src, dst) := if toHub then (0xF050, b * 32) else (b * 32, 0xF050)
  let p := mkPacket ty 0 0 src dst 0 0 []
  let p := (((p.setW 2 16 16 ack).setW 2 32 1 (b2n (ty != 7))).setW 3 32 16 credit)
  s.launch b (!toHub) (p.setW 2 33 5 (s.xr b).home).seal

/-! ### Routing (R163-R165) -/

/-- Whether a detour entry matches a destination block (Table 6.7). -/
def detourHit (e : Nat) (x y : Nat) : Bool :=
  bitAt e 0 && bits e 1 6 ≤ x && x ≤ bits e 7 6 && bits e 13 5 ≤ y && y ≤ bits e 18 5

/-- The output a head flit takes at a crossing for a destination unit (R163); `hub` is the sender's home port. -/
def route (x : XrSt) (b dst hub : Nat) : Nat :=
  let here := blkXY b
  if dst < 0xF000 ∧ dst / 32 = b then 4 + cOf dst
  else
    let tgt := if dst < 0xF000 then blkXY (dst / 32) else blkXY (hubPortBlk hub)
    if 0xF000 ≤ dst ∧ hubPortBlk hub = b then (hubPortAt hub).2.2
    else match x.detours.find? (fun e => detourHit e.toNat tgt.1 tgt.2) with
      | some e => bits e.toNat 23 4
      | none =>
        if here.1 < tgt.1 then 1 else if tgt.1 < here.1 then 3
        else if here.2 < tgt.2 then 2 else 0

/-- Whether an output leads anywhere: its link is up and the crossing behind it is in service (R165). -/
def State.passable (s : State) (b d : Nat) : Bool :=
  if 4 ≤ d then d ≤ 10
  else s.linkUp b d &&
    match neighbour b d with
    | some n => !s.regionCut (bkG n)
    | none => (hubPort b d).isSome

end Sys2Proof.Machine
end

