-- ==== Sys2Proof/Machine/Channels.lean ====
section
/-! DEFINITION. Channels, queue endpoints, credits, cues, chorus queues and wings (spec/07, R177-R192, R197-R204). -/

namespace Sys2Proof.Machine

/-! ### Handles -/

/-- Handle of a channel index (Table 7.1). -/
def handleOf (i : Nat) (ch : ChanSt) : Nat := ch.ty <<< 28 + ch.gen <<< 16 + i

/-- Index of a handle. -/
def hIndex (h : Nat) : Nat := bits h 0 16
/-- Generation of a handle. -/
def hGen (h : Nat) : Nat := bits h 16 12
/-- Type of a handle. -/
def hType (h : Nat) : Nat := bits h 28 4

/-- The channel a handle names, if the handle is not stale (R179). -/
def State.chanOf (s : State) (h : Nat) : Option ChanSt :=
  let ch := s.chan (hIndex h)
  if ch.live ∧ !ch.draining ∧ ch.gen = hGen h ∧ ch.ty = hType h then some ch else none

/-- The next generation of an index (R179). -/
def nextGen (g : Nat) : Nat := if g = 0xFFF then 1 else g + 1

/-! ### Sending -/

/-- Record of the receiving endpoint of the channel that a sending endpoint feeds; 0 when the other end is no cell. -/
def State.peerRec (s : State) (c n : Nat) : Nat :=
  match (s.chan (hIndex (s.ep c n).handle)).recv with
  | some e => if e.unit < 0xF000 then (s.ep e.unit e.ep).cfg else 0
  | none => 0

/-! ### Waits (R200, R203) -/

/-- Clocks of a cell, counted at the frequency of its region's step (log 117). -/
def State.cellClk (s : State) (c : Nat) : Nat := s.clocks (gOf c) / 10

/-- A sender's stall cycles counted up to a clock (R203). -/
def EpSt.stallTo (clk : Nat) (e : EpSt) : EpSt := { e with stall := satAdd 48 e.stall (clk - e.stallAt.getD clk), stallAt := some clk }
/-- A receiver's starve cycles counted up to a clock (R203). -/
def EpSt.starveTo (clk : Nat) (e : EpSt) : EpSt := { e with starve := satAdd 48 e.starve (clk - e.starveAt.getD clk), starveAt := some clk }

/-- Stall cycles of an endpoint, a wait under way included (R203). -/
def State.stallCount (s : State) (c n : Nat) : Nat :=
  let e := s.ep c n
  if e.stallAt.isSome then (e.stallTo (s.cellClk c)).stall else e.stall

/-- Starve cycles of an endpoint, a wait under way included (R203). -/
def State.starveCount (s : State) (c n : Nat) : Nat :=
  let e := s.ep c n
  if e.starveAt.isSome then (e.starveTo (s.cellClk c)).starve else e.starve

/-- Stall cycles at the sending end of a channel, and starve cycles at its receiving end, wherever these lie (R203). -/
def State.chanWaits (s : State) (i : Nat) : Nat × Nat :=
  let ch := s.chan i
  (match ch.send with
    | some e => if e.unit < 0xF000 then s.stallCount e.unit e.ep else satAdd 48 ch.hub.stall (s.now - ch.hub.since.getD s.now)
    | none => 0,
   match ch.recv with
    | some e => if e.unit < 0xF000 then s.starveCount e.unit e.ep else ch.hub.starve
    | none => 0)

/-- Messages sent and received on a channel, as its ends count them (R203). -/
def State.chanMsgs (s : State) (i : Nat) : Nat × Nat :=
  let ch := s.chan i
  (match ch.send with
    | some e => if e.unit < 0xF000 then (s.ep e.unit e.ep).sent else ch.hub.sent
    | none => 0,
   match ch.recv with
    | some e => if e.unit < 0xF000 then (s.ep e.unit e.ep).got else ch.hub.got
    | none => 0)

/-- The sender waits: its stall cycles run (R200, R203). -/
def State.sendWait (s : State) (c n : Nat) : State :=
  s.modEp c n fun e => { e.stallTo (s.cellClk c) with waitSince := some (e.waitSince.getD s.now) }

/-- The sender has sent: its stall cycles are counted to the end. -/
def EpSt.sendDone (clk : Nat) (e : EpSt) : EpSt :=
  { (if e.stallAt.isSome then e.stallTo clk else e) with stallAt := none, waitSince := none }

/-- Something has come for the consumer: its starve cycles are counted to the end. -/
def State.fed (s : State) (c n : Nat) : State :=
  s.modEp c n fun e => { (if e.starveAt.isSome then e.starveTo (s.cellClk c) else e) with starveAt := none }

/-- Stall events that are active (Table 7.6). -/
def State.activeStalls (s : State) : Nat :=
  (s.cells.map fun p => b2n p.2.eng.barStall.isSome + (p.2.eps.filter fun e => e.2.stalled.isSome).length +
    (p.2.aux.filter fun e => e.2.timeout.isSome).length).sum

/-- The stall watch notes since when two stall events or more have been active without a break (R201). -/
def State.watch (s : State) : State :=
  { s with rcv := { s.rcv with twoSince := if 2 ≤ s.activeStalls then some (s.rcv.twoSince.getD s.now) else none } }

/-- Whether an endpoint is an end of a new channel that comes up only after the drain of the old one (R180). -/
def State.deferredAt (s : State) (c n : Nat) : Bool :=
  s.chans.any fun p => match p.2.next with | some (a, b, _) => a == ⟨c, n⟩ || b == ⟨c, n⟩ | none => false

/-- Flits of a message on a circuit; a pad record is one flit (R184). -/
def msgFlits (circ : Nat) (m : Msg) : List Flit :=
  if m.pad ≠ 0 then [⟨0, 0, true, true, false, m.epoch, circ, m.pad, 0, List.replicate 256 0, 0, 0, 0⟩]
  else
    let cs := chunks 8 m.grans.length m.grans
    foldIdx (fun i a (c : List Gran) => a ++ [⟨0, 0, i == 0, i + 1 == cs.length, false, m.epoch, circ, 0, c.length,
      gransBytes c ++ List.replicate (256 - 32 * c.length) 0,
      foldIdx (fun j p (g : Gran) => p + (b2n g.poison) <<< j) 0 0 c, 0, 0⟩]) 0 [] cs

/-- Put a message on its channel's transport (R177): circuit flits into the stage of the path's first hop (R157),
or a MESSAGE packet whose `tag` is the handle (R166); the pad size of a pad record travels in `addr` (log 21). -/
def State.transmit (s : State) (c : Nat) (h : Nat) (m : Msg) : State :=
  let ch := s.chan (hIndex h)
  match ch.circuit, s.pkg with
  | some k, some p =>
    match (nth p.circuits k ⟨[], 0, 0⟩).path with
    | hop :: _ =>
      s.injectStage hop.blk (hop.inPort * 16 + hop.stage) (msgFlits k m)
    | [] => s
  | _, _ =>
    match ch.recv with
    | some e => s.sendPacket c (mkPacket 4 1 m.epoch c e.unit m.pad h m.grans)
    | none => s

/-- Try to send one message of `grans` granules (R184): whether it went, and the state; a pad record goes first
when the message does not fit before the storage end. Without credit the sender waits, and while the endpoint's earlier channel is
being shut down (R180). -/
def State.epSend (s : State) (c n : Nat) (grans : List Gran) : Bool × State :=
  let e := s.ep c n
  let r := s.peerRec c n
  let len := if epWings r ≠ 0 then epMaxGran r else grans.length
  let size := epStorage r
  let room := size - e.tail
  let chorus := epKind e.cfg = 2
  let item := epItem e.cfg e.msgNo
  let d := (e.limit + 2 ^ 32 - item) % 2 ^ 32
  -- channels that end outside the cells have no storage to wrap in
  if (s.aux c n).draining then (false, s.sendWait c n)
  else
  let s := if r ≠ 0 ∧ !chorus ∧ epWings r = 0 ∧ room < len ∧ room ≤ e.credit then
      (s.modEp c n fun e => { e with credit := e.credit - room, tail := 0 }).transmit c e.handle
        ⟨e.handle, e.msgNo, s.epoch4 c, room, [], 0, true⟩
    else s
  let e := s.ep c n
  let fits := if chorus then 1 ≤ d ∧ d ≤ epSlots r
    else len ≤ e.credit ∧ (r = 0 ∨ epWings r ≠ 0 ∨ len ≤ size - e.tail)
  if fits then
    (true, (s.modEp c n fun e =>
      { e.sendDone (s.cellClk c) with
          credit := if chorus then e.credit else e.credit - len
          tail := if chorus ∨ size = 0 then e.tail else (e.tail + len) % size
          sent := satAdd 48 e.sent 1, msgNo := e.msgNo + 1 }).transmit c e.handle
        ⟨e.handle, e.msgNo, s.epoch4 c, 0, grans, 0, true⟩)
  else (false, s.sendWait c n)

/-- Try to send a cue (R186, R193): tagged with the count of cues sent. -/
def State.cueSend (s : State) (c n value : Nat) : Bool × State :=
  let e := s.ep c n
  match (s.chan (hIndex e.handle)).recv with
  | some r =>
    if 1 ≤ e.credit ∧ s.laneLoad c < 8 ∧ !(s.aux c n).draining then
      (true, (s.modEp c n fun e =>
        { e.sendDone (s.cellClk c) with credit := e.credit - 1, sent := satAdd 48 e.sent 1, msgNo := e.msgNo + 1 }).sendItem
        ⟨1, 0, r.unit, r.ep, c, n, e.msgNo % 256, value % 2 ^ 32, 0⟩)
    else (false, s.sendWait c n)
  | none => (false, s.sendWait c n)

/-! ### Credit return (R183) -/

/-- Send the credit or window limit owed to the senders of a receiving endpoint (R183, R189). -/
def State.flushCredit (s : State) (c n : Nat) : State :=
  let e := s.ep c n
  let a := s.aux c n
  let peers := (s.chans.filter fun p =>
      p.2.live && !p.2.draining && p.2.recv == some ⟨c, n⟩).map fun p => p.2.send
  let it := fun (ty : Nat) (w : Nat) (x : ChanEnd) => (⟨ty, 0, x.unit, x.ep, c, n, 0, w, 0⟩ : Item)
  let s := if epKind e.cfg = 2 then
      peers.foldl (fun s x => match x with
        | some x => s.sendItem (it 3 ((a.base + epSlots e.cfg) % 2 ^ 32) x)
        | none => s) s
    else match peers with
      | some x :: _ => s.sendItem (it 2 e.unsent x)
      | _ => s
  (s.modEp c n fun e => { e with unsent := 0 }).modAux c n fun a => { a with winSent := a.base }

/-- Return credit for `k` granules or entries (or window steps of a chorus endpoint): sent at a quarter of the
storage, otherwise by the flush timer (R183). -/
def State.giveCredit (s : State) (c n k : Nat) : State :=
  let s := s.modEp c n fun e =>
    { e with unsentSince := if e.unsent = 0 then s.now else e.unsentSince, unsent := e.unsent + k }
  let e := s.ep c n
  let whole := if epKind e.cfg = 2 then epSlots e.cfg else epStorage e.cfg
  if whole ≤ e.unsent * 4 then s.flushCredit c n else s

/-- Pads at the head of a queue are passed, and their credit returns at once (R183, R184). -/
def State.passPads (s : State) (c n : Nat) : State :=
  match (s.ep c n).recs with
  | r :: rs => if r.pad then (s.modEp c n fun e => { e with recs := rs }).giveCredit c n r.n else s
  | [] => s

/-! ### Receiving -/

/-- A message on the transport arrives whole at the local port, or a flit's part of a contribution (R56), where it waits to land (R182). Its message number is
the receiver's own count on the channel: it takes no wire bits (R188, R193). -/
def State.deliverMsg (s : State) (c n : Nat) (m : Msg) : State :=
  let k := SMap.getD (s.aux c n).nums (hIndex m.handle) 0
  let s := if m.pad = 0 ∧ m.final then s.modAux c n fun a => { a with nums := SMap.put a.nums (hIndex m.handle) (k + 1) } else s
  s.modPort c fun p => { p with msgs := SMap.upd p.msgs n [] (· ++ [{ m with num := k }]) }

/-- Count a dropped message (R179, R180, R191). -/
def State.dropMsg (s : State) (c n : Nat) : State := s.modEp c n fun e => { e with dropped := satAdd 48 e.dropped 1 }

/-- Land a message of a plain endpoint in its queue or its wings (R182, R197). -/
def State.landMsg (s : State) (c n : Nat) (m : Msg) : State :=
  let e := s.ep c n
  let r := e.cfg
  let size := epStorage r
  let s := if m.pad = 0 then s.fed c n else s
  if m.pad ≠ 0 then
    (s.modEp c n fun e => { e with recs := e.recs ++ [⟨true, e.rtail, m.pad, 0⟩], rtail := 0 }).passPads c n
  else if epWings r = 0 then
    (s.writeWords c (epBase r + 32 * e.rtail) m.grans).modEp c n fun e =>
      { e with recs := e.recs ++ [⟨false, e.rtail, m.grans.length, m.num⟩]
               rtail := if size = 0 then 0 else (e.rtail + m.grans.length) % size }
  else
    let cell := epMaxGran r
    if e.wing.isEmpty ∧ (e.recs.length + 1) * cell ≤ size then
      (s.writeWords c (epBase r + 32 * e.rtail) m.grans).modEp c n fun e =>
        { e with recs := e.recs ++ [⟨false, e.rtail, m.grans.length, m.num⟩], rtail := (e.rtail + cell) % size }
    else
      (s.writeWords c (epBase r + 32 * (size + e.wtail)) m.grans).modEp c n fun e =>
        { e with wing := e.wing ++ [⟨false, e.wtail, m.grans.length, m.num⟩]
                 wtail := (e.wtail + cell) % epWingGran r }

/-- Why a message that reached its endpoint is not taken: fenced (R16), a stale handle (R179), another epoch
(R313), a channel being shut down (R180). -/
inductive Reject where
  | fenced | stale | epoch | draining
deriving DecidableEq, Repr

/-- The test of an arriving message at endpoint n of a cell. -/
def State.rejectMsg (s : State) (c n : Nat) (m : Msg) : Option Reject :=
  let ch := s.chan (hIndex m.handle)
  if s.fenced c then some .fenced
  else if (s.aux c n).draining then some .draining
  else if (s.ep c n).handle ≠ m.handle ∧ epKind (s.ep c n).cfg ≠ 2 then some .stale
  else if !ch.live ∨ ch.gen ≠ hGen m.handle ∨ ch.ty ≠ hType m.handle then some .stale
  else match ch.send with
    | some e => if e.unit < 0xF000 ∧ m.epoch ≠ s.epoch4 e.unit then some .epoch else none
    | none => none

/-- What a rejected message leaves: its count, and for an epoch drop the credit it used (R313). -/
def State.applyReject (s : State) (c n : Nat) (m : Msg) : Reject → State
  | .fenced => s.inc (Reg.BLK_STATUS_fenced_drop_count (c / 32))
  | .epoch =>
    let s := s.inc (Reg.CELL_EPOCH_epoch_drop_count c)
    if epKind (s.ep c n).cfg = 2 then s else s.giveCredit c n (if m.pad ≠ 0 then m.pad else m.grans.length)
  | _ => s.dropMsg c n

/-- MESSAGE_ARRIVAL (R182, R197): the first message that waits for a plain endpoint lands in its queue or wings, or
is discarded; while the cell's clock stands it is held (R26), and during a strike it is discarded uncounted (R144). -/
def execMessageArrival (c : CellAddr) (ep : Nat) (s : State) : Res :=
  let a := c.toNat
  onUnit (cellValid a ∧ ep < 32) a s fun s => when (!s.gated a) (fun s =>
    match SMap.getD (s.cell a).port.msgs ep [], epKind (s.ep a ep).cfg with
    | _, 2 => s
    | m :: ms, _ =>
      let s := s.modPort a fun p => { p with msgs := SMap.put p.msgs ep ms }
      if s.striking then s
      else match s.rejectMsg a ep m with
      | some r => s.applyReject a ep m r
      | none => s.landMsg a ep m
    | [], _ => s) s

/-- CUE_ARRIVAL (R182, R186): a cue item lands in its cue endpoint as an 8 B entry, value and tag: a read-modify-write of its word,
which may meet an error (R130). -/
def execCueArrival (c : CellRead) (s : State) : Res :=
  let a := c.cell.toNat
  onPort c.cell s fun s =>
    match (s.cell a).port.inbox with
    | it :: rest =>
      if it.ty = 1 then
        let s := s.modPort a fun p => { p with inbox := rest }
        let e := s.ep a it.dstEp
        if s.striking then s
        else if epKind e.cfg = 3 ∧ !epSends e.cfg ∧ !(s.aux a it.dstEp).draining then
          let o := epBase e.cfg + 8 * e.rtail
          let v := it.w1 % 2 ^ 32 + (it.tag % 256) <<< 32
          ((s.fed a it.dstEp).writePart a o (toLE 8 v) false c.ecc).modEp a it.dstEp fun e =>
            { e with recs := e.recs ++ [⟨false, e.rtail, 1, it.tag⟩], rtail := (e.rtail + 1) % epStorage e.cfg }
        else s.dropMsg a it.dstEp
      else s
    | [] => s

/-- CREDIT_ITEM (R183): a credit item raises the sending endpoint's credit and ends its stall (R200). -/
def execCreditItem (c : CellAddr) (s : State) : Res :=
  let a := c.toNat
  onPort c s fun s =>
    match (s.cell a).port.inbox with
    | it :: rest =>
      if it.ty = 2 then
        ((s.modPort a fun p => { p with inbox := rest }).modEp a it.dstEp fun e =>
          { e with credit := e.credit + it.w1 % 2 ^ 16, waitSince := none, stalled := none }).watch
      else s
    | [] => s

/-- CHORUS_WINDOW_ITEM (R189): a window item advances the sender's limit and ends its stall (R200). -/
def execChorusWindowItem (c : CellAddr) (s : State) : Res :=
  let a := c.toNat
  onPort c s fun s =>
    match (s.cell a).port.inbox with
    | it :: rest =>
      if it.ty = 3 then
        ((s.modPort a fun p => { p with inbox := rest }).modEp a it.dstEp fun e =>
          { e with limit := it.w1 % 2 ^ 32, waitSince := none, stalled := none }).watch
      else s
    | [] => s

/-- CREDIT_FLUSH_TIMER (R183): 1 us after the oldest unsent credit was freed, the credit item goes; none goes from a fenced cell
(R205). -/
def execCreditFlushTimer (c : CellAddr) (ep : Nat) (s : State) : Res :=
  onUnit (cellValid c.toNat ∧ ep < 32) c.toNat s fun s =>
    let e := s.ep c.toNat ep
    when (!s.fenced c.toNat ∧ !s.gated c.toNat ∧ e.unsent ≠ 0 ∧ e.unsentSince + 1000 ≤ s.now) (fun s => s.flushCredit c.toNat ep) s

/-- WING_MOVE (R197): the oldest message of the wings moves into a freed queue cell; no credit returns. -/
def execWingMove (c : CellRead) (ep : Nat) (s : State) : Res :=
  onUnit (cellValid c.cell.toNat ∧ ep < 32) c.cell.toNat s fun s =>
    let a := c.cell.toNat
    let e := s.ep a ep
    let r := e.cfg
    let size := epStorage r
    match e.wing with
    | w :: ws =>
      if !s.fenced a ∧ !s.gated a ∧ (e.recs.length + 1) * epMaxGran r ≤ size then
        let g := s.readWords a (epBase r + 32 * (size + w.pos)) 1 c.ecc w.n
        if g.2.fenced a then g.2
        else (g.2.writeWords a (epBase r + 32 * e.rtail) g.1).modEp a ep fun e =>
          { e with wing := ws, recs := e.recs ++ [{ w with pos := e.rtail }], rtail := (e.rtail + epMaxGran r) % size }
      else s
    | [] => s

/-! ### Chorus queues (R187-R191) -/

/-- The starting value of a chorus slot (R187): −0 in every element for the float formats, 0 for INT32. -/
def chorusStart (fmt : Nat) : List Byte :=
  if fmt = 2 then List.replicate 32 0 else (List.replicate 8 [0, 0, 0, 0x80]).flatten

/-- Add one contribution granule into slot granules (R56): FP32 and INT32 granule by granule, BF16 widened into
two. `i` is the granule's place in the contribution. -/
def chorusAdd (fmt : Nat) (slot : List Gran) (i : Nat) (g : Gran) : List Gran :=
  let addWord := fun (x y : Nat) => if fmt = 2 then (x + y) % 2 ^ 32 else fadd32 x y
  let word := fun (bs : List Byte) (j : Nat) => ofLE ((bs.drop (4 * j)).take 4)
  let upd := fun (k : Nat) (vals : List Nat) =>
    setNth slot k
      (let old := nth slot k ⟨List.replicate 32 0, false⟩
       ⟨(List.range 8).flatMap fun j => toLE 4 (addWord (word old.data j) (nth vals j 0)), old.poison || g.poison⟩)
  if fmt = 1 then
    let vals := (List.range 16).map fun j => ofLE ((g.data.drop (2 * j)).take 2) <<< 16
    let s1 := upd (2 * i) (vals.take 8)
    let old := nth s1 (2 * i + 1) ⟨List.replicate 32 0, false⟩
    setNth s1 (2 * i + 1)
      ⟨(List.range 8).flatMap fun j => toLE 4 (addWord (word old.data j) (nth vals (8 + j) 0)), old.poison || g.poison⟩
  else upd i ((List.range 8).map fun j => word g.data j)

/-- Offset of the slot of an item (R188). -/
def chorusOff (r item : Nat) : Nat := epBase r + item % epSlots r * 2 ^ epSlotLog r

/-- Add a flit's granules of a contribution to its item's slot (R56, R189, R190); its last flit completes the contribution. -/
def State.chorusTake (s : State) (c n item : Nat) (m : Msg) (ecc : List EccEvent) : State :=
  let r := (s.ep c n).cfg
  let a := s.aux c n
  let k := 2 ^ epSlotLog r / 32
  let o := chorusOff r item
  let wide := if epChFmt r = 1 then 2 else 1
  let s := if (SMap.get? a.slots item).isNone then s.writeWords c o (List.replicate k ⟨chorusStart (epChFmt r), false⟩) else s
  let old := s.readWords c (o + 32 * wide * m.start) 1 ecc (wide * m.grans.length)
  let new := foldIdx (fun i acc g => chorusAdd (epChFmt r) acc i g) 0 old.1 m.grans
  let s := old.2.writeWords c (o + 32 * wide * m.start) new
  let cnt := (SMap.getD a.slots item ⟨item, 0, false⟩).count + b2n m.final
  let s := s.modAux c n fun a =>
    { a with slots := SMap.put a.slots item ⟨item, cnt, epCount r ≠ 0 ∧ epCount r ≤ cnt⟩ }
  let s := if m.final then s.modEp c n fun e => { e with got := satAdd 48 e.got 1 } else s
  if epCount r ≠ 0 ∧ epCount r ≤ cnt then s.fed c n else s

/-- A contribution whose channel's flits are being discarded, or no longer (R191). -/
def State.chorusSkip (s : State) (c n : Nat) (m : Msg) (on : Bool) : State :=
  s.modAux c n fun a => { a with skip := if on ∧ !m.final then NSet.add a.skip (hIndex m.handle) else NSet.del a.skip (hIndex m.handle) }

/-- The first flit that waits of a contribution: added into its item's slot; or the contribution is dropped with a cell fault, when its
item is outside the window or released or its length is wrong, and its later flits with it. A wrong length shows only
with the flit that makes it so: what was added before stays (log 120). -/
def State.chorusFlit (s : State) (c n : Nat) (m : Msg) (ecc : List EccEvent) : State :=
  let r := (s.ep c n).cfg
  let x := s.aux c n
  let item := epItem r m.num
  let inWin : Bool := (item + 2 ^ 32 - x.base) % 2 ^ 32 < epSlots r
  let rel := (SMap.getD x.slots item ⟨item, 0, false⟩).released
  let got := m.start + m.grans.length
  if m.start ≠ 0 ∧ x.skip.contains (hIndex m.handle) then s.chorusSkip c n m true
  else match s.rejectMsg c n m with
    | some j => (s.applyReject c n m j).chorusSkip c n m true
    | none =>
      if !inWin || rel || epContrib r < got || (m.final && got != epContrib r) then
        (((s.dropMsg c n).cellFault c 3)).chorusSkip c n m true
      else (s.chorusTake c n item m ecc).chorusSkip c n m false

/-- CHORUS_CONTRIBUTION (R56, R189, R191): the local port accepts the next flit of a contribution. -/
def execChorusContribution (c : CellRead) (ep : Nat) (s : State) : Res :=
  let a := c.cell.toNat
  onUnit (cellValid a ∧ ep < 32) a s fun s => when (!s.gated a) (fun s =>
    match SMap.getD (s.cell a).port.msgs ep [], epKind (s.ep a ep).cfg with
    | m :: ms, 2 =>
      let s := s.modPort a fun p => { p with msgs := SMap.put p.msgs ep ms }
      if s.striking then s else s.chorusFlit a ep m c.ecc
    | _, _ => s) s

/-- Items of a chorus window up to and including item `i`, from its base. -/
def itemsTo (base i : Nat) : List Nat := (List.range ((i + 2 ^ 32 - base) % 2 ^ 32 + 1)).map fun k => (base + k) % 2 ^ 32

/-- A barrier completion releases every slot of the window that holds a contribution; lower items with none are
passed over, and take no contribution any more (R190). -/
def State.chorusBarrier (s : State) (c n : Nat) : State :=
  (if (s.aux c n).slots.any fun p => p.2.count != 0 then s.fed c n else s).modAux c n fun a =>
    let held := a.slots.filter fun p => p.2.count ≠ 0
    let top := held.foldl (fun m p => max m ((p.1 + 2 ^ 32 - a.base) % 2 ^ 32 + 1)) 0
    let items := if top = 0 then [] else itemsTo a.base ((a.base + top - 1) % 2 ^ 32)
    { a with slots := items.foldl (fun m i =>
        SMap.put m i { (SMap.getD m i ⟨i, 0, false⟩) with released := true }) a.slots }

/-- The item the consumer of a chorus endpoint takes next: the base; for barrier release, the lowest released item
(lower items with no contribution are skipped, R190). -/
def EpAux.nextItem (a : EpAux) (r : Nat) : Option Nat :=
  if epCount r = 0 then
    ((List.range (epSlots r)).map fun i => (a.base + i) % 2 ^ 32).find? fun i =>
      let x := SMap.getD a.slots i ⟨i, 0, false⟩
      x.released && x.count != 0
  else if (SMap.getD a.slots a.base ⟨0, 0, false⟩).released then some a.base else none

/-! ### Consuming -/

/-- Whether a receiving endpoint holds a message for its consumer. -/
def State.hasMsg (s : State) (c n : Nat) : Bool :=
  let e := s.ep c n
  if epKind e.cfg = 2 then ((s.aux c n).nextItem e.cfg).isSome
  else e.recs.any fun r => !r.pad

/-- The head message of a plain endpoint. -/
def State.headRec (s : State) (c n : Nat) : QRec := ((s.ep c n).recs.find? fun r => !r.pad).getD ⟨false, 0, 0, 0⟩

/-- Length in granules of the message a consumer would take. -/
def State.headLen (s : State) (c n : Nat) : Nat :=
  let r := (s.ep c n).cfg
  if epKind r = 2 then 2 ^ epSlotLog r / 32 else (s.headRec c n).n

/-- Read the message a consumer would take, as the code of R128 delivers it. -/
def State.readHead (s : State) (c n : Nat) (ecc : List EccEvent) : List Gran × State :=
  let e := s.ep c n
  if epKind e.cfg = 2 then
    s.readWords c (chorusOff e.cfg (((s.aux c n).nextItem e.cfg).getD 0)) 0 ecc (2 ^ epSlotLog e.cfg / 32)
  else s.readWords c (epBase e.cfg + 32 * (s.headRec c n).pos) 0 ecc (s.headRec c n).n

/-- The granules of the head message as they stand, without a read of the bank: a message discarded unread (R115, R282). -/
def State.peekHead (s : State) (c n : Nat) : List Gran :=
  let e := s.ep c n
  let o := if epKind e.cfg = 2 then chorusOff e.cfg (((s.aux c n).nextItem e.cfg).getD 0) else epBase e.cfg + 32 * (s.headRec c n).pos
  (List.range (s.headLen c n)).map fun i =>
    let w := spWord c (o + 32 * i)
    ⟨s.bytes (w * 32) 32, s.mem.spPoison.contains w⟩

/-- Continue an endpoint's tally over a consumed message (R282). -/
def State.tallyMsg (s : State) (c n : Nat) (gs : List Gran) : State :=
  let bs := BitVec.ofNat 8 gs.length :: gs.flatMap fun g => BitVec.ofNat 8 (b2n g.poison) :: g.data
  s.modAux c n fun a => { a with tally := crc64Run a.tally bs }

/-- Consume the message at the head: counted, its credit (or its window step) returned (R183, R189, R190, R203). -/
def State.consume (s : State) (c n : Nat) (gs : List Gran) : State :=
  let e := s.ep c n
  let s := s.modEng c fun e => { e with consumedAt := s.now }
  let s := s.tallyMsg c n gs
  if epKind e.cfg = 2 then
    let i := ((s.aux c n).nextItem e.cfg).getD 0
    let step := (i + 1 + 2 ^ 32 - (s.aux c n).base) % 2 ^ 32
    (s.modAux c n fun a =>
      { a with slots := (itemsTo a.base i).foldl SMap.del a.slots
               base := (i + 1) % 2 ^ 32 }).giveCredit c n step
  else
    let r := s.headRec c n
    let cost := if epWings e.cfg ≠ 0 then epMaxGran e.cfg else r.n
    let s := (s.modEp c n fun e =>
      { e with recs := (e.recs.dropWhile fun q => q.pad).drop 1
               got := satAdd 48 e.got 1
               conNo := e.conNo + 1 }).giveCredit c n cost
    s.passPads c n

/-- Value and tag of the cue at the head of a cue endpoint. -/
def State.headCue (s : State) (c n : Nat) : Nat × Nat :=
  let e := s.ep c n
  let v := s.num (spAddr c (epBase e.cfg + 8 * (s.headRec c n).pos)) 8
  (bits v 0 32, bits v 32 8)

/-- Read the word of the cue at the head of a cue endpoint: whether it is poison. -/
def State.readCue (s : State) (c n : Nat) (ecc : List EccEvent) : Bool × State :=
  let r := s.readWord c ((epBase (s.ep c n).cfg + 8 * (s.headRec c n).pos) / 32 * 32) 0 ecc
  (r.1.poison, r.2)

/-- Consume the cue at the head of a cue endpoint; the tally takes its 4 B value (R282). -/
def State.takeCue (s : State) (c n : Nat) : State :=
  let v := (s.headCue c n).1
  let s := s.modEng c fun e => { e with consumedAt := s.now }
  let s := s.modAux c n fun a => { a with tally := crc64Run a.tally (toLE 4 v) }
  (s.modEp c n fun e => { e with recs := e.recs.drop 1, got := satAdd 48 e.got 1, conNo := e.conNo + 1 }).giveCredit c n 1

/-- The consumer waits on an empty endpoint: its starve cycles run (R203). -/
def State.starve (s : State) (c n : Nat) : State := s.modEp c n (EpSt.starveTo (s.cellClk c))

/-- CHANNEL_STALL (R200): a sender with a message ready has had no credit for `stall_limit`. -/
def execChannelStall (c : CellAddr) (ep : Nat) (s : State) : Res :=
  onUnit (cellValid c.toNat ∧ ep < 32) c.toNat s fun s =>
    match (s.ep c.toNat ep).waitSince with
    | some t => when (s.isIn .running ∧ t + s.stallNs ≤ s.now)
        (fun s => (s.modEp c.toNat ep fun e => { e with stalled := some (e.stalled.getD s.now) }).watch) s
    | none => s

/-- CUE_TIMEOUT (R194, R200): one side of a gate has waited for `skew_limit`. -/
def execCueTimeout (c : CellAddr) (ep : Nat) (s : State) : Res :=
  onUnit (cellValid c.toNat ∧ ep < 32) c.toNat s fun s =>
    match (s.aux c.toNat ep).skewSince with
    | some t => when (s.isIn .running ∧ epGate (s.ep c.toNat ep).cfg ∧ t + s.skewNs ≤ s.now)
        (fun s => (s.modAux c.toNat ep fun a => { a with timeout := some (a.timeout.getD s.now) }).watch) s
    | none => s

/-- Clear a channel's endpoint: no contents, no credit, nothing bound to wait (R180, R205). -/
def State.clearEp (s : State) (c n : Nat) : State :=
  (s.modEp c n fun e => { EpSt.init with cfg := e.cfg }).modAux c n fun _ => EpAux.init

/-- Start an endpoint of a live channel afresh: empty storage, full credit, counts kept (R183, R205); an endpoint with
no channel has no credit. -/
def State.freshEp (s : State) (c n : Nat) (handle : Nat) : State :=
  let s := s.modEp c n fun e =>
    { EpSt.init with cfg := e.cfg, handle := handle, sent := e.sent, stall := e.stall, got := e.got
                     starve := e.starve, dropped := e.dropped }
  let r := s.peerRec c n
  (s.modEp c n fun e =>
    { e with credit := if epSends e.cfg ∧ handle ≠ 0 then (if r = 0 then 2 ^ 16 else epStorage r + epWingGran r) else 0
             limit := epSlots r }).modAux c n fun a => { EpAux.init with tally := a.tally }

/-- A draining channel that has an end in common with a new one. -/
def State.drainsAt (s : State) (a b : ChanEnd) : Option Nat :=
  let ends := [some a, some b].filter fun e => match e with | some e => decide (e.unit < 0xF000) | none => false
  (s.chans.find? fun p => p.2.draining && (ends.contains p.2.send || ends.contains p.2.recv)).map (·.1)

/-- A created channel comes up: counts zero, empty storage, full credit (R183, R203); its deferral-log entry is about to
become final (R334). -/
def State.chanUp (s : State) (i : Nat) (a b : ChanEnd) : State :=
  let h := handleOf i (s.chan i)
  let s := s.modChan i fun c => { c with next := none }
  let up := fun (s : State) (e : ChanEnd) =>
    if e.unit < 0xF000 then (s.modEp e.unit e.ep fun x => { EpSt.init with cfg := x.cfg }).freshEp e.unit e.ep h else s
  -- the receiving end first: the sender's credit is taken from its storage
  let s := up (up (if a.unit < 0xF000 then s.modEp a.unit a.ep fun e => { e with handle := h } else s) b) a
  match s.host.defers.find? fun d => d.1 == i with
  | some d => (s.modHost fun x => { x with defers := x.defers.erase d }).settleDefer d.2.1 d.2.2 .ok
  | none => s

/-- Whether a flit is the head of a MESSAGE packet with a handle (Table 6.8). -/
def Flit.carries (f : Flit) (h : Nat) : Bool :=
  f.vc == 1 && f.head && ofLE (f.data.take 1) == 4 && ofLE ((f.data.drop 24).take 4) == h

/-- Whether anything of a channel is still on its way (R180 step 4): a MESSAGE packet with its handle, a flit of its circuit, a message that waits to land, or a
cue, credit or window item between its ends. -/
def State.chanLeft (s : State) (i : Nat) : Bool :=
  let ch := s.chan i
  let h := handleOf i ch
  let fl := fun (fs : List Flit) => fs.any fun f => f.carries h || (f.vc == 0 && ch.circuit == some f.chan)
  let pk := fun (ps : List Packet) => ps.any fun p => p.ty == 4 && p.tag == h
  let part := fun (ps : List (List Byte × Nat × Bool)) =>
    match ps with | p :: _ => ofLE (p.1.take 1) == 4 && ofLE ((p.1.drop 24).take 4) == h | [] => false
  let it := fun (its : List Item) => its.any fun x =>
    (x.ty == 1 && ch.recv == some ⟨x.dst, x.dstEp⟩ && ch.send == some ⟨x.src, x.srcEp⟩) ||
      ((x.ty == 2 || x.ty == 3) && ch.send == some ⟨x.dst, x.dstEp⟩ && ch.recv == some ⟨x.src, x.srcEp⟩)
  (s.cells.any fun p => part p.2.port.pktPart || (p.2.port.part.any fun q => fl q.2) || pk p.2.port.pkts || it p.2.port.inbox ||
      p.2.port.msgs.any fun q => q.2.any fun m => m.handle == h) ||
    (s.mesh.xr.any fun p => (p.2.vc1.any fun q => fl q.2.flits) || (p.2.stages.any fun q => fl q.2.flits) ||
      (p.2.injPkts.any fun q => fl q.2) || (p.2.injFlits.any fun q => fl q.2) || (p.2.vc2.any fun q => it q.2) ||
      p.2.injItems.any fun q => it q.2) ||
    (s.mesh.wires.any fun p => fl p.2.flits || it p.2.items) ||
    (s.mesh.tp.any fun p => pk p.2.waiting || pk p.2.unacked || pk p.2.inq) ||
    (s.mesh.hubPart.any fun p => part p.2) || (s.mesh.hubFlits.any fun q => fl q.2) || it s.mesh.hubItems || s.mesh.hubMsgs.any fun m => m.handle == h

/-- CHANNEL_DRAIN_DONE (R180 step 4): once nothing of the channel is on its way, both endpoints are cleared and the index is free; a channel whose creation
was deferred on it comes up with empty storage and full credit. -/
def execChannelDrainDone (idx : Nat) (s : State) : Res :=
  onUnit (idx < 65536) idx s fun s =>
    let ch := s.chan idx
    when (ch.draining && !s.chanLeft idx) (fun s =>
      let clr := fun (s : State) (e : Option ChanEnd) => match e with
        | some e => if e.unit < 0xF000 then s.clearEp e.unit e.ep else s
        | none => s
      let s := clr (clr s ch.send) ch.recv
      let s := s.modChan idx fun c => { ChanSt.init with gen := nextGen c.gen }
      let s := { s with hub := { s.hub with eps := SMap.del s.hub.eps idx } }
      -- channels created meanwhile on these endpoints come up (log 22)
      s.chans.foldl (fun s p =>
        match p.2.next with
        | some (a, b, _) => if p.2.live ∧ (s.drainsAt a b).isNone then s.chanUp p.1 a b else s
        | none => s) s |>.watch) s

end Sys2Proof.Machine
end

