-- ==== Sys2Proof/Machine/Grants.lean ====
section
/-! DEFINITION. Space grants and remote writes (R132-R137), and the background sweep (R138-R143). -/

namespace Sys2Proof.Machine

/-- Dynamic window n of a cell, if declared in its scene. -/
def State.win (s : State) (c n : Nat) : Option Win := SMap.get? (s.cell c).grants.wins n

/-- Replace a dynamic window. -/
def State.setWin (s : State) (c n : Nat) (w : Win) : State :=
  s.modCell c fun x => { x with grants := { x.grants with wins := SMap.put x.grants.wins n w } }

/-- First byte of a window in its cell's scratchpad. -/
def Win.start (w : Win) : Nat := winBank w.decl * 0x100000 + winOffset w.decl

/-- Whether an area covers the bytes [o, o + n). -/
def covers (start len o n : Nat) : Bool := start ≤ o && o + n ≤ start + len

/-- The verdict on a remote write (R132): landing under a static or load grant, landing in a dynamic window, or
refused with a reason of `SP_GRANT_COUNTS`. -/
inductive Verdict where
  | static
  | window (n : Nat)
  | refused (reason : Nat)
deriving DecidableEq, Repr

/-- Judge a remote write of `n` bytes at offset `o` by a writer (R132, R137, R263; reasons: log 23). -/
def State.judge (s : State) (c writer o n : Nat) : Verdict :=
  let g := (s.cell c).grants
  let mine := g.static.filter fun x => x.writer == writer
  let wins := g.wins.filter fun p => p.2.writer == writer && p.2.st != .free
  if mine.any fun x => covers (x.bank * 0x100000 + x.offset) x.length o n then .static
  else if 0xF000 ≤ writer ∧ writer < 0xF040 ∧ g.load.any fun x => covers (x.1 * 0x100000 + x.2.1) x.2.2 o n then .static
  else match wins.find? fun p => p.2.st == .granted && covers p.2.start (winLength p.2.decl) o n with
    | some p => .window p.1
    | none =>
      if mine.isEmpty && wins.isEmpty then .refused 1
      else if wins.any fun p => p.2.st != .granted && covers p.2.start (winLength p.2.decl) o n then .refused 3
      else .refused 2

/-- A FILLED window's cue: value window index * 2^21 + bytes landed, posted by the grant unit to the window's
endpoint (R135). -/
def State.filledCue (s : State) (c n : Nat) (w : Win) : State :=
  let ep := winCueEp w.decl
  let tag := (s.ep c ep).msgNo % 256
  (s.modEp c ep fun e => { e with msgNo := e.msgNo + 1 }).modPort c fun p =>
    { p with inbox := p.inbox ++ [⟨1, 0, c, ep, c, 0, tag, n <<< 21 + w.landed % 2 ^ 21, 0⟩] }

/-- A GRANTED window whose count has landed passes to FILLED (R135). -/
def State.fillCheck (s : State) (c n : Nat) : State :=
  match s.win c n with
  | some w =>
    if w.st = .granted ∧ w.count ≤ w.landed then
      let w := { w with st := .filled }
      (s.setWin c n w).filledCue c n w
    else s
  | none => s

/-- Carry out a remote write at its consumer (R132, R135, R137): what of it, and the state. -/
def State.remoteWrite (s : State) (c : Nat) (w : RemWrite) : State :=
  match spDecode w.addr with
  | some (_, o) =>
    let n := 32 * w.grans.length
    match s.judge c w.writer o n with
    | .static => s.writeWords c o w.grans
    | .window k =>
      let s := s.writeWords c o w.grans
      match s.win c k with
      | some v => (s.setWin c k { v with landed := v.landed + n }).fillCheck c k
      | none => s
    | .refused reason =>
      (((s.inc (Reg.SP_GRANT_COUNTS_refused_count c)).set (Reg.SP_GRANT_COUNTS_last_writer c) w.writer).set
        (Reg.SP_GRANT_COUNTS_last_reason c) reason).cellFault c 2
  | none => s

/-- REMOTE_WRITE (R132, R137, R214): the first write at the local port is judged and lands or is refused; at a fenced
cell it is discarded and counted (R16); between scenes it is held, and while the cell's clock stands (R26); during a strike it is discarded (R144). -/
def execRemoteWrite (c : CellAddr) (s : State) : Res :=
  let a := c.toNat
  onCell c s fun s =>
    match (s.cell a).port.writes with
    | w :: ws =>
      if s.gated a then s
      else if s.striking ∨ s.fenced a ∨ (s.cell a).scene.phase ≠ .changing then
        let s := (s.modPort a fun p => { p with writes := ws }).owe (a / 32) false w.owed
        if s.striking then s
        else if s.fenced a then s.inc (Reg.BLK_STATUS_fenced_drop_count (a / 32))
        else s.remoteWrite a w
      else s
    | [] => s

/-- Whether `writers` of a window admits a requester (Table 5.5): S-cells 1, porters 2, both 3. -/
def writerAllowed (w requester : Nat) : Bool :=
  if 0xF000 ≤ requester then bitAt (winWriters w) 1 else bitAt (winWriters w) 0

/-- Whether a count suits ACQUIRE and RELEASE (Table 5.7). -/
def countOk (w count : Nat) : Bool := count != 0 && count ≤ winLength w && count % 32 == 0

/-- Decide a grant request (Table 5.7) and carry it out: outcome code and state. -/
def State.grantRequest (s : State) (c src r : Nat) : Nat × State :=
  let n := grWindow r
  if (s.cell c).scene.phase = .changing then (1, s.inc (Reg.SP_GRANT_COUNTS_busy_count c))
  else match s.win c n with
    | none => (3, s)
    | some w =>
      if !grClean r then (3, s)
      else match grType r with
        | 0 =>
          if !writerAllowed w.decl src || !countOk w.decl (grCount r) then (2, s)
          else if w.st = .free then
            (0, s.setWin c n { w with st := .granted, writer := src, count := grCount r, landed := 0 })
          else (1, s.inc (Reg.SP_GRANT_COUNTS_busy_count c))
        | 1 =>
          if !writerAllowed w.decl src || !countOk w.decl (grCount r) || w.writer != src || w.st != .granted then (2, s)
          else (0, (s.setWin c n { w with count := min w.count (grCount r) }).fillCheck c n)
        | _ =>
          if grCount r != 0 || w.st != .filled || src / 32 != c / 32 || cOf src != 6 || 0xF000 ≤ src then (2, s)
          else (0, s.setWin c n { w with st := .free })

/-- Serve the grant request at the head of a cell's inbox when its type is one of `types`; the answer goes back on
virtual channel 2 (R136). -/
def State.grantItem (s : State) (c : Nat) (types : List Nat) : State :=
  match (s.cell c).port.inbox with
  | it :: rest =>
    if it.ty = 8 ∧ types.contains (grType it.w1) ∧ s.striking then s.modPort c fun p => { p with inbox := rest }
    else if it.ty = 8 ∧ types.contains (grType it.w1) then
      let s := s.modPort c fun p => { p with inbox := rest }
      let r := s.grantRequest c it.src it.w1
      r.2.sendItem ⟨9, 0, it.src, 0, c, 0, 0, r.1, 0⟩
    else s
  | [] => s

/-- GRANT_ACQUIRE (R135, R136). A request of the reserved type 3 is answered here too, with BAD_WINDOW. -/
def execGrantAcquire (c : CellAddr) (s : State) : Res := onPort c s fun s => s.grantItem c.toNat [0, 3]
/-- GRANT_RELEASE (R135, R136). -/
def execGrantRelease (c : CellAddr) (s : State) : Res := onPort c s fun s => s.grantItem c.toNat [1]
/-- GRANT_FREE (R135, R136). -/
def execGrantFree (c : CellAddr) (s : State) : Res := onPort c s fun s => s.grantItem c.toNat [2]

/-- GRANT_ANSWER (R136): the outcome reaches the requesting S-cell, where GREQ waits for it. -/
def execGrantAnswer (c : CellAddr) (s : State) : Res :=
  let a := c.toNat
  onPort c s fun s =>
    match (s.cell a).port.inbox with
    | it :: rest =>
      if it.ty = 9 then
        s.modCell a fun x => { x with port := { x.port with inbox := rest }, sc := { x.sc with answer := some (it.w1 % 256) } }
      else s
    | [] => s

/-- FILLED windows with `auto_free` return to FREE at the consumer's beat start (R135). -/
def State.autoFree (s : State) (c : Nat) : State :=
  s.modCell c fun x => { x with grants := { x.grants with wins := SMap.mapVal (fun _ w =>
    if w.st = .filled ∧ winAutoFree w.decl then { w with st := .free } else w) x.grants.wins } }

/-! ### The background sweep -/

/-- The spare an assignment takes next: rows 0-15, column groups 16-19 (R140). -/
def freeSpare (rs : List Repair) (col : Bool) : Option Nat :=
  let lo := if col then 16 else 0
  let n := if col then 4 else 16
  ((List.range n).map (· + lo)).find? fun i => !(rs.any fun r => r.spare == i)

/-- Column group of a failing bit: (word * 272 + bit) / 8 (R140). -/
def colGroup (f : MarchFail) : Nat := (f.col * 272 + f.bit) / 8

/-- The repairs a failing run asks for (R140): one column group when all failing bits lie in one group and in two
or more rows; otherwise each failing row. -/
def repairTargets (strip : Nat) (fs : List MarchFail) : List (Bool × Nat) :=
  let groups := (fs.map colGroup).eraseDups
  let rows := (fs.map (·.row)).eraseDups
  if groups.length = 1 ∧ 2 ≤ rows.length then groups.map fun g => (true, g)
  else rows.map fun r => (false, strip * 32 + r)

/-- Assign spares to targets, as far as they last; whether all got one. -/
def assignSpares (rs : List Repair) : List (Bool × Nat) → List Repair × Bool
  | [] => (rs, true)
  | (col, t) :: ts =>
    match freeSpare rs col with
    | some i => assignSpares (rs ++ [⟨i, col, t, 2, true, false⟩]) ts
    | none => (rs, false)

/-- Record a March failure in `SP_SWEEP_FAIL` (R143). -/
def State.sweepFail (s : State) (c k strip : Nat) (shadow : Bool) (f : MarchFail) : State :=
  let g := gOf c
  let v := s.flag (Reg.SP_SWEEP_FAIL_valid g)
  (s.sets [(Reg.SP_SWEEP_FAIL_overrun g, b2n v), (Reg.SP_SWEEP_FAIL_valid g, 1), (Reg.SP_SWEEP_FAIL_repaired g, 0),
    (Reg.SP_SWEEP_FAIL_unrepairable g, 0), (Reg.SP_SWEEP_FAIL_cell g, bOf c * 7 + cOf c), (Reg.SP_SWEEP_FAIL_bank g, k),
    (Reg.SP_SWEEP_FAIL_shadow g, b2n shadow), (Reg.SP_SWEEP_FAIL_row g, if shadow then f.row else strip * 32 + f.row),
    (Reg.SP_SWEEP_FAIL_col g, f.col), (Reg.SP_SWEEP_FAIL_bit g, f.bit), (Reg.SP_SWEEP_FAIL_element g, f.element)]).inc
    (Reg.SP_SWEEP_CTRL_fail_count g)

/-- The March runs of one strip, in order: each failing run is recorded and repaired, and the March runs again
(R140). The runs end with the first that passes, or with spares running out; then the bank is unrepairable, a fence
condition, and the repairs made stay. -/
def State.marchRuns (s : State) (c k strip : Nat) (shadow : Bool) : List (List MarchFail) → State
  | [] => s
  | [] :: _ => s
  | (f :: fs) :: more =>
    let s := s.sweepFail c k strip shadow f
    let g := gOf c
    let r := assignSpares (s.bank c k).repairs (repairTargets (if shadow then 0 else strip) (f :: fs))
    let s := (s.modBank c k fun b => { b with repairs := r.1 }).fieldRepairs c k (r.1.drop (s.bank c k).repairs.length)
    let rec0 := { Cairn.blank 0x05 1 k c (s.logicalOf c) ((if shadow then f.row else strip * 32 + f.row) * 128) with
      regs := s.regWords [(Reg.SP_SWEEP_FAIL_valid g).off] }
    if r.2 then
      let s := s.set (Reg.SP_SWEEP_FAIL_repaired g) (b2n (match more with | [] => true | [] :: _ => true | _ => false))
      State.marchRuns (s.stageCairn { rec0 with regs := s.regWords [(Reg.SP_SWEEP_FAIL_valid g).off] }) c k strip shadow more
    else
      let s := s.set (Reg.SP_SWEEP_FAIL_unrepairable g) 1
      let s := (s.stageCairn { rec0 with regs := s.regWords [(Reg.SP_SWEEP_FAIL_valid g).off] }).inc
        (Reg.BLK_STATUS_cell_fault_count (c / 32))
      let s := s.fenceAbove c 0x05
      s.report c (if s.flag (Reg.BLK_STATUS_block_fenced (c / 32)) then 0x09 else 0x05) 0

/-- A copied strip: words with an uncorrectable syndrome are stored as poison, corrected words are counted and
stored corrected, stored poison is counted (R129, R139 step 1). -/
def State.copyStrip (s : State) (c k strip : Nat) (bad : List EccEvent) : State :=
  (List.range 128).foldl (fun s i =>
    let o := k * 0x100000 + strip * 4096 + 32 * i
    let w := spWord c o
    let r := s.readWord c o 3 bad
    let poison := if r.1.poison then NSet.add s.mem.spPoison w else s.mem.spPoison
    { r.2 with mem := { s.mem with spPoison := poison } }) s

/-- Banks of a region that the sweep visits: those of cells not fenced (R142). -/
def State.sweptBanks (s : State) (g : Nat) : List (Nat × Nat) :=
  ((regionCells g).filter fun c => !s.fenced c).flatMap fun c => (List.range (bankCount c)).map fun k => (c, k)

/-- Period of the sweep in s, as `SP_SWEEP_CTRL` holds it. -/
def State.sweepPeriod (s : State) (g : Nat) : Nat := s.get (Reg.SP_SWEEP_CTRL_period g)

/-- The next strip of a bank is swept (R139, R140): position 256 is the shadow strip's own run, which ends a pass; a
region's pass ends with the last of its banks (R143). -/
def State.sweepStrip (s : State) (c k : Nat) (runs : List (List MarchFail)) (bad : List EccEvent) : State :=
  let b := s.bank c k
  let g := gOf c
  if b.strip < 256 then
    let s := s.copyStrip c k b.strip bad
    (s.marchRuns c k b.strip false runs).modBank c k fun x => { x with strip := b.strip + 1, atT := s.now }
  else
    let s := (s.marchRuns c k 0 true runs).modBank c k fun x => { x with strip := 0, passes := b.passes + 1 }
    let all := s.sweptBanks g
    let done := fun (s : State) (n : Nat) => all.all fun p => decide (n < (s.bank p.1 p.2).passes)
    when (done s b.passes && all.any fun p => (s.bank p.1 p.2).passes == b.passes + 1)
      (fun s => s.wrap (Reg.SP_SWEEP_CTRL_pass_count g)) s

/-- SWEEP_STRIP (R138, R139): in READY and RUNNING, with the sweep enabled and the cell not fenced, the next strip is
tested when period / 256 has passed since the last; the shadow strip's run follows the last strip at once. -/
def execSweepStrip (c : CellAddr) (bank : Nat) (runs : List (List MarchFail)) (bad : List EccEvent) (s : State) : Res :=
  let a := c.toNat
  onUnit (cellValid a ∧ bank < bankCount a) a s fun s =>
    let b := s.bank a bank
    when ((s.isIn .ready || s.isIn .running) && s.flag (Reg.SP_SWEEP_CTRL_enable (gOf a)) && !s.fenced a
        && s.get (Reg.REGION_THERMAL_tstate (gOf a)) < 2
        && (b.strip == 256 || b.atT + s.sweepPeriod (gOf a) * 1000000000 / 256 ≤ s.now))
      (fun s => s.sweepStrip a bank runs bad) s

end Sys2Proof.Machine
end

