-- ==== Sys2Proof/Machine/Scenes.lean ====
section
/-! DEFINITION. Scenes, beats and fold schedules (R205, R206, R211-R216), the waits of R292 and R200. -/

namespace Sys2Proof.Machine

/-- The fold record of a group in the loaded package. -/
def State.fold (s : State) (g : Nat) : Option FoldRec := s.pkg.bind fun p => p.pkg.folds[g]?

/-- Scene barrier object of a group (Table 8.4). -/
def State.sceneBarrier (s : State) (g : Nat) : Nat := match s.fold g with | some f => f.barrier | none => 0xFFFF

/-- Entry i of a cell's fold schedule (Table 8.5a). -/
def SceneSt.entryWord (x : SceneSt) (i : Nat) : Nat := (nth x.sched i 0).toNat

/-- Cast entry of a logical cell (Table 8.6); 0 where none is placed. -/
def State.castOf (s : State) (l : Nat) : Nat := match s.pkg with | some p => SMap.getD p.cast l 0 | none => 0

/-- Physical address of a logical cell, none when the address names no cell (R218). -/
def State.physical (s : State) (l : Nat) : Option Nat :=
  let e := s.castOf l
  if cellValid l ∧ bitAt e 22 then some (bits e 0 16) else none

/-- Whether the loaded package runs in Paired service. -/
def State.paired (s : State) : Bool := s.flag Reg.SERVICE_MODE_loaded_paired

/-- The twin of a logical cell address (R278). -/
def twinOf (c : Nat) : Nat := (11 - c >>> 12) <<< 12 + (11 - bits c 8 4) <<< 8 + (7 - bOf c) <<< 5 + cOf c

/-- Whether a logical cell lies in the primary half: die rows 0-5 (R278). -/
def isPrimary (c : Nat) : Bool := c >>> 12 ≤ 5

/-- Physical cells that a delivery to a physical cell reaches: in Paired service a primary's twin takes it too (R280). -/
def State.copies (s : State) (c : Nat) : List Nat :=
  let l := s.logicalOf c
  if s.paired ∧ l ≠ 0xFFFF ∧ isPrimary l then
    match s.physical (twinOf l) with
    | some t => [c, t]
    | none => [c]
  else [c]

/-- Whether a hub unit or host ring feeds a channel: its messages to a primary cell go to the twin too (R280). -/
def ChanSt.isHubFed (ch : ChanSt) : Bool := match ch.send with | some e => 0xF000 ≤ e.unit | none => false

/-- Whether a channel's end at this side is endpoint n of a cell; a channel that a hub unit feeds ends at the twin too (R280). -/
def State.endsAt (s : State) (ch : ChanSt) (c n : Nat) (sends : Bool) : Bool :=
  ch.live && !ch.draining && ch.next.isNone &&
    (if sends then ch.send == some ⟨c, n⟩
      else match ch.recv with
        | some e => e.ep == n && (e.unit == c || (ch.isHubFed && (s.copies e.unit).contains c))
        | none => false)

/-- Handle of the live channel that ends at endpoint n of a cell under record `r` (Table 7.3, R204): of the channel that `chan` names in
the package's table, or for an `open` endpoint of the one created there; 0 when none. -/
def State.handleAt (s : State) (c n r : Nat) : Nat :=
  let named := match s.pkg with | some p => hIndex (nth p.handles (epChan r) 0) | none => 0
  if !epOpen r && s.endsAt (s.chan named) c n (epSends r) then handleOf named (s.chan named)
  else match s.chans.find? fun p => (epOpen r || epKind r == 2) && s.endsAt p.2 c n (epSends r) with
    | some p => handleOf p.1 p.2
    | none => 0

/-- Messages an endpoint holds, for the drop count of a scene change (R205). -/
def State.heldMsgs (s : State) (c n : Nat) : Nat :=
  let e := s.ep c n
  (e.recs.filter fun r => !r.pad).length + e.wing.length + ((s.aux c n).slots.filter fun p => p.2.count ≠ 0).length

/-- Restore in full the credit of the sender that feeds a receiving endpoint (R205), a hub unit's too. -/
def State.refillSender (s : State) (c n : Nat) : State :=
  let r := (s.ep c n).cfg
  s.chans.foldl (fun s p =>
    match p.2.send with
    | some e =>
      if !(p.2.live && p.2.recv == some ⟨c, n⟩) then s
      else if 0xF000 ≤ e.unit then
        { s with hub := { s.hub with eps := SMap.upd s.hub.eps p.1 ⟨0, 0, []⟩ fun x =>
            { x with credit := epStorage r + epWingGran r, tail := 0 } } }
      else if (s.ep e.unit e.ep).handle = handleOf p.1 p.2 then
        s.modEp e.unit e.ep fun x => { x with credit := epStorage r + epWingGran r, tail := 0, limit := epSlots r }
      else s
    | none => s) s

/-- Configure endpoint n for a new image (R205): the same channel with the same configuration keeps contents, credit
and tags (a gate restarts, a chorus window restarts); any other is emptied, its messages counted as drops, and the
channel's credit is restored in full. -/
def State.loadEp (s : State) (c : Nat) (im : SceneImage) (n : Nat) : State :=
  let r := im.epRec n
  let old := s.ep c n
  if epKind r = 0 ∧ epKind old.cfg = 0 then s
  else
    let h := s.handleAt c n r
    if old.cfg = r ∧ old.handle = h ∧ epKind r ≠ 2 then
      s.modAux c n fun a => { a with gateTag := 0, gateStopped := false, skewSince := none, timeout := none }
    else
      let k := s.heldMsgs c n
      let s := s.modEp c n fun e => { e with cfg := r, dropped := satAdd 48 e.dropped k }
      let s := s.freshEp c n h
      if epSends r ∨ epKind r = 0 then s else s.refillSender c n

/-- Static grants of an image, writers mapped through the cast (R133, R218). -/
def State.imageGrants (s : State) (im : SceneImage) : List Grant :=
  (List.range 32).filterMap fun n =>
    let g := im.grantRec n
    if bitAt g.1 0 then
      some ⟨winBank g.1, winOffset g.1, winLength g.1, (s.physical (bits g.2 0 16)).getD 0xFFFF⟩
    else none

/-- Dynamic windows of an image, all FREE (R134). -/
def imageWins (im : SceneImage) : SMap Win :=
  (List.range 8).filterMap fun n =>
    let w := im.winRec n
    if bitAt w.1 0 then some (n, ⟨w.1, .free, 0xFFFF, 0, 0⟩) else none

/-- Load the scene of a schedule entry from the scene store (R214): engine registers cleared, counts restarted,
endpoints, grants and windows of the new image in force. Without the image in the store the cell waits for a refill
(R215). -/
def State.sceneLoad (s : State) (c entry : Nat) : State :=
  let x := (s.cell c).scene
  let e := x.entryWord entry
  match x.store.find? fun im => im.sceneNo == seScene e with
  | none => s.modScene c fun x => { x with phase := .refill, entry := entry }
  | some im =>
    let s := ((List.range 32).foldl (fun s n => s.loadEp c im n) s).watch
    let s := { s with mem := { s.mem with lastStrip := s.mem.lastStrip.filter fun p => p.1 / 8 != c } }
    s.modCell c fun y =>
      { y with
          eng := { y.eng with pc := 0, run := 0, cause := 0, beats := 0, wait := .none, barStall := none }
          v := .init, sc := .init, m := .init
          grants := { y.grants with static := s.imageGrants im, wins := imageWins im }
          rh := { y.rh with tallies := [] }
          scene := { y.scene with
            phase := if seActGate e then .gated else .ready
            entry := entry, beatsLeft := seBeats e, cur := some im, loadedAt := s.now, loadedClk := s.clocks (gOf c), entryDone := false } }

/-- An uncorrectable read of a cell's scene store, while it is loaded or run: a fence condition (R129, R207). -/
def State.storeFault (s : State) (c : Nat) : State :=
  (s.stageCairn (Cairn.blank 0x04 0 0 c (s.logicalOf c) 0)).fenceCell c 0x04

/-- Whether a cell may run: RUNNING, playing a logical cell, not fenced, its region neither in GHOST nor CUT. -/
def State.mayRun (s : State) (c : Nat) : Bool :=
  s.isIn .running && !s.fenced c && s.get (Reg.REGION_THERMAL_tstate (gOf c)) < 2 && (s.cell c).scene.playing

/-- Start a beat (R211): the program counter or descriptor index at 0, and FILLED windows with `auto_free` back to
FREE (R135). -/
def State.beatStart (s : State) (c : Nat) : State :=
  (s.autoFree c).modCell c fun x =>
    { x with
        eng := { x.eng with pc := 0, run := 1, wait := .none, progressAt := s.now }
        m := { x.m with desc := 0, phase := .idle }
        scene := { x.scene with phase := .inBeat } }

/-! ### Load grants (R263) -/

/-- Every descriptor of a porter: the one it runs and those that wait. -/
def PorterSt.all (x : PorterSt) : List Desc := x.run.toList ++ x.queue

/-- Whether a descriptor is one of a load, a reload, a refill or a belay of firmware (its ticket is 1). -/
def Desc.isLoad (d : Desc) : Bool := d.owner == 0 && d.ticket == 1

/-- Whether a copy of firmware is still to complete, or its packets into the field are still to be accepted. -/
def State.fwBusy (s : State) : Bool :=
  s.hub.fw.any Desc.isLoad || s.hub.porters.any (fun q => q.2.all.any Desc.isLoad) ||
    (s.mesh.tp.any fun q => !q.2.waiting.isEmpty || !q.2.unacked.isEmpty) || s.cells.any fun q => !q.2.port.writes.isEmpty

/-- Firmware removes the load grants (R263, R310). -/
def State.dropLoadGrants (s : State) : State :=
  { s with cells := SMap.mapVal (fun _ x => { x with grants := { x.grants with load := [] } }) s.cells
           pkg := s.pkg.map fun (p : Loaded) => { p with loading := false } }

/-- Whether the package's weights are still being loaded. -/
def State.loading (s : State) : Bool := s.fwBusy && match s.pkg with | some p => p.loading | none => false

/-- BEAT_START (R211): a cell ready for a beat starts it; a cell between scenes first has its new scene in force
(R214, R215; log 24). The first beat waits until the package's weights are in the banks, and firmware then removes the load grants (R263;
log 129). `store`: that load meets an uncorrectable word of the store (R207). -/
def execBeatStart (c : StoreRead) (s : State) : Res :=
  let a := c.cell.toNat
  onCell c.cell s fun s =>
    if s.mayRun a ∧ !s.loading then
      let s := if s.pkg.any (·.loading) then s.dropLoadGrants else s
      if (s.cell a).scene.phase = .changing ∧ c.store then s.storeFault a
      else
      let s := if (s.cell a).scene.phase = .changing then
          s.sceneLoad a (seNext ((s.cell a).scene.entryWord (s.cell a).scene.entry)) else s
      let x := (s.cell a).scene
      if x.phase = .ready ∧ !x.entryDone then s.beatStart a else s
    else s

/-- The end of a beat (R211-R213): counted; with `beats` = 0 a cue on `end_ep` is consumed and ends the entry,
otherwise another beat follows; with a count, the entry ends with its last beat. -/
def State.beatEnd (s : State) (c : Nat) (ecc : List EccEvent) : State :=
  let s := s.modCell c fun x =>
    { x with eng := { x.eng with run := 4, beats := (x.eng.beats + 1) % 2 ^ 24, wait := .none, beatAt := s.now }
             scene := { x.scene with phase := .ready } }
  let s := { s with rcv := { s.rcv with periodBeat := true } }
  let x := (s.cell c).scene
  if seBeats (x.entryWord x.entry) = 0 then
    match x.cur with
    | some im =>
      if im.endValid ∧ s.hasMsg c im.endEp then
        let q := s.readCue c im.endEp ecc
        if q.2.fenced c then q.2
        else (q.2.takeCue c im.endEp).modScene c fun x => { x with entryDone := true }
      else s
    | none => s
  else
    s.modScene c fun x => { x with beatsLeft := x.beatsLeft - 1, entryDone := x.beatsLeft ≤ 1 }

/-- Arrive at a barrier (R172, R192): an arrival item of the cell's next generation. -/
def State.arrive (s : State) (c obj : Nat) : State :=
  let b := SMap.getD (s.cell c).bars obj ⟨0, 0⟩
  (s.modCell c fun x => { x with bars := SMap.put x.bars obj { b with arrived := b.arrived + 1 } }).sendItem
    ⟨4, 0, c, 0, c, 0, 0, obj + (b.arrived % 2) <<< 12, 0⟩

/-- Whether a cell's latest arrival at a barrier has completed. -/
def State.barDone (s : State) (c obj : Nat) : Bool :=
  let b := SMap.getD (s.cell c).bars obj ⟨0, 0⟩
  b.arrived ≤ b.done

/-- SCENE_BARRIER_ARRIVAL (R214): a cell that has run its last beat of an entry arrives at its group's scene
barrier. -/
def execSceneBarrierArrival (c : CellAddr) (s : State) : Res :=
  let a := c.toNat
  onCell c s fun s =>
    let x := (s.cell a).scene
    when (s.mayRun a && x.phase == .ready && x.entryDone) (fun s =>
      (s.modCell a fun y =>
        { y with scene := { y.scene with phase := .atBarrier }
                 eng := { y.eng with run := 3, wait := .barrier (s.sceneBarrier x.group), waitAt := s.now } }).arrive a
        (s.sceneBarrier x.group)) s

/-- A barrier's completion reaches a member cell (R172, R190, R214); a fenced one's crossing discards it (R16). It ends the stall of a cell
that waits at this barrier (R200). -/
def State.barrierAt (s : State) (c obj : Nat) : State :=
  if s.fenced c then s.inc (Reg.BLK_STATUS_fenced_drop_count (c / 32))
  else
  let b := SMap.getD (s.cell c).bars obj ⟨0, 0⟩
  let s := (s.modCell c fun x =>
    { x with bars := SMap.put x.bars obj { b with done := b.done + 1 }
             eng := { x.eng with barStall := if x.eng.wait = .barrier obj then none else x.eng.barStall } }).watch
  let s := (List.range 32).foldl (fun s n =>
    let r := (s.ep c n).cfg
    if epKind r = 2 ∧ !epSends r ∧ epCount r = 0 ∧ epRelBarrier r = obj then s.chorusBarrier c n else s) s
  let x := (s.cell c).scene
  if x.phase = .atBarrier ∧ obj = s.sceneBarrier x.group then
    s.modCell c fun y =>
      { y with scene := { y.scene with phase := .changing }, eng := { y.eng with wait := .none, run := 0 } }
  else s

/-- BARRIER_STALL (R200): a cell has waited at a barrier for `stall_limit`. -/
def execBarrierStall (c : CellAddr) (s : State) : Res :=
  let a := c.toNat
  onCell c s fun s =>
    let e := (s.cell a).eng
    match e.wait with
    | .barrier _ => when (s.isIn .running ∧ e.waitAt + s.stallNs ≤ s.now)
        (fun s => (s.modEng a fun e => { e with barStall := some (e.barStall.getD s.now) }).watch) s
    | _ => s

/-- PROGRESS_STUCK (R292): within a beat, waiting on nothing, no progress for `stall_limit` while another member of
the fold group has ended a beat: a fence condition of code 0x08. -/
def execProgressStuck (c : CellAddr) (s : State) : Res :=
  let a := c.toNat
  onCell c s fun s =>
    let x := s.cell a
    when (s.mayRun a && x.scene.phase == .inBeat && x.eng.wait == .none && x.eng.progressAt + s.stallNs ≤ s.now &&
        s.cells.any fun p => p.1 != a && p.2.scene.playing && p.2.scene.group == x.scene.group &&
          x.eng.progressAt < p.2.eng.beatAt)
      (fun s => s.fenceCell a 0x08) s

end Sys2Proof.Machine
end

