-- ==== Sys2Proof/Machine/Mesh.lean ====
section
/-! DEFINITION. The mesh: slot periods and circuits, packets, the side lane, seams, barriers and flags (spec/06,
R145-R165, R170-R176). -/

namespace Sys2Proof.Machine

/-! ### Rigging tables (Table 6.6) -/

/-- The variant in force at a crossing. -/
def XrSt.cur (x : XrSt) : Variant := nth x.variants x.variant ⟨[], [], []⟩
/-- Slot entry of an output. -/
def slotEntry (v : Variant) (out e : Nat) : Nat := SMap.getD v.slots (out * 64 + e) 0
/-- Stage configuration of an input port. -/
def stageEntry (v : Variant) (inPort st : Nat) : Nat := SMap.getD v.stages (inPort * 16 + st) 0
/-- Receive-map entry of a seam input. -/
def rxEntry (v : Variant) (inPort e : Nat) : Nat := SMap.getD v.rx (inPort * 32 + e) 0

/-- Slot entry: belongs to a circuit. -/
def slotUsed (e : Nat) : Bool := bitAt e 0
/-- Slot entry: input port * 16 + stage. -/
def slotKey (e : Nat) : Nat := bits e 1 4 * 16 + bits e 5 4
/-- Stage configuration: outputs that take each flit. -/
def stageMask (e : Nat) : Nat := if bitAt e 0 then bits e 1 11 else 0

/-- Slots of an output's table (Table 6.2). -/
def slotCount (b out : Nat) : Nat := if out < 4 ∧ isSeam b out then 32 else 64

/-- Outputs that a mask names. -/
def maskOuts (m : Nat) : List Nat := indices 11 (bitAt m)

/-- The slots of an output that name a stage. -/
def slotsOf (v : Variant) (out key : Nat) : List Nat :=
  indices 64 fun e => slotUsed (slotEntry v out e) && slotKey (slotEntry v out e) == key

/-- The stage at the next crossing that takes a flit of a circuit leaving by an output: the hop of the circuit's
path there (R156). -/
def State.nextStage (s : State) (b out : Nat) (f : Flit) : Nat :=
  match s.pkg, neighbour b out with
  | some p, some n =>
    match (nth p.circuits f.chan ⟨[], 0, 0⟩).path.find? fun h => h.blk == n && h.inPort == opp out with
    | some h => h.stage
    | none => f.stage
  | _, _ => f.stage

/-! ### Credit (R157, R174): free places behind an output, those in flight counted -/

/-- Flits of one virtual channel (and one stage) on the wires. -/
def WireSt.load (w : WireSt) (vc : Nat) (stage : Option Nat) : Nat :=
  (w.flits.filter fun f => f.vc == vc && (match stage with | some k => f.stage == k | none => true)).length

/-- Whether the stage behind an output has a free place; the local port of a cell whose clock stands takes nothing (R26). -/
def State.stageRoom (s : State) (b out st : Nat) : Bool :=
  if 4 ≤ out then decide (out ≤ 10) && !s.gated (b * 32 + (out - 4))
  else s.linkUp b out && match neighbour b out with
    | some n => !s.regionCut (bkG n) &&
        (SMap.getD (s.xr n).stages (opp out * 16 + st) ⟨[], 0⟩).flits.length + (s.wire (b * 4 + out)).load 0 (some st) < 2
    | none => (hubPort b out).isSome

/-- Whether a cell's local port takes packets: not while its clock stands (R26), nor while it holds a write between scenes (R214). -/
def State.portOpen (s : State) (c : Nat) : Bool :=
  !s.gated c && !(decide ((s.cell c).scene.phase = .changing) && !(s.cell c).port.writes.isEmpty)

/-- Whether the packet buffer behind an output has a free place for a flit. -/
def State.pktRoom (s : State) (b out : Nat) (f : Flit) : Bool :=
  if 4 ≤ out then decide (out ≤ 10) && (f.control || s.portOpen (b * 32 + (out - 4)))
  else s.linkUp b out && match neighbour b out with
    | some n => !s.regionCut (bkG n) &&
        (SMap.getD (s.xr n).vc1 (opp out) .init).flits.length + (s.wire (b * 4 + out)).load 1 none < 16
    | none => (hubPort b out).isSome

/-- Whether the virtual-channel-3 buffer behind an output has a free place. -/
def State.vc3Room (s : State) (b out : Nat) : Bool :=
  if 4 ≤ out then out ≤ 10
  else s.linkUp b out && match neighbour b out with
    | some n => !s.regionCut (bkG n) &&
        (SMap.getD (s.xr n).vc3 (opp out) []).length + (s.wire (b * 4 + out)).load 3 none < 4
    | none => (hubPort b out).isSome

/-- Whether the side-lane buffer behind an output has a free place; none in a frozen field (R299). -/
def State.itemRoom (s : State) (b out : Nat) : Bool :=
  if s.frozen then false
  else if 4 ≤ out then decide (out ≤ 10) && !s.gated (b * 32 + (out - 4))
  else s.linkUp b out && match neighbour b out with
    | some n => !s.regionCut (bkG n) &&
        (SMap.getD (s.xr n).vc2 (opp out) []).length + (s.wire (b * 4 + out)).items.length < 8
    | none => (hubPort b out).isSome

/-! ### Arrival at a port -/

/-- Granules that the flits of one message carry. -/
def flitGrans (fs : List Flit) : List Gran :=
  fs.flatMap fun f => (List.range f.n).map fun i =>
    ⟨(f.data.drop (32 * i)).take 32, bitAt f.poison i⟩

/-- A flit of a circuit, after `fs`, reaches a unit: its message, when it is whole, goes to every channel of the circuit that ends there
(R160, R177); to a chorus endpoint each flit goes at once (R56). -/
def State.circuitFlit (s : State) (unit : Nat) (fs : List Flit) (f : Flit) : State :=
  let whole := fs ++ [f]
  let n := (flitGrans fs).length
  s.chans.foldl (fun s p =>
    match p.2.recv with
    | some e =>
      if p.2.live ∧ p.2.circuit = some f.chan ∧ (e.unit = unit ∨ (unit = 0xFFFF ∧ 0xF000 ≤ e.unit)) then
        let h := handleOf p.1 p.2
        let msg : Msg := ⟨h, 0, f.epoch, f.pad, flitGrans whole, 0, true⟩
        if 0xF000 ≤ e.unit then
          if f.tail then { s with mesh := { s.mesh with hubMsgs := s.mesh.hubMsgs ++ [msg] } } else s
        else if epKind (s.ep e.unit e.ep).cfg = 2 then s.deliverMsg e.unit e.ep ⟨h, 0, f.epoch, 0, flitGrans [f], n, f.tail⟩
        else if f.tail then s.deliverMsg e.unit e.ep msg
        else s
      else s
    | none => s) s

/-- The flits of a message or packet that arrived before this one: none before its head; a later flit whose head was lost belongs to
nothing (R150; log 122). -/
def before {α : Type} (f : Flit) (fs : List α) : Option (List α) := if f.head then some [] else if fs.isEmpty then none else some fs

/-- A packet is whole at a cell's local port: packets from hub units belong to the base-camp transport (R168). -/
def State.packetAt (s : State) (c : Nat) (p : Packet) : State :=
  if 0xF000 ≤ p.src ∧ !p.mcast then s.modTp (c / 32) false fun t => { t with inq := t.inq ++ [p] }
  else s.modPort c fun q => { q with pkts := q.pkts ++ [p] }

/-- The pieces of a packet, put together at its tail. -/
def joinPacket (ps : List (List Byte × Nat × Bool)) : Packet :=
  Packet.ofBytes (ps.flatMap (·.1)) (ps.any fun x => x.2.2)

/-- What is kept of a packet's flits after one more: the flits not yet whole, and the packet at its tail. A head that finds flits of a
packet whose tail was lost sends that packet on as it is: it fails its checks (R150, R168). -/
def packetFlit (ps : List (List Byte × Nat × Bool)) (f : Flit) : List (List Byte × Nat × Bool) × List Packet :=
  let cut := if f.head ∧ !ps.isEmpty then [joinPacket ps] else []
  match before f ps with
  | none => ([], cut)
  | some ps =>
    let ps := ps ++ [(f.data, f.poison, f.linkErr)]
    if f.tail then ([], cut ++ [joinPacket ps]) else (ps, cut)

/-- A flit leaves by a local port (R16: the crossing discards and counts what a fenced cell is sent). -/
def State.localFlit (s : State) (c : Nat) (f : Flit) : State :=
  if s.fenced c ∧ !f.control then s.inc (Reg.BLK_STATUS_fenced_drop_count (c / 32))
  else match f.vc with
    | 0 =>
      match before f (SMap.getD (s.cell c).port.part f.chan []) with
      | none => s
      | some fs => (s.modPort c fun p => { p with part := putList p.part f.chan (if f.tail then [] else fs ++ [f]) }).circuitFlit c fs f
    | 1 =>
      let r := packetFlit (s.cell c).port.pktPart f
      r.2.foldl (fun s p => s.packetAt c p) (s.modPort c fun p => { p with pktPart := r.1 })
    | _ => s

/-- A flit arrives at the hub end of a hub port. -/
def State.hubFlit (s : State) (port : Nat) (f : Flit) : State :=
  match f.vc with
  | 0 =>
    match before f (SMap.getD s.mesh.hubFlits f.chan []) with
    | none => s
    | some fs =>
      State.circuitFlit { s with mesh := { s.mesh with hubFlits := putList s.mesh.hubFlits f.chan (if f.tail then [] else fs ++ [f]) } }
        0xFFFF fs f
  | 1 =>
    let r := packetFlit (SMap.getD s.mesh.hubPart port []) f
    r.2.foldl (fun s p => s.modTp (p.src / 32) true fun t => { t with inq := t.inq ++ [p] })
      { s with mesh := { s.mesh with hubPart := putList s.mesh.hubPart port r.1 } }
  | _ => s

/-- A flit arrives at an input port of a crossing. -/
def State.flitAt (s : State) (b port : Nat) (f : Flit) : State :=
  match f.vc with
  | 0 => s.modXr b fun x => { x with stages := SMap.upd x.stages (port * 16 + f.stage) ⟨[], 0⟩ fun q =>
      { q with flits := q.flits ++ [f] } }
  | 1 => s.pushFlits b port [f]
  | _ => s.modXr b fun x => { x with vc3 := SMap.upd x.vc3 port [] (· ++ [f]) }

/-- A flit leaves by an output (Table 6.2): to the local port, the neighbouring crossing, or the wires of a seam. -/
def State.flitOut (s : State) (b out : Nat) (f : Flit) : State :=
  if 4 ≤ out then s.localFlit (b * 32 + (out - 4)) f
  else if isSeam b out then
    s.modWire (b * 4 + out) fun w => { w with flits := w.flits ++ [{ f with due := s.now + 3, atT := s.now }] }
  else match neighbour b out with
    | some n => s.flitAt n (opp out) { f with due := s.now, atT := s.now }
    | none => s

/-! ### Circuits (R153, R157, R159, R160) -/

/-- The flit that the circuit of a slot sends in it: its stage has a flit that this output has not taken, and the
next stage has credit. -/
def State.slotFlit (s : State) (b out slot : Nat) : Option (Nat × Flit) :=
  let v := (s.xr b).cur
  let e := slotEntry v out slot
  if slotUsed e then
    let q := SMap.getD (s.xr b).stages (slotKey e) ⟨[], 0⟩
    match q.flits with
    | f :: _ =>
      if bitAt (stageMask (SMap.getD v.stages (slotKey e) 0)) out && !bitAt q.taken out && s.stageRoom b out (s.nextStage b out f)
      then some (slotKey e, f) else none
    | [] => none
  else none

/-- A receiving bridge that frees a place returns its credit on the other direction of the link (R148): the `credit` field of Table 6.3
for a stage, or for virtual channel 1. -/
def State.creditBack (s : State) (b inPort : Nat) (vc1 : Bool) (stage : Nat) : State :=
  if inPort < 4 ∧ isSeam b inPort then
    s.modWire (b * 4 + inPort) fun w => { w with credits := w.credits ++ [1 + (b2n vc1) <<< 1 + stage <<< 2] }
  else s

/-- An output takes the first flit of a stage; the place is free once every output of `out_mask` has taken it. -/
def StageBuf.take (q : StageBuf) (mask out : Nat) : StageBuf :=
  let t := q.taken ||| 2 ^ out
  if t &&& mask == mask then ⟨q.flits.drop 1, 0⟩ else ⟨q.flits, t⟩

/-- Whether a slot that starts every 32 ns at `off` starts in [lo, hi). -/
def startsIn (off lo hi : Nat) : Bool := lo < hi && (lo + 32 <= hi || (off + 32 - lo % 32) % 32 < hi - lo)

/-- Whether a flit reached its stage after its slot had started (R159): the slot is the first of its circuit at or after the guard of 8
mesh cycles from its nominal arrival (R158). -/
def lateFlit (v : Variant) (b out key : Nat) (f : Flit) : Bool :=
  (slotsOf v out key).any fun e => startsIn (if slotCount b out = 32 then e else e / 2) (f.due + 4) f.atT

/-- The slot carries its circuit's flit; a late one is counted once, whichever branches take it. -/
def State.slotMove (s : State) (b out key : Nat) (f : Flit) : State :=
  let x := s.xr b
  let mask := stageMask (SMap.getD x.cur.stages key 0)
  let q := SMap.getD x.stages key ⟨[], 0⟩
  let s := if q.taken == 0 && (maskOuts mask).any fun o => lateFlit x.cur b o key f then s.inc (Reg.XR_COUNTS_late_count b) else s
  let s := if (q.take mask out).taken = 0 then s.creditBack b (key / 16) false (key % 16) else s
  (s.modXr b fun x => { x with stages := SMap.put x.stages key (q.take mask out) }.fillStage key).flitOut b out
    { f with stage := s.nextStage b out f }

/-- Input ports whose first packet is routed to an output that has not taken its first flit yet. -/
def XrSt.pktSources (x : XrSt) (out : Nat) : List Nat :=
  indices 11 fun p =>
    let q := SMap.getD x.vc1 p .init
    !q.flits.isEmpty && bitAt q.route out && !bitAt q.taken out

/-- The input port an output serves: the packet in progress; else the arbiter's pick, or the lowest port that has one
(the order among inputs is not given: the command carries it). -/
def XrSt.pktPick (x : XrSt) (out pick : Nat) : Option Nat :=
  let src := x.pktSources out
  match SMap.getD x.inProgress out 0 with
  | 0 => if src.contains pick then some pick else src.head?
  | k + 1 =>
    -- a packet whose tail was lost holds the output no longer than its input's route names it
    let r := (SMap.getD x.vc1 k .init).route
    if src.contains k then some k else if r = 0 ∨ bitAt r out then none
    else if src.contains pick then some pick else src.head?

/-- An output takes the first flit of a packet buffer; after the tail, or before another head where the tail was lost, the next packet
of the buffer is not yet routed. -/
def PktBuf.take (q : PktBuf) (out : Nat) : PktBuf :=
  let t := q.taken ||| 2 ^ out
  if t &&& q.route == q.route then
    let rest := q.flits.drop 1
    let ends := (q.flits.head?.map (·.tail)).getD false || (rest.head?.map (·.head)).getD false
    { q with flits := rest, taken := 0, route := if ends then 0 else q.route }
  else { q with taken := t }

/-- The slot carries a packet flit. -/
def State.pktMove (s : State) (b out inPort : Nat) : State :=
  let q := SMap.getD (s.xr b).vc1 inPort .init
  match q.flits with
  | f :: _ =>
    let s := if (q.take out).flits.length < q.flits.length then s.creditBack b inPort true 0 else s
    (s.modXr b fun x =>
      { x with vc1 := SMap.put x.vc1 inPort (q.take out)
               inProgress := SMap.put x.inProgress out (if f.tail then 0 else inPort + 1) }.fillPkts inPort).flitOut b out f
  | [] => s

/-- The packet flit that an output can take: its input port. -/
def State.pktNext (s : State) (b out pick : Nat) : Option Nat :=
  ((s.xr b).pktPick out pick).filter fun p =>
    match (SMap.getD (s.xr b).vc1 p .init).flits with
    | f :: _ => s.pktRoom b out f
    | [] => false

/-- The input port whose first virtual-channel-3 flit leaves by an output: its `chan` names the unit it goes to. -/
def XrSt.vc3Pick (x : XrSt) (b out : Nat) : Option Nat :=
  (List.range 11).find? fun p =>
    match SMap.getD x.vc3 p [] with
    | f :: _ => route x b f.chan x.home == out
    | [] => false

/-- The slot carries a virtual-channel-3 flit. -/
def State.vc3Move (s : State) (b out inPort : Nat) : State :=
  match SMap.getD (s.xr b).vc3 inPort [] with
  | f :: fs =>
    (s.modXr b fun x => { x with vc3 := SMap.put x.vc3 inPort fs, lastVc3 := SMap.put x.lastVc3 out (s.now + 1) }).flitOut b out f
  | [] => s

/-- What an output carries in a slot: the first that applies of R153. -/
def State.slotCarry (s : State) (b out slot pick : Nat) : State :=
  let x := s.xr b
  match s.slotFlit b out slot with
  | some (key, f) => s.slotMove b out key f
  | none =>
    let last := SMap.getD x.lastVc3 out 0
    let v3 := if s.vc3Room b out then x.vc3Pick b out else none
    match v3, last == 0 || decide (last + 511 ≤ s.now) with
    | some p, true => s.vc3Move b out p
    | _, _ =>
      match s.pktNext b out pick, v3 with
      | some p, _ => s.pktMove b out p
      | none, some p => s.vc3Move b out p
      | none, none => s

/-- Whether the crossings of a block run: not in a frozen field (R299), in CUT or a lost region whose crossings are out of service (R165), and under ghost light only in every second period (R174, R407). -/
def State.slotRuns (s : State) (b : Nat) : Bool :=
  !s.frozen && !s.regionCut (bkG b) && (s.get (Reg.REGION_THERMAL_tstate (bkG b)) != 2 || s.now / 32 % 2 == 0)

/-- CIRCUIT_SLOT (R153): slot `slot` of an output. -/
def execCircuitSlot (blk out slot pick : Nat) (s : State) : Res :=
  onUnit (blkValid blk ∧ out ≤ 10 ∧ slot < slotCount blk out) blk s fun s =>
    when (s.slotRuns blk) (fun s => s.slotCarry blk out slot pick) s

/-! ### Slot periods and rigging changes (R155, R161) -/

/-- Apply one rewrite to the variant it names. -/
def editVariant (v : Variant) (e : RigEdit) : Variant :=
  match e.table with
  | 0 => { v with slots := SMap.put v.slots (e.port * 64 + e.index) e.value }
  | 1 => { v with stages := SMap.put v.stages (e.port * 16 + e.index) e.value }
  | _ => { v with rx := SMap.put v.rx (e.port * 32 + e.index) e.value }

/-- Apply the rewrites that wait at a crossing. -/
def XrSt.applyEdits (x : XrSt) : XrSt :=
  { x with
      variants := x.rewrites.foldl (fun vs e => setNth vs e.variant (editVariant (nth vs e.variant ⟨[], [], []⟩) e)) x.variants
      rewrites := [] }

/-- Whether the circuit of a stage has the same stage and slots in two variants. -/
def sameCircuit (v w : Variant) (key : Nat) : Bool :=
  SMap.getD v.stages key 0 == SMap.getD w.stages key 0 && bitAt (SMap.getD w.stages key 0) 0 &&
    (List.range 11).all fun out => slotsOf v out key == slotsOf w out key

/-- Take the new variant: flits of circuits that are not in both variants are discarded (R161). Answers the crossing
and how many flits went. -/
def XrSt.changeVariant (x : XrSt) : XrSt × Nat :=
  match x.nextVariant with
  | none => (x, 0)
  | some n =>
    let w := nth x.variants n ⟨[], [], []⟩
    let gone := x.stages.filter fun p => !sameCircuit x.cur w p.1
    ({ x with variant := n, nextVariant := none, stages := x.stages.filter fun p => sameCircuit x.cur w p.1 },
      (gone.map fun p => p.2.flits.length).sum)

/-- The start of a slot period at one crossing. -/
def State.periodAt (s : State) (b : Nat) : State :=
  let r := ((s.xr b).applyEdits).changeVariant
  (s.modXr b fun _ => { r.1 with periodAt := s.now / 32 }).inc (Reg.XR_COUNTS_rig_discard_count b) r.2

/-- SLOT_PERIOD_START (R155): once in every 32 ns of the house clock. -/
def execSlotPeriodStart (g : Nat) (s : State) : Res :=
  onRegion g s fun s =>
    when ((regionBlocks g).any fun b => (s.xr b).periodAt < s.now / 32) (fun s => (regionBlocks g).foldl State.periodAt s) s

/-- RIGGING_REWRITE (R161): rewrites wait for the start of the next period. -/
def execRiggingRewrite (edits : List RigEdit) (s : State) : Res :=
  .next (edits.foldl (fun s e =>
    if blkValid e.blk then s.modXr e.blk fun x => { x with rewrites := x.rewrites ++ [e] } else s) s)

/-! ### Packets (R163-R165, R170) -/

/-- The header of the packet whose head flit stands first in a buffer. -/
def headerOf (f : Flit) : Packet := Packet.ofBytes f.data f.linkErr

/-- Discard the first packet of a buffer: the flits here, and those still to come. -/
def PktBuf.drop (q : PktBuf) : PktBuf :=
  match q.flits with
  | [] => { q with route := 0, taken := 0 }
  | f :: fs =>
    let more := if f.tail then fs else fs.dropWhile fun g => !g.tail && !g.head
    let rest := match more with
      | g :: gs => if f.tail || g.head then more else gs
      | [] => []
    ⟨rest, 0, 0, !f.tail && more.isEmpty⟩

/-- Change the packet buffer of an input port. -/
def State.modPkt (s : State) (b port : Nat) (f : PktBuf → PktBuf) : State :=
  s.modXr b fun x => { x with vc1 := SMap.upd x.vc1 port .init f }

/-- Discard the first packet of an input port; the places of its flits are free. -/
def State.dropPkt (s : State) (b port : Nat) : State :=
  let q := SMap.getD (s.xr b).vc1 port .init
  let n := q.flits.length - q.drop.flits.length
  (List.range n).foldl (fun s _ => s.creditBack b port true 0)
    (s.modXr b fun x => { x with vc1 := SMap.put x.vc1 port q.drop }.fillPkts port)

/-- Whether an output leads nowhere for good: no link, a link that is down, a crossing out of service, or the hub hole for what is for the
field (R165). -/
def State.deadEnd (s : State) (b d : Nat) (toField : Bool) : Bool :=
  if 4 ≤ d then decide (10 < d)
  else match neighbour b d with
    | some n => s.regionCut (bkG n) || (isSeam b d && s.get (Reg.SEAM_STATUS_state (bkG b) (seamLink b d)) == 5)
    | none => (hubPort b d).isNone || toField || s.get (Reg.SEAM_STATUS_state (bkG b) (seamLink b d)) == 5

/-- Route the packet at the head of an input port: fix its output, or discard and count it (R16, R163, R165). -/
def State.routeHead (s : State) (b port : Nat) (f : Flit) : State :=
  let p := headerOf f
  let out := route (s.xr b) b p.dst (bits (p.w 2) 33 5)
  if 4 ≤ out ∧ out ≤ 10 ∧ s.fenced (b * 32 + (out - 4)) ∧ !f.control then (s.dropPkt b port).inc (Reg.BLK_STATUS_fenced_drop_count b)
  else if s.deadEnd b out (decide (p.dst < 0xF000)) then (s.dropPkt b port).inc (Reg.XR_COUNTS_unroutable_count b)
  else s.modPkt b port fun q => { q with route := 2 ^ out, taken := 0 }

/-- PACKET_HOP (R163): the head flit at an input port is routed. -/
def execPacketHop (blk inPort : Nat) (s : State) : Res :=
  onUnit (blkValid blk ∧ inPort ≤ 10) blk s fun s =>
    let q := SMap.getD (s.xr blk).vc1 inPort .init
    match q.flits with
    | f :: _ => when (q.route == 0 && f.head && !(headerOf f).mcast) (fun s => s.routeHead blk inPort f) s
    | [] => s

/-- The whole packet at the head of flits. -/
def headPacket (fs : List Flit) : Packet :=
  let n := (fs.takeWhile fun f => !f.tail).length
  joinPacket ((fs.take (n + 1)).map fun f => (f.data, f.poison, f.linkErr))

/-- The sender of a multicast packet keeps a copy for the leaves that will ask for it again (R170); one of the same tag replaces it. -/
def State.keepCopy (s : State) (src : Nat) (p : Packet) : State :=
  { s with mesh := { s.mesh with mcast := (s.mesh.mcast.filter fun x => x.1 != src || x.2.tag != p.tag) ++ [(src, p)] } }

/-- The copy that a sender keeps of a multicast packet. -/
def State.mcastCopy (s : State) (src tag : Nat) : Option (Nat × Packet) := s.mesh.mcast.find? fun x => x.1 == src && x.2.tag == tag

/-- MULTICAST_COPY (R170): a multicast packet is copied to the ports of its group's mask; local ports of fenced cells
discard theirs (R16). The sender keeps a copy for the leaves that will ask for it again. -/
def execMulticastCopy (blk inPort : Nat) (s : State) : Res :=
  onUnit (blkValid blk ∧ inPort ≤ 10) blk s fun s =>
    let q := SMap.getD (s.xr blk).vc1 inPort .init
    match q.flits with
    | f :: _ =>
      let p := headerOf f
      if q.route = 0 ∧ f.head ∧ p.mcast then
        let m := SMap.getD (s.xr blk).groups p.group 0 % 2048
        let cut := indices 7 fun k => bitAt m (4 + k) && s.fenced (blk * 32 + k)
        let m := cut.foldl (fun m k => m - 2 ^ (4 + k)) m
        let s := s.inc (Reg.BLK_STATUS_fenced_drop_count blk) cut.length
        let s := if 4 ≤ inPort then s.keepCopy p.src (headPacket (q.flits ++ SMap.getD (s.xr blk).injPkts inPort [])) else s
        if m = 0 then (s.dropPkt blk inPort).inc (Reg.XR_COUNTS_unroutable_count blk)
        else s.modPkt blk inPort fun q => { q with route := m, taken := 0 }
      else s
    | [] => s

/-- The NAK of a multicast leaf that waits at a cell of a block. -/
def State.leafNak (s : State) (b : Nat) : Option (Nat × Packet) :=
  (blockCells b).findSome? fun c =>
    match (s.cell c).port.pkts with
    | p :: _ => if p.ty = 6 then some (c, p) else none
    | [] => none

/-- MULTICAST_NAK (R170): the sender resends the packet of that tag by unicast to the leaf that asked. -/
def execMulticastNak (blk : Nat) (s : State) : Res :=
  onBlk blk s fun s =>
    match s.leafNak blk with
    | some (c, k) =>
      let s := s.modPort c fun p => { p with pkts := p.pkts.drop 1 }
      match s.mcastCopy c k.tag with
      | some (_, p) => s.sendPacket c (((p.setW 0 9 1 0).setW 0 48 16 k.src).setW 1 0 64 (spAddr k.src (p.addr % 2 ^ 24))).seal
      | none => s
    | none => s

/-! ### Detours (R164, R165) -/

/-- The output of a crossing towards a block (or a hub port's block) at coordinates, under a set of detour tables. -/
def hopTo (det : Nat → List Word64) (b x y : Nat) : Option Nat :=
  let here := blkXY b
  if here.1 = x ∧ here.2 = y then none
  else match (det b).find? fun e => detourHit e.toNat x y with
    | some e => some (bits e.toNat 23 4)
    | none => some (if here.1 < x then 1 else if x < here.1 then 3 else if here.2 < y then 2 else 0)

/-- Every block of the panel. -/
def allBlocks : List Nat := allRegions.flatMap regionBlocks

/-- The dependencies of virtual channel 1 (R165): from the channel out of `b` to the channel out of its neighbour,
for a packet towards one block. A channel is block * 4 + output. -/
def dependencies (det : Nat → List Word64) : List (Nat × Nat) :=
  allBlocks.flatMap fun d => allBlocks.filterMap fun b =>
    let (x, y) := blkXY d
    match hopTo det b x y with
    | some o =>
      match neighbour b o with
      | some n => (hopTo det n x y).map fun o2 => (b * 4 + o, n * 4 + o2)
      | none => none
    | none => none

/-- Whether a dependency graph is free of cycles: channels that depend on nothing more are taken away until none is
left (`fuel` rounds). -/
def acyclicIn : Nat → List (Nat × Nat) → Bool
  | _, [] => true
  | 0, _ :: _ => false
  | n + 1, es => acyclicIn n (es.filter fun e => es.any fun f => f.1 == e.2)

/-- The detour tables after a set is installed. -/
def State.detoursAfter (s : State) (set : List (Nat × List Word64)) (b : Nat) : List Word64 :=
  match set.find? fun p => p.1 == b with
  | some p => p.2.take 16
  | none => (s.xr b).detours

/-- The check of R165: no cycle among the virtual-channel-1 channels of the whole mesh. -/
def State.detoursOk (s : State) (set : List (Nat × List Word64)) : Bool :=
  acyclicIn 4480 (dependencies (s.detoursAfter set)).eraseDups

/-- Install a set of detour entries. -/
def State.setDetours (s : State) (set : List (Nat × List Word64)) : State :=
  set.foldl (fun s p => if blkValid p.1 then s.modXr p.1 fun x => { x with detours := p.2.take 16 } else s) s

/-! ### The distance table (R175): its sources -/

/-- Whether a region is lost, under ghost light or in CUT. -/
def State.regionOut (s : State) (g : Nat) : Bool :=
  s.flag (Reg.REGION_THERMAL_lost g) || 2 ≤ s.get (Reg.REGION_THERMAL_tstate g)

/-- State of a block in the distance table (Table 6.9). -/
def State.blockState (s : State) (b : Nat) : Nat :=
  if s.regionCut (bkG b) then 3
  else if s.regionOut (bkG b) then 2
  else b2n (s.flag (Reg.BLK_STATUS_block_fenced b))

/-- Firmware rewrites the distance table from the mesh as it stands (log 32). -/
def State.publishDist (s : State) : State :=
  let t : DistSt :=
    ⟨allBlocks.filterMap fun b => if s.blockState b = 0 then none else some (b, s.blockState b),
      s.mesh.xr.map fun p => (p.1, p.2.home),
      s.mesh.xr.filterMap fun p => if p.2.detours.isEmpty then none else some (p.1, p.2.detours),
      allBlocks.flatMap fun b => ((List.range 4).filter fun d => s.regionCut (bkG b) || !s.passable b d).map fun d => b * 4 + d⟩
  { s with distGen := (s.distGen + 1) % 2 ^ 32, dist := t }

/-- DETOUR_INSTALL (R165, R175): a set is installed only when the check passes; the distance table follows the change of crevasse. -/
def execDetourInstall (set : List (Nat × List Word64)) (s : State) : Res :=
  .next (if s.detoursOk set then (s.setDetours set).publishDist else s)

/-! ### The side lane (R154, R186) -/

/-- Put an item on the way out of an output. -/
def State.itemOut (s : State) (b out : Nat) (it : Item) : State :=
  if isSeam b out then s.modWire (b * 4 + out) fun w => { w with items := w.items ++ [it] }
  else match neighbour b out with
    | some n => s.pushItem n (opp out) it
    | none => s

/-- Whether an item carries another epoch than its sender's (R313). -/
def State.staleItem (s : State) (it : Item) : Bool := decide (it.src < 0xF000) && it.epoch != s.epoch4 it.src

/-- An item reaches the local port of its cell: dropped when the cell is fenced (R16) or the epoch is another's, with
the credit it used returned (R313). -/
def State.itemAt (s : State) (c : Nat) (it : Item) : State :=
  if s.fenced c then s.inc (Reg.BLK_STATUS_fenced_drop_count (c / 32))
  else if s.staleItem it then
    let s := s.inc (Reg.CELL_EPOCH_epoch_drop_count c)
    if it.ty = 1 then s.giveCredit c it.dstEp 1 else s
  else s.modPort c fun p => { p with inbox := p.inbox ++ [it] }

/-- Move the first item of an input port one hop; an item of a tree waits there for the combine unit (R171), and those behind it wait with
it, so that they keep their order (R154). -/
def State.itemHop (s : State) (b port : Nat) (it : Item) (rest : List Item) : State :=
  let pop := fun (s : State) => s.modXr b fun x => { x with vc2 := SMap.put x.vc2 port rest }.fillItems port
  if 4 ≤ it.ty ∧ it.ty ≤ 7 then s
  else
    let out := route (s.xr b) b it.dst (s.xr (it.src / 32)).home
    if 4 ≤ out ∧ out ≤ 10 then if s.itemRoom b out then (pop s).itemAt (b * 32 + (out - 4)) it else s
    else if s.deadEnd b out (decide (it.dst < 0xF000)) then (pop s).inc (Reg.XR_COUNTS_unroutable_count b)
    else if s.itemRoom b out then (pop s).itemOut b out it
    else s

/-- VC2_ITEM_HOP (R154). -/
def execVc2ItemHop (blk inPort : Nat) (s : State) : Res :=
  onUnit (blkValid blk ∧ inPort ≤ 10) blk s fun s =>
    match SMap.getD (s.xr blk).vc2 inPort [] with
    | it :: rest => when (s.slotRuns blk) (fun s => s.itemHop blk inPort it rest) s
    | [] => s

/-! ### Barriers and flags (R171-R173) -/

/-- Key of a combine entry: object * 2, plus 1 for a flag word. -/
def combKey (flag : Bool) (obj : Nat) : Nat := obj * 2 + b2n flag

/-- Object of a barrier or flag item. -/
def Item.obj (i : Item) : Nat := bits i.w1 0 12
/-- Generation parity of a barrier item. -/
def Item.parity (i : Item) : Nat := bits i.w1 12 1

/-- The first items that wait for the combine unit of a crossing: at the head of an input port's side-lane buffer, or what the unit as a
root sends itself (port 15). -/
def XrSt.treeHeads (x : XrSt) : List (Nat × Item) :=
  ((List.range 11).filterMap fun p => (SMap.getD x.vc2 p []).head?.map fun it => (p, it)) ++
    (match x.treeIn with | it :: _ => [(15, it)] | [] => [])

/-- The first item of a type that waits for the combine unit. -/
def XrSt.treeHead (x : XrSt) (ty : Nat) : Option (Nat × Item) := x.treeHeads.find? fun p => p.2.ty == ty

/-- Take the first item of a port away. -/
def XrSt.treePop (x : XrSt) (port : Nat) : XrSt :=
  if port = 15 then { x with treeIn := x.treeIn.drop 1 }
  else { x with vc2 := SMap.put x.vc2 port ((SMap.getD x.vc2 port []).drop 1) }.fillItems port

/-- The mask of a generation parity. -/
def CombineSt.mask (e : CombineSt) (par : Nat) : Nat := if par = 0 then e.mask0 else e.mask1
/-- Replace the mask of a generation parity. -/
def CombineSt.setMask (e : CombineSt) (par m : Nat) : CombineSt := if par = 0 then { e with mask0 := m } else { e with mask1 := m }

/-- The combine unit of a root sends an item down its own tree. -/
def State.treePush (s : State) (b : Nat) (it : Item) : State := s.modXr b fun x => { x with treeIn := x.treeIn ++ [it] }

/-- When the current generation of an entry is full, it sends one arrival to its parent and clears the mask; the
root sends the completion instead (R172). -/
def State.combineUp (s : State) (b key : Nat) : State :=
  match SMap.get? (s.xr b).combine key with
  | some e =>
    if e.mask e.parity == e.childMask then
      let s := s.modXr b fun x => { x with combine := SMap.put x.combine key (e.setMask e.parity 0) }
      let w := key / 2 + e.parity <<< 12
      if e.parent = 15 then s.treePush b ⟨5, 0, 0xFFFF, 0, 0xFFFF, 0, 0, w, 0⟩
      else s.itemOut b e.parent ⟨4, 0, 0xFFFF, 0, 0xFFFF, 0, 0, w, 0⟩
    else s
  | none => s

/-- An item of another epoch dropped at a combine unit (R313) is counted for the cell whose local port it came by (log 115). -/
def State.treeDrop (s : State) (b port : Nat) : State :=
  if 4 ≤ port ∧ port < 11 then s.inc (Reg.CELL_EPOCH_epoch_drop_count (b * 32 + (port - 4))) else s

/-- BARRIER_ARRIVAL (R172): an arrival is recorded in the mask of its parity and combined; an arrival of another
epoch is dropped (R313), one without an entry is discarded. It waits while the way to the parent is full. -/
def execBarrierArrival (blk : Nat) (s : State) : Res :=
  onBlk blk s fun s =>
    match (s.xr blk).treeHead 4 with
    | some (port, it) =>
      let pop := fun (s : State) => s.modXr blk fun x => x.treePop port
      let key := combKey false it.obj
      if s.staleItem it then (pop s).treeDrop blk port
      else match SMap.get? (s.xr blk).combine key with
        | some e =>
          if e.parent ≠ 15 ∧ !s.itemRoom blk e.parent then s
          else
            ((pop s).modXr blk fun x =>
              { x with combine := SMap.put x.combine key (e.setMask it.parity (e.mask it.parity ||| 2 ^ port)) }).combineUp
              blk key
        | none => pop s
    | none => s

/-- The package entry that follows entry i of a fold group, and its scene. -/
def foldAfter (f : FoldRec) (i : Nat) : Nat × Nat :=
  let n := seNext (nth f.entries i 0).toNat
  (n, seScene (nth f.entries n 0).toNat)

/-- A scene-change barrier of a crossing's fold group reaches the crossing: the variant of the next scene takes effect
at the next period (R161). -/
def State.sceneAtXr (s : State) (b obj : Nat) : State :=
  let x := s.xr b
  match s.fold x.foldGroup with
  | some f =>
    if f.barrier = obj then
      s.modXr b fun x => { x with entry := (foldAfter f x.entry).1, nextVariant := some (foldAfter f x.entry).2 }
    else s
  | none => s

/-- Whether an armed belay holds the completion of a barrier (R309 step 1): the scene barrier of a fold group whose
crossing at the root is at the belay's entry, until the barriers are released. -/
def State.belayHolds (s : State) (b obj : Nat) : Bool :=
  match s.belay, s.pkg with
  | some y, some p =>
    match findPlace (fun (f : FoldRec) => f.barrier == obj) p.pkg.folds with
    | some g => decide ((s.xr b).foldGroup = g → (s.xr b).entry = nth y.atEntry g 0) && decide (g < y.atEntry.length)
    | none => false
  | _, _ => false

/-- Whether a member of the fold group of a scene barrier is fenced: the barrier cannot complete (R216). -/
def State.memberFenced (s : State) (obj : Nat) : Bool :=
  match s.pkg with
  | some p =>
    match findPlace (fun (f : FoldRec) => f.barrier == obj) p.pkg.folds with
    | some g => p.cast.any fun q => bitAt q.2 22 && bits q.2 16 6 == g && s.fenced (bits q.2 0 16)
    | none => false
  | none => false

/-- Whether the root keeps back the completion of a barrier (R216, R309). -/
def State.barred (s : State) (b obj : Nat) : Bool := s.belayHolds b obj || s.memberFenced obj

/-- Send an item down the mesh ports of a mask. -/
def State.downMesh (s : State) (b mask : Nat) (it : Item) : State :=
  (indices 4 (bitAt mask)).foldl (fun s d => s.itemOut b d it) s

/-- Whether every mesh port of a mask has room for an item. -/
def State.downRoom (s : State) (b mask : Nat) : Bool := (indices 4 (bitAt mask)).all fun d => s.itemRoom b d

/-- BARRIER_COMPLETION (R172): the completion reaches the members at this block and goes on down the tree; arrivals of
the next generation that are all there are combined at once. -/
def execBarrierCompletion (blk : Nat) (s : State) : Res :=
  onBlk blk s fun s =>
    match (s.xr blk).treeHead 5 with
    | some (port, it) =>
      let key := combKey false it.obj
      match SMap.get? (s.xr blk).combine key with
      | some e =>
        if (port = 15 ∧ s.barred blk it.obj) ∨ !s.downRoom blk e.childMask ∨ (e.parent ≠ 15 ∧ !s.itemRoom blk e.parent)
        then s
        else
          let s := s.modXr blk fun x =>
            { x.treePop port with combine := SMap.put x.combine key { e with parity := 1 - e.parity } }
          let s := s.downMesh blk e.childMask it
          let s := (indices 7 fun k => bitAt e.childMask (4 + k)).foldl (fun s k => s.barrierAt (blk * 32 + k) it.obj) s
          (s.sceneAtXr blk it.obj).combineUp blk key
      | none => s.modXr blk fun x => x.treePop port
    | none => s

/-- FLAG_UPDATE (R173): waiting updates of one flag word are ORed into one item towards the root; the root ORs them
into the word, and a change goes down the whole tree. -/
def execFlagUpdate (blk : Nat) (s : State) : Res :=
  onBlk blk s fun s =>
    match (s.xr blk).treeHead 6 with
    | some (_, it) =>
      let key := combKey true it.obj
      let mine := fun (p : Nat × Item) => p.2.ty == 6 && p.2.obj == it.obj
      let live := (s.xr blk).treeHeads.filter fun p => mine p && !s.staleItem p.2
      let v := live.foldl (fun v p => v ||| p.2.w2) 0
      let stale := (s.xr blk).treeHeads.filter fun p => mine p && s.staleItem p.2
      let pop := fun (s : State) =>
        stale.foldl (fun s p => s.treeDrop blk p.1) (s.modXr blk fun x => (live ++ stale).foldl (fun x p => x.treePop p.1) x)
      match SMap.get? (s.xr blk).combine key with
      | some e =>
        if e.parent = 15 then
          let w := e.word ||| v
          let s := (pop s).modXr blk fun x => { x with combine := SMap.put x.combine key { e with word := w } }
          if w = e.word then s else s.treePush blk ⟨7, 0, 0xFFFF, 0, 0xFFFF, 0, 0, it.obj, w⟩
        else if s.itemRoom blk e.parent then
          if live.isEmpty then pop s
          else (pop s).itemOut blk e.parent ⟨6, 0, 0xFFFF, 0, 0xFFFF, 0, 0, it.obj, v⟩
        else s
      | none => pop s
    | none => s

/-- FLAG_VALUE (R173): a new value reaches the block's copy and goes on down the tree. -/
def execFlagValue (blk : Nat) (s : State) : Res :=
  onBlk blk s fun s =>
    match (s.xr blk).treeHead 7 with
    | some (port, it) =>
      match SMap.get? (s.xr blk).combine (combKey true it.obj) with
      | some e =>
        if s.downRoom blk e.childMask then
          (s.modXr blk fun x => { x.treePop port with flags := SMap.put x.flags it.obj it.w2 }).downMesh blk e.childMask it
        else s
      | none => s.modXr blk fun x => x.treePop port
    | none => s

/-! ### Seams (R148-R151) -/

/-- The 128 sideband bits of a flit time (Table 6.3), checks included: a flit, the `credit` and `fault_sb` fields, and a fragment. -/
def sideband (f : Option Flit) (credit fault frag pos : Nat) : Nat :=
  let body := match f with
    | some f =>
      crc16 f.data + (f.poison % 256) <<< 16 + 1 <<< 24 + (f.vc % 4) <<< 25 + (f.stage % 16) <<< 27 + (b2n f.head) <<< 31 +
        (b2n f.tail) <<< 32 + (b2n f.linkErr) <<< 33 + (f.epoch % 16) <<< 34
    | none => 0
  let w := body + (credit % 256) <<< 38 + (fault % 256) <<< 46 + (frag % 2 ^ 64) <<< 54 + (pos % 4) <<< 118
  w + (crc8 (toLE 13 (w >>> 16))) <<< 120

/-- Flip bits of a number. -/
def flipBits (x : Nat) (bs : List Nat) : Nat := bs.foldl (fun x i => x ^^^ 2 ^ i) x

/-- Bits flipped among the 2,048 data bits, and among the sideband bits, of a flit time. -/
def splitFlips (flips : List Nat) : List Nat × List Nat :=
  (flips.filter (· < 2048), (flips.filter fun i => decide (2048 ≤ i ∧ i < 2176)).map (· - 2048))

/-- Whether the control check of received sideband bits passes. -/
def ctrlOk (w : Nat) : Bool := crc8 (toLE 13 (w >>> 16)) == bits w 120 8

/-- What a receiving bridge makes of a flit (Table 6.4): as received, or with all poison bits and `link_err` set when
`crc16` fails. -/
def seamFlit (f : Flit) (w : Nat) (data : List Byte) (now : Nat) : Flit × Bool :=
  let ok := crc16 data == bits w 0 16
  ({ f with data := data, vc := bits w 25 2, stage := bits w 27 4, head := bitAt w 31, tail := bitAt w 32
            linkErr := bitAt w 33 || !ok, epoch := bits w 34 4, poison := if ok then bits w 16 8 else 0xFF, atT := now }, ok)

/-- The fragment on the sideband of a flit time: its 64 bits and its number; zero when no item waits. -/
def WireSt.frag (w : WireSt) : Nat × Nat :=
  match w.items with
  | it :: _ => (nth it.words w.sent 0, w.sent)
  | [] => (0, 0)

/-- The wires after a flit time: the credit and the fragment are gone; an item has passed with its fourth fragment. -/
def WireSt.advance (w : WireSt) (got : Option Nat) : WireSt × Option Item :=
  let w' := { w with credits := w.credits.drop 1 }
  match w.items with
  | [] => (w', none)
  | _ :: more =>
    let lost := w.lost || got.isNone
    let rx := w.rx ++ [got.getD 0]
    if w.sent = 3 then
      ({ w' with items := more, rx := [], sent := 0, lost := false }, if lost then none else some (Item.ofWords rx))
    else ({ w' with rx := rx, sent := w.sent + 1, lost := lost }, none)

/-- Record a check failure of a link for R151. -/
def State.seamFail (s : State) (key : Nat) : State :=
  s.modWire key fun w => { w with fails := (w.fails.filter fun t => s.now < t + 1000000) ++ [s.now] }

/-- What the sending bridge puts on the data wires and the fragment wires in a flit time: base camp waits with a packet flit or an item for
which the block has no room (R174); blocks have tested the room before they sent. -/
def State.onWire (s : State) (b d : Nat) (w : WireSt) : WireSt :=
  if d < 4 ∧ (neighbour b d).isNone then
    { w with
        flits := if (SMap.getD (s.xr b).vc1 d .init).flits.length < 16 then w.flits else []
        items := if (SMap.getD (s.xr b).vc2 d []).length < 8 ∨ w.sent ≠ 0 then w.items else [] }
  else w

/-- Place of the report that the fault sideband carries over a seam in a flit time: the first that goes that way (R14). -/
def State.sbReport (s : State) (b d : Nat) : Option Nat :=
  match (if 4 ≤ d then some b else neighbour b d) with
  | some n => findPlace (fun (r : Report) => if 4 ≤ d then r.way == [bkG n] else r.way.take 2 == [bkG n, bkG b]) s.mesh.reports
  | none => none

/-- The fault sideband's bits for a report; zero when none goes over (log 78). -/
def State.sbBits (s : State) (i : Option Nat) : Nat :=
  match i.bind fun k => s.mesh.reports[k]? with
  | some r => (Config.faultByte r.cell r.cause r.kind).toNat
  | none => 0

/-- A report has passed to the next region; one that was lost is sent again (R149). -/
def State.sbMove (s : State) (i : Option Nat) : State :=
  match i with
  | some k => { s with mesh := { s.mesh with reports := s.mesh.reports.modify k fun r => { r with way := r.way.drop 1 } } }
  | none => s

/-- One flit time at a receiving bridge: block `b`, mesh port `d` (0-3), or the hub end of that port (4-7). -/
def State.seamTime (s : State) (b d : Nat) (flips : List Nat) : State :=
  let key := wireInto b d
  let w := s.onWire b d (s.wire key)
  let (g, l) := (bkG b, seamLink b (d % 4))
  let fl := splitFlips flips
  let fr := w.frag
  let rep := s.sbReport b d
  let sb := flipBits (sideband w.flits.head? (w.credits.headD 0) (s.sbBits rep) fr.1 fr.2) fl.2
  let pass := fun (got : Option Nat) (s : State) => s.modWire key fun u =>
    let r := (w.advance got).1
    { r with flits := if w.flits.isEmpty then u.flits else u.flits.drop 1, items := if w.items.isEmpty then u.items else r.items }
  if ctrlOk sb then
    let s := (pass (some (bits sb 54 64)) s).sbMove rep
    let s := match (w.advance (some (bits sb 54 64))).2 with
      | some it => if 4 ≤ d then { s with mesh := { s.mesh with hubItems := s.mesh.hubItems ++ [it] } } else s.pushItem b d it
      | none => s
    match w.flits with
    | f :: _ =>
      let data := toLE 256 (flipBits (ofLE f.data) fl.1)
      let q := seamFlit f sb data s.now
      let s := if q.2 then s else (s.inc (Reg.SEAM_STATUS_crc_err_count g l)).seamFail key
      if !bitAt sb 24 then s
      else if 4 ≤ d then
        -- the hub takes every flit at once and returns its credit
        (s.hubFlit ((hubPort b (d - 4)).getD 0) q.1).modWire (hubWire ((hubPort b (d - 4)).getD 0)) fun w =>
          { w with credits := w.credits ++ [1 + (b2n (q.1.vc == 1)) <<< 1 + q.1.stage <<< 2] }
      else s.flitAt b d q.1
    | [] => s
  else
    let s := pass none s
    let s := if w.items.isEmpty ∨ w.lost then s else s.inc (Reg.XR_COUNTS_vc2_drop_count b)
    -- the place of a lost flit is free at once, and its credit goes back
    let s := match w.flits with
      | f :: _ => if d < 4 then s.creditBack b d (f.vc == 1) f.stage else s
      | [] => s
    (s.inc (Reg.SEAM_STATUS_lost_count g l)).seamFail key

/-- Whether a port names a receiving bridge: a seam or hub-port side of the block (0-3), or the hub end of one (4-7). -/
def seamEnd (b d : Nat) : Bool := blkValid b && decide (d < 8) && isSeam b (d % 4) && (decide (d < 4) || (hubPort b (d - 4)).isSome)

/-- SEAM_FLIT_TIME (R149): a receiving bridge checks one flit time; `flips` are the bits that changed on the wires. -/
def execSeamFlitTime (blk dir : Nat) (flips : List Nat) (s : State) : Res :=
  onUnit (seamEnd blk dir) blk s fun s => when (s.linkUp blk (dir % 4)) (fun s => s.seamTime blk dir flips) s

/-- The link registers of both ends of a seam; a hub port has one. -/
def seamRegs (b d : Nat) : List (Nat × Nat) :=
  (bkG b, seamLink b d) :: match neighbour b d with
    | some n => [(bkG n, seamLink n (opp d))]
    | none => []

/-- Set the state of a link at both ends. -/
def State.setLink (s : State) (b d v : Nat) : State :=
  (seamRegs b d).foldl (fun s r => s.set (Reg.SEAM_STATUS_state r.1 r.2) v) s

/-- The state of a link. -/
def State.linkState (s : State) (b d : Nat) : Nat := s.get (Reg.SEAM_STATUS_state (bkG b) (seamLink b d))

/-- SEAM_ERROR_THRESHOLD (R151): three failures within 1 ms hold the link for a wire test. -/
def execSeamErrorThreshold (blk dir : Nat) (s : State) : Res :=
  onUnit (seamEnd blk dir) blk s fun s =>
    let w := s.wire (wireInto blk dir)
    when (s.linkUp blk (dir % 4) && decide (3 ≤ (w.fails.filter fun t => s.now < t + 1000000).length))
      (fun s => (s.modWire (wireInto blk dir) fun w => { w with fails := [], held := true }).setLink blk (dir % 4) 3) s

/-- Spare wires of a field end that are free, as its register shows them (R148, R176); those of a hub end have no register. -/
def State.freeSpares (s : State) (b d : Nat) : List RF :=
  [Reg.SEAM_STATUS_spare0 (bkG b) (seamLink b d), Reg.SEAM_STATUS_spare1 (bkG b) (seamLink b d)].filter fun f => s.get f == 0x7F

/-- How many spare wires the receiving end of a direction still has: two for each direction (R148). -/
def State.spareCount (s : State) (b dir : Nat) : Nat :=
  if 4 ≤ dir then 2 - (s.wire (wireInto b dir)).spares.length else (s.freeSpares b dir).length

/-- Put spares in place of failed wires of a direction. -/
def State.swapSpares (s : State) (b dir : Nat) (ws : List Nat) : State :=
  if 4 ≤ dir then s.modWire (wireInto b dir) fun w => { w with spares := w.spares ++ ws }
  else s.sets ((s.freeSpares b dir).zip ws)

/-- SEAM_WIRE_TEST_DONE (R151): failed wires are swapped for spares, or the link retrains in full. -/
def execSeamWireTestDone (blk dir : Nat) (badWires : List Nat) (badClock : Bool) (s : State) : Res :=
  onUnit (seamEnd blk dir) blk s fun s =>
    let d := dir % 4
    when (s.linkState blk d == 3) (fun s =>
      if badClock ∨ s.spareCount blk dir < badWires.length then s.setLink blk d 4
      else if badWires.isEmpty then s.setLink blk d 2
      else ((s.swapSpares blk dir (badWires.map (· % 68))).inc (Reg.SEAM_STATUS_retrain_count (bkG blk) (seamLink blk d))).setLink
        blk d 2) s

/-- Seam links of a region that lead anywhere: block and mesh port. -/
def regionLinks (g : Nat) : List (Nat × Nat) :=
  (regionBlocks g).flatMap fun b => ((List.range 4).filter fun d => isSeam b d).map fun d => (b, d)

/-- SEAM_RETRAIN_DONE (R151): the link is up again, or it goes down and is reported to the stage cores, who treat it
as a crevasse; a region all of whose links are down is reported for R221 as well. -/
def execSeamRetrainDone (blk dir : Nat) (ok : Bool) (s : State) : Res :=
  onUnit (seamEnd blk dir) blk s fun s =>
    let d := dir % 4
    when (s.linkState blk d == 4) (fun s =>
      if ok then (s.inc (Reg.SEAM_STATUS_retrain_count (bkG blk) (seamLink blk d))).setLink blk d 2
      else
        let s := s.setLink blk d 5
        let s := (s.stageCairn { Cairn.blank 0x08 2 (seamLink blk d) (blk * 32 / 256 * 256) 0xFFFF 0 with
          regs := s.regWords [(Reg.SEAM_STATUS_state (bkG blk) (seamLink blk d)).off] }).report (blk * 32) 0 7
        if (regionLinks (bkG blk)).all fun p => s.linkState p.1 p.2 == 5 then s.report (blk * 32) 0 8 else s) s

end Sys2Proof.Machine
end

