-- ==== Sys2Proof/Machine/Rings.lean ====
section
/-! DEFINITION. Host rings (R320, R342-R349) and the delivery of completion entries (R247). -/

namespace Sys2Proof.Machine

/-- A ring index never used: generation 0x001 (R179). -/
def RingSt.init : RingSt := ⟨1, false, none, 0, 0, 0, 12, 0, 0, 0, 0, 0, 0, 0, [], 0, 0, false, 0, none, none⟩

/-- A host ring index. -/
def State.ring (s : State) (i : Nat) : RingSt := SMap.getD s.host.rings i .init
/-- Change a host ring index. -/
def State.modRing (s : State) (i : Nat) (f : RingSt → RingSt) : State :=
  s.modHost fun h => { h with rings := SMap.put h.rings i (f (s.ring i)) }

/-- Handle of a ring (Table 7.1, type 0x6). -/
def ringHandle (i : Nat) (r : RingSt) : Nat := 6 <<< 28 + r.gen <<< 16 + i

/-- The ring that a handle names, none when the handle is stale (R179). -/
def State.ringOf (s : State) (h : Nat) : Option Nat :=
  let i := bits h 0 16
  let r := s.ring i
  if i < 16384 ∧ r.live ∧ h = ringHandle i r then some i else none

/-- Granules of a ring (R342). -/
def RingSt.grans (r : RingSt) : Nat := 2 ^ (r.size - 6)
/-- Granules between head and tail. -/
def RingSt.fill (r : RingSt) : Nat := (r.tail + r.grans - r.head) % r.grans

/-- Whether host rings are served: not in OFF or DARK (R32), and Bus Master Enable is 1 (R323). -/
def State.ringsRun (s : State) : Bool := !(s.isIn .off || s.isIn .dark) && s.host.bme

/-- The 64 B write-back record of a ring (R347). -/
def RingSt.record (r : RingSt) : List Byte :=
  toLE 4 r.head ++ toLE 4 r.tail ++ toLE 4 r.errs ++ toLE 1 r.lastErr ++ toLE 1 (b2n r.stopped) ++ toLE 2 0 ++ toLE 4 r.errSeq ++ toLE 44 0

/-- Write a ring's write-back record. -/
def State.writeBackRing (s : State) (i : Nat) : State := s.emit (.hostWrite (s.ring i).wb (s.ring i).record)

/-- Record a ring error (R348, Table 13.14). -/
def State.ringErr (s : State) (i code seq : Nat) (stop : Bool) : State :=
  s.modRing i fun r => { r with errs := (r.errs + 1) % 2 ^ 32, lastErr := code, errSeq := seq, stopped := r.stopped || stop }

/-! ### Completion rings -/

/-- A completion entry is ready for the ring a handle names; it waits in the ring's queue in order (R247). A handle that
names no completion ring takes nothing. -/
def State.post (s : State) (h : Nat) (e : RingEntry) : State :=
  match s.ringOf h with
  | some i =>
    if (s.ring i).binding = 3 ∧ !(s.ring i).stopped then s.modRing i fun r => { r with waiting := r.waiting ++ [e] } else s
  | none => s

/-- Granules of a completion entry. -/
def RingEntry.grans (e : RingEntry) : Nat := (16 + e.body.length + 63) / 64

/-- The bytes of a ring entry of `n` granules (Table 13.13a). -/
def entryBytes (ty n seq handle : Nat) (body : List Byte) : List Byte :=
  toLE 1 ty ++ toLE 1 n ++ toLE 2 0 ++ toLE 4 seq ++ toLE 4 handle ++ toLE 4 0 ++ body ++ toLE (64 * n - 16 - body.length) 0

/-- Write an entry of `n` granules at the tail. -/
def State.putEntry (s : State) (i ty n seq : Nat) (body : List Byte) : State :=
  let r := s.ring i
  (s.emit (.hostWrite (r.base + 64 * r.tail) (entryBytes ty n seq (ringHandle i r) body))).modRing i fun r =>
    { r with tail := (r.tail + n) % r.grans }

/-- After entries: the write-back record, and the vector at once or after `irq_delay_us` (R347). -/
def State.signalRing (s : State) (i : Nat) : State :=
  let s := s.writeBackRing i
  let r := s.ring i
  if r.vector = 0 then s
  else if r.delay = 0 then s.emit (.msix r.vector)
  else s.modRing i fun r => { r with unsignalled := some (r.unsignalled.getD s.now) }

/-- Write the first waiting entry if it has room: a PAD first when it would pass the ring end (R346). -/
def State.deliverEntry (s : State) (i : Nat) : State :=
  let r := s.ring i
  match r.waiting with
  | [] => s
  | e :: rest =>
    let edge := r.grans - r.tail
    let free := r.grans - 1 - r.fill
    let padded := edge < e.grans
    let s := if padded ∧ edge ≤ free then s.putEntry i 0 edge 0 [] else s
    let r' := s.ring i
    let free := r'.grans - 1 - r'.fill
    if e.grans ≤ r'.grans - r'.tail ∧ e.grans ≤ free then
      ((s.putEntry i e.ty e.grans r'.seq e.body).modRing i fun r =>
        { r with waiting := rest, seq := (r.seq + 1) % 2 ^ 32 }).signalRing i
    else if padded ∧ edge ≤ r.grans - 1 - r.fill then s.signalRing i
    else s

/-- Entries of a ring for which it has no space: what still waits once the ring has been filled (R247). -/
def State.noRoom (s : State) (i : Nat) : Nat :=
  (((List.range (s.ring i).waiting.length).foldl (fun s _ => s.deliverEntry i) s).ring i).waiting.length

/-- Whether the completion ring that a handle names can take a slot's entries: live, and its queue of 64 entries without space not full
(R247, R349). -/
def State.ringRoom (s : State) (h : Nat) : Bool :=
  match s.ringOf h with
  | some i => s.noRoom i < 64
  | none => false

/-- RING_IRQ_TIMER (R347): `irq_delay_us` after the first entry not yet signalled, the vector is raised. -/
def execRingIrqTimer (ring : Nat) (s : State) : Res :=
  onUnit (ring < 16384) ring s fun s =>
    let r := s.ring ring
    match r.unsignalled with
    | some t =>
      when (s.ringsRun && r.live && t + 1000 * r.delay ≤ s.now)
        (fun s => (s.modRing ring fun r => { r with unsignalled := none }).emit (.msix r.vector)) s
    | none => s

/-! ### Submission rings -/

/-- Types that a binding's rings carry (Table 13.13). -/
def carries (binding ty : Nat) : Bool :=
  match binding with
  | 0 => ty == 0x10 || ty == 0x11
  | 1 => ty == 0x30
  | 2 => ty == 0x40
  | _ => false

/-- What reading the entry at a submission ring's head gives: nothing, a stop, a skip with its error, a PAD, or the entry
with its body from byte 16 (R345-R348). -/
inductive RingRead where
  | nothing
  | stop (seq : Nat)
  | skip (code seq n : Nat)
  | pad (n : Nat)
  | entry (seq n : Nat) (body : List Byte)
deriving DecidableEq, Repr

/-- Judge the entry that host memory holds at a ring's head (Table 13.14). -/
def State.readRing (s : State) (i : Nat) (e : List Byte) : RingRead :=
  let r := s.ring i
  let ty := ofLE (e.take 1)
  let l := ofLE ((e.drop 1).take 1)
  let n := if l = 0 then 256 else l
  let seq := ofLE ((e.drop 4).take 4)
  let h := ofLE ((e.drop 8).take 4)
  let rsv := ofLE ((e.drop 2).take 2) + ofLE ((e.drop 12).take 4)
  if !s.ringsRun || !r.live || r.stopped || r.binding == 3 || r.fill == 0 then .nothing
  else if r.fill < n ∨ r.grans < r.head + n then .stop seq
  else if ty ≠ 0 ∧ !carries r.binding ty then .skip 1 seq n
  else if h ≠ ringHandle i r then .skip 2 seq n
  else if ty ≠ 0 ∧ seq ≠ r.seq then .skip 3 seq n
  else if rsv ≠ 0 ∨ (ty = 0 ∧ seq ≠ 0) then .skip 4 seq n
  else if ty = 0 then .pad n
  else .entry seq n ((e.take (64 * n)).drop 16)

/-- The panel has read `n` granules: the head moves and is written back (R347); an entry other than a PAD uses a
number (R345). -/
def State.passEntry (s : State) (i n : Nat) (numbered : Bool) : State :=
  (s.modRing i fun r =>
    { r with head := (r.head + n) % r.grans, seq := if numbered then (r.seq + 1) % 2 ^ 32 else r.seq }).writeBackRing i

/-- Read the entry at a ring's head, when its type is the one that the command serves: `f` acts on the body, and answers
none where it breaks its own rules (error 0x04, R348). -/
def State.serveEntry (s : State) (i ty : Nat) (e : List Byte) (f : State → List Byte → Option State) : State :=
  let mine := ofLE (e.take 1) == ty
  match s.readRing i e with
  | .nothing => s
  | .stop seq => if mine then (s.ringErr i 5 seq true).writeBackRing i else s
  | .skip code seq n =>
    if mine then (s.ringErr i code seq false).passEntry i n (ty != 0) else s
  | .pad n => if mine then s.passEntry i n false else s
  | .entry seq n body =>
    if mine then
      match f s body with
      | some s => s.passEntry i n true
      | none => (s.ringErr i 4 seq false).passEntry i n true
    else s

/-- Whether an entry's type is a PAD or one that no submission ring carries. -/
def foreignEntry (e : List Byte) : Bool :=
  let ty := ofLE (e.take 1)
  !(ty == 0x10 || ty == 0x11 || ty == 0x30 || ty == 0x40)

/-- PAD_ENTRY (R346): the panel passes a PAD at a ring's head without acting on it. An entry of a type that no submission
ring carries is skipped here too (Table 13.14, code 0x01). -/
def execPadEntry (ring : Nat) (entry : List Byte) (s : State) : Res :=
  onUnit (ring < 16384) ring s fun s =>
    if foreignEntry entry then s.serveEntry ring (ofLE (entry.take 1)) entry fun s _ => some s else s

/-- HOST_ACCESS_ERROR (R323, R348): an access to a ring's memory completed with an error: the ring stops with `last_err`
0x07. -/
def execHostAccessError (ring : Nat) (s : State) : Res :=
  onUnit (ring < 16384) ring s fun s =>
    let r := s.ring ring
    when (r.live && !r.stopped) (fun s => s.ringErr ring 7 r.seq true) s

/-! ### Doorbells and shutdown -/

/-- Whether a ring has come up: live, and no deferral-log entry of it is still open (R320). -/
def RingSt.up (r : RingSt) : Bool := r.live && r.next.isNone

/-- A host position for a live ring (R347, R348): beyond the ring, or past the panel's position, stops it. -/
def State.ringPosition (s : State) (i pos : Nat) : State :=
  let r := s.ring i
  let bad := r.grans ≤ pos ||
    (if r.binding = 3 then decide (r.fill < (pos + r.grans - r.head) % r.grans)
     else decide (r.grans - 1 < r.fill + (pos + r.grans - r.tail) % r.grans))
  if r.stopped then s
  else if bad then (s.ringErr i 6 r.seq true).writeBackRing i
  else s.modRing i fun r => if r.binding = 3 then { r with head := pos } else { r with tail := pos }

/-- What a doorbell reads as (R320): head and tail of a live ring. -/
def State.doorbellWord (s : State) (off width : Nat) : Nat :=
  let r := s.ring (off / 64)
  if !r.up || 8 ≤ off % 64 then 0
  else bits (r.head + r.tail <<< 32) (8 * (off % 8)) (8 * width)

/-- RING_DOORBELL (R320, R347): an access to BAR2. -/
def execRingDoorbell (off width : Nat) (write : Bool) (data : Word64) (s : State) : Res :=
  onUnit (off < 0x100000) off s fun s =>
    if s.isIn .off || s.isIn .dark || !s.linkServes then
      if write then s else s.emit (.barOnes off)
    else if !((width == 4 || width == 8) && off % width == 0) then
      let s := s.badAccess off write 0 true
      if write then s else s.emit (.barOnes off)
    else if write then
      when ((s.ring (off / 64)).up && off % 64 == 0) (fun s => s.ringPosition (off / 64) (data.toNat % 2 ^ 32)) s
    else s.emit (.barRead off (s.doorbellWord off width))

/-- Drop counter of a telemetry record's kind (R438, R440). -/
def dropField (kind : Nat) : RF :=
  match kind with
  | 1 => Reg.TELEM_DROPS_depth_drops
  | 2 => Reg.TELEM_DROPS_channel_drops
  | 3 => Reg.TELEM_DROPS_hub_drops
  | _ => Reg.TELEM_DROPS_other_drops

/-- Ring granules of a telemetry record (R437). -/
def TelRec.grans (r : TelRec) : Nat := (16 + r.body.length + 63) / 64

/-- The records in staging, and the granules they hold as `TELEM_STATUS` shows them. -/
def State.setStaged (s : State) (rs : List TelRec) : State :=
  State.set { s with tel := { s.tel with staged := rs } } Reg.TELEM_STATUS_staged ((rs.map TelRec.grans).sum)

/-- The ring of a handle is destroyed (Table 18.5): telemetry to it turns off, records staged for it are dropped and counted. -/
def State.telemGone (s : State) (h : Nat) : State :=
  let gone := s.tel.staged.filter fun r => r.ring == h
  let s := gone.foldl (fun s r => (s.inc (dropField r.kind)).raise .telemDrop) s
  let s := if gone.isEmpty then s else s.setStaged (s.tel.staged.filter fun r => r.ring != h)
  if s.flag Reg.TELEM_STATUS_enabled ∧ s.get Reg.TELEM_STATUS_ring = h then
    s.sets [(Reg.TELEM_STATUS_enabled, 0), (Reg.TELEM_STATUS_kinds, 0), (Reg.TELEM_STATUS_ring, 0)]
  else s

/-- Destroy a live ring (R349 steps 1-3): stale handle, waiting entries discarded, and the shutdown begins. -/
def State.destroyRing (s : State) (i : Nat) : State :=
  (s.telemGone (ringHandle i (s.ring i))).modRing i fun r => { r with live := false, closing := some s.now, waiting := [], unsignalled := none }

/-- A new ring at an index (R337): empty, sequence 0, with its CHANNEL_CREATE argument. -/
def ringFromArg (gen : Nat) (arg : List Byte) (chan : Nat) : RingSt :=
  let n := fun (a k : Nat) => ofLE ((arg.drop a).take k)
  { RingSt.init with
      gen := gen, live := true, binding := n 1 1, porter := n 2 2, chan := chan, size := n 7 1, vector := n 8 4, delay := n 12 1
      base := n 16 8, wb := n 24 8 }

/-- RING_SHUTDOWN_DONE (R349, R333): within 50 us the shutdown of a destroyed ring ends; its index is free with the next
generation, and a ring whose creation waited for it comes up. -/
def execRingShutdownDone (ring : Nat) (s : State) : Res :=
  onUnit (ring < 16384) ring s fun s =>
    let r := s.ring ring
    match r.closing with
    | none => s
    | some _ =>
      let g := if r.gen = 0xFFF then 1 else r.gen + 1
      match r.next with
      | none => s.modRing ring fun _ => { RingSt.init with gen := g }
      | some (mb, e, arg) =>
        (s.modRing ring fun _ => { ringFromArg g arg r.chan with next := some (mb, e, []) }).settleDefer mb e .ok

/-- DEFERRAL_FINAL (R334): the entry of a function that has come up or failed becomes final. -/
def execDeferralFinal (mb entry : Nat) (s : State) : Res :=
  onUnit (mb < 8 ∧ entry < 64) mb s fun s =>
    match s.host.finals.find? fun f => f.1 == mb && f.2.1 == entry with
    | some f =>
      let s := s.modHost fun h =>
        { h with finals := h.finals.erase f
                 rings := SMap.mapVal (fun _ r => if r.live ∧ r.next = some (mb, entry, []) then { r with next := none } else r) h.rings }
      s.finalDefer mb entry f.2.2
    | none => s

end Sys2Proof.Machine
end

