-- ==== Sys2Proof/Machine/HubMsg.lean ====
section
/-! DEFINITION. Hub units as senders and receivers: packets into the field and their copies to the twin (R280), messages
of channels with an end at base camp (R182-R184, R344), and the items that reach the hub. -/

namespace Sys2Proof.Machine

/-! ### Packets into the field -/

/-- A hub unit's WRITE packets of granules to a cell's scratchpad, each of at most 128 granules (R166). -/
def State.hubWrite (s : State) (unit cls c o : Nat) (gs : List Gran) : State :=
  foldIdx (fun i s p => s.tpSend (c / 32) false (mkPacket 1 cls 0 unit c (spAddr c (o + 4096 * i)) 0 p)) 0 s (chunks 128 gs.length gs)

/-- A delivery of a hub unit to a cell and, in Paired service, to its twin. -/
def State.hubDeliver (s : State) (unit cls c o : Nat) (gs : List Gran) : State :=
  (s.copies c).foldl (fun s t => s.hubWrite unit cls t o gs) s

/-! ### Channels that a hub unit feeds -/

/-- A hub unit's end of a channel; at the start it has the receiver's whole storage as credit (R183). -/
def State.hubEp (s : State) (i : Nat) : HubEp :=
  let r := match (s.chan i).recv with
    | some e => if e.unit < 0xF000 then (s.ep e.unit e.ep).cfg else 0
    | none => 0
  SMap.getD s.hub.eps i ⟨epStorage r + epWingGran r, 0, []⟩

/-- Change a hub unit's end of a channel. -/
def State.modHubEp (s : State) (i : Nat) (f : HubEp → HubEp) : State :=
  s.modHub fun h => { h with eps := SMap.put h.eps i (f (s.hubEp i)) }

/-- Clocks that a message of a hub unit has waited for credit; base camp's units count the house clock's ns (log 128). -/
def State.hubStall (s : State) (i : Nat) (waits : Bool) : State :=
  s.modChan i fun ch => { ch with hub := { ch.hub with
    stall := satAdd 48 ch.hub.stall (s.now - ch.hub.since.getD s.now), since := if waits then some s.now else none } }

/-- Send the messages that wait at a hub unit's end of a channel as far as its credit lasts (R184); not on a channel that is being shut
down (R180). -/
def State.hubPump (s : State) (i : Nat) : Nat → State
  | 0 => s
  | n + 1 =>
    let e := s.hubEp i
    let ch := s.chan i
    match e.waiting, ch.send, ch.recv with
    | m :: rest, some a, some b =>
      if b.unit < 0xF000 ∧ ch.live ∧ !ch.draining ∧ ch.next.isNone then
        let r := (s.ep b.unit b.ep).cfg
        let size := epStorage r
        let len := if epWings r ≠ 0 then epMaxGran r else m.length
        let room := size - e.tail
        let h := handleOf i ch
        let put := fun (s : State) (pad : Nat) (gs : List Gran) =>
          (s.copies b.unit).foldl (fun s t => s.tpSend (t / 32) false (mkPacket 4 4 0 a.unit t pad h gs)) s
        if epWings r = 0 ∧ room < len ∧ room ≤ e.credit then
          State.hubPump ((s.modHubEp i fun e => { e with credit := e.credit - room, tail := 0 }) |> (put · room [])) i n
        else if len ≤ e.credit ∧ (epWings r ≠ 0 ∨ len ≤ room) then
          let s := ((s.hubStall i false).modChan i fun ch => { ch with hub := { ch.hub with sent := satAdd 48 ch.hub.sent 1 } }).modHubEp i
            fun e => { e with credit := e.credit - len, waiting := rest, tail := if size = 0 then 0 else (e.tail + len) % size }
          State.hubPump (put s 0 m) i n
        else s.hubStall i true
      else s
    | _, _, _ => s

/-- A hub unit sends a message on a channel (R264, R344). -/
def State.hubSend (s : State) (i : Nat) (gs : List Gran) : State :=
  let s := s.modHubEp i fun e => { e with waiting := e.waiting ++ [gs] }
  s.hubPump i (2 * (s.hubEp i).waiting.length)

/-- Credit items that reached the hub raise the credit of the ends they name (R183); items of another epoch are dropped
(R313). -/
def State.hubCredits (s : State) : State :=
  let cs := s.mesh.hubItems.filter fun it => it.ty == 2
  let s := { s with mesh := { s.mesh with hubItems := s.mesh.hubItems.filter fun it => it.ty != 2 && !s.staleItem it } }
  cs.foldl (fun s it =>
    if s.staleItem it then s
    else match s.chans.find? fun p => p.2.live && p.2.recv == some ⟨it.src, it.srcEp⟩ with
      | some p =>
        let s := s.modHubEp p.1 fun e => { e with credit := e.credit + it.w1 % 2 ^ 16 }
        s.hubPump p.1 (2 * (s.hubEp p.1).waiting.length)
      | none => s) s

/-! ### Messages to hub units -/

/-- Return the credit of a consumed message to the cell that sent it (R183). -/
def State.hubReturn (s : State) (ch : ChanSt) (n : Nat) : State :=
  match ch.send, ch.recv with
  | some a, some b => if a.unit < 0xF000 ∧ n ≠ 0 then s.sendItem ⟨2, 0, a.unit, a.ep, b.unit % 2 ^ 16, b.ep, 0, n, 0⟩ else s
  | _, _ => s

/-- The MESSAGE completion entry of a message (Table 13.13): poisoned granules are written as zero. -/
def messageEntry (h : Nat) (gs : List Gran) : RingEntry :=
  ⟨0x40, toLE 4 h ++ toLE 4 (32 * gs.length) ++ toLE 1 (b2n (gs.any (·.poison))) ++ toLE 7 0 ++
    gs.flatMap fun g => if g.poison then List.replicate 32 0 else g.data⟩

/-- Whether the unit that receives a channel can take a message now: a host ring while its queue has room. -/
def State.hubTakes (s : State) (m : Msg) : Bool :=
  match (s.chan (hIndex m.handle)).recv with
  | some e => if 0x10000 ≤ e.unit then s.noRoom (e.unit - 0x10000) < 64 else true
  | none => true

/-- A hub unit takes a message: a stale one or one of another epoch is discarded; a host ring makes an entry of it;
the credit returns. -/
def State.hubTake (s : State) (m : Msg) : State :=
  let ch := s.chan (hIndex m.handle)
  let n := if m.pad ≠ 0 then m.pad else m.grans.length
  let stale := match ch.send with
    | some a => decide (a.unit < 0xF000) && m.epoch != s.epoch4 a.unit
    | none => false
  if !ch.live || ch.gen != hGen m.handle || ch.ty != hType m.handle then s
  else if stale || m.pad != 0 then s.hubReturn ch n
  else match ch.recv with
    | some e =>
      let s := s.modChan (hIndex m.handle) fun ch => { ch with hub := { ch.hub with got := satAdd 48 ch.hub.got 1 } }
      let s := if 0x10000 ≤ e.unit then s.post (ringHandle (e.unit - 0x10000) (s.ring (e.unit - 0x10000))) (messageEntry m.handle m.grans)
        else s
      s.hubReturn ch n
    | none => s

/-- Take the messages that wait at the hub, in order, as far as their units can. -/
def State.hubIntake (s : State) : State :=
  s.mesh.hubMsgs.foldl (fun s m =>
    if s.hubTakes m then s.hubTake m else { s with mesh := { s.mesh with hubMsgs := s.mesh.hubMsgs ++ [m] } })
    { s with mesh := { s.mesh with hubMsgs := [] } }

/-- COMPLETION_DELIVERY (R247, R345-R347): the oldest waiting completion entry of a ring is written when it has room;
messages that waited for the ring's queue are taken first. -/
def execCompletionDelivery (ring : Nat) (s : State) : Res :=
  onUnit (ring < 16384) ring s fun s =>
    let s := s.hubIntake
    when (s.ringsRun && (s.ring ring).live && !(s.ring ring).stopped && (s.ring ring).binding == 3) (fun s => s.deliverEntry ring) s

/-- MESSAGE_ENTRY (R344): a message submission entry is sent to the joined endpoint. -/
def execMessageEntry (ring : Nat) (entry : List Byte) (s : State) : Res :=
  onUnit (ring < 16384) ring s fun s =>
    let s := s.hubCredits
    s.serveEntry ring 0x40 entry fun s b =>
      let n := fun (a k : Nat) => ofLE ((b.drop a).take k)
      let len := n 4 4
      let ch := s.chan (hIndex (n 0 4))
      let mine := ch.live && !ch.draining && handleOf (hIndex (n 0 4)) ch == n 0 4 && ch.send == some ⟨0x10000 + ring, 0⟩
      let r := match ch.recv with
        | some e => if e.unit < 0xF000 then (s.ep e.unit e.ep).cfg else 0
        | none => 0
      if !mine || len < 32 || 4096 < len || n 8 1 / 2 != 0 || n 9 7 != 0 || (b.drop 16).length < len ||
          epMaxGran r < (len + 31) / 32 then none
      else some (s.hubSend (hIndex (n 0 4)) (toGrans (fun _ => n 8 1 == 1) ((b.drop 16).take len)))

end Sys2Proof.Machine
end

