-- ==== Sys2Proof/Machine/PorterQ.lean ====
section
/-! DEFINITION. Porter queues (R260). -/

namespace Sys2Proof.Machine

/-- A porter at rest. -/
def PorterSt.init : PorterSt := ⟨[], none, .idle, 0, 0, 0, 0, []⟩
/-- A porter. -/
def State.porter (s : State) (p : Nat) : PorterSt := SMap.getD s.hub.porters p .init
/-- Change a porter. -/
def State.modPorter (s : State) (p : Nat) (f : PorterSt → PorterSt) : State :=
  s.modHub fun h => { h with porters := SMap.put h.porters p (f (s.porter p)) }

/-- A descriptor joins a porter's queue: it takes the queue's next number (R261). -/
def State.queueDesc (s : State) (p : Nat) (d : Desc) : State :=
  s.modPorter p fun x => { x with queue := x.queue ++ [{ d with trail := d.trail ++ [(p, x.subs)] }], subs := x.subs + 1 }

/-- Whether a porter's queue has room (R260). -/
def State.porterRoom (s : State) (p : Nat) : Bool := (s.porter p).queue.length < 256

/-! ### Firmware's descriptors (R260) -/

/-- The porter with the fewest pending descriptors, the lowest number first (log 129). -/
def State.idlest (s : State) : Nat :=
  (List.range 64).foldl (fun b p => if (s.porter p).queue.length < (s.porter b).queue.length then p else b) 0

/-- Submit firmware's waiting descriptors, in order, while a queue has room (R260). -/
def State.fwFeed (s : State) : State :=
  s.hub.fw.foldl (fun s d =>
    let p := s.idlest
    if s.porterRoom p then s.queueDesc p d else s.modHub fun h => { h with fw := h.fw ++ [d] }) (s.modHub fun h => { h with fw := [] })

/-- Stage-core firmware submits descriptors; what finds no room waits (R260). -/
def State.fwSubmit (s : State) (ds : List Desc) : State := (s.modHub fun h => { h with fw := h.fw ++ ds }).fwFeed

/-- A copy by firmware in class 1, the porters' default: spaces of both ends, addresses and length; `data` where the bytes are
firmware's own. -/
def fwCopy (src dst len : Nat) (data : List Gran) : Desc := ⟨[1 + 1 <<< 8 + len <<< 32, src, dst, 0, 0, 0, 0, 0], 0, 1, 0, data, []⟩

end Sys2Proof.Machine
end

