-- ==== Sys2Proof/Machine/Rope.lean ====
section
/-! DEFINITION. Rope ports: the link layer (R379-R381), streams and forwarding (R385, R386), and the team reducer
(R387-R393). -/

namespace Sys2Proof.Machine

/-! ### Frames (Table 15.3) -/

/-- A little-endian field of a frame header. -/
def fld (f : RopeFrame) (o k : Nat) : Nat := ofLE ((f.hdr.drop o).take k)
/-- Type. -/
def fType (f : RopeFrame) : Nat := fld f 0 1
/-- Flags: `last`, `poisoned`, `empty`, `nak`, `key_gen`. -/
def fFlags (f : RopeFrame) : Nat := fld f 1 1
/-- Payload granules. -/
def fLen (f : RopeFrame) : Nat := fld f 2 1
/-- Forwarding hops left. -/
def fHops (f : RopeFrame) : Nat := fld f 3 1
/-- Link sequence number. -/
def fSeq (f : RopeFrame) : Nat := fld f 4 2
/-- Cumulative acknowledgement. -/
def fAck (f : RopeFrame) : Nat := fld f 6 2
/-- Cumulative granules freed. -/
def fCredit (f : RopeFrame) : Nat := fld f 8 2
/-- Sending rank. -/
def fSrc (f : RopeFrame) : Nat := fld f 10 2 % 4096
/-- Receiving rank. -/
def fDst (f : RopeFrame) : Nat := fld f 12 2 % 4096
/-- Stream or shard. -/
def fStream (f : RopeFrame) : Nat := fld f 14 2
/-- Granules from the start of the transfer. -/
def fOffset (f : RopeFrame) : Nat := fld f 16 4
/-- Reduction step. -/
def fStep (f : RopeFrame) : Nat := fld f 20 4
/-- Contributors of a PARTIAL. -/
def fCount (f : RopeFrame) : Nat := fld f 24 2
/-- Marks of a PARAM. -/
def fMarks (f : RopeFrame) : Nat := fld f 26 1
/-- Whether the payload is poisoned. -/
def fPoison (f : RopeFrame) : Bool := bitAt (fFlags f) 1
/-- Payload as granules, all poisoned when the frame says so (R385). -/
def fGrans (f : RopeFrame) : List Gran := toGrans (fun _ => fPoison f) f.payload

/-- A frame header (Table 15.3); `seq`, `ack` and `credit` are set when it is sent. -/
def ropeHdr (ty flags len hops src dst stream offset step count marks : Nat) : List Byte :=
  toLE 1 ty ++ toLE 1 flags ++ toLE 1 len ++ toLE 1 hops ++ toLE 6 0 ++ toLE 2 src ++ toLE 2 dst ++ toLE 2 stream ++
    toLE 4 offset ++ toLE 4 step ++ toLE 2 count ++ toLE 1 marks ++ toLE 5 0

/-- A frame with bytes of its header replaced. -/
def setFld (f : RopeFrame) (o k v : Nat) : RopeFrame :=
  { f with hdr := f.hdr.take o ++ toLE k v ++ f.hdr.drop (o + k) }

/-! ### Ports and rings -/

/-- A port whose link has just come up (R380). -/
def RopePortSt.init : RopePortSt := ⟨[], 0, [], 0, 0, 0, 0, 0, false, 0, 0, 0, 0, 0, 0, 0, [], [], 0, [], none, [], false, 0, []⟩
/-- A ring with nothing set up. -/
def RopeRingSt.init : RopeRingSt := ⟨0, 0, 0, 0, none⟩
/-- Change the rope's state. -/
def State.modRope (s : State) (f : RopeSt → RopeSt) : State := { s with rope := f s.rope }
/-- A rope port. -/
def State.rport (s : State) (p : Nat) : RopePortSt := SMap.getD s.rope.ports p .init
/-- Change a rope port. -/
def State.modPortR (s : State) (p : Nat) (f : RopePortSt → RopePortSt) : State :=
  s.modRope fun r => { r with ports := SMap.put r.ports p (f (s.rport p)) }
/-- A rope ring. -/
def State.rring (s : State) (i : Nat) : RopeRingSt := SMap.getD s.rope.rings i .init
/-- Change a rope ring. -/
def State.modRingR (s : State) (i : Nat) (f : RopeRingSt → RopeRingSt) : State :=
  s.modRope fun r => { r with rings := SMap.put r.rings i (f (s.rring i)) }

/-- State of a ring (Table 15.2). -/
def State.ringSt (s : State) (i : Nat) : Nat := s.get (Reg.ROPE_STATUS_state (2 * i))

/-- Set a ring's state on both its ports; the bypass is closed in every state but OPENING and UP (R377); a change of state raises the
rope event (Table 19.4). -/
def State.setRing (s : State) (i st : Nat) : State :=
  let same : Bool := s.ringSt i == st
  let s := s.sets [(Reg.ROPE_STATUS_state (2 * i), st), (Reg.ROPE_STATUS_state (2 * i + 1), st)]
  let s := if st = 3 ∨ st = 4 then s
    else s.sets [(Reg.ROPE_STATUS_bypass_open (2 * i), 0), (Reg.ROPE_STATUS_bypass_open (2 * i + 1), 0)]
  if same then s else s.raise .rope

/-- The link state of a ring's ports is lost: frames that wait or are unacknowledged are gone. -/
def State.resetLinks (s : State) (i : Nat) : State :=
  let keep := fun (x : RopePortSt) => { RopePortSt.init with lanes := x.lanes }
  (s.modPortR (2 * i) keep).modPortR (2 * i + 1) keep

/-- The sessions of a ring end and its bypass closes (R384, R395). -/
def State.endRing (s : State) (i st : Nat) : State :=
  ((s.setRing i st).resetLinks i).modRingR i fun r => { r with session := 0, breakAt := 0 }

/-- Every port resets and every bypass closes (R377, R395); the peer list stays in flash, and lanes that wait for a spare keep
waiting for the next training (R375). -/
def State.resetRope (s : State) : State :=
  ((List.range 3).foldl (fun s i => s.endRing i 0) s).modRope fun r => { r with rings := [], steps := [], team := none, former := none, landings := [] }

/-- The ring goes DOWN (R378, R380, R381). -/
def State.ringDown (s : State) (i : Nat) : State := s.endRing i 7

/-- Whether a port carries frames: its ring is UP, or DISABLING for what is still unacknowledged. -/
def State.portUp (s : State) (p : Nat) : Bool := s.ringSt (p / 2) == 4

/-! ### Sending (R380) -/

/-- Granules a frame costs. -/
def ropeCost (f : RopeFrame) : Nat := f.payload.length / 32 + 2

/-- The key of what a port sends (R382): the first 32 B of the session's 64 key the downstream direction, which a stage-right
port sends; the last 32 key the upstream one. -/
def RopePortSt.sendKey (x : RopePortSt) (p : Nat) : List Byte := (x.keys.drop (32 * (1 - p % 2))).take 32

/-- A frame as it goes on the wire (R381): its payload encrypted with its 32 B header as additional data, and the 16 B tag behind
it. The nonce is the key generation and the frame number; in CTRL bit 31 of its first word is set and the control counter
is the number. HELLO and SESSION go in clear with a tag of zeros (R383). -/
def RopePortSt.sealed (x : RopePortSt) (p num : Nat) (f : RopeFrame) : RopeFrame :=
  if fType f = 5 ∨ fType f = 6 then { f with payload := f.payload ++ List.replicate 16 0 }
  else
    let c := Config.aesGcm (x.sendKey p) (toLE 4 (x.keyGen + b2n (fType f == 4) <<< 31) ++ toLE 8 num) f.hdr f.payload
    { f with payload := c.1 ++ c.2 }

/-- Put the link fields in a frame: sequence, acknowledgement, credit, key generation. -/
def RopePortSt.stamp (x : RopePortSt) (f : RopeFrame) : RopeFrame :=
  let f := setFld (setFld (setFld f 4 2 x.next) 6 2 x.expect) 8 2 x.freed
  setFld f 1 1 (setBits (fFlags f) 4 4 x.keyGen)

/-- Send the frames that wait while credit and the window of 512 allow. -/
def State.ropePump (s : State) (p : Nat) : Nat → State
  | 0 => s
  | n + 1 =>
    let x := s.rport p
    match x.waiting with
    | [] => s
    | f :: rest =>
      if x.unacked.length < 512 ∧ ropeCost f + x.sent ≤ 32768 + x.credit then
        let g := x.sealed p x.num (x.stamp f)
        let s := s.modPortR p fun x =>
          { x with waiting := rest, unacked := x.unacked ++ [g], next := (x.next + 1) % 2 ^ 16, sent := x.sent + ropeCost f
                   num := x.num + 1, frames := x.frames + 1, accepted := 0, progressAt := if x.unacked.isEmpty then s.now else x.progressAt }
        State.ropePump (s.emit (.rope p g)) p n
      else s

/-- Hand a frame to a port's sender; it takes rope bandwidth in class 2 (R248). -/
def State.ropeSend (s : State) (p : Nat) (f : RopeFrame) : State :=
  let s := (s.modPortR p fun x => { x with waiting := x.waiting ++ [f] }).request (4 + 2 * p) 2 0 (32 + f.payload.length + 16)
  s.ropePump p (s.rport p).waiting.length

/-- Send a CTRL frame with a payload: cumulative acknowledgement and credit, `nak` where asked; it takes no `seq`. -/
def State.ropeCtrlWith (s : State) (p : Nat) (nak : Bool) (data : List Byte) : State :=
  let x := s.rport p
  let f : RopeFrame := ⟨ropeHdr 4 (8 * b2n nak + x.keyGen <<< 4) (data.length / 32) 0 0 0 0 0 0 0 0, data, true, 0⟩
  let f := setFld (setFld (setFld f 6 2 x.expect) 8 2 x.freed) 16 8 x.ctrl
  (s.modPortR p fun x => { x with ctrl := x.ctrl + 1, accepted := 0, nakSent := x.nakSent || nak }).emit (.rope p (x.sealed p x.ctrl f))

/-- Send a CTRL frame (R380). -/
def State.ropeCtrl (s : State) (p : Nat) (nak : Bool) : State := s.ropeCtrlWith p nak []

/-- Acknowledgement and credit of a frame that a port received (R380). -/
def State.ropeAcked (s : State) (p : Nat) (f : RopeFrame) : State :=
  let x := s.rport p
  let base := (x.next + 2 ^ 16 - x.unacked.length) % 2 ^ 16
  let k := (fAck f + 2 ^ 16 - base) % 2 ^ 16
  let s := if k ≤ x.unacked.length ∧ k ≠ 0 then
      s.modPortR p fun x => { x with unacked := x.unacked.drop k, replays := 0, progressAt := s.now }
    else s
  let d := (fCredit f + 2 ^ 16 - x.credit % 2 ^ 16) % 2 ^ 16
  let s := if d < 2 ^ 15 + 1 then s.modPortR p fun x => { x with credit := x.credit + d } else s
  s.ropePump p (s.rport p).waiting.length

/-- Replay from the oldest unacknowledged frame (R380): counted; after 32 without progress the port retrains
(ROPE_TRAINING_DONE; log 27). -/
def State.ropeReplay (s : State) (p : Nat) : State :=
  let x := s.rport p
  if x.unacked.isEmpty then s
  else if 32 ≤ x.replays then
    (s.inc (Reg.ROPE_STATUS_retrain_count p)).modPortR p fun x => { x with trained := false, replays := 0 }
  else ((s.inc (Reg.ROPE_COUNTS_replay_count p)).modPortR p fun x => { x with replays := x.replays + 1, progressAt := s.now }).emits
    (x.unacked.map fun f => .rope p f)

/-! ### Receiving (R380, R381) -/

/-- A frame whose tag fails is discarded and counted; 16 within 1 ms end the session and the ring goes DOWN (R381). -/
def State.tagFail (s : State) (p : Nat) : State :=
  let ts := (s.rport p).tagFails.filter (fun t => s.now < t + 1000000) ++ [s.now]
  let s := (s.inc (Reg.ROPE_COUNTS_tag_fail_count p)).modPortR p fun x => { x with tagFails := ts }
  if 16 ≤ ts.length then s.ringDown (p / 2) else s

/-- The first discard after an accepted frame sends a nak (R380). -/
def State.ropeNak (s : State) (p : Nat) : State :=
  if (s.rport p).nakSent ∨ s.ringSt (p / 2) = 7 then s else s.ropeCtrl p true

/-- Receive a frame other than CTRL: accepted when it is the expected one, no codeword of it is uncorrectable (R379) and its
tag passes, where it is checked; otherwise discarded, with one nak. Whether it was accepted, and the state. A frame under the
current key generation ends the old keys (R384). -/
def State.ropeReceive (s : State) (p : Nat) (f : RopeFrame) (tagged : Bool) : Bool × State :=
  let x := s.rport p
  if f.fec ≠ 0 then (false, (s.inc (Reg.ROPE_COUNTS_fec_uncorrected p) f.fec).ropeNak p)
  else if tagged ∧ !f.tagOk then (false, (s.tagFail p).ropeNak p)
  else if fSeq f ≠ x.expect then (false, s.ropeNak p)
  else
    let s := s.modPortR p fun x =>
      { x with expect := (x.expect + 1) % 2 ^ 16, nakSent := false, freed := x.freed + ropeCost f
               oldKeys := if tagged ∧ bits (fFlags f) 4 4 = x.keyGen then [] else x.oldKeys
               ackAt := if x.accepted = 0 then s.now else x.ackAt, accepted := x.accepted + 1 }
    let s := (s.ropeAcked p f).request (3 + 2 * p) 2 0 (32 + f.payload.length + 16)
    (true, if 64 ≤ (s.rport p).accepted then s.ropeCtrl p false else s)

/-- ROPE_ACK_TIMER (R380): 2 us after the first unacknowledged acceptance, an acknowledgement goes. -/
def execRopeAckTimer (port : Nat) (s : State) : Res :=
  onUnit (port < 6) port s fun s =>
    let x := s.rport port
    when (x.accepted != 0 && x.ackAt + 2000 ≤ s.now) (fun s => s.ropeCtrl port false) s

/-- ROPE_REPLAY_TIMEOUT (R380): 10 us without progress. -/
def execRopeReplayTimeout (port : Nat) (s : State) : Res :=
  onUnit (port < 6) port s fun s =>
    let x := s.rport port
    when (!x.unacked.isEmpty && x.trained && x.progressAt + 10000 ≤ s.now) (fun s => s.ropeReplay port) s

/-! ### Routing by rank (R386, R387) -/

/-- Whether a rank is the panel's own: that of its team, or of the team that an unload cleared (R395). -/
def State.ownRank (s : State) (r : Nat) : Bool :=
  match s.rope.team with
  | some t => t.rank == r
  | none => s.rope.former == some r

/-- Port and hops towards a rank, from the rank table (Table 15.6). -/
def Team.way (t : Team) (r : Nat) : Nat × Nat :=
  let e := nth t.ranks r 0
  (bits e 0 2 * 2 + bits e 2 1, bits e 3 8)

/-- Forward a frame by the other port of its ring (R386): `hops` down by one; without hops left it is discarded and
counted. Forwarding needs both ports UP. -/
def State.ropeForward (s : State) (p : Nat) (f : RopeFrame) : State :=
  if fHops f = 0 then s.inc (Reg.ROPE_COUNTS_fwd_drop_count p)
  else if s.portUp p then s.ropeSend (p / 2 * 2 + (1 - p % 2)) (setFld f 3 1 (fHops f - 1)) else s

/-- Frames of a transfer (R379, R385): pieces of 128 granules, `last` on the final one, `poisoned` where a granule of the
piece is; an empty transfer is one empty frame. -/
def ropeFrames (ty flags hops src dst stream step count marks off : Nat) (gs : List Gran) : List RopeFrame :=
  let ps := if gs.isEmpty then [[]] else chunks 128 gs.length gs
  foldIdx (fun i acc (c : List Gran) => acc ++ [⟨ropeHdr ty (flags + b2n (i + 1 == ps.length) + (b2n (c.any (·.poison))) <<< 1)
    c.length hops src dst stream (off + 128 * i) step count marks, gransBytes c, true, 0⟩]) 0 [] ps

/-- Send a transfer to a rank of the team. -/
def State.ropeTo (s : State) (t : Team) (ty flags dst stream step count marks off : Nat) (gs : List Gran) : State :=
  let w := t.way dst
  (ropeFrames ty flags w.2 t.rank dst stream step count marks off gs).foldl (fun s f => s.ropeSend w.1 f) s

/-- STREAM_FRAME (R385, R386): an accepted frame for this rank lands in its stream's landing, in class 2, or is discarded
and counted; one for another rank is forwarded. -/
def execStreamFrame (port : Nat) (frame : FrameRead) (s : State) : Res :=
  onUnit (port < 6) port s fun s =>
    if fType frame.frame = 1 ∧ s.portUp port then
      let r := s.ropeReceive port frame.frame true
      if !r.1 then r.2
      else if !r.2.ownRank (fDst frame.frame) then r.2.ropeForward port frame.frame
      else match SMap.get? r.2.rope.landings (fStream frame.frame) with
        | some (base, len) =>
          if 32 * fOffset frame.frame + frame.frame.payload.length ≤ len then
            (r.2.request 0 2 0 frame.frame.payload.length).writeGrans (base + 32 * fOffset frame.frame) (fGrans frame.frame) frame.dram
          else r.2.inc (Reg.ROPE_COUNTS_landing_drop_count port)
        | none => r.2.inc (Reg.ROPE_COUNTS_landing_drop_count port)
    else s

/-! ### The reducer (R388-R393) -/

/-- Virtual rank of a rank for a shard (R388). -/
def Team.virt (t : Team) (sh r : Nat) : Nat := (r + t.n - sh % t.n) % t.n
/-- The rank of a virtual rank. -/
def Team.real (t : Team) (sh v : Nat) : Nat := (v + sh) % t.n
/-- The panel's own virtual rank. -/
def Team.self (t : Team) (sh : Nat) : Nat := t.virt sh t.rank
/-- Ranks of the children of this node. -/
def Team.children (t : Team) (sh : Nat) : List Nat :=
  let v := t.self sh
  ([2 * v + 1, 2 * v + 2].filter (· < t.n)).map (t.real sh)
/-- Rank of the parent of this node. -/
def Team.parent (t : Team) (sh : Nat) : Nat := t.real sh ((t.self sh - 1) / 2)
/-- Depth of a virtual rank (R388). -/
def depthOf (v : Nat) : Nat := Nat.log2 (v + 1)
/-- Opening time of step k (R389). -/
def Team.openOf (t : Team) (k : Nat) : Nat := t.t0 + k * t.period
/-- Cutoff of step k at this node (R389). -/
def Team.cutoff (t : Team) (sh k : Nat) : Nat := t.openOf k + t.cut - depthOf (t.self sh) * t.level
/-- The shard record of a number. -/
def Team.shardOf (t : Team) (sh : Nat) : Option Shard := t.shards.find? fun x => x.shard == sh
/-- The buffer half of step k (Table 15.6). -/
def Shard.buf (x : Shard) (k : Nat) : Nat := x.rbuf + k % 2 * x.bytes

/-- An open step of a shard. -/
def State.redStep (s : State) (sh k : Nat) : Option RedStep := s.rope.steps.find? fun x => x.shard == sh && x.k == k
/-- Change a step. -/
def State.modRed (s : State) (sh k : Nat) (f : RedStep → RedStep) : State :=
  s.modRope fun r => { r with steps := r.steps.map fun x => if x.shard == sh && x.k == k then f x else x }

/-- The granule of the starting value of a buffer: −0 in every element (R390). -/
def redZero : Gran := ⟨(List.replicate 8 [0x00, 0x00, 0x00, 0x80]).flatten, false⟩

/-- REDUCTION_STEP_OPEN (R389, R390): at open_k, in RUNNING, step k of every shard opens and its buffer starts as −0; a step
of the same parity that is older ends without a trace. -/
def execReductionStepOpen (k : Nat) (s : State) : Res :=
  .next <|
    match s.rope.team with
    | some t =>
      when (s.isIn .running && t.openOf k ≤ s.now && s.rope.steps.all fun x => x.k < k) (fun s =>
        t.shards.foldl (fun s x =>
          let s := s.modRope fun r =>
            { r with steps := (r.steps.filter fun y => y.shard != x.shard || k < y.k + 2) ++ [⟨x.shard, k, [], [], false, 0, 0, 0, false⟩] }
          (s.request 0 2 0 x.bytes).writeGrans (x.buf k) (List.replicate (x.bytes / 32) redZero) []) s) s
    | none => s

/-- Write a step notice (R393, Table 15.4): the reducer hands a porter a 32 B write into the window of the shard's cell. -/
def State.notice (s : State) (x : Shard) (kind : Nat) (r : RedStep) : State :=
  let flags := r.marks + (b2n (r.late.contains none)) <<< 2
  let data := toLE 1 kind ++ toLE 1 flags ++ toLE 2 x.shard ++ toLE 4 r.k ++ toLE 2 r.count ++ toLE 6 0 ++ toLE 8 s.now ++ toLE 8 0
  match s.physical x.notify with
  | some c =>
    let w := (s.win c x.window).map Win.start
    s.fwSubmit [⟨[1 + 1 <<< 5 + 1 <<< 8 + 32 <<< 32, 0, spAddr c (w.getD 0), 0, x.window, 0, 0, 0], 0, 0, 0, [⟨data, false⟩], []⟩]
  | none => s

/-- Divide a buffer by the count (R391): FP32 elements, rounded to nearest even. -/
def divGran (count : Nat) (g : Gran) : Gran :=
  let d := int32ToFp32 count
  ⟨(List.range 8).flatMap fun j => toLE 4 (fdiv32 (ofLE ((g.data.drop (4 * j)).take 4)) d), g.poison⟩

/-- The end of the loop of R390 at this node: the summit step (R391), or the partial to the parent. A step whose contributions
are all complete is not abandoned. -/
def State.endStep (s : State) (t : Team) (x : Shard) (k : Nat) (abandon : Bool)
    (dram : List DramErr) : State :=
  match s.redStep x.shard k with
  | none => s
  | some r =>
    if r.ended then s
    else
      let abandoned := abandon && r.contribs.any fun c => !c.complete
      let whole := r.contribs.filter (·.complete)
      let count := if abandoned then 0 else (whole.map (·.count)).foldl (· + ·) 0
      let s := (s.modRed x.shard k fun r => { r with ended := true, count := count }).inc Reg.ROPE_RED_COUNTS_late_in (b2n abandoned)
      if t.self x.shard = 0 then
        let r := { r with count := count }
        if x.bytes = 0 then
          -- a team barrier: an empty PARAM goes down at once (R391)
          let s := (t.children x.shard).foldl (fun s c => s.ropeTo t 3 4 c x.shard k 0 0 0 []) s
          (s.modRed x.shard k fun r => { r with landed := true }).notice x 4 r
        else if count = 0 then s.notice x 3 r
        else
          let g := s.readDram (x.buf k) x.bytes dram
          (((g.2.request 0 2 0 (2 * x.bytes)).writeGrans (x.buf k) (g.1.map (divGran count)) [])).notice x 1 r
      else
        let g := if count = 0 then ([], s) else (s.request 0 2 0 x.bytes).readDram (x.buf k) x.bytes dram
        g.2.ropeTo t 2 (if count = 0 then 4 else 0) (t.parent x.shard) x.shard k count 0 0 g.1

/-- Whether the local contribution and every child have reported in time (R390). -/
def RedStep.full (r : RedStep) (kids : List Nat) : Bool :=
  (none :: kids.map some).all fun c => r.contribs.any fun x => x.child == c && x.complete

/-- Add granules of a contribution into the buffer from a byte offset on (R56, R390); `fmt` as in Table 15.6. -/
def State.redAdd (s : State) (buf fmt off : Nat) (gs : List Gran) (dram : List DramErr) : State :=
  foldIdx (fun i s g =>
    let k := if fmt = 1 then 2 else 1
    let a := buf + off * k + 32 * k * i
    let old := s.readDram a (32 * k) dram
    old.2.writeGrans a (chorusAdd fmt old.1 0 g) []) 0 s gs

/-- A piece of a contribution reaches the reducer (R389, R390): its stamp is that of its first byte; a late one is
discarded and counted; `total` is the whole contribution's length. -/
def State.contribute (s : State) (t : Team) (x : Shard) (k : Nat) (child : Option Nat) (fmt count off total : Nat)
    (gs : List Gran) (dram : List DramErr) : State :=
  match s.redStep x.shard k with
  | none => s.inc (if child.isNone then Reg.ROPE_RED_COUNTS_late_local else Reg.ROPE_RED_COUNTS_late_in)
  | some r =>
    let known := r.contribs.find? fun c => c.child == child
    if known.isNone ∧ (t.cutoff x.shard k ≤ s.now ∨ s.now < t.openOf k ∨ r.ended) then
      if r.late.contains child then s
      else (s.modRed x.shard k fun r => { r with late := r.late ++ [child] }).inc
        (if child.isNone then Reg.ROPE_RED_COUNTS_late_local else Reg.ROPE_RED_COUNTS_late_in)
    else if r.ended then s
    else
      let c := known.getD ⟨child, s.now, 0, count, false⟩
      let got := c.got + 32 * gs.length
      let c := { c with got := got, complete := total ≤ got }
      let s := if off + 32 * gs.length ≤ total then (s.request 0 2 0 (64 * gs.length)).redAdd (x.buf k) fmt off gs dram else s
      let s := s.modRed x.shard k fun r => { r with contribs := (r.contribs.filter fun y => y.child != child) ++ [c] }
      match s.redStep x.shard k with
      | some r =>
        if r.full (t.children x.shard) || (decide (t.cutoff x.shard k ≤ s.now) && r.contribs.all (·.complete)) then
          s.endStep t x k false dram else s
      | none => s

/-- PARTIAL_FRAME (R386, R390): a piece of a child's partial is added, in FP32; an empty partial reports a count of 0. -/
def execPartialFrame (port : Nat) (frame : FrameRead) (s : State) : Res :=
  onUnit (port < 6) port s fun s =>
    if fType frame.frame = 2 ∧ s.portUp port then
      let r := s.ropeReceive port frame.frame true
      let s := r.2
      if !r.1 then s
      else match s.rope.team with
        | some t =>
          if t.rank ≠ fDst frame.frame then s.ropeForward port frame.frame
          else match t.shardOf (fStream frame.frame) with
            | some x =>
              if bitAt (fFlags frame.frame) 2 then s.contribute t x (fStep frame.frame) (some (fSrc frame.frame)) 0 0 0 0 [] frame.dram
              else s.contribute t x (fStep frame.frame) (some (fSrc frame.frame)) 0 (fCount frame.frame) (32 * fOffset frame.frame) x.bytes (fGrans frame.frame) frame.dram
            | none => s.inc Reg.ROPE_RED_COUNTS_late_in
        | none => if s.ownRank (fDst frame.frame) then s.inc Reg.ROPE_RED_COUNTS_late_in else s.ropeForward port frame.frame
    else s

/-- Marks of the PARAM frames to a child (R392). -/
def RedStep.marksFor (r : RedStep) (c : Nat) : Nat :=
  let latest := (r.contribs.map (·.stamp)).foldl max 0
  b2n (r.contribs.any fun x => x.child == some c && x.stamp == latest) + (b2n (r.late.contains (some c))) <<< 1

/-- Send a piece of the broadcast to a child: `last` stands on the final frame of the transfer that the piece ends, if it ends one. -/
def State.paramsTo (s : State) (t : Team) (x : Shard) (k off : Nat) (last : Bool) (marks : Nat) (gs : List Gran) (c : Nat) : State :=
  let w := t.way c
  (ropeFrames 3 (if gs.isEmpty then 4 else 0) w.2 t.rank c x.shard k 0 marks (off / 32) gs).foldl (fun s f =>
    s.ropeSend w.1 (if last then f else setFld f 1 1 (fFlags f / 2 * 2))) s

/-- Parameters at a member (R391): they land, unless the panel is recovering (R395), go on to the children, and
PARAMS_LANDED or BARRIER_DONE follows once all have landed. Bytes beyond `param_bytes` do not land (log 40). -/
def State.params (s : State) (t : Team) (x : Shard) (k off : Nat) (last : Bool) (gs : List Gran) (dram : List DramErr) : State :=
  let r := (s.redStep x.shard k).getD ⟨x.shard, k, [], [], true, 0, 0, 0, false⟩
  let s := (t.children x.shard).foldl (fun s c => s.paramsTo t x k off last (r.marksFor c) gs c) s
  if s.isIn .recovering then s
  else
    let gs := gs.take ((x.paramBytes - off) / 32)
    let s := (s.request 0 2 0 (32 * gs.length)).writeGrans (x.paramAddr + off) gs dram
    let done := r.params + 32 * gs.length
    let s := s.modRed x.shard k fun r => { r with params := done }
    if (x.paramBytes ≤ done ∧ (x.bytes ≠ 0 ∨ last)) ∧ !r.landed then
      (s.modRed x.shard k fun r => { r with landed := true }).notice x (if x.bytes = 0 then 4 else 2) { r with params := done }
    else s

/-- PARAM_FRAME (R391, R392): a frame of the broadcast lands and goes on to the children; its marks are counted with the
first frame of the step. -/
def execParamFrame (port : Nat) (frame : FrameRead) (s : State) : Res :=
  onUnit (port < 6) port s fun s =>
    if fType frame.frame = 3 ∧ s.portUp port then
      let r := s.ropeReceive port frame.frame true
      let s := r.2
      if !r.1 then s
      else match s.rope.team with
        | some t =>
          if t.rank ≠ fDst frame.frame then s.ropeForward port frame.frame
          else match t.shardOf (fStream frame.frame) with
            | some x =>
              let k := fStep frame.frame
              let s := if (s.redStep x.shard k).isNone then
                  s.modRope fun r => { r with steps := r.steps ++ [⟨x.shard, k, [], [], true, 0, 0, 0, false⟩] } else s
              let s := if fOffset frame.frame = 0 then
                  let s := if bitAt (fMarks frame.frame) 0 then s.inc Reg.ROPE_RED_COUNTS_last_count else s
                  let s := if bitAt (fMarks frame.frame) 1 then s.inc Reg.ROPE_RED_COUNTS_miss_count else s
                  s.modRed x.shard k fun r => { r with marks := fMarks frame.frame % 4 }
                else s
              s.params t x k (32 * fOffset frame.frame) (bitAt (fFlags frame.frame) 0) (fGrans frame.frame) frame.dram
            | none => s.inc Reg.ROPE_RED_COUNTS_late_in
        | none => if s.ownRank (fDst frame.frame) then s.inc Reg.ROPE_RED_COUNTS_late_in else s.ropeForward port frame.frame
    else s

/-- REDUCTION_CUTOFF (R390): at the cutoff, with every in-time contribution complete, the node's loop ends. -/
def execReductionCutoff (shard : ShardRead) (k : Nat) (s : State) : Res :=
  .next <|
    match s.rope.team with
    | some t =>
      match t.shardOf shard.shard, s.redStep shard.shard k with
      | some x, some r =>
        when (s.isIn .running && t.cutoff shard.shard k ≤ s.now && r.contribs.all (·.complete)) (fun s => s.endStep t x k false shard.dram) s
      | _, _ => s
    | none => s

/-- REDUCTION_ABANDON (R390): `level_ns` after the cutoff, incomplete contributions are abandoned and an empty partial
goes to the parent. -/
def execReductionAbandon (shard : ShardRead) (k : Nat) (s : State) : Res :=
  .next <|
    match s.rope.team with
    | some t =>
      match t.shardOf shard.shard with
      | some x => when (s.isIn .running && t.cutoff shard.shard k + t.level ≤ s.now) (fun s => s.endStep t x k true shard.dram) s
      | none => s
    | none => s

/-! ### What porters send (R385, R391) -/

/-- The latest step of a shard that has opened. -/
def State.lastStep (s : State) (sh : Nat) (ended : Bool) : Option Nat :=
  (s.rope.steps.filter fun r => r.shard == sh && (!ended || r.ended)).foldl (fun m r => some (max r.k (m.getD 0))) none

/-- A porter's COPY to the rope (R385, R391): its status of Table 10.6, and the state. -/
def State.ropeCopy (s : State) (dst : Nat) (gs : List Gran) (dram : List DramErr) : Nat × State :=
  let target := bits dst 0 4
  let rank := bits dst 4 12
  let stream := bits dst 16 16
  let off := bits dst 32 32
  if 2 < target then (2, s)
  else match s.rope.team with
    | none => (3, s)
    | some t =>
      match target with
      | 0 => (0, s.ropeTo t 1 0 rank stream 0 0 0 (off / 32) gs)
      | 1 =>
        match t.shardOf stream with
        | some x =>
          let k := (s.now - t.t0) / t.period
          (0, s.contribute t x k none x.fmt 1 off (if x.fmt = 1 then x.bytes / 2 else x.bytes) gs dram)
        | none => (3, s)
      | _ =>
        match t.shardOf stream, s.lastStep stream true with
        | some x, some k => if t.self stream = 0 then (0, s.params t x k off true gs dram) else (3, s)
        | _, _ => (3, s)

end Sys2Proof.Machine
end

