-- ==== Sys2Proof/Machine/Porters.lean ====
section
/-! DEFINITION. The porters (R259-R265): descriptors, moves, grants, FENCE, stealing and completions. -/

namespace Sys2Proof.Machine

/-! ### Descriptors (Table 10.5) -/

/-- Word i of a descriptor. -/
def Desc.w (d : Desc) (i : Nat) : Nat := nth d.words i 0
/-- Operation: 0 NOP, 1 COPY, 2 FILL. -/
def Desc.op (d : Desc) : Nat := bits (d.w 0) 0 4
/-- FENCE. -/
def Desc.fence (d : Desc) : Bool := bitAt (d.w 0) 4
/-- Acquire the window first. -/
def Desc.grant (d : Desc) : Bool := bitAt (d.w 0) 5
/-- Send a completion. -/
def Desc.notify (d : Desc) : Bool := bitAt (d.w 0) 6
/-- Write to a multicast group. -/
def Desc.mcast (d : Desc) : Bool := bitAt (d.w 0) 7
/-- Arbiter class. -/
def Desc.cls (d : Desc) : Nat := bits (d.w 0) 8 4
/-- Source space: 0 device, 1 host, 2 rope. -/
def Desc.srcSpace (d : Desc) : Nat := bits (d.w 0) 12 2
/-- Destination space. -/
def Desc.dstSpace (d : Desc) : Nat := bits (d.w 0) 14 2
/-- Multicast group. -/
def Desc.group (d : Desc) : Nat := bits (d.w 0) 16 12
/-- Bytes. -/
def Desc.len (d : Desc) : Nat := bits (d.w 0) 32 32
/-- Source. -/
def Desc.srcAddr (d : Desc) : Nat := d.w 1
/-- Destination. -/
def Desc.dstAddr (d : Desc) : Nat := d.w 2
/-- Where the completion goes. -/
def Desc.handle (d : Desc) : Nat := bits (d.w 3) 0 32
/-- Returned in the completion. -/
def Desc.cookie (d : Desc) : Nat := bits (d.w 3) 32 32
/-- Dynamic window. -/
def Desc.window (d : Desc) : Nat := bits (d.w 4) 0 3
/-- Whether a host ring submitted it. -/
def Desc.fromHost (d : Desc) : Bool := 2 ≤ d.owner

/-- Whether a descriptor is malformed (R259, R385). A NOP ignores `length` and the source only. -/
def Desc.bad (d : Desc) : Bool :=
  let n := d.len
  let move := n == 0 || n % 32 != 0
  let dst := d.dstSpace == 3 ||
    (if d.dstSpace == 2 then d.op == 2 || d.mcast || 2 < bits d.dstAddr 0 4 || bits d.dstAddr 32 32 % 32 != 0
     else if d.mcast then d.dstSpace != 0 || bits d.dstAddr 0 24 % 32 != 0 else d.dstAddr % 32 != 0)
  let copy := 2 ≤ d.srcSpace || d.srcAddr % 32 != 0 ||
    (d.srcSpace == d.dstSpace && !d.mcast && d.srcAddr < d.dstAddr + n && d.dstAddr < d.srcAddr + n)
  2 < d.op || bits (d.w 0) 28 4 != 0 || bits (d.w 4) 3 61 != 0 || d.w 6 != 0 || d.w 7 != 0 || dst ||
    (d.op != 0 && move) || (d.op == 1 && copy)

/-- First device address of the registers (Table 10.2). -/
def regBase : Nat := 0xC00000000000

/-- Whether the bytes from `a` on are registers of BAR0 (Table 10.2). -/
def inRegs (a n : Nat) : Bool := regBase ≤ a && a + n ≤ regBase + 0x4000000

/-- Whether a device range is one that a descriptor of its submitter (0 firmware, 1 the KV stager, else a host ring) may name (R252,
R253). -/
def deviceOk (owner a n : Nat) : Bool :=
  if isDram a then inDram a n && (owner < 2 || inJob a n)
  else if inRegs a n then owner == 0
  else match spDecode a with
    | some (c, o) => o + n ≤ bankCount c * 0x100000
    | none => false

/-- Whether a descriptor names an invalid address (R252, R253). -/
def Desc.badAddr (d : Desc) : Bool :=
  (d.op == 1 && d.srcSpace == 0 && d.data.isEmpty && !deviceOk d.owner d.srcAddr d.len) ||
    (d.op != 0 && d.dstSpace == 0 && !d.mcast && !deviceOk d.owner d.dstAddr d.len)

/-- The member cells of a multicast group, from the crossings' masks (R170). -/
def State.members (s : State) (g : Nat) : List Nat :=
  s.mesh.xr.flatMap fun p => (indices 7 fun k => bitAt (SMap.getD p.2.groups g 0) (4 + k)).map fun k => p.1 * 32 + k

/-- The cells that a descriptor writes to: with their twins (R280; a stager
delivery serves the half that asked, R281), or the members of its group. -/
def State.porterCells (s : State) (d : Desc) : List Nat :=
  if (d.op ≠ 1 ∧ d.op ≠ 2) ∨ d.dstSpace ≠ 0 then []
  else if d.mcast then s.members d.group
  else match spDecode d.dstAddr with
    | some (c, _) => if d.owner = 1 then [c] else s.copies c
    | none => []

/-! ### Moving (R259, R263, R281) -/

/-- A porter's name as an owner at the arbiter. -/
def porterOwner (p : Nat) : Nat := 0x10000 + p

/-- The cells whose scratchpad a COPY reads. -/
def Desc.source (d : Desc) : Option (Nat × Nat) :=
  if d.op = 1 ∧ d.srcSpace = 0 ∧ d.data.isEmpty ∧ !isDram d.srcAddr then spDecode d.srcAddr else none

/-- The bytes of registers, as a read of them delivers (R252). -/
def State.regGrans (s : State) (a n : Nat) : List Gran :=
  toGrans (fun _ => false) ((List.range (n / 8)).flatMap fun i => toLE 8 (s.reg (a - regBase + 8 * i)))

/-- The bytes that a descriptor writes: granules, whether the host failed (R323), and the state. Bytes that firmware submitted with its
descriptor lie in the panel area. -/
def State.porterRead (s : State) (p : Nat) (d : Desc) (ev : PorterEv) : List Gran × Bool × State :=
  if !d.data.isEmpty then (d.data, false, s.request 0 d.cls (porterOwner p) (32 * d.data.length))
  else if d.op = 2 then
    (List.replicate (d.len / 32) ⟨(List.replicate 4 (toLE 8 (d.w 5))).flatten, false⟩, false, s)
  else if d.srcSpace = 1 then
    if !s.host.bme then ([], true, s)
    else
      let n := if ev.hostError then min d.len (ev.hostData.length / 32 * 32) else d.len
      let bs := ev.hostData.take n
      (toGrans (fun _ => false) (bs ++ List.replicate (n - bs.length) 0), ev.hostError, s.request 1 d.cls (porterOwner p) n)
  else if inRegs d.srcAddr d.len then (s.regGrans d.srcAddr d.len, false, s)
  else match d.source with
    | some (c, o) =>
      let r := s.readWords c o 2 ev.ecc (d.len / 32)
      (r.1, false, r.2)
    | none =>
      let r := (s.request 0 d.cls (porterOwner p) d.len).readDram d.srcAddr d.len ev.dram
      (r.1, false, r.2)

/-- A multicast write: packets enter by the first hub port whose block has an entry of the group (R170), each with a tag of its own, by
which a leaf asks for it again (log 124). -/
def State.mcastWrite (s : State) (p : Nat) (d : Desc) (gs : List Gran) : State :=
  match (List.range 24).find? fun h => SMap.getD (s.xr (hubPortBlk h)).groups d.group 0 != 0 with
  | some h =>
    foldIdx (fun i s c =>
      let k := mkPacket 1 d.cls 0 (0xF000 + p) 0 (bits d.dstAddr 0 24 + 4096 * i) s.mesh.mcastNo c
      let k := ((k.setW 0 9 1 1).setW 2 40 12 d.group).seal
      let s := s.modWire (hubWire h) fun w => { w with flits := w.flits ++ k.flits }
      { s.keepCopy (0xF000 + p) k with mesh.mcastNo := (s.mesh.mcastNo + 1) % 2 ^ 32 }) 0 s (chunks 128 gs.length gs)
  | none => s

/-- Write granules to host memory; poison goes as poisoned data (R256). -/
def State.hostGrans (s : State) (a : Nat) (gs : List Gran) : State :=
  foldIdx (fun i s g =>
    s.emit (if g.poison then .hostPoison (a + 32 * i) 32 else .hostWrite (a + 32 * i) g.data)) 0 s gs

/-- Write registers by a descriptor of firmware (R252), word by word. -/
def State.regPut (s : State) (a : Nat) (gs : List Gran) : State :=
  foldIdx (fun i s w =>
    let off := a - regBase + 8 * i
    match regRowAt off with
    | some r => s.regWrite r off (ofLE w) (2 ^ 64 - 1)
    | none => s) 0 s (chunks 8 (32 * gs.length) (gransBytes gs))

/-- Write what a descriptor moves: its status and the state. A host write that fails has moved what came before the error. -/
def State.porterWrite (s : State) (p : Nat) (d : Desc) (gs : List Gran) (ev : PorterEv) : Nat × State :=
  let n := 32 * gs.length
  match d.dstSpace with
  | 0 =>
    if d.mcast then (0, s.mcastWrite p d gs)
    else if inRegs d.dstAddr n then (0, s.regPut d.dstAddr gs)
    else match spDecode d.dstAddr with
      | some (c, o) =>
        (0, if d.owner = 1 then s.hubWrite (0xF000 + p) d.cls c o gs else s.hubDeliver (0xF000 + p) d.cls c o gs)
      | none => (0, (s.request 0 d.cls (porterOwner p) n).writeGrans d.dstAddr gs ev.dram)
  | 1 => (b2n (!s.host.bme || ev.hostError) * 5, (s.request 2 d.cls (porterOwner p) n).hostGrans d.dstAddr gs)
  | _ => s.ropeCopy d.dstAddr gs ev.dram

/-- Set a porter's outcome: its descriptor has moved what it moves. -/
def State.porterEnd (s : State) (p st n : Nat) : State :=
  s.modPorter p fun x => { x with phase := .moved, status := st, moved := n, atT := s.now }

/-- Hold an item of a paired cell for its comparison, numbered in the order of arrival (R281). -/
def State.holdItem (s : State) (c : Nat) (pkt : Option Packet) (ticket porter : Option Nat) (gs : List Gran) : State :=
  let l := s.logicalOf c
  let twin := !isPrimary l
  let h : HeldItem :=
    ⟨if twin then twinOf l else l, (s.cell c).rh.compared, twin, s.now, pkt, ticket, porter, gs⟩
  let s' := { s with pair := { s.pair with held := s.pair.held ++ [h] } }
  s'.modCell c fun x => { x with rh := { x.rh with compared := x.rh.compared + 1 } }

/-- The two physical cells that a COPY out of the field compares (R281), if its source is a paired cell's scratchpad. -/
def State.copyPair (s : State) (d : Desc) : Option (Nat × Nat × Nat) :=
  match d.op, spDecode d.srcAddr with
  | 1, some (c, o) =>
    let l := s.logicalOf c
    if s.paired ∧ d.data.isEmpty ∧ d.srcSpace = 0 ∧ l ≠ 0xFFFF ∧ (d.dstSpace ≠ 0 ∨ (!d.mcast ∧ isDram d.dstAddr)) then
      match s.physical l, s.physical (twinOf l) with
      | some a, some b => some (a, b, o)
      | _, _ => none
    else none
  | _, _ => none

/-- Granules that reach the destination: all, or those written before a host write failed (R264). -/
def State.landing (s : State) (d : Desc) (gs : List Gran) (ev : PorterEv) : List Gran :=
  if d.dstSpace ≠ 1 then gs else if !s.host.bme then [] else if ev.hostError then gs.take (ev.done / 32) else gs

/-- Write what was read and set the outcome: HOST_ERR with the bytes moved, else what the write answers, POISONED or OK. -/
def State.porterPut (s : State) (p : Nat) (d : Desc) (gs : List Gran) (readErr : Bool) (ev : PorterEv) : State :=
  let ev := if readErr then { ev with hostError := false } else ev
  let out := s.landing d gs ev
  let w := s.porterWrite p d out ev
  let st := if readErr then 5 else w.1
  if st = 5 then w.2.porterEnd p 5 (32 * out.length)
  else if st ≠ 0 then w.2.porterEnd p st 0
  else w.2.porterEnd p (b2n (out.any (·.poison))) (32 * out.length)

/-- Move: read, then write; a COPY out of a paired cell first waits for the comparison of both halves. A fenced cell's scratchpad is not
read by any master (R16): the crossing discards the request, and the copy ends as one to a fenced cell does, ABORTED (log 130). -/
def State.porterMove (s : State) (p : Nat) (d : Desc) (ev : PorterEv) : State :=
  let from' := match s.copyPair d, d.source with
    | some (a, b, _), _ => [a, b]
    | none, some (c, _) => [c]
    | none, none => []
  match from'.find? s.fenced with
  | some c => (s.inc (Reg.BLK_STATUS_fenced_drop_count (c / 32))).porterEnd p 6 0
  | none =>
  match s.copyPair d with
  | some (a, b, o) =>
    if s.pair.held.any fun h => h.porter == some p then s
    else
      let ra := s.readWords a o 2 ev.ecc (d.len / 32)
      let rb := ra.2.readWords b o 2 ev.ecc (d.len / 32)
      (rb.2.holdItem a none none (some p) ra.1).holdItem b none none (some p) rb.1
  | none =>
    let r := s.porterRead p d ev
    r.2.2.porterPut p d r.1 r.2.1 ev

/-! ### Grants (R263, R136) -/

/-- Send an ACQUIRE of the descriptor's window to the cells still to be acquired. -/
def State.acquire (s : State) (p : Nat) (d : Desc) : State :=
  (s.porter p).targets.foldl (fun s c => s.sendItem ⟨8, 0, c, 0, 0xF000 + p, 0, 0, c + d.window <<< 16 + d.len <<< 32, 0⟩)
    (s.modPorter p fun x => { x with phase := .acquiring })

/-- Take the answers that have reached a porter: a granted cell is done, BUSY waits for the retry, any other answer ends
the descriptor with GRANT_FAIL. -/
def State.answers (s : State) (p : Nat) : State :=
  let mine := s.mesh.hubItems.filter fun i => i.ty == 9 && i.dst == 0xF000 + p
  let s := { s with mesh := { s.mesh with hubItems := s.mesh.hubItems.filter fun i => !(i.ty == 9 && i.dst == 0xF000 + p) } }
  mine.foldl (fun s i =>
    let x := s.porter p
    if x.phase ≠ .acquiring ∧ x.phase ≠ .busy then s
    else match i.w1 % 256 with
      | 0 =>
        let ts := x.targets.filter (· ≠ i.src)
        s.modPorter p fun x => { x with targets := ts, phase := if ts.isEmpty then .granted else x.phase }
      | 1 => s.modPorter p fun x => { x with phase := .busy, atT := s.now }
      | _ => s.porterEnd p 4 0) s

/-! ### Running a descriptor (R261) -/

/-- Whether porters run: base camp has power, and the field is not frozen (R299). -/
def State.portersRun (s : State) : Bool := !(s.isIn .off || s.isIn .standby || s.isIn .dark || s.frozen)

/-- Whether a descriptor queued ahead of a FENCE in its queue has not completed, wherever it is: one that was submitted there or joined
that queue as stolen. -/
def State.aheadOf (s : State) (d : Desc) : Bool :=
  s.hub.porters.any fun q => q.2.all.any fun e => e.trail.any fun t => d.trail.any fun u => t.1 == u.1 && t.2 < u.2

/-- Start the descriptor at the head of a queue. -/
def State.porterStart (s : State) (p : Nat) (d : Desc) (rest : List Desc) : State :=
  s.modPorter p fun x => { x with queue := rest, run := some d, phase := .started, status := 0, moved := 0, targets := [] }

/-- Start the head when the porter is idle, it is no FENCE, and `mine` holds of it. -/
def State.porterHead (s : State) (p : Nat) (mine : Desc → Bool) : State :=
  let x := s.porter p
  match x.run, x.queue with
  | none, d :: rest => if !d.fence && mine d then s.porterStart p d rest else s
  | _, _ => s

/-- Take the running descriptor one stage further: tests, then the grant, then the move. -/
def State.porterGo (s : State) (p : Nat) (d : Desc) (ev : PorterEv) : State :=
  match (s.porter p).phase with
  | .started =>
    if d.bad then s.porterEnd p 2 0
    else if d.op = 0 then s.porterEnd p 0 0
    else if d.badAddr then s.porterEnd p 3 0
    else if d.grant ∧ !(s.porterCells d).isEmpty then (s.modPorter p fun x => { x with targets := s.porterCells d }).acquire p d
    else (s.modPorter p fun x => { x with phase := .granted }).porterMove p d ev
  | .acquiring | .busy =>
    let s := s.answers p
    if (s.porter p).phase = .granted then s.porterMove p d ev else s
  | .granted => s.porterMove p d ev
  | _ => s

/-- A row that starts or carries on descriptors of its kind at a porter. -/
def porterRow (p : Nat) (mine : Desc → Bool) (ev : PorterEv) (s : State) : Res :=
  onUnit (p < 64) p s fun s =>
    if s.portersRun then
      let s := s.porterHead p mine
      match (s.porter p).run with
      | some d => if mine d then s.porterGo p d ev else s
      | none => s
    else s

/-- PORTER_NOP (R259): a NOP moves nothing; a reserved operation is malformed. -/
def execPorterNop (p : Nat) (s : State) : Res := porterRow p (fun d => d.op != 1 && d.op != 2) ⟨[], [], false, [], 0⟩ s
/-- PORTER_COPY (R252, R253, R259, R263, R281, R385): a descriptor that the KV stager submitted is carried by
PAGE_DELIVERY. -/
def execPorterCopy (p : Nat) (ev : PorterEv) (s : State) : Res := porterRow p (fun d => d.op == 1 && d.owner != 1) ev s
/-- PORTER_FILL (R259, R263). -/
def execPorterFill (p : Nat) (ev : PorterEv) (s : State) : Res := porterRow p (fun d => d.op == 2) ev s

/-- PORTER_FENCE (R261): a FENCE at the head starts once every descriptor ahead of it has completed. -/
def execPorterFence (p : Nat) (s : State) : Res :=
  onUnit (p < 64) p s fun s =>
    let x := s.porter p
    match x.run, x.queue with
    | none, d :: rest => when (s.portersRun && d.fence && !s.aheadOf d) (fun s => s.porterStart p d rest) s
    | _, _ => s

/-- PORTER_GRANT_RETRY (R263): 1 us after BUSY the porter asks again. -/
def execPorterGrantRetry (p : Nat) (s : State) : Res :=
  onUnit (p < 64) p s fun s =>
    let s := s.answers p
    let x := s.porter p
    match x.run with
    | some d => when (x.phase == .busy && x.atT + 1000 ≤ s.now) (fun s => s.acquire p d) s
    | none => s

/-! ### Completion (R264) -/

/-- Change a stager ticket that is held. -/
def State.modTicket (s : State) (t : Nat) (f : Ticket → Ticket) : State :=
  match SMap.get? s.kv.tickets t with
  | some k => { s with kv := { s.kv with tickets := SMap.put s.kv.tickets t (f k) } }
  | none => s

/-- A ticket's status once none of its deliveries is out (R236). -/
def Ticket.settled (k : Ticket) : Ticket := if k.closed ∧ k.out = 0 ∧ k.status = 0 then { k with status := 1 } else k

/-- What a delivery's end means to its ticket (Table 9.7): pages or entries delivered; GRANT_FAIL is BAD_WINDOW, ABORTED is
ABORTED. -/
def Ticket.delivered (k : Ticket) (st q : Nat) : Ticket :=
  let k := { k with out := k.out - 1 }
  Ticket.settled <|
    if st ≤ 1 then { k with qty := k.qty + q }
    else if k.status ≠ 0 then k
    else { k with status := if st = 6 then 0x15 else 0x13 }

/-- The channel that takes a descriptor's completion: joined to a porter's end at base camp. -/
def State.doneChan (s : State) (d : Desc) : Option Nat :=
  if !d.notify || hType d.handle == 6 then none
  else (s.chanOf d.handle).bind fun ch => ch.send.bind fun e => if 0xF000 ≤ e.unit then some (hIndex d.handle) else none

/-- The completion of a descriptor (R264): to its host ring, to its channel, or to its stager ticket; what firmware's copies delivered as
poison is kept for its restart (R310). -/
def State.porterNotify (s : State) (d : Desc) (st n : Nat) : State :=
  let s := if d.owner = 1 then s.modTicket d.ticket fun k => k.delivered st d.qty else s
  let s := if d.isLoad ∧ st = 1 then s.modHub fun h => { h with fwPoison := true } else s
  if !d.notify then s
  else
    let body := toLE 4 d.cookie ++ toLE 1 st ++ toLE 3 0 ++ toLE 8 n ++ toLE 8 s.now
    if hType d.handle = 6 then s.post d.handle ⟨0x31, body⟩
    else match s.doneChan d with
      | some i => s.hubSend i [⟨body ++ toLE 8 0, false⟩]
      | none => s

/-- Whether a descriptor's completion message still waits for its channel's credit (R198). -/
def State.doneWaits (s : State) (d : Desc) : Bool :=
  match s.doneChan d with
  | some i => (s.chan i).live && !(s.chan i).draining && !(s.hubEp i).waiting.isEmpty
  | none => false

/-- PORTER_DONE (R198, R264, R265): once its transfers have had their grants, the descriptor ends and reports; with a destination cell
fenced it is ABORTED. It completes when its message, if it has one, has been sent: until then the porter waits for credit. -/
def execPorterDone (p : Nat) (s : State) : Res :=
  onUnit (p < 64) p s fun s =>
    let x := s.porter p
    match x.run with
    | some d =>
      let s := if x.phase = .moved ∧ s.granted (porterOwner p) then
          let st := if x.status ≤ 1 ∧ (s.porterCells d).any s.fenced then 6 else x.status
          (((s.modPorter p fun x => { x with phase := .sending }).set (Reg.PORTER_STATUS_last_status p) st).wrap
            (Reg.PORTER_BYTES_bytes p) x.moved).porterNotify d st x.moved
        else if x.phase = .sending then s.hubCredits else s
      if (s.porter p).phase = .sending ∧ !s.doneWaits d then
        (s.modPorter p fun x => { x with run := none, phase := .idle, atT := s.now }).fwFeed
      else s
    | none => s

/-! ### Stealing (R262) -/

/-- The eligible descriptors of a porter: those pending ahead of its oldest FENCE; none while it runs a FENCE, which they are all
behind. -/
def eligible (x : PorterSt) : List Desc :=
  if x.run.any Desc.fence then [] else x.queue.takeWhile fun d => !d.fence

/-- PORTER_STEAL (R262): an idle porter takes half of the eligible descriptors, the newest, of the first victim in ring
order. -/
def execPorterSteal (p : Nat) (s : State) : Res :=
  onUnit (p < 64) p s fun s =>
    let x := s.porter p
    if s.portersRun ∧ x.run.isNone ∧ x.queue.isEmpty ∧ x.atT + 200 ≤ s.now then
      match ((List.range 63).map fun i => (p + 1 + i) % 64).find? fun v =>
          4 ≤ (s.porter v).queue.length && 2 ≤ (eligible (s.porter v)).length with
      | some v =>
        let q := (s.porter v).queue
        let e := eligible (s.porter v)
        let k := e.length / 2
        let s := s.modPorter v fun y => { y with queue := e.take (e.length - k) ++ q.drop e.length }
        let s := ((e.drop (e.length - k)).foldl (fun s d => s.queueDesc p d) s).modPorter p fun y => { y with atT := s.now }
        (s.wrap (Reg.PORTER_STATUS_stolen_out v) k).wrap (Reg.PORTER_STATUS_stolen_in p) k
      | none => s.modPorter p fun y => { y with atT := s.now }
    else s

/-! ### Submission and interruption (R260, R265) -/

/-- PORTER_DESC (R260, R344): an entry's descriptor joins the queue of the ring's porter; while that queue is full the
entry stays in its ring. -/
def execPorterDesc (ring : Nat) (entry : List Byte) (s : State) : Res :=
  onUnit (ring < 16384) ring s fun s =>
    let p := (s.ring ring).porter
    if s.porterRoom p then
      s.serveEntry ring 0x30 entry fun s b =>
        let ws := (List.range 8).map fun i => ofLE ((b.drop (8 * i)).take 8)
        let w0 := nth ws 0 0
        let w0 := if bits w0 8 4 = 0 then setBits w0 8 4 1 else w0
        some (s.queueDesc p ⟨setNth ws 0 w0, 2 + ring, 0, 0, [], []⟩)
    else s

/-- A porter's descriptors end with ABORTED (R265): what the running one has moved is counted and reported; one that has sent its report
has ended already. -/
def State.abortPorter (s : State) (p : Nat) (x : PorterSt) : State :=
  let n := if x.phase = .moved then x.moved else 0
  let s := if x.all.isEmpty then s else (s.set (Reg.PORTER_STATUS_last_status p) 6).wrap (Reg.PORTER_BYTES_bytes p) n
  let s := match x.run with
    | some d => if d.fromHost ∧ x.phase ≠ .sending then s.porterNotify d 6 n else s
    | none => s
  x.queue.foldl (fun s d => if d.fromHost then s.porterNotify d 6 0 else s) s

/-- Empty every porter queue (R265): descriptors from host rings complete with ABORTED; firmware and the stager submit theirs again. -/
def State.abortPorters (s : State) : State :=
  let old := s.hub.porters
  let s := s.modHub fun h =>
    { h with porters := SMap.mapVal (fun _ x => { PorterSt.init with subs := x.subs, atT := s.now }) h.porters
             reqs := h.reqs.filter fun r => r.owner < 0x10000, fw := [], fwPoison := false }
  old.foldl (fun s q => s.abortPorter q.1 q.2) s

end Sys2Proof.Machine
end

