-- ==== Sys2Proof/Machine/Acts.lean ====
section
/-! DEFINITION. Acts, sequence slots and KV pages (R224-R247): rosters, stamps, staged state, commits, and the PROMPT and
ENROL entries. -/

namespace Sys2Proof.Machine

/-! ### Slots and pages (R229-R233) -/

/-- Nothing staged. -/
def StageSt.init : StageSt := ⟨[], [], 0, none, false, none, false⟩
/-- A CLOSED slot that was never opened (log 13). -/
def SlotSt.init : SlotSt := ⟨0, 0, 0, 0, 0, 0, 0, 0, 0, 0, [], 0, 0, 0, 0, false, 0, [], [], [], 0, .init, 0, none⟩
/-- A slot. -/
def State.slot (s : State) (n : Nat) : SlotSt := SMap.getD s.slots n .init
/-- Change a slot. -/
def State.modSlot (s : State) (n : Nat) (f : SlotSt → SlotSt) : State := { s with slots := SMap.put s.slots n (f (s.slot n)) }
/-- Change the KV stager's state. -/
def State.modKv (s : State) (f : KvSt → KvSt) : State := { s with kv := f s.kv }
/-- Change the act queue. -/
def State.modActs (s : State) (f : ActsSt → ActsSt) : State := { s with acts := f s.acts }

/-- Whether a slot is open: IDLE, PREFILL or DECODE. -/
def SlotSt.isOpen (x : SlotSt) : Bool := x.st == 1 || x.st == 2 || x.st == 3
/-- Whether a slot is enrolled: PREFILL or DECODE. -/
def SlotSt.enrolled (x : SlotSt) : Bool := x.st == 2 || x.st == 3
/-- Bytes of a token row of one layer. -/
def SlotSt.row (x : SlotSt) : Nat := x.tok * 32
/-- Tokens per page (R232). -/
def SlotSt.tpp (x : SlotSt) : Nat := 65536 / x.row
/-- Page-table entry of page p of a layer (R232). -/
def SlotSt.entry (x : SlotSt) (p layer : Nat) : Nat := p * x.layers + layer
/-- Whether page p of n committed tokens is cold (R233). -/
def SlotSt.cold (x : SlotSt) (n p : Nat) : Bool := n != 0 && p + x.hot ≤ (n - 1) / x.tpp
/-- Prompt identifiers that wait to be committed. -/
def SlotSt.left (x : SlotSt) : Nat := x.got - x.used

/-- The k-th number that is not in a rising list. -/
def kthFree : List Nat → Nat → Nat
  | [], k => k
  | u :: us, k => if u ≤ k then kthFree us (k + 1) else k

/-- Take a page from the pool (R232): which one the spec leaves open (log 3). -/
def State.takePage (s : State) : Option (Nat × State) :=
  let n := s.kv.len / 65536
  if s.kv.used.length < n then
    let d := s.draw
    let k := kthFree s.kv.used (d.1.toNat % (n - s.kv.used.length))
    some (s.kv.base + k * 65536, d.2.modKv fun v => { v with used := NSet.add v.used k })
  else none

/-- Take `n` pages, or none at all. -/
def State.takePages (s : State) : Nat → Option (List Nat × State)
  | 0 => some ([], s)
  | n + 1 =>
    match s.takePage with
    | some p => (State.takePages p.2 n).map fun q => (p.1 :: q.1, q.2)
    | none => none

/-- Return pages to the pool, crypto-erased where asked (R231). -/
def State.givePages (s : State) (ps : List Nat) (erase : Bool) : State :=
  ps.foldl (fun s a =>
    let s := if erase then s.eraseArea a 65536 else s
    s.modKv fun v => { v with used := NSet.del v.used ((a - v.base) / 65536) }) s

/-- What a slot has staged is gone: its pages return to the pool (R242). -/
def State.dropStage (s : State) (n : Nat) : State :=
  let x := s.slot n
  (s.givePages (x.stage.pages.map (·.2)) false).modSlot n fun x => { x with stage := .init }

/-! ### Prompt pages (R232, R246) -/

/-- Prompt pages of 16,384 identifiers that identifiers number `lo` up to `hi` lie in. -/
def promptSpan (lo hi : Nat) : List Nat := if hi ≤ lo then [] else (List.range ((hi - 1) / 16384 + 1 - lo / 16384)).map (· + lo / 16384)

/-- Pages that the identifiers read but not yet in effect still need beyond those the slot holds. -/
def SlotSt.need (x : SlotSt) (pend : Nat) : Nat :=
  ((promptSpan x.got (x.got + pend)).filter fun j => !(x.prompts.any fun p => p.1 == j)).length

/-- Take the prompt pages of an entry that is read (R246): none when the pool cannot supply them all. -/
def State.reservePrompt (s : State) (n count : Nat) : Option State :=
  let x := s.slot n
  (s.takePages (x.need (x.pend + count) - x.rsv.length)).map fun q =>
    q.2.modSlot n fun x => { x with pend := x.pend + count, rsv := x.rsv ++ q.1 }

/-- An entry is no longer pending: reserved pages that nothing needs go back. -/
def State.unreserve (s : State) (n count : Nat) : State :=
  let x := s.slot n
  let k := x.need (x.pend - count)
  (s.givePages (x.rsv.drop k) false).modSlot n fun x => { x with pend := x.pend - count, rsv := x.rsv.take k }

/-- Store identifiers in the slot's prompt pages, from number `got` on. -/
def State.putIds (s : State) (n : Nat) : List Nat → State
  | [] => s
  | i :: is =>
    let x := s.slot n
    let a := SMap.getD x.prompts (x.got / 16384) 0 + x.got % 16384 * 4
    State.putIds ((s.writeDram a (toLE 4 i) false [] 2).modSlot n fun x => { x with got := x.got + 1 }) n is

/-- Prompt pages whose identifiers have all been committed return to the pool (R241). -/
def State.trimPrompt (s : State) (n : Nat) : State :=
  let x := s.slot n
  let live := promptSpan x.used (x.got + x.pend)
  let gone := x.prompts.filter fun p => !live.contains p.1
  (s.givePages (gone.map (·.2)) false).modSlot n fun x => { x with prompts := x.prompts.filter fun p => live.contains p.1 }

/-! ### Acts (R224-R228) -/

/-- The act that a queued record opens next: number, open, curtain, kind. -/
def ActRec.next (r : ActRec) : Nat × Nat × Nat × Nat :=
  (r.first + r.done, r.openAt + r.done * r.len, r.openAt + (r.done + 1) * r.len, r.kind)

/-- The next act: the first queued act that has not opened (R461). -/
def State.nextAct (s : State) : Option (Nat × Nat × Nat × Nat) := s.acts.queue.head?.map ActRec.next

/-- The queued act whose window holds a time. -/
def ActRec.holding (r : ActRec) (t : Nat) : Option Nat :=
  let j := (t - r.openAt) / r.len
  if r.openAt + r.done * r.len ≤ t ∧ r.len ≠ 0 ∧ (r.count = 0 ∨ j < r.count) then some (r.first + j) else none

/-- The act whose window holds a stamp (R225); 0 when none does. -/
def State.actOf (s : State) (t : Nat) : Nat :=
  match s.acts.cur with
  | some a => if t < a.curtain then a.num else (s.acts.queue.findSome? fun r => r.holding t).getD 0
  | none => (s.acts.queue.findSome? fun r => r.holding t).getD 0

/-- A slot's roster entry in an act of a kind (R228, R237): none when it does not take part, or is held (R247). -/
def State.rosterEnt (s : State) (kind n : Nat) : Option RosterEnt :=
  let x := s.slot n
  let chunk := if x.st = 3 then (if kind = 0 then 1 else 0)
    else if x.st = 2 then min (if kind = 0 then x.chunkD else x.chunkP) x.left else 0
  if chunk = 0 ∨ !s.ringRoom x.cring then none
  else
    let pre := x.st == 2
    let a := SMap.getD x.prompts (x.used / 16384) 0 + x.used % 16384 * 4
    some ⟨n, x.gen, x.st, pre && chunk == x.left, x.len, chunk, x.last, if pre then a else 0, x.sampling⟩

/-- The roster of an act of a kind, in slot order. -/
def State.rosterOf (s : State) (kind : Nat) : List RosterEnt := s.slots.filterMap fun p => s.rosterEnt kind p.1

/-- The roster entries of an act, once they are fixed. -/
def State.rosterIn (s : State) (act : Nat) : Option (List RosterEnt) :=
  match s.acts.cur with
  | some a => if a.num = act then some a.roster else if (s.nextAct.map (·.1)) = some act then s.acts.fixed else none
  | none => if (s.nextAct.map (·.1)) = some act then s.acts.fixed else none

/-- An act of the head record is past: it opened or was skipped. -/
def takeAct : List ActRec → List ActRec
  | [] => []
  | r :: rs => if r.count ≠ 0 ∧ r.count ≤ r.done + 1 then rs else { r with done := r.done + 1 } :: rs

/-- ACT_OPEN (R226, R228, R212): in RUNNING the next act opens at its opening time, or at once when that has passed but its
curtain has not; the block controllers release the act-gated entries. -/
def execActOpen (s : State) : Res :=
  .next <|
    match s.acts.cur, s.nextAct with
    | none, some (num, o, cur, kind) =>
      when (s.isIn .running && o ≤ s.now && s.now < cur) (fun s =>
        let act : Act := ⟨num, o, cur, kind, s.acts.restart, false, s.acts.fixed.getD (s.rosterOf kind)⟩
        let s := s.modActs fun a => { a with queue := takeAct a.queue, cur := some act, fixed := none, restart := false }
        { s with cells := SMap.mapVal (fun _ x =>
            if x.scene.phase = .gated then { x with scene := { x.scene with phase := .ready } } else x) s.cells }) s
    | _, _ => s

/-! ### Completion entries (R246, R247) -/

/-- Write a SLOT_EVENT entry to the slot's completion ring. -/
def State.slotEvent (s : State) (n event reason : Nat) : State :=
  let x := s.slot n
  s.post x.cring ⟨0x22, toLE 2 n ++ toLE 2 x.gen ++ toLE 1 event ++ toLE 1 reason ++ toLE 2 0 ++ toLE 4 x.len ++ toLE 4 x.made⟩

/-- A token record. -/
def tokenRec (token slot : Nat) (first stop mx : Bool) : List Byte :=
  toLE 8 (token + slot <<< 32 + (b2n first) <<< 42 + (b2n stop) <<< 43 + (b2n mx) <<< 44)

/-- Write a TOKENS entry, if there are records, and the ACT_SUMMARY to each ring. -/
def State.postAct (s : State) (a : Act) (recs : List (Nat × List Byte)) (rings : List Nat) (committed late dropped : Nat)
    (skipped : Bool) : State :=
  rings.foldl (fun s h =>
    let mine := recs.filter fun r => r.1 == h
    let s := if mine.isEmpty then s
      else s.post h ⟨0x20, toLE 8 a.num ++ toLE 2 mine.length ++ toLE 6 0 ++ mine.flatMap (·.2)⟩
    s.post h ⟨0x21, toLE 8 a.num ++ toLE 8 a.curtain ++ toLE 2 committed ++ toLE 2 late ++ toLE 2 dropped ++
      toLE 1 (b2n skipped + (b2n a.aborted) <<< 1 + (b2n a.restarted) <<< 2) ++ toLE 9 0⟩) s

/-! ### Changes by entries and commands (R229, R231, R246) -/

/-- A slot goes to CLOSING: requests for it that were accepted and have not finished finish with ABORTED (R231). -/
def State.closeSlot (s : State) (n : Nat) : State :=
  (s.modSlot n fun x => { x with st := 4, closeAt := s.now }).modKv fun v =>
    { v with tickets := SMap.mapVal (fun _ k =>
        if k.status = 0 ∧ k.judged ∧ k.op ≠ 1 ∧ k.slot = n ∧ k.gen = (s.slot n).gen then { k with status := 0x15 } else k) v.tickets }

/-- A PROMPT takes effect (R246). -/
def State.doPrompt (s : State) (n gen : Nat) (ids : List Nat) (last : Bool) : State :=
  let x := s.slot n
  if x.gen ≠ gen ∨ !x.isOpen ∨ x.st = 3 then s.slotEvent n 3 0
  else if x.maxLen < x.len + x.left + ids.length then s.slotEvent n 2 4
  else
    let new := (promptSpan x.got (x.got + ids.length)).filter fun j => !(x.prompts.any fun p => p.1 == j)
    match s.takePages (new.length - x.rsv.length) with
    | none => s.slotEvent n 2 5
    | some q =>
      let have' := x.rsv ++ q.1
      let s := q.2.modSlot n fun x =>
        { x with rsv := have'.drop new.length, prompts := (new.zip have').foldl (fun m p => SMap.put m p.1 p.2) x.prompts }
      ((s.request 0 0 0 (4 * ids.length)).putIds n ids).modSlot n fun x =>
        { x with full := x.full || last, st := if last ∧ x.st = 1 then 2 else x.st }

/-- An ENROL takes effect (Table 9.3). -/
def State.doEnrol (s : State) (n gen : Nat) (resume : Bool) : State :=
  let x := s.slot n
  if x.gen ≠ gen ∨ !x.isOpen then s.slotEvent n 3 0
  else if !resume then
    if x.enrolled then (s.modSlot n fun x => { x with st := 1 }).slotEvent n 5 3 else s
  else if x.st ≠ 1 then s
  else if 0 < x.len then s.modSlot n fun x => { x with st := 3 }
  else s.slotEvent n 3 0

/-- A change takes effect. -/
def State.applyChange (s : State) : Change → State
  | .prompt n gen ids last held =>
    let s := s.doPrompt n gen ids last
    if held ∧ (s.slot n).gen = gen then s.unreserve n ids.length else s
  | .enrol n gen r => s.doEnrol n gen r
  | .close n gen => if (s.slot n).gen = gen ∧ (s.slot n).isOpen then s.closeSlot n else s

/-- A change with the stamp now (R229): it waits for the curtain of the act whose window holds the stamp; a stamp past a
curtain that has not been carried out waits for that curtain; otherwise it takes effect at once. -/
def State.change (s : State) (c : Change) : State :=
  let n := s.actOf s.now
  let n := if n = 0 then (match s.acts.cur with | some a => a.num | none => 0) else n
  if n = 0 then s.applyChange c else s.modActs fun a => { a with changes := a.changes ++ [(n, c)] }

/-- The changes of acts up to one take effect. -/
def State.applyUpTo (s : State) (n : Nat) : State :=
  let mine := s.acts.changes.filter fun p => p.1 ≤ n
  mine.foldl (fun s p => s.applyChange p.2) (s.modActs fun a => { a with changes := a.changes.filter fun p => n < p.1 })

/-! ### Commit, drop and abort (R239-R245) -/

/-- Whether a slot commits in an act: its completion stamp is earlier than the curtain. -/
def State.commits (s : State) (a : Act) (e : RosterEnt) : Bool :=
  let g := (s.slot e.slot).stage
  !a.aborted && !g.noPages && (match g.stamp with | some t => decide (t < a.curtain) | none => false)

/-- The token record of a slot that commits, if it writes one (Table 9.9). -/
def State.commitRec (s : State) (e : RosterEnt) : Option (Nat × List Byte) :=
  let x := s.slot e.slot
  if e.st = 2 ∧ !e.final then none
  else some (x.cring, tokenRec (x.stage.token.getD 0) e.slot (e.st == 2) x.stage.stop (e.length + e.chunk == x.maxLen))

/-- A slot commits (Table 9.9). -/
def State.commitSlot (s : State) (e : RosterEnt) : State :=
  let x := s.slot e.slot
  let len := x.len + e.chunk
  let ends := e.st == 3 || e.final
  let idle := ends && (x.stage.stop || len == x.maxLen)
  let s := s.modSlot e.slot fun x =>
    { x with
        len := len
        used := if e.st = 2 then x.used + e.chunk else x.used
        full := x.full && !e.final
        last := if ends then x.stage.token.getD 0 else x.last
        made := if ends then x.made + 1 else x.made
        st := if idle then 1 else if ends then 3 else 2
        pages := x.stage.pages.foldl (fun m p => SMap.put m p.1 p.2) x.pages
        stage := .init }
  let s := if e.st = 2 then s.trimPrompt e.slot else s
  if idle then s.slotEvent e.slot 5 (if x.stage.stop then 1 else 2) else s

/-- A slot that took part and does not commit (R242, R244): with NO_PAGES it goes IDLE. -/
def State.dropSlot (s : State) (e : RosterEnt) (aborted : Bool) : State :=
  let no := (s.slot e.slot).stage.noPages
  let s := s.dropStage e.slot
  if no ∧ !aborted then (s.modSlot e.slot fun x => { x with st := 1 }).slotEvent e.slot 1 0 else s

/-- Requests of an act that have not finished finish with ABORTED (R243). -/
def State.abortTickets (s : State) (num : Nat) : State :=
  s.modKv fun v => { v with tickets := SMap.mapVal (fun _ k =>
    if k.status = 0 ∧ k.op ≠ 5 ∧ k.act = num then { k with status := 0x15 } else k) v.tickets }

/-- At the curtain of an act the tickets that name an earlier one are retired: it is the curtain after the act they name (R234; log 97). -/
def State.retireAct (s : State) (num : Nat) : State :=
  s.modKv fun v => { v with tickets := v.tickets.filter fun p => p.2.op == 5 || num ≤ p.2.act }

/-- The act in progress is aborted (R243): every slot is dropped; the act keeps its curtain. -/
def State.abortAct (s : State) : State :=
  match s.acts.cur with
  | some a =>
    if a.aborted then s
    else
      let s := a.roster.foldl (fun s e => s.dropStage e.slot) s
      (s.abortTickets a.num).modActs fun x => { x with cur := some { a with aborted := true } }
  | none => s

/-- The roster of the next act is fixed at the curtain of the act before it (Table 9.2; log 92); streams ahead for a slot that does not
take part in it stop (R238). -/
def State.fixNext (s : State) : State :=
  match s.nextAct with
  | some (num, _, _, kind) =>
    let r := s.rosterOf kind
    (s.modActs fun a => { a with fixed := some r }).modKv fun v =>
      { v with tickets := SMap.mapVal (fun _ k =>
          if k.op = 4 ∧ k.status = 0 ∧ k.judged ∧ k.act = num ∧ !(r.any fun e => e.slot == k.slot) then { k with status := 0x15 }
          else k) v.tickets }
  | none => s

/-- The curtain of the act in progress (R241-R247): commits and drops, entries to the rings that had a slot taking part,
then the changes that waited. -/
def State.endAct (s : State) (a : Act) : State :=
  let yes := a.roster.filter (s.commits a)
  let no := a.roster.filter fun e => !s.commits a e
  let rings := (a.roster.map fun e => (s.slot e.slot).cring).eraseDups
  let recs := yes.filterMap s.commitRec
  let s := s.postAct a recs rings yes.length (if a.aborted then 0 else no.length) (if a.aborted then no.length else 0) false
  let s := no.foldl (fun s e => s.dropSlot e a.aborted) (yes.foldl State.commitSlot s)
  let s := (s.retireAct a.num).modActs fun x => { x with cur := none, done := a.num }
  (s.applyUpTo a.num).fixNext

/-- An act whose curtain passed before it could open is skipped (R226, R243): nothing takes part in it. -/
def State.skipAct (s : State) (num o cur kind : Nat) : State :=
  let a : Act := ⟨num, o, cur, kind, false, false, []⟩
  let rings := ((s.slots.filter fun p => p.2.enrolled).map fun p => p.2.cring).eraseDups
  let s := (s.postAct a [] rings 0 0 0 true).abortTickets num
  let s := (s.retireAct num).modActs fun x => { x with queue := takeAct x.queue, fixed := none, done := num }
  (s.applyUpTo num).fixNext

/-! ### Entries (R246) -/

/-- PROMPT (R246): identifiers join the slot's prompt, or the entry is refused. -/
def State.readPrompt (s : State) (b : List Byte) : Option State :=
  let n := fun (a k : Nat) => ofLE ((b.drop a).take k)
  let slot := n 0 2
  let gen := n 2 2
  let count := n 4 4
  let x := s.slot slot
  let ids := (List.range count).map fun i => n (16 + 4 * i) 4
  if 1024 ≤ slot then none
  else if count = 0 ∨ 4088 < count ∨ 1 < n 8 1 ∨ n 9 7 ≠ 0 ∨ b.length < 16 + 4 * count then none
  else if x.gen ≠ gen ∨ !x.isOpen then some (s.slotEvent slot 3 0)
  else if x.st = 3 ∨ x.maxLen < x.len + x.left + x.pend + count then some (s.change (.prompt slot gen ids (n 8 1 == 1) false))
  else match s.reservePrompt slot count with
    | some s => some (s.change (.prompt slot gen ids (n 8 1 == 1) true))
    | none => some (s.slotEvent slot 2 5)

/-- ENROL (R246): pause or resume. -/
def State.readEnrol (s : State) (b : List Byte) : Option State :=
  let n := fun (a k : Nat) => ofLE ((b.drop a).take k)
  let slot := n 0 2
  let x := s.slot slot
  if 1024 ≤ slot ∨ 1 < n 4 1 ∨ n 5 11 ≠ 0 then none
  else if x.gen ≠ n 2 2 ∨ !x.isOpen then some (s.slotEvent slot 3 0)
  else some (s.change (.enrol slot (n 2 2) (n 4 1 == 1)))

/-- An entry that breaks its own rules is reported with ENTRY_REFUSED too, where it names a slot (R348). -/
def State.refuseEntry (s : State) (entry : List Byte) : State :=
  let slot := ofLE ((entry.drop 16).take 2)
  if slot < 1024 then s.slotEvent slot 3 0 else s

/-- PROMPT (R229, R246, R348). -/
def execPrompt (ring : Nat) (entry : List Byte) (s : State) : Res :=
  onUnit (ring < 16384) ring s fun s =>
    match s.readRing ring entry with
    | .entry _ _ b =>
      let s := if ofLE (entry.take 1) = 0x10 ∧ (s.readPrompt b).isNone then s.refuseEntry entry else s
      s.serveEntry ring 0x10 entry State.readPrompt
    | _ => s.serveEntry ring 0x10 entry State.readPrompt

/-- ENROL (R229, R246, R348). -/
def execEnrol (ring : Nat) (entry : List Byte) (s : State) : Res :=
  onUnit (ring < 16384) ring s fun s =>
    match s.readRing ring entry with
    | .entry _ _ b =>
      let s := if ofLE (entry.take 1) = 0x11 ∧ (s.readEnrol b).isNone then s.refuseEntry entry else s
      s.serveEntry ring 0x11 entry State.readEnrol
    | _ => s.serveEntry ring 0x11 entry State.readEnrol

/-! ### The close (R231) -/

/-- A slot as SLOT_OPEN leaves it (R230, Table 9.4). -/
def openSlot (gen : Nat) (b : List Byte) : SlotSt :=
  let n := fun (a k : Nat) => ofLE ((b.drop a).take k)
  { SlotSt.init with
      st := 1, gen := gen, layers := n 2 2, tok := n 4 2, hot := n 6 1, pt := n 8 4, maxLen := n 12 4, cring := n 16 4
      chunkD := n 20 2, chunkP := n 22 2, sampling := (b.drop 24).take 32 }

/-- Every page of a slot returns to the pool, crypto-erased (R231). -/
def State.freeSlotPages (s : State) (n : Nat) : State :=
  let x := s.slot n
  s.givePages (x.pages.map (·.2) ++ x.prompts.map (·.2) ++ x.rsv ++ x.stage.pages.map (·.2)) true

/-- SLOT_CLOSE_DONE (R231, R333): the close completes; a SLOT_OPEN deferred behind it comes up. -/
def execSlotCloseDone (slot : Nat) (s : State) : Res :=
  onUnit (slot < 1024) slot s fun s =>
    let x := s.slot slot
    if x.st = 4 then
      let s := (s.freeSlotPages slot).slotEvent slot 4 0
      match x.reopen with
      | none => s.modSlot slot fun x => { SlotSt.init with gen := x.gen }
      | some (mb, e, b) =>
        (s.modSlot slot fun x => openSlot (if x.gen = 0xFFFF then 1 else x.gen + 1) b).settleDefer mb e .ok
    else s

end Sys2Proof.Machine
end

