-- ==== Sys2Proof/Machine/Doreana.lean ====
section
/-! DEFINITION. Doreana's measurement log, keys and digests (R412, R413, R418, R419, R423), and the reset of register
domains (R12). -/

namespace Sys2Proof.Machine

/-! ### Reset domains (R12, Table 0.4) -/

/-- How wide a reset domain is. -/
def Domain.rank : Domain → Nat
  | .compute => 0
  | .warm => 1
  | .cold => 2

/-- A register word after a reset of its domain: fields coded RWS keep their value, except at a cold start (R12). -/
def RegRow.afterReset (r : RegRow) (off old : Nat) : Nat :=
  r.fields.foldl (fun w f => if f.acc = .rws then setBits w f.lo f.w (bits old f.lo f.w) else w) (Sys2Proof.Machine.resetWord off)

/-- Reset the registers of a domain and of every narrower one; the house clock is not among them (R403), and a wider
domain's registers keep their words. DESIGN CHOICE (log 126): Doreana's write-only staging area at 0x201000, for which Table 19.1 gives a
domain and no reset value, keeps its bytes through a cold start. -/
def State.resetRegs (s : State) (d : Domain) : State :=
  { s with regs := SMap.mapVal (fun _ (w : SMap Word64) => w.filterMap fun p =>
      match regRowAt p.1 with
      | none => some p
      | some r =>
        if d.rank < r.domain.rank then some p
        else if d = .cold then none
        else some (p.1, BitVec.ofNat 64 (r.afterReset p.1 p.2.toNat))) s.regs }

/-! ### The measurement log (R418, R419) -/

/-- Change Doreana's state. -/
def State.modDor (s : State) (f : DorSt → DorSt) : State := { s with dor := f s.dor }

/-- The 96 B of a log entry (Table 17.2). -/
def LogEnt.bytes (e : LogEnt) : List Byte :=
  toLE 4 e.index ++ toLE 1 e.ty ++ toLE 3 0 ++ toLE 8 e.stamp ++ (e.digest ++ List.replicate 64 0).take 64 ++
    (e.detail ++ List.replicate 16 0).take 16

/-- The running digest continued over entries; a fold entry is not hashed, and stands for what it replaced. -/
def logDigest (m : List Byte) (es : List LogEnt) : List Byte :=
  es.foldl (fun m e => if e.ty = 0x0D then e.digest else shake256 64 (m ++ e.bytes)) m

/-- Fold the log when it is full: the oldest 1,024 held entries above index 15 give way to one fold entry (R419; its index
is that of the last entry it replaces, log 34). -/
def foldLog (now : Nat) (es : List LogEnt) : List LogEnt :=
  if es.length < 4096 then es
  else
    let out := (es.drop 16).take 1024
    let f : LogEnt := ⟨(out.getLast?.map (·.index)).getD 0, 0x0D, now,
      logDigest (logDigest (List.replicate 64 0) (es.take 16)) out, []⟩
    es.take 16 ++ [f] ++ es.drop 1040

/-- Doreana enters a measurement in its log. -/
def State.dorLog (s : State) (ty : Nat) (digest detail : List Byte) : State :=
  let e : LogEnt := ⟨s.dor.total, ty, s.now, digest, detail⟩
  let folded : Bool := s.dor.log.length ≥ 4096
  let s := s.modDor fun d =>
    { d with log := foldLog s.now d.log ++ [e], total := d.total + 1, digest := shake256 64 (d.digest ++ e.bytes) }
  let s := s.set Reg.DOR_STATUS_log_entries s.dor.log.length
  if folded then s.set Reg.DOR_STATUS_log_folded 1 else s

/-- SECURE_BOOT begins a new log (R418). -/
def State.newLog (s : State) : State :=
  (s.modDor fun d => { d with log := [], total := 0, digest := List.replicate 64 0 }).sets
    [(Reg.DOR_STATUS_log_entries, 0), (Reg.DOR_STATUS_log_folded, 0)]

/-! ### Keys (Table 17.1) -/

/-- ASCII text as bytes. -/
def ascii (t : String) : List Byte := t.toList.map fun c => BitVec.ofNat 8 c.toNat

/-- `job_key_id` (Table 17.3): zero with no job key. -/
def State.jobKeyId (s : State) : List Byte :=
  match s.dor.jobKey with
  | some k => shake256 16 (k ++ ascii "GN140-KEYID")
  | none => List.replicate 16 0

/-- Overwrite the job key (R413). -/
def State.dropJobKey (s : State) : State :=
  ((s.modDor fun d => { d with jobKey := none }).modHost fun h => { h with keySession := 0 }).set Reg.DOR_STATUS_job_key 0

/-- The KEM key is used up; a new one is ready within 50 ms (R413, R423). -/
def State.dropKem (s : State) : State :=
  (s.modDor fun d => { d with kemAt := s.now }).set Reg.DOR_STATUS_kem_ready 0

/-- A new KEM key is ready, under the next number. -/
def State.makeKem (s : State) : State :=
  (s.modDor fun d => { d with kemId := (d.kemId + 1) % 2 ^ 32 }).set Reg.DOR_STATUS_kem_ready 1

/-- Crypto-erase the snapshot region (R301): no snapshot is held any more. -/
def State.eraseSnapshot (s : State) : State :=
  (s.eraseArea 0x01AE18000000 0x10000000).set Reg.RECOVERY_STATUS_snapshot_valid 0

end Sys2Proof.Machine
end

