-- ==== Sys2Proof/Machine/Engine.lean ====
section
/-! DEFINITION. What V-cells and S-cells share: fetching an instruction, waiting, program faults, bank accesses and the
endpoint checks of Table 4.6 (R96-R98, R102, R104, R111). -/

namespace Sys2Proof.Machine

/-- The instruction at a cell's program counter, when its program runs: within a beat, not stopped (R102). -/
def State.insAt (s : State) (c : Nat) : Option Nat :=
  let x := s.cell c
  if s.mayRun c ∧ x.scene.phase = .inBeat then
    match x.scene.cur with
    | some im => im.eng[x.eng.pc]?
    | none => none
  else none

/-- Length of a cell's program. -/
def State.progLen (s : State) (c : Nat) : Nat :=
  match (s.cell c).scene.cur with
  | some im => im.eng.length
  | none => 0

/-- The seed and logical address that make a cell's generator key (R50). -/
def State.srKey (s : State) (c : Nat) : Nat :=
  let x := (s.cell c).scene
  (match x.cur with | some im => im.seed | none => 0) ^^^ (x.logical <<< 48)

/-- The engine goes on at an instruction: one more instruction is finished (R292). A counter outside the program is
program fault 0x09. -/
def State.engineAt (s : State) (c pc : Nat) : State :=
  if s.fenced c then s
  else
    let s := s.modEng c fun e =>
      { e with pc := pc, run := 1, wait := .none, progress := e.progress + 1, progressAt := s.now }
    if pc < s.progLen c then s else s.programFault c 0x09

/-- The engine waits (R102): on a queue or cue, a grant or a ticket (2), or on a barrier (3). -/
def State.engineWait (s : State) (c : Nat) (w : WaitOn) : State :=
  s.modEng c fun e =>
    { e with run := (match w with | .barrier _ => 3 | _ => 2), wait := w, waitAt := if e.wait = w then e.waitAt else s.now }

/-- The engine waits for a message or cue that is not there. -/
def State.waitRecv (s : State) (c n : Nat) : State := (s.starve c n).engineWait c (.queue n)

/-- Check a bank access of an engine (R96, R111, Table 4.6): the cause, if it is not allowed. `o` is the address within
the cell, `n` its bytes and `al` its alignment. -/
def State.bankCause (s : State) (c o n al : Nat) : Option Nat :=
  if bankCount c * 0x100000 ≤ o ∨ o % al ≠ 0 ∨ 0x100000 < o % 0x100000 + n then some 1
  else match (s.cell c).scene.cur with
    | some im => if im.owner (o / 0x100000) = 0 then none else some 2
    | none => some 2

/-- Whether an endpoint steers a gate of its cell: no engine reads it (R193). -/
def State.steersGate (s : State) (c n : Nat) : Bool := (s.cell c).eps.any fun p => epKind p.2.cfg != 0 && epGate p.2.cfg && epGateCue p.2.cfg == n

/-- Check the endpoint of a receive: plain or chorus, or a cue endpoint that steers no gate (Table 4.6, R193; log 121). -/
def State.recvCause (s : State) (c n : Nat) (cue : Bool) : Option Nat :=
  let r := (s.ep c n).cfg
  if s.steersGate c n then some 3
  else if epKind r = 0 ∨ epSends r ∨ (cue ∧ epKind r ≠ 3) ∨ (!cue ∧ epKind r = 3) then some 3 else none

/-- Check the endpoint of a send of `k` granules (Table 4.6, R180): on an endpoint whose channel is being shut down it is a fault, unless
a new channel waits for the shutdown; then it waits for credit. -/
def State.sendCause (s : State) (c n k : Nat) : Option Nat :=
  let r := (s.ep c n).cfg
  if epKind r = 0 ∨ epKind r = 3 ∨ !epSends r ∨ ((s.aux c n).draining ∧ !s.deferredAt c n) then some 3
  else if k = 0 ∨ epMaxGran r < k ∨ (!epPacket r ∧ k ≠ epMaxGran r) then some 3
  else none

/-- Check the endpoint of a cue post (Table 4.6, R180). -/
def State.cueCause (s : State) (c n : Nat) : Option Nat :=
  let r := (s.ep c n).cfg
  if epKind r ≠ 3 ∨ !epSends r ∨ ((s.aux c n).draining ∧ !s.deferredAt c n) then some 3 else none

/-- A 32 B-aligned run of words whose every word is read. -/
def State.readRun (s : State) (c o k : Nat) (ecc : List EccEvent) : List Gran × State := s.readWords c o 0 ecc k

/-- Read the words that cover `n` bytes at byte `o` of a cell's scratchpad: the bytes, and whether any is poisoned. -/
def State.readSpan (s : State) (c o n : Nat) (ecc : List EccEvent) : List Byte × Bool × State :=
  let first := o / 32
  let k := if n = 0 then 0 else (o + n - 1) / 32 - first + 1
  let r := s.readWords c (first * 32) 0 ecc k
  (((gransBytes r.1).drop (o % 32)).take n, r.1.any (·.poison), r.2)

/-- The 32 B word at an address, of which part is wanted: its data from the address on, and its poison. -/
def State.readPart (s : State) (c o : Nat) (ecc : List EccEvent) : List Byte × Bool × State :=
  let r := s.readWord c (o / 32 * 32) 0 ecc
  (r.1.data.drop (o % 32), r.1.poison, r.2)

end Sys2Proof.Machine
end

