-- ==== Sys2Proof/Machine/SCell.lean ====
section
/-! DEFINITION. The S-cell (R105-R119): its registers and its instructions, but for KVREQ and KVPOLL, which stand with
the KV stager. -/

namespace Sys2Proof.Machine

/-! ### Registers (R105) -/

/-- The S-cell's registers. -/
def State.sst (s : State) (c : Nat) : SSt := (s.cell c).sc
/-- A general register; g0 reads as zero. -/
def SSt.reg (x : SSt) (k : Nat) : Nat := if k = 0 then 0 else SMap.getD x.g k 0
/-- Whether a general register holds a poisoned value. -/
def SSt.poison (x : SSt) (k : Nat) : Bool := k != 0 && bitAt x.gp k
/-- Write a general register; writes to g0 are ignored. -/
def SSt.setReg (x : SSt) (k v : Nat) (p : Bool) : SSt :=
  if k = 0 then x else { x with g := SMap.put x.g k (v % 2 ^ 64), gp := setBits x.gp k 1 (b2n p) }
/-- A predicate register; p0 reads as true. -/
def SSt.pred (x : SSt) (k : Nat) : Bool := k == 0 || bitAt x.p k
/-- Write a predicate register; writes to p0 are ignored. -/
def SSt.setPred (x : SSt) (k : Nat) (v : Bool) : SSt := if k = 0 then x else { x with p := setBits x.p k 1 (b2n v) }

/-! ### The program (R106, R119) -/

/-- Whether an instruction's guard is true. -/
def sGuard (x : SSt) (i : Nat) : Bool := x.pred (sGuardP i) != sGuardN i

/-- The instruction is done: its results are in force and the next one follows. -/
def State.sDone (s : State) (c : Nat) (x : SSt) : State :=
  if s.fenced c then s else (s.modCell c fun y => { y with sc := x }).engineAt c ((s.cell c).eng.pc + 1)

/-- A jump; a negative target is outside the program. -/
def State.sJump (s : State) (c : Nat) (t : Int) : State :=
  if t < 0 then s.programFault c 0x09 else s.engineAt c t.toNat

/-- `reg` of `SC_LOCKSTEP_LAST` (R103): a general register for point 0, a predicate for point 1, zero otherwise. -/
def lockPlace (h : LockHit) : Nat := match h.point with | 0 => h.reg % 32 | 1 => h.reg % 8 | _ => 0

/-- A lockstep mismatch (R119): counted, recorded, a cairn record, and a fence condition; nothing of its clock leaves. -/
def State.lockstepFault (s : State) (c : Nat) (h : LockHit) : State :=
  let pc := (s.cell c).eng.pc
  let v := s.flag (Reg.SC_LOCKSTEP_LAST_valid c)
  let sc := match (s.cell c).scene.cur with | some im => im.sceneNo | none => 0
  let s := s.sets [(Reg.SC_LOCKSTEP_LAST_overrun c, b2n v), (Reg.SC_LOCKSTEP_LAST_valid c, 1), (Reg.SC_LOCKSTEP_LAST_pc c, pc),
    (Reg.SC_LOCKSTEP_LAST_scene c, sc), (Reg.SC_LOCKSTEP_LAST_point c, h.point), (Reg.SC_LOCKSTEP_LAST_reg c, lockPlace h),
    (Reg.SC_LOCKSTEP_LAST_issue_slot c, h.issueSlot)]
  let s := s.stageCairn { Cairn.blank 0x03 0 0 c (s.logicalOf c) pc with regs := s.regWords [(Reg.SC_LOCKSTEP_LAST_valid c).off] }
  (s.fenceCell c 0x03).modEng c fun e => { e with cause := 0x11, lockstep := satAdd 16 e.lockstep 1 }

/-- One S-cell instruction with its opcode: it acts when the cell's program stands at it. A lockstep mismatch stops it;
with a false guard it does nothing but pass (R106). Points 6 and 7 are reserved (R103): nothing is compared there. An
uncorrectable read of the scene store as it is fetched fences the cell (R207). -/
def sRow (op : Nat) (c : CellAddr) (hw : SHw) (s : State) (f : Nat → State → State) : Res :=
  let a := c.toNat
  onUnit (cellValid a ∧ engineOf a = .s) a s fun s =>
    match s.insAt a with
    | some i =>
      if sOp i = op then
        if hw.store then s.storeFault a
        else match hw.lock.filter (·.point < 6) with
        | some h => s.lockstepFault a h
        | none => if sGuard (s.sst a) i then f i s else s.sDone a (s.sst a)
      else s
    | none => s

/-! ### Arithmetic (R107, R110) -/

/-- gd takes a function of ga and gb; a poisoned operand poisons the result (R110). -/
def State.sAlu (s : State) (c i : Nat) (f : Nat → Nat → Nat) : State :=
  let x := s.sst c
  s.sDone c (x.setReg (sGd i) (f (x.reg (sGa i)) (x.reg (sGb i))) (x.poison (sGa i) || x.poison (sGb i)))

/-- gd takes a function of ga alone. -/
def State.sUnary (s : State) (c i : Nat) (f : Nat → Nat) : State :=
  let x := s.sst c
  s.sDone c (x.setReg (sGd i) (f (x.reg (sGa i))) (x.poison (sGa i)))

/-- The immediate of format I as a 64-bit number. -/
def sImm64 (i : Nat) : Nat := ofSigned 64 (sImm i)

/-- Signed view of a 64-bit register. -/
def s64 (x : Nat) : Int := toSigned 64 x

/-- NOP (R107). -/
def execSNop (c : CellAddr) (hw : SHw) (s : State) : Res := sRow 0x00 c hw s fun _ s => s.sDone c.toNat (s.sst c.toNat)
/-- ADD (R107): modulo 2^64. -/
def execSAdd (c : CellAddr) (hw : SHw) (s : State) : Res := sRow 0x01 c hw s fun i s => s.sAlu c.toNat i fun a b => a + b
/-- SUB (R107): modulo 2^64. -/
def execSSub (c : CellAddr) (hw : SHw) (s : State) : Res :=
  sRow 0x02 c hw s fun i s => s.sAlu c.toNat i fun a b => a + 2 ^ 64 - b
/-- AND (R107). -/
def execSAnd (c : CellAddr) (hw : SHw) (s : State) : Res := sRow 0x03 c hw s fun i s => s.sAlu c.toNat i fun a b => a &&& b
/-- OR (R107). -/
def execSOr (c : CellAddr) (hw : SHw) (s : State) : Res := sRow 0x04 c hw s fun i s => s.sAlu c.toNat i fun a b => a ||| b
/-- XOR (R107). -/
def execSXor (c : CellAddr) (hw : SHw) (s : State) : Res := sRow 0x05 c hw s fun i s => s.sAlu c.toNat i fun a b => a ^^^ b
/-- SHL (R107): by gb[5:0]. -/
def execShl (c : CellAddr) (hw : SHw) (s : State) : Res := sRow 0x06 c hw s fun i s => s.sAlu c.toNat i fun a b => a <<< (b % 64)
/-- SHR (R107): logical. -/
def execShr (c : CellAddr) (hw : SHw) (s : State) : Res := sRow 0x07 c hw s fun i s => s.sAlu c.toNat i fun a b => a >>> (b % 64)
/-- SAR (R107): arithmetic. -/
def execSar (c : CellAddr) (hw : SHw) (s : State) : Res :=
  sRow 0x08 c hw s fun i s => s.sAlu c.toNat i fun a b => ofSigned 64 (s64 a / (2 ^ (b % 64) : Nat))
/-- MUL (R107): the low 64 bits. -/
def execSMul (c : CellAddr) (hw : SHw) (s : State) : Res := sRow 0x09 c hw s fun i s => s.sAlu c.toNat i fun a b => a * b
/-- MULHU (R107): the high 64 bits, unsigned. -/
def execMulhu (c : CellAddr) (hw : SHw) (s : State) : Res :=
  sRow 0x0A c hw s fun i s => s.sAlu c.toNat i fun a b => (a * b) >>> 64
/-- MIN (R107): signed. -/
def execSMin (c : CellAddr) (hw : SHw) (s : State) : Res :=
  sRow 0x0B c hw s fun i s => s.sAlu c.toNat i fun a b => if s64 a ≤ s64 b then a else b
/-- MAX (R107): signed. -/
def execSMax (c : CellAddr) (hw : SHw) (s : State) : Res :=
  sRow 0x0C c hw s fun i s => s.sAlu c.toNat i fun a b => if s64 a ≤ s64 b then b else a
/-- MINU (R107): unsigned. -/
def execMinu (c : CellAddr) (hw : SHw) (s : State) : Res := sRow 0x0D c hw s fun i s => s.sAlu c.toNat i fun a b => min a b
/-- MAXU (R107): unsigned. -/
def execMaxu (c : CellAddr) (hw : SHw) (s : State) : Res := sRow 0x0E c hw s fun i s => s.sAlu c.toNat i fun a b => max a b

/-- ADDI (R107). -/
def execAddi (c : CellAddr) (hw : SHw) (s : State) : Res := sRow 0x10 c hw s fun i s => s.sUnary c.toNat i fun a => a + sImm64 i
/-- ANDI (R107). -/
def execAndi (c : CellAddr) (hw : SHw) (s : State) : Res := sRow 0x11 c hw s fun i s => s.sUnary c.toNat i fun a => a &&& sImm64 i
/-- ORI (R107). -/
def execOri (c : CellAddr) (hw : SHw) (s : State) : Res := sRow 0x12 c hw s fun i s => s.sUnary c.toNat i fun a => a ||| sImm64 i
/-- XORI (R107). -/
def execXori (c : CellAddr) (hw : SHw) (s : State) : Res := sRow 0x13 c hw s fun i s => s.sUnary c.toNat i fun a => a ^^^ sImm64 i
/-- SHLI (R107): by imm[5:0]. -/
def execShli (c : CellAddr) (hw : SHw) (s : State) : Res :=
  sRow 0x14 c hw s fun i s => s.sUnary c.toNat i fun a => a <<< (sImm64 i % 64)
/-- SHRI (R107): logical. -/
def execShri (c : CellAddr) (hw : SHw) (s : State) : Res :=
  sRow 0x15 c hw s fun i s => s.sUnary c.toNat i fun a => a >>> (sImm64 i % 64)
/-- SARI (R107): arithmetic. -/
def execSari (c : CellAddr) (hw : SHw) (s : State) : Res :=
  sRow 0x16 c hw s fun i s => s.sUnary c.toNat i fun a => ofSigned 64 (s64 a / (2 ^ (sImm64 i % 64) : Nat))

/-- SETI (R107): the sign-extended immediate. -/
def execSeti (c : CellAddr) (hw : SHw) (s : State) : Res :=
  sRow 0x18 c hw s fun i s =>
    s.sDone c.toNat ((s.sst c.toNat).setReg (sGd i) (ofSigned 64 (toSigned 16 (sImm16 i))) false)

/-- APPI (R107): gd shifted left by 16, with the immediate in its low bits. -/
def execAppi (c : CellAddr) (hw : SHw) (s : State) : Res :=
  sRow 0x19 c hw s fun i s =>
    let x := s.sst c.toNat
    s.sDone c.toNat (x.setReg (sGd i) (x.reg (sGd i) <<< 16 + sImm16 i) (x.poison (sGd i)))

/-- The conditions of CMP and CMPI: 0 EQ, 1 NE, 2 LT, 3 LE, 4 LTU, 5 LEU. -/
def sCond (k a b : Nat) : Bool :=
  match k with
  | 0 => a == b
  | 1 => a != b
  | 2 => decide (s64 a < s64 b)
  | 3 => decide (s64 a ≤ s64 b)
  | 4 => decide (a < b)
  | _ => decide (a ≤ b)

/-- CMP (R107): a poisoned operand is program fault 0x05 (R110). -/
def execCmp (c : CellAddr) (hw : SHw) (s : State) : Res :=
  sRow 0x1C c hw s fun i s =>
    let x := s.sst c.toNat
    if x.poison (sGa i) || x.poison (sGb i) then s.programFault c.toNat 0x05
    else s.sDone c.toNat (x.setPred (sGd i % 8) (sCond (sFunc i) (x.reg (sGa i)) (x.reg (sGb i))))

/-- CMPI (R107): `gd`[4:3] 0 EQ, 1 NE, 2 LT, 3 LTU. -/
def execCmpi (c : CellAddr) (hw : SHw) (s : State) : Res :=
  sRow 0x1D c hw s fun i s =>
    let x := s.sst c.toNat
    let k := if sGd i / 8 = 3 then 4 else sGd i / 8
    if x.poison (sGa i) then s.programFault c.toNat 0x05
    else s.sDone c.toNat (x.setPred (sGd i % 8) (sCond k (x.reg (sGa i)) (sImm64 i)))

/-- PLOG (R107): 0 AND, 1 OR, 2 XOR, 3 AND-NOT. -/
def execPlog (c : CellAddr) (hw : SHw) (s : State) : Res :=
  sRow 0x1E c hw s fun i s =>
    let x := s.sst c.toNat
    let p := x.pred (sGa i % 8)
    let q := x.pred (sGb i % 8)
    let r := match sFunc i with
      | 0 => p && q
      | 1 => p || q
      | 2 => p != q
      | _ => p && !q
    s.sDone c.toNat (x.setPred (sGd i % 8) r)

/-- FADD (R57, R107). -/
def execFadd (c : CellAddr) (hw : SHw) (s : State) : Res :=
  sRow 0x24 c hw s fun i s => s.sAlu c.toNat i fun a b => fadd32 (a % 2 ^ 32) (b % 2 ^ 32)
/-- FMUL (R57, R107). -/
def execFmul (c : CellAddr) (hw : SHw) (s : State) : Res :=
  sRow 0x25 c hw s fun i s => s.sAlu c.toNat i fun a b => fmul32 (a % 2 ^ 32) (b % 2 ^ 32)

/-- FCMP (R90, R107): 0 EQ, 1 LT, 2 LE, 3 UNORD; −0 equals +0. -/
def execFcmp (c : CellAddr) (hw : SHw) (s : State) : Res :=
  sRow 0x26 c hw s fun i s =>
    let x := s.sst c.toNat
    let p := val32 (x.reg (sGa i) % 2 ^ 32)
    let q := val32 (x.reg (sGb i) % 2 ^ 32)
    let nan := p == .nan || q == .nan
    let r := match sFunc i with
      | 0 => vcond' 0 nan (p.cmp q)
      | 1 => vcond' 1 nan (p.cmp q)
      | 2 => vcond' 2 nan (p.cmp q)
      | _ => nan
    if x.poison (sGa i) || x.poison (sGb i) then s.programFault c.toNat 0x05
    else s.sDone c.toNat (x.setPred (sGd i % 8) r)
where
  /-- EQ, LT or LE of two numbers; false with a NaN. -/
  vcond' (k : Nat) (nan : Bool) (d : Int) : Bool :=
    !nan && (match k with | 0 => decide (d = 0) | 1 => decide (d < 0) | _ => decide (d ≤ 0))

/-- FCVT (R48, R107). DESIGN CHOICE (log 126): the bits of gd above the result, which no rule gives, are written zero. -/
def execFcvt (c : CellAddr) (hw : SHw) (s : State) : Res :=
  sRow 0x27 c hw s fun i s => s.sUnary c.toNat i fun a =>
    match sFunc i with
    | 0 => round32 (FV.ofInt (s64 a))
    | 1 => (val32 (a % 2 ^ 32)).toSat 64
    | 2 => FFmt.bf16.ofFV .rne false (val32 (a % 2 ^ 32))
    | _ => round32 (FFmt.bf16.decode (a % 2 ^ 16))

/-- BR (R107). -/
def execBr (c : CellAddr) (hw : SHw) (s : State) : Res :=
  sRow 0x28 c hw s fun i s => s.sJump c.toNat ((s.cell c.toNat).eng.pc + sOff i)

/-- BRL (R107): g31 takes the next instruction's place. -/
def execBrl (c : CellAddr) (hw : SHw) (s : State) : Res :=
  sRow 0x29 c hw s fun i s =>
    let pc := (s.cell c.toNat).eng.pc
    (s.modCell c.toNat fun y => { y with sc := y.sc.setReg 31 (pc + 1) false }).sJump c.toNat (pc + sOff i)

/-- JR (R107): a target at or beyond the program's length is program fault 0x09; a poisoned one 0x05. -/
def execJr (c : CellAddr) (hw : SHw) (s : State) : Res :=
  sRow 0x2A c hw s fun i s =>
    let x := s.sst c.toNat
    if x.poison (sGa i) then s.programFault c.toNat 0x05
    else if s.progLen c.toNat ≤ x.reg (sGa i) then s.programFault c.toNat 0x09
    else s.engineAt c.toNat (x.reg (sGa i))

/-! ### Memory (R111) -/

/-- The address ga + sext(imm). -/
def sAddress (x : SSt) (i : Nat) : Nat := (x.reg (sGa i) + sImm64 i) % 2 ^ 64

/-- Load `n` bytes. -/
def State.sLoad (s : State) (c i n : Nat) (ecc : List EccEvent) : State :=
  let x := s.sst c
  if x.poison (sGa i) then s.programFault c 0x05
  else match s.bankCause c (sAddress x i) n n with
    | some k => s.programFault c k
    | none =>
      let r := s.readPart c (sAddress x i) ecc
      r.2.2.sDone c ((r.2.2.sst c).setReg (sGd i) (ofLE (r.1.take n)) r.2.1)

/-- Store `n` bytes of gd. -/
def State.sStore (s : State) (c i n : Nat) (ecc : List EccEvent) : State :=
  let x := s.sst c
  if x.poison (sGa i) then s.programFault c 0x05
  else match s.bankCause c (sAddress x i) n n with
    | some k => s.programFault c k
    | none =>
      let s := s.writePart c (sAddress x i) (toLE n (x.reg (sGd i))) (x.poison (sGd i)) ecc
      s.sDone c (s.sst c)

/-- LD (R107, R111). -/
def execSLd (c : CellAddr) (hw : SHw) (s : State) : Res := sRow 0x20 c hw s fun i s => s.sLoad c.toNat i 8 hw.ecc
/-- LDW (R107, R111): zero-extended. -/
def execLdw (c : CellAddr) (hw : SHw) (s : State) : Res := sRow 0x21 c hw s fun i s => s.sLoad c.toNat i 4 hw.ecc
/-- ST (R107, R111). -/
def execSSt (c : CellAddr) (hw : SHw) (s : State) : Res := sRow 0x22 c hw s fun i s => s.sStore c.toNat i 8 hw.ecc
/-- STW (R107, R111). -/
def execStw (c : CellAddr) (hw : SHw) (s : State) : Res := sRow 0x23 c hw s fun i s => s.sStore c.toNat i 4 hw.ecc

/-! ### Queues, cues, remote writes (R110-R116) -/

/-- CUE (R107, R113): ga[31:0] is posted; the cell waits while the endpoint or the side lane is full. -/
def execCue (c : CellAddr) (hw : SHw) (s : State) : Res :=
  sRow 0x30 c hw s fun i s =>
    let a := c.toNat
    let x := s.sst a
    if x.poison (sCa i) then s.programFault a 0x05
    else match s.cueCause a (sEp i) with
      | some k => s.programFault a k
      | none =>
        let r := s.cueSend a (sEp i) (x.reg (sCa i))
        if r.1 then r.2.sDone a (r.2.sst a) else r.2.engineWait a (.queue (sEp i))

/-- CUEW (R107). -/
def execCuew (c : CellAddr) (hw : SHw) (s : State) : Res :=
  sRow 0x31 c hw s fun i s =>
    let a := c.toNat
    match s.recvCause a (sEp i) true with
    | some k => s.programFault a k
    | none =>
      if !s.hasMsg a (sEp i) then s.waitRecv a (sEp i)
      else
        let v := (s.headCue a (sEp i)).1
        let q := s.readCue a (sEp i) hw.ecc
        if q.2.fenced a then q.2
        else
          let s := q.2.takeCue a (sEp i)
          s.sDone a ((s.sst a).setReg (sGd i) v q.1)

/-- SEND (R107, R111): gd granules from own address ga, as one message; the cell waits for credit. -/
def execSSend (c : CellAddr) (hw : SHw) (s : State) : Res :=
  sRow 0x32 c hw s fun i s =>
    let a := c.toNat
    let x := s.sst a
    let k := x.reg (sGd i)
    let o := x.reg (sCa i)
    if x.poison (sGd i) || x.poison (sCa i) then s.programFault a 0x05
    else match s.sendCause a (sEp i) k with
      | some e => s.programFault a e
      | none =>
        match s.bankCause a o (32 * k) 32 with
        | some e => s.programFault a e
        | none =>
          let t := s.epSend a (sEp i) (List.replicate k ⟨[], false⟩)
          if t.1 then
            let g := s.readRun a o k hw.ecc
            if g.2.fenced a then g.2
            else
              let r := g.2.epSend a (sEp i) g.1
              r.2.sDone a (r.2.sst a)
          else t.2.engineWait a (.queue (sEp i))

/-- RECV (R107, R111): the next message goes to own address ga; gd takes its length in granules. The address is checked at
once (R111); a message that would run past the end of the bank stays. -/
def execSRecv (c : CellAddr) (hw : SHw) (s : State) : Res :=
  sRow 0x33 c hw s fun i s =>
    let a := c.toNat
    let x := s.sst a
    let n := sEp i
    let o := x.reg (sCa i)
    if x.poison (sCa i) then s.programFault a 0x05
    else match s.recvCause a n false, s.bankCause a o 0 32 with
      | some k, _ => s.programFault a k
      | none, some k => s.programFault a k
      | none, none =>
        if !s.hasMsg a n then s.waitRecv a n
        else match s.bankCause a o (32 * s.headLen a n) 32 with
          | some k => s.programFault a k
          | none =>
            let r := s.readHead a n hw.ecc
            if r.2.fenced a then r.2
            else
              let s := (r.2.consume a n r.1).writeWords a o r.1
              s.sDone a ((s.sst a).setReg (sGd i) r.1.length false)

/-- PSEL (R115): both heads of the pair are consumed, the one the predicate keeps is written to ga. -/
def execPsel (c : CellAddr) (hw : SHw) (s : State) : Res :=
  sRow 0x34 c hw s fun i s =>
    let a := c.toNat
    let x := s.sst a
    let n := sEp i
    let o := x.reg (sCa i)
    if x.poison (sCa i) then s.programFault a 0x05
    else if !epPair (s.ep a n).cfg ∨ n % 2 = 1 then s.programFault a 0x08
    else match s.recvCause a n false, s.recvCause a (n + 1) false, s.bankCause a o 0 32 with
      | some k, _, _ => s.programFault a k
      | none, some k, _ => s.programFault a k
      | none, none, some k => s.programFault a k
      | none, none, none =>
        if !s.hasMsg a n then s.waitRecv a n
        else if !s.hasMsg a (n + 1) then s.waitRecv a (n + 1)
        else
          let first := x.pred (bits (sFunc i) 0 3) != bitAt (sFunc i) 3
          let keep := if first then n else n + 1
          let other := if first then n + 1 else n
          match s.bankCause a o (32 * s.headLen a keep) 32 with
          | some k => s.programFault a k
          | none =>
            let r := s.readHead a keep hw.ecc
            if r.2.fenced a then r.2
            else
              let s := (r.2.consume a keep r.1).writeWords a o r.1
              let s := s.consume a other (s.peekHead a other)
              s.sDone a ((s.sst a).setReg (sGd i) r.1.length false)

/-- The physical device address of a scratchpad address that names its cell by logical address (R218). -/
def State.mapAddress (s : State) (d : Nat) : Option (Nat × Nat) :=
  match spDecode d with
  | some (l, o) => (s.physical l).map fun p => (p, o)
  | none => none

/-- POST (R107, R111, R116): granules from own address ga are written to another cell's scratchpad. -/
def execPost (c : CellAddr) (hw : SHw) (s : State) : Res :=
  sRow 0x35 c hw s fun i s =>
    let a := c.toNat
    let x := s.sst a
    let k := sFunc i + 1
    let o := x.reg (sGa i)
    let d := x.reg (sGb i)
    if x.poison (sGa i) || x.poison (sGb i) then s.programFault a 0x05
    else match s.bankCause a o (32 * k) 32, s.mapAddress d with
      | some e, _ => s.programFault a e
      | none, none => s.programFault a 0x01
      | none, some (p, po) =>
        if d % 32 ≠ 0 ∨ 0x100000 < po % 0x100000 + 32 * k then s.programFault a 0x01
        else
          let g := s.readRun a o k hw.ecc
          if g.2.fenced a then g.2
          else
            let s := g.2.sendPacket a (mkPacket 1 1 (g.2.epoch4 a) a p (spAddr p po) 0 g.1)
            s.sDone a (s.sst a)

/-- GREQ (R110, R116, R136): the request at ga, which R111 aligns to nothing, is sent, and the cell waits for the answer; gd takes the outcome. A target
that the cast does not place answers BAD_WINDOW. -/
def execGreq (c : CellAddr) (hw : SHw) (s : State) : Res :=
  sRow 0x36 c hw s fun i s =>
    let a := c.toNat
    let x := s.sst a
    if (s.cell a).eng.wait = .grant then
      match x.answer with
      | some v => s.sDone a ({ x with answer := none }.setReg (sGd i) v false)
      | none => s
    else if x.poison (sGa i) then s.programFault a 0x05
    else match s.bankCause a (x.reg (sGa i)) 32 1 with
      | some k => s.programFault a k
      | none =>
        let r := s.readSpan a (x.reg (sGa i)) 32 hw.ecc
        -- bytes 8-31 do not travel; that they are not zero is carried by a reserved bit (log 26)
        let w := ofLE (r.1.take 8) ||| (if (r.1.drop 8).all (· == 0) then 0 else 2 ^ 26)
        let t := r.2.2
        if r.2.1 then t.programFault a 0x05
        else match t.physical (grTarget w) with
          | none => t.sDone a ((t.sst a).setReg (sGd i) 3 false)
          | some p => if t.laneLoad a < 8 then (t.sendItem ⟨8, 0, p, 0, a, 0, 0, w, 0⟩).engineWait a .grant else s

/-- The object of a barrier or flag instruction: (ga + imm) mod 4,096. -/
def sObject (x : SSt) (i : Nat) : Nat := (x.reg (sGa i) + sImm64 i) % 4096

/-- Check the object of a barrier or flag instruction (Table 4.6). -/
def State.objectCause (s : State) (c i : Nat) (flag : Bool) : Option Nat :=
  let x := s.sst c
  if x.poison (sGa i) then some 0x05
  else match (s.cell c).scene.cur with
    | some im => if im.bound flag (sObject x i) then none else some 0x06
    | none => some 0x06

/-- BARA (R113, R172): arrives; a cell whose earlier arrival has not completed waits at issue. -/
def execBara (c : CellAddr) (hw : SHw) (s : State) : Res :=
  sRow 0x37 c hw s fun i s =>
    let a := c.toNat
    let obj := sObject (s.sst a) i
    match s.objectCause a i false with
    | some k => s.programFault a k
    | none =>
      if !s.barDone a obj then s.engineWait a (.barrier obj)
      else if 8 ≤ s.laneLoad a then s
      else
        let s := s.arrive a obj
        s.sDone a (s.sst a)

/-- BARW (R107): waits until the barrier of the cell's last arrival completes. -/
def execBarw (c : CellAddr) (hw : SHw) (s : State) : Res :=
  sRow 0x38 c hw s fun i s =>
    let a := c.toNat
    let obj := sObject (s.sst a) i
    match s.objectCause a i false with
    | some k => s.programFault a k
    | none => if s.barDone a obj then s.sDone a (s.sst a) else s.engineWait a (.barrier obj)

/-- FLAGO (R110, R113, R173): an update item towards the root. -/
def execFlago (c : CellAddr) (hw : SHw) (s : State) : Res :=
  sRow 0x39 c hw s fun i s =>
    let a := c.toNat
    let x := s.sst a
    match s.objectCause a i true with
    | some k => s.programFault a k
    | none =>
      if x.poison (sGd i) then s.programFault a 0x05
      else if 8 ≤ s.laneLoad a then s
      else
        let s := s.sendItem ⟨6, 0, a, 0, a, 0, 0, sObject x i, x.reg (sGd i)⟩
        s.sDone a (s.sst a)

/-- FLAGR (R173): gd takes the block's copy. -/
def execFlagr (c : CellAddr) (hw : SHw) (s : State) : Res :=
  sRow 0x3A c hw s fun i s =>
    let a := c.toNat
    let x := s.sst a
    match s.objectCause a i true with
    | some k => s.programFault a k
    | none => s.sDone a (x.setReg (sGd i) (SMap.getD (s.xr (a / 32)).flags (sObject x i) 0) false)

/-- RAND (R117): Philox4x32 with key ga and counter gb; words 0 and 1. -/
def execRand (c : CellAddr) (hw : SHw) (s : State) : Res :=
  sRow 0x3D c hw s fun i s => s.sAlu c.toNat i fun a b =>
    let ws := philox b a
    nth ws 0 0 + nth ws 1 0 <<< 32

/-- CTR (R107): 0 house clock, 1 `beat_count`, 2 cell clocks since the scene was loaded (log 117), 3 logical cell
address; every other selector is reserved, and PACKAGE_LOAD refuses it (R107). -/
def execCtr (c : CellAddr) (hw : SHw) (s : State) : Res :=
  sRow 0x3E c hw s fun i s =>
    let a := c.toNat
    let x := s.cell a
    let v := match sImm i with
      | 0 => s.now
      | 1 => x.eng.beats
      | 2 => (s.clocks (gOf a) - x.scene.loadedClk) / 10
      | _ => x.scene.logical
    s.sDone a ((s.sst a).setReg (sGd i) v false)

/-- END (R107, R211, R213). -/
def execSEnd (c : CellAddr) (hw : SHw) (s : State) : Res := sRow 0x3F c hw s fun _ s => s.beatEnd c.toNat hw.ecc

end Sys2Proof.Machine
end

