-- ==== Sys2Proof/Machine/Stager.lean ====
section
/-! DEFINITION. The KV stager (R234-R240, R266, R461): requests, tickets, and deliveries through porters. -/

namespace Sys2Proof.Machine

/-! ### Requests and tickets (R234, Table 9.5) -/

/-- The ticket that a request record spells, not yet judged; one that breaks the form is REFUSED (R461 test 1). -/
def ticketOf (c : Nat) (b : List Byte) : Ticket :=
  let n := fun (a k : Nat) => ofLE ((b.drop a).take k)
  let w := n 0 8
  let op := bits w 0 8
  let bad := op = 0 ∨ 5 < op ∨ bits w 8 8 ≠ 0 ∨ bits w 26 6 ≠ 0 ∨ 1 < n 36 4 ∨ n 42 22 ≠ 0
  { cell := c, op := op, slot := bits w 16 10, layer := bits w 32 8, windows := bits w 40 8, gen := bits w 48 16
    act := n 8 8, addr := n 16 8, first := n 24 4, count := n 28 4, token := n 32 4, stop := n 36 4 == 1, target := n 40 2
    judged := bad, status := if bad then 0x10 else 0, qty := 0, nextPage := 0, out := 0, closed := false, porter := 0, mate := none
    len := 0 }

/-- The number of a new ticket (R234): one that no held ticket has, which the spec leaves open (log 3). -/
def State.newTicket (s : State) : Nat × State :=
  let d := s.draw
  (kthFree (SMap.keys s.kv.tickets) (d.1.toNat % (2 ^ 32 - s.kv.tickets.length)), d.2)

/-- The rows an APPEND reads: its cell, offset and length in bytes, none when `addr` is no such place (BAD_ADDR, Table
9.7). -/
def State.appendRows (s : State) (k : Ticket) : Option (Nat × Nat × Nat) :=
  let n := k.count * (s.slot k.slot).row
  match s.mapAddress k.addr with
  | some (c, o) => if k.addr % 32 = 0 ∧ o % 0x100000 + n ≤ 0x100000 then some (c, o, n) else none
  | none => none

/-- KVREQ (R234, R110, R281): the request at ga + imm becomes a ticket; the S-cell waits while all 4,096 are held. A
paired cell's request waits at base camp for its comparison. -/
def execKvreq (c : CellAddr) (hw : SHw) (s : State) : Res :=
  sRow 0x3B c hw s fun i s =>
    let a := c.toNat
    let o := sAddress (s.sst a) i
    if (s.sst a).poison (sGa i) then s.programFault a 0x05
    else match s.bankCause a o 64 1 with
      | some e => s.programFault a e
      | none =>
        if 4096 ≤ s.kv.tickets.length then s.engineWait a .ticket
        else
          let g := s.readSpan a o 64 hw.ecc
          if g.2.1 then g.2.2.programFault a 0x05
          else
            let t := g.2.2.newTicket
            let k := ticketOf a g.1
            let s := t.2.modKv fun v => { v with tickets := SMap.put v.tickets t.1 k }
            let s :=
              if s.paired ∧ s.logicalOf a ≠ 0xFFFF then
                let rows := match k.op, s.appendRows k with
                  | 2, some (p, o, n) => s.readRun p o (n / 32) hw.ecc
                  | _, _ => ([], s)
                rows.2.holdItem a none (some t.1) none (toGrans (fun _ => false) g.1 ++ rows.1)
              else s
            s.sDone a ((s.sst a).setReg (sGd i) t.1 false)

/-- The ticket whose outcome a ticket reports (R281), if it is still held. -/
def State.outcomeOf (s : State) (k : Ticket) : Ticket :=
  match k.mate.bind fun m => SMap.get? s.kv.tickets m with
  | some m => { k with status := m.status, qty := m.qty }
  | none => k

/-- Retire a ticket; tickets that report its outcome keep it. -/
def State.retire (s : State) (t : Nat) (k : Ticket) : State :=
  s.modKv fun v => { v with tickets := SMap.mapVal (fun _ x =>
    if x.mate = some t then { x with status := k.status, qty := k.qty, mate := none } else x) (SMap.del v.tickets t) }

/-- KVPOLL (R236): gd takes the status and quantity of ticket ga; a final status retires the ticket. -/
def execKvpoll (c : CellAddr) (hw : SHw) (s : State) : Res :=
  sRow 0x3C c hw s fun i s =>
    let a := c.toNat
    let x := s.sst a
    let t := x.reg (sGa i) % 2 ^ 32
    if x.poison (sGa i) then s.programFault a 0x05
    else match SMap.get? s.kv.tickets t with
      | none => s.sDone a (x.setReg (sGd i) 0xFF false)
      | some k =>
        let k := s.outcomeOf k
        let s := if k.status ≠ 0 then s.retire t k else s
        s.sDone a (x.setReg (sGd i) (k.status + (k.qty % 2 ^ 24) <<< 8) false)

/-! ### The tests of R461 -/

/-- A slot's roster entry in an act; a slot that was opened again since has none. -/
def State.partOf (s : State) (act slot : Nat) : Option RosterEnt := (s.rosterIn act).bind fun r => r.find? fun e => e.slot == slot && e.gen == (s.slot slot).gen

/-- Whether the curtain of an act has passed. -/
def State.actPast (s : State) (act : Nat) : Bool :=
  (act != 0 && act ≤ s.acts.done) || (match s.acts.cur with | some a => a.num == act && a.curtain ≤ s.now | none => false) ||
    (match s.nextAct with | some (n, _, c, _) => n == act && c ≤ s.now | none => false)

/-- Whether a request's act is one that its operation may name. -/
def State.actNamed (s : State) (k : Ticket) : Bool :=
  (k.act != 0 && s.actOf s.now == k.act) || ((k.op == 1 || k.op == 4) && (s.nextAct.map (·.1)) == some k.act)

/-- Whether tokens and pages lie in range (R461 test 7). -/
def State.ranged (s : State) (k : Ticket) : Bool :=
  let x := s.slot k.slot
  let inPt := fun (p : Nat) => x.entry p k.layer < x.pt
  match k.op with
  | 2 =>
    let chunk := ((s.partOf k.act k.slot).map (·.chunk)).getD 0
    k.count == 0 || (k.first + k.count ≤ chunk &&
      (List.range k.count).all (fun i => !x.stage.toks.contains (k.layer, k.first + i)) &&
      inPt ((x.len + k.first + k.count - 1) / x.tpp))
  | 4 => inPt k.first && (k.count == 0 || inPt (k.first + k.count - 1))
  | 5 => k.count == 0 || (inPt (k.first + k.count - 1) && (k.first + k.count - 1) * x.tpp < x.len)
  | _ => true

/-- The status of the first test of R461 that fails; none when the request is accepted. -/
def State.judgeTicket (s : State) (k : Ticket) : Option Nat :=
  let x := s.slot k.slot
  if k.op ≠ 1 ∧ (!x.isOpen ∨ x.gen ≠ k.gen) then some 0x11
  else if k.op ≠ 5 ∧ s.actPast k.act then some 0x02
  else if k.op ≠ 5 ∧ !s.actNamed k then some 0x10
  else if k.op ≠ 1 ∧ !x.enrolled then some 0x10
  else if (k.op = 2 ∨ k.op = 3) ∧ (s.partOf k.act k.slot).isNone then some 0x10
  else if (k.op = 2 ∨ k.op = 4 ∨ k.op = 5) ∧ x.layers ≤ k.layer then some 0x10
  else if !s.ranged k then some 0x10
  else if k.op = 3 ∧ x.stage.token.isSome then some 0x12
  else if k.op = 2 ∧ (s.appendRows k).isNone then some 0x14
  else if (k.op = 1 ∨ k.op = 4 ∨ k.op = 5) ∧ k.windows = 0 then some 0x10
  else none

/-- Whether a request names the act in progress and that act is aborted: it finishes with ABORTED (R243). -/
def State.namesAborted (s : State) (k : Ticket) : Bool :=
  k.op != 5 && (match s.acts.cur with | some a => a.aborted && a.num == k.act | none => false)

/-- Whether a ticket's request can be worked on: of this operation, still pending, not held for a comparison (R281), and
not one that only reports another's outcome. -/
def State.workable (s : State) (t op : Nat) : Option Ticket :=
  match SMap.get? s.kv.tickets t with
  | some k =>
    if k.op = op ∧ k.status = 0 ∧ k.mate.isNone ∧ !(s.pair.held.any fun h => h.ticket == some t) then some k else none
  | none => none

/-- Accept a request, or settle it by the tests. `f` acts on an accepted one. -/
def stagerRow (t op : Nat) (s : State) (f : Ticket → State → State) : Res :=
  .next <|
    match s.workable t op with
    | none => s
    | some k =>
      if k.judged then f k s
      else match s.judgeTicket k with
        | some st => s.modTicket t fun k => { k with judged := true, status := st }
        | none =>
          if s.namesAborted k then s.modTicket t fun k => { k with judged := true, status := 0x15 }
          else
            let k := { k with judged := true, porter := 48 + s.kv.turn % 16, len := (s.slot k.slot).len, nextPage := k.first }
            let s := (s.modTicket t fun _ => k).modKv fun v => { v with turn := if op = 3 then v.turn else v.turn + 1 }
            f k s

/-! ### Staging (R239, R240) -/

/-- A slot's completion stamp is taken once everything of R240 holds. -/
def State.checkStage (s : State) (act n : Nat) : State :=
  let x := s.slot n
  let g := x.stage
  match s.partOf act n with
  | some e =>
    if g.token.isSome ∧ g.landing = 0 ∧ g.stamp.isNone ∧ g.toks.length = x.layers * e.chunk then
      s.modSlot n fun x => { x with stage := { x.stage with stamp := some s.now } }
    else s
  | none => s

/-- The pages that rows enter for the first time (R235). -/
def SlotSt.newPages (x : SlotSt) (k : Ticket) : List Nat :=
  ((List.range k.count).map fun i => x.entry ((x.len + k.first + i) / x.tpp) k.layer).eraseDups.filter fun e =>
    !(x.pages.any fun p => p.1 == e) && !(x.stage.pages.any fun p => p.1 == e)

/-- DRAM address of a token's row. -/
def SlotSt.rowAddr (x : SlotSt) (layer t : Nat) : Nat :=
  let e := x.entry (t / x.tpp) layer
  ((SMap.get? x.stage.pages e).getD (SMap.getD x.pages e 0)) + t % x.tpp * x.row

/-- APPEND (R235, R239, R244): every new page is taken, or none; the rows are read through the visitor port and written to
DRAM. -/
def execAppend (ticket : Nat) (ecc : List EccEvent) (s : State) : Res :=
  stagerRow ticket 2 s fun k s =>
    if k.out ≠ 0 then s
    else
      let x := s.slot k.slot
      match s.appendRows k with
      | none => s.modTicket ticket fun k => { k with status := 0x14 }
      | some (c, o, _) =>
        let new := x.newPages k
        match s.takePages new.length with
        | none =>
          (s.modTicket ticket fun k => { k with status := 0x03 }).modSlot k.slot fun x =>
            { x with stage := { x.stage with noPages := true } }
        | some q =>
          let s := q.2.modSlot k.slot fun x => { x with stage := { x.stage with
            pages := (new.zip q.1).foldl (fun m p => SMap.put m p.1 p.2) x.stage.pages
            toks := x.stage.toks ++ (List.range k.count).map fun i => (k.layer, k.first + i)
            landing := x.stage.landing + 1 } }
          if s.fenced c then s.modTicket ticket fun k => { k with status := 0x15 }
          else
            let x := s.slot k.slot
            let s := (List.range k.count).foldl (fun s i =>
              let g := s.readWords c (o + i * x.row) 2 ecc (x.row / 32)
              (g.2.request 0 0 0 x.row).writeGrans (x.rowAddr k.layer (x.len + k.first + i)) g.1 []) s
            s.modTicket ticket fun k => { k with out := 1 }

/-- APPEND_LANDED (R240): the rows have landed in DRAM. -/
def execAppendLanded (ticket : Nat) (s : State) : Res :=
  .next <|
    match s.workable ticket 2 with
    | some k =>
      when (k.out == 1) (fun s =>
        let s := s.modTicket ticket fun k => { k with out := 0, qty := k.count, status := 1 }
        let s := s.modSlot k.slot fun x => { x with stage := { x.stage with landing := x.stage.landing - 1 } }
        s.checkStage k.act k.slot) s
    | none => s

/-- COMPLETE (R235, R240): the slot's token is staged. -/
def execComplete (ticket : Nat) (s : State) : Res :=
  stagerRow ticket 3 s fun k s =>
    let s := s.modSlot k.slot fun x => { x with stage := { x.stage with token := some k.token, stop := k.stop } }
    (s.modTicket ticket fun k => { k with status := 1 }).checkStage k.act k.slot

/-! ### Deliveries (R235, R266) -/

/-- The next window in rotation (R235). -/
def nextWindow (mask last : Nat) : Nat :=
  let on := indices 8 (bitAt mask)
  ((on.find? fun i => last ≤ i).getD (on.headD 0))

/-- Submit one page or roster to the request's porter: the window is assigned now. A target that the cast does not place
has no window to grant: BAD_WINDOW. -/
def State.deliver (s : State) (t : Nat) (k : Ticket) (src len q : Nat) (data : List Gran) : State :=
  match s.physical k.target with
  | none => s.modTicket t fun k => { k with status := 0x13 }
  | some c =>
    let w := nextWindow k.windows (SMap.getD s.kv.rot k.target 0)
    let s := s.modKv fun v => { v with rot := SMap.put v.rot k.target (w + 1) }
    let start := ((s.win c w).map Win.start).getD 0
    let s := s.queueDesc k.porter ⟨[1 + 1 <<< 5 + len <<< 32, src, spAddr c start, 0, w, 0, 0, 0], 1, t, q, data, []⟩
    s.modTicket t fun k => { k with out := k.out + 1 }

/-- ROSTER (R235, R237): once the roster is fixed, its entries in the range are delivered. -/
def execRoster (ticket : Nat) (s : State) : Res :=
  stagerRow ticket 1 s fun k s =>
    if k.closed ∨ !s.porterRoom k.porter then s
    else match s.rosterIn k.act with
      | none => s
      | some r =>
        let es := r.filter fun e => k.first ≤ e.slot && e.slot < k.first + k.count
        let act := match s.acts.cur with
          | some a => if a.num = k.act then (a.curtain, a.kind, a.restarted) else (0, 0, false)
          | none => (0, 0, false)
        let act := match s.nextAct with
          | some (n, _, c, kind) => if n = k.act then (c, kind, s.acts.restart) else act
          | none => act
        let head := toLE 8 k.act ++ toLE 8 act.1 ++ toLE 1 act.2.1 ++ toLE 1 (b2n act.2.2) ++ toLE 2 es.length ++ toLE 12 0
        let body := es.flatMap fun e => toLE 2 e.slot ++ toLE 2 e.gen ++ toLE 1 e.st ++ toLE 1 (b2n e.final) ++ toLE 2 0 ++
          toLE 4 e.length ++ toLE 4 e.chunk ++ toLE 4 e.last ++ toLE 4 0 ++ toLE 8 e.promptAddr ++
          (e.sampling ++ List.replicate 32 0).take 32
        let gs := toGrans (fun _ => false) (head ++ body)
        (s.deliver ticket k 0 (32 * gs.length) es.length gs).modTicket ticket fun k => { k with closed := true }

/-- Submit pages from `nextPage` on, in rising order, while `more` holds of the next one and the porter's queue has room:
each carries `len` bytes of its committed rows. -/
def State.pagesOut (s : State) (t : Nat) (more : Nat → Bool) (len : Nat → Nat) : Nat → State
  | 0 => s
  | n + 1 =>
    match SMap.get? s.kv.tickets t with
    | some k =>
      let p := k.nextPage
      if k.status = 0 ∧ more p ∧ s.porterRoom k.porter ∧ (k.count = 0 ∨ p < k.first + k.count) then
        let x := s.slot k.slot
        let s := s.deliver t k (SMap.getD x.pages (x.entry p k.layer) 0) (len p) 1 []
        State.pagesOut (s.modTicket t fun k => { k with nextPage := p + 1 }) t more len n
      else s
    | none => s

/-- All pages of a request are submitted. -/
def State.closeTicket (s : State) (t : Nat) : State := s.modTicket t fun k => Ticket.settled { k with closed := true }

/-- STREAM (R235, R238): cold pages go as soon as they are known to be cold in the act; the request is carried on by
further STREAM commands. -/
def execStream (ticket : Nat) (s : State) : Res :=
  stagerRow ticket 4 s fun k s =>
    let x := s.slot k.slot
    let known := s.rosterIn k.act
    let part := match known with
      | some r => r.any fun e => e.slot == k.slot
      | none => true
    -- the pages that are cold in the act are final once the act before it has ended
    let last := k.act ≤ s.acts.done + 1 && known.isSome
    if k.closed then s
    else if !part then s.modTicket ticket fun k => { k with status := 0x15 }
    else
      let cold := fun p => x.cold x.len p
      let s := s.pagesOut ticket cold (fun _ => x.tpp * x.row) 256
      match SMap.get? s.kv.tickets ticket with
      | some k =>
        when ((last && !cold k.nextPage) || (k.count != 0 && k.first + k.count ≤ k.nextPage)) (fun s => s.closeTicket ticket) s
      | none => s

/-- FETCH (R235): pages as committed at acceptance. -/
def execFetch (ticket : Nat) (s : State) : Res :=
  stagerRow ticket 5 s fun k s =>
    let x := s.slot k.slot
    if k.closed then s
    else
      let s := s.pagesOut ticket (fun p => p < k.first + k.count) (fun p => min x.tpp (k.len - p * x.tpp) * x.row) 256
      match SMap.get? s.kv.tickets ticket with
      | some k => when (k.first + k.count ≤ k.nextPage) (fun s => s.closeTicket ticket) s
      | none => s

/-- PAGE_DELIVERY (R235, R266): a porter carries a descriptor of the stager into its assigned window; one whose request
has finished delivers nothing. -/
def execPageDelivery (porter : Nat) (ecc : List DramErr) (s : State) : Res :=
  onUnit (porter < 64) porter s fun s =>
    if s.portersRun then
      let s := s.porterHead porter fun d => d.owner == 1
      match (s.porter porter).run with
      | some d =>
        if d.owner = 1 ∧ (s.porter porter).phase ≠ .moved then
          match SMap.get? s.kv.tickets d.ticket with
          | some k => if k.status = 0 then s.porterGo porter d ⟨[], ecc, false, [], 0⟩ else s.porterEnd porter 6 0
          | none => s.porterEnd porter 6 0
        else s
      | none => s
    else s

/-- The stager's staged state and tickets are cleared (R245, R302); committed state stays. -/
def State.clearStager (s : State) : State :=
  (s.slots.foldl (fun s p => s.dropStage p.1) s).modKv fun v => { v with tickets := [] }

end Sys2Proof.Machine
end

