-- ==== Sys2Proof/Machine/Transport.lean ====
section
/-! DEFINITION. The base-camp transport (R166-R169), what hub units and cells do with packets (R132, R252, R313), and the
comparison of paired items (R280, R281). -/

namespace Sys2Proof.Machine

/-! ### The sender (R168) -/

/-- An acknowledgement: packets before `seq` are done; a new one starts the timer and the resend count again. -/
def State.acked (s : State) (b : Nat) (toHub : Bool) (seq : Nat) : State :=
  let t := s.tp b toHub
  match t.unacked with
  | p :: _ =>
    let t0 := p.seq
    let n := (seq + 2 ^ 16 - t0) % 2 ^ 16
    if 0 < n ∧ n ≤ t.unacked.length then
      let s := s.modTp b toHub fun t =>
        { t with unacked := t.unacked.drop n, resends := 0, progressAt := s.now
                 resend := t.resend.filter fun p => decide (n ≤ (p.seq + 2 ^ 16 - t0) % 2 ^ 16) }
      s.pumpAll b toHub
    else s
  | [] => s

/-- Credit comes back to a sender (R167). -/
def State.credited (s : State) (b : Nat) (toHub : Bool) (k : Nat) : State :=
  if k = 0 then s
  else
    let s := s.modTp b toHub fun t => { t with credit := min 256 (t.credit + k) }
    s.pumpAll b toHub

/-- Go back to the oldest unacknowledged packet: every one is sent again, as credit returns; after 16 resends without progress a transport fault fences the block. -/
def State.goBack (s : State) (b : Nat) (toHub : Bool) : State :=
  let t := s.tp b toHub
  if t.unacked.isEmpty then s
  else if 16 ≤ t.resends then
    let s := s.stageCairn (Cairn.blank 0x09 2 (s.xr b).home (b * 32) 0xFFFF ((t.unacked.head?.map Packet.seq).getD 0))
    (s.fenceBlock b 0x0A).report (b * 32) 0x0A 0
  else (s.modTp b toHub fun t => { t with resends := t.resends + 1, progressAt := s.now, resend := t.unacked }).pumpAll b toHub

/-! ### What a hub unit does with a packet -/

/-- A packet that a hub unit does not act on is counted. -/
def State.hubDrop (s : State) (unit : Nat) : State :=
  s.modHub fun h => { h with drops := SMap.upd h.drops unit 0 (satAdd 12 · 1) }

/-- A hub unit acts on a packet from a cell (R166, R252): WRITE and READ of DRAM or of a scratchpad, MESSAGE. `dram` and `ecc` are what the
codes of R256 and R129 meet. A fenced cell's scratchpad is not read (R16). -/
def State.hubAct (s : State) (p : Packet) (dram : List DramErr) (ecc : List EccEvent) : State :=
  let n := 32 * p.payload.length
  match p.ty with
  | 1 =>
    if isDram p.addr ∧ inDram p.addr n then (s.request 0 p.cls 0 n).writeGrans p.addr p.payload dram
    else match spDecode p.addr with
      | some (c, o) => if o + n ≤ bankCount c * 0x100000 then s.hubDeliver p.dst p.cls c o p.payload else (s.hubDrop p.dst).cellFault p.src 5
      | none => (s.hubDrop p.dst).cellFault p.src 5
  | 2 =>
    let answer := fun (s : State) (gs : List Gran) =>
      s.tpSend (p.src / 32) false (mkPacket 3 p.cls 0 p.dst p.src p.addr p.tag gs)
    if isDram p.addr ∧ inDram p.addr (32 * p.len) then
      let r := (s.request 0 p.cls 0 (32 * p.len)).readDram p.addr (32 * p.len) dram
      answer r.2 r.1
    else match spDecode p.addr with
      | some (c, o) =>
        if s.fenced c then (s.hubDrop p.dst).inc (Reg.BLK_STATUS_fenced_drop_count (c / 32))
        else if o + 32 * p.len ≤ bankCount c * 0x100000 then
          let r := s.readWords c (o / 32 * 32) 2 ecc p.len
          answer r.2 r.1
        else (s.hubDrop p.dst).cellFault p.src 5
      | none => (s.hubDrop p.dst).cellFault p.src 5
  | 4 =>
    let m : Msg := ⟨p.tag, 0, p.epoch, p.addr, p.payload, 0, true⟩
    State.hubIntake { s with mesh := { s.mesh with hubMsgs := s.mesh.hubMsgs ++ [m] } }
  | _ => s

/-- An accepted packet reaches its unit. At the hub, one of another epoch is dropped (R313) and one of a paired cell waits
for its comparison with its credit kept (R281); at a block it stands at its cell's local port until that delivers or discards it, and its
credit with it (R26, R167, R214). -/
def State.accepted (s : State) (b : Nat) (toHub : Bool) (p : Packet) (dram : List DramErr) (ecc : List EccEvent) : State :=
  if !toHub then s.modPort p.dst fun q => { q with pkts := q.pkts ++ [p] }
  else if p.epoch ≠ s.epoch4 p.src then (s.owe b toHub p.cost).hubDrop p.dst
  else if s.paired ∧ s.logicalOf p.src ≠ 0xFFFF ∧ (p.ty = 1 ∨ p.ty = 2 ∨ p.ty = 4) then
    s.holdItem p.src (some p) none none p.payload
  else (s.owe b toHub p.cost).hubAct p dram ecc

/-! ### The receiver (R168) -/

/-- Take the first packet of a receiver, if it is one that a row serves: control packets of a kind, or all others. A packet
whose header check fails is served by TRANSPORT_RECEIVE. -/
def State.rxHead (s : State) (b : Nat) (toHub : Bool) (ctl : Nat) : Option (Packet × State) :=
  match (s.tp b toHub).inq with
  | p :: rest =>
    let kind := if p.hOk ∧ !p.linkErr ∧ (p.ty = 6 ∨ p.ty = 7) then p.ty else 0
    if kind = ctl then some (p, s.modTp b toHub fun t => { t with inq := rest }) else none
  | [] => none

/-- An acknowledgement and credit that a packet carries serve the sender of the other direction. -/
def State.carriedBack (s : State) (b : Nat) (toHub : Bool) (p : Packet) : State :=
  let s := if p.ackValid then s.acked b (!toHub) p.ack else s
  s.credited b (!toHub) p.credit

/-- Send the control packet a receiver owes: an acknowledgement, with the credit that is owed. -/
def State.sendAck (s : State) (b : Nat) (toHub : Bool) (ty : Nat) : State :=
  let t := s.tp b toHub
  (s.tpControl b toHub ty t.expect t.owed).modTp b toHub fun t => { t with owed := 0, accepted := 0 }

/-- A packet is discarded and counted; the first discard after an accepted packet sends a NAK. -/
def State.rxDiscard (s : State) (b : Nat) (toHub : Bool) (p : Packet) : State :=
  let s := if toHub then s.hubDrop p.dst else s.inc (Reg.XR_COUNTS_pkt_drop_count b)
  let s := s.owe b toHub p.cost
  if (s.tp b toHub).nakSent then s
  else (s.sendAck b toHub 6).modTp b toHub fun t => { t with nakSent := true }

/-- TRANSPORT_RECEIVE (R168): the first packet at a receiver is accepted, discarded and counted, a duplicate with an acknowledgement; an ACK
serves the sender of the other direction. -/
def execTransportReceive (blk : BlkRead) (toHub : Bool) (s : State) : Res :=
  onBlk blk.blk s fun s =>
    match s.rxHead blk.blk toHub 0 with
    | none => s
    | some (p, s) =>
      let t := s.tp blk.blk toHub
      let good := p.hOk && !p.linkErr
      if good && p.ty == 5 then s.carriedBack blk.blk toHub p
      else if good && p.pOk && p.seq == t.expect then
        let s := s.carriedBack blk.blk toHub p
        let s := s.modTp blk.blk toHub fun t =>
          { t with expect := (t.expect + 1) % 2 ^ 16, nakSent := false, accepted := t.accepted + 1
                   ackAt := if t.accepted = 0 ∧ t.owed = 0 then s.now else t.ackAt }
        let s := s.accepted blk.blk toHub p blk.dram blk.ecc
        if 16 ≤ (s.tp blk.blk toHub).accepted then s.sendAck blk.blk toHub 5 else s
      else if good && p.pOk && (t.expect + 2 ^ 16 - p.seq) % 2 ^ 16 ≤ 64 then
        (((if toHub then s.hubDrop p.dst else s.inc (Reg.XR_COUNTS_pkt_drop_count blk.blk))).owe blk.blk toHub p.cost).sendAck blk.blk toHub 5
      else s.rxDiscard blk.blk toHub p

/-- TRANSPORT_NAK (R168, R170): the sender goes back to the `seq` the NAK names; the NAK of a multicast leaf makes a porter
resend that packet to the leaf alone. -/
def execTransportNak (blk : Nat) (toHub : Bool) (s : State) : Res :=
  onBlk blk s fun s =>
    match s.rxHead blk toHub 6 with
    | none => s
    | some (k, s) =>
      if toHub ∧ k.dst ≠ 0xF050 then
        match s.mcastCopy k.dst k.tag with
        | some (_, p) =>
          s.tpSend (k.src / 32) false (((p.setW 0 9 1 0).setW 0 48 16 k.src).setW 1 0 64 (spAddr k.src (p.addr % 2 ^ 24))).seal
        | none => s
      else
        let s := s.carriedBack blk toHub k
        s.goBack blk (!toHub)

/-- TRANSPORT_RESEND_TIMEOUT (R168): 4 us without a new acknowledgement. -/
def execTransportResendTimeout (blk : Nat) (toHub : Bool) (s : State) : Res :=
  onBlk blk s fun s =>
    let t := s.tp blk toHub
    when (!t.unacked.isEmpty && t.progressAt + 4000 ≤ s.now) (fun s => s.goBack blk toHub) s

/-- TRANSPORT_ACK_TIMER (R168, R167): 1 us after a packet that has not been acknowledged, the acknowledgement goes; credit
alone goes in a CREDIT packet. -/
def execTransportAckTimer (blk : Nat) (toHub : Bool) (s : State) : Res :=
  onBlk blk s fun s =>
    let t := s.tp blk toHub
    if t.ackAt + 1000 ≤ s.now then
      if t.accepted ≠ 0 then s.sendAck blk toHub 5
      else if t.owed ≠ 0 then s.sendAck blk toHub 7
      else s
    else s

/-- TRANSPORT_CREDIT (R167): a CREDIT packet returns credit. -/
def execTransportCredit (blk : Nat) (toHub : Bool) (s : State) : Res :=
  onBlk blk s fun s =>
    match s.rxHead blk toHub 7 with
    | none => s
    | some (p, s) => s.credited blk (!toHub) p.credit

/-! ### Packets at a cell (R169, R170) -/

/-- Discard the first packet of a cell's port and count it at its block. -/
def State.pktDrop (s : State) (c : Nat) : State := s.inc (Reg.XR_COUNTS_pkt_drop_count (c / 32))

/-- Transport credit that a packet at a cell's port holds (R167): that of a packet from base camp. -/
def Packet.fromHub (p : Packet) : Nat := if 0xF000 ≤ p.src ∧ !p.mcast then p.cost else 0

/-- A packet to an address that is no word of its cell is discarded and counted, and faults its sending cell (R252). -/
def State.badWrite (s : State) (c : Nat) (p : Packet) : State :=
  let s := (s.pktDrop c).owe (c / 32) false p.fromHub
  if p.src < 0xF000 then s.cellFault p.src 5 else s

/-- A WRITE reaches its cell: a remote write (R132). A multicast one writes at its offset in this cell's window. -/
def State.cellWrite (s : State) (c : Nat) (p : Packet) (gs : List Gran) : State :=
  let a := if p.mcast then spAddr c (p.addr % 2 ^ 24) else p.addr
  match spDecode a with
  | some (d, o) =>
    if d = c ∧ o + 32 * gs.length ≤ bankCount c * 0x100000 then
      s.modPort c fun q => { q with writes := q.writes ++ [⟨p.src, a, gs, p.fromHub⟩] }
    else s.badWrite c p
  | none => s.badWrite c p

/-- A MESSAGE reaches its cell: the endpoint that its handle's channel ends at, or a drop. -/
def State.cellMessage (s : State) (c : Nat) (p : Packet) (gs : List Gran) : State :=
  match (s.chan (hIndex p.tag)).recv with
  | some e =>
    if e.unit = c ∨ (s.copies e.unit).contains c then s.deliverMsg c e.ep ⟨p.tag, 0, p.epoch, p.addr, gs, 0, true⟩ else s.pktDrop c
  | none => s.pktDrop c

/-- The leaf of a multicast asks for a packet again (R170). -/
def State.mcastNak (s : State) (c : Nat) (p : Packet) : State :=
  let k := (mkPacket 6 0 (s.epoch4 c) c p.src 0 p.tag [])
  if 0xF000 ≤ p.src then s.launch (c / 32) true (k.setW 2 33 5 (s.xr (c / 32)).home).seal else s.sendPacket c k

/-- The tests of a packet at its cell (R16, R169, R170, R313): none when it is dropped; otherwise its granules, all poisoned
when the payload check fails. -/
def State.checkPacket (s : State) (c : Nat) (p : Packet) : Option (List Gran) × State :=
  if s.fenced c then (none, s.inc (Reg.BLK_STATUS_fenced_drop_count (c / 32)))
  else if p.mcast ∧ (!p.hOk ∨ !p.pOk ∨ p.linkErr) then (none, (s.pktDrop c).mcastNak c p)
  else if !p.hOk then (none, (s.pktDrop c).cellFault c 4)
  else if p.src < 0xF000 ∧ p.epoch ≠ s.epoch4 p.src then (none, s.inc (Reg.CELL_EPOCH_epoch_drop_count c))
  else if !p.pOk ∨ p.linkErr then
    (some ((toGrans (fun _ => true) (gransBytes p.payload ++ List.replicate (32 * (p.carried - p.payload.length)) 0))), s)
  else (some p.payload, s)

/-- The first packet at a cell's port, taken by the row that serves its type, while the cell's clock runs (R26). The transport credit of one from
base camp goes back when it is delivered or discarded; that of a WRITE with its remote write (R167, R214). -/
def packetRow (c : CellAddr) (s : State) (mine : Nat → Bool) (f : Packet → List Gran → State → State) : Res :=
  let a := c.toNat
  onPort c s fun s =>
    match (s.cell a).port.pkts with
    | p :: rest =>
      if mine p.ty then
        let r := (s.modPort a fun q => { q with pkts := rest }).checkPacket a p
        match r.1 with
        | some gs => f p gs (if p.ty = 1 then r.2 else r.2.owe (a / 32) false p.fromHub)
        | none => r.2.owe (a / 32) false p.fromHub
      else s
    | [] => s

/-- PACKET_DELIVER (R169): WRITE and MESSAGE; a packet of a type that nothing serves is discarded and counted. -/
def execPacketDeliver (c : CellAddr) (s : State) : Res :=
  packetRow c s (fun t => t != 2 && t != 3 && t != 6) fun p gs s =>
    match p.ty with
    | 1 => s.cellWrite c.toNat p gs
    | 4 => s.cellMessage c.toNat p gs
    | _ => s.pktDrop c.toNat

/-- PACKET_READ (R169): a READ of this cell's scratchpad is answered with READ_DATA. -/
def execPacketRead (c : CellAddr) (ecc : List EccEvent) (s : State) : Res :=
  packetRow c s (· == 2) fun p _ s =>
    let a := c.toNat
    match spDecode p.addr with
    | some (d, o) =>
      if d = a ∧ o % 32 = 0 ∧ o + 32 * p.len ≤ bankCount a * 0x100000 then
        let r := s.readWords a o 1 ecc p.len
        r.2.sendPacket a (mkPacket 3 p.cls (r.2.epoch4 a) a p.src p.addr p.tag r.1)
      else (s.pktDrop a).cellFault p.src 5
    | none => (s.pktDrop a).cellFault p.src 5

/-- READ_DATA (R169): the granules of a READ come back to the cell that asked; no rule gives them a place in it (log 28). -/
def execReadData (c : CellAddr) (s : State) : Res := packetRow c s (· == 3) fun _ _ s => s

/-! ### The comparison of paired items (R281) -/

/-- The cell address of a scratchpad device address replaced by its twin's. -/
def twinAddr (a : Nat) : Nat :=
  if 0x800000000000 ≤ a ∧ a < 0x810000000000 then setBits a 24 16 (twinOf (bits a 24 16)) else a

/-- The bytes of an item that are hashed, cell addresses of a twin-half item replaced by their twins. -/
def HeldItem.hashed (h : HeldItem) : List Byte :=
  let body := h.grans.flatMap (·.data)
  let ad := fun (a : Nat) => if h.twin then twinAddr a else a
  match h.pkt with
  | some p =>
    toLE 1 p.ty ++ toLE 1 p.len ++ toLE 1 p.cls ++ toLE 2 (if h.twin ∧ p.dst < 0xF000 then twinOf p.dst else p.dst) ++
      toLE 8 (ad p.addr) ++ toLE 4 p.tag ++ toLE 16 p.pmask ++ body
  | none =>
    if h.ticket.isSome then
      let n := fun (a k : Nat) => ofLE ((body.drop a).take k)
      let t := n 40 2
      body.take 16 ++ toLE 8 (ad (n 16 8)) ++ (body.drop 24).take 16 ++ toLE 2 (if h.twin then twinOf t else t) ++ body.drop 42
    else body

/-- Base camp acts on a held item by itself: a packet goes on, a porter moves the bytes; a ticket is free to be worked on. -/
def State.actItem (s : State) (h : HeldItem) (dram : List DramErr) (ecc : List EccEvent) : State :=
  match h.pkt, h.porter with
  | some p, _ => s.hubAct p dram ecc
  | none, some p => s.modPorter p fun x => { x with run := x.run.map fun d => { d with data := h.grans } }
  | none, none => s

/-- Whether an item is a read, which is served to each twin (R281). -/
def State.isRead (s : State) (h : HeldItem) : Bool :=
  match h.pkt with
  | some p => p.ty == 2
  | none =>
    match h.ticket.bind fun t => SMap.get? s.kv.tickets t with
    | some k => k.op == 1 || k.op == 4 || k.op == 5
    | none => false

/-- The credit of a held packet goes back when base camp has done with it. -/
def State.oweItem (s : State) (h : HeldItem) : State :=
  match h.pkt with
  | some p => s.owe (p.src / 32) true p.cost
  | none => s

/-- An item and its twin's agree: a write acts once, from the item that came first; a read serves both; the other's ticket
reports the pair's outcome. -/
def State.matchItems (s : State) (a b : HeldItem) (dram : List DramErr) (ecc : List EccEvent) : State :=
  let s := (s.oweItem a).oweItem b
  let s := { s with pair := { s.pair with held := s.pair.held.filter fun h => h != a && h != b } }
  if s.isRead a then (s.actItem a dram ecc).actItem b dram ecc
  else
    let s := match a.ticket, b.ticket with
      | some t, some u => s.modTicket u fun k => { k with mate := some t }
      | _, _ => s
    s.actItem a dram ecc

/-- The first item held for a primary cell that has its twin's beside it. -/
def State.pairOf (s : State) (l : Nat) : Option (HeldItem × HeldItem) :=
  s.pair.held.findSome? fun a =>
    if a.primary = l then
      (s.pair.held.find? fun b => b.primary == l && b.num == a.num && b.twin != a.twin).map fun b => (a, b)
    else none

/-- Logical address of the primary of the pair that a physical cell belongs to. -/
def State.primaryOf (s : State) (c : Nat) : Nat :=
  let l := s.logicalOf c
  if isPrimary l then l else twinOf l

end Sys2Proof.Machine
end

