-- ==== Sys2Proof/Machine/Rerig.lean ====
section
/-! DEFINITION. Re-placement (R218-R223): serviceable cells, rigging a circuit again (R157-R162), combine trees and group
masks, the cast list and the distance table in DRAM (R175, R217), the strike of a returning cell (R144, R312). -/

namespace Sys2Proof.Machine

/-! ### Serviceable cells -/

/-- Whether a map entry makes a cell bad: the cell, its block or its region (R364). -/
def MapEnt.hits (e : MapEnt) (c : Nat) : Bool :=
  match e.kind with
  | 1 => e.unit == c
  | 2 => e.unit / 32 == c / 32
  | 7 => e.unit / 256 == c / 256
  | _ => false

/-- Whether the merged map makes a cell bad. -/
def State.badCell (s : State) (c : Nat) : Bool := s.maps.merged.any fun e => e.hits c

/-- Whether a cell is serviceable: not bad, not fenced, its region in service (R369). -/
def State.serviceable (s : State) (c : Nat) : Bool :=
  cellValid c && !s.badCell c && !s.fenced c && !s.regionOut (gOf c)

/-- Serviceable M-cells, V-cells and S-cells (R369). -/
def State.typeCounts (s : State) : Nat × Nat × Nat :=
  let cs := (allRegions.flatMap regionCells).filter s.serviceable
  let n := fun (e : Engine) => (cs.filter fun c => engineOf c == e).length
  (n .m, n .v, n .s)

/-- The recount of R369: the sequencer event when a count has fallen to the floor. -/
def State.recount (s : State) : State :=
  let n := s.typeCounts
  let low : Bool := n.1 ≤ 3942 || n.2.1 ≤ 1971 || n.2.2 ≤ 985
  let t := s.modMaps fun m => { m with retire := low }
  if low && !s.maps.retire then t.raise .sequencer else t

/-- Logical cells in use, with their cast entries. -/
def State.placed (s : State) : List (Nat × Nat) :=
  match s.pkg with
  | some p => p.cast.filter fun q => bitAt q.2 22
  | none => []

/-- Whether a logical cell is placed on a physical cell. -/
def State.used (s : State) (c : Nat) : Bool := s.placed.any fun q => bits q.2 0 16 == c

/-! ### Strike (R144, R312) -/

/-- Zero a cell's banks and marks. -/
def State.zeroBanks (s : State) (c : Nat) : State := s.clearMem (spAddr c 0) (spAddr c (bankCount c * 0x100000))

/-- A cell after a strike: store, endpoints, grants and pending requests zeroed; rehearsal counts kept. -/
def CellSt.struck (x : CellSt) : CellSt := { CellSt.init with rh := x.rh }

/-- The strike of one cell (R144); the sweep of its banks goes on with the next strip (Table 5.8). -/
def State.strikeCell (s : State) (c : Nat) : State :=
  (s.zeroBanks c).modCell c CellSt.struck

/-- The strike of every cell of the panel at once. -/
def State.strikeAll (s : State) : State :=
  { s.clearMem 0x800000000000 0x810000000000 with cells := SMap.mapVal (fun _ x => x.struck) s.cells }

/-- A cell that returns is struck and its epoch rises (R312). -/
def State.strikeReturn (s : State) (c : Nat) : State :=
  ((s.strikeCell c).wrap (Reg.CELL_EPOCH_epoch c)).wrap (Reg.CELL_EPOCH_return_count c)

/-! ### Rigging a circuit again (R222 step 3) -/

/-- The blocks and outputs of the packet route from a block to block coordinates under detour tables (R163). -/
def walkBy (det : Nat → List Word64) : Nat → Nat → Nat → Nat → List (Nat × Nat)
  | 0, _, _, _ => []
  | n + 1, b, x, y =>
    match hopTo det b x y with
    | none => []
    | some d =>
      (b, d) :: (match neighbour b d with
        | some m => walkBy det n m x y
        | none => [])

/-- The packet route under the tables in force. -/
def State.walk (s : State) (n b x y : Nat) : List (Nat × Nat) := walkBy (fun k => (s.xr k).detours) n b x y

/-- Whether a walk ends at the block it was meant for. -/
def walkEnds (b x y : Nat) (w : List (Nat × Nat)) : Bool :=
  match w.getLast? with
  | none => decide (blkXY b = (x, y))
  | some h => match neighbour h.1 h.2 with
    | some m => decide (blkXY m = (x, y))
    | none => false

/-- Whether a walk ends at the block it was meant for over links that carry traffic. -/
def State.walkOk (s : State) (b x y : Nat) (w : List (Nat × Nat)) : Bool :=
  w.all (fun h => s.passable h.1 h.2) && walkEnds b x y w

/-- Hops of a path tree: add one output of a block entered by a port. -/
def addHop (hs : List PathHop) (b inPort out : Nat) : List PathHop :=
  if hs.any fun h => h.blk == b && h.inPort == inPort then
    hs.map fun h => if h.blk = b ∧ h.inPort = inPort then { h with outs := if h.outs.contains out then h.outs else h.outs ++ [out] } else h
  else hs ++ [⟨b, inPort, 0, [out]⟩]

/-- Add the way from a source to one destination output to a path tree. -/
def addWay (src : Nat × Nat) (w : List (Nat × Nat)) (dst : Nat × Nat) (hs : List PathHop) : List PathHop :=
  let r := w.foldl (fun (a : List PathHop × Nat) h => (addHop a.1 h.1 a.2 h.2, opp h.2)) (hs, src.2)
  addHop r.1 dst.1 r.2 dst.2

/-- Source (block, input port) and destinations (block, output) of a circuit's path: local ports and hub ports. -/
def circEnds (c : Circuit) : (Nat × Nat) × List (Nat × Nat) :=
  let h := c.path.headD ⟨0, 4, 0, []⟩
  ((h.blk, h.inPort), c.path.flatMap fun h => (h.outs.filter fun o => 4 ≤ o || (neighbour h.blk o).isNone).map fun o => (h.blk, o))

/-- Put a moved cell's local port in place of the old one. -/
def moveEnd (old new : Nat) (p : Nat × Nat) : Nat × Nat :=
  if p = (old / 32, 4 + cOf old) then (new / 32, 4 + cOf new) else p

/-- Whether a circuit has an end at a cell (R220). -/
def circEndsAt (c : Circuit) (cell : Nat) : Bool :=
  let e := circEnds c
  let p := (cell / 32, 4 + cOf cell)
  e.1 == p || e.2.contains p

/-! #### Planning on the tables as they will stand, and the rewrites that lead there (R161) -/

/-- The mesh with every rewrite that waits for the next period already in force: what firmware plans on. -/
def State.planView (s : State) : State :=
  { s with mesh := { s.mesh with xr := SMap.mapVal (fun _ (x : XrSt) => x.applyEdits) s.mesh.xr } }

/-- Rewrites that turn one table of a variant into another; `w` entries a port. -/
def tableEdits (b i t w : Nat) (old new : SMap Nat) : List RigEdit :=
  ((old ++ new).map (·.1)).eraseDups.filterMap fun k =>
    if SMap.getD old k 0 = SMap.getD new k 0 then none else some ⟨b, i, t, k / w, k % w, SMap.getD new k 0⟩

/-- Rewrites that turn a crossing's variants into others. -/
def variantEdits (b : Nat) (old new : List Variant) : List RigEdit :=
  (List.range 8).flatMap fun i =>
    let v := nth old i ⟨[], [], []⟩
    let w := nth new i ⟨[], [], []⟩
    tableEdits b i 0 64 v.slots w.slots ++ tableEdits b i 1 16 v.stages w.stages ++ tableEdits b i 2 32 v.rx w.rx

/-- The plan becomes rewrites, which take effect at the start of the next period; until then the tables stand as they were (R161). -/
def State.asRewrites (planned was : State) : State :=
  { planned with mesh := { planned.mesh with xr := SMap.mapVal (fun b (x : XrSt) =>
      { x with variants := (was.xr b).variants, rewrites := variantEdits b (was.xr b).variants x.variants }) planned.mesh.xr } }

/-- Variants in which a circuit is present: every hop's stage is configured as its path says. -/
def State.circVars (s : State) (c : Circuit) : List Nat :=
  (List.range 8).filter fun i => c.path.all fun h =>
    let e := stageEntry (nth (s.xr h.blk).variants i ⟨[], [], []⟩) h.inPort h.stage
    bitAt e 0 && stageMask e == h.outs.foldl (fun a o => a ||| 2 ^ o) 0

/-- Change given variants of a crossing. -/
def State.modVariants (s : State) (b : Nat) (vs : List Nat) (f : Variant → Variant) : State :=
  s.modXr b fun x => { x with variants := vs.foldl (fun l i => setNth l i (f (nth l i ⟨[], [], []⟩))) x.variants }

/-! #### Latency (R159) -/

/-- Whether an output of a block is a seam-class hop. -/
def seamHop (b out : Nat) : Bool := decide (out < 4) && isSeam b out

/-- The hops, each with its output, of a circuit from its source to an end (`fuel` hops), the last first. -/
def wayBack (c : Circuit) : Nat → Nat × Nat → List (PathHop × Nat)
  | 0, _ => []
  | n + 1, e =>
    match c.path.find? fun h => h.blk == e.1 && h.outs.contains e.2 with
    | none => []
    | some h =>
      (h, e.2) :: (match (if h.inPort < 4 then neighbour h.blk h.inPort else none) with
        | some q => wayBack c n (q, opp h.inPort)
        | none => [])

/-- Arrival of a flit, and whether over a seam, after it has waited at each output for the first slot of its circuit that meets R158. -/
def hopOver (v : Nat → Variant) (at' : Nat × Bool) (h : PathHop × Nat) : Nat × Bool :=
  let t := at'.1 + (if at'.2 then 8 else 0)
  let per := if slotCount h.1.blk h.2 = 32 then 2 else 1
  let waits := (slotsOf (v h.1.blk) h.2 (h.1.inPort * 16 + h.1.stage)).map fun e => (per * e + 64 - t % 64) % 64
  let w := waits.foldl min 63
  (t + w + (if seamHop h.1.blk h.2 then 6 else 3), seamHop h.1.blk h.2)

/-- Latency of a circuit to one of its ends in mesh cycles, waits included: the greatest over its slots (R159). -/
def State.latency (s : State) (c : Circuit) (e : Nat × Nat) : Nat :=
  match s.circVars c with
  | [] => 0
  | i :: _ =>
    let v := fun b => nth (s.xr b).variants i ⟨[], [], []⟩
    let way := (wayBack c 80 e).reverse
    match way with
    | [] => 0
    | h :: _ =>
      let per := if slotCount h.1.blk h.2 = 32 then 2 else 1
      (slotsOf (v h.1.blk) h.2 (h.1.inPort * 16 + h.1.stage)).foldl (fun m e =>
        max m ((way.foldl (hopOver v) (per * e, false)).1 - per * e)) 0

/-! #### Rigging -/

/-- Take a circuit's entries out of the variants it is in. -/
def State.unrig (s : State) (c : Circuit) (vs : List Nat) : State :=
  c.path.foldl (fun s h =>
    s.modVariants h.blk vs fun v =>
      { slots := v.slots.filter fun p => !(h.outs.contains (p.1 / 64) && slotUsed p.2 && slotKey p.2 == h.inPort * 16 + h.stage)
        stages := SMap.del v.stages (h.inPort * 16 + h.stage)
        rx := v.rx.filter fun p => !(p.1 / 32 == h.inPort && bits p.2 0 4 == h.stage) }) s

/-- The lowest stage of an input port that is free in every variant. -/
def State.freeStage (s : State) (b inPort : Nat) : Option Nat :=
  (List.range 16).find? fun st => (s.xr b).variants.all fun v => !bitAt (stageEntry v inPort st) 0

/-- The first slot of an output at or after mesh cycle `t` that is free in every variant (R222): its table entry and the wait. -/
def State.freeSlot (s : State) (b out t : Nat) : Option (Nat × Nat) :=
  let seam := seamHop b out
  ((List.range 64).find? fun w =>
    let cyc := (t + w) % 64
    (!seam || cyc % 2 == 0) &&
      (s.xr b).variants.all fun v => !slotUsed (slotEntry v out (if seam then cyc / 2 else cyc))).map fun w =>
    (if seam then (t + w) % 64 / 2 else (t + w) % 64, w)

/-- Write a slot of a circuit's hop at one output, with the receive map behind a seam. -/
def State.putSlot (s : State) (circ : List PathHop) (vs : List Nat) (h : PathHop) (out entry : Nat) : State :=
  let s := s.modVariants h.blk vs fun v => { v with slots := SMap.put v.slots (out * 64 + entry) (1 + h.inPort <<< 1 + h.stage <<< 5) }
  if seamHop h.blk out then
    match neighbour h.blk out with
    | some n =>
      match circ.find? fun g => g.blk == n && g.inPort == opp out with
      | some g => s.modVariants n vs fun v => { v with rx := SMap.put v.rx (opp out * 32 + entry) (g.stage + 16) }
      | none => s
    | none => s
  else s

/-- Rig one slot of a circuit: at each hop the first free slot that meets R158. Carries the nominal arrival at each block
(block, cycle, over a seam) from the start of the first slot, and the greatest latency so far; none where no slot is free. -/
def State.rigSlot (circ : List PathHop) (vs : List Nat) :
    List (PathHop × Nat) → State × List (Nat × Nat × Bool) × Nat → Option (State × Nat)
  | [], (s, _, l) => some (s, l)
  | (h, out) :: rest, (s, arr, l) =>
    let a := (arr.find? fun q => q.1 == h.blk).getD (h.blk, 0, false)
    let t := a.2.1 + (if a.2.2 then 8 else 0)
    match s.freeSlot h.blk out t with
    | none => none
    | some (e, w) =>
      let seam := seamHop h.blk out
      let start := if arr.isEmpty then 0 else t + w
      let reach := start + (if seam then 6 else 3)
      let s := s.putSlot circ vs h out e
      -- the first slot sets the origin: later cycles keep their place in the period
      let off := if arr.isEmpty then t + w else 0
      let arr := if arr.isEmpty then [(h.blk, off, false)] else arr
      let arr := match neighbour h.blk out with
        | some n => if out < 4 then arr ++ [(n, reach + off, seam)] else arr
        | none => arr
      State.rigSlot circ vs rest (s, arr, max l (reach + off - (arr.headD (0, 0, false)).2.1))

/-- The configuration of a stage: its outputs, and whether it stands behind a seam (Table 6.6). -/
def stageWord (h : PathHop) : Nat :=
  1 + (h.outs.foldl (fun a o => a + 2 ^ o) 0) <<< 1 + (b2n (seamHop h.blk h.inPort)) <<< 12

/-- Rig a circuit between given ends with its slot count along the packet routes, in the variants it was in (log 31): the state,
the circuit, its latency under R159; none when a link on the way carries no traffic, the routes make no tree or fork to more than five
outputs (R160), or no stage or slot is free. -/
def State.rig (s : State) (c : Circuit) (src : Nat × Nat) (dsts : List (Nat × Nat)) : Option (State × Circuit × Nat) :=
  let vs := s.circVars c
  let s := s.unrig c vs
  let ways := dsts.map fun d => (s.walk 80 src.1 (blkXY d.1).1 (blkXY d.1).2, d)
  if ways.all fun w => s.walkOk src.1 (blkXY w.2.1).1 (blkXY w.2.1).2 w.1 then
    let hs := ways.foldl (fun hs w => addWay src w.1 w.2 hs) []
    -- one input port per block: the routes must form a tree
    if (hs.map fun h => h.blk).Nodup ∧ hs.all fun h => h.outs.length ≤ 5 then
      let stage0 := (c.path.headD ⟨0, 4, 0, []⟩).stage
      let staged := hs.foldl (fun (a : Option (List PathHop)) h =>
        match a with
        | none => none
        | some l => (if h.blk = src.1 then some stage0 else s.freeStage h.blk h.inPort).map fun st => l ++ [{ h with stage := st }]) (some [])
      match staged with
      | none => none
      | some hs =>
        let s := hs.foldl (fun s h => s.modVariants h.blk vs fun v =>
          { v with stages := SMap.put v.stages (h.inPort * 16 + h.stage) (stageWord h) }) s
        let outs := hs.flatMap fun h => h.outs.map fun o => (h, o)
        ((List.range c.slots).foldl (fun (a : Option (State × Nat)) _ =>
          match a with
          | none => none
          | some (s, l) => State.rigSlot hs vs outs (s, [], l)) (some (s, 0))).map fun r => (r.1, { c with path := hs }, r.2)
    else none
  else none

/-- Rig circuits again: every one that `hit` names, its ends moved by `mv`, within its budget where that is asked. Answers the state
and, for every end of those circuits, how much its latency has changed; none where one cannot be rigged. -/
def State.rigAll (s : State) (hit : Circuit → Bool) (mv : Nat × Nat → Nat × Nat) (budget : Bool) :
    Option (State × List ((Nat × Nat) × Nat)) :=
  match s.pkg with
  | none => some (s, [])
  | some p =>
    (List.range p.circuits.length).foldl (fun (a : Option (State × List ((Nat × Nat) × Nat))) i =>
      match a with
      | none => none
      | some (s, d) =>
        match s.pkg.bind fun q => q.circuits[i]? with
        | none => some (s, d)
        | some c =>
          if hit c then
            let e := circEnds c
            match s.rig c (mv e.1) (e.2.map mv) with
            | some (t, c', l) =>
              if !budget || l ≤ c.latBudget then
                some ({ t with pkg := t.pkg.map fun q => { q with circuits := setNth q.circuits i c' } },
                  d ++ e.2.map fun q =>
                    let a := s.latency c q
                    let b := t.latency c' (mv q)
                    (mv q, max a b - min a b))
              else none
            | none => none
          else some (s, d)) (some (s, []))

/-- Rig every circuit again that has an end at a cell, for its understudy, each within its budget (R220). -/
def State.rigMoved (s : State) (old new : Nat) : Option (State × List ((Nat × Nat) × Nat)) :=
  s.rigAll (fun c => circEndsAt c old) (moveEnd old new) true

/-- Image records of a logical cell in the package. -/
def State.imagesOf (s : State) (l : Nat) : List SceneImage :=
  match s.pkg.bind fun p => p.pkg.scenes.find? fun r => r.logical == l with
  | some r => r.images
  | none => []

/-- Whether every join of the wings table still has r × ΔL within its queue and wings, in every scene that binds it, when the latencies to
the ends in `d` change by that many mesh cycles of 0.5 ns; the logical cell `l` then stands at the cell `new` (R220; log 31). Feed rate in
MB/s, ΔL in ns. -/
def State.wingsOk (s : State) (l new : Nat) (d : List ((Nat × Nat) × Nat)) : Bool :=
  match s.pkg with
  | none => true
  | some p => p.pkg.wings.all fun w =>
    match if w.logical = l then some new else s.physical w.logical with
    | none => true
    | some c =>
      let more := ((d.filter fun q => q.1 == (c / 32, 4 + cOf c)).map (·.2)).sum
      (s.imagesOf w.logical).all fun im =>
        let r := im.epRec w.ep
        decide (r = 0) || decide (w.rate * (w.dl + (more + 1) / 2) ≤ 1000 * (epStorage r * 32 + epWings r * 4096))

/-- Whether a circuit's path crosses something that carries no traffic (R165). -/
def State.broken (s : State) (c : Circuit) : Bool :=
  c.path.any fun h => s.regionCut (bkG h.blk) || h.outs.any fun o => decide (o < 4) && s.deadEnd h.blk o false

/-- Whether some circuit of the loaded package crosses a crevasse. -/
def State.anyBroken (s : State) : Bool := match s.pkg with | some p => p.circuits.any s.broken | none => false

/-- Rig every circuit that crosses a crevasse again between its own ends, within its budget (R408); none where no path can
carry one. -/
def State.rigBroken (s : State) : Option State := (s.rigAll s.broken id true).map (·.1)

/-! ### Trees, group masks, channels (R222 step 4) -/

/-- Take a child out of a combine entry; an entry with no child left goes, and its parent loses it (`fuel` blocks). -/
def State.treeDetach (key : Nat) : Nat → Nat → Nat → State → State
  | 0, _, _, s => s
  | n + 1, b, port, s =>
    match SMap.get? (s.xr b).combine key with
    | none => s
    | some e =>
      let m := setBits e.childMask port 1 0
      if m = 0 then
        let s := s.modXr b fun x => { x with combine := SMap.del x.combine key }
        match (if e.parent = 15 then none else neighbour b e.parent) with
        | some q => State.treeDetach key n q (opp e.parent) s
        | none => s
      else s.modXr b fun x => { x with combine := SMap.put x.combine key { e with childMask := m } }

/-- Add a child to a combine tree at a block: entries are made along the route to the tree's root (`fuel` blocks). -/
def State.treeAttach (key : Nat) (root : Nat × Nat) : Nat → Nat → Nat → State → State
  | 0, _, _, s => s
  | n + 1, b, port, s =>
    match SMap.get? (s.xr b).combine key with
    | some e => s.modXr b fun x => { x with combine := SMap.put x.combine key { e with childMask := setBits e.childMask port 1 1 } }
    | none =>
      let d := hopTo (fun k => (s.xr k).detours) b root.1 root.2
      let par := d.getD 15
      let s := s.modXr b fun x => { x with combine := SMap.put x.combine key ⟨2 ^ port, par, 0, 0, 0, 0⟩ }
      match d.bind (neighbour b) with
      | some q => State.treeAttach key root n q (opp par) s
      | none => s

/-- The mask of a multicast group at a crossing (R170). -/
def State.setGroup (s : State) (b k m : Nat) : State :=
  s.modXr b fun x => { x with groups := if m = 0 then SMap.del x.groups k else SMap.put x.groups k m }

/-- Take a port out of a group's mask; a crossing with no port left leaves the tree, and the crossing that feeds it loses the port towards
it (`fuel` blocks). -/
def State.groupDetach (k : Nat) : Nat → Nat → Nat → State → State
  | 0, _, _, s => s
  | n + 1, b, port, s =>
    let m := setBits (SMap.getD (s.xr b).groups k 0) port 1 0
    let s := s.setGroup b k m
    if m ≠ 0 then s
    else match (List.range 4).findSome? fun d => (neighbour b d).filter fun q => bitAt (SMap.getD (s.xr q).groups k 0) (opp d) with
      | some q => match (List.range 4).find? fun d => neighbour q d == some b with
        | some d => State.groupDetach k n q d s
        | none => s
      | none => s

/-- Add a port of a block to a group's tree: a new branch is laid from the first crossing of the tree on the route from the block towards
`home` (`fuel` blocks), so that no copy meets a crossing twice. -/
def State.groupAttach (k : Nat) (home : Nat × Nat) : Nat → Nat → Nat → State → State
  | 0, _, _, s => s
  | n + 1, b, port, s =>
    let m := SMap.getD (s.xr b).groups k 0
    let s := s.setGroup b k (setBits m port 1 1)
    if m ≠ 0 then s
    else match (hopTo (fun j => (s.xr j).detours) b home.1 home.2).bind fun d => (neighbour b d).map fun q => (q, opp d) with
      | some (q, d) => State.groupAttach k home n q d s
      | none => s

/-- Move a member of every combine tree and multicast group of a cell to its understudy. -/
def State.moveTrees (s : State) (old new : Nat) : State :=
  let b := old / 32
  let port := 4 + cOf old
  let keys := ((s.xr b).combine.filter fun p => bitAt p.2.childMask port).map (·.1)
  let s := keys.foldl (fun s k =>
    let root := (s.mesh.xr.find? fun p => (SMap.get? p.2.combine k).any fun e => e.parent == 15).map (·.1)
    let s := State.treeDetach k 80 b port s
    State.treeAttach k (blkXY (root.getD (new / 32))) 80 (new / 32) (4 + cOf new) s) s
  let gs := ((s.xr b).groups.filter fun p => bitAt p.2 port).map (·.1)
  gs.foldl (fun s k =>
    -- the branch to the new place is grown before the old one is cut back
    let s := State.groupAttach k (blkXY b) 80 (new / 32) (4 + cOf new) s
    State.groupDetach k 80 b port s) s

/-- Channel ends at a cell move to its understudy under the same handles (Table 7.7), with their counts. -/
def State.moveChans (s : State) (old new : Nat) : State :=
  let mv := fun (e : ChanEnd) => if e.unit = old then { e with unit := new } else e
  let s := { s with chans := SMap.mapVal (fun _ (ch : ChanSt) => { ch with send := ch.send.map mv, recv := ch.recv.map mv }) s.chans }
  (s.modCell new fun x => { x with eps := (s.cell old).eps, aux := (s.cell old).aux }).modCell old fun x => { x with eps := [], aux := [] }

/-! ### Tables in DRAM (R175, R217) -/

/-- Device address of the cast list (log 32). -/
def castAt : Nat := 0x01AE14000000
/-- Device address of the distance table (log 32). -/
def distAt : Nat := 0x01AE14008000

/-- Index of a logical cell in the cast list (R217). -/
def castIndex (l : Nat) : Nat := ((l >>> 12 * 12 + bits l 8 4) * 8 + bOf l) * 7 + cOf l

/-- Logical cell of an index of the cast list (R217). -/
def castCell (i : Nat) : Nat := (i / 672) <<< 12 + (i / 56 % 12) <<< 8 + (i % 56 / 7) <<< 5 + i % 7

/-- The cast list's 32,320 B as last written. -/
def State.castList (s : State) : List Byte :=
  let body := (List.range 8064).flatMap fun i =>
    toLE 4 (SMap.getD s.castTab (castCell i) 0)
  toLE 4 1 ++ toLE 4 s.castGen ++ List.replicate 56 (0 : Byte) ++ body

/-- Firmware rewrites the cast list (log 32). -/
def State.publishCast (s : State) : State :=
  { s with castGen := (s.castGen + 1) % 2 ^ 32, castTab := match s.pkg with | some p => p.cast | none => [] }

/-- Seams and latency of a walk. -/
def walkCost (w : List (Nat × Nat)) : Nat × Nat :=
  let k := (w.filter fun h => isSeam h.1 h.2).length
  (k, 3 * (w.length - k) + 6 * k)

/-- Latency of the packet route from a block to a hub port's block, none where no traffic gets there. -/
def State.portCost (s : State) (b p : Nat) : Option Nat :=
  let q := hubPortAt p
  let w := s.walk 80 b q.1 q.2.1
  if s.walkOk b q.1 q.2.1 w && s.linkUp (hubPortBlk p) q.2.2 then some (walkCost w).2 else none

/-- No route from a block to block coordinates costs less: three cycles for each hop. -/
def leastCost (b x y : Nat) : Nat :=
  let h := blkXY b
  3 * ((h.1 - x) + (x - h.1) + (h.2 - y) + (y - h.2))

/-- The home hub port of a block: the nearest, by latency of the route to its hub-ring block and then by number (R163), with
its latency; none where the block reaches no port. -/
def State.nearest (s : State) (b : Nat) : Option (Nat × Nat) :=
  (List.range 24).foldl (fun (best : Option (Nat × Nat)) p =>
    match best with
    | some (_, c) =>
      let q := hubPortAt p
      if c ≤ leastCost b q.1 q.2.1 then best
      else match s.portCost b p with
        | some k => if k < c then some (p, k) else best
        | none => best
    | none => (s.portCost b p).map fun k => (p, k)) none

/-- The sources of a distance table. -/
def DistSt.walk (t : DistSt) (b x y : Nat) : List (Nat × Nat) := walkBy (fun k => SMap.getD t.detours k []) 80 b x y
/-- Whether a route of the table carries traffic: none leaves a block out of service. -/
def DistSt.ok (t : DistSt) (b x y : Nat) (w : List (Nat × Nat)) : Bool :=
  SMap.getD t.states b 0 != 3 && w.all (fun h => !t.down.contains (h.1 * 4 + h.2)) && walkEnds b x y w

/-- Block record of the distance table. -/
def DistSt.blockRec (t : DistSt) (x y : Nat) : Nat :=
  match blkAt x y with
  | none => 3
  | some b =>
    let home := SMap.getD t.homes b 0
    let q := hubPortAt home
    let w := t.walk b q.1 q.2.1
    let k := walkCost w
    (if t.ok b q.1 q.2.1 w then SMap.getD t.states b 0 else 3) + home <<< 2 + k.1 <<< 7 + (k.2 + 6) <<< 12

/-- Pair entry of the distance table (Table 6.9; free slots: log 33). -/
def DistSt.pairRec (t : DistSt) (i j : Nat) : Nat :=
  match blkAt (i % 48) (i / 48), blkAt (j % 48) (j / 48) with
  | some b, some _ =>
    let w := t.walk b (j % 48) (j / 48)
    let k := walkCost w
    if t.ok b (j % 48) (j / 48) w then
      (if i = j then 0 else if k.1 ≤ 1 then k.1 + 1 else if k.1 ≤ 3 then 3 else 4) + k.1 <<< 3 + k.2 <<< 8 +
        (if k.1 = 0 then 64 else 32) <<< 19
    else 7
  | _, _ => 0

/-- The distance table's 5,317,696 B as last written. -/
def State.distTable (s : State) : List Byte :=
  let blocks := (List.range 1152).flatMap fun i => toLE 8 (s.dist.blockRec (i % 48) (i / 48))
  let pairs := (List.range 1152).flatMap fun i => (List.range 1152).flatMap fun j => toLE 4 (s.dist.pairRec i j)
  toLE 4 1 ++ toLE 4 s.distGen ++ List.replicate 56 (0 : Byte) ++ blocks ++ pairs


end Sys2Proof.Machine
end

