-- ==== Sys2Proof/Machine/Rehearse.lean ====
section
/-! DEFINITION. Rehearsal kernels (R273-R275), spot rehearsals (R270-R272) and the dress rehearsal (R276). -/

namespace Sys2Proof.Machine

/-! ### Operands (R273) -/

/-- The list V (R273): every format of Table 2.1 holds each of its values exactly. -/
def rhValues : List Int := [0, 1, -1, 2, -2, 3, -3, 4, -4, 6, -6]

/-- Element (i, j) of operand x (0 for A, 1 for B) with seed s (R273). -/
def rhElem (x s i j : Nat) : Int := nth rhValues ((7 * i + 13 * j + 5 * x + s) % 11) 0

/-- The same element, with every A operand negated in the second step of a dress rehearsal (R276). -/
def rhOperand (step x s i j : Nat) : Int := if step = 2 ∧ x = 0 then -rhElem x s i j else rhElem x s i j

/-- Code of a value in a format (R273: exact in every format of Table 2.1). -/
def rhCode (fmt : Nat) (v : Int) : Nat := convElem fmt .rne false (FV.ofInt v)

/-- Block scale of a kernel's operands: 1.0 in E8M0 and in E4M3 (R273). -/
def rhScale (fmt : Nat) : Nat := if fmtMx fmt then 0x7F else 0x38

/-- Tensor scale of a kernel's operands (R273). -/
def rhTensorScale : Nat := 0x3F800000
/-- `sr_seed` of the kernels that exercise stochastic rounding (R273). -/
def rhSrSeed : Nat := 0x0000000000000001
/-- `sr_stream` of the kernels that exercise stochastic rounding (R273). -/
def rhSrStream : Nat := 0

/-! ### The kernels (Table 11.2) -/

/-- What a kernel exercises (Table 11.2). An M-cell's operator: formats of A, B and the outputs, the flow where it is fixed, `sat`,
stochastic rounding, `ck_policy`, and whether R84's injection is armed. A V-cell's or S-cell's opcodes, and the formats they run in. -/
inductive RhKernel where
  | m (a b out : Nat) (flow : Option Nat) (sat stoch : Bool) (policy : Nat) (inject : Bool)
  | v (fmts ops : List Nat) (stoch : Bool)
  | s (ops : List Nat)
deriving DecidableEq, Repr

/-- M0-M7. -/
def rhKernelsM : List RhKernel :=
  [.m 0x03 0x03 0x00 (some 0) false false 0 false,
   .m 0x03 0x0C 0x01 (some 0) false false 0 false,
   .m 0x09 0x09 0x03 (some 1) true false 0 false,
   .m 0x01 0x01 0x02 (some 1) false false 0 false,
   .m 0x0A 0x0A 0x0E none false false 0 false,
   .m 0x0A 0x0B 0x00 none false false 0 false,
   .m 0x04 0x07 0x01 none false true 0 false,
   .m 0x03 0x03 0x00 (some 0) false false 2 true]

/-- V0-V5. -/
def rhKernelsV : List RhKernel :=
  [.v [0x00] [0x01, 0x02, 0x03, 0x04, 0x05, 0x06] false,
   .v [0x01, 0x02, 0x03, 0x04] [0x20, 0x21] true,
   .v [0x00] [0x30, 0x31, 0x32, 0x33, 0x34, 0x35, 0x36] false,
   .v [0x00, 0x0E] [0x40, 0x41, 0x42, 0x43, 0x44, 0x48, 0x49, 0x4A, 0x52, 0x53] false,
   .v [0x00, 0x0E] [0x10, 0x11, 0x12, 0x60, 0x61, 0x16, 0x17, 0x18, 0x25, 0x26] false,
   .v [0x00] [0x22, 0x23, 0x24] false]

/-- S0-S3: opcodes of Table 4.8; guards (S3) are of every instruction. -/
def rhKernelsS : List RhKernel :=
  [.s [0x01, 0x02, 0x03, 0x04, 0x05, 0x09, 0x0A, 0x06, 0x07, 0x08, 0x1C, 0x1D],
   .s [0x24, 0x25, 0x26, 0x27],
   .s [0x3D],
   .s [0x28, 0x29, 0x2A]]

/-- The kernel set of a cell's engine (Table 11.2). -/
def rhKernels (c : Nat) : List RhKernel :=
  match engineOf c with
  | .m => rhKernelsM
  | .v => rhKernelsV
  | .s => rhKernelsS

/-- Last kernel of an engine's set (Table 11.2, numbered from 0). -/
def lastKernel (c : Nat) : Nat := (rhKernels c).length - 1

/-- Kernels numbered over Table 11.2 as a whole: M0 is 0, V0 is 8, S0 is 14. -/
def rhNumber (c k : Nat) : Nat :=
  match engineOf c with
  | .m => k
  | .v => 8 + k
  | .s => 14 + k

/-- Formats of a kernel's operands; an S-cell's integers are INT32 data (Table 2.1). -/
def RhKernel.formats : RhKernel → List (Nat × Nat)
  | .m a b _ _ _ _ _ _ => [(0, a), (1, b)]
  | .v fmts _ _ => fmts.flatMap fun f => [(0, f), (1, f)]
  | .s _ => [(0, 0x0E), (1, 0x0E)]

/-- One operand of a kernel in memory order, and its block scales: elements along the reduction for each row of A or column of B
(R39, R273). The numbers of rows and of elements are the kernel's own (`Config.kernelShape`, log 133). -/
def rhArray (n step seed x fmt : Nat) : List Byte × List Byte :=
  let shape := Config.kernelShape n
  let lines := if x = 0 then shape.1 else shape.2.1
  let len := shape.2.2
  ((List.range lines).flatMap fun i => packElems fmt ((List.range len).map fun j =>
      rhCode fmt (if x = 0 then rhOperand step x seed i j else rhOperand step x seed j i)),
   if fmtBlock fmt = 0 then []
   else List.replicate (lines * ((len + fmtBlock fmt - 1) / fmtBlock fmt)) (BitVec.ofNat 8 (rhScale fmt)))

/-- The operands of kernel k of a cell as firmware makes them (R271, R273). -/
def rhOperands (c k step seed : Nat) : List (List Byte × List Byte) :=
  match (rhKernels c)[k]? with
  | some w => w.formats.map fun f => rhArray (rhNumber c k) step seed f.1 f.2
  | none => []

/-! ### Signatures (R274) -/

/-- The bytes a signature runs over: before each 32 B word one byte, 0x01 when it is poisoned. -/
def signedBytes (outs : List OutWord) : List Byte :=
  outs.flatMap fun w => (if w.poison then 1 else 0 : Byte) :: padTo 32 (w.data.take 32)

/-- The signature of a kernel's outputs (R274). -/
def signature (outs : List OutWord) : Nat := crc64 (signedBytes outs)

/-- The signature that Belvan computed for kernel k of a cell, a seed and a step (R274; 0 for a spot rehearsal). -/
def expectedSig (c k seed step : Nat) : Nat := (Config.signature (rhNumber c k) seed step).toNat

/-! ### Spot rehearsals (R270-R272) -/

/-- Whether a cell's spot rehearsal is due (R270): outside the package after 2 s; in it at a boundary where the cell waits
anyway, or at any beat boundary after 4 s. -/
def State.spotDue (s : State) (c : Nat) : Bool :=
  let x := s.cell c
  let past := fun (ns : Nat) => decide (x.rh.spotAt + ns ≤ s.now)
  if x.scene.playing then
    s.isIn .running && ((past 2000000000 && (x.scene.phase == .atBarrier || x.scene.phase == .gated)) ||
      (past 4000000000 && x.scene.phase == .ready))
  else (s.isIn .ready || s.isIn .running) && past 2000000000

/-- Change a cell's rehearsal area. -/
def State.modArea (s : State) (c : Nat) (f : RhArea → RhArea) : State :=
  s.modScene c fun x => { x with area := f x.area }

/-- R271 step 1, after firmware's load: the kernel's operands and expected signature, and the engine's state, stand in the area. -/
def State.rhSave (s : State) (c k seed : Nat) : State :=
  let x := s.cell c
  let saved := match engineOf c with
    | .m => RhSaved.m x.m
    | .v => RhSaved.v x.v
    | .s => RhSaved.s x.sc x.sc
  let inject := match (rhKernels c)[k]? with
    | some (.m _ _ _ _ _ _ _ true) => some (Config.kernelInject seed)
    | _ => none
  s.modArea c fun _ => ⟨rhOperands c k 0 seed, inject, expectedSig c k seed 0, [], saved⟩

/-- R271 step 3: the engine's state as it was saved. -/
def State.rhRestore (s : State) (c : Nat) : State :=
  match (s.cell c).scene.area.saved with
  | .m x => s.modCell c fun y => { y with m := x }
  | .v x => s.modCell c fun y => { y with v := x }
  | .s x _ => s.modCell c fun y => { y with sc := x }
  | .none => s

/-- A spot rehearsal whose kernel has run to its end: the signature of its outputs is compared with the area's (R272). -/
def State.rhJudge (s : State) (c k seed : Nat) : State :=
  let area := (s.cell c).scene.area
  let got := signature area.outs
  let s := s.modCell c fun x => { x with rh := { x.rh with spot := x.rh.spot + 1, spotAt := s.now } }
  let s := (s.sets [(Reg.RH_STATUS_kernel c, k), (Reg.RH_STATUS_seed c, seed), (Reg.RH_STATUS_pass c, b2n (got == area.expected)),
    (Reg.RH_STATUS_dress c, 0)]).wrap (Reg.RH_STATUS_spot_count c)
  if got = area.expected then s
  else
    let r := Cairn.blank 0x06 0 0 c (s.logicalOf c) 0
    let s := s.stageCairn { r with kernel := k, seed := seed, step := 0, expected := area.expected, observed := got }
    ((s.inc Reg.SERVICE_MODE_spot_fail_count).inc (Reg.RH_STATUS_fail_count c)).fenceCell c 0x06

/-- SPOT_REHEARSAL (R270-R272): the next kernel of the engine's set, with the count of rehearsals mod 11 as its seed. `outs`: its
outputs. `ecc`: a read of the area is uncorrectable, which fences the cell and abandons the kernel (R129). `cut`: a fence, a compute
reset or a strike falls on it, which abandons it with no outcome (R272). -/
def execSpotRehearsal (c : CellAddr) (outs : List OutWord) (ecc cut : Bool) (s : State) : Res :=
  let a := c.toNat
  onCell c s fun s =>
    when (s.serviceable a && s.spotDue a) (fun s =>
      let n := (s.cell a).rh.spot
      let k := n % (lastKernel a + 1)
      let s := s.rhSave a k (n % 11)
      if ecc then s.storeFault a
      else if cut then s
      else ((s.modArea a fun r => { r with outs := outs }).rhRestore a).rhJudge a k (n % 11)) s

/-! ### Dress rehearsal (R276) -/

/-- Byte of row `r` of a bank under the pattern P (R276). -/
def patternP (r : Nat) : Byte := if r % 2 = 0 then 0x55 else 0xAA

/-- Byte of row `r` of a bank after a dress rehearsal: the complement of the pattern P. -/
def patternByte (r : Nat) : Byte := ~~~(patternP r)

/-- The bank kernel leaves the complement of P in every bank of a cell. -/
def State.bankPattern (s : State) (c : Nat) : State :=
  let s := s.zeroBanks c
  s.setMem (Mem.write s.mem.cells (spAddr c 0)
    ((List.range (bankCount c * 8192)).flatMap fun r => List.replicate 128 (patternByte r)))

/-- Seed of a step of the dress rehearsal. -/
def dressSeed (step : Nat) : Nat := if step = 1 then 0 else 5

/-- The row that the bank kernel reads back in a step: P, then its complement. -/
def dressRow (step r : Nat) : List Byte := List.replicate 128 (if step = 1 then patternP r else patternByte r)

/-- The wires of flit k of the link kernel: a single 1 walks in step 1, a single 0 in step 2. -/
def dressFlit (step k : Nat) : Nat := if step = 1 then 2 ^ k else 2 ^ 68 - 1 - 2 ^ k

/-- The cell that an outcome names. -/
def failCell : RehearsalFail → Nat
  | .engine c _ _ _ => c.toNat
  | .bank c _ _ _ _ => c.toNat
  | .link c _ _ _ _ => c.toNat

/-- Whether an outcome is a mismatch (R276): the signature, the row or the flit is not the one expected. -/
def failMismatch : RehearsalFail → Bool
  | .engine c k step outs => (step == 1 || step == 2) && k ≤ lastKernel c.toNat &&
      signature outs != expectedSig c.toNat k (dressSeed step) step
  | .bank c b step r data => (step == 1 || step == 2) && b < bankCount c.toNat && r < 8192 && padTo 128 (data.take 128) != dressRow step r
  | .link c o step k wires => (step == 1 || step == 2) && cOf c.toNat == 0 && o ≤ 10 && k < 68 && wires != dressFlit step k

/-- Whether an outcome is of a cell's engine or bank. -/
def failOfCell : RehearsalFail → Bool
  | .link .. => false
  | _ => true

/-- A cell has run the dress rehearsal: its banks, and `RH_STATUS`. -/
def State.dressRun (s : State) (c : Nat) : State :=
  (s.bankPattern c).sets [(Reg.RH_STATUS_kernel c, lastKernel c), (Reg.RH_STATUS_seed c, 5), (Reg.RH_STATUS_pass c, 1),
    (Reg.RH_STATUS_dress c, 1)]

/-- A cell that fails is fenced with code 0x07, counted, and entered in the field map (R276, R304, R368). -/
def State.dressFence (s : State) (c : Nat) : State :=
  let s := ((s.inc (Reg.RH_STATUS_fail_count c)).set (Reg.RH_STATUS_pass c) 0).inc (Reg.BLK_STATUS_cell_fault_count (c / 32))
  (s.fenceAbove c 0x07).fieldFence 5 c

/-- A mismatch fences its engine, bank or link and produces a record (R276, R368): a seam link goes down; an on-die or local link
takes its block with it (log 133). -/
def State.dressFail (s : State) (f : RehearsalFail) : State :=
  let c := failCell f
  match f with
  | .engine _ k step outs =>
    (s.stageCairn { Cairn.blank 0x06 0 0 c (s.logicalOf c) 0 with
      kernel := k, seed := dressSeed step, step := step, expected := expectedSig c k (dressSeed step) step
      observed := signature outs }).dressFence c
  | .bank _ b step r _ =>
    (s.stageCairn { Cairn.blank 0x06 1 b c (s.logicalOf c) (r * 128) with seed := dressSeed step, step := step }).dressFence c
  | .link _ o step k _ =>
    let b := c / 32
    let seam : Bool := decide (o < 4) && isSeam b o
    let s := s.stageCairn { Cairn.blank 0x06 2 (if seam then seamLink b o else o) (c / 256 * 256) 0xFFFF k with
      seed := dressSeed step, step := step }
    if seam then ((s.setLink b o 5).fieldAdd 6 5 (b * 32) (seamLink b o)).publishDist
    else (s.fenceBlock b 0x07).fieldAdd 2 5 (b * 32) 0

/-- Run the dress rehearsal on cells; the mismatches are of units that take part. Answers the state and how many cells failed. -/
def State.dress (s : State) (cells : List Nat) (outs : List RehearsalFail) : State × Nat :=
  let s1 := cells.foldl State.dressRun s
  let fs := outs.filter fun f => failMismatch f && cells.any fun c => if failOfCell f then c == failCell f else c / 32 == failCell f / 32
  (fs.foldl State.dressFail s1, ((fs.filter failOfCell).map failCell).eraseDups.length)

end Sys2Proof.Machine
end

