-- ==== Sys2Proof/Machine/Recover.lean ====
section
/-! DEFINITION. Recovery (R283, R291-R311): what quiesce and a compute reset clear, the routes of Table 12.2, fences and
faults that arrive, rehearsals after a reset, re-placement, unload, restart from belay, and DARK. -/

namespace Sys2Proof.Machine

/-! ### What is cleared (Table 12.6, R306, Table 7.7) -/

/-- An endpoint after a compute reset: empty, unconfigured until the restart loads its scene, its counters kept. -/
def EpSt.cleared (e : EpSt) : EpSt :=
  { EpSt.init with handle := e.handle, sent := e.sent, stall := e.stall, got := e.got, starve := e.starve, dropped := e.dropped }

/-- A cell after a compute reset; after a quiesce, which keeps the scene store. -/
def CellSt.cleared (keepStore : Bool) (x : CellSt) : CellSt :=
  { CellSt.init with
      scene := { x.scene with store := if keepStore then x.scene.store else []
                              area := if keepStore then x.scene.area else .init, phase := .idle, entry := 0, beatsLeft := 0
                              cur := none, entryDone := false }
      eps := SMap.mapVal (fun _ (e : EpSt) => e.cleared) x.eps
      rh := { x.rh with compared := 0, tallies := [] } }

/-- A crossing after a compute reset: buffers empty, masks and flag words cleared (R192), the variant that of entry 0;
tables, detours and trees kept. -/
def XrSt.cleared (scene0 : Nat → Nat) (x : XrSt) : XrSt :=
  let x := x.applyEdits
  { XrSt.init with
      foldGroup := x.foldGroup, variants := x.variants, variant := scene0 x.foldGroup, detours := x.detours
      groups := x.groups, home := x.home, periodAt := x.periodAt
      combine := SMap.mapVal (fun _ (e : CombineSt) => { e with mask0 := 0, mask1 := 0, parity := 0, word := 0 }) x.combine }

/-- Scene of an entry of a fold group's schedule. -/
def State.entryScene (s : State) (g e : Nat) : Nat :=
  match s.fold g with
  | some f => seScene (nth f.entries e 0).toNat
  | none => 0

/-- Clear the mesh's contents: wires, side lanes, transport sequence state and what base camp was putting together. -/
def MeshSt.cleared (scene0 : Nat → Nat) (m : MeshSt) : MeshSt :=
  { m with
      xr := SMap.mapVal (fun _ (x : XrSt) => x.cleared scene0) m.xr
      wires := SMap.mapVal (fun _ (w : WireSt) => { w with flits := [], items := [], rx := [], sent := 0, lost := false }) m.wires
      tp := [], hubPart := [], hubItems := [], hubFlits := [], hubMsgs := [], hubPkts := [], mcast := [] }

/-- What a compute reset clears, and a quiesce too but for the scene stores (R302, R306). -/
def State.clearCompute (s : State) (keepStore : Bool) : State :=
  let s := s.clearStager
  let s := { s with
    cells := SMap.mapVal (fun _ (x : CellSt) => x.cleared keepStore) s.cells
    mesh := s.mesh.cleared fun g => s.entryScene g 0
    pair := ⟨[], []⟩
    hub := { s.hub with reqs := [], eps := [] }
    mem := { s.mem with lastStrip := [] } }
  (s.resetRegs .compute).abortPorters

/-! ### Counts by digest (R202, R298) -/

/-- The count kept for a digest. -/
def countOf (m : List (List Byte × Nat)) (d : List Byte) : Nat := ((m.find? fun p => p.1 == d).map (·.2)).getD 0
/-- One more for a digest. -/
def countUp (m : List (List Byte × Nat)) (d : List Byte) : List (List Byte × Nat) :=
  (d, countOf m d + 1) :: m.filter fun p => p.1 != d

/-- Change the recovery state. -/
def State.modRcv (s : State) (f : RecSt → RecSt) : State := { s with rcv := f s.rcv }
/-- Digest of the loaded package. -/
def State.pkgDigest (s : State) : List Byte := match s.pkg with | some p => p.digest | none => []

/-- The counts of the loaded package as `RECOVERY_STATUS` shows them, saturating. -/
def State.showCounts (s : State) : State :=
  s.sets [(Reg.RECOVERY_STATUS_graph_hangs, min (countOf s.rcv.hangs s.pkgDigest) 255),
    (Reg.RECOVERY_STATUS_job_restarts, min (countOf s.rcv.restarts s.pkgDigest) 255)]

/-! ### Belays that end (R309) -/

/-- An armed belay ends without being taken: the barriers are released, the command completes with BUSY. -/
def State.dropBelay (s : State) : State :=
  match s.belay with
  | some y => State.respond { s with belay := none } y.mb St.busy.code []
  | none => s

/-! ### Unload (R336 steps 1-5, R220, R202) -/

/-- Destroy every channel of the package and every channel joined to its endpoints; one that was deferred does not come up. -/
def State.dropChannels (s : State) : State :=
  let s := s.host.defers.foldl (fun s d => s.settleDefer d.2.1 d.2.2 .busy) (s.modHost fun h => { h with defers := [] })
  { s with chans := SMap.mapVal (fun _ (ch : ChanSt) =>
      if ch.live ∨ ch.draining then { ChanSt.init with gen := nextGen ch.gen } else ch) s.chans }

/-- Close every slot without SLOT_EVENT entries; a SLOT_OPEN that waited behind a close fails. -/
def State.dropSlots (s : State) : State :=
  s.slots.foldl (fun s p =>
    let s := match p.2.reopen with
      | some (mb, e, _) => s.settleDefer mb e .busy
      | none => s
    s.modSlot p.1 fun x => { SlotSt.init with gen := x.gen }) s

/-- A crossing with no package: home port and detours stay. -/
def XrSt.bare (x : XrSt) : XrSt := { XrSt.init with detours := x.detours, home := x.home, periodAt := x.periodAt }

/-- The package leaves the panel: channels, slots, acts, pages, rope team and landings end, the queues of the porters are
emptied, every cell is struck, and the KV pool and job regions are crypto-erased (R336, Table 10.7, Table 15.7). -/
def State.unload (s : State) : State :=
  let d := s.pkgDigest
  let s := ((s.dropBelay).dropChannels).dropSlots
  let s := ((s.clearCompute false).strikeAll).abortPorters
  let s := s.host.areas.foldl (fun s a => s.eraseArea a.1 a.2) s
  let s := { s with
    pkg := none
    mesh := { s.mesh with xr := SMap.mapVal (fun _ (x : XrSt) => x.bare) s.mesh.xr, reports := [] }
    acts := ⟨[], none, none, 1, 0, false, []⟩
    kv := ⟨0, 0, [], [], 0, []⟩
    rope := { s.rope with team := none, former := s.rope.team.map Team.rank, landings := [], steps := [] }
    rcv := { s.rcv with refuse := false, route := 0, loadStep := 0, half := none, reload := [], blocks := [], graph := [], lastBelay := none }
    host := { s.host with areas := [] } }
  (s.set Reg.SERVICE_MODE_loaded_paired 0).dorLog 0x09 d []

/-- Time a crypto-erase of areas takes at most: 2 us for each area and 1 ns for each granule (R258). -/
def eraseNs (areas : List (Nat × Nat)) : Nat := (areas.map fun a => 2000 + a.2 / 65536).sum

/-- Start the unload of the package, which ends after `ns` at most (R336); mailbox 8: none waits for it. -/
def State.startUnload (s : State) (mb opcode ns : Nat) : State :=
  let n := (s.slots.filter fun p => p.2.isOpen).length
  let bound := 10000000 + eraseNs s.host.areas
  (s.unload).modHost fun h => { h with strike := some ⟨mb, opcode, n, s.now + min ns bound, [], min ns bound, false⟩ }

/-- The end of a recovery: phase, time from detection, the event (R314, R448). -/
def State.endRecovery (s : State) : State :=
  (s.sets [(Reg.RECOVERY_STATUS_phase, 0), (Reg.RECOVERY_STATUS_last_us, min ((s.now - s.rcv.startAt) / 1000) (2 ^ 32 - 1))]).raise
    .recoveryDone

/-- The restart is refused: the package is unloaded and struck, and the panel is READY (R31). -/
def State.refuseRestart (s : State) : State :=
  ((((s.unload).goto .ready).endRecovery)).modHost fun h => { h with unloadAfter := false }

/-! ### Starting a recovery (R297, Table 12.2) -/

/-- A recovery starts in RUNNING: act aborted, an armed belay ends, open reduction steps end (R395), the route's first
phase. Routes: 1 hang, 2 fence-and-re-place, 3 paired mismatch. -/
def State.startRecovery (s : State) (route cause : Nat) : State :=
  if s.isIn .running then
    let act := s.actNow
    let s := ((s.abortAct).dropBelay).goto .recovering
    let s := s.sets [(Reg.RECOVERY_STATUS_phase, route), (Reg.RECOVERY_STATUS_cause, cause)]
    let s := { s with rope := { s.rope with steps := [] } }
    let s := s.modRcv fun r =>
      { r with startAt := s.now, boundAt := s.now, reload := [], blocks := [], refuse := false, route := route, loadStep := 0
               snapCause := cause, snapTime := s.now, snapAct := act, graph := [] }
    let d := s.pkgDigest
    let s := if cause = 1 then
        s.modRcv fun r => { r with hangs := countUp r.hangs d, refuse := 4 ≤ countOf r.hangs d + 1 }
      else if cause = 2 ∨ cause = 8 then
        s.modRcv fun r => { r with restarts := countUp r.restarts d, refuse := 4 ≤ countOf r.restarts d + 1 }
      else s
    s.showCounts
  else s

/-- The phase of a route's step 3. -/
def stepThree (route : Nat) : Nat := if route = 2 then 2 else 3

/-- A fence condition or a region that leaves service reaches the lead while RECOVERING: the sequence merges it, and a
reload goes back to step 3 (R29, R311). The time bound runs from this detection there and in a fence-and-re-place, not in a compute
reset that is under way. -/
def State.mergeRecovery (s : State) : State :=
  let back := s.get Reg.RECOVERY_STATUS_phase == 6
  let s := s.modRcv fun r => { r with boundAt := if back ∨ r.route = 2 then s.now else r.boundAt, loadStep := 0 }
  if back then s.set Reg.RECOVERY_STATUS_phase (stepThree s.rcv.route) else s

/-- Cells of the package must leave their place: the fence-and-re-place sequence starts, or merges (R293, R407). -/
def State.fenceRoute (s : State) : State :=
  if s.isIn .running then s.startRecovery 2 7 else if s.isIn .recovering then s.mergeRecovery else s

/-- Whether a region that left service, or a link that went down, takes away something the package uses (R31, R151, R407). -/
def State.regionUsed (s : State) (g : Nat) : Bool :=
  (s.placed.any fun q => gOf (bits q.2 0 16) == g) || s.anyBroken

/-- Firmware declares a region lost (R221). -/
def State.loseRegion (s : State) (g : Nat) : State := s.set (Reg.REGION_THERMAL_lost g) 1

/-- Whether the loaded package has region-spare mode. -/
def State.spareMode (s : State) : Bool := match s.pkg with | some p => p.spareMode | none => false

/-- A region has gone dark, or all its links are down: in region-spare mode it is lost (R221); what the package has there is
re-placed (R407); else only the distance table follows the change of crevasse (R175). -/
def State.regionGone (s : State) (g : Nat) : State :=
  let s := if s.spareMode then s.loseRegion g else s
  if s.regionUsed g then s.fenceRoute else s.publishDist

/-- FAULT_REPORT_ARRIVAL (R14, R293, R294): a report reaches the lead stage core. A fence enters the field map (R362) and the
recount (R369); in a cell the package does not use it has no further effect. -/
def execFaultReportArrival (idx : Nat) (s : State) : Res :=
  match s.mesh.reports[idx]? with
  | none => .next s
  | some r =>
    let s := { s with mesh := { s.mesh with reports := s.mesh.reports.eraseIdx idx } }
    let cells := if r.cause = 0x09 ∨ r.cause = 0x0A then blockCells (r.cell / 32) else [r.cell]
    let s := if r.cause = 0 then s
      else if r.cause = 0x09 ∨ r.cause = 0x0A then (s.fieldAdd 2 3 (r.cell / 32 * 32) 0).recount
      else (s.fieldAdd 1 3 r.cell 0).recount
    .next (if r.cause ≠ 0 then if cells.any s.used then s.fenceRoute else s
      else match r.kind with
        | 7 => if s.anyBroken then s.fenceRoute else s.publishDist
        | 8 => s.regionGone (gOf r.cell)
        | 9 => if s.regionOut (gOf r.cell) then s.regionGone (gOf r.cell) else s
        | 10 => s
        | _ => if s.isIn .running then s.startRecovery 2 8 else s)

/-! ### Steps of the routes -/

/-- QUIESCE_DONE (R306): every unit has acknowledged; re-placement follows, or the refusal of R298. -/
def execQuiesceDone (s : State) : Res :=
  .next (if s.isIn .recovering && s.get Reg.RECOVERY_STATUS_phase == 2 then
    let s := s.clearCompute true
    if s.rcv.refuse then (s.stageCairn (Cairn.blank 0x0B 6 0 0 0xFFFF 0)).refuseRestart
    else s.set Reg.RECOVERY_STATUS_phase 5
  else s)

/-- QUIESCE_TIMEOUT (R29, R306): a quiesce that is not complete 5 ms after detection becomes a compute reset, on the hang
route. -/
def execQuiesceTimeout (s : State) : Res :=
  .next (if s.isIn .recovering && s.get Reg.RECOVERY_STATUS_phase == 2 && s.rcv.boundAt + 5000000 ≤ s.now then
    (s.sets [(Reg.RECOVERY_STATUS_phase, 1), (Reg.RECOVERY_STATUS_cause, 5)]).modRcv fun r =>
      { r with route := 1, boundAt := s.now, snapCause := 5, snapTime := s.now }
  else s)

/-- Entry to DARK (R305, R32, R439, R441): the record, staged records into flash, the cause, keys zeroised, the snapshot
gone, telemetry off; an uncorrectable internal error is reported through AER (R323). -/
def State.enterDark (s : State) (cause : Nat) : State :=
  let s := s.stageCairn (Cairn.blank 0x0F 6 0 0 0xFFFF cause)
  let all := s.cairn.flash ++ s.cairn.staging
  let s := { s with cairn := { s.cairn with staging := [], flash := all.drop (all.length - 4096) } }
  let s := (State.resetRope { s with tel := { s.tel with staged := [] } }).goto .dark
  let s := (s.sets [(Reg.PANEL_STATE_dark_cause, cause), (Reg.RECOVERY_STATUS_snapshot_valid, 0), (Reg.TELEM_STATUS_enabled, 0),
    (Reg.TELEM_STATUS_staged, 0), (Reg.RECOVERY_STATUS_phase, 0)]).dropJobKey
  let s := s.modDor fun d => { d with keys := false, dramKey := [] }
  s.emit (.aer true)

/-- A strike that a compute reset met starts again from its beginning once the reset has ended (R29). -/
def State.strikeAgain (s : State) : State :=
  s.modHost fun h => { h with strike := h.strike.map fun k => { k with endAt := s.now + k.ns, again := true } }

/-- COMPUTE_RESET_DONE (R302, R303): every unit has acknowledged; the hang's graph-defect record is written (R202); a refused
restart ends here, else the rehearsal follows. -/
def execComputeResetDone (s : State) : Res :=
  .next (if s.isIn .recovering && s.get Reg.RECOVERY_STATUS_phase == 3 then
    let s := (s.clearCompute false).strikeAgain
    let hang := s.get Reg.RECOVERY_STATUS_cause == 1
    let job := s.rcv.refuse && s.get Reg.RECOVERY_STATUS_cause == 2
    let s := if hang || job then
        let r := Cairn.blank 0x0B 6 0 0 0xFFFF 0
        (s.stageCairn { r with ext := s.rcv.graph.take 120 }).modRcv fun r => { r with graph := [] }
      else s
    if s.rcv.refuse then s.refuseRestart
    else s.set Reg.RECOVERY_STATUS_phase 4
  else s)

/-- COMPUTE_RESET_TIMEOUT (R303): acknowledgements missing at 5 ms. -/
def execComputeResetTimeout (s : State) : Res :=
  .next (if s.isIn .recovering && s.get Reg.RECOVERY_STATUS_phase == 3 && s.rcv.boundAt + 5000000 ≤ s.now then s.enterDark 1
    else s)

/-! ### After the dress rehearsal (R283, R304) -/

/-- Every serviceable cell. -/
def State.allServiceable (s : State) : List Nat := (allRegions.flatMap regionCells).filter s.serviceable

/-- DRESS_REHEARSAL_DONE (R283, R304): on the hang route more than 2 % failing leads to DARK; on the paired-mismatch route a
clean repeat of the pair within 3,600 s fences both cells with 0x0B. Re-placement follows. -/
def execDressRehearsalDone (fails : List RehearsalFail) (s : State) : Res :=
  .next (if s.isIn .recovering && s.get Reg.RECOVERY_STATUS_phase == 4 then
    if s.rcv.route = 3 then
      let cells := (s.rcv.blocks.flatMap blockCells).filter s.serviceable
      let logs := (cells.map s.logicalOf).filter fun l => l ≠ 0xFFFF
      let r := s.dress cells fails
      let s := r.1.modRcv fun x => { x with reload := x.reload ++ logs }
      let l := s.rcv.pairKey
      let again := s.rcv.lastPair.any fun p => p.1 == l && s.rcv.startAt < p.2 + 3600000000000
      let s := if r.2 = 0 ∧ again then
          ([s.physical l, s.physical (twinOf l)].filterMap id).foldl
            (fun s c => (s.fenceAbove c 0x0B).fieldFence 3 c) s
        else s
      let s := s.modRcv fun x =>
        { x with lastPair := (if r.2 = 0 then [(l, x.startAt)] else []) ++ x.lastPair.filter fun p => p.1 != l }
      s.recount.set Reg.RECOVERY_STATUS_phase 5
    else
      let cells := s.allServiceable
      let r := s.dress cells fails
      if cells.length < 50 * r.2 then r.1.enterDark 2 else r.1.recount.set Reg.RECOVERY_STATUS_phase 5
  else s)

/-! ### Re-placement (R219-R222, R284) -/

/-- A physical cell plays a logical cell: its scene store, its group's schedule, its place. -/
def State.playCell (s : State) (l c : Nat) : State :=
  let g := bits (s.castOf l) 16 6
  let sched := match s.fold g with | some f => f.entries | none => []
  s.modScene c fun x =>
    { SceneSt.init with store := s.imagesOf l, sched := sched, logical := l, group := g, playing := true, area := x.area }

/-- Regions whose dies share a seam side with a region: north, east, south, west. -/
def adjacentRegions (g : Nat) : List Nat :=
  let x := g % 12
  let y := g / 12
  ([if y = 0 then 999 else g - 12, if x = 11 then 999 else g + 1, if y = 11 then 999 else g + 12, if x = 0 then 999 else g - 1]).filter
    regionValid

/-- The cells tried for a logical cell, in order (R220). -/
def State.candidates (s : State) (l : Nat) : List Nat :=
  match s.pkg with
  | none => []
  | some p =>
    let g := gOf (bits (s.castOf l) 0 16)
    let named := ((p.pkg.under.find? fun q => q.1 == l).map (·.2)).getD []
    (named.filter fun c => c ≠ 0xFFFF) ++ (g :: adjacentRegions g).flatMap fun h => p.reserve.filter fun c => gOf c == h

/-- The tests of R220 that need no rigging: serviceable, not in use, same type, same or adjacent region, own half (R284). -/
def State.fits (s : State) (l c : Nat) : Bool :=
  let old := bits (s.castOf l) 0 16
  let g := gOf old
  s.serviceable c && !s.used c && engineOf c == engineOf l && (g :: adjacentRegions g).contains (gOf c) &&
    (!s.paired || isPrimary c == isPrimary l)

/-- Move a logical cell to a physical cell whose circuits have been rigged (R222 steps 1, 2, 4, 5). -/
def State.moveCell (s : State) (l new flags : Nat) : State :=
  let old := bits (s.castOf l) 0 16
  let s := s.moveTrees old new
  let s := s.strikeReturn new
  let s := s.moveChans old new
  let e := setBits (s.castOf l) 0 16 new ||| flags
  let s := { s with pkg := s.pkg.map fun (p : Loaded) => { p with cast := SMap.put p.cast l e, reserve := NSet.del p.reserve new } }
  let s := s.modScene old fun x => { x with playing := false, phase := .idle }
  let s := (s.modCell new fun x => { x with eps := SMap.mapVal (fun _ (e : EpSt) => e.cleared) x.eps }).playCell l new
  s.modRcv fun r => { r with reload := r.reload ++ [l] }

/-- Choose an understudy for a logical cell and move it there; none when no cell passes every test (R220). -/
def State.replaceCell (s : State) (l : Nat) : Option State :=
  (s.candidates l).findSome? fun c =>
    if s.fits l c then
      match s.rigMoved (bits (s.castOf l) 0 16) c with
      | some (t, d) => if t.wingsOk l c d then some (t.moveCell l c (2 ^ 23)) else none
      | none => none
    else none

/-- The place in a spare region that a cell of a lost region moves to. -/
def inRegion (c h : Nat) : Nat := (h / 12) <<< 12 + (h % 12) <<< 8 + c % 256

/-- Move every logical cell of a lost region to the first spare region that can take them all (R221, R284); none when no
spare region qualifies, or a circuit cannot be rigged. -/
def State.moveRegion (s : State) (g : Nat) : Option State :=
  match s.pkg with
  | none => none
  | some p =>
    let ls := (s.placed.filter fun q => gOf (bits q.2 0 16) == g).map (·.1)
    match p.spares.find? fun h => !s.regionOut h && (!s.paired || (h < 72) == (g < 72)) &&
        ls.all fun l => s.serviceable (inRegion (bits (s.castOf l) 0 16) h) with
    | none => none
    | some h =>
      let s := { s with pkg := some { p with spares := p.spares.filter (· ≠ h) } }
      let olds := ls.map fun l => bits (s.castOf l) 0 16
      -- every circuit that ends in the region is rigged once, all its ends moved
      (s.rigAll (fun c => olds.any fun o => circEndsAt c o) (fun q => olds.foldl (fun q o => moveEnd o (inRegion o h) q) q) false).map fun r =>
        ls.foldl (fun s l => s.moveCell l (inRegion (bits (s.castOf l) 0 16) h) (2 ^ 24)) r.1

/-- A record that no understudy was found (R220). -/
def State.noUnderstudy (s : State) (l : Nat) : State :=
  s.stageCairn (Cairn.blank 0x0C 0 0 (bits (s.castOf l) 0 16) l 0)

/-- Re-place one logical cell: in region-spare mode a cell of a region that is out of service, or one that finds no
understudy, loses the whole region. The state, and whether it found a place. -/
def State.replaceOne (s : State) (l : Nat) : State × Bool :=
  let g := gOf (bits (s.castOf l) 0 16)
  let viaRegion := fun (s : State) =>
    match (s.loseRegion g).moveRegion g with
    | some t => (t, true)
    | none => ((s.loseRegion g).noUnderstudy l, false)
  if s.spareMode && s.regionOut g then viaRegion s
  else match s.replaceCell l with
    | some t => (t, true)
    | none => if s.spareMode then viaRegion s else (s.noUnderstudy l, false)

/-- Logical cells whose place is fenced or out of service. -/
def State.toMove (s : State) : List Nat :=
  (s.placed.filter fun q => let c := bits q.2 0 16; s.fenced c || s.regionOut (gOf c)).map (·.1)

/-- Re-place every logical cell that must move, in index order; stops at the first that finds no place. -/
def State.replaceAll (s : State) : List Nat → State × Bool
  | [] => (s, true)
  | l :: ls =>
    let c := bits (s.castOf l) 0 16
    if s.fenced c || s.regionOut (gOf c) then
      let r := s.replaceOne l
      if r.2 then State.replaceAll r.1 ls else r
    else State.replaceAll s ls

/-! ### Restart from belay (R310) -/

/-- Bytes of an image (Table 8.1). -/
def imageBytes (im : SceneImage) (e : Engine) : List Byte :=
  padTo 0x800 (wordBytes im.head) ++ im.eng.flatMap fun x => toLE (engineEntry e) x

/-- Images read back from their bytes. -/
def imagesFrom (e : Engine) (bs : List Byte) : Nat → List SceneImage
  | 0 => []
  | n + 1 =>
    let head := (chunks 8 256 (bs.take 0x800)).map fun b => BitVec.ofNat 64 (ofLE b)
    let k := bits (ofLE (bs.take 8)) 16 16
    let eng := (chunks (engineEntry e) k ((bs.drop 0x800).take (k * engineEntry e))).map ofLE
    ⟨head, eng⟩ :: imagesFrom e (bs.drop (0x800 + k * engineEntry e)) n

/-- The scene record of a logical cell in the loaded package. -/
def State.sceneRec (s : State) (l : Nat) : Option SceneRec := s.pkg.bind fun p => p.pkg.scenes.find? fun r => r.logical == l

/-- The scene reserve of a logical cell, where the package gives one: its cell, its offset in the scratchpad, its bytes (R215). -/
def State.reserveOf (s : State) (l : Nat) : Option (Nat × Nat × List Byte) :=
  match s.sceneRec l, s.physical l with
  | some r, some c =>
    if r.reserveBank < bankCount c then
      let bs := r.images.flatMap fun im => imageBytes im (engineOf l)
      some (c, r.reserveBank * 0x100000 + r.reserveOff, padTo ((bs.length + 31) / 32 * 32) bs)
    else none
  | _, _ => none

/-- Device address of the package area (Table 10.3). -/
def packageArea : Nat := 0x01AE38000000

/-- Firmware's copies for logical cells (R210, R215, R260): their manifest extents, and their scene reserves from the package area. -/
def State.loadCopies (s : State) (ls : List Nat) : List Desc :=
  (match s.pkg with
    | some p => (p.pkg.weights.filter fun e => ls.contains e.logical).filterMap fun e =>
        (s.physical e.logical).map fun c => fwCopy e.source (spAddr c (e.bank * 0x100000 + e.offset)) e.length []
    | none => []) ++
  ls.filterMap fun l => (s.reserveOf l).map fun r => fwCopy packageArea (spAddr r.1 r.2.1) r.2.2.length (toGrans (fun _ => false) r.2.2)

/-- Areas of a logical cell's scratchpad that a load writes: manifest extents, scene reserve, and extents of a belay (bank, offset, length). -/
def State.loadAreas (s : State) (y : Option Belay) (l : Nat) : List (Nat × Nat × Nat) :=
  (match s.pkg with
    | some p => (p.pkg.weights.filter fun e => e.logical == l).map fun e => (e.bank, e.offset, e.length)
    | none => []) ++
  (match s.reserveOf l with
    | some r => [(r.2.1 / 0x100000, r.2.1 % 0x100000, r.2.2.length)]
    | none => []) ++
  match y with
  | some y => (y.extents.filter fun e => e.1 == l).map (·.2)
  | none => []

/-- Firmware installs the load grant of every placed cell (R263; log 129). -/
def State.installLoad (s : State) (y : Option Belay) : State :=
  s.placed.foldl (fun s q => s.modCell (bits q.2 0 16) fun x =>
    { x with grants := { x.grants with load := s.loadAreas y q.1 } }) s

/-- The sequence number of a half of a belay region, where its `complete` is set (R309; header layout: log 35). -/
def State.belaySeq (s : State) (y : Belay) (h : Nat) : Option Nat :=
  let a := y.region + h * (y.len / 2)
  if s.num (a + 4088) 8 ≠ 0 then some (s.num (a + 64) 8) else none

/-- Of two halves by their sequence numbers: the later one, with its number. -/
def laterHalf : Option Nat → Option Nat → Option (Nat × Nat)
  | none, none => none
  | some a, none => some (0, a)
  | none, some b => some (1, b)
  | some a, some b => if a ≤ b then some (1, b) else some (0, a)

/-- The half of a belay region (0, 1) that holds the last complete belay, with its sequence number (R309, R310). -/
def State.belayLast (s : State) (y : Belay) : Option (Nat × Nat) := laterHalf (s.belaySeq y 0) (s.belaySeq y 1)

/-- A restart reads the headers of both halves of its belay and notes the half it takes: that of the last complete belay, where it
carries the loaded package's digest (R310). A header that is read as poison is not complete (log 136). -/
def State.takeHalf (s : State) (dram : List DramErr) : State :=
  match s.rcv.lastBelay with
  | none => s.modRcv fun r => { r with half := none }
  | some y =>
    let a := (s.request 0 4 0 4096).readDram y.region 4096 dram
    let b := (a.2.request 0 4 0 4096).readDram (y.region + y.len / 2) 4096 dram
    let seq := fun (h : Nat) (gs : List Gran) => if gs.any (·.poison) then none else s.belaySeq y h
    let half := match laterHalf (seq 0 a.1) (seq 1 b.1) with
      | some (h, _) => if s.bytes (y.region + h * (y.len / 2)) 64 = s.pkgDigest then some h else none
      | none => none
    b.2.modRcv fun r => { r with half := half }

/-- The copies of a belay's extents, packed in order after 4 KiB of a half: into the half, or back from it (R309, R310). -/
def State.belayCopies (s : State) (y : Belay) (h : Nat) (back : Bool) : List Desc :=
  (y.extents.foldl (fun (a : List Desc × Nat) e =>
    match s.physical e.1 with
    | none => (a.1, a.2 + e.2.2.2)
    | some c =>
      let x := spAddr c (e.2.1 * 0x100000 + e.2.2.1)
      (if e.2.2.2 = 0 then a.1 else a.1 ++ [if back then fwCopy a.2 x e.2.2.2 [] else fwCopy x a.2 e.2.2.2 []], a.2 + e.2.2.2))
    ([], y.region + h * (y.len / 2) + 4096)).1

/-- The belay of the loaded package that a restart takes, with its half. -/
def State.belayNow (s : State) : Option (Belay × Nat) := s.rcv.lastBelay.bind fun y => s.rcv.half.map fun h => (y, h)

/-- Whether the scene store of every placed cell is filled. -/
def State.storesFull (s : State) : Bool := s.placed.all fun q => !(s.cell (bits q.2 0 16)).scene.store.isEmpty

/-- Each fold group starts at an entry of its schedule: cells load the entry's scene, crossings take its variant. -/
def State.startGroups (s : State) (entry : Nat → Nat) : State :=
  let xr := SMap.mapVal (fun _ (x : XrSt) =>
    { x with entry := entry x.foldGroup, variant := s.entryScene x.foldGroup (entry x.foldGroup), nextVariant := none
             flags := [], treeIn := [] }) s.mesh.xr
  let s := { s with mesh := { s.mesh with xr := xr } }
  s.placed.foldl (fun s q => s.sceneLoad (bits q.2 0 16) (entry (bits q.2 16 6))) s

/-- Steps 4 to 6 of R310: the load grants go, every fold group starts, the panel is RUNNING. -/
def State.restartRun (s : State) : State :=
  let next := fun (g : Nat) => match s.belayNow with
    | some (y, h) => (s.byte (y.region + h * (y.len / 2) + 80 + g)).toNat
    | none => 0
  let s := ((s.dropLoadGrants).startGroups next).goto .running
  let s := s.modActs fun a => { a with restart := true }
  let s := s.modRcv fun r =>
    { r with watchdog := 0, periods := 0, periodAt := s.now, periodBeat := false, reload := [], blocks := [], route := 0, loadStep := 0 }
  let s := s.endRecovery
  -- a PCI Express reset came during the recovery (Table 13.4)
  if s.host.unloadAfter then (s.modHost fun h => { h with unloadAfter := false }).startUnload 8 0x11 0 else s

/-- Steps 1 to 6 of R310, one at each command: the load grants and the copies of manifest extents; once these are in, the belay's copies;
once those are in and the scene stores filled, the restart. Poison in a copy refuses it. `dram`: what the code finds in the headers of the belay. -/
def State.restartBelay (s : State) (dram : List DramErr) : State :=
  match s.rcv.loadStep with
  | 0 =>
    let s := s.takeHalf dram
    let ls := if s.rcv.route = 1 then s.placed.map (·.1) else s.rcv.reload
    ((s.installLoad (s.belayNow.map (·.1))).fwSubmit (s.loadCopies ls)).modRcv fun r => { r with loadStep := 1 }
  | 1 =>
    if s.fwBusy then s
    else
      let ds := match s.belayNow with
        | some (y, h) => s.belayCopies y h true
        | none => []
      (s.fwSubmit ds).modRcv fun r => { r with loadStep := 2 }
  | _ =>
    if s.fwBusy then s
    else if s.hub.fwPoison then (s.stageCairn (Cairn.blank 0x0A 6 0 0 0xFFFF 0)).refuseRestart
    else if s.storesFull then s.restartRun else s

/-- RESTART_FROM_BELAY (R222, R310): the re-placement of the cells that must move; then the reload and the restart (log 100). -/
def execRestartFromBelay (dram : List DramErr) (s : State) : Res :=
  .next (if s.isIn .recovering then
    match s.get Reg.RECOVERY_STATUS_phase with
    | 5 =>
      let ls := s.toMove
      let r := s.planView.replaceAll ls
      if r.2 then
        match r.1.rigBroken with
        | some t =>
          let t := (t.asRewrites s).publishCast
          (if ls.isEmpty ∧ s.rcv.route ≠ 2 then t else t.publishDist).set Reg.RECOVERY_STATUS_phase 6
        | none => (r.1.stageCairn (Cairn.blank 0x0C 6 0 0 0xFFFF 0)).refuseRestart
      else r.1.refuseRestart
    | 6 => s.restartBelay dram
    | _ => s
  else s)

/-! ### Belays (R308, R309) -/

/-- Whether every receiving endpoint of the package is empty and no porter or stager request is pending (R309 step 2). -/
def State.belayQuiet (s : State) : Bool :=
  s.placed.all (fun q => (s.cell (bits q.2 0 16)).eps.all fun e =>
      epSends e.2.cfg || (e.2.recs.all (·.pad) && e.2.wing.isEmpty && !(s.hasMsg (bits q.2 0 16) e.1))) &&
    s.hub.porters.all (fun p => p.2.all.isEmpty) && s.kv.tickets.all fun t => t.2.status != 0

/-- Whether a group's members all wait at the scene barrier that ends the belay's entry. -/
def State.groupHeld (s : State) (y : Belay) (g : Nat) : Bool :=
  s.placed.all fun q => bits q.2 16 6 != g ||
    (let x := (s.cell (bits q.2 0 16)).scene; x.phase == .atBarrier && x.entry == nth y.atEntry g 0)

/-- The half of a belay's region that does not hold the last complete belay. -/
def State.belayTarget (s : State) (y : Belay) : Nat := match s.belayLast y with | some (0, _) => 1 | _ => 0

/-- Porters start to copy a belay's extents into its half, whose `complete` is cleared first (R309 step 3). -/
def State.startCopy (s : State) (y : Belay) : State :=
  let h := s.belayTarget y
  ((s.request 0 4 0 8).writeDram (y.region + h * (y.len / 2) + 4088) (toLE 8 0) false [] 2).fwSubmit (s.belayCopies y h false)

/-- Write a belay's header into its half, `complete` last (R309 step 4; header layout: log 35). -/
def State.writeBelay (s : State) (y : Belay) (h seq : Nat) (dram : List DramErr) : State :=
  let a := y.region + h * (y.len / 2)
  let next := (List.range 64).flatMap fun g =>
    toLE 1 (match s.fold g with | some f => (foldAfter f (nth y.atEntry g 0)).1 | none => 0)
  let head := s.pkgDigest ++ toLE 8 seq ++ toLE 8 s.actNow ++ next
  let s := (s.request 0 4 0 4096).writeDram a (head ++ List.replicate (4088 - head.length) 0) false dram 80
  s.writeDram (a + 4088) (toLE 8 1) false dram 2

/-- BELAY_HOLD (R309 steps 1, 2): a group's barrier completion is held; when every group is held the check is made, and a
belay that fails it ends with BUSY. -/
def execBelayHold (group : Nat) (s : State) : Res :=
  .next (match s.belay, s.pkg with
    | some y, some p =>
      let n := p.pkg.folds.length
      if s.isIn .running ∧ group < n ∧ !y.copying ∧ !y.held.contains group ∧ s.groupHeld y group then
        let y := { y with held := NSet.add y.held group }
        let s := { s with belay := some y }
        if y.held.length < n then s
        else if s.belayQuiet then { s with belay := some { y with copying := true } }.startCopy y
        else s.dropBelay
      else s
    | _, _ => s)

/-- BELAY_COPY_DONE (R309 steps 3-5): once porters have copied the extents into the half that does not hold the last complete belay,
the header is written, the barriers are released and the command completes with OK. `dram`: what the code finds where the header takes
part of a unit. -/
def execBelayCopyDone (dram : List DramErr) (s : State) : Res :=
  .next (match s.belay with
    | some y =>
      if s.isIn .running ∧ y.copying ∧ !s.fwBusy then
        let seq := match s.belayLast y with
          | some (_, n) => n + 1
          | none => 1
        let s := s.writeBelay y (s.belayTarget y) seq dram
        let s := s.modRcv fun r => { r with lastBelay := some y }
        State.respond { s with belay := none } y.mb St.ok.code (toLE 8 seq)
      else s
    | none => s)

end Sys2Proof.Machine
end

