-- ==== Sys2Proof/Machine/Special.lean ====
section
/-! DEFINITION. The special functions of the V-cell (R94, Table 4.4), rounded once to nearest even. The exact value is
enclosed between two fixed-point numbers of 256 fraction bits; where both round to one code, that is the correctly
rounded result, since rounding is monotonic. Where they do not, the result is `Config.undecided` (log 7). -/

namespace Sys2Proof.Machine

/-- A non-negative number between `lo` and `hi`, both scaled by 2^-256. -/
structure Iv where
  lo : Nat
  hi : Nat
deriving DecidableEq, Repr

/-- 1. -/
def ivOne : Nat := 2 ^ 256

/-- Product. -/
def Iv.mul (a b : Iv) : Iv := ⟨(a.lo * b.lo) >>> 256, (a.hi * b.hi) >>> 256 + 1⟩
/-- Sum. -/
def Iv.add (a b : Iv) : Iv := ⟨a.lo + b.lo, a.hi + b.hi⟩
/-- Quotient by a number. -/
def Iv.divN (a : Iv) (k : Nat) : Iv := ⟨a.lo / k, a.hi / k + 1⟩
/-- Quotient of two. -/
def Iv.div (a b : Iv) : Iv := ⟨(a.lo * ivOne) / b.hi, (a.hi * ivOne) / b.lo + 1⟩

/-- ln 2. -/
def ivLn2 : Iv :=
  let k := 0xb17217f7d1cf79abc9e3b39803f2f6af40f343267298b62d8a0d175b8baafa2b
  ⟨k, k + 1⟩

/-- The square root of 2 / pi. -/
def ivGeluC : Iv :=
  let k := 0xcc42299ea1b284687e59e2805d5c717fa7053e60a24e0db1808e369004c73a5d
  ⟨k, k + 1⟩

/-- Terms of the exponential series from number `n` up, `fuel` of them: the term before, and the sum so far. -/
def expTerms (t : Iv) : Nat → Nat → Iv → Iv → Iv
  | 0, _, last, sum => ⟨sum.lo, sum.hi + 2 * last.hi + 2⟩
  | f + 1, n, last, sum =>
    let term := (last.mul t).divN n
    expTerms t f (n + 1) term (sum.add term)

/-- e to a number between 0 and 1: 64 terms; the rest is at most twice the last. -/
def ivExp (t : Iv) : Iv := expTerms t 64 1 ⟨ivOne, ivOne⟩ ⟨ivOne, ivOne⟩

/-- 2 to a number between `lo` and `hi` (scaled by 2^-256): an enclosure times a power of two. -/
def exp2Between (lo hi : Int) : Iv × Int :=
  let k := lo / (ivOne : Int)
  let f : Iv := ⟨(lo - k * ivOne).toNat, (hi - k * ivOne).toNat⟩
  (ivExp (f.mul ivLn2), k)

/-- Terms s^(2k+1) / (2k+1), `fuel` of them: the power before, and the sum so far. -/
def atanhTerms (s2 : Iv) : Nat → Nat → Iv → Iv → Iv
  | 0, _, p, sum => ⟨sum.lo, sum.hi + p.hi + 2⟩
  | f + 1, n, p, sum => atanhTerms s2 f (n + 2) (p.mul s2) (sum.add (p.divN n))

/-- ln of a number m / 2^b in [1, 2): 2 atanh((m − 2^b) / (m + 2^b)), 96 terms. -/
def ivLn (m b : Nat) : Iv :=
  let q := (m - 2 ^ b) * ivOne
  let s : Iv := ⟨q / (m + 2 ^ b), q / (m + 2 ^ b) + 1⟩
  let a := atanhTerms (s.mul s) 96 1 s ⟨0, 0⟩
  ⟨2 * a.lo, 2 * a.hi⟩

/-- 1 / (1 + 2^z) for z between `lo` and `hi` (scaled): an enclosure times a power of two. Beyond |z| = 4,096 the
outer bounds 0 and 1 are close enough. -/
def sigmBetween (lo hi : Int) : Iv × Int :=
  let big : Int := 4096 * ivOne
  if hi < -big then (⟨ivOne - 1, ivOne⟩, 0)
  else if big < lo then (⟨0, 1⟩, -1000)
  else
    let (e, k) := exp2Between lo hi
    if 0 ≤ k then
      let one := ivOne >>> k.toNat
      ((⟨ivOne, ivOne⟩ : Iv).div ⟨e.lo + one, e.hi + one + 1⟩, -k)
    else
      ((⟨ivOne, ivOne⟩ : Iv).div ⟨ivOne + e.lo >>> (-k).toNat, ivOne + e.hi >>> (-k).toNat + 1⟩, 0)

/-- A finite value scaled by 2^-256, rounded down and up. -/
def FV.fix : FV → Int × Int
  | .fin neg m e =>
    let sh := e + 256
    let lo : Nat := if 0 ≤ sh then m <<< sh.toNat else m >>> (-sh).toNat
    let hi : Nat := if 0 ≤ sh then lo else lo + 1
    if neg then (-(hi : Int), -(lo : Int)) else (lo, hi)
  | _ => (0, 0)

/-- Quotient of a signed enclosure by ln 2. -/
def perLn2 (lo hi : Int) : Int × Int :=
  let d := fun (x : Int) (k : Nat) => x * ivOne / (k : Int)
  (if 0 ≤ lo then d lo ivLn2.hi else d lo ivLn2.lo, (if 0 ≤ hi then d hi ivLn2.lo else d hi ivLn2.hi) + 1)

/-- The code both ends of an enclosure round to, or the undecided value. -/
def settle (f : FFmt) (fn x : Nat) (neg : Bool) (v : Iv) (e : Int) : Nat :=
  let a := f.ofFV .rne false (.fin neg v.lo (e - 256))
  let b := f.ofFV .rne false (.fin neg v.hi (e - 256))
  if a = b then a else (Config.undecided fn x).toNat % 2 ^ f.width

/-- Round an exact quotient to a format. -/
def FFmt.ofRat (f : FFmt) (neg : Bool) (n d : Nat) (e : Int) : Nat :=
  if n = 0 then f.signed neg 0
  else
    let c := f.roundMag .rne n d e
    if c ≤ f.maxCode then f.signed neg c else f.signed neg f.infCode

/-- Whether a magnitude m * 2^e is at least 2^k. -/
def atLeast (m : Nat) (e k : Int) : Bool := decide (k ≤ (Nat.log2 m : Int) + e)

/-- VEXP2. -/
def fnExp2 (f : FFmt) (x : Nat) : Nat :=
  match f.decode x with
  | .nan => f.nanCode
  | .inf neg => if neg then 0 else f.infCode
  | .fin neg m e =>
    if m = 0 then f.ofFV .rne false (.fin false 1 0)
    else if atLeast m e 12 then (if neg then 0 else f.infCode)
    else
      let v := FV.fix (.fin neg m e)
      -- every operand below 2^12 is a multiple of 2^-256 here
      if v.1 % ivOne = 0 then f.ofFV .rne false (.fin false 1 (v.1 / ivOne))
      else
        let r := exp2Between v.1 v.2
        settle f 0x30 x false r.1 r.2

/-- VLOG2. -/
def fnLog2 (f : FFmt) (x : Nat) : Nat :=
  match f.decode x with
  | .nan => f.nanCode
  | .inf neg => if neg then f.nanCode else f.infCode
  | .fin neg m e =>
    if m = 0 then f.signed true f.infCode
    else if neg then f.nanCode
    else
      let b := Nat.log2 m
      let k : Int := e + b
      if m = 2 ^ b then f.ofFV .rne false (FV.ofInt k)
      else
        let l := (ivLn m b).div ivLn2
        let lo := (l.lo : Int) + k * ivOne
        let hi := (l.hi : Int) + k * ivOne
        if 0 ≤ lo then settle f 0x31 x false ⟨lo.toNat, hi.toNat⟩ 0
        else settle f 0x31 x true ⟨(-hi).toNat, (-lo).toNat⟩ 0

/-- VRCP. -/
def fnRcp (f : FFmt) (x : Nat) : Nat :=
  match f.decode x with
  | .nan => f.nanCode
  | .inf neg => f.signed neg 0
  | .fin neg m e => if m = 0 then f.signed neg f.infCode else f.ofRat neg 1 m (-e)

/-- Integer square root, rounded down, bit by bit from bit i - 1 of the root: operand and root so far. -/
def isqrtDown : Nat → Nat → Nat → Nat
  | 0, _, r => r
  | i + 1, x, r => isqrtDown i x (let t := r + 2 ^ i; if t * t ≤ x then t else r)

/-- VRSQRT. -/
def fnRsqrt (f : FFmt) (x : Nat) : Nat :=
  match f.decode x with
  | .nan => f.nanCode
  | .inf neg => if neg then f.nanCode else 0
  | .fin neg m e =>
    if m = 0 then f.signed neg f.infCode
    else if neg then f.nanCode
    else
      let (m, e) := if e % 2 = 0 then (m, e) else (2 * m, e - 1)
      let q := 2 ^ 512 / m
      let r := isqrtDown 257 q 0
      settle f 0x33 x false ⟨r, if r * r * m = 2 ^ 512 then r else r + 1⟩ (-(e / 2))

/-- VTANH: small operands by x − x³/3 and x − x³/3 + 2x⁵/15; others by (1 − t) / (1 + t) with t = e^(−2|x|). -/
def fnTanh (f : FFmt) (x : Nat) : Nat :=
  match f.decode x with
  | .nan => f.nanCode
  | .inf neg => f.ofFV .rne false (.fin neg 1 0)
  | .fin neg m e =>
    if m = 0 then f.signed neg 0
    else if atLeast m e 12 then settle f 0x34 x neg ⟨ivOne - 1, ivOne⟩ 0
    else if !atLeast m e (-20) then
      -- x * (1 − x²/3) and x * (1 − x²/3 + 2x⁴/15), the brackets scaled by 2^-256
      let s2 : Iv := let v := FV.fix (.fin false (m * m) (2 * e)); ⟨v.1.toNat, v.2.toNat⟩
      let lo := ivOne - (s2.hi / 3 + 1)
      let hi := ivOne - s2.lo / 3 + (2 * (s2.mul s2).hi) / 15 + 1
      settle f 0x34 x neg ⟨m * lo, m * hi⟩ e
    else
      let v := FV.fix (.fin true m (e + 1))
      let z := perLn2 v.1 v.2
      let (g, k) := exp2Between z.1 z.2
      let t : Iv := ⟨g.lo >>> (-k).toNat, g.hi >>> (-k).toNat + 1⟩
      settle f 0x34 x neg ⟨((ivOne - t.hi) * ivOne) / (ivOne + t.hi), ((ivOne - t.lo) * ivOne) / (ivOne + t.lo) + 1⟩ 0

/-- VSIGM: 1 / (1 + 2^z) with z = −x / ln 2. -/
def fnSigm (f : FFmt) (x : Nat) : Nat :=
  match f.decode x with
  | .nan => f.nanCode
  | .inf neg => if neg then 0 else f.ofFV .rne false (.fin false 1 0)
  | .fin neg m e =>
    if m = 0 then f.ofFV .rne false (.fin false 1 (-1))
    else
      let r := if atLeast m e 14 then (if neg then ((⟨0, 1⟩ : Iv), (-1000 : Int)) else (⟨ivOne - 1, ivOne⟩, 0))
        else
          let v := FV.fix (.fin (!neg) m e)
          let z := perLn2 v.1 v.2
          sigmBetween z.1 z.2
      settle f 0x35 x false r.1 r.2

/-- VGELU: x / (1 + e^(−2u)), with u = √(2/π) (x + 0.044715 x³). -/
def fnGelu (f : FFmt) (x : Nat) : Nat :=
  match f.decode x with
  | .nan => f.nanCode
  | .inf neg => if neg then f.signed true 0 else f.infCode
  | .fin neg m e =>
    if m = 0 then f.signed neg 0
    else
      let r := if atLeast m e 7 then (if neg then ((⟨0, 1⟩ : Iv), (-2000 : Int)) else (⟨ivOne - 1, ivOne⟩, 0))
        else
          let a := FV.fix (.fin false m e)
          let c := FV.fix (.fin false (m * m * m) (3 * e))
          let p : Iv := ⟨a.1.toNat + c.1.toNat * 44715 / 1000000, a.2.toNat + c.2.toNat * 44715 / 1000000 + 1⟩
          let u := p.mul ivGeluC
          let (lo, hi) := if neg then ((2 * u.lo : Int), (2 * u.hi : Int)) else (-(2 * u.hi : Int), -(2 * u.lo : Int))
          let z := perLn2 lo hi
          sigmBetween z.1 z.2
      settle f 0x36 x neg ⟨r.1.lo * m, r.1.hi * m⟩ (r.2 + e)

end Sys2Proof.Machine
end

