-- ==== Sys2Proof/Machine/VCell.lean ====
section
/-! DEFINITION. The V-cell (R86-R101): its registers, its instructions, the shadow checks. Vectors are 2,048-bit
numbers, byte 0 lowest; masks are 256-bit numbers. -/

namespace Sys2Proof.Machine

/-! ### Registers (Table 4.1) -/

/-- A vector register. -/
def VSt.vec (x : VSt) (r : Nat) : Nat := SMap.getD x.v r 0
/-- The poison bits of a vector register, one per slot. -/
def VSt.vpoison (x : VSt) (r : Nat) : Nat := SMap.getD x.vp r 0
/-- A mask register: m0 reads as all ones. -/
def VSt.mask (x : VSt) (k : Nat) : Nat := if k = 0 then 2 ^ 256 - 1 else SMap.getD x.m k 0
/-- An address register. -/
def VSt.addr (x : VSt) (k : Nat) : Nat := SMap.getD x.a (k % 16) 0
/-- Whether an address register holds a poisoned value. -/
def VSt.apoison (x : VSt) (k : Nat) : Bool := bitAt x.ap (k % 16)
/-- Write a mask register: writes to m0 are ignored. -/
def VSt.setMask (x : VSt) (k v : Nat) : VSt := if k % 8 = 0 then x else { x with m := SMap.put x.m (k % 8) (v % 2 ^ 256) }
/-- Write an address register. -/
def VSt.setAddr (x : VSt) (k v : Nat) (p : Bool) : VSt :=
  { x with a := SMap.put x.a (k % 16) (v % 2 ^ 32), ap := setBits x.ap (k % 16) 1 (b2n p) }

/-- Element e of width `w` bits of a vector. -/
def velem (v w e : Nat) : Nat := bits v (e * w) w

/-- A number made of `n` fields of `w` bits. -/
def packBits (n w : Nat) (f : Nat → Nat) : Nat := (List.range n).foldr (fun i acc => f i % 2 ^ w + acc <<< w) 0

/-- A set of bits as a number. -/
def packFlags (n : Nat) (p : Nat → Bool) : Nat := packBits n 1 fun i => b2n (p i)

/-- Elements a register holds at a width: 6-bit elements fill whole 3-byte words only (R38). -/
def vcount (w : Nat) : Nat := if w = 6 then 340 else if w = 0 then 0 else 2048 / w

/-- Whether element e at bit offset `off` lies (in part) in slot `sl`. -/
def inSlot (off w e sl : Nat) : Bool := (off + e * w) / 32 ≤ sl && sl ≤ (off + e * w + w - 1) / 32

/-- Whether element e at bit offset `off` is active (R87): the mask bit of its lowest byte. -/
def vactive (m off w e : Nat) : Bool := bitAt m ((off + e * w) / 8)

/-- The slots of a register under an element. -/
def elemPoison (p off w e : Nat) : Bool := ((off + e * w) / 32 |> fun a => bitAt p a) || bitAt p ((off + e * w + w - 1) / 32)

/-- Write `n` elements of `w` bits from bit offset `off` of vd under a mask (R87): inactive elements keep their value and
poison; a slot is poisoned when any element written into it is. -/
def VSt.write (x : VSt) (vd off w n m : Nat) (val : Nat → Nat) (pois : Nat → Bool) : VSt :=
  let old := x.vec vd
  let oldP := x.vpoison vd
  let v := setBits old off (n * w) (packBits n w fun e => if vactive m off w e then val e else bits old (off + e * w) w)
  let slotP := fun sl =>
    let es := indices n fun e => inSlot off w e sl
    if es.isEmpty then bitAt oldP sl
    else es.any fun e => if vactive m off w e then pois e else bitAt oldP sl
  { x with v := SMap.put x.v vd v, vp := SMap.put x.vp vd (packFlags 64 slotP) }

/-! ### The program (R97, R98) -/

/-- The V-cell's registers. -/
def State.vst (s : State) (c : Nat) : VSt := (s.cell c).v

/-- Where the program goes after instruction `pc`: the ends of loop bodies return or leave (R97). -/
def loopNext (pc : Nat) : List (Nat × Nat × Nat) → Nat × List (Nat × Nat × Nat)
  | [] => (pc + 1, [])
  | (st, en, rem) :: ls =>
    if pc = en then (if 1 < rem then (st, (st, en, rem - 1) :: ls) else loopNext pc ls) else (pc + 1, (st, en, rem) :: ls)

/-- The instruction is done: its results are in force and the next one follows. -/
def State.vDone (s : State) (c : Nat) (x : VSt) : State :=
  if s.fenced c then s
  else
    let r := loopNext (s.cell c).eng.pc x.loops
    (s.modCell c fun y => { y with v := { x with loops := r.2 } }).engineAt c r.1

/-- A branch: levels of the loop stack that do not contain the target are left (R97). -/
def State.vJump (s : State) (c : Nat) (x : VSt) (target : Int) : State :=
  if s.fenced c then s
  else if target < 0 then s.programFault c 0x09
  else
    let t := target.toNat
    (s.modCell c fun y => { y with v := { x with loops := x.loops.dropWhile fun l => !(l.1 ≤ t && t ≤ l.2.1) } }).engineAt c t

/-- One V-cell instruction with its opcode: it acts when the cell's program stands at it. An
uncorrectable read of the scene store as it is fetched fences the cell (R207). -/
def vRow (op : Nat) (c : CellAddr) (hw : VHw) (s : State) (f : Nat → State → State) : Res :=
  onUnit (cellValid c.toNat ∧ engineOf c.toNat = .v) c.toNat s fun s =>
    match s.insAt c.toNat with
    | some i => if vOp i = op then (if hw.store then s.storeFault c.toNat else f i s) else s
    | none => s

/-! ### Shadow checks (R99-R101) -/

/-- A vector fault: counted, recorded in a cairn record, and a fence condition (R100). -/
def State.vectorFault (s : State) (c : Nat) : State :=
  let s := s.inc (Reg.VC_CK_COUNTS_fault_count c)
  let s := s.stageCairn { Cairn.blank 0x02 0 0 c (s.logicalOf c) (s.cell c).eng.pc with
    regs := s.regWords [(Reg.VC_CK_LAST_valid c).off] }
  (s.fenceCell c 0x02).modEng c fun e => { e with cause := 0x10 }

/-- Record a mismatch in `VC_CK_LAST` (R101). -/
def State.shadowRecord (s : State) (c i : Nat) (h : ShadowHit) : State :=
  let v := s.flag (Reg.VC_CK_LAST_valid c)
  let sc := match (s.cell c).scene.cur with | some im => im.sceneNo | none => 0
  s.sets [(Reg.VC_CK_LAST_overrun c, b2n v), (Reg.VC_CK_LAST_valid c, 1), (Reg.VC_CK_LAST_residue_hit c, b2n h.residue),
    (Reg.VC_CK_LAST_reissue_failed c, b2n h.again), (Reg.VC_CK_LAST_slot c, h.slot),
    (Reg.VC_CK_LAST_pc c, (s.cell c).eng.pc), (Reg.VC_CK_LAST_scene c, sc), (Reg.VC_CK_LAST_op c, vOp i)]

/-- A shadow or residue mismatch (R100): recorded, and the instruction reissued once with unchanged operands; `done` is
its effect when the reissue passes and it is no fourth corrected event within 1 s. -/
def State.vMismatch (s : State) (c i : Nat) (h : ShadowHit) (done : State → State) : State :=
  let s := s.shadowRecord c i h
  if h.again then s.vectorFault c
  else
    let r := fourthIn1s s.now (s.cell c).eng.corrected
    let s := (s.modEng c fun e => { e with corrected := r.2 }).inc (Reg.VC_CK_COUNTS_corrected_count c)
    if r.1 then s.vectorFault c else done s

/-- The slots that the four shadow units recompute, each with whether it is left out of the comparison (R99, R100). -/
def fourSlots (x : VSt) (skip : Nat → Bool) : List (Nat × Bool) :=
  (List.range 4).map fun g => (16 * g + x.checked % 16, skip (16 * g + x.checked % 16))

/-- Whether a mismatch of the part can show (R99): in a slot that is compared, or in any slot where the instruction is checked by residue
(`wide` true) or by parity (false). -/
def canShow (wide : Option Bool) (seen : List (Nat × Bool)) (h : ShadowHit) : Bool :=
  wide == some h.residue || (!h.residue && seen.contains (h.slot, false))

/-- What an instruction whose result the shadow units check does (R99, R100): the slots `seen` are compared, or only counted; an
armed injection (R101) or a mismatch of the part reissues it once. -/
def State.vChecked (s : State) (c i : Nat) (hw : VHw) (wide : Option Bool) (seen : List (Nat × Bool)) (done : State → State) : State :=
  let s := s.inc (Reg.VC_CK_COUNTS_skip_count c) (seen.filter (·.2)).length
  let s := s.modCell c fun y => { y with v := { y.v with checked := y.v.checked + 1 } }
  let slot := s.get (Reg.VC_CK_CTRL_inject_slot c)
  let inj : Bool := s.flag (Reg.VC_CK_CTRL_inject c) && seen.contains (slot, false)
  let s := if inj then s.set (Reg.VC_CK_CTRL_inject c) 0 else s
  match (if inj then some ⟨false, slot, false⟩ else hw.shadow.filter (canShow wide seen)) with
  | none => done s
  | some h => s.vMismatch c i h done

/-- What an instruction checked by residue alone does (R99): address arithmetic and the addresses of gathers and
scatters. -/
def State.vResidue (s : State) (c i : Nat) (hw : VHw) (done : State → State) : State :=
  match hw.shadow with
  | some h => s.vMismatch c i { h with residue := true } done
  | none => done s

/-- Slots of a result of `n` elements of `w` bits from bit `off` that are not compared (R100): no element is active there, or an active
one has an input that is poisoned, NaN or infinite (`bad`). -/
def outSkip (x : VSt) (i off w n : Nat) (bad : Nat → Bool) (sl : Nat) : Bool :=
  let es := (indices n fun e => inSlot off w e sl).filter fun e => vactive (x.mask (vMask i)) off w e
  es.isEmpty || es.any bad

/-- Whether FP32 slot e of a register is poisoned, NaN or infinite. -/
def badSlot (x : VSt) (r e : Nat) : Bool := bitAt (x.vpoison r) e || !(val32 (velem (x.vec r) 32 e)).isFin

/-- Slots not compared: poisoned, inactive, or with a NaN or infinite input (R100). -/
def vSkip (x : VSt) (i : Nat) (fmt : Nat) (srcs : List Nat) (sl : Nat) : Bool :=
  let w := fmtBits fmt
  let m := x.mask (vMask i)
  let es := indices (vcount w) fun e => inSlot 0 w e sl
  (srcs.any fun r => bitAt (x.vpoison r) sl) || es.all (fun e => !vactive m 0 w e) ||
    (!fmtInt fmt && es.any fun e => vactive m 0 w e && srcs.any fun r => !(elemVal fmt (vFtz i) (velem (x.vec r) w e)).isFin)

/-- Slots of a moving instruction that are not compared (R100): element e takes element `place e` of register `reg e`. -/
def moveSkip (x : VSt) (i m : Nat) (reg place : Nat → Nat) (dep : Nat → Bool) (sl : Nat) : Bool :=
  let w := fmtBits (vFmt i)
  let es := (indices (vcount w) fun e => inSlot 0 w e sl).filter fun e => vactive m 0 w e
  es.isEmpty || es.any fun e =>
    dep e || elemPoison (x.vpoison (reg e)) 0 w (place e) ||
      (!fmtInt (vFmt i) && !(elemVal (vFmt i) (vFtz i) (velem (x.vec (reg e)) w (place e))).isFin)

/-! ### Elementwise instructions -/

/-- An elementwise instruction on elements of its format: `f` answers the element from its place and its sources. -/
def State.vLanes (s : State) (c i : Nat) (hw : VHw) (srcs : List Nat) (f : Nat → List Nat → Nat) (wide : Option Bool := none) : State :=
  let x := s.vst c
  let w := fmtBits (vFmt i)
  s.vChecked c i hw wide (fourSlots x (vSkip x i (vFmt i) srcs)) fun s =>
    s.vDone c ((s.vst c).write (vVd i) 0 w (vcount w) (x.mask (vMask i))
      (fun e => f e (srcs.map fun r => velem (x.vec r) w e))
      (fun e => srcs.any fun r => elemPoison (x.vpoison r) 0 w e))

/-- A lane result (R90): FP32 rounds once to nearest even (R57); the other formats convert under `sat`. -/
def laneOut (i : Nat) (v : FV) : Nat := if vFmt i = 0 then round32 v else convElem (vFmt i) .rne (vSat i) v

/-- The value of a lane's input (R45, R90). -/
def laneIn (i x : Nat) : FV := elemVal (vFmt i) (vFtz i) x

/-- Source n of a list of element codes. -/
def src (xs : List Nat) (n : Nat) : Nat := nth xs n 0

/-- VNOP (R89). -/
def execVnop (c : CellAddr) (hw : VHw) (s : State) : Res :=
  vRow 0x00 c hw s fun _ s => s.vDone c.toNat (s.vst c.toNat)

/-- VADD (R89, R90). -/
def execVadd (c : CellAddr) (hw : VHw) (s : State) : Res :=
  vRow 0x01 c hw s fun i s => s.vLanes c.toNat i hw [vVa i, vVb i] fun _ xs =>
    laneOut i ((laneIn i (src xs 0)).add (laneIn i (src xs 1)))

/-- VSUB (R89, R90). -/
def execVsub (c : CellAddr) (hw : VHw) (s : State) : Res :=
  vRow 0x02 c hw s fun i s => s.vLanes c.toNat i hw [vVa i, vVb i] fun _ xs =>
    laneOut i ((laneIn i (src xs 0)).add (laneIn i (src xs 1)).neg)

/-- VMUL (R89, R90). -/
def execVmul (c : CellAddr) (hw : VHw) (s : State) : Res :=
  vRow 0x03 c hw s fun i s => s.vLanes c.toNat i hw [vVa i, vVb i] fun _ xs =>
    laneOut i ((laneIn i (src xs 0)).mul (laneIn i (src xs 1)))

/-- VFMA (R89): one rounding. -/
def execVfma (c : CellAddr) (hw : VHw) (s : State) : Res :=
  vRow 0x04 c hw s fun i s => s.vLanes c.toNat i hw [vVa i, vVb i, vVc i] fun _ xs =>
    laneOut i (((laneIn i (src xs 0)).mul (laneIn i (src xs 1))).add (laneIn i (src xs 2)))

/-- The order of VMAX, VMIN and the reductions (R90, R95): −0 below +0. NaN is not given to it. -/
def FV.below (a b : FV) : Bool :=
  let k := a.cmp b
  decide (k < 0) || (decide (k = 0) && a.isNeg && !b.isNeg)

/-- The larger of two values; NaN when either is. -/
def FV.larger (a b : FV) : FV := if a = .nan ∨ b = .nan then .nan else if a.below b then b else a
/-- The smaller of two values; NaN when either is. -/
def FV.smaller (a b : FV) : FV := if a = .nan ∨ b = .nan then .nan else if a.below b then a else b

/-- VMAX (R89, R90). -/
def execVmax (c : CellAddr) (hw : VHw) (s : State) : Res :=
  vRow 0x05 c hw s fun i s => s.vLanes c.toNat i hw [vVa i, vVb i] fun _ xs =>
    if fmtInt (vFmt i) then ofSigned 32 (max (toSigned 32 (src xs 0)) (toSigned 32 (src xs 1)))
    else laneOut i ((laneIn i (src xs 0)).larger (laneIn i (src xs 1)))

/-- VMIN (R89, R90). -/
def execVmin (c : CellAddr) (hw : VHw) (s : State) : Res :=
  vRow 0x06 c hw s fun i s => s.vLanes c.toNat i hw [vVa i, vVb i] fun _ xs =>
    if fmtInt (vFmt i) then ofSigned 32 (min (toSigned 32 (src xs 0)) (toSigned 32 (src xs 1)))
    else laneOut i ((laneIn i (src xs 0)).smaller (laneIn i (src xs 1)))

/-- A 32-bit result that the spec does not state (log 3): by opcode and operands. -/
def openLane (op a b : Nat) : Nat := (Config.openResult op a b).toNat % 2 ^ 32

/-- VABS (R89); the INT32 magnitude of −2³¹ is a free value. -/
def execVabs (c : CellAddr) (hw : VHw) (s : State) : Res :=
  vRow 0x07 c hw s fun i s => s.vLanes c.toNat i hw [vVa i] fun _ xs =>
    if fmtInt (vFmt i) then
      if src xs 0 = 2 ^ 31 then openLane 0x07 (2 ^ 31) 0 else (toSigned 32 (src xs 0)).natAbs
    else laneOut i (laneIn i (src xs 0)).abs

/-- VNEG (R89); the INT32 negation of −2³¹ is a free value. -/
def execVneg (c : CellAddr) (hw : VHw) (s : State) : Res :=
  vRow 0x08 c hw s fun i s => s.vLanes c.toNat i hw [vVa i] fun _ xs =>
    if fmtInt (vFmt i) then
      if src xs 0 = 2 ^ 31 then openLane 0x08 (2 ^ 31) 0 else ofSigned 32 (-(toSigned 32 (src xs 0)))
    else laneOut i (laneIn i (src xs 0)).neg

/-- The conditions of VCMP (R89, R90): 0 EQ, 1 NE, 2 LT, 3 LE, 4 GT, 5 GE, 6 UNORD; −0 equals +0. Condition 7 is not
defined: its outcome is free. -/
def vcond (cond : Nat) (free : Bool) (nan : Bool) (k : Int) : Bool :=
  match cond with
  | 0 => !nan && decide (k = 0)
  | 1 => nan || decide (k ≠ 0)
  | 2 => !nan && decide (k < 0)
  | 3 => !nan && decide (k ≤ 0)
  | 4 => !nan && decide (0 < k)
  | 5 => !nan && decide (0 ≤ k)
  | 6 => nan
  | _ => free

/-- The outcome of VCMP for an element. Condition 7 is not defined, and a poisoned element is not compared (R44) while masks hold no poison:
both outcomes are free (log 3). -/
def vcmpOut (x : VSt) (i e : Nat) : Bool :=
  let w := fmtBits (vFmt i)
  let p := velem (x.vec (vVa i)) w e
  let q := velem (x.vec (vVb i)) w e
  let k := bits (vImm i) 0 3
  let fr := bitAt (Config.openResult 0x09 p q).toNat 0
  if elemPoison (x.vpoison (vVa i)) 0 w e || elemPoison (x.vpoison (vVb i)) 0 w e then bitAt (Config.openResult 0x109 k e).toNat 0
  else if fmtInt (vFmt i) then vcond k fr false (toSigned 32 p - toSigned 32 q)
  else vcond k fr (laneIn i p == .nan || laneIn i q == .nan) ((laneIn i p).cmp (laneIn i q))

/-- VCMP (R89, R90): the mask bits of every byte of an active element take the outcome. -/
def execVcmp (c : CellAddr) (hw : VHw) (s : State) : Res :=
  vRow 0x09 c hw s fun i s =>
    let a := c.toNat
    let x := s.vst a
    let w := fmtBits (vFmt i)
    let new := packFlags 256 fun b =>
      if vactive (x.mask (vMask i)) 0 w (b * 8 / w) then vcmpOut x i (b * 8 / w) else bitAt (x.mask (vVd i % 8)) b
    s.vChecked a i hw none (fourSlots x (vSkip x i (vFmt i) [vVa i, vVb i])) fun s => s.vDone a ((s.vst a).setMask (vVd i) new)

/-- VSEL (R89): every element is written, from va where the mask selects it, else from vb. -/
def execVsel (c : CellAddr) (hw : VHw) (s : State) : Res :=
  vRow 0x0A c hw s fun i s =>
    let a := c.toNat
    let x := s.vst a
    let w := fmtBits (vFmt i)
    let m := x.mask (vMask i)
    let from' := fun e => if vactive m 0 w e then vVa i else vVb i
    s.vChecked a i hw none (fourSlots x (moveSkip x i (2 ^ 256 - 1) from' id fun _ => false)) fun s =>
      s.vDone a ((s.vst a).write (vVd i) 0 w (vcount w) (2 ^ 256 - 1) (fun e => velem (x.vec (from' e)) w e)
        (fun e => elemPoison (x.vpoison (from' e)) 0 w e))

/-- VMOV (R89). -/
def execVmov (c : CellAddr) (hw : VHw) (s : State) : Res :=
  vRow 0x0B c hw s fun i s => s.vLanes c.toNat i hw [vVa i] fun _ xs => src xs 0

/-- VIADD (R89): modulo 2^32. -/
def execViadd (c : CellAddr) (hw : VHw) (s : State) : Res :=
  vRow 0x10 c hw s fun i s => s.vLanes c.toNat i hw [vVa i, vVb i] (fun _ xs => (src xs 0 + src xs 1) % 2 ^ 32) (some true)

/-- VISUB (R89): modulo 2^32. -/
def execVisub (c : CellAddr) (hw : VHw) (s : State) : Res :=
  vRow 0x11 c hw s fun i s => s.vLanes c.toNat i hw [vVa i, vVb i] (fun _ xs => (src xs 0 + 2 ^ 32 - src xs 1) % 2 ^ 32) (some true)

/-- VIMUL (R89): the low 32 bits. -/
def execVimul (c : CellAddr) (hw : VHw) (s : State) : Res :=
  vRow 0x12 c hw s fun i s => s.vLanes c.toNat i hw [vVa i, vVb i] (fun _ xs => src xs 0 * src xs 1 % 2 ^ 32) (some true)

/-- VAND (R89). -/
def execVand (c : CellAddr) (hw : VHw) (s : State) : Res :=
  vRow 0x13 c hw s fun i s => s.vLanes c.toNat i hw [vVa i, vVb i] fun _ xs => src xs 0 &&& src xs 1

/-- VOR (R89). -/
def execVor (c : CellAddr) (hw : VHw) (s : State) : Res :=
  vRow 0x14 c hw s fun i s => s.vLanes c.toNat i hw [vVa i, vVb i] fun _ xs => src xs 0 ||| src xs 1

/-- VXOR (R89). -/
def execVxor (c : CellAddr) (hw : VHw) (s : State) : Res :=
  vRow 0x15 c hw s fun i s => s.vLanes c.toNat i hw [vVa i, vVb i] fun _ xs => src xs 0 ^^^ src xs 1

/-- VSHL (R89): by vb[4:0]. -/
def execVshl (c : CellAddr) (hw : VHw) (s : State) : Res :=
  vRow 0x16 c hw s fun i s => s.vLanes c.toNat i hw [vVa i, vVb i] fun _ xs => src xs 0 <<< (src xs 1 % 32) % 2 ^ 32

/-- VSHR (R89): logical. -/
def execVshr (c : CellAddr) (hw : VHw) (s : State) : Res :=
  vRow 0x17 c hw s fun i s => s.vLanes c.toNat i hw [vVa i, vVb i] fun _ xs => src xs 0 >>> (src xs 1 % 32)

/-- VSAR (R89): arithmetic. -/
def execVsar (c : CellAddr) (hw : VHw) (s : State) : Res :=
  vRow 0x18 c hw s fun i s => s.vLanes c.toNat i hw [vVa i, vVb i] fun _ xs =>
    ofSigned 32 (toSigned 32 (src xs 0) / (2 ^ (src xs 1 % 32) : Nat))

/-! ### Conversions (R91-R93) -/

/-- Bits of a part of 64 elements of a format. -/
def partBits (fmt : Nat) : Nat := 64 * fmtBits fmt

/-- The random word of an element of a stochastic VCVT (R50, R93). -/
def State.srWord (s : State) (c i e : Nat) : Nat :=
  let ctr := e / 4 + ((s.vst c).srCount % 2 ^ 32) <<< 32 + bits (vImm i) 8 16 <<< 64
  nth (philox ctr (s.srKey c)) (e % 4) 0

/-- VCVT (R91, R93): 64 FP32 slots of va into part imm[1:0] of vd. DESIGN CHOICE (log 126): one with round = 1 counts as a stochastic VCVT
for the generator (R48, R50) also where its target is an integer format, whose results take no random bits. -/
def execVcvt (c : CellAddr) (hw : VHw) (s : State) : Res :=
  vRow 0x20 c hw s fun i s =>
    let a := c.toNat
    let x := s.vst a
    let w := fmtBits (vFmt i)
    let off := bits (vImm i) 0 2 * partBits (vFmt i)
    let val := fun e =>
      let r := if vRound i && !fmtInt (vFmt i) then Rnd.sr (s.srWord a i (off / max w 1 + e)) else .rne
      convElem (vFmt i) r (vSat i) (val32 (velem (x.vec (vVa i)) 32 e))
    s.vChecked a i hw none (fourSlots x (outSkip x i off w 64 (badSlot x (vVa i)))) fun s =>
      let y := (s.vst a).write (vVd i) off w 64 (x.mask (vMask i)) val (fun e => bitAt (x.vpoison (vVa i)) e)
      s.vDone a { y with srCount := if vRound i then y.srCount + 1 else y.srCount }

/-- VCVTW (R91): part imm[1:0] of va widened exactly to FP32. -/
def execVcvtw (c : CellAddr) (hw : VHw) (s : State) : Res :=
  vRow 0x21 c hw s fun i s =>
    let a := c.toNat
    let x := s.vst a
    let w := fmtBits (vFmt i)
    let off := bits (vImm i) 0 2 * partBits (vFmt i)
    s.vChecked a i hw none (fourSlots x fun sl => elemPoison (x.vpoison (vVa i)) off w sl || !vactive (x.mask (vMask i)) 0 32 sl ||
        !(laneIn i (bits (x.vec (vVa i)) (off + sl * w) w)).isFin) fun s =>
      s.vDone a ((s.vst a).write (vVd i) 0 32 64 (x.mask (vMask i))
        (fun e => round32 (laneIn i (bits (x.vec (vVa i)) (off + e * w) w)))
        (fun e => elemPoison (x.vpoison (vVa i)) off w e))

/-- The slots of block b of `k` elements. -/
def blockSlots (k b : Nat) : List Nat := (List.range k).map fun j => b * k + j

/-- Quantise the 64 FP32 slots of va into blocks of `k` (R92): elements into part imm[2:0] of vd, scales into bytes
q p + b of vc. An output depends on every input of its block. -/
def State.vQuant (s : State) (c i : Nat) (hw : VHw) (k : Nat) (q : List Nat → Nat × List Nat) (tPoison : Bool) : State :=
  let x := s.vst c
  let w := fmtBits (vFmt i)
  let p := bits (vImm i) 0 3
  let n := 64 / k
  let m := x.mask (vMask i)
  let blk := (List.range n).map fun b => q ((blockSlots k b).map fun e => velem (x.vec (vVa i)) 32 e)
  let bad := fun b => tPoison || (blockSlots k b).any fun e => bitAt (x.vpoison (vVa i)) e
  let skip := outSkip x i (p * partBits (vFmt i)) w 64 fun e => tPoison || (blockSlots k (e / k)).any (badSlot x (vVa i))
  s.vChecked c i hw none (fourSlots x skip) fun s =>
    let y := (s.vst c).write (vVd i) (p * partBits (vFmt i)) w 64 m
      (fun e => nth (nth blk (e / k) (0, [])).2 (e % k) 0) (fun e => bad (e / k))
    s.vDone c (y.write (vVc i) (8 * n * p) 8 n m (fun b => (nth blk b (0, [])).1) bad)

/-- VQMX (R51, R92): two MX blocks of 32. -/
def execVqmx (c : CellAddr) (hw : VHw) (s : State) : Res :=
  vRow 0x22 c hw s fun i s => s.vQuant c.toNat i hw 32 (quantMx (vFmt i) fun _ => .rne) false

/-- VQB (R52, R92): four blocks of 16, with t from a[vb]. -/
def execVqb (c : CellAddr) (hw : VHw) (s : State) : Res :=
  vRow 0x23 c hw s fun i s =>
    let x := s.vst c.toNat
    s.vQuant c.toNat i hw 16 (quantS16 (vFmt i) (fun _ => .rne) (x.addr (vVb i))) (x.apoison (vVb i))

/-- VDQ (R92): part imm[2:0] of va decoded with scales from vb; B4S16 and B6S16 then multiply by t from a[vc]. -/
def execVdq (c : CellAddr) (hw : VHw) (s : State) : Res :=
  vRow 0x24 c hw s fun i s =>
    let a := c.toNat
    let x := s.vst a
    let w := fmtBits (vFmt i)
    let p := bits (vImm i) 0 3
    let off := p * partBits (vFmt i)
    let k := fmtBlock (vFmt i)
    let n := 64 / max k 1
    let dec := fun e =>
      let sc := velem (x.vec (vVb i)) 8 (n * p + e / max k 1)
      blockElem (vFmt i) (vFtz i) sc (bits (x.vec (vVa i)) (off + e * w) w)
    let val := fun e =>
      let v := dec e
      if fmtS16 (vFmt i) then round32 (v.mul (val32 (x.addr (vVc i)))) else round32 v
    let pois := fun e => elemPoison (x.vpoison (vVa i)) off w e || elemPoison (x.vpoison (vVb i)) 0 8 (n * p + e / max k 1) ||
      (fmtS16 (vFmt i) && x.apoison (vVc i))
    s.vChecked a i hw none (fourSlots x fun sl => pois sl || !vactive (x.mask (vMask i)) 0 32 sl || !(dec sl).isFin) fun s =>
      s.vDone a ((s.vst a).write (vVd i) 0 32 64 (x.mask (vMask i)) val pois)

/-- VITOF (R48, R89). -/
def execVitof (c : CellAddr) (hw : VHw) (s : State) : Res :=
  vRow 0x25 c hw s fun i s => s.vLanes c.toNat i hw [vVa i] fun _ xs => int32ToFp32 (src xs 0)

/-- VFTOI (R48, R89): nearest even, saturating, NaN to 0. With `fmt` BF16 the sources are the first 64 BF16 elements of
va (log 25). -/
def execVftoi (c : CellAddr) (hw : VHw) (s : State) : Res :=
  vRow 0x26 c hw s fun i s =>
    let a := c.toNat
    let x := s.vst a
    let w := fmtBits (vFmt i)
    s.vChecked a i hw none (fourSlots x fun sl => elemPoison (x.vpoison (vVa i)) 0 w sl || !vactive (x.mask (vMask i)) 0 32 sl ||
        !(laneIn i (velem (x.vec (vVa i)) w sl)).isFin) fun s =>
      s.vDone a ((s.vst a).write (vVd i) 0 32 64 (x.mask (vMask i))
        (fun e => (laneIn i (velem (x.vec (vVa i)) w e)).toSat 32) (fun e => elemPoison (x.vpoison (vVa i)) 0 w e))

/-! ### Special functions (R94) -/

/-- A special function in FP32 or BF16 lanes. -/
def State.vFn (s : State) (c i : Nat) (hw : VHw) (f : FFmt → Nat → Nat) : State :=
  s.vLanes c i hw [vVa i] fun _ xs => f (if vFmt i = 0 then .fp32 else .bf16) (src xs 0)

/-- VEXP2 (R94). -/
def execVexp2 (c : CellAddr) (hw : VHw) (s : State) : Res := vRow 0x30 c hw s fun i s => s.vFn c.toNat i hw fnExp2
/-- VLOG2 (R94). -/
def execVlog2 (c : CellAddr) (hw : VHw) (s : State) : Res := vRow 0x31 c hw s fun i s => s.vFn c.toNat i hw fnLog2
/-- VRCP (R94). -/
def execVrcp (c : CellAddr) (hw : VHw) (s : State) : Res := vRow 0x32 c hw s fun i s => s.vFn c.toNat i hw fnRcp
/-- VRSQRT (R94). -/
def execVrsqrt (c : CellAddr) (hw : VHw) (s : State) : Res := vRow 0x33 c hw s fun i s => s.vFn c.toNat i hw fnRsqrt
/-- VTANH (R94). -/
def execVtanh (c : CellAddr) (hw : VHw) (s : State) : Res := vRow 0x34 c hw s fun i s => s.vFn c.toNat i hw fnTanh
/-- VSIGM (R94). -/
def execVsigm (c : CellAddr) (hw : VHw) (s : State) : Res := vRow 0x35 c hw s fun i s => s.vFn c.toNat i hw fnSigm
/-- VGELU (R94). -/
def execVgelu (c : CellAddr) (hw : VHw) (s : State) : Res := vRow 0x36 c hw s fun i s => s.vFn c.toNat i hw fnGelu

/-! ### Reductions (R95) -/

/-- The active elements of va, in order, with their places: FP32 codes of narrower formats. -/
def redElems (x : VSt) (i : Nat) : List (Nat × Bool) :=
  let w := fmtBits (vFmt i)
  (List.range (vcount w)).map fun e =>
    let v := velem (x.vec (vVa i)) w e
    (if vFmt i = 0 ∨ fmtInt (vFmt i) then v else round32 (laneIn i v), vactive (x.mask (vMask i)) 0 w e)

/-- One level of the fixed tree. -/
def treeLevel : List Nat → List Nat
  | a :: b :: xs => fadd32 a b :: treeLevel xs
  | xs => xs

/-- Levels of the fixed tree until one value is left. -/
def treeSum : Nat → List Nat → Nat
  | 0, xs => xs.headD 0
  | n + 1, xs => treeSum n (treeLevel xs)

/-- Whether no active element of a part of a reduction's sources can be compared (R100): none is active, or one is NaN or infinite. -/
def redBad (i : Nat) (es : List (Nat × Bool)) : Bool :=
  let act := es.filter (·.2)
  act.isEmpty || (!fmtInt (vFmt i) && act.any fun p => !(val32 p.1).isFin)

/-- Half of a list: the elements under one of the two inputs of the root. -/
def halfOf (k : Nat) (es : List (Nat × Bool)) : List (Nat × Bool) :=
  if k = 0 then es.take (es.length / 2) else es.drop (es.length / 2)

/-- What the shadow units check of a reduction (R99): the root, from the values of the level below it, which `half` gives, and node n mod 32
of level 1, shown in the slot of its first element. -/
def redSeen (x : VSt) (i : Nat) (half : List (Nat × Bool) → Nat) : List (Nat × Bool) :=
  let w := fmtBits (vFmt i)
  let es := redElems x i
  let m := x.checked % 32
  let pois := fun e => vactive (x.mask (vMask i)) 0 w e && elemPoison (x.vpoison (vVa i)) 0 w e
  let root := (List.range (vcount w)).any pois || es.all (!·.2) ||
    (!fmtInt (vFmt i) && [0, 1].any fun k => !(val32 (half (halfOf k es))).isFin)
  [(0, root), (2 * m * w / 32, pois (2 * m) || pois (2 * m + 1) || redBad i ((es.drop (2 * m)).take 2))]

/-- Write a reduction's result into element 0 of vd and +0 elsewhere (R95). -/
def State.vReduce (s : State) (c i : Nat) (hw : VHw) (half f : List (Nat × Bool) → Nat) (wide : Option Bool := none) : State :=
  let x := s.vst c
  let w := fmtBits (vFmt i)
  let pois := (List.range (vcount w)).any fun e => vactive (x.mask (vMask i)) 0 w e && elemPoison (x.vpoison (vVa i)) 0 w e
  s.vChecked c i hw wide (redSeen x i half) fun s =>
    s.vDone c ((s.vst c).write (vVd i) 0 32 64 (2 ^ 256 - 1) (fun e => if e = 0 then f (redElems x i) else 0)
      (fun e => e == 0 && pois))

/-- The tree of VRSUM over a list of elements; inactive ones enter as −0. -/
def redSum (es : List (Nat × Bool)) : Nat := treeSum 8 (es.map fun p => if p.2 then p.1 else 0x80000000)

/-- VRSUM (R95): a fixed binary tree of FP32 additions; inactive elements enter as −0. -/
def execVrsum (c : CellAddr) (hw : VHw) (s : State) : Res :=
  vRow 0x40 c hw s fun i s => s.vReduce c.toNat i hw redSum redSum

/-- Largest or smallest of the active elements (R95). -/
def redPick (i : Nat) (big : Bool) (es : List (Nat × Bool)) : Nat :=
  let act := (es.filter (·.2)).map (·.1)
  if fmtInt (vFmt i) then
    let vs := act.map (toSigned 32)
    ofSigned 32 (if big then vs.foldl max (-(2 ^ 31)) else vs.foldl min (2 ^ 31 - 1))
  else
    let vs := act.map val32
    round32 (if big then vs.foldl FV.larger (.inf true) else vs.foldl FV.smaller (.inf false))

/-- VRMAX (R95). -/
def execVrmax (c : CellAddr) (hw : VHw) (s : State) : Res :=
  vRow 0x41 c hw s fun i s => s.vReduce c.toNat i hw (redPick i true) (redPick i true)

/-- VRMIN (R95). -/
def execVrmin (c : CellAddr) (hw : VHw) (s : State) : Res :=
  vRow 0x42 c hw s fun i s => s.vReduce c.toNat i hw (redPick i false) (redPick i false)

/-- Whether a code is above another in the order of VRARGMAX: NaN above every number, −0 below +0. -/
def argAbove (i a b : Nat) : Bool :=
  if fmtInt (vFmt i) then decide (toSigned 32 b < toSigned 32 a)
  else match val32 a, val32 b with
    | _, .nan => false
    | .nan, _ => true
    | x, y => y.below x

/-- VRARGMAX (R95): the lowest index wins a tie; 0xFFFF_FFFF with no active element. -/
def execVrargmax (c : CellAddr) (hw : VHw) (s : State) : Res :=
  vRow 0x43 c hw s fun i s => s.vReduce c.toNat i hw (redPick i true) fun es =>
    match foldIdx (fun e (best : Option (Nat × Nat)) (p : Nat × Bool) =>
        if !p.2 then best
        else match best with
          | none => some (e, p.1)
          | some b => if argAbove i p.1 b.2 then some (e, p.1) else some b) 0 none es with
    | some b => b.1
    | none => 2 ^ 32 - 1

/-- VRISUM (R95): modulo 2^32. -/
def execVrisum (c : CellAddr) (hw : VHw) (s : State) : Res :=
  vRow 0x44 c hw s fun i s =>
    s.vReduce c.toNat i hw (fun _ => 0) (fun es => (es.map fun p => if p.2 then p.1 else 0).sum % 2 ^ 32) (some true)

/-! ### Permutes and register moves (R89) -/

/-- An instruction that moves elements of va: element e takes element `place e`; `dep` is what else it depends on. -/
def State.vMove (s : State) (c i : Nat) (hw : VHw) (place : Nat → Nat) (dep : Nat → Bool) : State :=
  let x := s.vst c
  let w := fmtBits (vFmt i)
  s.vChecked c i hw (some false) (fourSlots x (moveSkip x i (x.mask (vMask i)) (fun _ => vVa i) place dep)) fun s =>
    s.vDone c ((s.vst c).write (vVd i) 0 w (vcount w) (x.mask (vMask i)) (fun e => velem (x.vec (vVa i)) w (place e))
      (fun e => dep e || elemPoison (x.vpoison (vVa i)) 0 w (place e)))

/-- VPERM (R89): by the elements of vb, modulo the element count. -/
def execVperm (c : CellAddr) (hw : VHw) (s : State) : Res :=
  vRow 0x48 c hw s fun i s =>
    let x := s.vst c.toNat
    let w := fmtBits (vFmt i)
    s.vMove c.toNat i hw (fun e => velem (x.vec (vVb i)) w e % vcount w) (fun e => elemPoison (x.vpoison (vVb i)) 0 w e)

/-- VROT (R89). -/
def execVrot (c : CellAddr) (hw : VHw) (s : State) : Res :=
  vRow 0x49 c hw s fun i s => s.vMove c.toNat i hw (fun e => (e + vImm i) % vcount (fmtBits (vFmt i))) fun _ => false

/-- VBCAST (R89). -/
def execVbcast (c : CellAddr) (hw : VHw) (s : State) : Res :=
  vRow 0x4A c hw s fun i s => s.vMove c.toNat i hw (fun _ => vImm i % vcount (fmtBits (vFmt i))) fun _ => false

/-- VSPLAT (R89): every slot takes a[va]. -/
def execVsplat (c : CellAddr) (hw : VHw) (s : State) : Res :=
  vRow 0x4B c hw s fun i s =>
    let a := c.toNat
    let x := s.vst a
    let w := fmtBits (vFmt i)
    let pat := packBits 64 32 fun _ => x.addr (vVa i)
    s.vChecked a i hw (some false) (fourSlots x fun sl => x.apoison (vVa i) || (indices (vcount w) fun e => inSlot 0 w e sl).all
        fun e => !vactive (x.mask (vMask i)) 0 w e) fun s =>
      s.vDone a ((s.vst a).write (vVd i) 0 w (vcount w) (x.mask (vMask i)) (fun e => velem pat w e)
        (fun _ => x.apoison (vVa i)))

/-- VEXT (R89): a[vd] takes slot imm[5:0] of va. -/
def execVext (c : CellAddr) (hw : VHw) (s : State) : Res :=
  vRow 0x4C c hw s fun i s =>
    let a := c.toNat
    let x := s.vst a
    let sl := bits (vImm i) 0 6
    s.vChecked a i hw (some false) (fourSlots x fun sl => bitAt (x.vpoison (vVa i)) sl) fun s =>
      s.vDone a ((s.vst a).setAddr (vVd i) (velem (x.vec (vVa i)) 32 sl) (bitAt (x.vpoison (vVa i)) sl))

/-- VMLOG (R89): 0 AND, 1 OR, 2 XOR, 3 AND-NOT. -/
def execVmlog (c : CellAddr) (hw : VHw) (s : State) : Res :=
  vRow 0x4D c hw s fun i s =>
    let a := c.toNat
    let x := s.vst a
    let p := x.mask (vVa i % 8)
    let q := x.mask (vVb i % 8)
    let r := match bits (vImm i) 0 2 with
      | 0 => p &&& q
      | 1 => p ||| q
      | 2 => p ^^^ q
      | _ => p &&& (q ^^^ (2 ^ 256 - 1))
    s.vDone a ((s.vst a).setMask (vVd i) r)

/-! ### Memory (R96) -/

/-- A bank address from an address register and the immediate, modulo 2^32. -/
def vAddress (x : VSt) (i : Nat) : Nat := (x.addr (vVa i) + vImm i) % 2 ^ 32

/-- Poison bits of 64 slots from the poison of 8 granules. -/
def granSlots (gs : List Gran) (sl : Nat) : Bool := (nth gs (sl / 8) ⟨[], false⟩).poison

/-- VLD (R96). -/
def execVld (c : CellAddr) (hw : VHw) (s : State) : Res :=
  vRow 0x50 c hw s fun i s =>
    let a := c.toNat
    let x := s.vst a
    let o := vAddress x i
    let w := fmtBits (vFmt i)
    if x.apoison (vVa i) then s.programFault a 0x05
    else match s.bankCause a o 256 32 with
      | some k => s.programFault a k
      | none =>
        let r := s.readRun a o 8 hw.ecc
        let v := ofLE (gransBytes r.1)
        r.2.vDone a ((r.2.vst a).write (vVd i) 0 w (vcount w) (x.mask (vMask i)) (fun e => velem v w e)
          (fun e => granSlots r.1 ((e * w) / 32) || granSlots r.1 ((e * w + w - 1) / 32)))

/-- Store part of a vector (R87, R96, R130): granule by granule, the active bytes; a poisoned slot makes a poisoned
word, and a word written in part keeps its other bytes. -/
def State.vStoreGran (s : State) (c o : Nat) (g : Nat) (v : Nat) (pois : Nat → Bool) (act : Nat → Bool) (ecc : List EccEvent) :
    State :=
  let bytes := (List.range 32).map fun b => (act (32 * g + b), BitVec.ofNat 8 (bits v (8 * (32 * g + b)) 8))
  let bad := (List.range 8).any fun k => pois (8 * g + k) && (List.range 4).any fun b => act (32 * g + 4 * k + b)
  if bytes.all (·.1) then s.writeWord c (o + 32 * g) ⟨bytes.map (·.2), bad⟩
  else if bytes.any (·.1) then
    let r := s.readWord c (o + 32 * g) 0 ecc
    let new := foldIdx (fun b acc (p : Bool × Byte) => acc ++ [if p.1 then p.2 else nth r.1.data b 0]) 0 [] bytes
    if bad ∨ r.1.poison then r.2.writeWord c (o + 32 * g) ⟨r.1.data, true⟩ else r.2.writeWord c (o + 32 * g) ⟨new, false⟩
  else s

/-- VST (R96). -/
def execVst (c : CellAddr) (hw : VHw) (s : State) : Res :=
  vRow 0x51 c hw s fun i s =>
    let a := c.toNat
    let x := s.vst a
    let o := vAddress x i
    let w := fmtBits (vFmt i)
    let m := x.mask (vMask i)
    if x.apoison (vVa i) then s.programFault a 0x05
    else match s.bankCause a o 256 32 with
      | some k => s.programFault a k
      | none =>
        let s := (List.range 8).foldl (fun s g =>
          s.vStoreGran a o g (x.vec (vVd i)) (bitAt (x.vpoison (vVd i))) (fun b => vactive m 0 w (8 * b / max w 1)) hw.ecc) s
        s.vDone a (s.vst a)

/-- The lanes of a gather or scatter that act: active slots whose offset is not poisoned. -/
def gatherLanes (x : VSt) (i : Nat) : List Nat :=
  indices 64 fun sl => vactive (x.mask (vMask i)) 0 32 sl && !bitAt (x.vpoison (vVb i)) sl

/-- The address of a lane. -/
def laneAddress (x : VSt) (i sl : Nat) : Nat := (x.addr (vVa i) + velem (x.vec (vVb i)) 32 sl) % 2 ^ 32

/-- The first cause among the lanes' addresses. -/
def State.laneCause (s : State) (c : Nat) (x : VSt) (i : Nat) : Option Nat :=
  if x.apoison (vVa i) then some 0x05
  else (gatherLanes x i).findSome? fun sl => s.bankCause c (laneAddress x i sl) 4 4

/-- Read one 32-bit word: its value and poison. -/
def State.read32 (s : State) (c o : Nat) (ecc : List EccEvent) : Nat × Bool × State :=
  let r := s.readPart c o ecc
  (ofLE (r.1.take 4), r.2.1, r.2.2)

/-- VGATH (R96): a lane whose offset is poisoned gives a poisoned slot, whose value is free
(log 3). -/
def execVgath (c : CellAddr) (hw : VHw) (s : State) : Res :=
  vRow 0x52 c hw s fun i s =>
    let a := c.toNat
    let x := s.vst a
    match s.laneCause a x i with
    | some k => s.programFault a k
    | none =>
      let r := (gatherLanes x i).foldl (fun (acc : SMap (Nat × Bool) × State) sl =>
        let q := acc.2.read32 a (laneAddress x i sl) hw.ecc
        (SMap.put acc.1 sl (q.1, q.2.1), q.2.2)) ([], s)
      let got := fun sl => SMap.getD r.1 sl (openLane 0x52 (x.addr (vVa i)) sl, true)
      r.2.vResidue a i hw fun s =>
        s.vDone a ((s.vst a).write (vVd i) 0 32 64 (x.mask (vMask i)) (fun e => (got e).1) (fun e => (got e).2))

/-- VSCAT (R96): in rising lane order, so that the higher lane's value lands; poisoned offsets write nothing and are
counted. -/
def execVscat (c : CellAddr) (hw : VHw) (s : State) : Res :=
  vRow 0x53 c hw s fun i s =>
    let a := c.toNat
    let x := s.vst a
    match s.laneCause a x i with
    | some k => s.programFault a k
    | none =>
      let skipped := (indices 64 fun sl => vactive (x.mask (vMask i)) 0 32 sl && bitAt (x.vpoison (vVb i)) sl).length
      let s := s.inc (Reg.VC_CK_COUNTS_skip_count a) skipped
      s.vResidue a i hw fun s =>
        let s := (gatherLanes x i).foldl (fun s sl =>
          s.writePart a (laneAddress x i sl) (toLE 4 (velem (x.vec (vVc i)) 32 sl)) (bitAt (x.vpoison (vVc i)) sl) hw.ecc) s
        s.vDone a (s.vst a)

/-! ### Queues and cues (R97) -/

/-- Endpoint of a queue instruction. -/
def vEp (i : Nat) : Nat := bits (vImm i) 0 5

/-- VRECV (R97): the next message, or a wait; a message longer than 256 B is program fault 0x07. -/
def execVrecv (c : CellAddr) (hw : VHw) (s : State) : Res :=
  vRow 0x58 c hw s fun i s =>
    let a := c.toNat
    let x := s.vst a
    let n := vEp i
    match s.recvCause a n false with
    | some k => s.programFault a k
    | none =>
      if !s.hasMsg a n then s.waitRecv a n
      else if 8 < s.headLen a n then s.programFault a 0x07
      else
        let r := s.readHead a n hw.ecc
        if r.2.fenced a then r.2
        else
          let s := r.2.consume a n r.1
          let w := fmtBits (vFmt i)
          let v := ofLE (gransBytes r.1)
          let y := (s.vst a).write (vVd i) 0 w (vcount w) (x.mask (vMask i)) (fun e => velem v w e)
            (fun e => granSlots r.1 ((e * w) / 32) || granSlots r.1 ((e * w + w - 1) / 32))
          s.vDone a (y.setAddr (vVa i) (32 * r.1.length) false)

/-- Granules of a vector register. -/
def vecGrans (x : VSt) (r k : Nat) : List Gran :=
  (List.range k).map fun g => ⟨toLE 32 (bits (x.vec r) (256 * g) 256), bits (x.vpoison r) (8 * g) 8 != 0⟩

/-- VSEND (R97): the first granules of vd, or a wait for credit. -/
def execVsend (c : CellAddr) (hw : VHw) (s : State) : Res :=
  vRow 0x59 c hw s fun i s =>
    let a := c.toNat
    let n := vEp i
    let k := if bits (vImm i) 5 4 = 0 then 8 else bits (vImm i) 5 4
    match s.sendCause a n k with
    | some e => s.programFault a e
    | none =>
      let r := s.epSend a n (vecGrans (s.vst a) (vVd i) k)
      if r.1 then r.2.vDone a (r.2.vst a) else r.2.engineWait a (.queue n)

/-- VCUEW (R97): the next cue, or a wait. -/
def execVcuew (c : CellAddr) (hw : VHw) (s : State) : Res :=
  vRow 0x5A c hw s fun i s =>
    let a := c.toNat
    let n := vEp i
    match s.recvCause a n true with
    | some k => s.programFault a k
    | none =>
      if !s.hasMsg a n then s.waitRecv a n
      else
        let v := (s.headCue a n).1
        let q := s.readCue a n hw.ecc
        if q.2.fenced a then q.2
        else
          let s := q.2.takeCue a n
          s.vDone a ((s.vst a).setAddr (vVd i) v q.1)

/-- VCUEP (R97): a[va] is posted, or a wait for credit. -/
def execVcuep (c : CellAddr) (hw : VHw) (s : State) : Res :=
  vRow 0x5B c hw s fun i s =>
    let a := c.toNat
    let x := s.vst a
    let n := vEp i
    if x.apoison (vVa i) then s.programFault a 0x05
    else match s.cueCause a n with
      | some k => s.programFault a k
      | none =>
        let r := s.cueSend a n (x.addr (vVa i))
        if r.1 then r.2.vDone a (r.2.vst a) else r.2.engineWait a (.queue n)

/-! ### Address registers and control (R89, R97) -/

/-- The immediate, sign-extended. -/
def vSimm (i : Nat) : Int := toSigned 24 (vImm i)

/-- VAMOV (R89). -/
def execVamov (c : CellAddr) (hw : VHw) (s : State) : Res :=
  vRow 0x60 c hw s fun i s => s.vResidue c.toNat i hw fun s =>
    s.vDone c.toNat ((s.vst c.toNat).setAddr (vVd i) (ofSigned 32 (vSimm i)) false)

/-- VAADD (R89): modulo 2^32. -/
def execVaadd (c : CellAddr) (hw : VHw) (s : State) : Res :=
  vRow 0x61 c hw s fun i s =>
    let x := s.vst c.toNat
    s.vResidue c.toNat i hw fun s =>
      s.vDone c.toNat ((s.vst c.toNat).setAddr (vVd i) (ofSigned 32 ((x.addr (vVa i) : Int) + vSimm i)) (x.apoison (vVa i)))

/-- VLOOP (R97): nested at most four deep; a count of 0 skips the body, as if its last instruction were done. -/
def execVloop (c : CellAddr) (hw : VHw) (s : State) : Res :=
  vRow 0x62 c hw s fun i s =>
    let a := c.toNat
    let x := s.vst a
    let pc := (s.cell a).eng.pc
    let len := bits (vImm i) 0 9
    let cnt := x.addr (vVa i)
    if x.apoison (vVa i) then s.programFault a 0x05
    else if cnt = 0 ∨ len = 0 then
      let r := loopNext (pc + len) x.loops
      (s.modCell a fun y => { y with v := { y.v with loops := r.2 } }).engineAt a r.1
    else if 4 ≤ x.loops.length then s.programFault a 0x04
    else (s.modCell a fun y => { y with v := { y.v with loops := (pc + 1, pc + len, cnt) :: y.v.loops } }).engineAt a (pc + 1)

/-- VBR (R89). -/
def execVbr (c : CellAddr) (hw : VHw) (s : State) : Res :=
  vRow 0x63 c hw s fun i s => s.vJump c.toNat (s.vst c.toNat) ((s.cell c.toNat).eng.pc + vSimm i)

/-- VBNZ (R89). -/
def execVbnz (c : CellAddr) (hw : VHw) (s : State) : Res :=
  vRow 0x64 c hw s fun i s =>
    let a := c.toNat
    let x := s.vst a
    if x.apoison (vVa i) then s.programFault a 0x05
    else if x.addr (vVa i) ≠ 0 then s.vJump a x ((s.cell a).eng.pc + vSimm i)
    else s.vDone a x

/-- VEND (R89, R211, R213): the end of this beat's program; the loop stack is left. -/
def execVend (c : CellAddr) (hw : VHw) (s : State) : Res :=
  vRow 0x65 c hw s fun _ s => (s.modCell c.toNat fun y => { y with v := { y.v with loops := [] } }).beatEnd c.toNat hw.ecc

end Sys2Proof.Machine
end

