-- ==== Sys2Proof/Machine/Views.lean ====
section
/-! DEFINITION. Register words that show other state (R102, R143, R204, R265, R403, R428, R429, R355), and the hang
snapshot (R299-R301). -/

namespace Sys2Proof.Machine

/-! ### Endpoints (R204) -/

/-- Granules or entries a receiving endpoint holds, queue and wings together. -/
def State.held (s : State) (c n : Nat) : Nat :=
  let e := s.ep c n
  if epKind e.cfg = 2 then ((s.aux c n).slots.filter fun p => p.2.count ≠ 0).length * (2 ^ epSlotLog e.cfg / 32)
  else ((e.recs ++ e.wing).map (·.n)).sum

/-- `fill` of an endpoint: what a receiver holds, or the credit a sender has not had back. -/
def State.fill (s : State) (c n : Nat) : Nat :=
  let e := s.ep c n
  if epSends e.cfg then
    let r := s.peerRec c n
    if epKind e.cfg = 2 then epItem e.cfg e.msgNo + epSlots e.cfg - e.limit
    else (if r = 0 then 2 ^ 16 else epStorage r + epWingGran r) - e.credit
  else s.held c n

/-- Tag of the next message or cue of an endpoint. -/
def State.nextTag (s : State) (c n : Nat) : Nat :=
  let e := s.ep c n
  (if epSends e.cfg then e.msgNo else if s.hasMsg c n && epKind e.cfg != 2 then (s.headRec c n).num else e.conNo) % 256

/-- `EP_STATE` of an endpoint (R204); zero when it is unused. -/
def State.epStateWord (s : State) (c n : Nat) : Nat :=
  let e := s.ep c n
  let r := e.cfg
  if !cellValid c ∨ epKind r = 0 then 0
  else epKind r + (b2n (epSends r)) <<< 2 + (b2n (epGate r)) <<< 3 + (b2n (e.stalled.isSome || (s.aux c n).timeout.isSome)) <<< 4 + (b2n (epOpen r)) <<< 5 +
    (min (s.fill c n) (2 ^ 15 - 1)) <<< 6 + (s.nextTag c n) <<< 21 + e.handle <<< 32

/-- `EP_COUNT` of an endpoint (R203, R204): the counts it keeps. -/
def State.epCountWord (s : State) (c n k : Nat) : Nat :=
  let e := s.ep c n
  if !cellValid c ∨ epKind e.cfg = 0 then 0
  else match k with
    | 0 => if epSends e.cfg then e.sent else 0
    | 1 => if epSends e.cfg then 0 else e.got
    | 2 => if epSends e.cfg then s.stallCount c n else 0
    | 3 => if epSends e.cfg then 0 else s.starveCount c n
    | _ => e.dropped

/-- Cell of index b × 7 + c in a region. -/
def cellOfIndex (g i : Nat) : Nat := if i < 56 then (g / 12) <<< 12 + (g % 12) <<< 8 + (i / 7) <<< 5 + i % 7 else 0xFFFF

/-- `ENG_STATUS` of a V-cell or S-cell (R102). -/
def State.engWord (s : State) (c : Nat) : Nat :=
  let e := (s.cell c).eng
  e.pc % 2 ^ 12 + (if s.fenced c then 6 else e.run) <<< 12 + e.cause <<< 16 +
    (if engineOf c = .s then min e.lockstep 65535 else 0) <<< 24 + (e.beats % 2 ^ 24) <<< 40

/-- `PORTER_STATUS` (R265). -/
def State.porterWord (s : State) (p : Nat) : Nat :=
  let x := SMap.getD s.hub.porters p PorterSt.init
  let st := if x.run.isSome then 1 else match x.queue with
    | d :: _ => if d.fence ∨ d.op = 3 then 2 else 0
    | [] => 0
  setBits (setBits (s.reg (0x30000 + p * 0x10)) 0 9 (min x.queue.length 256)) 9 2 st

/-- `SP_REPAIR_DATA`: the spare that `SP_REPAIR_SEL` names (R143). -/
def State.repairWord (s : State) (g : Nat) : Nat :=
  let c := cellOfIndex g (s.get (Reg.SP_REPAIR_SEL_cell g))
  let k := s.get (Reg.SP_REPAIR_SEL_bank g)
  if cellValid c ∧ k < bankCount c then
    match (s.bank c k).repairs.find? fun r => r.spare == s.get (Reg.SP_REPAIR_SEL_entry g) with
    | some r => 1 + (b2n r.col) <<< 1 + r.target <<< 2 + r.source <<< 15 + (b2n r.burnPending) <<< 17 + (b2n r.burned) <<< 18
    | none => 0
  else 0

/-- The burn policy in force: 1 while no owner is enrolled (R355, R415). -/
def State.burnAllowed (s : State) : Bool := !s.flag Reg.DOR_STATUS_owner_enrolled || s.flag Reg.DOR_STATUS_burn_allowed

/-- A register word of a region window that shows other state. -/
def State.winView (s : State) (g o : Nat) : Option Nat :=
  let c := cellOfIndex g (s.get (Reg.EP_SEL_cell g))
  let n := s.get (Reg.EP_SEL_endpoint g)
  let blk := regionBlocks g
  if o = 0x6000 then
    let f := s.fcode g
    some (setBits (setBits (s.reg (winBase g + 0x6000)) 3 4 f) 7 1
      (b2n (decide (0 < s.get Reg.POWER_STATUS_power_step) && s.get Reg.POWER_STATUS_power_step == f)))
  else if o = 0x7008 then some (s.epStateWord c n)
  else if 0x7010 ≤ o ∧ o < 0x7038 then some (s.epCountWord c n ((o - 0x7010) / 8))
  else if o = 0x9008 then some (s.repairWord g)
  else if 0x8800 ≤ o ∧ o < 0x8C00 ∧ o % 0x40 = 0x18 then
    some (s.engWord (nth blk ((o - 0x8800) / 0x80) 0 * 32 + 4 + (o - 0x8800) / 0x40 % 2))
  else if 0x8C00 ≤ o ∧ o < 0x8E00 ∧ o % 0x40 = 0 then some (s.engWord (nth blk ((o - 0x8C00) / 0x40) 0 * 32 + 6))
  else none

/-- The word a register reads as. -/
def State.view (s : State) (off : Nat) : Nat :=
  if off = 0x410 then s.now
  else if off = 0x108 then setBits (s.reg off) 13 1 (b2n s.burnAllowed)
  else if off = 0x110 then setBits (s.reg off) 32 32 s.maps.coldStarts
  else if 0x30000 ≤ off ∧ off < 0x30400 ∧ off % 0x10 = 0 then s.porterWord ((off - 0x30000) / 0x10)
  else if off = 0x200000 then setBits (s.reg off) 3 1 (b2n s.burnAllowed)
  else if 0x200040 ≤ off ∧ off < 0x200080 then ofLE ((s.dor.digest.drop (off - 0x200040)).take 8)
  else if off = 0x40010 then setBits (s.reg off) 0 7 (0x60 + s.pins.sampled)
  else if 0x2000000 ≤ off ∧ off < 0x2900000 then
    (s.winView ((off - 0x2000000) / 0x10000) (off % 0x10000)).getD (s.reg off)
  else s.reg off

/-! ### The hang snapshot (R299-R301) -/

/-- Physical cell at an index of the cast order; 0xFFFF at hub positions. -/
def cellAtIndex (i : Nat) : Nat :=
  if cellValid (castCell i) then castCell i else 0xFFFF

/-- Section 0: barrier records and root flag words. -/
def State.snapBarriers (s : State) : List Byte :=
  let root := fun (k : Nat) => s.mesh.xr.findSome? fun p =>
    match SMap.get? p.2.combine k with
    | some e => if e.parent = 15 then some (p.1, e) else none
    | none => none
  let members := fun (o : Nat) => (s.mesh.xr.map fun p => match SMap.get? p.2.combine (combKey false o) with
    | some e => ((List.range 7).filter fun k => bitAt e.childMask (4 + k)).length
    | none => 0).sum
  let here := fun (o par : Nat) => (s.cells.filter fun p => match SMap.get? p.2.bars o with
    | some b => b.done < b.arrived && (b.arrived + 1) % 2 == par
    | none => false).length
  let bars := (List.range 4096).flatMap fun o => toLE 8 (match root (combKey false o) with
    | some (_, e) => 1 + e.parity <<< 1 + (here o e.parity) <<< 16 + (members o) <<< 32
    | none => 0)
  let flags := (List.range 4096).flatMap fun o => toLE 8 (match root (combKey true o) with
    | some (b, _) => SMap.getD (s.xr b).flags o 0
    | none => 0)
  bars ++ flags

/-- The 64 B of a descriptor. -/
def Desc.bytes (d : Desc) : List Byte := padTo 64 (d.words.flatMap fun w => toLE 8 w)

/-- Section 1: porters. -/
def State.snapPorters (s : State) : List Byte :=
  (List.range 64).flatMap fun p =>
    let x := SMap.getD s.hub.porters p PorterSt.init
    padTo 32768 (padTo 64 (toLE 8 (s.porterWord p) ++ toLE 8 x.moved) ++ padTo 960 ((x.run.map Desc.bytes).getD []) ++
      x.queue.flatMap Desc.bytes)

/-- Head and tail granule of an endpoint. -/
def State.epMarks (s : State) (c n : Nat) : Nat × Nat :=
  let e := s.ep c n
  if epSends e.cfg then (0, e.tail) else ((e.recs.head?.map (·.pos)).getD e.rtail, e.rtail)

/-- Strip of the sample of a bank (R299). -/
def State.sampleStrip (s : State) (c k : Nat) : Nat := SMap.getD s.mem.lastStrip (bankKey c k) 0

/-- Whether a cell gives samples: not fenced, its region not dark. -/
def State.samples (s : State) (c : Nat) : Bool := !s.fenced c && s.get (Reg.REGION_THERMAL_tstate (gOf c)) < 2

/-- Table 12.5: the record of a cell. `bad` marks sampled words that were uncorrectable. -/
def State.snapCell (s : State) (bad : List Nat) (c : Nat) : List Byte :=
  let x := s.cell c
  let m := x.m
  let loops := if m.phase = .idle then 0 else m.desc % 64 + m.mIdx <<< 6 + m.nIdx <<< 22 + m.kIdx <<< 38
  let head := toLE 2 c ++ toLE 2 (s.logicalOf c) ++ toLE 1 (match x.scene.cur with | some im => im.sceneNo | none => 0) ++
    toLE 1 (if s.fenced c then 6 else x.eng.run) ++ toLE 1 x.eng.cause ++ toLE 1 (s.get (Reg.CELL_EPOCH_fence_cause c)) ++
    toLE 8 x.eng.beats ++ toLE 8 x.eng.progress ++ toLE 8 (if engineOf c = .m then loops else 0)
  let eps := (List.range 32).flatMap fun n =>
    let e := s.ep c n
    let a := s.aux c n
    padTo 32 (toLE 8 (s.epStateWord c n) ++ toLE 4 (s.epMarks c n).1 ++ toLE 4 (s.epMarks c n).2 ++
      toLE 4 ((e.wing.map (·.n)).sum) ++ toLE 4 a.gateTag ++ toLE 4 a.base)
  let wins := (List.range 8).flatMap fun n => padTo 16 (match SMap.get? x.grants.wins n with
    | some w => toLE 8 ((match w.st with | .free => 0 | .granted => 1 | .filled => 2) + w.writer <<< 16 + w.landed <<< 32)
    | none => [])
  let regs := match engineOf c with
    | .s => ((List.range 32).flatMap fun k => toLE 8 (SSt.reg x.sc k)) ++ toLE 4 x.sc.gp ++ toLE 1 x.sc.p
    | .v => ((List.range 16).flatMap fun k => toLE 4 (VSt.addr x.v k)) ++
        x.v.loops.flatMap fun l => toLE 4 l.1 ++ toLE 4 l.2.1 ++ toLE 4 l.2.2
    | .m => []
  let sample := (List.range 6).flatMap fun k =>
    if k < bankCount c ∧ s.samples c then
      let o := k * 0x100000 + s.sampleStrip c k * 4096
      let marks := (List.range 128).foldl (fun a i => a + (b2n (s.mem.spPoison.contains (spWord c (o + 32 * i)) ||
        bad.contains (spWord c (o + 32 * i)))) <<< i) 0
      toLE 4 (s.sampleStrip c k * 4096) ++ toLE 4 0 ++ toLE 16 marks
    else toLE 4 0xFFFFFFFF ++ toLE 20 0
  padTo 2048 (padTo 64 head ++ eps ++ padTo 128 wins ++ padTo 512 regs ++ sample)

/-- Section 2: cell records. -/
def State.snapCells (s : State) (bad : List Nat) : List Byte :=
  (List.range 8064).flatMap fun i => if cellAtIndex i = 0xFFFF then List.replicate 2048 0 else s.snapCell bad (cellAtIndex i)

/-- Section 3: V-cell registers. -/
def State.snapVregs (s : State) : List Byte :=
  (List.range 2304).flatMap fun i =>
    let c := cellAtIndex (i / 2 * 7 + 4 + i % 2)
    let x := s.vst c
    if c = 0xFFFF then List.replicate 16384 0
    else padTo 16384 (((List.range 32).flatMap fun k => toLE 256 (x.vec k)) ++
      padTo 256 ((List.range 32).flatMap fun k => toLE 8 (x.vpoison k)) ++ (List.range 8).flatMap fun k => toLE 32 (x.mask k))

/-- The sampled strips: strip number o of a block is bank k of cell c (Table 12.3). -/
def stripPlace (i : Nat) : Nat × Nat :=
  let o := i % 34
  let b := cellAtIndex (i / 34 * 7)
  if b = 0xFFFF then (0xFFFF, 0)
  else if o < 24 then (b + o / 6, o % 6) else if o < 32 then (b + 4 + (o - 24) / 4, o % 4) else (b + 6, o - 32)

/-- Section 4: read every sampled strip through the visitor ports; an uncorrectable word is zeros, and a fence condition. -/
def State.snapStrips (s : State) (ecc : List EccEvent) : List Byte × State :=
  (List.range 39168).foldl (fun a i =>
    let p := stripPlace i
    if p.1 = 0xFFFF ∨ !a.2.samples p.1 then (a.1 ++ List.replicate 4096 0, a.2)
    else
      let r := a.2.readWords p.1 (p.2 * 0x100000 + a.2.sampleStrip p.1 p.2 * 4096) 4 ecc 128
      (a.1 ++ r.1.flatMap (fun g => if g.poison then List.replicate 32 0 else g.data), r.2)) ([], s)

/-- Device address of the snapshot region. -/
def snapAt : Nat := 0x01AE18000000

/-- Offset and length of the sections (Table 12.3). -/
def snapSections : List (Nat × Nat) :=
  [(0x1000, 0x10000), (0x100000, 0x200000), (0x400000, 0xFC0000), (0x1400000, 0x2400000), (0x4000000, 0x9900000)]

/-- Table 12.4, bytes 0-255: version, cause, number, time, act, digest, content. -/
def State.snapHead (s : State) (content : Nat) : List Byte :=
  padTo 256 (toLE 4 1 ++ toLE 4 s.rcv.snapCause ++ toLE 8 (s.rcv.snapNumber + s.rcv.snapRandom <<< 32) ++
    toLE 8 s.rcv.snapTime ++ toLE 8 s.rcv.snapAct ++ padTo 64 s.pkgDigest ++ toLE 1 content)

/-- Write the snapshot (R299, R300): the header alone without a job key; else every section encrypted, with its tag. -/
def State.writeSnapshot (s : State) (ecc : List EccEvent) : State :=
  let s := s.modRcv fun r => { r with snapNumber := (r.snapNumber + 1) % 2 ^ 32 }
  match s.dor.jobKey with
  | none => (s.request 0 4 0 4096).writeDram snapAt (padTo 4096 (s.snapHead 0)) false [] 65
  | some k =>
    let key := shake256 32 (k ++ ascii "GN140-SNAPSHOT")
    let bad := (ecc.filter fun e => e.bit.isNone).map (·.word)
    let head := s.snapHead 1
    let r := s.snapStrips ecc
    let secs := [s.snapBarriers, s.snapPorters, s.snapCells bad, s.snapVregs, r.1]
    let enc := foldIdx (fun i a x => a ++ [Config.aesGcm key (toLE 8 (s.rcv.snapNumber + s.rcv.snapRandom <<< 32) ++ toLE 4 i) head x])
      0 [] secs
    let table := foldIdx (fun i a p => a ++ toLE 8 p.1 ++ toLE 8 p.2 ++ padTo 16 (nth enc i ([], [])).2) 0 [] snapSections
    let s := (r.2.request 0 4 0 (4096 + (snapSections.map (·.2)).sum)).writeDram snapAt (padTo 4096 (head ++ table)) false [] 65
    let s := foldIdx (fun i s p => s.writeDram (snapAt + p.1) (padTo p.2 (nth enc i ([], [])).1) false [] (p.2 / 64 + 1)) 0 s snapSections
    s.set Reg.RECOVERY_STATUS_snapshot_valid 1

/-- SNAPSHOT_DONE (R299): the snapshot is complete; the compute reset follows (R303). -/
def execSnapshotDone (ecc : List EccEvent) (s : State) : Res :=
  .next (if s.isIn .recovering && s.get Reg.RECOVERY_STATUS_phase == 1 then
    ((s.writeSnapshot ecc).set Reg.RECOVERY_STATUS_phase 3).modRcv fun r => { r with boundAt := s.now }
  else s)

end Sys2Proof.Machine
end

