-- ==== Sys2Proof/Machine/Detect.lean ====
section
/-! DEFINITION. Cue gates (R193-R195), hang detection (R201, R202, R295), act curtains as they pass, fence removal (R17),
refills (R207, R215), Paired service's comparisons and tallies (R281-R283), and the cairn flash
(R289). -/

namespace Sys2Proof.Machine

/-! ### Cue gates -/

/-- A cue-mismatch fault (R195): the gate stops, a cell fault is raised, the act in progress is aborted. -/
def State.gateFault (s : State) (c n : Nat) : State :=
  ((s.modAux c n fun a => { a with gateStopped := true }).cellFault c 6).abortAct

/-- The gate at endpoint n has stepped: the next cue's tag is expected, its timer stops and its cue timeout ends (R194, R200). -/
def State.gatePassed (s : State) (c n : Nat) : State :=
  (s.modAux c n fun a => { a with gateTag := (a.gateTag + 1) % 256, skewSince := none, timeout := none }).watch

/-- One side of a gate waits for the other (R194): its timer runs from the moment that side began to wait. `data`: the data waits. -/
def State.gateWaits (s : State) (c n : Nat) (data : Bool) : State :=
  s.modAux c n fun a =>
    { a with skewSince := some (if a.skewData = data then a.skewSince.getD s.now else s.now), skewData := data }

/-- The gate's timer stops: no side waits, or the destination has no credit. -/
def State.gateQuiet (s : State) (c n : Nat) : State := s.modAux c n fun a => { a with skewSince := none }

/-- The gate reads its cue as it consumes it, and goes on; a cue that reads as poison names no port, and faults (log 127). -/
def State.gateCue (s : State) (c n cue : Nat) (ecc : List EccEvent) (go : State → State) : State :=
  let r := s.readCue c cue ecc
  if r.2.fenced c then r.2
  else if r.1 then r.2.gateFault c n
  else ((go r.2).takeCue c cue).gatePassed c n

/-- Move the item at `src` to `dst`, if the destination has credit, and consume its cue (R194). -/
def State.gateMove (s : State) (c n cue src dst : Nat) (ecc : List EccEvent) : State :=
  let t := s.epSend c dst (s.peekHead c src)
  if t.1 then
    let g := s.readHead c src ecc
    if g.2.fenced c then g.2
    else g.2.gateCue c n cue ecc fun s => (s.epSend c dst g.1).2.consume c src g.1
  else t.2.gateQuiet c n

/-- A step of the gate of endpoint n (Table 7.5). -/
def State.gateStep (s : State) (c n : Nat) (ecc : List EccEvent) : State :=
  let r := (s.ep c n).cfg
  let cue := epGateCue r
  let data := if epMerge r then (List.range (epGateN r + 1)).any fun i => s.hasMsg c (epGatePort r i) else s.hasMsg c n
  if s.hasMsg c cue then
    let v := (s.headCue c cue).1
    let tag := (s.headCue c cue).2
    if tag ≠ (s.aux c n).gateTag ∨ epGateN r < v % 4 then s.gateFault c n
    else
      let src := if epMerge r then epGatePort r (v % 4) else n
      let dst := if epMerge r then n else epGatePort r (v % 4)
      if !s.hasMsg c src then s.gateWaits c n false
      else if !epMerge r ∧ (s.headRec c n).num % 256 ≠ tag then s.gateFault c n
      else if bitAt v 2 then s.gateCue c n cue ecc fun s => s.consume c src (s.peekHead c src)
      else s.gateMove c n cue src dst ecc
  else if data then s.gateWaits c n true
  else s.gateQuiet c n

/-- GATE_STEP (R193-R195). -/
def execGateStep (c : CellAddr) (ep : Nat) (ecc : List EccEvent) (s : State) : Res :=
  onUnit (cellValid c.toNat ∧ ep < 32) c.toNat s fun s =>
    when (s.mayRun c.toNat && epGate (s.ep c.toNat ep).cfg && !(s.aux c.toNat ep).gateStopped)
      (fun s => s.gateStep c.toNat ep ecc) s

/-! ### The stall watch (R200-R202) -/

/-- The receiving cell of the channel of a sending endpoint, if it is a cell. -/
def State.peerCell (s : State) (c n : Nat) : List Nat :=
  match (s.chan (hIndex (s.ep c n).handle)).recv with
  | some e => if e.unit < 0xF000 then [e.unit] else []
  | none => []

/-- The cells that active stall events involve: both ends of a stalled channel, a gate whose cue is overdue, a cell at a stalled barrier
(R200, R201). -/
def State.stalledCells (s : State) : List Nat :=
  s.cells.flatMap fun p =>
    (if p.2.eng.barStall.isSome || p.2.aux.any (fun a => a.2.timeout.isSome) then [p.1] else []) ++
    p.2.eps.flatMap fun e => if e.2.stalled.isSome then p.1 :: s.peerCell p.1 e.1 else []

/-- Whether the condition of R201 holds: two stall events or more active for `stall_limit` without a break, and no cell involved has
consumed anything in that time. -/
def State.hung (s : State) : Bool :=
  match s.rcv.twoSince with
  | some t => t + s.stallNs ≤ s.now && s.stalledCells.all fun c => (s.cell c).eng.consumedAt + s.stallNs ≤ s.now
  | none => false

/-- The extension entry of a stalled channel in a graph-defect record (R287). -/
def State.graphEntry (s : State) (c n : Nat) : List Byte :=
  let e := s.ep c n
  match (s.chan (hIndex e.handle)).recv with
  | some r =>
    toLE 4 e.handle ++ toLE 2 c ++ toLE 2 r.unit ++ toLE 1 n ++ toLE 1 r.ep ++ toLE 2 0 ++
      toLE 4 (if r.unit < 0xF000 then s.fill r.unit r.ep else 0) ++ toLE 4 e.sent ++
      toLE 4 (s.chanMsgs (hIndex e.handle)).2 ++ toLE 4 (s.stallCount c n) ++ toLE 4 (s.chanWaits (hIndex e.handle)).2
  | none => []

/-- The entries of every stalled channel. -/
def State.graphEntries (s : State) : List (List Byte) :=
  s.cells.flatMap fun p => (p.2.eps.filter fun e => e.2.stalled.isSome && epSends e.2.cfg).map fun e => s.graphEntry p.1 e.1

/-- HANG_DECLARE (R201, R202, R297): the stall watch declares a hang. -/
def execHangDeclare (s : State) : Res :=
  .next (if s.isIn .running && s.hung then
    let g := s.graphEntries
    (s.startRecovery 1 1).modRcv fun r => { r with graph := g }
  else s)

/-! ### Curtains and the act watchdog (R225, R226, R295) -/

/-- A period of the idle watchdog begins where no act is open or queued (R295). -/
def State.idlePeriod (s : State) : State :=
  if s.acts.cur.isNone ∧ s.acts.queue.isEmpty then
    s.modRcv fun r => { r with periods := 0, periodAt := s.now, periodBeat := false }
  else s

/-- The act watchdog at a curtain (R295): `took` some slot took part, `yes` some slot commits. -/
def State.curtainCount (s : State) (took yes : Bool) : State :=
  if s.isIn .running && took then
    let n := if yes then 0 else s.rcv.watchdog + 1
    let s := s.modRcv fun r => { r with watchdog := n }
    if 3 ≤ n then s.startRecovery 1 2 else s
  else s

/-- CURTAIN_COMMIT (R225, R226, R240, R295): the curtain of the act in progress has passed; or the curtain of an act that
could not open, which is skipped. -/
def execCurtainCommit (s : State) : Res :=
  .next (match s.acts.cur with
    | some a =>
      if a.curtain ≤ s.now then
        let yes := a.roster.any (s.commits a)
        ((s.endAct a).curtainCount (!a.roster.isEmpty) yes).idlePeriod
      else s
    | none =>
      match s.nextAct with
      | some (num, o, cur, kind) => if cur ≤ s.now then (s.skipAct num o cur kind).idlePeriod else s
      | none => s)

/-- WATCHDOG_PERIOD (R295): with no act open or queued, a period of 16 × `stall_limit` has passed. -/
def execWatchdogPeriod (s : State) : Res :=
  .next (if s.isIn .running && s.acts.cur.isNone && s.acts.queue.isEmpty && s.rcv.periodAt + 16 * s.stallNs ≤ s.now then
    let n := if s.rcv.periodBeat then 0 else s.rcv.periods + 1
    let s := s.modRcv fun r => { r with periods := n, periodAt := s.now, periodBeat := false }
    if 3 ≤ n then s.startRecovery 1 2 else s
  else s)

/-! ### Fences removed, stores refilled -/

/-- Whether stage-core firmware runs. -/
def State.firmware (s : State) : Bool := s.isIn .bringup || s.isIn .ready || s.isIn .running || s.isIn .recovering

/-- Remove the fence of one cell; it returns struck, with the next epoch (R17, R312). -/
def State.unfence (s : State) (c : Nat) : State :=
  if s.fenced c then
    let b := c / 32
    let s := (s.set (Reg.CELL_EPOCH_fenced c) 0).set (Reg.CELL_EPOCH_fence_cause c) 0
    let s := if s.flag (Reg.BLK_STATUS_cell_fence_valid b) ∧ s.get (Reg.BLK_STATUS_fenced_cell b) = cOf c then
        (s.set (Reg.BLK_STATUS_cell_fence_valid b) 0).set (Reg.BLK_STATUS_fenced_cell b) 0 else s
    s.strikeReturn c
  else s

/-- Remove the fence of a block, and of each of its cells. -/
def State.unfenceBlock (s : State) (b : Nat) : State :=
  let s := s.set (Reg.BLK_STATUS_block_fenced b) 0
  let m := s.get (Reg.REGION_ID_blocks_fenced (bkG b))
  let s := s.set (Reg.REGION_ID_blocks_fenced (bkG b)) (setBits m (bkB b) 1 0)
  (blockCells b).foldl State.unfence s

/-- FENCE_REMOVE (R17): stage-core firmware removes the fence of a cell, or of a block. A cell of a fenced block stays
fenced until the block's fence goes. -/
def execFenceRemove (c : CellAddr) (block : Bool) (s : State) : Res :=
  let a := c.toNat
  onCell c s fun s =>
    if !s.firmware then s
    else if s.flag (Reg.BLK_STATUS_block_fenced (a / 32)) then (if block then s.unfenceBlock (a / 32) else s)
    else if block then s
    else s.unfence a

/-- Fill the scene store of a cell again (R215): from the scene reserve where the package gives one, read by the local port, else from the
package area through porters, class 1. -/
def State.refillStore (s : State) (c : Nat) : State :=
  let l := (s.cell c).scene.logical
  let ims := s.imagesOf l
  match s.reserveOf l with
  | some (_, o, bs) =>
    let r := s.readWords c o 1 [] (bs.length / 32)
    r.2.modScene c fun x => { x with store := imagesFrom (engineOf l) (gransBytes r.1) ims.length }
  | none =>
    (s.request 0 1 0 (ims.map fun im => (imageBytes im (engineOf l)).length).sum).modScene c fun x => { x with store := ims }

/-- SCENE_REFILL_DONE (R207, R215, R310 step 3): at restart, once the reloads are in, the store of a cell that has been cleared is filled
again. `ecc`: an uncorrectable read on the way, a fence condition. -/
def execSceneRefillDone (c : CellAddr) (ecc : Bool) (s : State) : Res :=
  let a := c.toNat
  onCell c s fun s =>
    let x := (s.cell a).scene
    when (s.isIn .recovering && s.get Reg.RECOVERY_STATUS_phase == 6 && s.rcv.loadStep == 2 && !s.fwBusy && x.playing && x.store.isEmpty &&
        !s.fenced a) (fun s =>
      if ecc then s.storeFault a else s.refillStore a) s

/-! ### Paired service -/

/-- A paired mismatch (R283): counted, recorded with the item number or sample point, and its route taken. -/
def State.pairMismatch (s : State) (l detail : Nat) : State :=
  if s.isIn .running then
    let c := (s.physical l).getD 0
    let s := (s.inc Reg.SERVICE_MODE_pair_mismatch_count).stageCairn (Cairn.blank 0x07 0 0 c l detail)
    let bs := ([s.physical l, s.physical (twinOf l)].filterMap id).map (· / 32)
    (s.startRecovery 3 4).modRcv fun r => { r with blocks := bs, pairKey := l }
  else s

/-- PAIRED_ITEM_COMPARE (R281): the second item of a pair has arrived. -/
def execPairedItemCompare (c : PairRead) (s : State) : Res :=
  onCell c.cell s fun s =>
    let l := s.primaryOf c.cell.toNat
    when s.paired (fun s =>
      match s.pairOf l with
      | some (a, b) => if crc64 a.hashed = crc64 b.hashed then s.matchItems a b c.dram c.ecc else s.pairMismatch l a.num
      | none => s) s

/-- PAIRED_ITEM_TIMEOUT (R281): the second item has not come `stall_limit` after the first. -/
def execPairedItemTimeout (c : CellAddr) (s : State) : Res :=
  onCell c s fun s =>
    let l := s.primaryOf c.toNat
    match s.pair.held.find? fun a => a.primary == l && a.atT + s.stallNs ≤ s.now &&
        !(s.pair.held.any fun b => b.primary == l && b.num == a.num && b.twin != a.twin) with
    | some a => s.pairMismatch l a.num
    | none => s

/-- The tally an endpoint gives: zero when it is unused or sends (R282). -/
def State.epTally (s : State) (c n : Nat) : Nat :=
  let r := (s.ep c n).cfg
  if epKind r = 0 ∨ epSends r then 0 else (s.aux c n).tally ^^^ (2 ^ 64 - 1)

/-- The cell tally (R282). -/
def State.cellTally (s : State) (c : Nat) : Nat := crc64 ((List.range 32).flatMap fun n => toLE 8 (s.epTally c n))

/-- Sample a cell: its record goes to the lead, its endpoint tallies start again (R282). -/
def State.sampleTally (s : State) (c : Nat) : State :=
  let x := s.cell c
  let scene := match x.scene.cur with | some im => im.sceneNo | none => 0
  let t := s.cellTally c
  let s := s.modCell c fun y =>
    { y with aux := SMap.mapVal (fun _ (a : EpAux) => { a with tally := EpAux.init.tally }) y.aux
             rh := { y.rh with tallies := [(scene, x.eng.beats, t)] } }
  { s with pair := { s.pair with tallies := s.pair.tallies ++ [(⟨x.scene.logical, scene, x.eng.beats, t, s.now⟩ : TallyRec)] } }

/-- TALLY_SAMPLE (R282): at the scene barrier, and at every beat whose count is a multiple of 256; once at each. -/
def execTallySample (c : CellAddr) (s : State) : Res :=
  let a := c.toNat
  onCell c s fun s =>
    let x := s.cell a
    let fresh := x.rh.tallies.all fun t => t.2.1 != x.eng.beats
    when (s.paired && s.mayRun a && fresh && (x.scene.phase == .atBarrier ||
        (x.scene.phase == .ready && x.eng.beats != 0 && x.eng.beats % 256 == 0)))
      (fun s => s.sampleTally a) s

/-- The first records of twins with the same scene and beat count. -/
def State.tallyPair (s : State) (l : Nat) : Option (TallyRec × TallyRec) :=
  s.pair.tallies.findSome? fun a =>
    if a.logical = l then
      (s.pair.tallies.find? fun b => b.logical == twinOf l && b.scene == a.scene && b.beat == a.beat).map fun b => (a, b)
    else none

/-- TALLY_COMPARE (R282): firmware compares the records of a pair. -/
def execTallyCompare (c : CellAddr) (s : State) : Res :=
  onCell c s fun s =>
    let l := s.primaryOf c.toNat
    when s.paired (fun s =>
      match s.tallyPair l with
      | some (a, b) =>
        let s := { s with pair := { s.pair with tallies := (s.pair.tallies.erase a).erase b } }
        if a.tally = b.tally then s else s.pairMismatch l (a.scene <<< 32 + a.beat)
      | none => s) s

/-- TALLY_TIMEOUT (R282): a record has no partner within `stall_limit`. -/
def execTallyTimeout (c : CellAddr) (s : State) : Res :=
  onCell c s fun s =>
    let l := s.primaryOf c.toNat
    match s.pair.tallies.find? fun a => (a.logical == l || a.logical == twinOf l) && a.atT + s.stallNs ≤ s.now &&
        !(s.pair.tallies.any fun b => b.logical == twinOf a.logical && b.scene == a.scene && b.beat == a.beat) with
    | some a =>
      State.pairMismatch { s with pair := { s.pair with tallies := s.pair.tallies.erase a } } l (a.scene <<< 32 + a.beat)
    | none => s

/-! ### Cairn -/

/-- CAIRN_FLUSH (R289): the oldest staged record reaches module flash, which keeps the last 4,096. -/
def execCairnFlush (s : State) : Res :=
  .next (match s.cairn.staging with
    | r :: rest =>
      let f := s.cairn.flash ++ [r]
      { s with cairn := { s.cairn with staging := rest, flash := f.drop (f.length - 4096) } }
    | [] => s)

end Sys2Proof.Machine
end

