-- ==== Sys2Proof/Machine/CairnRec.lean ====
section
/-! DEFINITION. Cairn records as bytes (R287, R288; the UEFI record layout: log 36), and the held records in order (R289,
R340). -/

namespace Sys2Proof.Machine

/-- The 16 bytes of a GUID from its five groups: the first three least significant byte first. -/
def guid (a b c d e : Nat) : List Byte := toLE 4 a ++ toLE 2 b ++ toLE 2 c ++ (toLE 2 d).reverse ++ (toLE 6 e).reverse

/-- The Belvan cairn GUID (R287). -/
def cairnGuid : List Byte := guid 0x6F1B2C4D 0x8E93 0x4A57 0xB0C6 0x2D7E9F31A845
/-- The Belvan GN140 creator GUID (R287). -/
def creatorGuid : List Byte := guid 0x3C8E5A19 0x7D24 0x4F06 0x9B31 0xE6A0D2F4C781

/-- CPER severity of a record (Table 11.7): 0 recoverable, 1 fatal, 2 corrected, 3 informational. -/
def Cairn.severity (r : Cairn) : Nat :=
  match r.kind with
  | 0x05 => if bitAt (nth r.regs 0 0).toNat 1 then 2 else 0
  | 0x0B => 3
  | 0x0D => 3
  | 0x0E => 3
  | 0x0F => 1
  | _ => 0

/-- The section body (Table 11.6). -/
def Cairn.body (r : Cairn) : List Byte :=
  toLE 2 1 ++ toLE 2 r.kind ++ toLE 4 r.seq ++ toLE 8 r.time ++ toLE 8 r.act ++ toLE 1 r.locKind ++ toLE 1 r.locIndex ++
    toLE 2 r.physical ++ toLE 2 r.logical ++ toLE 2 0 ++ toLE 8 r.detail ++
    toLE 2 (nth r.env 0 0) ++ toLE 2 (nth r.env 1 0) ++ toLE 2 (nth r.env 2 0) ++ toLE 2 (nth r.env 3 0) ++ toLE 4 (nth r.env 4 0) ++
    toLE 1 r.kernel ++ toLE 1 r.seed ++ toLE 1 r.step ++ toLE 1 0 ++ toLE 8 r.expected ++ toLE 8 r.observed ++
    padTo 64 (wordBytes r.regs) ++ toLE 4 (min r.ext.length 120) ++ toLE 4 0 ++ (r.ext.take 120).flatMap (padTo 32)

/-- The whole record: header of 128 B, one section descriptor of 72 B, the body (R287). -/
def Cairn.bytes (r : Cairn) : List Byte :=
  let b := r.body
  let head := ascii "CPER" ++ toLE 2 0x0101 ++ toLE 4 0xFFFFFFFF ++ toLE 2 1 ++ toLE 4 r.severity ++ toLE 4 0 ++
    toLE 4 (200 + b.length) ++ toLE 40 0 ++ creatorGuid ++ cairnGuid ++ toLE 8 r.seq ++ toLE 24 0
  let desc := toLE 4 200 ++ toLE 4 b.length ++ toLE 2 0x0100 ++ toLE 2 0 ++ toLE 4 1 ++ cairnGuid ++ toLE 16 0 ++
    toLE 4 r.severity ++ toLE 20 0
  head ++ desc ++ b

/-- The held records, oldest first: flash, then staging. -/
def State.cairns (s : State) : List Cairn := s.cairn.flash ++ s.cairn.staging

/-- Sequence number of the oldest held record; with none held, the next one's (R340). -/
def State.oldestCairn (s : State) : Nat := match s.cairns with | r :: _ => r.seq | [] => s.cairn.next
/-- Sequence number of the newest held record; with none held, one below the next one's (R340). -/
def State.newestCairn (s : State) : Nat :=
  match s.cairns.getLast? with
  | some r => r.seq
  | none => (s.cairn.next + 2 ^ 32 - 1) % 2 ^ 32

/-- The held records with sequence numbers from `first` upward; 0xFFFF_FFFF starts at the oldest. -/
def State.cairnsFrom (s : State) (first : Nat) : List Cairn :=
  let d := fun (x : Nat) => (x + 2 ^ 32 - s.oldestCairn) % 2 ^ 32
  if first = 0xFFFFFFFF ∨ 2 ^ 31 ≤ d first then s.cairns else s.cairns.filter fun r => d first ≤ d r.seq

/-- Copy whole records, padded to 8 B, while they stay within a number of bytes. -/
def copyCairns (max : Nat) : List Cairn → List Byte × Nat × Option Nat
  | [] => ([], 0, none)
  | r :: rs =>
    let b := r.bytes
    let b := b ++ List.replicate ((8 - b.length % 8) % 8) 0
    if b.length ≤ max then
      let q := copyCairns (max - b.length) rs
      (b ++ q.1, q.2.1 + 1, some (q.2.2.getD ((r.seq + 1) % 2 ^ 32)))
    else ([], 0, none)

end Sys2Proof.Machine
end

