-- ==== Sys2Proof/Machine/Nymak.lean ====
section
/-! DEFINITION. The Nymak mailboxes (R324-R334): doorbells, the order of the checks, sessions, deferrals; and the commands of
the service mode, strikes, unloads, recovery, fences and records (R267, R297, R308, R329, R336, R338-R341). -/

namespace Sys2Proof.Machine

/-! ### How a command runs (R324, R327) -/

/-- What a command's own tests and effect answer: it ends with a status and a result, or it goes on. -/
inductive Ans where
  | done (s : State) (st : St) (res : List Byte)
  | goes (s : State)
deriving DecidableEq, Repr

/-- A little-endian field of an argument; bytes past its end are 0. -/
def argN (b : List Byte) (o k : Nat) : Nat := ofLE ((b.drop o).take k)

/-- Opcodes of Table 13.7. -/
def knownOp (op : Nat) : Bool :=
  [0x01, 0x10, 0x11, 0x20, 0x21, 0x30, 0x31, 0x40, 0x41, 0x50, 0x51, 0x60, 0x70, 0x71, 0x80, 0x81, 0x90, 0x91, 0xA0, 0xA1, 0xB0, 0xC0].contains
    op

/-- Whether a command is served in RECOVERING (R32). -/
def servedRecovering (op : Nat) : Bool := op == 0x70 || op == 0xA1 || op == 0xA0 || op == 0x80

/-- A header that breaks R325, or an indirect body that cannot be read (R323). -/
def State.badFormat (s : State) (r : NyReq) : Bool :=
  r.rsv || 1 < r.flags || (r.opcode == 1 && r.session != 0) ||
    (if bitAt r.flags 0 then 1048576 < r.arg.length || r.bodyAddr % 64 != 0 || !s.host.bme else 16352 < r.arg.length)

/-- The checks of R327 step 3 before the command's own. -/
def State.serve (s : State) (mb : Nat) (r : NyReq) (f : State → List Byte → Ans) : State :=
  if s.isIn .recovering ∧ !servedRecovering r.opcode then s.respond mb St.busy.code []
  else if r.opcode ≠ 1 ∧ (r.session = 0 ∨ r.session ≠ (s.mb mb).session) then s.respond mb St.authFail.code []
  else if s.badFormat r then s.respond mb St.badArg.code []
  else match f s r.arg with
    | .done t st res => t.respond mb st.code res
    | .goes t => t

/-- A doorbell in STANDBY, BRINGUP and DARK: completed at once without reading the request (R324). -/
def State.houseAnswer (s : State) (mb : Nat) : State :=
  let s := if s.isIn .dark then s.sets [(Reg.MB_STATUS_last_status mb, St.dark.code)]
    else s.sets [(Reg.MB_STATUS_last_status mb, St.busy.code)]
  (s.sets [(Reg.MB_STATUS_done mb, 1), (Reg.MB_STATUS_last_opcode mb, 0)]).emit (.msix (1 + mb))

/-- Whether the mailboxes serve commands: in READY, RUNNING and RECOVERING; in other states the house core answers. -/
def State.nymakServes (s : State) : Bool := s.isIn .ready || s.isIn .running || s.isIn .recovering

/-- The host writes a request and sets `go` (R327). -/
def State.nymakGo (s : State) (mb : Nat) (r : NyReq) (f : State → List Byte → Ans) : State :=
  if s.isIn .off || !s.linkServes then s
  else if !s.nymakServes then (if s.isIn .dark then s else s.putRequest mb r).houseAnswer mb
  else if s.flag (Reg.MB_STATUS_busy mb) then s.inc (Reg.MB_STATUS_ignored_count mb)
  else
    let s := ((s.putRequest mb r).set (Reg.MB_STATUS_busy mb) 1).modMb mb fun m => { m with cmd := some (r, s.now) }
    s.serve mb r f

/-- A row of a mailbox command: its effect when the request is one of its kind. -/
def nymakRow (mb : Nat) (r : NyReq) (mine : Bool) (s : State) (f : State → List Byte → Ans) : Res :=
  onUnit (mb < 8) mb s fun s => if mine then s.nymakGo mb r f else s

/-- Sub-commands of ROPE_CONFIG that have rows of their own (Table 15.8): byte 0 of the argument. -/
def ropeOpKnown (b : List Byte) : Bool := argN b 0 1 < 6

/-- MB_DOORBELL_GO (R324, R327): a doorbell of an unknown opcode or ROPE_CONFIG operation, which gives BAD_ARG; and any
doorbell while the house core answers. -/
def execMbDoorbellGo (mb : Nat) (req : NyReq) (s : State) : Res :=
  nymakRow mb req (!s.nymakServes || !knownOp req.opcode || (req.opcode == 0x90 && !ropeOpKnown req.arg)) s
    fun s _ => .done s .badArg []

/-! ### Deferral (R333, R334) -/

/-- Complete with DEFERRED and a deferral-log entry; BUSY where the log has no free entry. `f` takes the entry. -/
def State.defer (s : State) (mb : Nat) (res : List Byte) (f : State → Nat → State) : Ans :=
  match s.freeDefer mb, (s.mb mb).cmd with
  | some e, some (r, _) => .done (State.putDefer (f s e) mb e r.opcode r.tag (ofLE res)) .deferred res
  | _, _ => .done s .busy []

/-! ### Sessions (R329, R330) -/

/-- A mailbox's session closes: if it imported the job key, that key is destroyed (Table 17.1), and no session reads the snapshot any
more (R301). -/
def State.closeSession (s : State) (mb : Nat) : State :=
  let s := (s.modMb mb fun m => { m with session := 0 }).set (Reg.MB_STATUS_session_open mb) 0
  if s.host.keySession = mb + 1 then s.dropJobKey else s

/-- HELLO (R329): the new session's number the spec leaves open (log 3). -/
def State.hello (s : State) (mb : Nat) (b : List Byte) : Ans :=
  if b.length < 5 ∨ argN b 0 4 ≠ 1 ∨ 1 < argN b 4 1 then .done s .badArg []
  else
    let s := s.closeSession mb
    if argN b 4 1 = 1 then .done s .ok []
    else
      let d := s.draw
      let n := d.1.toNat % (2 ^ 32 - 1) + 1
      let s := (d.2.modMb mb fun m => { m with session := n }).set (Reg.MB_STATUS_session_open mb) 1
      .done s .ok (toLE 4 n ++ toLE 1 s.pst ++ toLE 3 0 ++ toLE 4 (s.get Reg.FW_VERSION_stage) ++ toLE 2 1024 ++ toLE 2 8 ++
        toLE 4 16384 ++ toLE 4 65536 ++ toLE 4 16352)

/-- HELLO (R329, R330). -/
def execHello (mb : Nat) (req : NyReq) (s : State) : Res := nymakRow mb req (req.opcode == 0x01) s fun s b => s.hello mb b

/-! ### MODE_SET, RESTART (R267, R297) -/

/-- MODE_SET (R267). -/
def execModeSet (mb : Nat) (req : NyReq) (s : State) : Res :=
  nymakRow mb req (req.opcode == 0xB0) s fun s b =>
    if b.length < 1 ∨ 1 < argN b 0 1 then .done s .badArg []
    else if s.isIn .ready then .done (s.set Reg.SERVICE_MODE_mode (argN b 0 1)) .ok []
    else .done s .noResource []

/-- RESTART (R297): the hang route, in RUNNING only, a package being unloaded or not. -/
def execRestart (mb : Nat) (req : NyReq) (s : State) : Res :=
  nymakRow mb req (req.opcode == 0x51) s fun s _ =>
    if s.isIn .running then .done (s.startRecovery 1 6) .ok [] else .done s .noResource []

/-! ### Strikes and unloads (R144, R336, R338, R258) -/

/-- A running strike or unload ends once its time has come (R336, R338); not while a recovery runs, whose compute reset starts it again
(R29; log 131). -/
def State.endStrike (s : State) : State :=
  match s.host.strike with
  | some k =>
    if k.endAt ≤ s.now ∧ !s.isIn .recovering then
      let s := s.modHost fun h => { h with strike := none }
      let s := if k.opcode = 0x60 ∨ k.again then k.areas.foldl (fun s a => s.eraseArea a.1 a.2) s.strikeAll else s
      let s := if k.opcode = 0x11 ∧ s.isIn .running then s.goto .ready else s
      if k.mb < 8 then s.respond k.mb St.ok.code (if k.opcode = 0x60 then toLE 8 k.result else toLE 4 k.result) else s
    else s
  | none => s

/-- PACKAGE_UNLOAD (R336, R334): in RUNNING; it ends with the strike. While a PACKAGE_LOAD is deferred it takes that back. -/
def execPackageUnload (mb : Nat) (req : NyReq) (ns : Nat) (s : State) : Res :=
  nymakRow mb req (req.opcode == 0x11) s fun s _ =>
    match s.host.load with
    | some l =>
      .done ((s.modHost fun h => { h with load := none }).settleDefer l.mb l.entry .busy) .ok (toLE 4 0)
    | none =>
      if !s.isIn .running then .done s .badArg []
      else if s.host.strike.isSome || s.seq.start.isSome then .done s .busy []
      else .goes (s.startUnload mb 0x11 ns).endStrike

/-- Regions of an argument, 16 B each from an offset. -/
def argRegions (b : List Byte) (o n : Nat) : List (Nat × Nat) := (List.range n).map fun i => (argN b (o + 16 * i) 8, argN b (o + 16 * i + 8) 8)

/-- Whether an area is in job DRAM with a base and length that are multiples of 64 KiB. -/
def areaOk (a : Nat × Nat) : Bool := a.1 % 65536 == 0 && a.2 % 65536 == 0 && inJob a.1 a.2

/-- STRIKE (R338): in READY; it ends after at most the strike of the cells and the erase. -/
def execStrike (mb : Nat) (req : NyReq) (ns : Nat) (s : State) : Res :=
  nymakRow mb req (req.opcode == 0x60) s fun s b =>
    let n := argN b 1 1
    let all := argN b 0 1 == 1
    let areas := if all then [(0, 0x01AE00000000)] else argRegions b 16 n
    if b.length < 2 ∨ 1 < argN b 0 1 ∨ argN b 2 14 ≠ 0 ∨ 64 < n ∨ (!all ∧ b.length < 16 + 16 * n) ∨ !areas.all areaOk then .done s .badArg []
    else if !s.isIn .ready then .done s .noResource []
    else if s.host.strike.isSome then .done s .busy []
    else
      let granules := (areas.map fun a => a.2 / 65536).sum
      .goes (s.modHost fun h =>
        { h with strike := some ⟨mb, 0x60, granules, s.now + min ns (3430 + eraseNs areas), areas, min ns (3430 + eraseNs areas), false⟩ }).endStrike

/-! ### BELAY_SET (R308) -/

/-- An extent of a BELAY_SET argument: logical cell, bank, offset, length. -/
def belayExtent (b : List Byte) (i : Nat) : Nat × Nat × Nat × Nat :=
  let w := argN b (128 + 16 * i) 8
  (bits w 0 16, bits w 16 3, bits w 19 20, argN b (136 + 16 * i) 4)

/-- Whether a belay extent lies in its cell's banks and its length is a multiple of 32. -/
def State.extentOk (s : State) (e : Nat × Nat × Nat × Nat) : Bool :=
  match s.physical e.1 with
  | some c => e.2.1 < bankCount c && e.2.2.1 + e.2.2.2 ≤ 0x100000 && e.2.2.2 % 32 == 0 && e.2.2.1 % 32 == 0
  | none => false

/-- BELAY_SET (R308): a belay is armed, and the command completes when it has been taken or has ended. -/
def execBelaySet (mb : Nat) (req : NyReq) (s : State) : Res :=
  nymakRow mb req (req.opcode == 0x50) s fun s b =>
    let region := argN b 0 8
    let len := argN b 8 8
    let n := argN b 16 2
    let ents := (List.range 64).map fun g => argN b (24 + g) 1
    let exts := (List.range n).map (belayExtent b)
    match s.pkg with
    | none => .done s .noResource []
    | some p =>
      let bad := b.length < 128 || n == 0 || 4096 < n || b.length < 128 + 16 * n || argN b 18 6 != 0 || argN b 88 40 != 0 ||
        region % 65536 != 0 || len % 131072 != 0 || !inJob region len ||
        ents.any (fun e => bits e 4 3 != 0) ||
        ((List.range p.pkg.folds.length).any fun g => !bitAt (nth ents g 0) 7) ||
        ((List.range n).any fun i => bits (argN b (128 + 16 * i) 8) 39 25 != 0 || argN b (140 + 16 * i) 4 != 0) ||
        !exts.all s.extentOk || len / 2 < 4096 + (exts.map fun e => e.2.2.2).sum
      if bad then .done s .badArg []
      else if !s.isIn .running then .done s .noResource []
      else if s.belay.isSome then .done s .busy []
      else .goes { s with belay := some ⟨mb, region, len, ents.map fun e => bits e 0 4, exts, [], false⟩ }

/-! ### FENCE_QUERY, CAIRN_READ, SNAPSHOT_READ (R339-R341) -/

/-- The FENCE_QUERY result (Table 13.12). -/
def State.fenceResult (s : State) : List Byte :=
  let n := s.typeCounts
  let cells := (allRegions.flatMap regionCells).filter s.fenced
  let blocks := ((allRegions.flatMap regionBlocks).filter fun b => s.flag (Reg.BLK_STATUS_block_fenced b)).length
  let lost := (allRegions.filter fun g => s.flag (Reg.REGION_THERMAL_lost g)).length
  let rsv := match s.pkg with | some p => p.reserve | none => []
  let r := fun (e : Engine) => (rsv.filter fun c => engineOf c == e).length
  padTo 64 (toLE 8 castAt ++ toLE 4 32320 ++ toLE 4 s.castGen ++ toLE 8 distAt ++ toLE 4 5317696 ++ toLE 4 s.distGen ++
    toLE 2 n.1 ++ toLE 2 n.2.1 ++ toLE 2 n.2.2 ++ toLE 2 cells.length ++ toLE 2 blocks ++ toLE 2 lost ++
    toLE 2 (r .m) ++ toLE 2 (r .v) ++ toLE 2 (r .s) ++ toLE 1 (b2n s.maps.retire + (b2n s.spareMode) <<< 1))

/-- Copy a table of the panel area into host memory through porters, class 3 (R327, R339). -/
def State.tableOut (s : State) (dest : Nat) (bs : List Byte) : State :=
  ((s.request 0 3 0 bs.length).request 2 3 0 bs.length).emit (.hostWrite dest bs)

/-- FENCE_QUERY (R339). -/
def execFenceQuery (mb : Nat) (req : NyReq) (s : State) : Res :=
  nymakRow mb req (req.opcode == 0x70) s fun s b =>
    let t := argN b 8 1
    let dest := argN b 0 8
    if b.length < 9 ∨ 3 < t ∨ (t ≠ 0 ∧ !s.host.bme) then .done s .badArg []
    else
      let s := if bitAt t 0 then s.tableOut dest s.castList else s
      let s := if bitAt t 1 then s.tableOut (dest + 0x8000) s.distTable else s
      .done s .ok s.fenceResult

/-- CAIRN_READ (R340). -/
def execCairnRead (mb : Nat) (req : NyReq) (s : State) : Res :=
  nymakRow mb req (req.opcode == 0xA1) s fun s b =>
    if b.length < 16 ∨ !s.host.bme then .done s .badArg []
    else
      let first := argN b 0 4
      let q := copyCairns (argN b 4 4) (s.cairnsFrom first)
      let s := if q.1.isEmpty then s else (s.request 2 4 0 q.1.length).emit (.hostWrite (argN b 8 8) q.1)
      .done s .ok (toLE 4 q.2.1 ++ toLE 4 q.1.length ++ toLE 4 (q.2.2.getD first) ++ toLE 4 s.oldestCairn ++ toLE 4 s.newestCairn)

/-- SNAPSHOT_READ (R301, R341). -/
def execSnapshotRead (mb : Nat) (req : NyReq) (s : State) : Res :=
  nymakRow mb req (req.opcode == 0xC0) s fun s b =>
    let off := argN b 0 8
    let len := argN b 8 8
    if b.length < 24 ∨ off % 4096 ≠ 0 ∨ len % 4096 ≠ 0 ∨ 0x4000000 < len ∨ 0x10000000 < off + len ∨ !s.host.bme then .done s .badArg []
    else if s.host.keySession ≠ mb + 1 then .done s .authFail []
    else if !s.flag Reg.RECOVERY_STATUS_snapshot_valid then .done s .noResource []
    else
      let r := ((s.request 0 4 0 len).request 2 4 0 len).readDram (snapAt + off) len []
      .done (r.2.emit (.hostWrite (argN b 16 8) (gransBytes r.1))) .ok (toLE 8 len)

/-! ### Channels (R337, R180, R349) -/

/-- The lowest index of the handle space that is free. -/
def State.freeChan (s : State) : Option Nat := (List.range 65536).find? fun i => !(s.chan i).live && !(s.chan i).draining

/-- Shut a channel down (R180 steps 1-3). -/
def State.startDrain (s : State) (i : Nat) : State :=
  let ch := s.chan i
  let s := s.modChan i fun c => { c with draining := true }
  let s := match ch.send with
    | some e => if e.unit < 0xF000 then s.modAux e.unit e.ep fun a => { a with draining := true } else s
    | none => s
  match ch.recv with
  | some e =>
    if e.unit < 0xF000 then
      let k := s.heldMsgs e.unit e.ep
      (s.modEp e.unit e.ep fun x => { x with recs := [], wing := [], dropped := satAdd 48 x.dropped k }).modAux e.unit e.ep
        fun a => { a with draining := true, slots := [] }
    else s
  | none => s

/-- Whether an endpoint of a placed cell is open to be joined: configured, `open`, not on a circuit (log 37). -/
def State.openEp (s : State) (c n : Nat) : Bool :=
  let r := (s.ep c n).cfg
  n < 32 && epKind r != 0 && epOpen r && (epKind r == 3 || (epKind r == 1 && epPacket r))

/-- The live channel joined to an endpoint: its index, and whether its creation is still deferred. -/
def State.joined (s : State) (e : ChanEnd) : Option (Nat × Bool) :=
  (s.chans.find? fun p => p.2.live && !p.2.draining && (p.2.send == some e || p.2.recv == some e)).map fun p =>
    (p.1, p.2.next.isSome)

/-- Create a channel between two ends at a free index; it comes up at once, or after the drains of its endpoints (R180,
R333). -/
def State.makeChan (s : State) (mb i : Nat) (ty : Nat) (a b : ChanEnd) (res : List Byte) : Ans :=
  let s' := s.modChan i fun c => { ChanSt.init with gen := c.gen, live := true, ty := ty, send := some a, recv := some b }
  match s.drainsAt a b with
  | none => .done (s'.chanUp i a b) .ok res
  | some old =>
    State.defer s mb res fun _ e =>
      (s'.modChan i fun c => { c with next := some (a, b, old) }).modHost fun h => { h with defers := h.defers ++ [(i, mb, e)] }

/-- Whether a receiving end is a member of a predicated pair: the even endpoint's record holds the bit for both (R178, R196). -/
def State.inPair (s : State) (e : ChanEnd) : Bool := decide (e.unit < 0xF000) && epPair (s.ep e.unit (e.ep / 2 * 2)).cfg

/-- Join an `open` endpoint to a unit, a host ring or another endpoint (Table 13.10, `kind` 0). -/
def State.joinEp (s : State) (mb : Nat) (b : List Byte) : Ans :=
  let peer := argN b 1 1
  let id := argN b 2 2
  let ep := argN b 6 1
  let c := (s.physical (argN b 4 2)).getD 0xFFFF
  let r := (s.ep c ep).cfg
  let q := (s.physical id).getD 0xFFFF
  let pep := argN b 7 1
  let other : ChanEnd := match peer with
    | 0 => ⟨0xF000 + id, 0⟩
    | 1 => ⟨0xF040, 0⟩
    | 2 => ⟨0xF048 + id, 0⟩
    | 3 => ⟨0x10000 + bits (argN b 8 4) 0 16, 0⟩
    | _ => ⟨q, pep⟩
  let peerOk := match peer with
    | 0 => decide (id < 64)
    | 1 => id == 0
    | 2 => decide (id < 8)
    | 3 => true
    | 4 => s.openEp q pep && epSends (s.ep q pep).cfg != epSends r && epKind (s.ep q pep).cfg == epKind r
    | _ => false
  if b.length < 12 ∨ argN b 12 20 ≠ 0 ∨ !s.openEp c ep ∨ !peerOk then .done s .badArg []
  else if peer = 3 ∧ (s.ringOf (argN b 8 4)).isNone then .done s .badHandle []
  else if peer = 3 ∧ (s.ring (bits (argN b 8 4) 0 16)).binding ≠ (if epSends r then 3 else 2) then .done s .badArg []
  else
    let j1 := s.joined ⟨c, ep⟩
    let j2 := if peer = 4 then s.joined other else none
    if j1.any (·.2) || j2.any (·.2) then .done s .busy []
    else if j1.isSome || j2.isSome then .done s .badArg []
    else match s.freeChan with
      | none => .done s .noResource []
      | some i =>
        let (x, y) := if epSends r then (⟨c, ep⟩, other) else (other, (⟨c, ep⟩ : ChanEnd))
        let ty := if epKind r = 3 then 3 else if s.inPair y then 5 else 2
        s.makeChan mb i ty x y (toLE 4 (ty <<< 28 + (s.chan i).gen <<< 16 + i))

/-- The index a new ring takes: the lowest neither live nor in shutdown; else the lowest in shutdown that no other creation
waits for; none while all such are waited for. -/
def State.freeRing (s : State) : Option (Nat × Bool) :=
  match (List.range 16384).find? fun i => !(s.ring i).live && (s.ring i).closing.isNone with
  | some i => some (i, false)
  | none => ((List.range 16384).find? fun i => !(s.ring i).live && (s.ring i).next.isNone).map fun i => (i, true)

/-- Whether a host-ring argument keeps the ranges of Table 13.10. -/
def State.ringArgOk (s : State) (b : List Byte) : Bool :=
  let bind := argN b 1 1
  let sz := argN b 7 1
  let vec := argN b 8 4
  let c := (s.physical (argN b 4 2)).getD 0xFFFF
  let ep := argN b 6 1
  b.length ≥ 32 && bind < 4 && (if bind = 1 then argN b 2 2 < 64 else argN b 2 2 == 0) && 12 ≤ sz && sz ≤ 26 &&
    (vec == 0 || (16 ≤ vec && vec ≤ 2047)) && argN b 13 3 == 0 && argN b 16 8 % 2 ^ sz == 0 && argN b 24 8 % 64 == 0 &&
    (bind != 2 || (s.openEp c ep && !epSends (s.ep c ep).cfg && epKind (s.ep c ep).cfg == 1))

/-- Create a host ring (Table 13.10, `kind` 1); a message submission ring is joined to its endpoint (log 38). -/
def State.makeRing (s : State) (mb : Nat) (b : List Byte) : Ans :=
  let bind := argN b 1 1
  let e : ChanEnd := ⟨(s.physical (argN b 4 2)).getD 0xFFFF, argN b 6 1⟩
  let j := if bind = 2 then s.joined e else none
  if !s.ringArgOk b then .done s .badArg []
  else if j.any (·.2) then .done s .busy []
  else if j.isSome then .done s .badArg []
  else match s.freeRing, (if bind = 2 then s.freeChan else some 0) with
    | none, _ => .done s (if s.host.rings.any fun p => !p.2.live then .busy else .noResource) []
    | _, none => .done s .noResource []
    | some (i, late), some k =>
      let r := s.ring i
      let gen := if late then nextGen r.gen else r.gen
      let h := toLE 4 (6 <<< 28 + gen <<< 16 + i)
      let join := fun (s : State) =>
        if bind = 2 then
          let s := s.modChan k fun c =>
            { ChanSt.init with gen := c.gen, live := true, ty := if s.inPair e then 5 else 2
                               send := some ⟨0x10000 + i, 0⟩, recv := some e }
          match s.drainsAt ⟨0x10000 + i, 0⟩ e with
          | none => s.chanUp k ⟨0x10000 + i, 0⟩ e
          | some old => s.modChan k fun c => { c with next := some (⟨0x10000 + i, 0⟩, e, old) }
        else s
      if late then
        State.defer s mb h fun s n => (join s).modRing i fun r => { r with chan := k, next := some (mb, n, b) }
      else .done ((join s).modRing i fun _ => ringFromArg gen b k) .ok h

/-- CHANNEL_CREATE (R337). -/
def execChannelCreate (mb : Nat) (req : NyReq) (s : State) : Res :=
  nymakRow mb req (req.opcode == 0x20) s fun s b =>
    match argN b 0 1 with
    | 0 => s.joinEp mb b
    | 1 => s.makeRing mb b
    | _ => .done s .badArg []

/-- The ring whose deferred creation a handle names. -/
def State.deferredRing (s : State) (h : Nat) : Option (Nat × Nat × Nat) :=
  let i := bits h 0 16
  let r := s.ring i
  match r.closing, r.next with
  | some _, some (mb, e, _) => if i < 16384 ∧ h = 6 <<< 28 + (nextGen r.gen) <<< 16 + i then some (i, mb, e) else none
  | _, _ => none

/-- Channels with an end at a host ring. -/
def State.ringChans (s : State) (i : Nat) : List Nat :=
  (s.chans.filter fun p => p.2.live && !p.2.draining &&
    (p.2.send == some ⟨0x10000 + i, 0⟩ || p.2.recv == some ⟨0x10000 + i, 0⟩)).map (·.1)

/-- The channel whose deferred creation is taken back: its index is free, its entry becomes final with BUSY (R334). -/
def State.cancelChan (s : State) (i : Nat) : State :=
  let s := s.modChan i fun c => { ChanSt.init with gen := nextGen c.gen }
  match s.host.defers.find? fun d => d.1 == i with
  | some d => (s.modHost fun x => { x with defers := x.defers.erase d }).settleDefer d.2.1 d.2.2 .busy
  | none => s

/-- Destroy a channel, deferred or live. -/
def State.destroyChan (s : State) (i : Nat) : State :=
  if (s.chan i).next.isSome then s.cancelChan i else s.startDrain i

/-- CHANNEL_DESTROY (R177, R180, R334, R349). -/
def execChannelDestroy (mb : Nat) (req : NyReq) (s : State) : Res :=
  nymakRow mb req (req.opcode == 0x21) s fun s b =>
    let h := argN b 0 4
    if b.length < 4 then .done s .badArg []
    else if hType h = 6 then
      match s.ringOf h, s.deferredRing h with
      | some i, _ => .done ((s.ringChans i).foldl State.destroyChan (s.destroyRing i)) .ok []
      | none, some (i, m, e) =>
        .done ((((s.ringChans i).foldl State.destroyChan s).modRing i fun r => { r with next := none }).settleDefer m e .busy) .ok []
      | none, none => .done s .badHandle []
    else match s.chanOf h with
      | none => .done s .badHandle []
      | some ch => if ch.fromPkg then .done s .badArg [] else .done (s.destroyChan (hIndex h)) .ok []

/-! ### Acts and slots (R224-R231) -/

/-- Where the acts queued so far end: the last queued curtain, or that of the act in progress; none with a record that
repeats without end. -/
def State.lastCurtain (s : State) : Option Nat :=
  match s.acts.queue.getLast? with
  | some r => some (r.openAt + r.count * r.len)
  | none => s.acts.cur.map (·.curtain)

/-- ACT_SCHEDULE (R224-R226). -/
def execActSchedule (mb : Nat) (req : NyReq) (s : State) : Res :=
  nymakRow mb req (req.opcode == 0x30) s fun s b =>
    let len := argN b 8 4
    let n := argN b 12 2
    let o := if argN b 0 8 = 0 then s.lastCurtain.getD (s.now + 10000) else argN b 0 8
    if b.length < 15 ∨ len = 0 ∨ 1000000 < len ∨ 1 < argN b 14 1 ∨ argN b 15 17 ≠ 0 then .done s .badArg []
    else if !s.isIn .running ∨ s.pkg.isNone then .done s .noResource []
    else if s.acts.queue.any (·.count == 0) || s.lastCurtain.any (fun t => o < t) then .done s .badArg []
    else if 16 ≤ s.acts.queue.length then .done s .noResource []
    else
      let r : ActRec := ⟨o, len * 1000, n, argN b 14 1, s.acts.nextNum, 0⟩
      .done (s.modActs fun a => { a with queue := a.queue ++ [r], nextNum := a.nextNum + n }) .ok (toLE 8 r.first)

/-- Acts of the queue that have not opened; a record without end counts as 2^32. -/
def queuedActs (q : List ActRec) : Nat := (q.map fun r => if r.count = 0 then 2 ^ 32 else r.count - r.done).sum

/-- ACT_STOP (R227): the queued acts are removed, their numbers are used again, and changes that waited for them take
effect; with `abort` the act in progress at the command's stamp is aborted: not one whose curtain has come (R225). -/
def execActStop (mb : Nat) (req : NyReq) (s : State) : Res :=
  nymakRow mb req (req.opcode == 0x31) s fun s b =>
    if b.length < 1 ∨ 1 < argN b 0 1 then .done s .badArg []
    else
      let k := queuedActs s.acts.queue
      let num := match s.nextAct with | some a => a.1 | none => s.acts.nextNum
      let cur := match s.acts.cur with | some a => a.num | none => 0
      let mine := s.acts.changes.filter fun p => p.1 ≠ cur
      let s := s.modActs fun a =>
        { a with queue := [], nextNum := num, fixed := none, changes := a.changes.filter fun p => p.1 == cur }
      let s := mine.foldl (fun s p => s.applyChange p.2) s
      let s := if argN b 0 1 = 1 ∧ s.acts.cur.any (fun a => s.now < a.curtain) then s.abortAct else s
      .done s.idlePeriod .ok (toLE 4 (min k (2 ^ 32 - 1)))

/-- Whether a slot descriptor keeps the ranges of Table 9.4. -/
def slotArgOk (b : List Byte) : Bool :=
  let layers := argN b 2 2
  let tok := argN b 4 2
  let pt := argN b 8 4
  b.length ≥ 56 && argN b 0 2 < 1024 && 1 ≤ layers && layers ≤ 256 && 1 ≤ tok && tok ≤ 2048 && argN b 6 1 != 0 && argN b 7 1 == 0 &&
    layers ≤ pt && argN b 12 4 ≤ pt / layers * (65536 / (tok * 32)) && argN b 20 2 ≤ 4096 && argN b 22 2 != 0 &&
    argN b 56 8 == 0

/-- SLOT_OPEN (R230, R333); a slot that opens after its close counts among the open ones. -/
def execSlotOpen (mb : Nat) (req : NyReq) (s : State) : Res :=
  nymakRow mb req (req.opcode == 0x40) s fun s b =>
    let n := argN b 0 2
    let x := s.slot n
    let gen := if x.gen = 0xFFFF then 1 else x.gen + 1
    let used := (s.slots.map fun p => match p.2.reopen with
      | some (_, _, a) => argN a 8 4
      | none => if p.2.isOpen then p.2.pt else 0).sum
    if !slotArgOk b then .done s .badArg []
    else match s.ringOf (argN b 16 4) with
      | none => .done s .badHandle []
      | some i =>
        if (s.ring i).binding ≠ 3 then .done s .badArg []
        else if 16777216 < used + argN b 8 4 then .done s .noResource []
        else if x.isOpen then .done s .badArg []
        else if x.st = 4 then
          if x.reopen.isSome then .done s .busy []
          else State.defer s mb (toLE 2 gen) fun s e => s.modSlot n fun x => { x with reopen := some (mb, e, b) }
        else .done (s.modSlot n fun _ => openSlot gen b) .ok (toLE 2 gen)

/-- SLOT_CLOSE (R229, R231, R334): at the curtain of the act its stamp belongs to; a deferred SLOT_OPEN is taken back. -/
def execSlotClose (mb : Nat) (req : NyReq) (s : State) : Res :=
  nymakRow mb req (req.opcode == 0x41) s fun s b =>
    let n := argN b 0 2
    let g := argN b 2 2
    let x := s.slot n
    if b.length < 4 ∨ 1024 ≤ n then .done s .badArg []
    else if x.isOpen ∧ x.gen = g then .done (s.change (.close n g)) .ok []
    else match x.reopen with
      | some (m, e, _) =>
        if x.st = 4 ∧ g = (if x.gen = 0xFFFF then 1 else x.gen + 1) then
          .done ((s.modSlot n fun x => { x with reopen := none }).settleDefer m e .busy) .ok []
        else .done s .badArg []
      | none => .done s .badArg []

end Sys2Proof.Machine
end

