-- ==== Sys2Proof/Machine/MCell.lean ====
section
/-! DEFINITION. The M-cell (R60-R85): operator descriptors, K-steps, the checksum margin, write-back and drain. -/

namespace Sys2Proof.Machine

/-! ### The descriptor (Table 3.3) -/

/-- An operand area: bank, offset and row stride of a descriptor's word. -/
structure Area where
  bank : Nat
  off : Nat
  stride : Nat
deriving DecidableEq, Repr

/-- The area that word w of a descriptor names. -/
def dArea (d w : Nat) : Area := ⟨dsc d w 0 3, dsc d w 4 20, dsc d w 24 20⟩
/-- Weight-stationary (0) or output-stationary (1) flow. -/
def dFlow (d : Nat) : Nat := dsc d 0 0 2
/-- M loop outer (0) or N loop outer (1). -/
def dOrder (d : Nat) : Nat := dsc d 0 2 1
/-- Last of the chain. -/
def dLast (d : Nat) : Bool := dsc d 0 3 1 != 0
/-- Stochastic rounding. -/
def dRound (d : Nat) : Bool := dsc d 0 4 1 != 0
/-- Saturating conversion. -/
def dSat (d : Nat) : Bool := dsc d 0 5 1 != 0
/-- Flush subnormal FP8 inputs. -/
def dFtz (d : Nat) : Bool := dsc d 0 6 1 != 0
/-- Starting values: 0 zero, 1 loaded, 2 carried. -/
def dInit (d : Nat) : Nat := dsc d 0 8 2
/-- Accumulators stay in place. -/
def dKeep (d : Nat) : Bool := dsc d 0 10 1 != 0
/-- Checksum policy (Table 3.5). -/
def dPolicy (d : Nat) : Nat := dsc d 0 11 2
/-- Format code of A. -/
def dAfmt (d : Nat) : Nat := dsc d 0 16 5
/-- Format code of B. -/
def dBfmt (d : Nat) : Nat := dsc d 0 24 5
/-- Format code of the outputs. -/
def dOfmt (d : Nat) : Nat := dsc d 0 32 5
/-- A from a queue endpoint. -/
def dAqueue (d : Nat) : Bool := dsc d 0 40 1 != 0
/-- Endpoint of A. -/
def dAep (d : Nat) : Nat := dsc d 0 41 5
/-- Outputs to a queue endpoint. -/
def dOqueue (d : Nat) : Bool := dsc d 0 46 1 != 0
/-- Endpoint of the outputs. -/
def dOep (d : Nat) : Nat := dsc d 0 47 5
/-- Waits for a cue. -/
def dWaitCue (d : Nat) : Bool := dsc d 0 52 1 != 0
/-- Endpoint of the awaited cue. -/
def dCueEp (d : Nat) : Nat := dsc d 0 53 5
/-- Posts a cue at its end. -/
def dPostCue (d : Nat) : Bool := dsc d 0 58 1 != 0
/-- Endpoint of the posted cue. -/
def dDoneEp (d : Nat) : Nat := dsc d 0 59 5
/-- Rows per block. -/
def dRows (d : Nat) : Nat := dsc d 7 0 10
/-- Output columns per block. -/
def dCols (d : Nat) : Nat := dsc d 7 10 6
/-- Reduction length. -/
def dKlen (d : Nat) : Nat := dsc d 7 16 16
/-- Blocks along M. -/
def dMloops (d : Nat) : Nat := dsc d 7 32 16
/-- Blocks along N. -/
def dNloops (d : Nat) : Nat := dsc d 7 48 16
/-- Counter field of R50. -/
def dStream (d : Nat) : Nat := dsc d 9 0 32
/-- Whether the operands are integers. -/
def dInt (d : Nat) : Bool := fmtInt (dAfmt d)

/-- Whether a format is of the FP8 family (Table 3.1). -/
def fp8Family (f : Nat) : Bool := 0x03 ≤ f && f ≤ 0x06
/-- Whether a format is BF16 or FP16. -/
def fp16Family (f : Nat) : Bool := f == 0x01 || f == 0x02

/-- K-step of a format pair (Table 3.1). -/
def kStepOf (a b : Nat) : Nat :=
  if fp16Family a || fp16Family b then 32
  else if fp8Family a && fp8Family b then 32
  else if a == 0x0A && b == 0x0A then 32
  else 64

/-- K-steps of a descriptor's reduction. -/
def dSteps (d : Nat) : Nat := (dKlen d + kStepOf (dAfmt d) (dBfmt d) - 1) / kStepOf (dAfmt d) (dBfmt d)

/-- The tensor-scale factor T of R54. -/
def dScale (d : Nat) : Nat :=
  let one := 0x3F800000
  let t := fun (f v : Nat) => if fmtS16 f then v else one
  fmul32 (t (dAfmt d) (dsc d 8 0 32)) (t (dBfmt d) (dsc d 8 32 32))

/-! ### Where the M-cell stands -/

/-- The M-cell's state. -/
def State.mst (s : State) (c : Nat) : MSt := (s.cell c).m
/-- Change the M-cell's state. -/
def State.modM (s : State) (c : Nat) (f : MSt → MSt) : State := s.modCell c fun x => { x with m := f x.m }

/-- Progress of an M-cell (R292), which then waits on nothing. -/
def State.mProgress (s : State) (c : Nat) : State :=
  if s.fenced c then s
  else s.modEng c fun e => { e with run := 1, wait := .none, progress := e.progress + 1, progressAt := s.now }

/-- Descriptor i of a cell's chain. -/
def State.descAt (s : State) (c i : Nat) : Option Nat :=
  match (s.cell c).scene.cur with
  | some im => im.eng[i]?
  | none => none

/-- Index of a block in loop order. -/
def blockNo (d m n : Nat) : Nat := m * dNloops d + n

/-- The block after (m, n) in loop order (R68), none after the last. -/
def nextBlock (d m n : Nat) : Option (Nat × Nat) :=
  if dOrder d = 0 then
    if n + 1 < dNloops d then some (m, n + 1) else if m + 1 < dMloops d then some (m + 1, 0) else none
  else if m + 1 < dMloops d then some (m + 1, n) else if n + 1 < dNloops d then some (0, n + 1) else none

/-- Key of an accumulator. -/
def accKey (row col : Nat) : Nat := row * 32 + col

/-- Rows of check group g of a block (R76). -/
def groupRows (d g : Nat) : List Nat := (List.range 32).map (· + 32 * g) |>.filter fun r => decide (r < dRows d)

/-- The rows of the block that one K-step covers: all of them in weight-stationary flow (R64), those of the 32-row sub-block
under way in output-stationary flow (R65). -/
def stepRows (d sub : Nat) : List Nat := if dFlow d = 1 then groupRows d sub else List.range (dRows d)

/-- Load the starting values of rows of a block (R68, R73): FP32 or INT32 rows; a poisoned word poisons what it starts, and its bits are not
used (R44). -/
def State.loadInit (s : State) (c d m n : Nat) (rows : List Nat) (ecc : List EccEvent) : State :=
  let ar := dArea d 6
  rows.foldl (fun s r =>
    let o := ar.bank * 0x100000 + ar.off + (m * dRows d + r) * ar.stride + n * 32 * 4
    let q := s.readWords c o 0 ecc ((dCols d * 4 + 31) / 32)
    let bs := gransBytes q.1
    (List.range (dCols d)).foldl (fun s k =>
      let v := ofLE ((bs.drop (4 * k)).take 4)
      let p := (nth q.1 (k / 8) ⟨[], false⟩).poison
      s.modM c fun x =>
        { x with acc := SMap.put x.acc (accKey r k) (if p then 0 else v)
                 accPoison := if p then NSet.add x.accPoison (accKey r k) else x.accPoison
                 initPoison := if p then NSet.add x.initPoison (accKey r k) else x.initPoison }) q.2) s

/-- Start a block: its accumulators at zero or carried (R68); loaded ones come with its first K-step. -/
def State.startBlock (s : State) (c d m n : Nat) : State :=
  let base := blockNo d m n * 16384
  let x := s.mst c
  let carried := if dInit d = 2 then (x.keep.filter fun p => p.1 / 16384 == blockNo d m n).map fun p => (p.1 - base, p.2) else []
  let carriedP := if dInit d = 2 then (x.keepPoison.filter fun k => k / 16384 == blockNo d m n).map (· - base) else []
  s.modM c fun x =>
    { x with phase := .stream, mIdx := m, nIdx := n, kIdx := 0, sub := 0, acc := carried, accPoison := carriedP, initPoison := carriedP
             group := 0 }

/-- Whether the M-cell works: within a beat and not fenced. -/
def State.mRuns (s : State) (c : Nat) : Bool := s.mayRun c && (s.cell c).scene.phase == .inBeat

/-- A command on an M-cell. -/
def onM (c : CellAddr) (s : State) (f : State → State) : Res :=
  onUnit (cellValid c.toNat ∧ engineOf c.toNat = .m) c.toNat s fun s => when (s.mRuns c.toNat) f s

/-- Post the first done cue that is owed (R68): its value is not given, so it is free. It waits for credit. -/
def State.postCues (s : State) (c : Nat) : State :=
  match (s.mst c).cues with
  | ep :: rest =>
    let v := s.draw
    let r := v.2.cueSend c ep v.1.toNat
    if r.1 then r.2.modM c fun x => { x with cues := rest } else r.2
  | [] => s

/-- M_DESCRIPTOR_DECODE (R67, R68): the next descriptor of the chain, after its cue. `store`: its read from the scene store meets an
uncorrectable word (R207). -/
def execMDescriptorDecode (c : DescRead) (s : State) : Res :=
  let a := c.cell.toNat
  onM c.cell s fun s =>
    let s := s.postCues a
    let x := s.mst a
    match s.descAt a x.desc with
    | some d =>
      if x.phase ≠ .idle then s
      else if c.store then s.storeFault a
      else if dWaitCue d ∧ !s.hasMsg a (dCueEp d) then s.waitRecv a (dCueEp d)
      else
        let s := if dWaitCue d then (s.readCue a (dCueEp d) c.ecc).2.takeCue a (dCueEp d) else s
        if s.fenced a then s else (s.startBlock a d 0 0).mProgress a
    | none => s

/-! ### Operands (R63, R71, R73) -/

/-- Decode the elements of a row for a K-step: element bytes and scale bytes from the row's start. -/
def rowElems (fmt : Nat) (ftz : Bool) (elems scales : List Byte) (k0 n : Nat) : List FV :=
  (List.range n).map fun i =>
    let k := k0 + i
    let sc := if fmtBlock fmt = 0 then 0 else (nth scales (k / fmtBlock fmt) 0).toNat
    blockElem fmt ftz sc (packedElem fmt elems k)

/-- Byte range of elements k0 … k0 + n − 1 in a row. -/
def elemSpan (fmt k0 n : Nat) : Nat × Nat :=
  let lo := k0 * fmtBits fmt / 8
  (lo, packedBytes fmt (k0 + n) - lo)

/-- The operand row at bank address `o` with scale row at `so`, for the indices of a K-step: its elements and poison. -/
def State.bankRow (s : State) (c fmt : Nat) (ftz : Bool) (o so k0 n : Nat) (ecc : List EccEvent) : (List FV × Bool) × State :=
  let sp := elemSpan fmt k0 n
  let e := s.readSpan c (o + sp.1) sp.2 ecc
  if fmtBlock fmt = 0 then ((rowElems fmt ftz (List.replicate sp.1 0 ++ e.1) [] k0 n, e.2.1), e.2.2)
  else
    let b0 := k0 / fmtBlock fmt
    let b1 := (k0 + n - 1) / fmtBlock fmt
    let q := e.2.2.readSpan c (so + b0) (b1 - b0 + 1) ecc
    ((rowElems fmt ftz (List.replicate sp.1 0 ++ e.1) (List.replicate b0 0 ++ q.1) k0 n, e.2.1 || q.2.1), q.2.2)

/-- Row `r` of the block from the messages of the A endpoint (R71): element bytes, then scale bytes, each padded to a
granule. -/
def State.queueRow (s : State) (c d r k0 n : Nat) (ecc : List EccEvent) : (List FV × Bool) × State :=
  let ep := dAep d
  let e := s.ep c ep
  let q := nth (e.recs.filter fun x => !x.pad) r ⟨false, 0, 0, 0⟩
  let o := epBase e.cfg + 32 * q.pos
  let fmt := dAfmt d
  s.bankRow c fmt (dFtz d) o (o + 32 * ((packedBytes fmt (dKlen d) + 31) / 32)) k0 n ecc

/-- The A row `r` of the block of descriptor d. -/
def State.aRow (s : State) (c d r k0 n : Nat) (ecc : List EccEvent) : (List FV × Bool) × State :=
  if dAqueue d then s.queueRow c d r k0 n ecc
  else
    let x := s.mst c
    let row := x.mIdx * dRows d + r
    let e := dArea d 1
    let sc := dArea d 2
    s.bankRow c (dAfmt d) (dFtz d) (e.bank * 0x100000 + e.off + row * e.stride) (sc.bank * 0x100000 + sc.off + row * sc.stride)
      k0 n ecc

/-- The B row of output column `n` of the block. -/
def State.bRow (s : State) (c d col k0 n : Nat) (ecc : List EccEvent) : (List FV × Bool) × State :=
  let row := (s.mst c).nIdx * 32 + col
  let e := dArea d 3
  let sc := dArea d 4
  s.bankRow c (dBfmt d) (dFtz d) (e.bank * 0x100000 + e.off + row * e.stride) (sc.bank * 0x100000 + sc.off + row * sc.stride)
    k0 n ecc

/-- Gather rows one after the other. -/
def gather (f : State → Nat → (List FV × Bool) × State) : List Nat → State → List (List FV × Bool) × State
  | [], s => ([], s)
  | r :: rs, s =>
    let q := f s r
    let t := gather f rs q.2
    (q.1 :: t.1, t.2)

/-- Indices of the K-step under way: the first, and how many lie below `k_len`. -/
def kRange (d kIdx : Nat) : Nat × Nat :=
  let w := kStepOf (dAfmt d) (dBfmt d)
  (kIdx * w, min w (dKlen d - kIdx * w))

/-- Read the operands of the K-step under way for some rows of the block and its columns. -/
def State.readOps (s : State) (c d : Nat) (rows : List Nat) (ecc : List EccEvent) : KOps × State :=
  let k := kRange d (s.mst c).kIdx
  let a := gather (fun s r => s.aRow c d r k.1 k.2 ecc) rows s
  let b := gather (fun s n => s.bRow c d n k.1 k.2 ecc) (List.range (dCols d)) a.2
  (⟨a.1, b.1⟩, b.2)

/-! ### The K-step (R53, R55, R73, R84) -/

/-- Products of a row and a column. -/
def products (a b : List FV) : List FV := List.zipWith FV.mul a b

/-- The new value of one accumulator: an exact sum, rounded once; integers wrap (R53, R55). `extra` is an injection. -/
def accStep (int : Bool) (old : Nat) (ps : List FV) (extra : FV) : Nat :=
  if int then ofSigned 32 (toSigned 32 old + (ps.map FV.toIntRne).sum + extra.toIntRne)
  else round32 (FV.sum (ps ++ [val32 old] ++ (if extra.isZero then [] else [extra])))

/-- The value of an accumulator. -/
def accVal (int : Bool) (x : Nat) : FV := if int then FV.ofInt (toSigned 32 x) else val32 x

/-- The sum G of a check unit (R75): magnitudes of its products and of its old values. -/
def unitG (int : Bool) (ps : List FV) (olds : List Nat) : FV := FV.sum (ps.map FV.abs ++ olds.map fun x => (accVal int x).abs)

/-- The products of a row with every output column. -/
def rowProducts (o : KOps) (r : Nat) : List FV := o.cols.flatMap fun b => products (nth o.rows r ([], false)).1 b.1

/-- The injected addend of R84 at row r (operands at place j): 2^(E + 2) with E = max(floor(log2 G), −126), or 1 for integers. With a G that is infinite or
NaN the spec states no E, and it is free (log 88). -/
def injection (int : Bool) (o : KOps) (j r : Nat) (old : SMap Nat) (free : Nat) : FV :=
  if int then .fin false 1 0
  else
    let g := unitG false (rowProducts o j) ((List.range 32).map fun n => SMap.getD old (accKey r n) 0)
    let e : Int := match g with
      | .fin _ m e => if m = 0 then -126 else max ((Nat.log2 m : Int) + e) (-126)
      | _ => free % 254 - 126
    .fin false 1 (e + 2)

/-- Update the accumulators of some rows: `wrong` are values that a fault of the part left there, in a padded column too. Operands of row
`rows[j]` stand at place j of `o`. Poisoned operands are not used, and make the accumulator poison (R44, R73). -/
def MSt.step (x : MSt) (int : Bool) (o : KOps) (rows : List Nat) (inj : Option (Nat × Nat × Nat)) (wrong : List (Nat × Nat × Nat)) : MSt :=
  let cell := fun (x : MSt) (j r n : Nat) =>
    let a := nth o.rows j ([], false)
    let b := nth o.cols n ([], false)
    let old := SMap.getD x.old (accKey r n) 0
    let extra := match inj with
      | some (ir, ic, free) => if ir = r ∧ ic = n then injection int o j r x.old free else .fin false 0 0
      | none => .fin false 0 0
    let v := if a.2 || b.2 then old else accStep int old (products a.1 b.1) extra
    let v := match wrong.find? fun w => w.1 == r && w.2.1 == n with
      | some w => w.2.2 % 2 ^ 32
      | none => v
    { x with acc := SMap.put x.acc (accKey r n) v
             accPoison := if a.2 || b.2 then NSet.add x.accPoison (accKey r n) else x.accPoison }
  let pads := fun (x : MSt) (r : Nat) =>
    (wrong.filter fun w => w.1 == r && decide (o.cols.length ≤ w.2.1) && decide (w.2.1 < 32)).foldl
      (fun x w => { x with acc := SMap.put x.acc (accKey r w.2.1) (w.2.2 % 2 ^ 32) }) x
  foldIdx (fun j x r => pads ((List.range o.cols.length).foldl (fun x n => cell x j r n) x) r) 0 x rows

/-- Blocks that wait to drain or are draining. -/
def MSt.waitingBlocks (x : MSt) : Nat := ((x.drain.map fun r => (r.desc, r.mIdx, r.nIdx)).eraseDups).length

/-- Messages of A rows that stand in the queue. -/
def State.aReady (s : State) (c d : Nat) : Bool :=
  !dAqueue d || decide (dRows d ≤ ((s.ep c (dAep d)).recs.filter fun x => !x.pad).length)

/-- The armed injection's element, when the K-step covers it (R84): in the first of its check groups that holds it. DESIGN CHOICE
(log 88): a K-step whose element there is only padding (a row beyond the block, a column at or above `n_cols`) does not
cover it, and the injection stays armed. -/
def State.armed (s : State) (c d : Nat) : Option (Nat × Nat) :=
  let r := s.get (Reg.MC_CK_CTRL_inject_row c) + (if dFlow d = 1 then 32 * (s.mst c).sub else 0)
  let n := s.get (Reg.MC_CK_CTRL_inject_col c)
  if s.flag (Reg.MC_CK_CTRL_inject c) ∧ r < dRows d ∧ n < dCols d then some (r, n) else none

/-- One K-step of the block under way, over its rows or over those of its sub-block (R64, R65). -/
def State.kStep (s : State) (c d : Nat) (hw : MHw) : State :=
  let x := s.mst c
  let rows := stepRows d x.sub
  let s := if x.kIdx = 0 ∧ dInit d = 1 then s.loadInit c d x.mIdx x.nIdx rows hw.ecc else s
  let s := s.modM c fun x => { x with old := x.acc, oldPoison := x.accPoison }
  let q := s.readOps c d rows hw.ecc
  if q.2.fenced c then q.2
  else
    let inj := (q.2.armed c d).map fun p => (p.1, p.2, (Config.freeValue q.2.freeIdx).toNat)
    let s := if inj.isSome then State.set { q.2 with freeIdx := q.2.freeIdx + 1 } (Reg.MC_CK_CTRL_inject c) 0 else q.2
    (s.modM c fun x =>
      { (x.step (dInt d) q.1 rows inj hw.wrong) with ops := q.1, phase := .check, group := 0 }).mProgress c

/-- K_STEP (R53): waits for the A rows of the block (R71), and for a free half of the accumulator file before the first
step of a block (R72). -/
def execKStep (c : CellAddr) (hw : MHw) (s : State) : Res :=
  let a := c.toNat
  onM c s fun s =>
    let x := s.mst a
    match s.descAt a x.desc with
    | some d =>
      if x.phase ≠ .stream then s
      else if !s.aReady a d then s.waitRecv a (dAep d)
      else if x.kIdx = 0 ∧ x.sub = 0 ∧ 2 ≤ x.waitingBlocks then
        match x.drain with
        | r :: _ =>
          match s.descAt a r.desc with
          | some rd => if dOqueue rd then (s.sendWait a (dOep rd)).engineWait a (.queue (dOep rd)) else s
          | none => s
        | [] => s
      else s.kStep a d hw
    | none => s

/-! ### The checksum margin (R75-R83) -/

/-- One check unit: what it was given and what came out. -/
structure Unit where
  ps : List FV
  ins : List FV
  olds : List Nat
  news : List Nat
  poison : Bool
deriving DecidableEq, Repr

/-- The verdict on a check unit. -/
inductive Check where
  | ok
  | skip
  | bad
deriving DecidableEq, Repr

/-- D of R77. -/
def unitD (int : Bool) (u : Unit) : FV := FV.sum (u.news.map (accVal int) ++ u.olds.map fun x => (accVal int x).neg)

/-- |D − P|. -/
def unitGap (int : Bool) (u : Unit) : FV := (FV.sum [unitD int u, (FV.sum u.ps).neg]).abs

/-- 2⁻²⁰ G + 2⁻¹²⁶. -/
def unitLimit (u : Unit) : FV := FV.sum [(unitG false u.ps u.olds).mul (.fin false 1 (-20)), .fin false 1 (-126)]

/-- Whether an output of a unit changed by other than its products: modulo 2³² for integers (R79, R83). -/
def unitOff (int : Bool) (u : Unit) : Bool :=
  if int then (unitGap true u).toIntRne % 2 ^ 32 != 0 else !(unitGap false u).isZero

/-- Judge a check unit (R77-R79). DESIGN CHOICE (log 118): new values that hold both a NaN and an infinity, with finite inputs, are a
mismatch, though R78's overflow skip names them too. -/
def Unit.check (int : Bool) (u : Unit) : Check :=
  if u.poison then .skip
  else if int then
    if ((u.news.map (toSigned 32)).sum - (u.olds.map (toSigned 32)).sum - (u.ps.map FV.toIntRne).sum) % 2 ^ 32 = 0 then .ok else .bad
  else if (u.ins.any fun v => !v.isFin) || u.olds.any fun x => !(val32 x).isFin then .skip
  else if u.news.any fun x => val32 x == .nan then .bad
  else if u.news.any fun x => !(val32 x).isFin then .skip
  else if 0 < (unitGap false u).cmp (unitLimit u) then .bad else .ok

/-- Old and new values of outputs. -/
def accVals (m : SMap Nat) (ks : List Nat) : List Nat := ks.map fun k => SMap.getD m k 0

/-- The row check of row r (operands at place j). -/
def rowUnit (x : MSt) (j r : Nat) : Unit :=
  let a := nth x.ops.rows j ([], false)
  let ks := (List.range 32).map fun n => accKey r n
  ⟨rowProducts x.ops j, a.1 ++ x.ops.cols.flatMap (·.1), accVals x.old ks, accVals x.acc ks,
    a.2 || (x.ops.cols.any (·.2)) || ks.any fun k => x.initPoison.contains k⟩

/-- The column check of column n over rows (operands of the rows at the places given). -/
def colUnit (x : MSt) (rows : List (Nat × Nat)) (n : Nat) : Unit :=
  let b := nth x.ops.cols n ([], false)
  let ks := rows.map fun p => accKey p.2 n
  ⟨rows.flatMap fun p => products (nth x.ops.rows p.1 ([], false)).1 b.1,
    b.1 ++ rows.flatMap fun p => (nth x.ops.rows p.1 ([], false)).1, accVals x.old ks, accVals x.acc ks,
    b.2 || (rows.any fun p => (nth x.ops.rows p.1 ([], false)).2) || ks.any fun k => x.initPoison.contains k⟩

/-- floor(log2 (gap / limit)), clamped to 0-254 (R83). -/
def excessOf (u : Unit) : Nat :=
  match unitGap false u, unitLimit u with
  | .fin _ m e, .fin _ n g =>
    if m = 0 ∨ n = 0 then 0 else (clampInt 0 254 (floorLog2 m n + e - g)).toNat
  | _, _ => 254

/-- What the checks of a group found: units skipped, the first row and column that mismatch, their place and excess. -/
structure GroupCheck where
  skips : Nat
  row : Option Nat
  col : Option Nat
  atRow : Nat
  atCol : Nat
  excess : Nat
deriving DecidableEq, Repr

/-- Run the row and column checks of group g (R76): one of every row, and one of every output column; `rows` pairs the operands' places
with the rows. -/
def checkGroup (int : Bool) (x : MSt) (rows : List (Nat × Nat)) (free : Nat) : GroupCheck :=
  let ru := rows.map fun p => (p.2, rowUnit x p.1 p.2)
  let cu := (List.range x.ops.cols.length).map fun n => (n, colUnit x rows n)
  let bad := fun (us : List (Nat × Unit)) => us.find? fun p => p.2.check int == .bad
  let skips := ((ru ++ cu).filter fun p => p.2.check int == .skip).length
  let ex := fun (u : Unit) =>
    if int then 0xFF else if u.news.any (fun x => val32 x == .nan) then free % 256 else excessOf u
  match bad ru, bad cu with
  | none, none => ⟨skips, none, none, 0, 0, 0⟩
  | some r, some c => ⟨skips, some r.1, some c.1, r.1, c.1, ex r.2⟩
  | some r, none =>
    let j := ((rows.find? fun p => p.2 == r.1).getD (0, 0)).1
    let diff := fun n => unitOff int ⟨products (nth x.ops.rows j ([], false)).1 (nth x.ops.cols n ([], false)).1, [],
      [SMap.getD x.old (accKey r.1 n) 0], [SMap.getD x.acc (accKey r.1 n) 0], false⟩
    ⟨skips, some r.1, none, r.1, ((List.range 32).find? fun n => diff n).getD 0, ex r.2⟩
  | none, some c =>
    let row := (rows.find? fun p =>
      unitOff int ⟨products (nth x.ops.rows p.1 ([], false)).1 (nth x.ops.cols c.1 ([], false)).1, [],
        [SMap.getD x.old (accKey p.2 c.1) 0], [SMap.getD x.acc (accKey p.2 c.1) 0], false⟩).getD (0, 0)
    ⟨skips, none, some c.1, row.2, c.1, ex c.2⟩

/-- Whether a group mismatched. -/
def GroupCheck.hit (g : GroupCheck) : Bool := g.row.isSome || g.col.isSome

/-- Record a mismatch in `MC_CK_LAST` (R83). DESIGN CHOICE (log 118): the failed replay of a recorded mismatch overwrites a record
like any other and sets `overrun` while `valid` is 1. -/
def State.marginRecord (s : State) (c : Nat) (g : GroupCheck) (again : Bool) : State :=
  let x := s.mst c
  let sc := match (s.cell c).scene.cur with | some im => im.sceneNo | none => 0
  s.sets [(Reg.MC_CK_LAST_overrun c, b2n (s.flag (Reg.MC_CK_LAST_valid c))), (Reg.MC_CK_LAST_valid c, 1),
    (Reg.MC_CK_LAST_row_hit c, b2n g.row.isSome), (Reg.MC_CK_LAST_col_hit c, b2n g.col.isSome),
    (Reg.MC_CK_LAST_replay_failed c, b2n again), (Reg.MC_CK_LAST_row c, g.atRow % 32), (Reg.MC_CK_LAST_col c, g.atCol),
    (Reg.MC_CK_LAST_desc c, x.desc), (Reg.MC_CK_LAST_scene c, sc), (Reg.MC_CK_LAST_kstep c, x.kIdx),
    (Reg.MC_CK_LAST_excess c, g.excess)]

/-- A checksum fault (R81): counted, a cairn record with `MC_CK_LAST`, and a fence condition. -/
def State.checksumFault (s : State) (c : Nat) : State :=
  let s := s.inc (Reg.MC_CK_COUNTS_fault_count c)
  let s := s.stageCairn { Cairn.blank 0x01 0 0 c (s.logicalOf c) (s.mst c).desc with
    regs := s.regWords [(Reg.MC_CK_LAST_valid c).off] }
  s.fenceCell c 0x01

/-- Release the A rows of a block after the last K-step of every N loop that uses them (R71). -/
def State.releaseRows (s : State) (c d : Nat) : State :=
  (List.range (dRows d)).foldl (fun s _ => s.consume c (dAep d) (s.peekHead c (dAep d))) s

/-! ### Write-back (R54, R55, R74) -/

/-- The code an accumulator is written as. -/
def outCode (d : Nat) (v : Nat) (word : Nat) : Nat :=
  if dOfmt d = 0x0E then v
  else
    let x := accVal (dInt d) v
    let x := if dInt d then val32 (int32ToFp32 v) else x
    let y := x.mul (val32 (dScale d))
    if dOfmt d = 0 then round32 y else convElem (dOfmt d) (if dRound d then .sr word else .rne) (dSat d) y

/-- The random word of element e of a block's write-back (R50, R74). -/
def State.wbWord (s : State) (c d e : Nat) : Nat :=
  let n := SMap.getD (s.mst c).wbs (s.mst c).desc 0
  nth (philox (e / 4 + (n % 2 ^ 32) <<< 32 + dStream d <<< 64) (s.srKey c)) (e % 4) 0

/-- Convert a finished block: its rows wait to drain (R72, R74). -/
def State.writeBack (s : State) (c d : Nat) : State :=
  let x := s.mst c
  let last := (nextBlock d x.mIdx x.nIdx).isNone
  let row := fun r =>
    (⟨x.desc, x.mIdx, x.nIdx, r,
      (List.range (dCols d)).map fun n => outCode d (SMap.getD x.acc (accKey r n) 0) (s.wbWord c d (accKey r n)),
      (List.range (dCols d)).foldl (fun p n => if x.accPoison.contains (accKey r n) then p + 2 ^ n else p) 0,
      last && r + 1 == dRows d⟩ : DrainRow)
  s.modM c fun y =>
    { y with drain := y.drain ++ (List.range (dRows d)).map row, wbs := SMap.upd y.wbs y.desc 0 (· + 1) }

/-- Keep a finished block's accumulators in place (R68). DESIGN CHOICE (log 87): every block's are kept under its number, however many
blocks the operator has. -/
def MSt.keepBlock (x : MSt) (d : Nat) : MSt :=
  let base := blockNo d x.mIdx x.nIdx * 16384
  let same := fun k => k / 16384 == blockNo d x.mIdx x.nIdx
  { x with keep := x.acc.foldl (fun m p => SMap.put m (base + p.1) p.2) (x.keep.filter fun p => !same p.1)
           keepPoison := (x.keepPoison.filter fun k => !same k) ++ x.accPoison.map (· + base) }

/-- The checks of a K-step have passed: the next K-step, the next sub-block (R65), or the end of the block (R71, R74), and with the last block the
next descriptor (R69). -/
def State.kDone (s : State) (c d : Nat) : State :=
  let x := s.mst c
  if x.kIdx + 1 < dSteps d then (s.modM c fun x => { x with kIdx := x.kIdx + 1, phase := .stream }).mProgress c
  else if dFlow d = 1 ∧ 32 * (x.sub + 1) < dRows d then
    (s.modM c fun x => { x with kIdx := 0, sub := x.sub + 1, phase := .stream }).mProgress c
  else
    let s := if dAqueue d ∧ x.nIdx + 1 = dNloops d then s.releaseRows c d else s
    let s := if dKeep d then s.modM c fun x => x.keepBlock d else s.writeBack c d
    let s := match nextBlock d x.mIdx x.nIdx with
      | some (m, n) => s.startBlock c d m n
      | none => s.modM c fun x =>
        { x with desc := x.desc + 1, phase := if dLast d then .done else .idle
                 cues := if dKeep d ∧ dPostCue d then x.cues ++ [dDoneEp d] else x.cues }
    s.mProgress c

/-- Check groups of a K-step from one on: those of the block, or the sub-block itself (R76). -/
def groupsFrom (d sub g : Nat) : List Nat :=
  (if dFlow d = 1 then [sub] else List.range ((dRows d + 31) / 32)).filter fun k => decide (g ≤ k)

/-- Rows of a group with the places of their operands. -/
def groupPlaces (d g : Nat) : List (Nat × Nat) := (groupRows d g).map fun r => (if dFlow d = 1 then r - 32 * g else r, r)

/-- Check the groups one after the other (R80-R82): a mismatch under policy 0 puts the old values of its group back and
starts a replay; under 1 it is a checksum fault; under 2 it is recorded and counted. -/
def State.runChecks (s : State) (c d : Nat) : List Nat → State
  | [] => s.kDone c d
  | g :: gs =>
    let r := checkGroup (dInt d) (s.mst c) (groupPlaces d g) (Config.freeValue s.freeIdx).toNat
    let s := { s with freeIdx := s.freeIdx + 1 }
    let s := s.inc (Reg.MC_CK_COUNTS_skip_count c) r.skips
    if r.hit then
      let s := s.marginRecord c r false
      match dPolicy d with
      | 0 => s.modM c fun x => { x with phase := .replay, group := g }
      | 2 => State.runChecks (s.inc (Reg.MC_CK_COUNTS_replay_ok_count c)) c d gs
      | _ => s.checksumFault c
    else State.runChecks s c d gs

/-- K_STEP_CHECK (R77): the margin resolves the checks of the K-step. -/
def execKStepCheck (c : CellAddr) (s : State) : Res :=
  let a := c.toNat
  onM c s fun s =>
    let x := s.mst a
    match s.descAt a x.desc with
    | some d => if x.phase = .check then s.runChecks a d (groupsFrom d x.sub x.group) else s
    | none => s

/-- Put the old values of a group back (R80). -/
def MSt.restore (x : MSt) (rows : List Nat) : MSt :=
  let mine := fun k => rows.contains (k / 32)
  { x with acc := (x.old.filter fun p => mine p.1).foldl (fun m p => SMap.put m p.1 p.2) (x.acc.filter fun p => !mine p.1)
           accPoison := (x.accPoison.filter fun k => !mine k) ++ x.oldPoison.filter mine }

/-- Replay the K-step of the group from the same banks or messages, and check it again (R80, R81). DESIGN CHOICE (log 118): units
skipped in the replay are counted again. -/
def State.replay (s : State) (c d : Nat) (hw : MHw) : State :=
  let g := (s.mst c).group
  let rows := groupRows d g
  let s := s.modM c fun x => x.restore rows
  let q := s.readOps c d rows hw.ecc
  if q.2.fenced c then q.2
  else
    let s := q.2.modM c fun x => x.step (dInt d) q.1 rows none hw.wrong
    let x := { s.mst c with ops := q.1 }
    let r := checkGroup (dInt d) x (foldIdx (fun j acc r => acc ++ [(j, r)]) 0 [] rows) (Config.freeValue s.freeIdx).toNat
    let s := { s with freeIdx := s.freeIdx + 1 }
    let s := s.inc (Reg.MC_CK_COUNTS_skip_count c) r.skips
    if r.hit then (s.marginRecord c r true).checksumFault c
    else
      let e := fourthIn1s s.now (s.cell c).eng.corrected
      let s := (s.modEng c fun y => { y with corrected := e.2 }).inc (Reg.MC_CK_COUNTS_replay_ok_count c)
      if e.1 then s.checksumFault c
      else (s.modM c fun x => { x with phase := .check, group := g + 1 }).mProgress c

/-- REPLAY_DONE (R80). -/
def execReplayDone (c : CellAddr) (hw : MHw) (s : State) : Res :=
  let a := c.toNat
  onM c s fun s =>
    let x := s.mst a
    match s.descAt a x.desc with
    | some d => if x.phase = .replay then s.replay a d hw else s
    | none => s

/-! ### The drain (R72, R73) -/

/-- Poison of the 32-bit-aligned granule i of a row of elements of `w` bits. -/
def rowGranPoison (w : Nat) (p n i : Nat) : Bool :=
  (List.range n).any fun k => bitAt p k && k * w / 256 == i

/-- Write a row to its bank (R63, R68): whole words where the row fills them, a read-modify-write of the others
(R130). -/
def State.drainBank (s : State) (c d : Nat) (r : DrainRow) (ecc : List EccEvent) : State :=
  let ar := dArea d 5
  let w := fmtBits (dOfmt d)
  let o := ar.bank * 0x100000 + ar.off + (r.mIdx * dRows d + r.row) * ar.stride + r.nIdx * 32 * w / 8
  let bs := packElems (dOfmt d) r.vals
  foldIdx (fun i s (part : List Byte) =>
    if part.length = 32 then s.writeWord c (o + 32 * i) ⟨part, rowGranPoison w r.poison r.vals.length i⟩
    else s.writePart c (o + 32 * i) part (rowGranPoison w r.poison r.vals.length i) ecc) 0 s (chunks 32 bs.length bs)

/-- The message of a row (R72). -/
def drainGrans (d : Nat) (r : DrainRow) : List Gran :=
  toGrans (rowGranPoison (fmtBits (dOfmt d)) r.poison r.vals.length) (packElems (dOfmt d) r.vals)

/-- A row has left: with the descriptor's last row its done cue is owed, and the last descriptor's last row and cue end
the beat (R68, R69, R211). -/
def State.rowGone (s : State) (c d : Nat) (r : DrainRow) : State :=
  let s := s.modM c fun x =>
    { x with drain := x.drain.drop 1, cues := if r.last ∧ dPostCue d then x.cues ++ [dDoneEp d] else x.cues }
  (s.postCues c).mProgress c

/-- The chain has run: its beat ends. -/
def State.chainEnd (s : State) (c : Nat) (ecc : List EccEvent) : State :=
  let x := s.mst c
  if x.phase = .done ∧ x.drain.isEmpty ∧ x.cues.isEmpty then s.beatEnd c ecc else s

/-- DRAIN_ROW (R72): the first waiting row goes to its bank or endpoint; a full endpoint holds it. -/
def execDrainRow (c : CellRead) (s : State) : Res :=
  let a := c.cell.toNat
  onM c.cell s fun s =>
    match (s.mst a).drain with
    | r :: _ =>
      match s.descAt a r.desc with
      | some d =>
        if dOqueue d then
          let t := s.epSend a (dOep d) (drainGrans d r)
          if t.1 then (t.2.rowGone a d r).chainEnd a c.ecc else t.2.engineWait a (.queue (dOep d))
        else
          let s := s.drainBank a d r c.ecc
          if s.fenced a then s else (s.rowGone a d r).chainEnd a c.ecc
      | none => s
    | [] => (s.postCues a).chainEnd a c.ecc

end Sys2Proof.Machine
end

