-- ==== Sys2Proof/Machine/ValidProg.lean ====
section
/-! DEFINITION. What PACKAGE_LOAD tests in the engine section of an image: V-cell and S-cell programs (R88, R89, R106, R107,
R121) and M-cell descriptor chains (R35, R62, R63, R68-R72, R188). -/

namespace Sys2Proof.Machine

/-! ### V-cell programs -/

/-- How an opcode uses a register field: not at all, as a vector, as an address register, as a mask register. -/
inductive VUse where
  | none | vec | addr | mask
deriving DecidableEq, Repr

/-- Which formats an opcode takes (Table 4.3). -/
inductive VFmts where
  | none | f | f2 | i | fi | any | cvt | mx | s16 | block
deriving DecidableEq, Repr

/-- The fields an opcode uses: vd, va, vb, vc, the mask, `sat` and `ftz`, the formats, and the bits of the immediate. -/
structure VForm where
  vd : VUse
  va : VUse
  vb : VUse
  vc : VUse
  masked : Bool
  sat : Bool
  ftz : Bool
  fmts : VFmts
  imm : Nat
deriving DecidableEq, Repr

/-- Whether a register field keeps R88. -/
def VUse.ok (u : VUse) (r : Nat) : Bool :=
  match u with
  | .none => r == 0
  | .vec => true
  | .addr => r < 16
  | .mask => r < 8

/-- Whether a format code is allowed (Table 4.3). -/
def VFmts.ok (k : VFmts) (f : Nat) : Bool :=
  match k with
  | .none => f == 0
  | .f => f ≤ 4
  | .f2 => f ≤ 1
  | .i => f == 0x0E
  | .fi => f ≤ 4 || f == 0x0E
  | .any => fmtValid f
  | .cvt => f ≤ 4 || f == 0x0A || f == 0x0B
  | .mx => fmtMx f
  | .s16 => fmtS16 f
  | .block => fmtMx f || fmtS16 f

/-- Table 4.3; none for a reserved opcode. -/
def vForm (op : Nat) : Option VForm :=
  let all := 0xFFFFFF
  if op = 0x00 then some ⟨.none, .none, .none, .none, false, false, false, .none, 0⟩
  else if 0x01 ≤ op ∧ op ≤ 0x03 then some ⟨.vec, .vec, .vec, .none, true, true, true, .f, 0⟩
  else if op = 0x04 then some ⟨.vec, .vec, .vec, .vec, true, true, true, .f, 0⟩
  else if op = 0x05 ∨ op = 0x06 then some ⟨.vec, .vec, .vec, .none, true, true, true, .fi, 0⟩
  else if op = 0x07 ∨ op = 0x08 then some ⟨.vec, .vec, .none, .none, true, true, true, .fi, 0⟩
  else if op = 0x09 then some ⟨.mask, .vec, .vec, .none, true, false, true, .fi, 7⟩
  else if op = 0x0A then some ⟨.vec, .vec, .vec, .none, true, false, false, .any, 0⟩
  else if op = 0x0B then some ⟨.vec, .vec, .none, .none, true, false, false, .any, 0⟩
  else if 0x10 ≤ op ∧ op ≤ 0x12 then some ⟨.vec, .vec, .vec, .none, true, false, false, .i, 0⟩
  else if 0x13 ≤ op ∧ op ≤ 0x15 then some ⟨.vec, .vec, .vec, .none, true, false, false, .any, 0⟩
  else if 0x16 ≤ op ∧ op ≤ 0x18 then some ⟨.vec, .vec, .vec, .none, true, false, false, .i, 0⟩
  else if op = 0x20 then some ⟨.vec, .vec, .none, .none, true, true, false, .cvt, 0xFFFF03⟩
  else if op = 0x21 then some ⟨.vec, .vec, .none, .none, true, false, true, .cvt, 3⟩
  else if op = 0x22 then some ⟨.vec, .vec, .none, .vec, true, false, false, .mx, 7⟩
  else if op = 0x23 then some ⟨.vec, .vec, .addr, .vec, true, false, false, .s16, 7⟩
  else if op = 0x24 then some ⟨.vec, .vec, .vec, .addr, true, false, true, .block, 7⟩
  else if op = 0x25 then some ⟨.vec, .vec, .none, .none, true, false, false, .i, 0⟩
  else if op = 0x26 then some ⟨.vec, .vec, .none, .none, true, false, false, .f2, 0⟩
  else if 0x30 ≤ op ∧ op ≤ 0x36 then some ⟨.vec, .vec, .none, .none, true, false, false, .f2, 0⟩
  else if op = 0x40 then some ⟨.vec, .vec, .none, .none, true, false, true, .f, 0⟩
  else if 0x41 ≤ op ∧ op ≤ 0x43 then some ⟨.vec, .vec, .none, .none, true, false, true, .fi, 0⟩
  else if op = 0x44 then some ⟨.vec, .vec, .none, .none, true, false, false, .i, 0⟩
  else if op = 0x48 then some ⟨.vec, .vec, .vec, .none, true, false, false, .any, 0⟩
  else if op = 0x49 ∨ op = 0x4A then some ⟨.vec, .vec, .none, .none, true, false, false, .any, all⟩
  else if op = 0x4B then some ⟨.vec, .addr, .none, .none, true, false, false, .any, 0⟩
  else if op = 0x4C then some ⟨.addr, .vec, .none, .none, false, false, false, .any, 0x3F⟩
  else if op = 0x4D then some ⟨.mask, .mask, .mask, .none, false, false, false, .none, 3⟩
  else if op = 0x50 ∨ op = 0x51 then some ⟨.vec, .addr, .none, .none, true, false, false, .any, all⟩
  else if op = 0x52 then some ⟨.vec, .addr, .vec, .none, true, false, false, .any, 0⟩
  else if op = 0x53 then some ⟨.none, .addr, .vec, .vec, true, false, false, .any, 0⟩
  else if op = 0x58 then some ⟨.vec, .addr, .none, .none, true, false, false, .any, 0x1F⟩
  else if op = 0x59 then some ⟨.vec, .none, .none, .none, false, false, false, .any, 0x1FF⟩
  else if op = 0x5A then some ⟨.addr, .none, .none, .none, false, false, false, .none, 0x1F⟩
  else if op = 0x5B then some ⟨.none, .addr, .none, .none, false, false, false, .none, 0x1F⟩
  else if op = 0x60 then some ⟨.addr, .none, .none, .none, false, false, false, .none, all⟩
  else if op = 0x61 then some ⟨.addr, .addr, .none, .none, false, false, false, .none, all⟩
  else if op = 0x62 then some ⟨.none, .addr, .none, .none, false, false, false, .none, 0x1FF⟩
  else if op = 0x63 then some ⟨.none, .none, .none, .none, false, false, false, .none, all⟩
  else if op = 0x64 then some ⟨.none, .addr, .none, .none, false, false, false, .none, all⟩
  else if op = 0x65 then some ⟨.none, .none, .none, .none, false, false, false, .none, 0⟩
  else none

/-- Parts of 64 elements that fit in a vector (R91). -/
def partsOf (fmt : Nat) : Nat := 2048 / partBits fmt

/-- Whether a granule count keeps cause 0x03 of Table 4.6 at an endpoint: 1 to `max_granules`, and exactly that on a
circuit. -/
def vsendOk (r n : Nat) : Bool := 1 ≤ n && n ≤ epMaxGran r && (epPacket r || n == epMaxGran r)

/-- Whether an instruction of a V-cell program keeps R88-R91, R96 and R121 on its own. -/
def vInstrOk (ep : Nat → Nat) (len pc i : Nat) : Bool :=
  match vForm (vOp i) with
  | none => false
  | some f =>
    let op := vOp i
    let imm := vImm i
    let queue := 0x58 ≤ op && op ≤ 0x5B
    let part := if op = 0x20 ∨ op = 0x21 then bits imm 0 2 else bits imm 0 3
    f.vd.ok (vVd i) && f.va.ok (vVa i) && f.vb.ok (vVb i) && f.vc.ok (vVc i) && (f.masked || vMask i == 0) &&
      (f.sat || !vSat i) && (f.ftz || !vFtz i) && (!vRound i || op == 0x20) && !bitAt i 39 && f.fmts.ok (vFmt i) &&
      imm &&& f.imm == imm &&
      (!(0x20 ≤ op && op ≤ 0x24) || part < partsOf (vFmt i)) &&
      (!(op == 0x50 || op == 0x51) || (imm % 32 == 0 && imm < 2 ^ 22)) &&
      (!queue || epKind (ep (vEp i)) != 0) &&
      (op != 0x59 || vsendOk (ep (vEp i)) (if bits imm 5 4 = 0 then 8 else bits imm 5 4)) &&
      (!(op == 0x63 || op == 0x64) || (0 ≤ (pc : Int) + vSimm i && (pc : Int) + vSimm i < len)) &&
      (op != 0x62 || pc + bits imm 0 9 < len)

/-- Where a V-cell instruction may go on: its successors, and whether it ends the program. -/
def vSucc (pc i : Nat) : List Nat × Bool :=
  let op := vOp i
  let dest := ((pc : Int) + vSimm i).toNat
  if op = 0x65 then ([], true)
  else if op = 0x63 then ([dest], false)
  else if op = 0x64 then ([pc + 1, dest], false)
  else if op = 0x62 then ([pc + 1, pc + 1 + bits (vImm i) 0 9], false)
  else ([pc + 1], false)

/-! ### Reachability (R121) -/

/-- Numbers reached from a work list by a successor function, below `len` (`fuel` visits). -/
def reach (len : Nat) (next : Nat → List Nat) : Nat → List Nat → List Nat → List Nat
  | 0, seen, _ => seen
  | _, seen, [] => seen
  | n + 1, seen, a :: as =>
    if len ≤ a ∨ seen.contains a then reach len next n seen as else reach len next n (a :: seen) (next a ++ as)

/-- An end instruction is reachable from instruction 0 over every path, and no path without a JR runs past the last
instruction (R121). `next` gives successors and whether the instruction ends; `jr` which instructions are a JR. -/
def flowOk (prog : List Nat) (next : Nat → Nat → List Nat × Bool) (jr : Nat → Bool) : Bool :=
  let n := prog.length
  let word := fun pc => nth prog pc 0
  let go := fun pc => (next pc (word pc)).1
  let free := reach n go (8 * n + 8) [] [0]
  let all := if free.any fun pc => jr (word pc) then List.range n else free
  (all.any fun pc => (next pc (word pc)).2) && free.all fun pc => (go pc).all fun q => q < n

/-- A V-cell program (R121). -/
def vProgOk (ep : Nat → Nat) (prog : List Nat) : Bool :=
  let n := prog.length
  1 ≤ n && n ≤ 512 && foldIdx (fun pc a i => a && vInstrOk ep n pc i) 0 true prog && flowOk prog vSucc fun _ => false

/-! ### S-cell programs -/

/-- Formats of Table 4.7. -/
inductive SFormat where
  | a | i | w | b | c
deriving DecidableEq, Repr

/-- Format of an opcode (Table 4.8); none for a reserved opcode. -/
def sFormat (op : Nat) : Option SFormat :=
  if op ≤ 0x0E ∨ op = 0x1C ∨ op = 0x1E ∨ (0x24 ≤ op ∧ op ≤ 0x27) ∨ op = 0x2A ∨ op = 0x35 ∨ op = 0x36 ∨ op = 0x3D then some .a
  else if (0x10 ≤ op ∧ op ≤ 0x16) ∨ op = 0x1D ∨ (0x20 ≤ op ∧ op ≤ 0x23) ∨ (0x37 ≤ op ∧ op ≤ 0x3C) ∨ op = 0x3E then some .i
  else if op = 0x18 ∨ op = 0x19 then some .w
  else if op = 0x28 ∨ op = 0x29 ∨ op = 0x3F then some .b
  else if 0x30 ≤ op ∧ op ≤ 0x34 then some .c
  else none

/-- Largest `func` that an A-format opcode defines (R107). -/
def funcMax (op : Nat) : Nat :=
  if op = 0x1C then 5 else if op = 0x1E ∨ op = 0x26 ∨ op = 0x27 then 3 else if op = 0x35 then 127 else 0

/-- Alignment an immediate offset must keep on its own (R111). -/
def immAlign (op : Nat) : Nat := if op = 0x20 ∨ op = 0x22 then 8 else if op = 0x21 ∨ op = 0x23 then 4 else 1

/-- Whether an instruction of an S-cell program keeps R106, R107, R111, R114 and R121 on its own: an address from g0 is the immediate alone,
and lies in bank 0. -/
def sInstrOk (ep : Nat → Nat) (owner0 len pc i : Nat) : Bool :=
  let op := sOp i
  match sFormat op with
  | none => false
  | some .a => sFunc i ≤ funcMax op && (!(op == 0x35 || op == 0x36) || sGa i != 0 || owner0 == 0)
  | some .i =>
    if op = 0x3E then decide (0 ≤ sImm i ∧ sImm i ≤ 3)
    else if 0x20 ≤ op ∧ op ≤ 0x23 then
      sImm i % immAlign op == 0 && (sGa i != 0 || (decide (0 ≤ sImm i) && owner0 == 0))
    else if op = 0x3B then sGa i != 0 || (decide (0 ≤ sImm i) && owner0 == 0)
    else true
  | some .w => !bitAt i 15
  | some .b => if op = 0x3F then sOff i == 0 else decide (0 ≤ (pc : Int) + sOff i ∧ (pc : Int) + sOff i < len)
  | some .c => epKind (ep (sEp i)) != 0 && (op != 0x34 || epPair (ep (sEp i))) &&
      (!(op == 0x32 || op == 0x33 || op == 0x34) || sCa i != 0 || owner0 == 0)

/-- Where an S-cell instruction may go on. A guard other than p0 is taken both ways (R121). -/
def sSucc (pc i : Nat) : List Nat × Bool :=
  let op := sOp i
  let dest := ((pc : Int) + sOff i).toNat
  let skip := if sGuardP i = 0 ∧ !sGuardN i then [] else [pc + 1]
  if op = 0x3F then (skip, true)
  else if op = 0x28 ∨ op = 0x29 then (dest :: skip, false)
  else if op = 0x2A then (skip, false)
  else ([pc + 1], false)

/-- An S-cell program (R121). -/
def sProgOk (ep : Nat → Nat) (owner0 : Nat) (prog : List Nat) : Bool :=
  let n := prog.length
  1 ≤ n && n ≤ 4096 && foldIdx (fun pc a i => a && sInstrOk ep owner0 n pc i) 0 true prog &&
    flowOk prog sSucc fun i => sOp i == 0x2A

/-! ### M-cell descriptors -/

/-- Whether a descriptor's reserved fields are zero and its codes defined (R68, Table 3.3). -/
def dscClean (d : Nat) : Bool :=
  dsc d 0 0 2 ≤ 1 && dsc d 0 7 1 == 0 && dInit d != 3 && dsc d 0 13 3 == 0 && dsc d 0 21 3 == 0 && dsc d 0 29 3 == 0 &&
    dsc d 0 37 3 == 0 && ([1, 2, 3, 4, 5, 6].all fun w => dsc d w 3 1 == 0 && dsc d w 44 20 == 0) && dsc d 9 32 32 == 0 &&
    bits d 640 384 == 0 && 1 ≤ dRows d && dRows d ≤ 512 && 1 ≤ dCols d && dCols d ≤ 32 && 1 ≤ dKlen d && 1 ≤ dMloops d &&
    1 ≤ dNloops d

/-- Whether the operand and output formats go together (R35, R62). -/
def dscFmts (d : Nat) : Bool :=
  let fa := dAfmt d
  let fb := dBfmt d
  let fo := dOfmt d
  fmtValid fa && fmtValid fb && fmtValid fo && fa != 0 && fb != 0 && fa != 0x0E && fb != 0x0E && fmtInt fa == fmtInt fb &&
    (fo ≤ 4 || (fo == 0x0E && fmtInt fa)) && !(dRound d && (fo == 0 || fo == 0x0E))

/-- Whether an operand area of `rows` rows of `n` bytes keeps R63, R68 and its bank, which the array port owns. -/
def areaIn (owner : Nat → Nat) (a : Area) (rows n unit : Nat) : Bool :=
  a.bank < 6 && owner a.bank == 0 && a.off % 32 == 0 && a.stride % unit == 0 && a.off + (rows - 1) * a.stride + n ≤ 0x100000

/-- Scale bytes of an operand row. -/
def scaleBytes (fmt k : Nat) : Nat := if fmtBlock fmt = 0 then 0 else (k + fmtBlock fmt - 1) / fmtBlock fmt

/-- Row strides are multiples of 32, of 96 for the 6-bit formats (R63). -/
def strideUnit (fmt : Nat) : Nat := if fmtBits fmt = 6 then 96 else 32

/-- Granules of an A row in a message (R71). -/
def aRowGran (d : Nat) : Nat := (packedBytes (dAfmt d) (dKlen d) + 31) / 32 + (scaleBytes (dAfmt d) (dKlen d) + 31) / 32

/-- Granules of an output row in a message (R72). -/
def outRowGran (d : Nat) : Nat := (packedBytes (dOfmt d) (dCols d) + 31) / 32

/-- Whether a cue endpoint steers a gate of its cell, which alone reads it (R193). -/
def steers (ep : Nat → Nat) (n : Nat) : Bool :=
  (List.range 32).any fun k => epKind (ep k) != 0 && epGate (ep k) && epGateCue (ep k) == n

/-- Whether a descriptor keeps R70 on its own: of a winged endpoint each message takes `max_granules` (R197); a chorus endpoint carries
FP32, BF16 and INT32 alone (R35). DESIGN CHOICE (log 87): banks are tested where the descriptor uses them. -/
def dscOk (ep owner : Nat → Nat) (d : Nat) : Bool :=
  let rows := dRows d * dMloops d
  let cols := 32 * (dNloops d - 1) + dCols d
  let accB := 4 * cols
  let fa := dAfmt d
  let fb := dBfmt d
  let c := (dArea d 5).bank
  let carries := fun (e n : Nat) => epKind e == 1 && n ≤ epMaxGran e && (epPacket e || n == epMaxGran e)
  dscClean d && dscFmts d && dPolicy d < 2 &&
    (if dAqueue d then
      carries (ep (dAep d)) (aRowGran d) && !epSends (ep (dAep d)) && !(dOrder d == 1 && 1 < dMloops d) &&
        dRows d * (if epWings (ep (dAep d)) = 0 then aRowGran d else epMaxGran (ep (dAep d))) ≤ epStorage (ep (dAep d))
    else areaIn owner (dArea d 1) rows (packedBytes fa (dKlen d)) (strideUnit fa) &&
      (fmtBlock fa == 0 || areaIn owner (dArea d 2) rows (scaleBytes fa (dKlen d)) 32)) &&
    areaIn owner (dArea d 3) cols (packedBytes fb (dKlen d)) (strideUnit fb) &&
    (fmtBlock fb == 0 || areaIn owner (dArea d 4) cols (scaleBytes fb (dKlen d)) 32) &&
    (if dOqueue d then
      let e := ep (dOep d)
      epSends e && (carries e (outRowGran d) || (epKind e == 2 && outRowGran d == epMaxGran e && (dOfmt d ≤ 1 || dOfmt d == 0x0E))) &&
        (!epItemMode e || epKind e != 2 || (epImRows e == dRows d && epImM e == dMloops d && epImN e == dNloops d &&
          epImOrder e == (dOrder d == 1)))
    else areaIn owner (dArea d 5) rows (packedBytes (dOfmt d) cols) 32 &&
      (dAqueue d || c != (dArea d 1).bank) && (dAqueue d || fmtBlock fa == 0 || c != (dArea d 2).bank) && c != (dArea d 3).bank &&
      (fmtBlock fb == 0 || c != (dArea d 4).bank)) &&
    (dInit d != 1 || areaIn owner (dArea d 6) rows accB 32) &&
    (!dWaitCue d || (epKind (ep (dCueEp d)) == 3 && !epSends (ep (dCueEp d)) && !steers ep (dCueEp d))) &&
    (!dPostCue d || (epKind (ep (dDoneEp d)) == 3 && epSends (ep (dDoneEp d))))

/-- The output-side fields of a descriptor (R69; which they are, log 87): the format, the destination, the output rows, rounding and
saturation. -/
def outSide (d : Nat) : List Nat := [dOfmt d, b2n (dOqueue d), dOep d, dsc d 5 0 44, b2n (dRound d), b2n (dSat d)]

/-- Whether a descriptor may follow another (R69). -/
def follows (prev d : Nat) : Bool :=
  dInit d != 2 || (dKeep prev && dRows prev == dRows d && dCols prev == dCols d && dMloops prev == dMloops d &&
    dNloops prev == dNloops d && dOrder prev == dOrder d && outSide prev == outSide d)

/-- A chain of descriptors (R69, R70): `last` on the final one alone. -/
def chainOk (ep owner : Nat → Nat) (ds : List Nat) : Bool :=
  let n := ds.length
  1 ≤ n && n ≤ 64 && ds.all (dscOk ep owner) &&
    foldIdx (fun i a d => a && dLast d == (i + 1 == n) && (i + 1 != n || !dKeep d) &&
      (if i = 0 then dInit d != 2 else follows (nth ds (i - 1) 0) d)) 0 true ds

end Sys2Proof.Machine
end

