-- ==== Sys2Proof/Machine/ValidImage.lean ====
section
/-! DEFINITION. What PACKAGE_LOAD tests in a scene image (R35, R114, R134, R181, R185, R187, R206): endpoints, grants, windows,
header. -/

namespace Sys2Proof.Machine

/-- Bytes `lo` up to `hi` of a bank. -/
structure Span where
  bank : Nat
  lo : Nat
  hi : Nat
deriving DecidableEq, Repr

/-- Whether two spans share a byte. -/
def Span.meets (a b : Span) : Bool := a.bank == b.bank && a.lo < b.hi && b.lo < a.hi

/-- Whether no two spans of a list share a byte. -/
def apart : List Span → Bool
  | [] => true
  | a :: as => as.all (fun b => !a.meets b) && apart as

/-- Queue storage and wings of a receiving endpoint. -/
def epSpan (r : Nat) : Span := ⟨epBank r, epOffset r, epOffset r + 2 ^ epDepthLog r + epWings r * 4096⟩

/-- Whether an endpoint receives. -/
def epReceives (r : Nat) : Bool := epKind r != 0 && !epSends r

/-- Whether an endpoint record sets no reserved field (Table 7.3). -/
def epClean (r : Nat) : Bool :=
  bits r 42 6 == 0 && bits r 93 3 == 0 && bits r 171 21 == 0 && bits r 192 64 == 0 &&
    (if epKind r = 2 then bits r 123 5 == 0 else if epKind r = 1 then bits r 104 24 == 0 else true)

/-- Whether the gate of an endpoint names endpoints of its cell (R185, R193). -/
def gateOk (ep : Nat → Nat) (r : Nat) : Bool :=
  !epGate r || (1 ≤ epGateN r && ((List.range (epGateN r + 1)).all fun i => epKind (ep (epGatePort r i)) != 0) &&
    epKind (ep (epGateCue r)) == 3)

/-- Whether an endpoint keeps the ranges of Table 7.3 and R185: `cell` is the logical cell, `owner` the bank owners. -/
def epOk (cell : Nat) (ep owner : Nat → Nat) (nchans n : Nat) : Bool :=
  let r := ep n
  let store := 2 ^ epDepthLog r / 32
  epClean r && (epKind r == 0 ||
    ((epOpen r || epChan r < nchans) && gateOk ep r &&
      (if epKind r = 3 then epMaxGran r == 0 else 1 ≤ epMaxGran r && epMaxGran r ≤ 128) &&
      (epSends r || (6 ≤ epDepthLog r && epDepthLog r ≤ 18 && epOffset r % 32 == 0 && epBank r < bankCount cell &&
        owner (epBank r) == 1 && (epSpan r).hi ≤ 0x100000 && (epKind r == 3 || epMaxGran r ≤ store))) &&
      (!epPair r || (engineOf cell == .s && n % 2 == 0 && epKind r == 1 && !epSends r && epKind (ep (n + 1)) == 1 &&
        !epSends (ep (n + 1)))) &&
      (epWings r == 0 || (epWings r ≤ 128 && epMaxGran r &&& (epMaxGran r - 1) == 0)) &&
      (epKind r != 2 || (!epPacket r && (epSends r || (epChFmt r != 3 && 5 ≤ epSlotLog r && epSlotLog r ≤ 12 &&
        epSlotLog r ≤ epDepthLog r)) && (!epItemMode r || (1 ≤ epImRows r && epImRows r ≤ 512 && 1 ≤ epImM r && 1 ≤ epImN r))))))

/-- A static grant or window: bank, offset and length inside a bank that mesh ingress owns (R133, R134). -/
def winSpan (r : Nat) : Span := ⟨winBank r, winOffset r, winOffset r + winLength r⟩

/-- Whether a span of a grant or window lies as R134 asks. -/
def landingOk (cell : Nat) (owner : Nat → Nat) (r : Nat) : Bool :=
  winBank r < bankCount cell && owner (winBank r) == 1 && winOffset r % 32 == 0 && winLength r % 32 == 0 && 32 ≤ winLength r &&
    (winSpan r).hi ≤ 0x100000

/-- Static grants in use of an image. -/
def grantsOf (im : SceneImage) : List (Nat × Nat) := ((List.range 32).map im.grantRec).filter fun g => bitAt g.1 0

/-- Dynamic windows in use of an image. -/
def windowsOf (im : SceneImage) : List (Nat × Nat) := ((List.range 8).map im.winRec).filter fun g => bitAt g.1 0

/-- Grants and windows of an image (R133, R134). -/
def landingsOk (cell : Nat) (im : SceneImage) : Bool :=
  let qs := (((List.range 32).map im.epRec).filter epReceives).map epSpan
  let gs := grantsOf im
  let ws := windowsOf im
  gs.all (fun g => bits g.1 45 19 == 0 && bits g.2 16 48 == 0 && cellValid (bits g.2 0 16) && landingOk cell im.owner g.1) &&
    ws.all (fun w => bits w.1 53 11 == 0 && w.2 == 0 && winWriters w.1 != 0 && landingOk cell im.owner w.1) &&
    apart (ws.map fun w => winSpan w.1) &&
    ws.all (fun w => gs.all fun g => !(winSpan w.1).meets (winSpan g.1)) &&
    (gs ++ ws).all fun g => qs.all fun q => !q.meets (winSpan g.1)

/-- Code of an engine (Table 8.2). -/
def Engine.code (e : Engine) : Nat := match e with | .m => 0 | .v => 1 | .s => 2

/-- Header, bindings and reserved bytes of an image (Tables 8.1, 8.2). -/
def imageHeadOk (cell : Nat) (im : SceneImage) : Bool :=
  let e := engineOf cell
  bits (im.word 0) 0 4 == 1 && im.engine == e.code && bits (im.word 0) 9 7 == 0 && bits (im.word 0) 16 16 == im.eng.length &&
    bits (im.word 0) 32 32 == 0x800 + im.eng.length * engineEntry e && bits (im.word 2) 6 58 == 0 && im.logical == cell &&
    bits (im.word 3) 16 48 == 0 && ([4, 5, 6, 7].all fun k => im.word k == 0) &&
    ((List.range 8).all fun k => k < bankCount cell || im.owner k == 0) && bits (im.word 0xD8) 16 16 == 0 &&
    ((List.range 15).all fun i => bits (im.binding i) 14 18 == 0) && ((List.range 32).all fun k => im.word (0xE0 + k) == 0) &&
    im.head.length ≤ 256 &&
    (!im.endValid || (epKind (im.epRec im.endEp) == 3 && !epSends (im.epRec im.endEp)))

/-- A scene image of a logical cell (order 4 of Table 8.5). -/
def imageOk (cell nchans : Nat) (im : SceneImage) : Bool :=
  let ep := im.epRec
  let rx := ((List.range 32).map ep).filter epReceives
  imageHeadOk cell im && (List.range 32).all (epOk cell ep im.owner nchans) && apart (rx.map epSpan) &&
    (rx.map fun r => (epSpan r).hi - (epSpan r).lo).sum ≤ 0x100000 &&
    ((List.range 32).filter fun n => epGate (ep n) && epKind (ep n) != 0).length ≤ 8 &&
    ((List.range 32).filter fun n => epPair (ep n) && epKind (ep n) != 0).length ≤ 2 && landingsOk cell im &&
    (match engineOf cell with
      | .m => chainOk ep im.owner im.eng
      | .v => vProgOk ep im.eng
      | .s => sProgOk ep (im.owner 0) im.eng)

end Sys2Proof.Machine
end

