-- ==== Sys2Proof/Machine/ValidRig.lean ====
section
/-! DEFINITION. What PACKAGE_LOAD tests in the rigging section (R156-R162), the combine trees and group masks (R170, R171). -/

namespace Sys2Proof.Machine

/-- Whether a port of a block connects to something (Table 6.1). -/
def portOk (b p : Nat) : Bool := if p < 4 then (neighbour b p).isSome || (hubPort b p).isSome else p ≤ 10

/-- Outputs of a mask. -/
def maskPorts (m : Nat) : List Nat := (List.range 11).filter fun o => bitAt m o

/-- Entries of an output's table that feed from a stage (input port * 16 + stage). -/
def feedSlots (v : Variant) (b out key : Nat) : List Nat :=
  (List.range (slotCount b out)).filter fun e => slotUsed (slotEntry v out e) && slotKey (slotEntry v out e) == key

/-- Whether the entries of one variant keep Table 6.6: reserved bits, ports, at most five branches, slots and stages that
match. -/
def variantOk (b : Nat) (v : Variant) : Bool :=
  v.slots.all (fun p =>
    let out := p.1 / 64
    let k := slotKey p.2
    p.2 < 2 ^ 16 && bits p.2 9 7 == 0 && (!slotUsed p.2 ||
      (portOk b out && p.1 % 64 < slotCount b out && portOk b (bits p.2 1 4) &&
        bitAt (stageMask (stageEntry v (k / 16) (k % 16))) out))) &&
    v.stages.all (fun p =>
      p.2 < 2 ^ 16 && bits p.2 13 3 == 0 && (!bitAt p.2 0 ||
        (portOk b (p.1 / 16) && bits p.2 1 11 != 0 && (maskPorts (stageMask p.2)).length ≤ 5 &&
          bitAt p.2 12 == (decide (p.1 / 16 < 4) && isSeam b (p.1 / 16)) &&
          (maskPorts (stageMask p.2)).all fun o => portOk b o && !(feedSlots v b o p.1).isEmpty))) &&
    v.rx.all fun p => p.2 < 256 && bits p.2 5 3 == 0 &&
      (!bitAt p.2 4 || (decide (p.1 / 32 < 4) && isSeam b (p.1 / 32)))

/-- A crossing's record in a package. -/
def rigOf (p : Package) (b : Nat) : Option CrossRig := p.rigging.find? fun r => r.blk == b

/-- Variant i of a crossing; an empty one where the package has none. -/
def variantAt (p : Package) (b i : Nat) : Variant :=
  match rigOf p b with
  | some r => nth r.variants i ⟨[], [], []⟩
  | none => ⟨[], [], []⟩

/-- Whether a hop's stage is configured in a variant as the path says. -/
def hopIn (v : Variant) (h : PathHop) : Bool :=
  let e := stageEntry v h.inPort h.stage
  bitAt e 0 && stageMask e == h.outs.foldl (fun a o => a ||| 2 ^ o) 0

/-- Whether a circuit is present in variant i of every crossing of its path. -/
def circuitIn (p : Package) (i : Nat) (c : Circuit) : Bool := !c.path.isEmpty && c.path.all fun h => hopIn (variantAt p h.blk i) h

/-- Mesh cycle at which an entry of an output starts (R155). -/
def entryCycle (b out e : Nat) : Nat := if out < 4 ∧ isSeam b out then 2 * e else e

/-- Whether arrivals after a seam and the slots that take them in turn keep the guard of R158: for some turn, every slot
starts 8 cycles or more after its arrival. -/
def guardOk (arrive starts : List Nat) : Bool :=
  let n := starts.length
  (List.range n).any fun j => foldIdx (fun i a t => a && 8 ≤ (nth starts ((i + j) % n) 0 + 64 - t % 64) % 64) 0 true arrive

/-- Whether a circuit keeps its slot count and the seam guard in variant i (R158, R162). -/
def circuitOk (p : Package) (i : Nat) (c : Circuit) : Bool :=
  c.path.all fun h =>
    let v := variantAt p h.blk i
    let key := h.inPort * 16 + h.stage
    h.outs.all fun o =>
      let es := feedSlots v h.blk o key
      es.length == c.slots &&
        (match (if o < 4 ∧ isSeam h.blk o then neighbour h.blk o else none) with
          | none => true
          | some n =>
            let arrive := es.map fun e => 2 * e + 6
            match c.path.find? fun g => g.blk == n && g.inPort == opp o with
            | none => false
            | some g => g.outs.all fun q =>
                guardOk arrive ((feedSlots (variantAt p n i) n q (g.inPort * 16 + g.stage)).map (entryCycle n q)))

/-- Stages that a seam input's receive map gives in a variant (entry, stage). -/
def rxUsed (v : Variant) (inPort : Nat) : List (Nat × Nat) :=
  ((List.range 32).filter fun e => bitAt (rxEntry v inPort e) 4).map fun e => (e, bits (rxEntry v inPort e) 0 4)

/-- Seam entries that an output uses in a variant. -/
def seamUsed (v : Variant) (out : Nat) : List Nat := (List.range 32).filter fun e => slotUsed (slotEntry v out e)

/-- Whether the receive map of a seam input mirrors its sender's table (R157, R162): variant for variant within a fold group;
across fold groups, every used entry is mapped in every variant and every mapped entry is used in some variant. A hub-port input maps
nothing: no circuit leaves the hub, so its sender's table is empty. -/
def rxOk (p : Package) (r : CrossRig) (d : Nat) : Bool :=
  match neighbour r.blk d with
  | none => (List.range 8).all fun i => (rxUsed (variantAt p r.blk i) d).isEmpty
  | some n =>
    !isSeam r.blk d ||
    (match rigOf p n with
      | none => (List.range 8).all fun i => (rxUsed (variantAt p r.blk i) d).isEmpty
      | some q =>
        if q.foldGroup = r.foldGroup then
          (List.range 8).all fun i => seamUsed (variantAt p n i) (opp d) == (rxUsed (variantAt p r.blk i) d).map (·.1)
        else
          (List.range 8).all fun i => (seamUsed (variantAt p n i) (opp d)).all fun e =>
            (List.range 8).all fun j => bitAt (rxEntry (variantAt p r.blk j) d e) 4 &&
              (rxUsed (variantAt p r.blk j) d).all fun u => (List.range 8).any fun k => slotUsed (slotEntry (variantAt p n k) (opp d) u.1))

/-- Whether the receive maps along a circuit's seams feed the stages its path names. -/
def circuitRx (p : Package) (i : Nat) (c : Circuit) : Bool :=
  c.path.all fun h => h.outs.all fun o =>
    match (if o < 4 ∧ isSeam h.blk o then neighbour h.blk o else none) with
    | none => true
    | some n => match c.path.find? fun g => g.blk == n && g.inPort == opp o with
      | none => false
      | some g => (feedSlots (variantAt p h.blk i) h.blk o (h.inPort * 16 + h.stage)).all fun e =>
          rxEntry (variantAt p n i) (opp o) e == g.stage + 16

/-- Fold group of a circuit: that of the cell it starts from, or ends at when it starts at a hub port. -/
def circuitGroup (p : Package) (c : Circuit) : Option Nat :=
  let e := circEnds c
  ((e.1 :: e.2).findSome? fun q => if q.2 < 4 then none else
    p.cast.find? fun x => bitAt x.2 22 && bits x.2 0 16 == q.1 * 32 + (q.2 - 4)).map fun x => bits x.2 16 6

/-- The entries that a hop of a circuit has in a variant. -/
def hopEntries (v : Variant) (h : PathHop) : Nat × List (List Nat) :=
  (stageEntry v h.inPort h.stage, h.outs.map fun o => feedSlots v h.blk o (h.inPort * 16 + h.stage))

/-- Whether a crossing of another fold group gives a circuit the same entries in every variant (R161, R162). -/
def sameEverywhere (p : Package) (c : Circuit) : Bool :=
  c.path.all fun h => match rigOf p h.blk with
    | none => true
    | some r => circuitGroup p c == some r.foldGroup ||
        (List.range 8).all fun i => hopEntries (variantAt p h.blk i) h == hopEntries (variantAt p h.blk 0) h

/-- The hops of a circuit at crossings of its own fold group; all of them where there is none. -/
def ownHops (p : Package) (c : Circuit) : List PathHop :=
  let own := c.path.filter fun h => (rigOf p h.blk).map (·.foldGroup) == circuitGroup p c
  if own.isEmpty then c.path else own

/-- Whether a circuit is wholly in variant i or wholly out of it: a stage of its own group's crossings that is configured there serves
another circuit (R162: a circuit's outputs all have its slot count). -/
def wholeIn (p : Package) (i : Nat) (c : Circuit) : Bool :=
  circuitIn p i c || (ownHops p c).all fun h => !hopIn (variantAt p h.blk i) h ||
    p.circuits.any fun d => d != c && circuitIn p i d && d.path.any fun g => g.blk == h.blk && g.inPort == h.inPort && g.stage == h.stage

/-- Whether a crossing's tables keep clear of crevasses (R162, R165): no used entry where the region is cut or towards a link that is
down. -/
def State.clearOfCrevasse (s : State) (r : CrossRig) : Bool :=
  r.variants.all fun v => v.slots.all fun e => !slotUsed e.2 ||
    (!s.regionCut (bkG r.blk) && (4 ≤ e.1 / 64 || s.linkUp r.blk (e.1 / 64)))

/-- Whether no stage serves two circuits of a variant (R162). -/
def noShare (cs : List Circuit) : Bool :=
  let ks := cs.flatMap fun c => c.path.map fun h => (h.blk, h.inPort, h.stage)
  ks.eraseDups.length == ks.length

/-- The rigging section (R162). -/
def State.riggingOk (s : State) (p : Package) (groups : Nat) : Bool :=
  p.rigging.all (fun r => blkValid r.blk && r.foldGroup < groups && r.variants.length == 8 &&
      r.variants.all (variantOk r.blk) && [0, 1, 2, 3].all (rxOk p r)) &&
    (p.rigging.map fun r => r.blk).eraseDups.length == p.rigging.length &&
    ((List.range 8).all fun i =>
      let cs := p.circuits.filter (circuitIn p i)
      cs.all (fun c => circuitOk p i c && circuitRx p i c) && noShare cs && p.circuits.all (wholeIn p i)) &&
    p.rigging.all s.clearOfCrevasse &&
    p.circuits.all fun c => 1 ≤ c.slots && sameEverywhere p c && c.path.all fun h => blkValid h.blk && h.inPort ≤ 10 && h.stage < 16 &&
      h.outs.all (fun o => portOk h.blk o) && !s.regionCut (bkG h.blk) && h.outs.all fun o => 4 ≤ o || s.linkUp h.blk o

/-- Combine trees and group masks (R170, R171). -/
def treesOk (p : Package) : Bool :=
  let ks := p.trees.map fun t => (t.blk, t.flag, t.object)
  p.trees.all (fun t => blkValid t.blk && t.object < 4096 && t.childMask < 2 ^ 11 && t.childMask != 0 && (t.parent < 4 || t.parent == 15)) &&
    ks.eraseDups.length == ks.length &&
    (p.trees.all fun t => (p.trees.filter fun u => u.blk == t.blk).length ≤ 256) &&
    p.groups.all fun g => blkValid g.1 && g.2.1 < 4096 && g.2.2 < 2 ^ 11

end Sys2Proof.Machine
end

