-- ==== Sys2Proof/Machine/Load.lean ====
section
/-! DEFINITION. PACKAGE_LOAD (R206-R212, R219, R279, R335): the tests of Table 8.5 in their order, and the load. -/

namespace Sys2Proof.Machine

/-! ### Header, directory, argument (order 3 and the start of order 4) -/

/-- A section of the directory (R208). -/
structure Sect where
  ty : Nat
  rsv : Nat
  len : Nat
  off : Nat
deriving DecidableEq, Repr

/-- The directory of a package in DRAM. -/
def State.directory (s : State) (a : Nat) : List Sect :=
  (List.range (s.num (a + 80) 2)).map fun i =>
    ⟨s.num (a + 256 + 16 * i) 2, s.num (a + 258 + 16 * i) 2, s.num (a + 260 + 16 * i) 4, s.num (a + 264 + 16 * i) 8⟩

/-- Bytes of the package's section of a type; none where the directory has no such section. -/
def State.sectBytes (s : State) (a ty : Nat) : Option (List Byte) :=
  ((s.directory a).find? fun d => d.ty == ty).map fun d => s.bytes (a + d.off) d.len

/-- Records of n bytes in a section (incomplete ones at its end left out). -/
def recsOf (n : Nat) (bs : List Byte) : List (List Byte) := (List.range (bs.length / n)).map fun i => (bs.drop (n * i)).take n

/-- The cast section: its entries that are not zero, by logical cell (Table 8.4, type 0x01). -/
def castSect (bs : List Byte) : List (Nat × Nat) :=
  (foldIdx (fun i m b => let e := argN b 0 4; if e = 0 then m else (castCell i, e) :: m) 0 [] (recsOf 4 bs)).reverse

/-- A record of the understudies section (Table 8.4, type 0x02). -/
def underRec (b : List Byte) : Nat × List Nat := (argN b 0 2, [2, 4, 6, 8].map fun o => argN b o 2)

/-- A record of the fold-groups section (Table 8.4, type 0x04). -/
def foldRec (b : List Byte) : FoldRec := ⟨argN b 0 2, argN b 2 6, (List.range 16).map fun i => BitVec.ofNat 64 (argN b (8 + 8 * i) 8)⟩

/-- An extent of the weights manifest (Table 8.4, type 0x09). -/
def extentRec (b : List Byte) : Extent :=
  let w := argN b 0 8
  ⟨bits w 0 16, bits w 16 3, bits w 20 20, bits w 40 24 + argN b 24 8, argN b 8 8, argN b 16 8⟩

/-- Bytes before the first record of the understudies section: the spare regions, in region-spare mode. -/
def State.underSkip (s : State) (a : Nat) : Nat := if s.num (a + 92) 1 = 1 then 16 else 0

/-- The sections PACKAGE_LOAD reads. The cast, the understudies, the fold groups and the weights manifest are decoded from the
package's bytes, as Table 8.4 lays them out; the sections whose byte layout the spec leaves open come from the operand, and
each only where the directory lists it (log 6). -/
def State.packageOf (s : State) (a : Nat) (p : Package) : Package :=
  let sect := fun ty => (s.sectBytes a ty).getD []
  let has := fun ty => (s.sectBytes a ty).isSome
  let u := sect 2
  { cast := castSect (sect 1)
    under := (recsOf 16 (u.drop (s.underSkip a))).map underRec
    spares := if s.underSkip a ≤ u.length then (recsOf 2 ((u.take (s.underSkip a)).take 8)).map fun b => (argN b 0 1, argN b 1 1) else []
    scenes := if has 3 then p.scenes else []
    folds := (recsOf 136 (sect 4)).map foldRec
    rigging := if has 5 then p.rigging else []
    circuits := if has 5 then p.circuits else []
    chans := if has 6 then p.chans else []
    trees := if has 7 then p.trees else []
    groups := if has 8 then p.groups else []
    weights := (recsOf 32 (sect 9)).map extentRec
    wings := if has 10 then p.wings else [] }

/-- Lengths and reserved bytes of the sections that are decoded (Table 8.4). -/
def State.sectLensOk (s : State) (a : Nat) : Bool :=
  let sect := fun ty => (s.sectBytes a ty).getD []
  let u := sect 2
  (sect 1).length == 32256 && (sect 4).length % 136 == 0 && (sect 9).length % 32 == 0 &&
    (s.underSkip a ≤ u.length || !(s.sectBytes a 2).isSome) && (u.length - s.underSkip a) % 16 == 0 &&
    ((u.take (s.underSkip a)).drop 8).all (· == 0) && (recsOf 16 (u.drop (s.underSkip a))).all fun b => argN b 10 6 == 0

/-- No two sections overlap (R208). -/
def sectsApart : List Sect → Bool
  | [] => true
  | x :: xs => xs.all (fun y => x.off + x.len ≤ y.off || y.off + y.len ≤ x.off || x.len == 0 || y.len == 0) && sectsApart xs

/-- The directory keeps R208 and Table 8.4. -/
def State.directoryOk (s : State) (a : Nat) : Bool :=
  let n := s.num (a + 80) 2
  let ds := s.directory a
  5 ≤ n && n ≤ 10 && ds.all (fun d => 1 ≤ d.ty && d.ty ≤ 10 && d.rsv == 0 && d.off % 64 == 0 && d.off + d.len ≤ s.num (a + 8) 8) &&
    (ds.map (·.ty)).eraseDups.length == n && ([1, 3, 4, 5, 6].all fun t => ds.any fun d => d.ty == t) && sectsApart ds

/-- The header's limits and reserved bytes (Table 8.3, R199). -/
def State.headerOk (s : State) (a : Nat) (p : Package) : Bool :=
  let stall := s.num (a + 84) 4
  let skew := s.num (a + 88) 4
  1 ≤ p.folds.length && p.folds.length ≤ 64 && s.num (a + 82) 2 == p.folds.length &&
    (stall == 0 || (10 ≤ stall && stall ≤ 1000000)) && (skew == 0 || (1 ≤ skew && skew ≤ 10000)) &&
    s.num (a + 92) 1 ≤ 1 && s.num (a + 93) 1 ≤ 4 && s.num (a + 94) 1 ≤ 2 && s.num (a + 95) 1 ≤ 1 && (s.bytes (a + 96) 160).all (· == 0)

/-- Areas that share no byte. -/
def areasApart : List (Nat × Nat) → Bool
  | [] => true
  | x :: xs => xs.all (fun y => x.1 + x.2 ≤ y.1 || y.1 + y.2 ≤ x.1 || x.2 == 0 || y.2 == 0) && areasApart xs

/-- The areas that every strike of the package erases: KV pool and job regions (Table 13.9). -/
def argAreas (b : List Byte) : List (Nat × Nat) := (argN b 16 8, argN b 24 8) :: argRegions b 64 (argN b 40 2)

/-- The argument keeps Table 13.9 (R335). -/
def State.loadArgOk (s : State) (b : List Byte) : Bool :=
  let a := argN b 0 8
  let n := argN b 8 8
  let k := argN b 40 2
  let areas := argAreas b
  64 ≤ b.length && k ≤ 64 && 64 + 16 * k ≤ b.length && a % 64 == 0 && inJob a n && argN b 32 8 % 4 == 0 && argN b 42 22 == 0 &&
    areas.all areaOk && areasApart ((a, n) :: areas) && s.host.bme

/-- Magic, version and length (Table 8.3, Table 8.5). -/
def State.magicOk (s : State) (b : List Byte) : Bool :=
  let a := argN b 0 8
  s.num a 4 == 0x4B505453 && s.num (a + 4) 4 == 1 && s.num (a + 8) 8 == argN b 8 8

/-- The digest over the package with `digest` zero (R209). -/
def State.loadDigest (s : State) (b : List Byte) : List Byte :=
  let bs := s.bytes (argN b 0 8) (argN b 8 8)
  shake256 64 (bs.take 16 ++ List.replicate 64 0 ++ bs.drop 80)

/-- The digest field matches, and no unit of the package is poison. -/
def State.digestOk (s : State) (b : List Byte) : Bool :=
  let a := argN b 0 8
  s.bytes (a + 16) 64 == s.loadDigest b && !s.mem.dramPoison.any fun u => a / 64 ≤ u && 64 * u < a + argN b 8 8

/-! ### Sections (order 4) -/

/-- Cast entries in use. -/
def usedOf (p : Package) : List (Nat × Nat) := p.cast.filter fun q => bitAt q.2 22

/-- Images of a logical cell. -/
def imagesIn (p : Package) (l : Nat) : List SceneImage :=
  match p.scenes.find? fun r => r.logical == l with
  | some r => r.images
  | none => []

/-- Records of an endpoint of a logical cell over its images, where it is configured. -/
def epRecs (p : Package) (l n : Nat) : List Nat := ((imagesIn p l).map fun im => im.epRec n).filter fun r => epKind r != 0

/-- Images in which an endpoint is an end of channel i: its record names the channel, or it is the chorus queue that several
channels feed (Table 7.3, R177). -/
def boundIn (p : Package) (i : Nat) (sends : Bool) (e : ChanEnd) : List SceneImage :=
  (imagesIn p e.unit).filter fun im =>
    let r := im.epRec e.ep
    epKind r != 0 && !epOpen r && epSends r == sends && (epChan r == i || (epKind r == 2 && !sends))

/-- The cast section (Table 8.4, Table 8.6, R218); hole positions are left to order 5. -/
def castOk (p : Package) (groups : Nat) : Bool :=
  p.cast.all (fun q => cellValid q.1 && bits q.2 25 7 == 0 && !bitAt q.2 23 && q.2 < 2 ^ 32 &&
      (!bitAt q.2 22 || (bits q.2 16 6 < groups &&
        (let c := bits q.2 0 16; bits c 3 2 == 0 && cOf c ≤ 6 && c >>> 12 ≤ 11 && bits c 8 4 ≤ 11 && engineOf c == engineOf q.1)))) &&
    (p.cast.map (·.1)).eraseDups.length == p.cast.length &&
    (((usedOf p).map fun q => bits q.2 0 16)).eraseDups.length == (usedOf p).length

/-- Window indices of the spare regions (Table 8.4, type 0x02). -/
def spareRegions (p : Package) : List Nat := p.spares.map fun q => q.2 * 12 + q.1

/-- Region-spare mode (Table 8.4, R219, R221): four spare regions with no logical cell, and the entries of four regions unused. -/
def sparesOk (p : Package) (mode : Bool) : Bool :=
  let gs := spareRegions p
  if mode then
    gs.length == 4 && gs.eraseDups.length == 4 && (p.spares.all fun q => q.1 < 12 && q.2 < 12) && gs.all regionValid &&
      (usedOf p).all (fun q => !gs.contains (gOf (bits q.2 0 16))) &&
      4 ≤ (allRegions.filter fun g => (usedOf p).all fun q => gOf q.1 != g).length
  else gs.isEmpty

/-- The understudies section (Table 8.4). -/
def underOk (p : Package) : Bool :=
  p.under.all (fun q => cellValid q.1 && q.2.length ≤ 4 && q.2.all fun c => c == 0xFFFF || cellValid c) &&
    (p.under.map (·.1)).eraseDups.length == p.under.length

/-- The scenes section (Table 8.4, R206, R207). -/
def scenesOk (p : Package) : Bool :=
  p.scenes.all (fun r =>
    cellValid r.logical && (usedOf p).any (fun q => q.1 == r.logical) && 1 ≤ r.images.length && r.images.length ≤ 8 &&
      (r.images.map (·.sceneNo)).Pairwise (· < ·) && r.images.all (imageOk r.logical p.chans.length) &&
      (r.reserveBank == 7 || (r.reserveBank < bankCount r.logical && r.reserveOff % 32 == 0 &&
        r.reserveOff + (r.images.map fun im => 0x800 + im.eng.length * engineEntry (engineOf r.logical)).sum ≤ 0x100000))) &&
    (p.scenes.map (·.logical)).eraseDups.length == p.scenes.length &&
    (usedOf p).all fun q => p.scenes.any fun r => r.logical == q.1

/-- The fold-groups section (Table 8.5a, R212). -/
def foldsOk (p : Package) : Bool :=
  foldIdx (fun g a (f : FoldRec) =>
    let members := ((usedOf p).filter fun q => bits q.2 16 6 == g).map (·.1)
    a && f.barrier < 4096 && f.rsv == 0 && f.entries.length == 16 && seValid (nth f.entries 0 0).toNat &&
      f.entries.all fun w =>
        let e := w.toNat
        bits e 5 3 == 0 && bits e 12 4 == 0 && bits e 48 16 == 0 &&
          (!seValid e || (seValid (nth f.entries (seNext e) 0).toNat && members.all fun l =>
            match (imagesIn p l).find? fun im => im.sceneNo == seScene e with
            | some im => seBeats e != 0 || im.endValid
            | none => false))) 0 true p.folds

/-- Fold group of a logical cell in the package. -/
def groupIn (p : Package) (l : Nat) : Nat :=
  match (usedOf p).find? fun q => q.1 == l with
  | some q => bits q.2 16 6
  | none => 64

/-- Whether two images can be in force together: the same scene of one fold group, or any two of different groups (R211). -/
def together (p : Package) (x y : ChanEnd) (a b : SceneImage) : Bool :=
  a.sceneNo == b.sceneNo || groupIn p x.unit != groupIn p y.unit

/-- Whether an endpoint is an end of channel i in some scene, and of the channel's type and transport in each (R177, R185,
Table 7.2). -/
def endOk (p : Package) (i : Nat) (t : ChanRec) (sends : Bool) (e : ChanEnd) : Bool :=
  let ims := boundIn p i sends e
  e.ep < 32 && !ims.isEmpty && ims.all fun im =>
    let r := im.epRec e.ep
    epKind r == (if t.ty = 3 then 3 else if t.ty = 4 then 2 else 1) && (t.ty == 3 || epPacket r == t.circuit.isNone) &&
      (sends || (t.ty == 5) == epPair (im.epRec (e.ep / 2 * 2)))

/-- Channels that feed an endpoint in one of its images. -/
def feeders (p : Package) (y : ChanEnd) (b : SceneImage) : Nat :=
  foldIdx (fun i n (t : ChanRec) =>
    match t.send with
    | some x => if t.recv == some y && (boundIn p i true x).any fun a => together p x y a b then n + 1 else n
    | none => n) 0 0 p.chans

/-- The channel table (R177, R185, R187): both ends configured, a circuit where the type has one, and in every scene one channel
to a plain or cue endpoint, 32 at most to a chorus endpoint, contributions of the slot's length; every record that names a
channel is that channel's end. -/
def chansOk (p : Package) : Bool :=
  p.chans.length ≤ 65536 &&
    foldIdx (fun i a (r : ChanRec) =>
      a && 1 ≤ r.ty && r.ty ≤ 5 && (match r.circuit with
          | some k => k < p.circuits.length && r.ty != 2 && r.ty != 3
          | none => r.ty != 1 && r.ty != 4) &&
        (match r.send, r.recv with
          | some x, some y =>
            endOk p i r true x && endOk p i r false y &&
              (boundIn p i false y).all (fun b => feeders p y b ≤ if r.ty = 4 then 32 else 1) &&
              (r.ty != 4 || (boundIn p i true x).all fun a => (boundIn p i false y).all fun b =>
                !together p x y a b || epMaxGran (a.epRec x.ep) == epContrib (b.epRec y.ep))
          | _, _ => false)) 0 true p.chans &&
    p.scenes.all fun c => c.images.all fun im => (List.range 32).all fun n =>
      let r := im.epRec n
      epKind r == 0 || epOpen r || (match p.chans[epChan r]? with
        | some t => (if epSends r then t.send else t.recv) == some ⟨c.logical, n⟩
        | none => false)

/-- The weights manifest (Table 8.4). -/
def weightsOk (p : Package) : Bool :=
  p.weights.all fun e => (usedOf p).any (fun q => q.1 == e.logical) && e.bank < bankCount e.logical && e.rsv == 0 && e.offset % 32 == 0 &&
    e.length % 32 == 0 && e.source % 32 == 0 && e.length != 0 && e.offset + e.length ≤ 0x100000 && inJob e.source e.length

/-- The wings table (Table 8.4). -/
def wingsTableOk (p : Package) : Bool := p.wings.all fun w => cellValid w.logical && w.ep < 32

/-- The tests of Paired service (R279). -/
def pairedOk (p : Package) (mode : Bool) : Bool :=
  (usedOf p).all (fun q => (usedOf p).any fun r => r.1 == twinOf q.1 && engineOf r.1 == engineOf q.1) &&
    (List.range p.folds.length).all (fun g =>
      let hs := ((usedOf p).filter fun q => bits q.2 16 6 == g).map fun q => isPrimary q.1
      !(hs.contains true && hs.contains false)) &&
    (usedOf p).all (fun q => (List.range 32).all fun n =>
      !((epRecs p q.1 n).any fun r => epKind r == 2 && !epSends r && epChFmt r != 2) ||
        (p.chans.filter fun c => c.recv == some ⟨q.1, n⟩).length ≤ 1) &&
    (!mode || ((spareRegions p).filter fun g => g < 72).length == 2)

/-- Order 4 of Table 8.5. -/
def State.sectionsOk (s : State) (a : Nat) (p : Package) : Bool :=
  let mode := s.num (a + 92) 1 == 1
  s.directoryOk a && s.sectLensOk a && s.headerOk a p && castOk p p.folds.length && sparesOk p mode && underOk p && scenesOk p && foldsOk p &&
    s.riggingOk p p.folds.length && chansOk p && treesOk p && weightsOk p && wingsTableOk p &&
    (!s.flag Reg.SERVICE_MODE_mode || pairedOk p mode)

/-! ### Orders 5 and 6 -/

/-- Order 5: a hole position, a fenced cell, or a cell that the maps list as bad. -/
def State.castFenced (s : State) (p : Package) : Bool :=
  (usedOf p).any fun q => let c := bits q.2 0 16
    !cellValid c || s.fenced c || s.badCell c || s.maps.field.any fun e => e.hits c

/-- The understudy reserve of a region (R219): serviceable cells that no logical cell uses, cells named as candidates first;
none when the region cannot hold it. -/
def State.regionReserve (s : State) (p : Package) (under : Engine → Nat) (g : Nat) : Option (List Nat) :=
  let taken := (usedOf p).map fun q => bits q.2 0 16
  let named := p.under.flatMap (·.2)
  let free := (regionCells g).filter fun c => s.serviceable c && !taken.contains c
  let pick := fun (e : Engine) =>
    let cs := free.filter fun c => engineOf c == e
    ((cs.filter named.contains) ++ cs.filter fun c => !named.contains c).take (under e)
  let cs := pick .m ++ pick .v ++ pick .s
  if cs.length = under .m + under .v + under .s then some cs else none

/-- The reserve of every region but the spare ones; none when some region cannot hold it (order 6). -/
def State.reserveFor (s : State) (a : Nat) (p : Package) : Option (List Nat) :=
  let under := fun (e : Engine) => s.num (a + match e with | .m => 93 | .v => 94 | .s => 95) 1
  (allRegions.filter fun g => !(spareRegions p).contains g).foldl (fun (r : Option (List Nat)) g =>
    match r, s.regionReserve p under g with
    | some cs, some ds => some (ds.foldl NSet.add cs)
    | _, _ => none) (some [])

/-! ### The load -/

/-- A package end at its physical cell. -/
def State.physEnd (s : State) (e : ChanEnd) : ChanEnd := { e with unit := (s.physical e.unit).getD 0xFFFF }

/-- Create the package's channels in table order (R177, R179). -/
def State.packageChans (s : State) (p : Package) : State × List Nat :=
  p.chans.foldl (fun (a : State × List Nat) (r : ChanRec) =>
    match a.1.freeChan with
    | none => a
    | some i =>
      let t := a.1.modChan i fun c =>
        { ChanSt.init with gen := c.gen, live := true, ty := r.ty, send := r.send.map a.1.physEnd, recv := r.recv.map a.1.physEnd
                           circuit := r.circuit, fromPkg := true }
      (t, a.2 ++ [handleOf i (t.chan i)])) (s, [])

/-- Write the rigging, the combine trees and the group masks. -/
def State.writeRigging (s : State) (p : Package) : State :=
  let s := p.rigging.foldl (fun s r => s.modXr r.blk fun x => { x with foldGroup := r.foldGroup, variants := r.variants }) s
  let s := p.trees.foldl (fun s t => s.modXr t.blk fun x =>
    { x with combine := SMap.put x.combine (combKey t.flag t.object) ⟨t.childMask, t.parent, 0, 0, 0, 0⟩ }) s
  p.groups.foldl (fun s g => s.modXr g.1 fun x => { x with groups := SMap.put x.groups g.2.1 g.2.2 }) s

/-- What PACKAGE_LOAD does on OK (R210, R217, R219, R335). The scenes section goes to the package area; the porters' copies of the manifest
go on in RUNNING, before the first beat (R263; log 129). -/
def State.loadPackage (s : State) (b : List Byte) (p : Package) (reserve : List Nat) : State :=
  let a := argN b 0 8
  let digest := s.bytes (a + 16) 64
  let stall := s.num (a + 84) 4
  let skew := s.num (a + 88) 4
  let mode := s.num (a + 92) 1 == 1
  let paired := s.flag Reg.SERVICE_MODE_mode
  let s := s.eraseSnapshot
  let scenes := (s.sectBytes a 3).getD []
  let s := (s.request 0 4 0 (2 * scenes.length)).writeDram packageArea scenes false [] (scenes.length / 64 + 2)
  let l : Loaded :=
    { pkg := p, digest := digest, stallLimit := if stall = 0 then 2000 else stall, skewLimit := if skew = 0 then 100 else skew
      spareMode := mode, paired := paired
      cast := p.cast.foldl (fun m q => SMap.put m q.1 q.2) [], reserve := reserve, spares := spareRegions p, circuits := p.circuits
      handles := [], loading := true }
  let s := { s with pkg := some l }
  let s := s.set Reg.SERVICE_MODE_loaded_paired (b2n paired)
  let s := allRegions.foldl (fun s g => s.set (Reg.REGION_ID_spare_region g) (b2n ((spareRegions p).contains g))) s
  let s := s.writeRigging p
  let c := s.packageChans p
  let s := { c.1 with pkg := c.1.pkg.map fun (l : Loaded) => { l with handles := c.2 } }
  let s := (usedOf p).foldl (fun s q => s.playCell q.1 (bits q.2 0 16)) s
  let s := (s.installLoad none).fwSubmit (s.loadCopies ((usedOf p).map (·.1)))
  let s := s.publishCast
  let s := s.modHost fun h => { h with areas := argAreas b }
  let s := { s with
    kv := ⟨argN b 16 8, argN b 24 8, [], [], 0, []⟩
    acts := ⟨[], none, none, 1, 0, false, []⟩
    rcv := { s.rcv with watchdog := 0, periods := 0, periodAt := s.now, periodBeat := false, lastBelay := none } }
  let s := s.showCounts
  let s := s.dorLog 0x08 digest (toLE 8 (if s.flag Reg.DOR_STATUS_owner_enrolled then s.get Reg.DOR_STATUS_owner_slot else 0xFF) ++
    toLE 8 (argN b 8 8))
  let s := if c.2.isEmpty then s else s.emit (.hostWrite (argN b 32 8) (c.2.flatMap fun h => toLE 4 h))
  (s.startGroups fun _ => 0).goto .running

/-- Judge a PACKAGE_LOAD under orders 2 to 7 of Table 8.5: its status and the state. While debug is unlocked it has no
resource (R427). -/
def State.judgeLoad (s : State) (b : List Byte) (q : Package) : St × State :=
  let p := s.packageOf (argN b 0 8) q
  if !s.isIn .ready || s.flag Reg.DOR_DEBUG_unlocked then (.noResource, s)
  else if !s.loadArgOk b || !s.magicOk b then (.badArg, s)
  else if !s.digestOk b then (.authFail, s)
  else if !s.sectionsOk (argN b 0 8) p then (.badArg, s)
  else if s.castFenced p then (.fenced, s)
  else match s.reserveFor (argN b 0 8) p with
    | none => (.noResource, s)
    | some r => (.ok, s.loadPackage b p r)

/-- Result of a load: the channel count. -/
def loadResult (st : St) (s : State) : List Byte :=
  if st = .ok then toLE 4 (match s.pkg with | some l => l.pkg.chans.length | none => 0) else []

/-- PACKAGE_LOAD (R208-R212, R333, R335). -/
def execPackageLoad (mb : Nat) (req : NyReq) (pkg : Package) (s : State) : Res :=
  nymakRow mb req (req.opcode == 0x10) s fun s b =>
    if s.host.strike.isSome then
      if s.host.load.isSome then .done s .busy []
      else s.defer mb (toLE 4 0) fun s e => s.modHost fun h => { h with load := some ⟨mb, e, req, pkg⟩ }
    else
      let r := s.judgeLoad b pkg
      .done r.2 r.1 (loadResult r.1 r.2)

/-- PACKAGE_LOAD_PROCEED (R210 order 1, R334): the strike has finished and the panel is READY; the deferred load is judged, and
its entry carries that status. -/
def execPackageLoadProceed (s : State) : Res :=
  .next (match s.host.load with
    | some l =>
      if s.host.strike.isNone ∧ s.isIn .ready then
        let s := s.modHost fun h => { h with load := none }
        let r := s.judgeLoad l.req.arg l.pkg
        let t := if r.1 = .ok then r.2.setReg (deferAt l.mb l.entry + 8) (ofLE (loadResult r.1 r.2)) else r.2
        t.settleDefer l.mb l.entry r.1
      else s
    | none => s)

end Sys2Proof.Machine
end

