-- ==== Sys2Proof/Machine/RopeCmd.lean ====
section
/-! DEFINITION. Rope rings (R375-R378), sessions (R382-R384), CTRL frames (R380), and the commands ROPE_CONFIG and
REDUCE_CONFIG (R387, R389, R394, R395). -/

namespace Sys2Proof.Machine

/-! ### Lanes and spares (R375, R376) -/

/-- Whether a logical lane of a port is on a spare already. -/
def State.laneSpared (s : State) (p l : Nat) : Bool :=
  s.get (Reg.ROPE_STATUS_spare0_for p) == l || s.get (Reg.ROPE_STATUS_spare1_for p) == l

/-- Move a logical lane to a spare, for the panel (1) or an outside command (2); with no spare left the port narrows and
retrains, and with fewer than eight of its 18 lanes left its ring goes DOWN (R376). `failed` counts the lanes that fail so far. -/
def State.spareLane (s : State) (p l who failed : Nat) : State :=
  if s.laneSpared p l then s
  else if s.get (Reg.ROPE_STATUS_spare0_for p) = 31 then
    s.sets [(Reg.ROPE_STATUS_spare0_for p, l), (Reg.ROPE_STATUS_spare_by p, who)]
  else if s.get (Reg.ROPE_STATUS_spare1_for p) = 31 then
    s.sets [(Reg.ROPE_STATUS_spare1_for p, l), (Reg.ROPE_STATUS_spare_by p, who)]
  else if 10 < failed then s.ringDown (p / 2)
  else if s.flag (Reg.ROPE_STATUS_narrow p) then s
  else ((s.inc (Reg.ROPE_STATUS_retrain_count p)).set (Reg.ROPE_STATUS_narrow p) 1).modPortR p fun x => { x with trained := false }

/-- Lanes of a port that are on spares. -/
def State.sparedCount (s : State) (p : Nat) : Nat :=
  b2n (s.get (Reg.ROPE_STATUS_spare0_for p) != 31) + b2n (s.get (Reg.ROPE_STATUS_spare1_for p) != 31)

/-- Move several lanes; each entry is a lane, with 64 added where an outside command named it (log 40). -/
def State.spareLanes (s : State) (p : Nat) (ls : List Nat) : State :=
  let ls := ls.filter fun l => !s.laneSpared p (l % 32)
  let n := s.sparedCount p
  foldIdx (fun i s l => s.spareLane p (l % 32) (if l / 64 = 1 then 2 else 1) (n + i + 1)) 0 s ls

/-- Send a CTRL frame with a 32 B payload (its layout: log 40). -/
def State.ropeCtrlData (s : State) (p : Nat) (data : List Byte) : State :=
  s.ropeCtrlWith p false (data.take 32 ++ List.replicate (32 - data.length) 0)

/-- A lane is to move to a spare: at once agreed with the neighbour while the port is UP, else at its next training. -/
def State.askSpare (s : State) (p l who : Nat) : State :=
  let s := s.modPortR p fun x => { x with lanes := x.lanes ++ [l + 32 * who] }
  if s.portUp p then s.ropeCtrlData p (toLE 1 1 ++ toLE 1 l ++ toLE 2 (s.rport p).next) else s

/-- Whether an outside command may name a lane: a logical lane that is not replaced yet (R375). -/
def State.spareOk (s : State) (p l : Nat) : Bool :=
  l < 16 && !s.laneSpared p l && !(s.rport p).lanes.any fun x => x % 32 == l

/-- FEC_THRESHOLD (R375): a lane needs a spare. -/
def execFecThreshold (port lane : Nat) (s : State) : Res :=
  onUnit (port < 6 ∧ lane < 16) port s fun s => when (s.portUp port && s.spareOk port lane) (fun s => s.askSpare port lane 1) s

/-- SPARE_SWAP (R375, R376): both ends switch a lane that waits for it. -/
def execSpareSwap (port lane : Nat) (s : State) : Res :=
  onUnit (port < 6 ∧ lane < 16) port s fun s =>
    match (s.rport port).lanes.find? fun x => x % 32 == lane with
    | some x =>
      when (s.portUp port) (fun s =>
        (s.modPortR port fun y => { y with lanes := y.lanes.erase x }).spareLane port lane (if x / 32 = 2 then 2 else 1) (s.sparedCount port + 1)) s
    | none => s

/-! ### Sessions (R382, R383) -/

/-- Bytes of a HELLO before its signature: public key, encapsulation key, house-clock time, proposed T. -/
def helloLen : Nat := 1648
/-- Bytes of a SESSION before its signature: public key, ciphertext, confirmation of T. -/
def sessionLen : Nat := 1640
/-- Bytes of a signature. -/
def sigLen : Nat := 29792

/-- Send a message as a train of frames of its own type (R383). -/
def State.ropeMessage (s : State) (p ty : Nat) (msg : List Byte) : State :=
  let n := (s.rport p).msgNo
  let padded := msg ++ List.replicate ((32 - msg.length % 32) % 32) 0
  let s := s.modPortR p fun x => { x with msgNo := (x.msgNo + 1) % 2 ^ 16 }
  (ropeFrames ty 0 0 0 0 n 0 0 0 0 (toGrans (fun _ => false) padded)).foldl (fun s f => s.ropeSend p f) s

/-- The stage-right end sends HELLO with a fresh key and a break time at least 1 ms ahead (log 3, log 40). -/
def State.sendHello (s : State) (p ty : Nat) : State :=
  let k := s.drawBytes 1568
  let d := k.2.draw
  let t := s.now + 1000000 + d.1.toNat % 2 ^ 30
  let body := padTo 64 Config.publicKey ++ padTo 1568 k.1 ++ toLE 8 s.now ++ toLE 8 t
  let msg := body ++ padTo sigLen (Config.sign body)
  ((d.2.modPortR p fun x => { x with hello := msg, sessionAt := if ty = 5 then s.now else x.sessionAt })).ropeMessage p ty msg

/-- Sides of a ring that have yet to pass a test. -/
def sidesLeft (expected have' : Nat) : Bool := (List.range 2).any fun i => bitAt expected i && !bitAt have' i

/-- A ring moves on once every expected side has what its state waits for: from SPARE_TRAIN to HELLO, whose stage-right end
sends HELLO, and from HELLO to OPENING (R378). -/
def State.ringOn (s : State) (i : Nat) : State :=
  let r := s.rring i
  let trained := b2n (s.rport (2 * i)).trained + 2 * b2n (s.rport (2 * i + 1)).trained
  let s := if s.ringSt i = 1 ∧ !sidesLeft r.expected trained then
      let s := s.setRing i 2
      if bitAt r.expected 1 then s.sendHello (2 * i + 1) 5 else s
    else s
  if s.ringSt i = 2 ∧ !sidesLeft r.expected r.session then
    (s.setRing i 3).modRingR i fun r => { r with breakAt := max r.breakAt (s.now + 1000000) }
  else s

/-- Open a ring (R378): its spares train to each neighbour expected. -/
def State.openRing (s : State) (i expected : Nat) : State :=
  ((s.endRing i 1).modRingR i fun r => { r with expected := expected }).ringOn i

/-- Index of a public key's digest on the peer list (R382). -/
def State.peerIndex (s : State) (key : List Byte) : Option Nat := findPlace (fun d => d == shake256 64 key) s.rope.peers

/-- The 64 B of key of a session (R382): SHAKE256 over the shared secret and the digest of both messages. -/
def sessionKeys (secret hello session : List Byte) : List Byte := shake256 64 (secret ++ shake256 64 (hello ++ session))

/-- A session stands at a port (R382): its keys, its peer, its count, and the break time agreed. -/
def State.sessionUp (s : State) (p peer t : Nat) (keys : List Byte) : State :=
  let s := (s.sets [(Reg.ROPE_STATUS_peer p, peer), (Reg.ROPE_STATUS_auth_fail p, 0)]).inc (Reg.ROPE_STATUS_session_count p)
  let s := s.modPortR p fun x => { x with keyGen := 0, keys := keys, oldKeys := [], frames := 0, sessionAt := s.now, tagFails := [] }
  let s := s.modRingR (p / 2) fun r => { r with session := r.session ||| 2 ^ (p % 2), breakAt := max r.breakAt t }
  s.ringOn (p / 2)

/-- The session of a port has new keys (R384); the old ones stay for receiving until a frame under the new ones comes. -/
def State.rekeyed (s : State) (p : Nat) (keys : List Byte) : State :=
  s.modPortR p fun x =>
    { x with keyGen := (x.keyGen + 1) % 16, keys := keys, oldKeys := x.keys, frames := 0, sessionAt := s.now }

/-- Session setup at a port ends: the first session, or a rekey of the one that stands. -/
def State.session (s : State) (p peer t : Nat) (keys : List Byte) : State :=
  if s.portUp p ∧ bitAt (s.rring (p / 2)).session (p % 2) then s.rekeyed p keys else s.sessionUp p peer t keys

/-- A check of session setup fails (R382). -/
def State.authFail (s : State) (p : Nat) : State := s.set (Reg.ROPE_STATUS_auth_fail p) 1

/-- The responder checks an initiator's message and answers with SESSION. -/
def State.answerHello (s : State) (p : Nat) (m : List Byte) : State :=
  let key := m.take 64
  let t := ofLE ((m.drop 1640).take 8)
  match s.peerIndex key with
  | some i =>
    if Config.verify key (m.take helloLen) ((m.drop helloLen).take sigLen) then
      let k := s.drawBytes 32
      let c := Config.encapsulate ((m.drop 64).take 1568) k.1
      let body := padTo 64 Config.publicKey ++ padTo 1568 c.1 ++ toLE 8 t
      let hello := m.take (helloLen + sigLen)
      let reply := body ++ padTo sigLen (Config.sign (hello ++ body))
      (k.2.ropeMessage p 6 reply).session p i t (sessionKeys c.2 hello reply)
    else s.authFail p
  | none => s.authFail p

/-- The initiator checks the reply (R382). -/
def State.takeSession (s : State) (p : Nat) (m : List Byte) : State :=
  let key := m.take 64
  match s.peerIndex key with
  | some i =>
    if Config.verify key ((s.rport p).hello ++ m.take sessionLen) ((m.drop sessionLen).take sigLen) then
      let h := (s.rport p).hello
      let secret := Config.decapsulateOwn ((h.drop 64).take 1568) ((m.drop 64).take 1568)
      s.session p i (ofLE ((h.drop 1640).take 8)) (sessionKeys secret h (m.take (sessionLen + sigLen)))
    else s.authFail p
  | none => s.authFail p

/-- A partial message is discarded (R383). -/
def State.dropPart (s : State) (p : Nat) : State := s.modPortR p fun x => { x with part := none, sessionAt := if s.portUp p then x.sessionAt else s.now }

/-- Collect a piece of a message of `len` bytes (R383): the message, once it is whole. -/
def State.collect (s : State) (p len : Nat) (f : RopeFrame) : Option (List Byte) × State :=
  let s := match (s.rport p).part with
    | some (ty, n, bs, _) =>
      if ty = fType f ∧ n = fStream f ∧ bs.length = 32 * fOffset f then s else s.dropPart p
    | none => s
  match (s.rport p).part with
  | none =>
    if fOffset f = 0 then
      if len ≤ f.payload.length then (some f.payload, s)
      else (none, s.modPortR p fun x => { x with part := some (fType f, fStream f, f.payload, s.now) })
    else (none, s.dropPart p)
  | some (ty, n, bs, t) =>
    let all := bs ++ f.payload
    if len ≤ all.length then (some all, s.modPortR p fun x => { x with part := none })
    else (none, s.modPortR p fun x => { x with part := some (ty, n, all, t) })

/-- Whether a ring takes the frames of session setup: from HELLO to UP. -/
def State.sessionOpen (s : State) (p : Nat) : Bool := 2 ≤ s.ringSt (p / 2) && s.ringSt (p / 2) ≤ 4

/-- ROPE_HELLO_FRAME (R382, R383): a piece of a HELLO, for a stage-left port. -/
def execRopeHelloFrame (port : Nat) (frame : RopeFrame) (s : State) : Res :=
  onUnit (port < 6) port s fun s =>
    if fType frame = 5 ∧ s.sessionOpen port then
      let r := s.ropeReceive port frame false
      if !r.1 then r.2
      else
        let q := r.2.collect port (helloLen + sigLen) frame
        match q.1 with
        | some m => if port % 2 = 0 then q.2.answerHello port m else q.2
        | none => q.2
    else s

/-- SESSION_FRAME (R382-R384): a piece of a reply, for a stage-right port; of a rekey's first message, for a stage-left
one. -/
def execSessionFrame (port : Nat) (frame : RopeFrame) (s : State) : Res :=
  onUnit (port < 6) port s fun s =>
    if fType frame = 6 ∧ s.sessionOpen port then
      let r := s.ropeReceive port frame false
      if !r.1 then r.2
      else
        let q := r.2.collect port ((if port % 2 = 0 then helloLen else sessionLen) + sigLen) frame
        match q.1 with
        | some m => if port % 2 = 0 then (if q.2.portUp port then q.2.answerHello port m else q.2) else q.2.takeSession port m
        | none => q.2
    else s

/-- REASSEMBLY_TIMEOUT (R383): 100 ms after the first piece of a message that is not whole. -/
def execReassemblyTimeout (port : Nat) (s : State) : Res :=
  onUnit (port < 6) port s fun s =>
    match (s.rport port).part with
    | some (_, _, _, t) => when (t + 100000000 ≤ s.now) (fun s => s.dropPart port) s
    | none => s

/-- ROPE_HELLO_RETRY (R383): the stage-right end sends a new HELLO after 100 ms. -/
def execRopeHelloRetry (port : Nat) (s : State) : Res :=
  onUnit (port < 6) port s fun s =>
    let r := s.rring (port / 2)
    when (port % 2 == 1 && s.ringSt (port / 2) == 2 && bitAt r.expected 1 && !bitAt r.session 1 &&
        (s.rport port).sessionAt + 100000000 ≤ s.now) (fun s => s.sendHello port 5) s

/-- ROPE_REKEY (R384): after 3,600 s, or 2^40 frames, the stage-right end starts a rekey in SESSION frames. -/
def execRopeRekey (port : Nat) (s : State) : Res :=
  onUnit (port < 6) port s fun s =>
    let x := s.rport port
    when (port % 2 == 1 && s.portUp port && bitAt (s.rring (port / 2)).session 1 &&
        (x.sessionAt + 3600000000000 ≤ s.now || 2 ^ 40 ≤ x.frames)) (fun s => s.sendHello port 6) s

/-! ### Training and the bypass (R377, R378) -/

/-- Training of a port has passed: lanes below margin move to spares, a lane that passes only at 32 GBd (named with 32 added:
log 40) makes the whole port run at 64 Gb/s (R374), and lanes that waited for this training move (R375). -/
def State.trainLanes (s : State) (p : Nat) (bad : List Nat) : State :=
  let old := (s.rport p).lanes
  let slow := bad.any fun l => 32 ≤ l
  let fresh := (bad.filter (· < 16)) ++ old.map fun l => l % 32 + (if l / 32 = 2 then 64 else 0)
  let s := s.modPortR p fun x => { x with lanes := [], trained := true }
  let s := s.set (Reg.ROPE_STATUS_rate p) (b2n slow)
  s.spareLanes p fresh

/-- A ring that OPENS is UP once every expected side has trained (R378). -/
def State.ringUp (s : State) (i : Nat) : State :=
  let trained := b2n (s.rport (2 * i)).trained + 2 * b2n (s.rport (2 * i + 1)).trained
  if s.ringSt i = 3 ∧ !sidesLeft (s.rring i).expected trained then s.setRing i 4 else s

/-- ROPE_TRAINING_DONE (R378, R380): a port's training ends; the ring moves on, or goes DOWN. -/
def execRopeTrainingDone (port : Nat) (ok : Bool) (badLanes : List Nat) (s : State) : Res :=
  onUnit (port < 6) port s fun s =>
    let i := port / 2
    let st := s.ringSt i
    if (s.rport port).trained then s
    else if st = 1 then
      if !bitAt (s.rring i).expected (port % 2) then s
      else if ok then (s.modPortR port fun x => { x with trained := true }).ringOn i
      else s.ringDown i
    else if st = 3 ∧ s.flag (Reg.ROPE_STATUS_bypass_open port) then
      if !bitAt (s.rring i).expected (port % 2) then s
      else if !ok then s.ringDown i
      else (s.trainLanes port badLanes).ringUp i
    else if st = 4 then
      if !ok then s.ringDown i
      else
        let s := s.trainLanes port badLanes
        if port % 2 = 1 ∧ !bitAt (s.rring i).session 1 ∧ s.ringSt i = 4 then s.sendHello port 5 else s
    else s

/-- BYPASS_OPEN (R378): at the break time the bypass opens and lanes 0-15 of both ports train. -/
def execBypassOpen (ring : Nat) (s : State) : Res :=
  onUnit (ring < 3) ring s fun s =>
    when (s.ringSt ring == 3 && !s.flag (Reg.ROPE_STATUS_bypass_open (2 * ring)) && (s.rring ring).breakAt ≤ s.now) (fun s =>
      let s := s.sets [(Reg.ROPE_STATUS_bypass_open (2 * ring), 1), (Reg.ROPE_STATUS_bypass_open (2 * ring + 1), 1)]
      ((s.modPortR (2 * ring) fun x => { x with trained := false }).modPortR (2 * ring + 1) fun x => { x with trained := false }).ringUp
        ring) s

/-- ROPE_LINK_LOST (R395): frames not acknowledged are lost with the session of that side, and the port trains again to what
it now reaches (log 40). -/
def execRopeLinkLost (port : Nat) (s : State) : Res :=
  onUnit (port < 6) port s fun s =>
    when (s.portUp port) (fun s =>
      let s := s.modPortR port fun x => { RopePortSt.init with lanes := x.lanes, msgNo := x.msgNo }
      (s.inc (Reg.ROPE_STATUS_retrain_count port)).modRingR (port / 2) fun r => { r with session := r.session &&& (3 - 2 ^ (port % 2)) }) s

/-- ROPE_DISABLE_DRAIN_END (R395, R333): nothing is unacknowledged any more, or 1 ms has passed; a deferred ENABLE follows. -/
def execRopeDisableDrainEnd (ring : Nat) (s : State) : Res :=
  onUnit (ring < 3) ring s fun s =>
    let idle := (s.rport (2 * ring)).unacked.isEmpty && (s.rport (2 * ring + 1)).unacked.isEmpty
    when (s.ringSt ring == 5 && (idle || decide ((s.rring ring).disabledAt + 1000000 ≤ s.now))) (fun s =>
      let next := (s.rring ring).next
      let s := (s.endRing ring 6).modRingR ring fun r => { r with next := none }
      match next with
      | some (mb, e, sel) => (s.openRing ring sel).settleDefer mb e .ok
      | none => s) s

/-! ### CTRL frames (R380, R375, R404) -/

/-- The head of an answer to clock stamps (R404): whether this panel is locked, as the time root is, and its hops from the root. -/
def State.syncReply (s : State) : List Byte :=
  let root : Bool := s.get Reg.HC_SYNC_source == 2
  toLE 1 3 ++ toLE 1 (b2n (root || s.flag Reg.HC_SYNC_locked)) ++ toLE 1 (s.get Reg.HC_SYNC_depth) ++ toLE 5 0

/-- CTRL_FRAME (R380): acknowledgement, credit and nak; a lane that the neighbour moves; clock stamps of a follower, which are
answered (payload: log 40). -/
def execCtrlFrame (port : Nat) (frame : RopeFrame) (s : State) : Res :=
  onUnit (port < 6) port s fun s =>
    if fType frame ≠ 4 ∨ !(s.sessionOpen port || s.ringSt (port / 2) == 5) then s
    else if frame.fec ≠ 0 then s.inc (Reg.ROPE_COUNTS_fec_uncorrected port) frame.fec
    else if !frame.tagOk then s.tagFail port
    else
      let s := s.ropeAcked port frame
      let s := if bitAt (fFlags frame) 3 then s.ropeReplay port else s
      let b := fun (i : Nat) => (nth frame.payload i (0 : Byte)).toNat
      if frame.payload.length < 32 then s
      else if b 0 = 1 then
        if s.spareOk port (b 1) then s.modPortR port fun x => { x with lanes := x.lanes ++ [b 1 + 32] } else s
      else if b 0 = 2 then s.ropeCtrlData port (s.syncReply ++ (frame.payload.drop 8).take 8 ++ toLE 8 s.now ++ toLE 8 s.now)
      else s

/-! ### ROPE_CONFIG (R394) -/

/-- A row of ROPE_CONFIG: one operation, its argument of 64 B at least with reserved bytes zero. -/
def ropeRow (op mb : Nat) (r : NyReq) (s : State) (f : State → List Byte → Ans) : Res :=
  nymakRow mb r (r.opcode == 0x90 && argN r.arg 0 1 == op) s fun s b =>
    if b.length < 64 ∨ argN b 3 1 ≠ 0 ∨ argN b 24 40 ≠ 0 then .done s .badArg [] else f s b

/-- ROPE_ENABLE (R378, R394, R333). -/
def execRopeEnable (mb : Nat) (req : NyReq) (s : State) : Res :=
  ropeRow 0 mb req s fun s b =>
    let i := argN b 1 1
    let sel := argN b 2 1
    if 2 < i ∨ 3 < sel then .done s .badArg []
    else if s.ringSt i = 5 then
      if (s.rring i).next.isSome then .done s .busy []
      else State.defer s mb [] fun s e => s.modRingR i fun r => { r with next := some (mb, e, sel) }
    else if s.ringSt i = 3 ∨ s.ringSt i = 4 then .done s .ok []
    else .done (s.openRing i sel) .ok []

/-- ROPE_DISABLE (R394, R395, R334): no new frames; a deferred ENABLE is taken back. -/
def execRopeDisable (mb : Nat) (req : NyReq) (s : State) : Res :=
  ropeRow 1 mb req s fun s b =>
    let i := argN b 1 1
    if 2 < i then .done s .badArg []
    else match (s.rring i).next with
      | some (m, e, _) => .done ((s.modRingR i fun r => { r with next := none }).settleDefer m e .busy) .ok []
      | none =>
        if s.ringSt i = 4 then
          let drop := fun (x : RopePortSt) => { x with waiting := [] }
          .done (((((s.setRing i 5).modPortR (2 * i) drop).modPortR (2 * i + 1) drop).modRingR i
            fun r => { r with disabledAt := s.now })) .ok []
        else if s.ringSt i = 5 then .done s .ok []
        else .done (s.endRing i 6) .ok []

/-- After the peer list has changed, a ring whose session peer is gone closes its bypass and waits in HELLO (log 40); the
other peers keep their place on the new list. -/
def State.recheckPeers (s : State) (old : List (List Byte)) (p : Nat) : State :=
  let i := s.get (Reg.ROPE_STATUS_peer p)
  if !bitAt (s.rring (p / 2)).session (p % 2) then s
  else match findPlace (fun d => d == nth old i []) s.rope.peers with
    | some j => s.set (Reg.ROPE_STATUS_peer p) j
    | none => (s.endRing (p / 2) 2).set (Reg.ROPE_STATUS_peer p) 0x1FFF

/-- ROPE_PEERS (R394): the list is replaced and logged (Table 17.2). -/
def execRopePeers (mb : Nat) (req : NyReq) (s : State) : Res :=
  ropeRow 2 mb req s fun s b =>
    let n := argN b 6 2
    if 4096 < n ∨ b.length < 64 + 64 * n then .done s .badArg []
    else
      let old := s.rope.peers
      let raw := (b.drop 64).take (64 * n)
      let s := s.modRope fun r => { r with peers := chunks 64 n raw }
      let s := s.dorLog 0x0E (shake256 64 raw) []
      .done ((List.range 6).foldl (fun s p => s.recheckPeers old p) s) .ok []

/-- ROPE_CONFIG_SPARE (R375, R394). -/
def execRopeConfigSpare (mb : Nat) (req : NyReq) (s : State) : Res :=
  ropeRow 3 mb req s fun s b =>
    let p := argN b 1 1
    let l := argN b 2 1
    if 5 < p ∨ !s.spareOk p l then .done s .badArg [] else .done (s.askSpare p l 2) .ok []

/-- ROPE_LANDING (R385, R394): in RUNNING; the landing lies in job DRAM. -/
def execRopeLanding (mb : Nat) (req : NyReq) (s : State) : Res :=
  ropeRow 4 mb req s fun s b =>
    let base := argN b 8 8
    let len := argN b 16 8
    if !s.isIn .running then .done s .noResource []
    else if base % 65536 ≠ 0 ∨ !inJob base len then .done s .badArg []
    else .done (s.modRope fun r => { r with landings := SMap.put r.landings (argN b 4 2) (base, len) }) .ok []

/-- ROPE_LANDING_CLOSE (R394). -/
def execRopeLandingClose (mb : Nat) (req : NyReq) (s : State) : Res :=
  ropeRow 5 mb req s fun s b =>
    .done (s.modRope fun r => { r with landings := SMap.del r.landings (argN b 4 2) }) .ok []

/-! ### REDUCE_CONFIG (R387, R389) -/

/-- A shard record of the argument (Table 15.6). -/
def shardOf (b : List Byte) (o : Nat) : Shard :=
  ⟨argN b o 2, argN b (o + 2) 1, argN b (o + 4) 2, argN b (o + 6) 1, argN b (o + 8) 8, argN b (o + 16) 8, argN b (o + 24) 8,
    argN b (o + 32) 8⟩

/-- Whether a shard record keeps its ranges. -/
def State.shardOk (s : State) (x : Shard) : Bool :=
  x.shard < 4096 && x.fmt < 2 && (s.physical x.notify).isSome && x.window < 8 && x.bytes % 4096 == 0 && x.bytes ≤ 0x40000000 &&
    x.rbuf % 65536 == 0 && inJob x.rbuf (2 * x.bytes) && inJob x.paramAddr x.paramBytes

/-- The team of an argument. -/
def teamOf (b : List Byte) : Team :=
  let n := argN b 0 2
  ⟨n, argN b 2 2, argN b 8 8, argN b 16 8, argN b 24 8, argN b 32 8, (List.range n).map fun i => argN b (64 + 4 * i) 4,
    (List.range (argN b 4 2)).map fun i => shardOf b (64 + 4 * n + 48 * i)⟩

/-- Whether a team keeps the ranges of Table 15.6 and the two inequalities of R389. -/
def State.teamOk (s : State) (b : List Byte) (t : Team) : Bool :=
  let d := depthOf (t.n - 1)
  1 ≤ t.n && t.n ≤ 4096 && t.rank < t.n && t.shards.length ≤ 4096 && 64 + 4 * t.n + 48 * t.shards.length ≤ b.length &&
    argN b 6 2 == 0 && argN b 40 24 == 0 && d * t.level < t.cut && t.cut + t.level ≤ t.period &&
    ((List.range t.n).all fun r => r == t.rank || (bits (nth t.ranks r 0) 0 2 < 3 && bits (nth t.ranks r 0) 3 8 != 0 &&
      bits (nth t.ranks r 0) 11 21 == 0)) && t.shards.all s.shardOk

/-- REDUCE_CONFIG (R387, R389): in RUNNING; the team is replaced at once and its open steps are abandoned. -/
def execReduceConfig (mb : Nat) (req : NyReq) (s : State) : Res :=
  nymakRow mb req (req.opcode == 0x91) s fun s b =>
    let t := teamOf b
    if !s.isIn .running then .done s .noResource []
    else if b.length < 64 ∨ !s.teamOk b t then .done s .badArg []
    else .done (s.modRope fun r => { r with team := some t, former := none, steps := [] }) .ok []

end Sys2Proof.Machine
end

