-- ==== Sys2Proof/Machine/Bringup.lean ====
section
/-! DEFINITION. Starts and the bring-up sequencer (R350-R355, R372), its steps (R254, R276, R352-R370, R416-R418), and what a
failed step leaves. -/

namespace Sys2Proof.Machine

/-- Change the sequencer. -/
def State.modSeq (s : State) (f : SeqSt → SeqSt) : State := { s with seq := f s.seq }

/-! ### Power and starts -/

/-- Power leaves everything outside the always-on domain (R353): what is not in flash, fuses, registers or base camp's
always-on units is gone; burned repairs stay (R141). -/
def State.fieldOff (s : State) : State :=
  let s := s.resetRope
  { s with
      mem := ⟨[], [], [], [], [], [], []⟩
      cells := []
      banks := SMap.mapVal (fun _ (b : BankSt) => { BankSt.init with repairs := b.repairs.filter (·.burned) }) s.banks
      mesh := ⟨[], [], [], [], [], [], [], [], [], 0, []⟩
      chans := [], pkg := none, belay := none, pair := ⟨[], []⟩, acts := ⟨[], none, none, 1, 0, false, []⟩
      slots := [], kv := ⟨0, 0, [], [], 0, []⟩, hub := ⟨[], [], [], [], [], [], [], false⟩, therm := []
      host := { s.host with rings := [] } }

/-- Fields that keep their values through a cold start: the state of the panel, of the two links that outlive it and of the
management port (R31, R316, R430), and what fuses hold (R417). -/
def coldKept : List RF :=
  [Reg.PANEL_STATE_state, Reg.PCIE_LINK_rate, Reg.PCIE_LINK_width, Reg.PCIE_LINK_flit, Reg.PCIE_LINK_degraded, Reg.OOB_STATUS_i3c,
    Reg.OOB_STATUS_dyn_addr, Reg.OOB_STATUS_eid, Reg.DOR_STATUS_svn_stage, Reg.DOR_STATUS_svn_house]

/-- Fields of seam links that a warm start keeps (R151, R354): the spare swaps. -/
def State.seamSpares (s : State) : List (RF × Nat) :=
  allRegions.flatMap fun g => (List.range 12).filterMap fun l =>
    let f := (⟨(Reg.SEAM_STATUS_spare0 g l).off, 5, 14⟩ : RF)
    if s.get f = 0x3FFF then none else some (f, s.get f)

/-- Doreana at a start (R413-R415, Table 17.1): the job key and the KEM key are destroyed, a new KEM key is made, requests end;
at a cold start an enrolment and a policy take effect. -/
def State.dorStart (s : State) (cold : Bool) : State :=
  let s := ((s.dropJobKey).modDor fun d => { d with queue := [], keys := true }).makeKem
  if cold then
    let k := s.drawBytes 64
    let d := (k.2.modDor fun d => { d with dramKey := k.1 }).draw
    let live := findPlace (fun (o : List Byte × Bool) => !o.2) d.2.dor.owners
    d.2.sets [(Reg.DOR_STATUS_owner_enrolled, b2n live.isSome), (Reg.DOR_STATUS_owner_slot, live.getD 0),
      (Reg.DOR_STATUS_burn_allowed, b2n d.2.dor.policy), (Reg.DOR_DEBUG_challenge, d.1.toNat)]
  else s.set Reg.DOR_STATUS_attest_queue 0

/-- The panel enters BRINGUP (R350, R355): sessions close, mailbox commands are abandoned, the domain resets, step times are
cleared; then the transition. -/
def State.enterBringup (s : State) (warm : Bool) : State :=
  let band := s.flag Reg.POWER_STATUS_band_heavy
  let s := s.resetRope
  let s := s.modHost fun h => { h with mbs := [], keySession := 0, strike := none, load := none, areas := [], finals := [], defers := [], requal := [], unloadAfter := false }
  let s := { s with regs := s.regs.filter fun w => w.1 < 256 || 264 ≤ w.1 }
  let s := if warm then
      let keep := s.seamSpares
      let s := ((s.clearCompute false).resetRegs .warm).sets keep
      -- the budget table in force is the one that the registers show again (R12, R251)
      let s := s.modHub fun h => { h with res := [], applying := [] }
      { s with cells := SMap.mapVal (fun _ (x : CellSt) => { x with rh := .init }) s.cells }
    else
      let keep := coldKept.map fun f => (f, s.get f)
      let s := (s.resetRegs .cold).sets keep
      let d := State.draw { s with
        mem := ⟨[], [], [], [], [], [], []⟩
        cells := [], mesh := ⟨[], [], [], [], [], [], [], [], [], 0, []⟩
        banks := SMap.mapVal (fun _ (b : BankSt) => { BankSt.init with repairs := b.repairs }) s.banks
        chans := [], castGen := 0, castTab := [], distGen := 0, dist := ⟨[], [], [], []⟩
        hub := ⟨[], [], [], [], [], [], [], false⟩, host := { s.host with rings := [] } }
      d.2.modRcv fun r => { r with snapNumber := 0, snapRandom := d.1.toNat % 2 ^ 32 }
  let s := (s.dorStart (!warm)).modRcv fun r => { r with hangs := [], restarts := [] }
  let s := s.sets ((List.range 13).map fun i => (⟨(Reg.SEQ_STEP_TIME_us (i + 1)).off, 0, 64⟩, 0))
  let s := s.modSeq fun q => { q with next := 1, env := none, losses := 0, start := none, bandRec := if warm then band else q.bandRec
                                      recheck := none, rechecked := false, lightAt := none }
  let s := { s with therm := [], tel := { TelSt.init with sensors := s.tel.sensors, cairnSeen := s.tel.cairnSeen } }
  (s.set Reg.SEQ_STATUS_warm (b2n warm)).goto .bringup

/-- A START (R351, R355, Table 14.1): from RUNNING the unload runs first, at its bound. -/
def State.seqStart (s : State) (warm : Bool) : State :=
  let err := fun (s : State) (e : Nat) => s.set Reg.SEQ_STATUS_last_err e
  if s.isIn .bringup || s.seq.start.isSome then err (s.inc Reg.SEQ_STATUS_start_busy_count) 1
  else if s.isIn .recovering || s.isIn .dark || s.flag Reg.DOR_DEBUG_unlocked then err s 2
  else if warm && s.flag Reg.SEQ_STATUS_cold_only then err s 3
  else if s.isIn .running then
    let t := s.now + 10000000 + eraseNs s.host.areas
    (err (s.unload) 0).modSeq fun q => { q with start := some (warm, t) }
  else err (s.enterBringup warm) 0

/-- A START whose unload has ended enters BRINGUP (R355). -/
def State.finishStart (s : State) : State :=
  match s.seq.start with
  | some (warm, t) => if t ≤ s.now then (if s.isIn .running then (s.enterBringup warm) else s.modSeq fun q => { q with start := none }) else s
  | none => s

/-! ### Steps (R350-R353) -/

/-- Whether the start in progress, or the last one, is warm. -/
def State.warm (s : State) : Bool := s.flag Reg.SEQ_STATUS_warm

/-- A step fails (R353). -/
def State.failStep (s : State) (cause unit : Nat) : State :=
  let run := s.flag Reg.SEQ_STATUS_running
  let code := s.seq.next
  let s := s.sets [(Reg.SEQ_RESULT_fail_cause, cause), (Reg.SEQ_RESULT_fail_step, code), (Reg.SEQ_RESULT_fail_unit, unit),
    (Reg.SEQ_STATUS_step, code), (Reg.SEQ_STATUS_running, 0), (Reg.SEQ_STATUS_cold_only, 1)]
  let s := if run then s.sets [(Reg.SEQ_STEP_TIME_us code, min ((s.now - s.seq.stepAt) / 1000) (2 ^ 32 - 1)), (Reg.SEQ_STEP_TIME_skipped code, 0)]
    else s
  ((s.modSeq fun q => { q with env := none }).fieldOff).goto .standby

/-- A step completes (R352): its time, `step_done`, the sequencer event; the next code is expected. -/
def State.stepDone (s : State) (skipped : Bool) : State :=
  let code := s.seq.next
  let s := s.sets [(Reg.SEQ_STATUS_running, 0), (Reg.SEQ_STATUS_step_done, 1), (Reg.SEQ_STATUS_skipped, b2n skipped),
    (Reg.SEQ_STEP_TIME_us code, min ((s.now - s.seq.stepAt) / 1000) (2 ^ 32 - 1)), (Reg.SEQ_STEP_TIME_skipped code, b2n skipped)]
  (s.modSeq fun q => { q with next := q.next + 1, env := none }).raise .sequencer

/-- Whether a step does not apply to the start: BIST and PARTNER_CHECK on a warm one, PARTNER_CHECK where it is not needed
(R350, Table 14.2). -/
def State.skips (s : State) (code : Nat) : Bool :=
  (s.warm && (code == 7 || code == 9)) || (code == 9 && !s.flag Reg.SEQ_STATUS_partner_needed)

/-- The rate at which the saved set that a warm start loads has trained DRAM, none where it holds none (R357). -/
def State.loadedSet (s : State) : SavedSet := if s.seq.bandRec ∧ s.seq.heavy.valid then s.seq.heavy else s.seq.light

/-- SEAM_TRAIN begins: every link that leads anywhere is training (R176). -/
def State.seamStart (s : State) : State :=
  allRegions.foldl (fun s g => (regionLinks g).foldl (fun s p => s.sets
    [(Reg.SEAM_STATUS_state g (seamLink p.1 p.2), 1), (Reg.SEAM_STATUS_hub g (seamLink p.1 p.2), b2n (hubPort p.1 p.2).isSome)]) s) s

/-- A write of a step code (Table 14.1); the environment's outcome of the step comes with it (log 17). -/
def State.seqStep (s : State) (code : Nat) (env : StepEnv) : State :=
  if !s.isIn .bringup then s.set Reg.SEQ_STATUS_last_err 4
  else if s.flag Reg.SEQ_STATUS_running then s.set Reg.SEQ_STATUS_last_err 5
  else if code ≠ s.seq.next then s.set Reg.SEQ_STATUS_last_err 4
  else
    let s := s.sets [(Reg.SEQ_STATUS_last_err, 0), (Reg.SEQ_STATUS_step, code), (Reg.SEQ_STATUS_running, 1)]
    let s := s.modSeq fun q => { q with stepAt := s.now, env := some env, losses := 0 }
    let s := if code = 8 ∧ !s.warm then s.modMaps fun m => { m with coldStarts := m.coldStarts + 1 } else s
    let s := if code = 4 then s.seamStart else s
    if s.skips code then s.stepDone true
    else if code = 5 ∧ s.warm then
      let rate := (s.loadedSet.words.find? fun p => p.1 == Reg.DRAM_CFG_rate.off).map (·.2)
      if s.loadedSet.valid ∧ rate = some (s.get Reg.DRAM_CFG_rate) then s else s.failStep 8 0
    else s

/-- A row of the sequencer: the write of one code; nothing answers in OFF. -/
def seqRow (code : Nat) (value : Word64) (s : State) (f : State → State) : Res :=
  .next (if value.toNat % 16 = code ∧ !s.isIn .off then f s else s)

/-- START_COLD (R351, R355). -/
def execStartCold (value : Word64) (s : State) : Res := seqRow 0xF value s fun s => s.seqStart false
/-- START_WARM (R351, R355). -/
def execStartWarm (value : Word64) (s : State) : Res := seqRow 0xE value s fun s => s.seqStart true
/-- POWER_CHECK (R350-R352, R396). -/
def execPowerCheck (value : Word64) (env : StepEnv) (s : State) : Res := seqRow 1 value s fun s => s.seqStep 1 env
/-- SECURE_BOOT (R416). -/
def execSecureBoot (value : Word64) (env : StepEnv) (s : State) : Res := seqRow 2 value s fun s => s.seqStep 2 env
/-- FW_LOAD (R352, R354). -/
def execFwLoad (value : Word64) (env : StepEnv) (s : State) : Res := seqRow 3 value s fun s => s.seqStep 3 env
/-- SEAM_TRAIN (R352, R356). -/
def execSeamTrain (value : Word64) (env : StepEnv) (s : State) : Res := seqRow 4 value s fun s => s.seqStep 4 env
/-- DRAM_TRAIN (R254). -/
def execDramTrain (value : Word64) (env : StepEnv) (s : State) : Res := seqRow 5 value s fun s => s.seqStep 5 env
/-- ROPE_TRAIN (R352, R378). -/
def execRopeTrain (value : Word64) (env : StepEnv) (s : State) : Res := seqRow 6 value s fun s => s.seqStep 6 env
/-- BIST (R360, R361). -/
def execBist (value : Word64) (env : StepEnv) (s : State) : Res := seqRow 7 value s fun s => s.seqStep 7 env
/-- MAP_MERGE (R363-R367). -/
def execMapMerge (value : Word64) (env : StepEnv) (s : State) : Res := seqRow 8 value s fun s => s.seqStep 8 env
/-- PARTNER_CHECK (R366). -/
def execPartnerCheck (value : Word64) (env : StepEnv) (s : State) : Res := seqRow 9 value s fun s => s.seqStep 9 env
/-- RIGGING_BASE (R163, R165, R175). -/
def execRiggingBase (value : Word64) (env : StepEnv) (s : State) : Res := seqRow 10 value s fun s => s.seqStep 10 env
/-- DRESS_REHEARSAL (R368). -/
def execDressRehearsal (value : Word64) (env : StepEnv) (s : State) : Res := seqRow 11 value s fun s => s.seqStep 11 env
/-- STRIKE (Table 14.2). -/
def execStrikeStep (value : Word64) (env : StepEnv) (s : State) : Res := seqRow 12 value s fun s => s.seqStep 12 env
/-- READY (Table 14.2). -/
def execReadyStep (value : Word64) (env : StepEnv) (s : State) : Res := seqRow 13 value s fun s => s.seqStep 13 env

/-! ### What the steps do (Table 14.2) -/

/-- The outcome of a step's work: done, or failed with a cause and a unit. -/
abbrev Work := State × Option (Nat × Nat)

/-- POWER_CHECK: the input outside 54-62 V fails the start (R396); else the 16 converters and every regulator start. -/
def State.powerCheck (s : State) : Work :=
  if s.pins.mv < 54000 ∨ 62000 < s.pins.mv then (s, some (1, 0))
  else
    ({ s.sets [(Reg.POWER_STATUS_converters, 16), (Reg.POWER_STATUS_input_mv, s.pins.mv)] with
        power := { s.power with failed := [], regFault := [] } }, none)

/-- SECURE_BOOT (R416, R418): an image whose security version is below the fused minimum is not accepted; a new log begins with
the boot ROM and both images. `detail` [7:0] and [15:8]: security versions of the stage-core and house-core image. -/
def State.secureBoot (s : State) (e : StepEnv) : Work :=
  let stage := bits e.detail 0 8
  let house := bits e.detail 8 8
  if stage < s.get Reg.DOR_STATUS_svn_stage ∨ house < s.get Reg.DOR_STATUS_svn_house then (s, some (2, 0))
  else
    let a := s.drawBytes 64
    let b := a.2.drawBytes 64
    let c := b.2.drawBytes 64
    let s := (c.2.newLog).dorLog 0x01 a.1 []
    let s := s.dorLog 0x02 b.1 (toLE 4 (Config.fwVersion 1).toNat ++ toLE 1 house)
    (s.dorLog 0x03 c.1 (toLE 4 (Config.fwVersion 0).toNat ++ toLE 1 stage), none)

/-- FW_LOAD: firmware runs on all stage cores; stage core 0 leads (R21). -/
def State.fwLoad (s : State) : Work :=
  ((s.sets [(Reg.FW_VERSION_stage, (Config.fwVersion 0).toNat), (Reg.FW_VERSION_house, (Config.fwVersion 1).toNat),
    (Reg.HEARTBEAT_live, 0xFF), (Reg.HEARTBEAT_lead, 0)]).modRcv fun r => { r with coreAt := List.replicate 8 s.now, lost := [] }, none)

/-- Wires of a seam link that fail: spares take their place, and with too few spares, or a failing clock wire (68, 69), the link
is down and is entered in the field map with the source given (R356, R360). -/
def State.seamWires (s : State) (g l : Nat) (wires : List Nat) (source : Nat) : State :=
  match (regionLinks g).find? fun p => seamLink p.1 p.2 == l with
  | none => s
  | some (b, d) =>
    let fs := s.freeSpares b d
    if wires.any (fun w => w == 68 || w == 69) ∨ fs.length < wires.length then
      (s.setLink b d 5).fieldAdd 6 source (b * 32) l
    else s.swapSpares b d wires

/-- Words of failing wires, (region * 16 + link) * 128 + wire, gathered by link. -/
def wiresByLink (ws : List Nat) : List (Nat × List Nat) :=
  ((ws.map (· / 128)).eraseDups).map fun k => (k, (ws.filter fun w => w / 128 == k).map (· % 128))

/-- SEAM_TRAIN (R356-R358): every link that leads anywhere comes up, but for those the maps list as bad on a warm start and
those whose wires fail; on a warm start any failing wire fails the start. -/
def State.seamTrain (s : State) (e : StepEnv) : Work :=
  match e.bad with
  | w :: _ =>
    if s.warm then (s, some (4, let g := w / 2048; (g / 12) <<< 12 + (g % 12) <<< 8))
    else
      let s := allRegions.foldl (fun s g => (regionLinks g).foldl (fun s p => s.sets
        [(Reg.SEAM_STATUS_state g (seamLink p.1 p.2), 2), (Reg.SEAM_STATUS_hub g (seamLink p.1 p.2), b2n (hubPort p.1 p.2).isSome)]) s) s
      ((wiresByLink e.bad).foldl (fun s p => s.seamWires (p.1 / 16) (p.1 % 16) p.2 2) s, none)
  | [] =>
    if s.warm ∧ !s.loadedSet.valid then (s, some (8, 0))
    else
      let down := fun (b l : Nat) => s.warm && (s.maps.field ++ s.maps.merged).any fun m => m.kind == 6 && m.unit == b * 32 && m.index == l
      (allRegions.foldl (fun s g => (regionLinks g).foldl (fun s p =>
        let l := seamLink p.1 p.2
        s.sets [(Reg.SEAM_STATUS_state g l, if down p.1 l then 5 else 2), (Reg.SEAM_STATUS_hub g l, b2n (hubPort p.1 p.2).isSome)]) s) s,
        none)

/-- DRAM_TRAIN (R254). -/
def State.dramTrain (s : State) : Work :=
  (((List.range 24).foldl (fun s i => s.set (Reg.DRAM_CH_STATUS_state i) 1) s).sets
    [(Reg.DRAM_CFG_trained, 1), (Reg.DRAM_CFG_size_gib, 1728)], none)

/-- ROPE_TRAIN (R352, R378): the rings start to open with a neighbour expected on both sides; a ring with a port named as untrained
is left with its bypass closed. -/
def State.ropeTrain (s : State) (e : StepEnv) : Work :=
  ((List.range 3).foldl (fun s i =>
    if e.bad.any fun p => p / 2 == i then s.endRing i 7 else s.openRing i 3) s, none)

/-- A map entry from a word (Table 14.5). -/
def entryOf (w source coldStart : Nat) : MapEnt :=
  ⟨bits w 0 4, source, bits w 8 16, bits w 24 8, bits w 32 16, false, false, false, 0, coldStart⟩

/-- Region of a map entry that names a die. -/
def MapEnt.region (e : MapEnt) : Nat := (e.unit >>> 12) * 12 + bits e.unit 8 4

/-- A unit found bad by this start's tests. -/
def State.testFail (s : State) (e : MapEnt) : State :=
  s.modMaps fun m => { m with tests := if m.tests.any e.same then m.tests else m.tests ++ [e] }

/-- A repair that BIST asks for (R140, R361): a spare is assigned; a bank without one makes its cell bad. -/
def State.bistRepair (s : State) (e : MapEnt) : State :=
  let col : Bool := e.kind == 4
  let rs := (s.bank e.unit e.index).repairs
  if rs.any fun r => r.col == col && r.target == e.target then s
  else match freeSpare rs col with
    | some i => s.modBank e.unit e.index fun b => { b with repairs := b.repairs ++ [⟨i, col, e.target, 1, true, false⟩] }
    | none => s.testFail { e with kind := 1, index := 0, target := 0 }

/-- One word of BIST's outcome (log 17): a map entry's word; with source 0xF a region whose controller BIST cannot reach, 0xE one
whose fault sideband cannot be reached, 0xD a die whose fuse block fails its check. -/
def State.bistWord (s : State) (w : Nat) : State :=
  let e := entryOf w 2 s.maps.coldStarts
  match bits w 4 4 with
  | 0xF => s.modMaps fun m => { m with unreached := NSet.add m.unreached e.region }
  | 0xE => (s.testFail e).fieldAdd 7 2 e.unit 0
  | 0xD => s.modMaps fun m => { m with fuseBad := NSet.add m.fuseBad e.region }
  | _ =>
    if e.kind = 3 ∨ e.kind = 4 then (if cellValid e.unit then s.bistRepair e else s)
    else if e.kind = 5 then (s.seamWires e.region e.target [e.index] 2).testFail e
    else s.testFail e

/-- BIST (R360, R361, R364): a region whose fault sideband cannot be reached, or whose controller cannot and whose fuse block
fails, fails the start. -/
def State.bist (s : State) (e : StepEnv) : Work :=
  let s := s.modMaps fun m => { m with tests := [], unreached := [], fuseBad := [] }
  let s := e.bad.foldl State.bistWord s
  match e.bad.find? fun w => bits w 4 4 == 0xE with
  | some w => (s, some (0x0B, bits w 8 16 &&& 0xFF00))
  | none => match s.maps.unreached.find? fun g => s.maps.fuseBad.contains g with
    | some g => (s, some (0x0B, (g / 12) <<< 12 + (g % 12) <<< 8))
    | none => (s, none)

/-! ### MAP_MERGE (R361-R367) -/

/-- Bytes of a map entry (Table 14.5). -/
def MapEnt.bytes (e : MapEnt) : List Byte :=
  toLE 8 (e.kind + e.source <<< 4 + e.unit <<< 8 + e.index <<< 24 + e.target <<< 32 + (b2n e.burnPending) <<< 48 + (b2n e.burned) <<< 49 +
    (b2n e.candidate) <<< 50 + e.passes <<< 51) ++ toLE 4 e.coldStart ++ toLE 4 0

/-- Digests of the fuse blocks, the factory map and the field map (R367, R418). -/
def MapSt.digests (m : MapSt) : List (List Byte) :=
  [shake256 64 (m.fuse.flatMap MapEnt.bytes ++ m.fuseBad.flatMap (toLE 8)), shake256 64 (m.factory.flatMap MapEnt.bytes),
    shake256 64 (m.field.flatMap MapEnt.bytes)]

/-- A map-disagreement record (kind 0x0E). -/
def State.disagree (s : State) (e : MapEnt) : State :=
  let loc := match e.kind with | 1 => 0 | 3 => 1 | 4 => 1 | 5 => 2 | 6 => 2 | 7 => 5 | _ => 4
  s.stageCairn (Cairn.blank 0x0E loc e.index e.unit 0xFFFF 0)

/-- Whether a unit was judged by the tests of this start: its region was in reach. -/
def MapSt.tested (m : MapSt) (e : MapEnt) : Bool := !m.unreached.contains e.region

/-- The row of Table 14.6 that decides a unit (1-10), the sources in order: the die's fuse block, fuses, factory map, field map,
tests. A unit that no test judged keeps the verdict of the map that lists it (row 0). -/
def MapSt.row (m : MapSt) (e : MapEnt) : Nat :=
  let fails := m.tests.any e.same
  if m.fuseBad.contains e.region then 1
  else if m.fuse.any e.same then (if fails then 2 else if m.tested e then 3 else 0)
  else if m.factoryOk && m.factory.any e.same then (if fails then 4 else if m.tested e then 5 else 0)
  else match m.field.find? e.same with
    | some f => if fails then 6 else if !m.tested e then 0 else if f.candidate ∧ f.passes = 2 then 7 else 8
    | none => if fails then 9 else 10

/-- Whether an entry names a unit and not a repair. -/
def MapEnt.isUnit (e : MapEnt) : Bool := e.kind != 3 && e.kind != 4

/-- One unit merged (Table 14.6): the field map's entry, the merged map, the record. -/
def State.mergeUnit (s : State) (e : MapEnt) : State :=
  let r := s.maps.row e
  let s := match r with
    | 3 => s.disagree e
    | 5 => s.disagree e
    | 6 => s.writeField (s.maps.field.map fun f => if f.same e then { f with candidate := false, passes := 0 } else f)
    | 7 => s.writeField (s.maps.field.filter fun f => !f.same e)
    | 8 => if s.maps.field.any (fun f => f.same e && f.candidate) then
        s.writeField (s.maps.field.map fun f => if f.same e then { f with passes := f.passes + 1 } else f)
      else s
    | 9 => s.writeField (s.maps.field ++ [{ e with coldStart := s.maps.coldStarts }])
    | _ => s
  if r = 1 ∨ r = 7 ∨ r = 10 then s else s.modMaps fun m => { m with merged := m.merged ++ [e] }

/-- The units that any source names, each once: fuses, factory map, field map, tests. -/
def MapSt.units (m : MapSt) : List MapEnt :=
  (m.fuse ++ (if m.factoryOk then m.factory else []) ++ m.field ++ m.tests).foldl (fun acc e =>
    if !e.isUnit || acc.any e.same then acc else acc ++ [e]) []

/-- Apply every repair that a map holds and a bank does not, soft (R361, R364). -/
def State.applyRepairs (s : State) (es : List MapEnt) : State :=
  es.foldl (fun s e =>
    if e.kind ≠ 3 ∧ e.kind ≠ 4 then s
    else
      let col : Bool := e.kind == 4
      let rs := (s.bank e.unit e.index).repairs
      if rs.any fun r => r.col == col && r.target == e.target then s
      else match freeSpare rs col with
        | some i => s.modBank e.unit e.index fun b => { b with repairs := b.repairs ++
            [⟨i, col, e.target, if e.source = 0 then 0 else 3, !e.burned, e.burned⟩] }
        | none => s.testFail { e with kind := 1, source := 2, index := 0, target := 0 }) s

/-- Burn a repair in the next free slot of its die (R361): slots that fail their read-back are spent; none free leaves it soft. -/
def burnSlot (bad : Nat → Bool) : Nat → Nat → Nat × Bool
  | 0, next => (next, false)
  | n + 1, next => if 64 ≤ next then (next, false) else if bad next then burnSlot bad n (next + 1) else (next + 1, true)

/-- Burn the field map's repairs in order (R361); `bad` names slots (region * 64 + slot) that fail their read-back. -/
def State.burnRepairs (s : State) (bad : List Nat) : State :=
  s.maps.field.foldl (fun s e =>
    if (e.kind ≠ 3 ∧ e.kind ≠ 4) ∨ e.burned then s
    else
      let g := e.region
      let r := burnSlot (fun k => bad.contains (g * 64 + k)) 65 (SMap.getD s.maps.slots g 0)
      let hit := fun (f : MapEnt) => f.same e && f.target == e.target
      let s := s.modMaps fun m => { m with slots := SMap.put m.slots g r.1 }
      let s := s.writeField (s.maps.field.map fun f => if hit f then { f with burned := r.2, burnPending := !r.2 } else f)
      if r.2 then
        let col : Bool := e.kind == 4
        (s.modMaps fun m => { m with fuse := m.fuse ++ [{ e with source := 0, burned := true, burnPending := false }] }).modBank e.unit e.index
          fun b => { b with repairs := b.repairs.map fun p =>
            if p.col = col ∧ p.target = e.target then { p with burned := true, burnPending := false } else p }
      else s) s

/-- Cells made bad in this start alone, under rows 6 and 9 (R364). -/
def MapSt.fresh (m : MapSt) (es : List MapEnt) : Nat :=
  let es := es.filter fun e => m.row e == 6 || m.row e == 9
  ((allRegions.flatMap regionCells).filter fun c => es.any fun e => e.hits c).length

/-- What a bad link, wire or lane of the merged map means: the link is down, traffic has left the wire or lane for a spare (R356, R364). -/
def State.avoidBad (s : State) (e : MapEnt) : State :=
  let b := e.unit / 32
  let l := if e.kind = 6 then e.index else e.target
  let d := ((regionLinks e.region).find? fun p => p.1 == b && seamLink p.1 p.2 == l).map (·.2)
  match e.kind, d with
  | 6, some d => s.setLink b d 5
  | 5, some d =>
    if s.get (Reg.SEAM_STATUS_spare0 e.region l) = e.index ∨ s.get (Reg.SEAM_STATUS_spare1 e.region l) = e.index then s
    else s.seamWires e.region l [e.index] e.source
  | 8, _ => if s.spareOk (e.index / 32 % 6) (e.index % 32) then s.spareLane (e.index / 32 % 6) (e.index % 32) 1 1 else s
  | _, _ => s

/-- MAP_MERGE (R363-R365, R367). `detail`: [0] the factory map fails its signature; [1], [2] copy A or B of the field map fails
its digest. -/
def State.mapMerge (s : State) (e : StepEnv) : Work :=
  let s := s.modMaps fun m => { m with factoryOk := !bitAt e.detail 0, copyA := { m.copyA with ok := m.copyA.ok && !bitAt e.detail 1 }
                                       copyB := { m.copyB with ok := m.copyB.ok && !bitAt e.detail 2 } }
  if s.warm then (s, if s.maps.digests = s.dor.atReady ∧ s.maps.factoryOk then none else some (9, 0))
  else
    let need := !s.maps.factoryOk || (!s.maps.copyA.ok && !s.maps.copyB.ok) || !s.maps.unreached.isEmpty
    let lost : Bool := !s.maps.copyA.ok && !s.maps.copyB.ok
    let s := s.applyRepairs (s.maps.fuse ++ (if s.maps.factoryOk then s.maps.factory else []) ++ s.maps.field)
    let us := s.maps.units
    let tested := 7840 - 56 * s.maps.unreached.length
    if tested < 50 * s.maps.fresh us then (s, some (6, 0))
    else
      let s := s.modMaps fun m => { m with merged := m.fuseBad.map fun g => ⟨7, 0, (g / 12) <<< 12 + (g % 12) <<< 8, 0, 0, false, false, false, 0, 0⟩ }
      let s := s.maps.merged.foldl State.disagree s
      let s := us.foldl State.mergeUnit s
      let s := s.maps.merged.foldl State.avoidBad s
      let s := if lost then
          let s := if s.maps.copyA.ok || s.maps.copyB.ok then s else s.writeField []
          s.stageCairn (Cairn.blank 0x0E 6 0 0 0xFFFF 0)
        else s
      let s := s.banks.foldl (fun s p => s.fieldRepairs (p.1 / 8) (p.1 % 8) p.2.repairs) s
      let s := if s.burnAllowed then s.burnRepairs e.bad else s
      (s.set Reg.SEQ_STATUS_partner_needed (b2n need), none)

/-- The voting set of a cell (R366): the cells of its type in its own block and in the adjacent blocks. -/
def votingSet (c : Nat) : List Nat :=
  (c / 32 :: (List.range 4).filterMap (neighbour (c / 32))).flatMap fun b => (blockCells b).filter fun d => engineOf d == engineOf c

/-- The signature that a strict majority of a list holds, if one does. -/
def majority (sigs : List Nat) : Option Nat := sigs.eraseDups.find? fun v => sigs.length < 2 * (sigs.filter (· == v)).length

/-- The signature of a cell: the one that firmware expects of its engine type unless the outcome gives another, cell + signature * 2^16
(log 17). -/
def partnerSig (ws : List Nat) (c : Nat) : Nat :=
  match ws.find? fun w => bits w 0 16 == c with
  | some w => bits w 16 64
  | none => (Config.partnerSig (match engineOf c with | .m => 0 | .v => 1 | .s => 2)).toNat

/-- Whether a cell fails its vote among the cells that take part (R366). -/
def failsVote (part : List Nat) (ws : List Nat) (c : Nat) : Bool :=
  let want := partnerSig [] c
  match majority (((votingSet c).filter part.contains).map (partnerSig ws)) with
  | some v => !(partnerSig ws c == v && v == want)
  | none => partnerSig ws c != want

/-- PARTNER_CHECK (R366): the cells of every region that is not bad vote; Table 14.6 decides each that fails, with source 4, and the
listed cells of regions that BIST could not reach, which are tested now; more than 2 % of those that take part fail the start. -/
def State.partnerCheck (s : State) (e : StepEnv) : Work :=
  let part := (allRegions.flatMap regionCells).filter fun c => !s.maps.merged.any fun m => m.kind == 7 && m.hits c
  let cs := part.filter (failsVote part e.bad)
  if part.length < 50 * cs.length then (s, some (0x0A, 0))
  else
    let un := s.maps.unreached
    let anew := fun (s : State) (e : MapEnt) =>
      State.mergeUnit (s.modMaps fun m => { m with merged := m.merged.filter fun f => !f.same e }) e
    let late := s.maps.units.filter fun e => e.kind == 1 && un.contains e.region && part.contains e.unit && !cs.contains e.unit
    let s := s.modMaps fun m => { m with unreached := [] }
    let s := late.foldl anew s
    let s := cs.foldl (fun s c =>
      let e := (⟨1, 4, c, 0, 0, false, false, false, 0, s.maps.coldStarts⟩ : MapEnt)
      anew (s.testFail e) e) s
    (s.modMaps fun m => { m with unreached := un }, none)

/-! ### Rigging, rehearsal, strike, READY -/

/-- RIGGING_BASE (R163, R165, R175): the detour set given is loaded when it leaves virtual channel 1 free of cycles; every block
gets its nearest port; no block reaching any port fails the start (cause: log 41). `bad` holds the set: block key * 2^64 + entry. -/
def State.riggingBase (s : State) (e : StepEnv) : Work :=
  let keys := (e.bad.map (· / 2 ^ 64)).eraseDups
  let set := keys.map fun b => (b, (e.bad.filter fun w => w / 2 ^ 64 == b).map fun w => BitVec.ofNat 64 w)
  let s := if set.isEmpty then s else if s.detoursOk set then s.setDetours set else s
  let homes := allBlocks.map fun b => (b, s.nearest b)
  if homes.all fun h => h.2.isNone then (s, some (0x0B, 0))
  else
    let xr := homes.foldr (fun h acc => (h.1, { s.xr h.1 with home := match h.2 with | some p => p.1 | none => 0 }) :: acc) []
    let s := { s with mesh := { s.mesh with xr := xr } }
    (s.publishDist, none)

/-- DRESS_REHEARSAL (R276, R368): every serviceable cell rehearses. -/
def State.dressStep (s : State) (e : StepEnv) : Work :=
  let cells := s.allServiceable
  let r := s.dress cells e.rehearsed
  (r.1, if cells.length < 50 * r.2 then some (0x0A, 0) else none)

/-- STRIKE: every cell is struck, all job DRAM and the snapshot region are crypto-erased (R144, R301, R338). -/
def State.strikeStep (s : State) : Work :=
  (((s.strikeAll).eraseArea 0 0x01AE00000000).eraseSnapshot, none)

/-- The words of a saved set (R357): the DRAM rate, and the spares and states of seam and rope links. -/
def State.linkWords (s : State) : List (Nat × Nat) :=
  (Reg.DRAM_CFG_rate.off, s.get Reg.DRAM_CFG_rate) ::
    ((List.range 6).map fun p => ((Reg.ROPE_STATUS_state p).off, s.reg (Reg.ROPE_STATUS_state p).off)) ++
    (s.seamSpares.map fun f => (f.1.off, f.2))

/-- Security version of the running image whose log entry has a type (Table 17.2: `detail`, version and security version). -/
def State.runningSvn (s : State) (ty : Nat) : Nat :=
  match s.dor.log.find? fun e => e.ty == ty with
  | some e => (nth e.detail 4 (0 : Byte)).toNat
  | none => 0

/-- Burn a minimum security version up to the running image's (R417). -/
def State.burnSvn (s : State) (f : RF) (ty : Nat) (fails : Bool) : State :=
  if s.get f < s.runningSvn ty then
    if fails then s.stageCairn (Cairn.blank 0x0E 6 0 0 0xFFFF 0) else s.set f (s.runningSvn ty)
  else s

/-- The configuration at READY (Table 17.2, type 7): every RWL and RWS field and the straps. -/
def State.configBytes (s : State) : List Byte :=
  (s.regs.flatMap fun w => w.2.flatMap fun p =>
    match regRowAt p.1 with
    | some r => r.fields.flatMap fun f =>
        if f.acc = .rwl ∨ f.acc = .rws then toLE 4 p.1 ++ toLE 8 (bits p.2.toNat f.lo f.w) else []
    | none => []) ++ toLE 1 s.pins.sampled

/-- READY (R357, R367, R369, R417, R418): the saved set, the digests, the minimum versions; then READY. `detail` [0], [1]: a burn of
the stage-core or house-core minimum fails its read-back. -/
def State.readyStep (s : State) (e : StepEnv) : State :=
  let s := if s.warm then s else s.modSeq fun q => { q with light := ⟨true, s.linkWords⟩ }
  let ds := s.maps.digests
  let s := ((s.dorLog 0x04 (nth ds 0 []) []).dorLog 0x05 (nth ds 1 []) []).dorLog 0x06 (nth ds 2 []) []
  let s := (s.dorLog 0x07 (shake256 64 s.configBytes) []).modDor fun d => { d with atReady := ds }
  let s := (s.burnSvn Reg.DOR_STATUS_svn_stage 0x03 (bitAt e.detail 0)).burnSvn Reg.DOR_STATUS_svn_house 0x02 (bitAt e.detail 1)
  let s := if s.warm then s else s.set Reg.SEQ_STATUS_cold_only 0
  ((s.stepDone false).goto .ready).recount

/-- The bound of a step in ns (Table 14.2), scaled with the clock under thermal dimming (R372). -/
def State.stepBound (s : State) (code : Nat) (e : StepEnv) : Nat :=
  let ms := if s.warm then nth [0, 200, 500, if bitAt e.detail 0 then 1500 else 50, 300, 500, 300, 0, 50, 0, 200, 100, 50, 10] code 0
    else nth [0, 200, 500, 1500, 8000, 12000, 6000, 50000, 1000, 22000, 200, 100, 50, 10] code 0
  let hot := (s.therm.map fun p => p.2.step).foldl max 6
  ms * 1000000 * 2400 / stepMHz hot

/-- The work of a step, its outcome as the environment gives it first. -/
def State.stepWork (s : State) (code : Nat) (e : StepEnv) : Work :=
  match code with
  | 1 => s.powerCheck
  | 2 => s.secureBoot e
  | 3 => s.fwLoad
  | 4 => s.seamTrain e
  | 5 => s.dramTrain
  | 6 => s.ropeTrain e
  | 7 => s.bist e
  | 8 => s.mapMerge e
  | 9 => s.partnerCheck e
  | 10 => s.riggingBase e
  | 11 => s.dressStep e
  | 12 => s.strikeStep
  | _ => (s, none)

/-- STEP_COMPLETE (R352, R353): the step ends, in time or past its bound; ROPE_TRAIN, STRIKE and READY never fail. -/
def execStepComplete (s : State) : Res :=
  .next (match s.seq.env with
    | some e =>
      let code := s.seq.next
      if !s.isIn .bringup ∨ !s.flag Reg.SEQ_STATUS_running then s
      else if s.seq.stepAt + s.stepBound code e < s.now then s.failStep 0x0C 0
      else if e.cause ≠ 0 ∧ code ≠ 6 ∧ code < 12 then
        (if code = 5 then s.set (Reg.DRAM_CH_STATUS_state (e.unit % 24)) 2 else s).failStep e.cause e.unit
      else if code = 13 then s.readyStep e
      else match s.stepWork code e with
        | (t, none) => t.stepDone false
        | (t, some (cause, unit)) => t.failStep cause unit
    | none => s)

/-- STEP_TIMEOUT (R352). -/
def execStepTimeout (s : State) : Res :=
  .next (match s.seq.env with
    | some e =>
      if s.isIn .bringup ∧ s.flag Reg.SEQ_STATUS_running ∧ s.seq.stepAt + s.stepBound s.seq.next e < s.now then s.failStep 0x0C 0 else s
    | none => s)

end Sys2Proof.Machine
end

