-- ==== Sys2Proof/Machine/Heart.lean ====
section
/-! DEFINITION. The passing of time, stage-core heartbeats (R296), the load recheck (R357-R359), and the events of the PCI Express
link (R316, R319, R322, R323). -/

namespace Sys2Proof.Machine

/-- The house clock moves on to a time (log 15); what was waiting for it ends: a strike or an unload (R336, R338), the unload of a
START (R355). -/
def State.elapse (s : State) (t : Nat) : State :=
  (State.endStrike { s with now := max s.now t }).finishStart

/-- A step with no command waiting: the house clock counts one nanosecond, unless the panel is OFF (R403; log 48). -/
def State.idle (s : State) : State := if s.isIn .off then s else s.elapse (s.now + 1)

/-! ### Heartbeats (R21, R296) -/

/-- Whether a stage core is live. -/
def State.coreLive (s : State) (n : Nat) : Bool := bitAt (s.get Reg.HEARTBEAT_live) n

/-- The stage core that serves a mailbox: its own, or the lead (R21). -/
def State.server (s : State) (mb : Nat) : Nat := if s.coreLive mb then mb else s.get Reg.HEARTBEAT_lead

/-- HEARTBEAT_TICK (R296). -/
def execHeartbeatTick (n : Nat) (s : State) : Res :=
  onUnit (n < 8) n s fun s => when (s.coreLive n) (fun s => s.modRcv fun r => { r with coreAt := setNth r.coreAt n s.now }) s

/-- A mailbox's command is lost with its stage core: it has no further effect and completes with BUSY (R296; log 42). -/
def State.loseCommand (s : State) (mb : Nat) : State :=
  let s := if s.belay.any fun y => y.mb == mb then { s with belay := none } else s
  let s := s.modHost fun h => { h with strike := h.strike.map fun k => if k.mb = mb then { k with mb := 8 } else k }
  let s := s.modHost fun h => { h with requal := h.requal.filter fun q => q.2.1 != mb || q.2.2.isSome }
  let s := s.modDor fun d => { d with queue := d.queue.filter fun q => q.mb != mb }
  (s.set Reg.DOR_STATUS_attest_queue s.dor.queue.length).respond mb St.busy.code []

/-- Show which mailboxes the lead serves for a core that is not live (R21). -/
def State.showLead (s : State) : State :=
  (List.range 8).foldl (fun s m => s.set (Reg.MB_STATUS_by_lead m) (b2n (!s.coreLive m))) s

/-- The lead is lost (R296, R353): in RUNNING the new lead declares a hang; a recovery starts again at its step 3. -/
def State.leadLost (s : State) : State :=
  if s.isIn .running then s.startRecovery 1 3
  else if s.isIn .recovering then
    (s.set Reg.RECOVERY_STATUS_phase (stepThree s.rcv.route)).modRcv fun r => { r with boundAt := s.now, loadStep := 0 }
  else s

/-- A stage core lost during a bring-up step (R353): the step runs again; the second loss fails it. -/
def State.stepLoss (s : State) : State :=
  if s.isIn .bringup ∧ s.flag Reg.SEQ_STATUS_running then
    if s.seq.losses = 0 then s.modSeq fun q => { q with losses := 1 } else s.failStep 0x0C 0
  else s

/-- HEARTBEAT_LOSS (R21, R296): a heartbeat that has not changed for 1 ms. -/
def execHeartbeatLoss (n : Nat) (s : State) : Res :=
  onUnit (n < 8) n s fun s =>
    when (s.coreLive n && nth s.rcv.coreAt n 0 + 1000000 ≤ s.now) (fun s =>
      let mine := (List.range 8).filter fun m => s.server m == n
      let lead := s.get Reg.HEARTBEAT_lead
      let live := s.get Reg.HEARTBEAT_live - 2 ^ n
      let s := (s.set Reg.HEARTBEAT_live live).inc Reg.HEARTBEAT_core_restarts
      let s := mine.foldl State.loseCommand (s.modRcv fun r => { r with lost := NSet.add r.lost n })
      let s := match (List.range 8).find? fun i => bitAt live i with
        | some l => if lead = n then (s.set Reg.HEARTBEAT_lead l).leadLost else s
        | none => s
      (s.showLead).stepLoss) s

/-- CORE_REJOIN (R296): a lost core whose image Doreana has matched rejoins; with every core lost all eight start again, and stage
core 0 leads and declares a hang. -/
def execCoreRejoin (n : Nat) (verified : Bool) (s : State) : Res :=
  onUnit (n < 8) n s fun s =>
    when (s.rcv.lost.contains n && verified) (fun s =>
      let digest := match s.dor.log.find? fun e => e.ty == 3 with | some e => e.digest | none => []
      if s.get Reg.HEARTBEAT_live = 0 then
        let s := s.sets [(Reg.HEARTBEAT_live, 0xFF), (Reg.HEARTBEAT_lead, 0)]
        let s := s.modRcv fun r => { r with lost := [], coreAt := List.replicate 8 s.now }
        (((List.range 8).foldl (fun s _ => s.dorLog 0x0C digest []) s).showLead).leadLost
      else
        let s := s.set Reg.HEARTBEAT_live (s.get Reg.HEARTBEAT_live ||| 2 ^ n)
        let s := s.modRcv fun r => { r with lost := NSet.del r.lost n, coreAt := setNth r.coreAt n s.now }
        (s.dorLog 0x0C digest []).showLead) s

/-! ### The load recheck (R357-R359) -/

/-- LOAD_RECHECK (R357, R358): the input power passes 50 % of the limit; the band is heavy from here on. -/
def execLoadRecheck (s : State) : Res :=
  .next (if (s.isIn .ready || s.isIn .running) && s.seq.recheck.isNone && !s.seq.rechecked &&
      s.get Reg.POWER_CTRL_limit_w < 2 * s.get Reg.POWER_STATUS_input_w then
    (s.set Reg.POWER_STATUS_band_heavy 1).modSeq fun q => { q with recheck := some s.now }
  else s)

/-- Wires of a seam that still fail after a recheck (R358): a spare stays in use and the wire is entered in the field map with
source 6; with no spare free the link retrains in full (R151). -/
def State.recheckWires (s : State) (g l : Nat) (wires : List Nat) : State :=
  match (regionLinks g).find? fun p => seamLink p.1 p.2 == l with
  | none => s
  | some (b, d) =>
    if s.spareCount b d < wires.length then s.setLink b d 4
    else wires.foldl (fun s w => s.fieldPut ⟨5, 6, b * 32, w, l, false, false, false, 0, s.maps.coldStarts⟩) (s.swapSpares b d wires)

/-- LOAD_RECHECK_DONE (R357-R359): lanes that still fail stay on spares; the heavy set is written. `bad`: seam wires as in log 17, or
2^20 + port * 32 + lane for a rope lane. -/
def execLoadRecheckDone (env : StepEnv) (s : State) : Res :=
  .next (if (s.isIn .ready || s.isIn .running) && s.seq.recheck.isSome then
    let seams := env.bad.filter fun w => w < 2 ^ 20
    let s := (wiresByLink seams).foldl (fun s p => s.recheckWires (p.1 / 16) (p.1 % 16) p.2) s
    let s := (env.bad.filter fun w => 2 ^ 20 ≤ w).foldl (fun s w =>
      let p := (w - 2 ^ 20) / 32 % 6
      let l := w % 32
      if s.spareOk p l then (s.spareLane p l 1 (s.sparedCount p + 1)).fieldAdd 8 6 0 (p * 32 + l) else s) s
    s.modSeq fun q => { q with recheck := none, rechecked := true, heavy := ⟨env.cause == 0, s.linkWords⟩ }
  else s)

/-- POWER_BAND_LIGHT (R357): the input power has stayed below 50 % of the limit for 60 s. -/
def execPowerBandLight (s : State) : Res :=
  .next (match s.seq.lightAt with
    | some t =>
      if s.flag Reg.POWER_STATUS_band_heavy ∧ t + 60000000000 ≤ s.now then
        (s.set Reg.POWER_STATUS_band_heavy 0).modSeq fun q => { q with rechecked := false }
      else s
    | none => s)

/-! ### PCI Express (R316, R319, R322, R323) -/

/-- PCIE_LINK_TRAIN (R316): the link settles at a mode, or as degraded. -/
def execPcieLinkTrain (rate width : Nat) (flit degraded : Bool) (s : State) : Res :=
  .next (if s.isIn .off then s
    else (s.sets [(Reg.PCIE_LINK_rate, rate), (Reg.PCIE_LINK_width, width), (Reg.PCIE_LINK_flit, b2n flit),
      (Reg.PCIE_LINK_degraded, b2n (degraded || rate == 0 || width < 4))]).inc Reg.PCIE_LINK_retrain_count)

/-- Every mailbox loses its session, the job key ends with the session that imported it (Table 17.1), and, unless the panel is DARK,
every mailbox loses its command, its registers and its deferral log (Table 13.4). -/
def State.resetMailboxes (s : State) : State :=
  let s := s.dropJobKey.modHost fun h => { h with mbs := [], finals := [], defers := [], requal := [], load := none,
                                                   strike := h.strike.map fun k => { k with mb := 8 } }
  let s := s.modDor fun d => { d with queue := d.queue.filter fun q => q.mb == 8 }
  let s := s.set Reg.DOR_STATUS_attest_queue s.dor.queue.length
  { s with belay := none, regs := s.regs.filter fun w => w.1 < 256 || 264 ≤ w.1 }

/-- A ring is destroyed at once, with the channels joined to it; a ring waiting for its index is not made. -/
def State.killRing (s : State) (i : Nat) : State :=
  let r := s.ring i
  let s := if r.live then (s.ringChans i).foldl State.destroyChan (s.destroyRing i) else s
  s.modRing i fun r => { RingSt.init with gen := nextGen r.gen }

/-- The configuration space after a reset (R322; log 15): Bus Master Enable 0, BAR4 at its default size. -/
def State.resetConfig (s : State) : State :=
  let s := if s.host.bar4 = 2 ^ 30 then s else s.set Reg.APERTURE_BASE_base 0
  s.modHost fun h => { h with bme := false, bar4 := 2 ^ 30 }

/-- PCIE_RESET (R322, Table 13.4): all four kinds have one effect. -/
def execPcieReset (_kind : PcieReset) (s : State) : Res :=
  .next (if s.isIn .off then s
    else
      let s := s.resetConfig.inc Reg.PCIE_LINK_flr_count
      if s.isIn .dark then
        let s := s.modHost fun h => { h with mbs := SMap.mapVal (fun _ (m : MbSt) => { m with session := 0 }) h.mbs }
        (List.range 8).foldl (fun s m => s.set (Reg.MB_STATUS_session_open m) 0) s
      else
        let s := (SMap.keys s.host.rings).foldl State.killRing s.resetMailboxes
        if s.isIn .running ∧ s.pkg.isSome then (s.startUnload 8 0x11 0).endStrike
        else if s.isIn .recovering then s.modHost fun h => { h with unloadAfter := s.pkg.isSome }
        else s)

/-- BAR4_RESIZE (R319): a power of two from 1 GiB to 2 TiB; `APERTURE_BASE` becomes zero. -/
def execBar4Resize (size : Nat) (s : State) : Res :=
  .next (if 2 ^ 30 ≤ size ∧ size ≤ 2 ^ 41 ∧ size = 2 ^ Nat.log2 size ∧ !s.isIn .off then
    (s.modHost fun h => { h with bar4 := size }).set Reg.APERTURE_BASE_base 0
  else s)

/-- BUS_MASTER_ENABLE_CHANGE (R323). -/
def execBusMasterEnableChange (enable : Bool) (s : State) : Res :=
  .next (if s.isIn .off then s else s.modHost fun h => { h with bme := enable })

end Sys2Proof.Machine
end

