-- ==== Sys2Proof/Machine/Power.lean ====
section
/-! DEFINITION. Input power, the power step and the fast cut (R396-R400), frequency steps (R401), the reference and the house clock
(R402-R404). -/

namespace Sys2Proof.Machine

/-- Whether the panel's power domains outside the always-on one are up: neither OFF nor STANDBY (R31). -/
def State.powered (s : State) : Bool := !(s.isIn .off || s.isIn .standby)

/-- Change power control. -/
def State.modPower (s : State) (f : PowerSt → PowerSt) : State := { s with power := f s.power }

/-! ### Input (R396-R398) -/

/-- The effective limit in W (R398). -/
def State.effLimit (s : State) : Nat :=
  min (s.get Reg.POWER_CTRL_limit_w) (min (225 * s.pins.mv / 1000) (900 * (16 - s.power.failed.length)))

/-- What `POWER_STATUS` shows of the input as it is now; the power event where a band is entered (Table 16.1, R448). -/
def State.showInput (s : State) : State :=
  let under := s.flag Reg.POWER_STATUS_undervolt
  let wasOver := s.flag Reg.POWER_STATUS_overvolt
  let u : Bool := s.pins.mv < 54000
  let o : Bool := 62000 < s.pins.mv
  let s := s.sets [(Reg.POWER_STATUS_input_mv, s.pins.mv), (Reg.POWER_STATUS_undervolt, b2n u), (Reg.POWER_STATUS_overvolt, b2n o),
    (Reg.POWER_STATUS_converters, if s.powered then 16 - s.power.failed.length else 0)]
  if (u && !under) || (o && !wasOver) then s.raise .power else s

/-- INPUT_VOLTAGE_CHANGE (R396, R398): the input moves to `mv` millivolts. Outside 54-62 V POWER_CHECK fails (Table 16.1). -/
def execInputVoltageChange (mv : Nat) (s : State) : Res :=
  .next (
    let qual : Bool := 54000 ≤ mv && mv ≤ 62000
    let keep : Bool := 52000 ≤ mv && mv ≤ 63000
    let s := { s with pins := { s.pins with mv := mv } }
    let s := s.modPower fun p => { p with outAt := if keep then none else some (p.outAt.getD s.now) }
    if s.isIn .off then s
    else
      let s := s.showInput
      if !qual && s.isIn .bringup && s.flag Reg.SEQ_STATUS_running && s.seq.next == 1 then s.failStep 1 0 else s)

/-- CONVERTER_FAIL (R397): a failed converter is switched out. -/
def execConverterFail (n : Nat) (s : State) : Res :=
  onUnit (n < 16) n s fun s =>
    when (s.powered && !s.power.failed.contains n)
      (fun s => ((s.modPower fun p => { p with failed := NSet.add p.failed n }).showInput).raise .power) s

/-! ### The power step (R399, R400) -/

/-- Sum and count of the samples of the last millisecond: one every microsecond. -/
def State.average (s : State) : Nat := if s.power.samples.isEmpty then 0 else s.power.samples.sum / s.power.samples.length

/-- Set the power step. -/
def State.setPowerStep (s : State) (n : Nat) : State :=
  (s.set Reg.POWER_STATUS_power_step n).modPower fun p => { p with stepAt := s.now }

/-- A fast cut begins (R400): the power step goes to code 12 and is held there for 1 ms. -/
def State.fastCut (s : State) : State :=
  (((s.setPowerStep 12).modPower fun p => { p with hold := some (s.now + 1000000), overAt := none }).inc
    Reg.POWER_STATUS_limit_events).raise .power

/-- POWER_SAMPLE (R357, R399, R400): one sample of the input power. -/
def execPowerSample (watts : Nat) (s : State) : Res :=
  .next (if !s.powered then s
    else
      let limit := s.effLimit
      let xs := (s.power.samples ++ [watts])
      let s := s.modPower fun p => { p with samples := xs.drop (xs.length - 1000) }
      let s := (s.showInput).set Reg.POWER_STATUS_input_w (min s.average 65535)
      let light : Bool := 2 * s.average < s.get Reg.POWER_CTRL_limit_w
      let s := s.modSeq fun q => { q with lightAt := if light then some (q.lightAt.getD s.now) else none }
      let peak : Bool := (if s.flag Reg.POWER_CTRL_peak_enable then 16000 else limit) < watts
      -- a trigger at the end of the hold or after it starts a new cut
      if s.power.hold.any fun t => s.now < t then
        if peak then s.modPower fun p => { p with hold := some (s.now + 1000000) } else s
      else
        let since := if limit < watts then some (s.power.overAt.getD s.now) else none
        if peak || since.any (fun t => t + 10000000 ≤ s.now) then s.fastCut else s.modPower fun p => { p with overAt := since })

/-- POWER_STEP_RAISE (R399): while the average exceeds the effective limit, one code every 100 us. -/
def execPowerStepRaise (s : State) : Res :=
  .next (if s.powered && s.power.hold.isNone && decide (s.effLimit < s.average) && decide (s.get Reg.POWER_STATUS_power_step < 12) &&
      decide (s.power.stepAt + 100000 ≤ s.now) then s.setPowerStep (s.get Reg.POWER_STATUS_power_step + 1) else s)

/-- POWER_STEP_LOWER (R399): while the average is below 95 % of the effective limit, one code every 1 ms. -/
def execPowerStepLower (s : State) : Res :=
  .next (if s.powered && s.power.hold.isNone && decide (20 * s.average < 19 * s.effLimit) &&
      decide (0 < s.get Reg.POWER_STATUS_power_step) && decide (s.power.stepAt + 1000000 ≤ s.now) then
    s.setPowerStep (s.get Reg.POWER_STATUS_power_step - 1) else s)

/-- FAST_CUT_HOLD_END (R400): R399 resumes. -/
def execFastCutHoldEnd (s : State) : Res :=
  .next (match s.power.hold with
    | some t => if t ≤ s.now then s.modPower fun p => { p with hold := none, stepAt := s.now, overAt := none } else s
    | none => s)

/-! ### Frequency steps (R401) -/

/-- The code a region is to run at (R401): the highest of its thermal step, the power step and `fstep_max`; at least 6 in
BRINGUP. -/
def State.wantedCode (s : State) (g : Nat) : Nat :=
  let c := max (s.thermal g).step (max (s.get Reg.POWER_STATUS_power_step) (s.get (Reg.REGION_FCAP_fstep_max g)))
  if s.isIn .bringup then max c 6 else c

/-- FREQUENCY_CHANGE (R401): a region takes the code it is to run at. -/
def execFrequencyChange (g : Nat) (s : State) : Res :=
  onRegion g s fun s =>
    when (s.powered && decide (s.get (Reg.REGION_THERMAL_tstate g) < 2))
      (fun s => (s.clockMark g).set (Reg.REGION_THERMAL_fstep g) (s.wantedCode g)) s

/-! ### Reference and house clock (R402-R404) -/

/-- REFCLK_LOST (R402): the loops hold. -/
def execRefclkLost (s : State) : Res :=
  .next (if s.isIn .off || s.flag Reg.POWER_STATUS_ref_lost then s
    else State.raise { s.sets [(Reg.POWER_STATUS_ref_lost, 1), (Reg.HC_SYNC_locked, 0)] with clock := ⟨some s.now, 0⟩ } .power)

/-- REFCLK_RETURN (R402). -/
def execRefclkReturn (s : State) : Res :=
  .next (if s.isIn .off then s else { s.set Reg.POWER_STATUS_ref_lost 0 with clock := { s.clock with lostAt := none } })

/-- HOUSE_CLOCK_BEACON (R403): the master's count reaches `t` (log 15); it never moves backward. Every region's copy follows (log 9). -/
def execHouseClockBeacon (t : Nat) (s : State) : Res := .next (if s.isIn .off then s else s.elapse t)

/-- Rope port that `HC_SYNC` follows. -/
def State.syncPort (s : State) : Nat := 2 * s.get Reg.HC_SYNC_ring + s.get Reg.HC_SYNC_side

/-- A measured offset, and how far the clock is corrected (R404): in RUNNING by at most 100 ppm of the 100 us between exchanges,
else by at most 10 %, and a follower more than 1 ms behind steps. An offset that would set the clock back only slows it. -/
def State.correction (s : State) (off : Int) : Nat :=
  if off ≤ 0 then 0
  else if s.isIn .running then min off.toNat 10
  else if 1000000 < off then off.toNat
  else min off.toNat 10000

/-- HC_SYNC_EXCHANGE (R404): the stamps of an exchange sent at `now`: received by the neighbour at `t2`, sent back at `t3`, received
here at `t4`; with whether the neighbour is locked, and its depth. The follower's CTRL frame carries its stamp in a 32 B payload
(layout: log 40). -/
def execHcSyncExchange (t2 t3 t4 : Nat) (locked : Bool) (depth : Nat) (s : State) : Res :=
  .next (if s.isIn .off ∨ s.get Reg.HC_SYNC_source ≠ 1 ∨ 3 ≤ s.get Reg.HC_SYNC_ring ∨ !s.portUp s.syncPort then s
    else
    let s := s.ropeCtrlWith s.syncPort false (toLE 8 2 ++ toLE 8 s.now ++ toLE 16 0)
    if !locked then State.set { s with clock := { s.clock with inLock := 0 } } Reg.HC_SYNC_locked 0
    else
      let off := (((t2 : Int) - s.now) + ((t3 : Int) - t4)).tdiv 2
      let near : Bool := -5 ≤ off && off ≤ 5
      let n := if near then s.clock.inLock + 1 else 0
      let step : Bool := !s.isIn .running && 1000000 < off
      let c := s.correction off
      let s := s.sets [(Reg.HC_SYNC_offset_ns, ofSigned 16 (clampInt (-32768) 32767 off)), (Reg.HC_SYNC_depth, min (depth + 1) 0xFF),
        (Reg.HC_SYNC_locked, b2n (decide (16 ≤ n) && s.clock.lostAt.isNone))]
      let s := if step then s.inc Reg.HC_SYNC_step_count else s
      State.elapse { s with clock := { s.clock with inLock := n } } (max s.now t4 + c))

end Sys2Proof.Machine
end

