-- ==== Sys2Proof/Machine/Thermal.lean ====
section
/-! DEFINITION. Thermal steps, GHOST and CUT (R405-R410), a region controller that cannot be reached (R221), REQUALIFY and the return
of a region (R370, R371). Temperatures are in units of 1/8 °C, as `REGION_THERMAL` shows them. -/

namespace Sys2Proof.Machine

/-! ### Sensors and thermal steps (R405, R406) -/

/-- Thermal state of a region (Table 16.2). -/
def State.tstate (s : State) (g : Nat) : Nat := s.get (Reg.REGION_THERMAL_tstate g)

/-- The hottest working sensor of a region reads `t`: `temp`, since when it has been at 95 °C or above at code 12 (R405), and since
when below 90 °C (R409). -/
def State.senseTemp (s : State) (g : Nat) (t : Int) : State :=
  let s := s.set (Reg.REGION_THERMAL_temp g) (ofSigned 12 (clampInt (-2048) 2047 t))
  let hot : Bool := 760 ≤ t && s.tstate g < 2 && s.fcode g == 12
  let cool : Bool := t < 720
  s.modTherm g fun x =>
    { x with hotAt := if hot then some (x.hotAt.getD s.now) else none
             coolAt := if cool then some (x.coolAt.getD s.now) else none }

/-- Temperature that `REGION_THERMAL` shows. -/
def State.temp (s : State) (g : Nat) : Int := toSigned 12 (s.get (Reg.REGION_THERMAL_temp g))

/-- A region enters DIMMED (R411). -/
def State.dim (s : State) (g : Nat) : State := (s.set (Reg.REGION_THERMAL_tstate g) 1).inc (Reg.REGION_THERMAL_dim_count g)

/-- THERMAL_STEP_UP (R406): at 95 °C or above the thermal step rises by one, at once after a crossing and then every 100 us. -/
def execThermalStepUp (g : Nat) (temp : Int) (s : State) : Res :=
  onRegion g s fun s =>
    if s.powered && s.tstate g < 2 then
      let due : Bool := s.temp g < 760 || (s.thermal g).stepAt + 100000 ≤ s.now
      let s := s.senseTemp g temp
      if 760 ≤ temp && due && (s.thermal g).step < 12 then
        let s := s.modTherm g fun x => { x with step := x.step + 1, stepAt := s.now }
        if s.tstate g = 0 then s.dim g else s
      else s
    else s

/-- THERMAL_STEP_DOWN (R406): below 92 °C it falls by one every 1 ms; at step 0 the region is NORMAL. -/
def execThermalStepDown (g : Nat) (temp : Int) (s : State) : Res :=
  onRegion g s fun s =>
    if s.powered && s.tstate g < 2 then
      let due : Bool := (s.thermal g).stepAt + 1000000 ≤ s.now
      let s := s.senseTemp g temp
      if temp < 736 && due && 0 < (s.thermal g).step then
        let s := s.modTherm g fun x => { x with step := x.step - 1, stepAt := s.now }
        if (s.thermal g).step = 0 then s.set (Reg.REGION_THERMAL_tstate g) 0 else s
      else s
    else s

/-! ### GHOST and CUT (R405, R407, R408) -/

/-- Die of a region as `fail_unit` and reports name it. -/
def dieUnit (g : Nat) : Nat := (g / 12) <<< 12 + (g % 12) <<< 8

/-- Both ends of a region's seam links show whether the link runs under ghost light: either region at it is in GHOST. -/
def State.showGhost (s : State) (g : Nat) : State :=
  (regionLinks g).foldl (fun s p =>
    let dark := (seamRegs p.1 p.2).any fun r => s.tstate r.1 == 2
    (seamRegs p.1 p.2).foldl (fun s r => s.set (Reg.SEAM_STATUS_ghost r.1 r.2) (b2n dark)) s) s

/-- A region has entered GHOST or CUT: counted, the thermal event; a start fails at once (R372); the region controller reports to the
lead (R14). -/
def State.wentDark (s : State) (g : Nat) : State :=
  let s := (s.inc (Reg.REGION_THERMAL_dark_count g)).raise .thermal
  if s.isIn .bringup then s.failStep 1 (dieUnit g) else s.report (dieUnit g) 0 9

/-- Entry to GHOST (R407). Strips are swept whole, so the sweep has none to restore. -/
def State.ghost (s : State) (g : Nat) : State := (((s.clockMark g).set (Reg.REGION_THERMAL_tstate g) 2).showGhost g).wentDark g

/-- A crossing whose buffers lose what they hold. -/
def XrSt.emptied (x : XrSt) : XrSt :=
  { x with stages := [], vc1 := [], vc2 := [], vc3 := [], treeIn := [], inProgress := [], injFlits := [], injPkts := [], injItems := [] }

/-- A link direction that loses what is on its wires. -/
def WireSt.emptied (w : WireSt) : WireSt := { w with flits := [], items := [], rx := [], sent := 0, lost := false, credits := [] }

/-- An output of a crossing leads nowhere any more (R408): flits on its wires, flits of circuits that wait for it and packets routed to
it are discarded. The crossing, and how many flits went. -/
def XrSt.dropOutput (x : XrSt) (out : Nat) : XrSt × Nat :=
  let mask := fun (k : Nat) => stageMask (SMap.getD x.cur.stages k 0)
  let waits := fun (k : Nat) (q : StageBuf) => bitAt (mask k) out && !bitAt q.taken out && !q.flits.isEmpty
  let n := (x.stages.filter fun p => waits p.1 p.2).length
  let m := ((x.vc1.filter fun p => bitAt p.2.route out).map fun p => p.2.flits.length).sum
  ({ x with
      stages := SMap.mapVal (fun k (q : StageBuf) => if waits k q then q.take (mask k) out else q) x.stages
      vc1 := SMap.mapVal (fun _ (q : PktBuf) => if bitAt q.route out then q.drop else q) x.vc1
      inProgress := SMap.put x.inProgress out 0 }, n + m)

/-- A link into a region in CUT, seen from the block behind it (R408). -/
def State.cutLink (s : State) (b d : Nat) : State :=
  let s := (s.setLink b d 5).modWire (b * 4 + d) WireSt.emptied
  match neighbour b d with
  | some n =>
    let key := n * 4 + opp d
    let k := (s.wire key).flits.length
    -- a stage holds two flits
    let r := (s.xr n).dropOutput (opp d)
    let q := r.1.dropOutput (opp d)
    ((s.modWire key WireSt.emptied).modXr n fun _ => q.1).inc (Reg.XR_COUNTS_unroutable_count n) (k + r.2 + q.2)
  | none => match hubPort b d with
    | some p => s.modWire (hubWire p) WireSt.emptied
    | none => s

/-- Entry to CUT (R408): what the region's crossings hold is lost, and every link to it goes down. -/
def State.cut (s : State) (g : Nat) : State :=
  let s := (regionBlocks g).foldl (fun s b => s.modXr b XrSt.emptied) ((s.clockMark g).set (Reg.REGION_THERMAL_tstate g) 3)
  let s := (regionLinks g).foldl (fun s p => s.cutLink p.1 p.2) s
  (s.showGhost g).wentDark g

/-- GHOST_ENTRY (R405, R407, Table 16.3): the hottest working sensor at 105 °C, or at 95 °C for 100 ms at code 12, or no working
sensor. A temperature past 115 °C gives CUT. `working`: the sensors that pass their self-check. -/
def execGhostEntry (g : Nat) (temp : Int) (working : Nat) (s : State) : Res :=
  onRegion g s fun s =>
    if s.powered && s.tstate g < 2 then
      let s := s.set (Reg.REGION_THERMAL_sensors_ok g) working
      if working % 256 = 0 then s.ghost g
      else
        let s := s.senseTemp g temp
        if 920 ≤ temp then s.cut g
        else if 840 ≤ temp || (s.thermal g).hotAt.any (fun t => t + 100000000 ≤ s.now) then s.ghost g
        else s
    else s

/-- CUT_ENTRY (R405, R408). -/
def execCutEntry (g : Nat) (temp : Int) (s : State) : Res :=
  onRegion g s fun s =>
    if s.powered && s.tstate g < 3 then
      let s := s.senseTemp g temp
      if 920 ≤ temp then s.cut g else s
    else s

/-- REGULATOR_FAULT (R397): the region goes to CUT and stays there until REQUALIFY. -/
def execRegulatorFault (g : Nat) (s : State) : Res :=
  onRegion g s fun s =>
    when (s.powered && !s.power.regFault.contains g) (fun s =>
      let s := s.modPower fun p => { p with regFault := NSet.add p.regFault g }
      if s.tstate g < 3 then s.cut g else s) s

/-! ### Return (R409) -/

/-- Whether a region may leave a dark state by itself: not lost, its regulator sound, the panel not RECOVERING, and below 90 °C for
`ns`. -/
def State.mayReturn (s : State) (g ns : Nat) : Bool :=
  s.powered && !s.isIn .recovering && !s.flag (Reg.REGION_THERMAL_lost g) && !s.power.regFault.contains g &&
    (s.thermal g).coolAt.any fun t => t + ns ≤ s.now

/-- A region's seam links are up again, but for those whose other end is in CUT and those the field
map lists; firmware removes the crevasse. -/
def State.restoreLinks (s : State) (g : Nat) : State :=
  ((regionLinks g).foldl (fun s p =>
    if (seamRegs p.1 p.2).any fun r => s.tstate r.1 == 3 ||
        s.maps.field.any fun m => m.kind == 6 && bkG (m.unit / 32) == r.1 && m.index == r.2 then s
    else (seamRegs p.1 p.2).foldl (fun s r =>
      (s.set (Reg.SEAM_STATUS_state r.1 r.2) 2).inc (Reg.SEAM_STATUS_retrain_count r.1 r.2)) s) s).publishDist

/-- CUT_EXIT (R409): below 90 °C for 1 s a region goes to GHOST. -/
def execCutExit (g : Nat) (temp : Int) (s : State) : Res :=
  onRegion g s fun s =>
    if s.powered && s.tstate g == 3 then
      let s := s.senseTemp g temp
      if s.mayReturn g 1000000000 then
        let s := (s.set (Reg.REGION_THERMAL_tstate g) 2).inc (Reg.REGION_THERMAL_dark_count g)
        ((s.restoreLinks g).showGhost g).raise .thermal
      else s
    else s

/-- A region leaves GHOST (R409): its cells are struck under R312, and start at code 12. -/
def State.light (s : State) (g : Nat) : State :=
  let s := (regionCells g).foldl State.strikeReturn (((s.clockMark g).dim g).modTherm g fun x => { x with step := 12, stepAt := s.now })
  (((s.clockMark g).set (Reg.REGION_THERMAL_fstep g) 12).showGhost g).raise .thermal

/-- GHOST_EXIT (R409): below 90 °C for 100 ms a region leaves GHOST. -/
def execGhostExit (g : Nat) (temp : Int) (s : State) : Res :=
  onRegion g s fun s =>
    if s.powered && s.tstate g == 2 then
      let s := s.senseTemp g temp
      if s.mayReturn g 100000000 then s.light g else s
    else s

/-- REGION_CONTROLLER_UNREACHABLE (R221): the region is lost, its crossings are out of service, and what the package has there is
re-placed. -/
def execRegionControllerUnreachable (g : Nat) (s : State) : Res :=
  onRegion g s fun s =>
    when (s.firmware && !s.isIn .bringup && !s.maps.unreached.contains g) (fun s =>
      let s := s.modMaps fun m => { m with unreached := NSet.add m.unreached g }
      let s := if s.spareMode then s.loseRegion g else s
      if s.regionUsed g then s.fenceRoute else s) s

/-! ### REQUALIFY (R370, R371) -/

/-- Whether an entry of REQUALIFY's argument, which holds kind, unit and index, names a map's entry. -/
def MapEnt.names (a b : MapEnt) : Bool := a.kind == b.kind && a.unit == b.unit && a.index == b.index

/-- Whether a unit of an entry is fused bad or factory bad, or the entry a repair (R370). -/
def MapSt.fixed (m : MapSt) (e : MapEnt) : Bool :=
  e.kind == 3 || e.kind == 4 || m.fuse.any e.names || (m.factoryOk && m.factory.any e.names)

/-- An entry of the argument becomes a candidate, when it names a field-map entry and is not refused. -/
def State.candidate (s : State) (e : MapEnt) : Option State :=
  if s.maps.fixed e ∨ !(s.maps.field.any e.names) then none
  else some (s.writeField (s.maps.field.map fun f => if f.names e then { f with candidate := true, passes := 0 } else f))

/-- Whether a region may be named by REQUALIFY (R371): out of service, with no region entry in the field map. -/
def State.requalOk (s : State) (g : Nat) : Bool :=
  regionValid g && (s.regionOut g || s.maps.unreached.contains g || (regionLinks g).all fun p => s.linkState p.1 p.2 == 5) &&
    !(s.maps.field.any fun e => e.kind == 7 && e.unit == dieUnit g) && !(s.host.requal.any fun q => q.1 == g)

/-- Units of a REQUALIFY argument become candidates; the counts of accepted and refused entries. -/
def State.requalUnits (s : State) (b : List Byte) (n : Nat) : State × Nat × Nat :=
  (List.range n).foldl (fun (a : State × Nat × Nat) i =>
    let w := argN b (8 + 8 * i) 8
    match a.1.candidate ⟨bits w 0 4, 0, bits w 8 16, bits w 24 8, 0, false, false, false, 0, 0⟩ with
    | some t => (t, a.2.1 + 1, a.2.2)
    | none => (a.1, a.2.1, a.2.2 + 1)) (s, 0, 0)

/-- REQUALIFY (R370, R371): in READY and RUNNING. A region whose cells the package still holds has not reached the strike of its
shutdown, and is deferred. -/
def execRequalify (mb : Nat) (req : NyReq) (s : State) : Res :=
  nymakRow mb req (req.opcode == 0x71) s fun s b =>
    let n := argN b 2 2
    let scope := argN b 0 1
    if b.length < 8 ∨ 1 < scope ∨ n = 0 ∨ 256 < n ∨ (scope = 1 ∧ n ≠ 1) ∨ b.length < 8 + 8 * n ∨ argN b 1 1 ≠ 0 ∨ argN b 4 4 ≠ 0 then
      .done s .badArg []
    else if scope = 0 then
      -- an entry of a cell, or of a repair in one, names a cell (R3)
      if (List.range n).any fun i => let w := argN b (8 + 8 * i) 8
          (bits w 0 4 == 1 || bits w 0 4 == 3 || bits w 0 4 == 4) && !cellValid (bits w 8 16) then .done s .badArg []
      else
      let r := s.requalUnits b n
      .done r.1 .ok (toLE 2 r.2.1 ++ toLE 2 r.2.2)
    else
      let col := argN b 8 1
      let row := argN b 9 1
      let g := row * 12 + col
      if 11 < col ∨ 11 < row then .done s .badArg []
      else if s.host.requal.any fun q => q.1 == g then .done s .busy []
      else if !s.requalOk g then .done s .badArg []
      else if s.placed.any fun q => gOf (bits q.2 0 16) == g then
        s.defer mb (toLE 2 1 ++ toLE 2 0) fun s e => s.modHost fun h => { h with requal := h.requal ++ [(g, mb, some e)] }
      else .goes (s.modHost fun h => { h with requal := h.requal ++ [(g, mb, none)] })

/-- REQUALIFY of a region ends: its deferral-log entry, or the command that waits. -/
def State.requalEnds (s : State) (q : Nat × Nat × Option Nat) (st : St) : State :=
  let s := s.modHost fun h => { h with requal := h.requal.erase q }
  match q.2.2 with
  | some e => s.settleDefer q.2.1 e st
  | none => s.respond q.2.1 st.code (if st = .ok then toLE 2 1 ++ toLE 2 0 else [])

/-- The return of a region (R371): powered, its cells struck, its links restored, the dress rehearsal run on it; the engines that fail
are fenced. -/
def State.returnRegion (s : State) (g : Nat) (fails : List RehearsalFail) : State :=
  let s := s.modPower fun p => { p with regFault := NSet.del p.regFault g }
  let s := (s.modMaps fun m => { m with unreached := NSet.del m.unreached g }).set (Reg.REGION_THERMAL_lost g) 0
  let dark : Bool := 2 ≤ s.tstate g
  let s := if dark then s.light g else (regionCells g).foldl State.strikeReturn s
  let s := s.restoreLinks g
  ((s.dress ((regionCells g).filter s.serviceable) fails).1).recount

/-- REGION_RETURN_DONE (R371): the return ends, once the package has left the region; `reached` false where the region cannot be
reached again. -/
def execRegionReturnDone (g : Nat) (reached : Bool) (fails : List RehearsalFail) (s : State) : Res :=
  onRegion g s fun s =>
    match s.host.requal.find? fun q => q.1 == g with
    | some q =>
      if !(s.isIn .ready || s.isIn .running) || s.placed.any (fun p => gOf (bits p.2 0 16) == g) then s
      else if reached then (s.returnRegion g fails).requalEnds q .ok
      else s.requalEnds q .fenced
    | none => s

end Sys2Proof.Machine
end

