-- ==== Sys2Proof/Machine/DorCmd.lean ====
section
/-! DEFINITION. Doreana's commands (R414, R415, R420-R424, R426, R427): enrolment and policy records, evidence, the job key, debug
unlock, the JTAG port. -/

namespace Sys2Proof.Machine

/-- Identity digest of the panel (R412). -/
def identityDigest : List Byte := shake256 64 Config.publicKey

/-- Whether Doreana's registers take a write: in the states of Table 19.2, over a link that serves them. -/
def State.doreanaAnswers (s : State) : Bool := !(s.isIn .off || s.isIn .dark) && s.linkServes

/-- Bytes of the staging area (R428), from an offset in it. -/
def State.staged (s : State) (o n : Nat) : List Byte :=
  (((List.range ((n + 14) / 8 + 1)).flatMap fun i => toLE 8 (s.reg (0x201000 + 8 * (o / 8 + i)))).drop (o % 8)).take n

/-! ### Owner enrolment (R414, R415) -/

/-- Key digest of the current owner, none before the first enrolment. -/
def DorSt.owner (d : DorSt) : Option (List Byte) := (d.owners.find? fun o => !o.2).map (·.1)

/-- Whether the reserved bits of the staged record are zero: byte 64 [7:1] and bytes 65-127. -/
def State.recordForm (s : State) : Bool := argN (s.staged 64 1) 0 1 ≤ 1 && (s.staged 65 63).all (· == 0)

/-- Whether the staged record carries the current owner's key and its signature (R414). -/
def State.ownerSigned (s : State) : Bool :=
  match s.dor.owner with
  | none => false
  | some d =>
    let key := s.staged 128 64
    shake256 64 key == d && Config.verify key (s.staged 0 128 ++ identityDigest) (s.staged 192 29792)

/-- The staged enrolment record is decided (R414): the state, its form, a free slot, the signature. -/
def State.enrol (s : State) : State :=
  let err := fun (e : Nat) => s.set Reg.DOR_STATUS_enrol_err e
  if !s.isIn .standby then err 3
  else if !s.recordForm then err 4
  else if 4 ≤ s.dor.owners.length then err 2
  else if s.dor.owner.isSome ∧ !s.ownerSigned then err 1
  else
    let digest := s.staged 0 64
    let policy : Bool := nth (s.staged 64 1) 0 (0 : Byte) == 1
    (err 0).modDor fun d => { d with owners := (d.owners.map fun o => (o.1, true)) ++ [(digest, false)], policy := policy }

/-- The staged policy record is decided (R415; states: log 43). -/
def State.setPolicy (s : State) : State :=
  let err := fun (e : Nat) => s.set Reg.DOR_STATUS_enrol_err e
  if !(s.isIn .standby || s.isIn .bringup) then err 3
  else if !s.recordForm then err 4
  else if s.dor.owner ≠ some (s.staged 0 64) ∨ !s.ownerSigned then err 1
  else (err 0).modDor fun d => { d with policy := nth (s.staged 64 1) 0 (0 : Byte) == 1 }

/-- DOR_ENROL (R414, R428): `enrol` is written 1; with `policy` in the same write, that record is refused as malformed. -/
def execDorEnrol (value : Word64) (s : State) : Res :=
  .next (if s.doreanaAnswers && value.getLsbD 0 then
    (if value.getLsbD 1 then (s.enrol).set Reg.DOR_STATUS_enrol_err 4 else s.enrol)
  else s)

/-- DOR_POLICY (R415, R428): `policy` is written 1, alone. -/
def execDorPolicy (value : Word64) (s : State) : Res :=
  .next (if s.doreanaAnswers && value.getLsbD 1 && !value.getLsbD 0 then s.setPolicy else s)

/-! ### Evidence (R420-R422) -/

/-- The log entries of evidence: from index `first` upward, at most `n`. -/
def DorSt.pick (d : DorSt) (first n : Nat) : List LogEnt := (d.log.filter fun e => first ≤ e.index).take n

/-- Running digest after the last included entry, the entries before it counted in (R418, R419). -/
def DorSt.digestTo (d : DorSt) (first n : Nat) : List Byte :=
  logDigest (List.replicate 64 0) ((d.log.filter fun e => e.index < first) ++ d.pick first n)

/-- The evidence before its signature (Table 17.3). -/
def State.evidenceBody (s : State) (nonce : List Byte) (first n : Nat) (kem : List Byte) : List Byte :=
  let es := s.dor.pick first n
  let owned := s.flag Reg.DOR_STATUS_owner_enrolled
  padTo 128 (toLE 2 1 ++ toLE 2 0 ++ toLE 4 (1824 + 96 * es.length + 29792) ++ padTo 32 nonce ++ toLE 8 s.now ++ toLE 1 s.pst ++
    toLE 1 (b2n owned + (b2n (s.pkg.isSome && s.paired)) <<< 1 + (b2n s.dor.jobKey.isSome) <<< 2 + (s.get Reg.DOR_STATUS_log_folded) <<< 3) ++
    toLE 1 (if owned then s.get Reg.DOR_STATUS_owner_slot else 0xFF) ++ toLE 1 0 ++ toLE 4 (s.get Reg.FW_VERSION_stage) ++
    toLE 4 s.dor.total ++ toLE 4 ((es.head?.map (·.index)).getD first) ++ toLE 4 es.length ++ toLE 4 s.dor.kemId ++ s.jobKeyId) ++
  padTo 64 (s.dor.digestTo first n) ++ padTo 64 Config.publicKey ++ padTo 1568 kem ++ es.flatMap LogEnt.bytes

/-- Evidence with its signature (R420). -/
def State.evidence (s : State) (nonce : List Byte) (first n : Nat) : List Byte :=
  let body := s.evidenceBody nonce first n (Config.kemKey s.dor.kemId)
  body ++ padTo 29792 (Config.sign body)

/-- Change the queue of requests for evidence. -/
def State.setQueue (s : State) (q : List EvReq) : State :=
  (s.modDor fun d => { d with queue := q }).set Reg.DOR_STATUS_attest_queue q.length

/-- ATTEST (R421): the certificate at once, or a request in Doreana's queue. -/
def execAttest (mb : Nat) (req : NyReq) (s : State) : Res :=
  nymakRow mb req (req.opcode == 0x80) s fun s b =>
    let dest := argN b 40 8
    let max := argN b 48 4
    if b.length < 52 ∨ 1 < argN b 36 1 ∨ argN b 37 3 ≠ 0 ∨ dest % 64 ≠ 0 ∨ max < 31616 ∨ !s.host.bme then .done s .badArg []
    else if s.flag Reg.DOR_DEBUG_unlocked then .done s .authFail []
    else if argN b 36 1 = 1 then
      let c := Config.certificate.take max
      .done (s.emit (.hostWrite dest c)) .ok (toLE 4 c.length ++ toLE 4 0)
    else if 4 ≤ s.dor.queue.length then .done s .busy []
    else .goes (s.setQueue (s.dor.queue ++ [(⟨mb, b.take 32, argN b 32 4, dest, max, s.now⟩ : EvReq)]))

/-- DOE_ATTEST (R422): a request object of 37 bytes; the answer to one that is malformed, or that Doreana cannot take, is empty. -/
def execDoeAttest (obj : List Byte) (s : State) : Res :=
  .next (if s.isIn .off then s
    else if obj.length ≠ 37 ∨ 1 < argN obj 36 1 ∨ s.isIn .dark ∨ s.flag Reg.DOR_DEBUG_unlocked then s.emit (.doe [])
    else if argN obj 36 1 = 1 then s.emit (.doe Config.certificate)
    else if 4 ≤ s.dor.queue.length then s.emit (.doe [])
    else s.setQueue (s.dor.queue ++ [(⟨8, obj.take 32, argN obj 32 4, 0, 1048576, s.now⟩ : EvReq)]))

/-- EVIDENCE_SIGN (R421): the request at the head of the queue, once a KEM key is ready. -/
def execEvidenceSign (s : State) : Res :=
  .next (match s.dor.queue with
    | q :: rest =>
      if s.flag Reg.DOR_STATUS_kem_ready ∧ s.dor.keys then
        let n := (q.maxBytes - 31616) / 96
        let ev := s.evidence q.nonce q.first n
        let k := (s.dor.pick q.first n).length
        let s := (s.setQueue (rest.map fun (r : EvReq) => { r with atT := s.now })).inc Reg.DOR_STATUS_attest_count
        if q.mb = 8 then s.emit (.doe ev)
        else (s.emit (.hostWrite q.dest ev)).respond q.mb St.ok.code (toLE 4 ev.length ++ toLE 4 k)
      else s
    | [] => s)

/-! ### The job key (R423, R424) -/

/-- Step 2 and 3 of R423: the job key a KEY_IMPORT argument unwraps to, none where the tag fails. -/
def State.unwrapKey (s : State) (b : List Byte) : Option (List Byte) :=
  let ss := Config.decapsulate s.dor.kemId ((b.drop 8).take 1568)
  Config.gcmOpen (shake256 32 (ss.take 32 ++ ascii "GN140-WRAP")) (List.replicate 12 0) (toLE 4 (argN b 0 4)) ((b.drop 1576).take 32)
    ((b.drop 1608).take 16)

/-- KEY_IMPORT (R423, R424): in READY and RUNNING. -/
def execKeyImport (mb : Nat) (req : NyReq) (s : State) : Res :=
  nymakRow mb req (req.opcode == 0x81) s fun s b =>
    if b.length < 1624 ∨ argN b 4 4 ≠ 0 then .done s .badArg []
    else if s.flag Reg.DOR_DEBUG_unlocked then .done s .noResource []
    else if !s.flag Reg.DOR_STATUS_kem_ready ∨ argN b 0 4 ≠ s.dor.kemId then .done s .authFail []
    else
      let t := s.dropKem
      match s.unwrapKey b with
      | none => .done t .authFail []
      | some k =>
        let t := (t.modDor fun d => { d with jobKey := some (padTo 32 k) }).set Reg.DOR_STATUS_job_key 1
        let t := (t.eraseSnapshot).dorLog 0x0A (shake256 64 ((b.drop 8).take 1568)) []
        let t := t.modHost fun h => { h with keySession := mb + 1 }
        .done t .ok t.jobKeyId

/-- KEM_KEY_MAKE (R413, R423): a new KEM key is ready. -/
def execKemKeyMake (s : State) : Res :=
  .next (if !s.isIn .off && !s.isIn .dark && s.dor.keys && !s.flag Reg.DOR_STATUS_kem_ready then s.makeKem else s)

/-! ### Debug (R426, R427) -/

/-- Whether the staged token unlocks (R426; layout: log 44): identity digest, challenge, scope, Belvan's signature, and the owner's. -/
def State.tokenOk (s : State) : Bool :=
  let body := s.staged 0 69
  s.staged 0 64 == identityDigest && argN body 64 4 == s.get Reg.DOR_DEBUG_challenge && argN body 68 1 < 8 &&
    Config.verify Config.belvanKey body (s.staged 69 29792) &&
    match s.dor.owner with
    | some d => Config.verify d body (s.staged 29861 29792)
    | none => true

/-- An accepted token (R427 steps 1-5). DRAM whose key is gone is left erased (log 45), but for
the key-generation table's own granules (R257). -/
def State.unlock (s : State) (scope : Nat) : State :=
  let s := s.dorLog 0x0B (shake256 64 (s.staged 0 69)) []
  let s := ((s.resetRope).strikeAll).eraseSnapshot
  let s := ((s.eraseArea 0 keyTable).eraseArea (keyTable + 0x4000000) 0x1FC000000).dropJobKey
  let s := (s.modDor fun d => { d with keys := false, dramKey := [] }).set Reg.DOR_STATUS_kem_ready 0
  s.sets [(Reg.DOR_DEBUG_unlocked, 1), (Reg.DOR_DEBUG_scope, scope)]

/-- DOR_UNLOCK (R426, R427): `unlock` is written 1; the challenge changes after every attempt. -/
def execDorUnlock (value : Word64) (s : State) : Res :=
  .next (if s.doreanaAnswers && value.getLsbD 0 then
    let ok : Bool := (s.isIn .standby || s.isIn .ready) && s.tokenOk
    let scope := argN (s.staged 68 1) 0 1
    let s := if ok then s.unlock scope else s.inc Reg.DOR_DEBUG_unlock_fail_count
    let d := s.draw
    d.2.set Reg.DOR_DEBUG_challenge (d.1.toNat % 2 ^ 32)
  else s)

/-- Whether a JTAG instruction is available (R426; numbers: log 46): 0 EXTEST, 1 SAMPLE/PRELOAD, 2 IDCODE, 3 BYPASS; 4 + i needs an
unlock whose scope has bit i; any other an unlock. -/
def State.jtagAllowed (s : State) (ir : Nat) : Bool :=
  match ir with
  | 0 => s.isIn .standby
  | 1 => true
  | 2 => true
  | 3 => true
  | _ => s.flag Reg.DOR_DEBUG_unlocked && (7 ≤ ir || bitAt (s.get Reg.DOR_DEBUG_scope) (ir - 4))

/-- JTAG_INSTRUCTION (R426). -/
def execJtagInstruction (ir : Nat) (s : State) : Res :=
  .next (if s.isIn .off then s else s.emit (.jtag ir (s.jtagAllowed ir)))

end Sys2Proof.Machine
end

