-- ==== Sys2Proof/Machine/Mgmt.lean ====
section
/-! DEFINITION. The out-of-band port (R429-R434, R441), sensors (R431), and telemetry (R435-R440). Layout of the answers on the
out-of-band port: log 47. -/

namespace Sys2Proof.Machine

/-! ### Messages (R429, R430) -/

/-- A message served: counted, and answered. -/
def State.served (s : State) (answer : List Byte) : State := (s.wrap Reg.OOB_STATUS_msg_count).emit (.oob answer)

/-- A message refused or malformed: counted, and answered. -/
def State.oobErr (s : State) (answer : List Byte) : State := (s.inc Reg.OOB_STATUS_err_count).emit (.oob answer)

/-- SET_ENDPOINT_ID (R429): identifiers 0 and 0xFF are no endpoint's. -/
def execSetEndpointId (eid : Nat) (s : State) : Res :=
  .next (if s.isIn .off then s
    else if eid = 0 ∨ 0xFF ≤ eid then s.oobErr [2]
    else (s.set Reg.OOB_STATUS_eid eid).served [0])

/-- DYNAMIC_ADDRESS_ASSIGN (R429). -/
def execDynamicAddressAssign (addr : Nat) (s : State) : Res :=
  .next (if s.isIn .off then s else s.sets [(Reg.OOB_STATUS_i3c, 1), (Reg.OOB_STATUS_dyn_addr, addr)])

/-- OOB_UNSUPPORTED_MESSAGE (R429): a type other than MCTP control (0), PLDM (1) and vendor (0x7E). -/
def execOobUnsupportedMessage (ty : Nat) (s : State) : Res :=
  .next (if s.isIn .off ∨ ty = 0 ∨ ty = 1 ∨ ty = 0x7E then s else s.oobErr [5])

/-! ### Sensors (R431, R432) -/

/-- Whether Table 18.1 has a sensor, and whether it is numeric. -/
def sensorKind (id : Nat) : Option Bool :=
  if 0x100 ≤ id ∧ id < 0x300 ∧ regionValid (id % 0x100) then some true
  else if 0x300 ≤ id ∧ id < 0x400 ∧ regionValid (id % 0x100) then some false
  else if (0x400 ≤ id ∧ id ≤ 0x404) ∨ (0x410 ≤ id ∧ id ≤ 0x41F) then some true
  else if id = 0x420 ∨ id = 0x421 then some false
  else none

/-- Threshold state of a value (Table 18.1): 0 normal, 1 warning, 2 critical, 3 fatal. Temperatures in 1/8 °C, current in 0.01 A. -/
def State.threshold (s : State) (id : Nat) (v : Int) : Nat :=
  if 0x100 ≤ id ∧ id < 0x200 then (if 920 ≤ v then 3 else if 840 ≤ v then 2 else if 760 ≤ v then 1 else 0)
  else match id with
    | 0x400 => if 840 ≤ v then 2 else if 760 ≤ v then 1 else 0
    | 0x401 => if v ≤ 52000 ∨ 63000 ≤ v then 2 else if v ≤ 54000 ∨ 62000 ≤ v then 1 else 0
    | 0x402 => if 22500 ≤ v then 2 else 0
    | 0x403 => if (s.effLimit : Int) ≤ v then 2 else 0
    | 0x404 => if v ≤ 5700 ∨ 6300 ≤ v then 1 else 0
    | _ => if 0x410 ≤ id ∧ id ≤ 0x41F ∧ 900 ≤ v then 2 else 0

/-- Whether a sensor reports (R432). -/
def State.sensorUp (s : State) (id : Nat) : Bool :=
  if id < 0x400 then
    !(s.isIn .standby || s.isIn .dark) && s.tstate (id % 0x100) != 3 && !s.maps.unreached.contains (id % 0x100)
  else true

/-- Value of a sensor: a state as it is, a number as last refreshed. -/
def State.sensorValue (s : State) (id : Nat) : Int :=
  if 0x300 ≤ id ∧ id < 0x400 then s.tstate (id % 0x100)
  else if id = 0x420 then s.pst
  else if id = 0x421 then b2n s.maps.retire
  else SMap.getD s.tel.sensors id 0

/-- SENSOR_REFRESH (R431, R372): every 1 ms. The readings given are those that no register of the panel holds, and the regions' hottest
sensors; during BRINGUP a critical or fatal one fails the start. -/
def execSensorRefresh (values : List (Nat × Int)) (s : State) : Res :=
  .next (if s.isIn .off then s
    else
      let vs := (values.filter fun (p : Nat × Int) => sensorKind p.1 == some true && p.1 != 0x401 && p.1 != 0x403)
      let s := vs.foldl (fun (s : State) (p : Nat × Int) => if p.1 < 0x200 ∧ s.powered then s.senseTemp (p.1 % 0x100) p.2 else s) s
      let all := vs ++ [(0x401, (s.pins.mv : Int)), (0x403, (s.get Reg.POWER_STATUS_input_w : Int))]
      let s := { s with tel := { s.tel with sensors := all.foldl (fun (m : SMap Int) (p : Nat × Int) => SMap.put m p.1 p.2) s.tel.sensors } }
      match s.tel.sensors.find? fun (p : Nat × Int) => s.sensorUp p.1 && decide (2 ≤ s.threshold p.1 p.2) && p.1 != 0x400 with
      | some p => if s.isIn .bringup then s.failStep 1 (if p.1 < 0x200 then dieUnit (p.1 % 0x100) else 0) else s
      | none => s)

/-- PLDM_SENSOR_READ (R431, R432). -/
def execPldmSensorRead (sensor : Nat) (s : State) : Res :=
  .next (if s.isIn .off then s
    else match sensorKind sensor with
      | none => s.oobErr [0x80]
      | some num =>
        if s.sensorUp sensor then
          let v := s.sensorValue sensor
          s.served (toLE 1 0 ++ toLE 1 0 ++ toLE 1 (if num then s.threshold sensor v else 0) ++ toLE 4 (ofSigned 32 v))
        else s.served (toLE 1 0 ++ toLE 1 3 ++ toLE 5 0))

/-- LIMIT_EFFECTER (R433, R441): clamped as a register write is; refused in DARK. -/
def execLimitEffecter (watts : Nat) (s : State) : Res :=
  .next (if s.isIn .off then s
    else if s.isIn .dark then s.oobErr [0x40]
    else (s.set Reg.POWER_CTRL_limit_w (min 13500 (max 4000 watts))).served [0])

/-! ### Vendor messages (R434, R441) -/

/-- Header of a vendor answer: vendor ID, command, status. -/
def vendorHead (cmd : Nat) (st : St) : List Byte := toLE 2 Config.vendor.toNat ++ toLE 1 cmd ++ toLE 1 st.code

/-- STATE (R434, Table 18.2). -/
def execStateCmd (s : State) : Res :=
  .next (if s.isIn .off then s
    else s.served (vendorHead 1 .ok ++ toLE 8 (s.view 0x10) ++ toLE 8 (s.view 0x110) ++ (s.fenceResult.drop 32).take 19))

/-- CAIRN_GET (R434, R340, R441): one record whose sequence number is at or above `seq`. -/
def execCairnGet (seq : Nat) (s : State) : Res :=
  .next (if s.isIn .off then s
    else match s.cairnsFrom seq with
      | r :: _ => s.served (vendorHead 2 .ok ++ r.bytes ++ toLE 4 ((r.seq + 1) % 2 ^ 32))
      | [] => s.served (vendorHead 2 .ok ++ toLE 4 seq))

/-- ROPE_SPARE (R434, R375, R441). -/
def execRopeSpare (port lane : Nat) (s : State) : Res :=
  .next (if s.isIn .off then s
    else if s.isIn .dark then s.oobErr (vendorHead 3 .dark)
    else if 5 < port ∨ !s.spareOk port lane then s.oobErr (vendorHead 3 .badArg)
    else (s.askSpare port lane 2).served (vendorHead 3 .ok))

/-! ### Telemetry configuration (R435) -/

/-- TELEMETRY_CONFIG (R435). -/
def execTelemetryConfig (mb : Nat) (req : NyReq) (s : State) : Res :=
  nymakRow mb req (req.opcode == 0xA0) s fun s b =>
    let ring := argN b 0 4
    let kinds := argN b 4 1
    let depth := argN b 8 4
    let ctr := argN b 12 4
    let regions := argN b 16 18
    let off := s.sets [(Reg.TELEM_STATUS_enabled, 0), (Reg.TELEM_STATUS_kinds, 0), (Reg.TELEM_STATUS_ring, 0)]
    if b.length < 4 then .done s .badArg []
    else if ring = 0 then .done off .ok []
    else match s.ringOf ring with
      | none => .done s .badHandle []
      | some i =>
        if b.length < 64 ∨ (s.ring i).binding ≠ 3 ∨ 31 < kinds ∨ argN b 5 3 ≠ 0 ∨ depth = 0 ∨ 10000 < depth ∨ ctr < 1000 ∨ 1000000 < ctr ∨
            argN b 34 30 ≠ 0 ∨ ((List.range 144).any fun g => bitAt regions g && !regionValid g) ∨ 2 ^ 144 ≤ regions then .done s .badArg []
        else
          let s := s.sets [(Reg.TELEM_STATUS_enabled, 1), (Reg.TELEM_STATUS_kinds, kinds), (Reg.TELEM_STATUS_ring, ring)]
          .done { s with tel := { s.tel with
            depthUs := depth, counterUs := ctr, regions := regions, depthAt := s.now, counterAt := s.now
            cairnSeen := s.cairn.next, dropsSeen := s.reg 0x40008 } } .ok []

/-! ### Samples (R436, R437) -/

/-- Put a record in its place by stamp, after those of the same instant. -/
def insertRec (r : TelRec) : List TelRec → List TelRec
  | [] => [r]
  | x :: xs => if r.stamp < x.stamp then r :: x :: xs else x :: insertRec r xs

/-- Stage a record, a request of class 4 (R248), or drop it whole when staging (240 MiB) is full (R438). -/
def State.stage (s : State) (r : TelRec) : State :=
  if s.get Reg.TELEM_STATUS_staged + r.grans ≤ 3932160 then
    (s.request 0 4 0 (64 * r.grans)).setStaged (insertRec r s.tel.staged)
  else (s.inc (dropField r.kind)).raise .telemDrop

/-- The body of a TELEMETRY entry (Table 18.4). -/
def telBody (kind count die stamp : Nat) (items : List Byte) : List Byte :=
  toLE 1 kind ++ toLE 1 0 ++ toLE 2 count ++ toLE 2 die ++ toLE 2 0 ++ toLE 8 stamp ++ items

/-- Stage a record for the ring in force. -/
def State.stageKind (s : State) (kind count die stamp : Nat) (items : List Byte) : State :=
  s.stage ⟨s.get Reg.TELEM_STATUS_ring, kind, telBody kind count die stamp items, stamp⟩

/-- Granules or entries that an endpoint can hold, its wings included: for a sender, what the receiver can. -/
def State.cap (s : State) (c n : Nat) : Nat :=
  let r := (s.ep c n).cfg
  if epKind r = 2 then (if epSends r then epSlots r else epSlots r * (2 ^ epSlotLog r / 32))
  else if epSends r then (let q := s.peerRec c n; if q = 0 then 2 ^ 16 else epStorage q + epWingGran q)
  else epStorage r + epWingGran r

/-- The 8-bit depth of an endpoint (R436). -/
def State.depthByte (s : State) (c n : Nat) : Byte :=
  if epKind (s.ep c n).cfg = 0 then 0xFF
  else
    let cap := max (s.cap c n) 1
    BitVec.ofNat 8 (min 254 ((254 * s.fill c n + cap - 1) / cap))

/-- Whether a region's depths are sampled: selected, neither in GHOST nor CUT (Table 18.5). -/
def State.sampled (s : State) (g : Nat) : Bool := bitAt s.tel.regions g && s.tstate g < 2

/-- The last multiple of an interval of `us` microseconds on the house clock. -/
def State.tickOf (s : State) (us : Nat) : Nat := s.now / (1000 * us) * (1000 * us)

/-- DEPTH_SAMPLE (R436): every endpoint of the selected regions, at a multiple of `depth_us`. -/
def execDepthSample (s : State) : Res :=
  .next (
    let t := s.tickOf s.tel.depthUs
    if s.flag Reg.TELEM_STATUS_enabled ∧ 0 < s.tel.depthUs ∧ s.tel.depthAt < t then
      let s := { s with tel := { s.tel with depthAt := t } }
      if bitAt (s.get Reg.TELEM_STATUS_kinds) 0 then
        (allRegions.filter s.sampled).foldl (fun s g =>
          s.stageKind 1 1 (g % 12 + (g / 12) <<< 8) t
            ((regionCells g).flatMap fun c => (List.range 32).map fun n => s.depthByte c n)) s
      else s
    else s)

/-- The item of a live channel (R203, R437): its handle and its four counters. -/
def State.chanItem (s : State) (i : Nat) (ch : ChanSt) : List Byte :=
  toLE 4 (handleOf i ch) ++ toLE 6 (s.chanMsgs i).1 ++ toLE 6 (s.chanMsgs i).2 ++ toLE 6 (s.chanWaits i).1 ++
    toLE 6 (s.chanWaits i).2 ++ toLE 4 0

/-- CHANNELS records: live channels in index order, 511 an entry. -/
def State.sampleChannels (s : State) (t : Nat) : State :=
  let items := (s.chans.filter fun p => p.2.live).map fun p => s.chanItem p.1 p.2
  (chunks 511 items.length items).foldl (fun s xs => s.stageKind 2 xs.length 0 t xs.flatten) s

/-- The HUB record. -/
def State.sampleHub (s : State) (t : Nat) : State :=
  s.stageKind 3 80 0 t (((List.range 64).flatMap fun p => toLE 8 (s.view (0x30000 + 16 * p)) ++ toLE 8 (s.reg (0x30008 + 16 * p))) ++
    (List.range 16).flatMap fun n => toLE 8 (s.reg (0x20108 + 16 * n)))

/-- The ROPE record. -/
def State.sampleRope (s : State) (t : Nat) : State :=
  s.stageKind 4 7 0 t (((List.range 6).flatMap fun p => toLE 8 (s.reg (0x80008 + 0x40 * p))) ++ toLE 8 (s.reg 0x80200))

/-- The DROPS record, where the counts have changed since the last one. -/
def State.sampleDrops (s : State) (t : Nat) : State :=
  let w := s.reg 0x40008
  if w = s.tel.dropsSeen then s
  else State.stageKind { s with tel := { s.tel with dropsSeen := w } } 5 1 0 t (toLE 8 w)

/-- The CAIRN record: cairn records new since the last one. -/
def State.sampleCairn (s : State) (t : Nat) : State :=
  let new := s.cairns.filter fun r => (r.seq + 2 ^ 32 - s.tel.cairnSeen) % 2 ^ 32 < 2 ^ 31
  if new.isEmpty then s
  else State.stageKind { s with tel := { s.tel with cairnSeen := s.cairn.next } } 6 new.length 0 t
    (new.flatMap fun r => toLE 8 (r.seq + r.kind <<< 32 + r.severity <<< 48))

/-- COUNTER_SAMPLE (R436, R437): the counter records, at a multiple of `counter_us`. -/
def execCounterSample (s : State) : Res :=
  .next (
    let t := s.tickOf s.tel.counterUs
    if s.flag Reg.TELEM_STATUS_enabled ∧ 0 < s.tel.counterUs ∧ s.tel.counterAt < t then
      let k := fun (i : Nat) => bitAt (s.get Reg.TELEM_STATUS_kinds) i
      let s := { s with tel := { s.tel with counterAt := t } }
      let s := if k 1 then s.sampleChannels t else s
      let s := if k 2 then s.sampleHub t else s
      let s := if k 3 then s.sampleRope t else s
      let s := s.sampleDrops t
      if k 4 then s.sampleCairn t else s
    else s)

/-- TELEMETRY_WRITE (R438): the first staged record is written to the ring it was staged for, when that has room. -/
def execTelemetryWrite (s : State) : Res :=
  .next (match s.tel.staged with
    | r :: rest =>
      match s.ringOf r.ring with
      | some i =>
        if s.ringsRun ∧ (s.ring i).waiting.isEmpty ∧ !(s.ring i).stopped then
          let t := (s.post r.ring ⟨0x50, r.body⟩).deliverEntry i
          if (t.ring i).waiting.isEmpty then t.setStaged rest else s
        else s
      | none => s
    | [] => s)

end Sys2Proof.Machine
end

