-- ==== Sys2Proof/Machine/Pins.lean ====
section
/-! DEFINITION. The control contacts (R456, R457): leaving OFF and returning to it (R31, R458, R459). -/

namespace Sys2Proof.Machine

/-- Change the contacts. -/
def State.modPins (s : State) (f : PinSt → PinSt) : State := { s with pins := f s.pins }

/-- What flash and fuses hold, on a panel that has gone to OFF: maps, owners and minimum versions, rope peers, saved sets, cairn
records; with the input, the straps, the spare wires burned, and what stands outside the panel. -/
def State.offState (s : State) : State :=
  let t : State := { State.reset with
    pending := s.pending
    now := s.now
    freeIdx := s.freeIdx
    out := s.out
    maps := { s.maps with tests := [], unreached := [], merged := [], retire := false }
    banks := SMap.mapVal (fun _ (b : BankSt) => { BankSt.init with repairs := b.repairs.filter (·.burned) }) s.banks
    rope := { State.reset.rope with peers := s.rope.peers }
    seq := { SeqSt.init with light := s.seq.light, heavy := s.seq.heavy, bandRec := s.seq.bandRec }
    cairn := ⟨[], s.cairn.flash, s.cairn.next⟩
    dor := { DorSt.init with owners := s.dor.owners, policy := s.dor.policy }
    power := { PowerSt.init with outAt := s.power.outAt }
    pins := { s.pins with alwaysOn := false }
    host := { State.reset.host with bme := false } }
  t.sets [(Reg.PANEL_STATE_state, 0), (Reg.DOR_STATUS_svn_stage, s.get Reg.DOR_STATUS_svn_stage),
    (Reg.DOR_STATUS_svn_house, s.get Reg.DOR_STATUS_svn_house)]

/-- The panel goes to OFF (R459, Table 1.6): nothing in progress is completed; staged cairn records are lost (R289). -/
def State.goOff (s : State) : State := if s.isIn .off then s else s.offState

/-- POWER_QUALIFIED (R458 step 1): the input has been within 54-62 V with PWR_OK high for 10 ms; the always-on domain powers up. -/
def execPowerQualified (s : State) : Res :=
  .next (if s.isIn .off ∧ 54000 ≤ s.pins.mv ∧ s.pins.mv ≤ 62000 then
    s.modPins fun p => { p with pwrOk := true, alwaysOn := true }
  else s)

/-- STANDBY_ENTRY (R457, R458 steps 2, 3): with PANEL_RESET_N and TEST_N high the straps are sampled and the panel enters STANDBY, the
house clock at 0; only a cold start can follow (R354). -/
def execStandbyEntry (s : State) : Res :=
  .next (if s.isIn .off ∧ s.pins.alwaysOn ∧ s.pins.testN then
    let s := { s with now := 0, power := .init }
    let s := s.modPins fun p => { p with resetN := true, sampled := p.straps % 8 }
    let d := s.draw
    State.showInput (d.2.sets [(Reg.PANEL_STATE_state, 1), (Reg.SEQ_STATUS_cold_only, 1), (Reg.DOR_DEBUG_challenge, d.1.toNat % 2 ^ 32)])
  else s)

/-- PWR_OK_LOW (R459): low for 10 us; THERMTRIP_N stays as it is. -/
def execPwrOkLow (s : State) : Res := .next ((s.goOff).modPins fun p => { p with pwrOk := false, alwaysOn := false })

/-- PANEL_RESET (R459): PANEL_RESET_N low for 10 us. The always-on domain stays powered while the input is good. -/
def execPanelReset (s : State) : Res :=
  .next (s.goOff.modPins fun p => { p with resetN := false, alwaysOn := s.pins.alwaysOn })

/-- POWER_LOSS (R396, R459): the input outside 52-63 V for 50 us. Without input THERMTRIP_N is released. -/
def execPowerLoss (s : State) : Res :=
  .next (match s.power.outAt with
    | some t => if t + 50000 ≤ s.now ∨ s.isIn .off then (s.goOff).modPins fun p => { p with alwaysOn := false, tripped := p.tripped && 52000 ≤ p.mv } else s
    | none => s)

/-- THERMTRIP (R459): base camp at 125 °C drives THERMTRIP_N low; the panel changes no state. -/
def execThermtrip (s : State) : Res := .next (if s.pins.alwaysOn then s.modPins fun p => { p with tripped := true } else s)

/-! ### Outputs (Table 20.3) -/

/-- STANDBY_OK: high in every state except OFF. -/
def State.standbyOk (s : State) : Bool := !s.isIn .off

/-- THERMTRIP_N. -/
def State.thermtripN (s : State) : Bool := !s.pins.tripped

/-- ALERT_N: low while any sensor of Table 18.1 is at its critical or fatal threshold. -/
def State.alertN (s : State) : Bool :=
  !(!s.isIn .off && s.tel.sensors.any fun p => s.sensorUp p.1 && decide (2 ≤ s.threshold p.1 p.2))

end Sys2Proof.Machine
end

