-- ==== Sys2Proof/Machine/Bar.lean ====
section
/-! DEFINITION. BAR0: which ranges answer (R32, R443), how an access is judged (R8, R444, R449), and
what an access that passes does. -/

namespace Sys2Proof.Machine

/-! ### Ranges (Tables 19.1, 19.2) -/

/-- Whether the range of an offset answers in the current state (R443); over a degraded link only the identity and sequencer block
does (R316). Stage-core firmware does not use the link. -/
def State.barAnswers (s : State) (off : Nat) (firmware : Bool) : Bool :=
  if s.isIn .off then false
  else if off < 0x10000 then true
  else if !firmware && !s.linkServes then false
  else if off < 0x20000 then !s.isIn .dark
  else if off < 0x80000 then s.reached 3
  else if off < 0x100000 then s.reached 6
  else if off < 0x200000 then s.reached (if off < 0x100008 then 3 else 5)
  else if off < 0x1000000 then !s.isIn .dark
  else if off < 0x1080000 then !s.isIn .dark || off % 0x10000 / 16 == 0x800
  else if 0x2000000 ≤ off ∧ off < 0x2900000 then s.reached 4
  else !s.isIn .dark

/-- Whether an offset lies in a bank slot that its cell lacks (R450). -/
def lacksBank (off : Nat) : Bool :=
  let o := off % 0x10000
  let k := (o - 0xA000) / 0x20 % 8
  let cell := (o - 0xA000) / 0x100 % 7
  decide (0x2000000 ≤ off) && decide (off < 0x2900000) && decide (0xA000 ≤ o) && decide (o < 0xD800) && decide (k < 7) &&
    decide ((if cell < 4 then 6 else if cell < 6 then 4 else 2) ≤ k)

/-- What an offset names. -/
inductive BarPlace where
  | none
  | request (mb : Nat)
  | response
  | deferral
  | staging
  | reg (r : RegRow)
deriving DecidableEq, Repr

/-- The place of a BAR0 offset (a multiple of 8). -/
def barPlace (off : Nat) : BarPlace :=
  let o := off % 0x10000
  if 0x201000 ≤ off ∧ off < 0x211000 then .staging
  else if 0x1000000 ≤ off ∧ off < 0x1080000 ∧ o < 0x4000 then .request ((off - 0x1000000) / 0x10000)
  else if 0x1000000 ≤ off ∧ off < 0x1080000 ∧ o < 0x8000 then .response
  else if 0x1000000 ≤ off ∧ off < 0x1080000 ∧ 0x8100 ≤ o ∧ o < 0x8500 then .deferral
  else match regRowAt off with
    | some r => .reg r
    | Option.none => .none

/-! ### Accesses -/

/-- Registers whose writes are commands of their own with further operands: `SEQ_CMD`, `MB_DOORBELL`, `DOR_DEBUG`,
`DOR_ENROL_CTRL`. -/
def ownRow (off : Nat) : Bool :=
  off == 0x100 || off == 0x200010 || off == 0x200018 ||
    (decide (0x1000000 ≤ off) && decide (off < 0x1080000) && off % 0x10000 == 0x8000)

/-- A word of an area with a written value merged in. -/
def mergeWord (old v m : Nat) : Nat := (old &&& (2 ^ 64 - 1 - m)) ||| (v &&& m)

/-- A write that has passed the judgement of R8. -/
def State.barStore (s : State) (off v m : Nat) : State :=
  match barPlace off with
  | .staging => s.setReg off (mergeWord (s.reg off) v m)
  | .request mb =>
    if s.flag (Reg.MB_STATUS_busy mb) then s.inc (Reg.MB_STATUS_ignored_count mb) else s.setReg off (mergeWord (s.reg off) v m)
  | .response => s
  | .deferral =>
    let w := s.reg off
    if off % 16 = 0 ∧ bitAt v 0 ∧ bitAt m 0 ∧ bitAt w 1 then s.setReg off (setBits w 0 1 0) else s
  | .reg r => if ownRow off then s else s.regWrite r off v m
  | .none => s.badAccess off true 1 false

/-- The word that a read of an offset returns. -/
def State.barLoad (s : State) (off : Nat) : Nat :=
  match barPlace off with
  | .staging => 0
  | _ => if ownRow off ∧ off ≠ 0x200010 then 0 else s.view off

/-- How an access ends before it reaches a register: it is discarded in silence, is a bad access with a reason, reads zero, or
reaches its register. -/
inductive Judged where
  | silent
  | bad (reason : Nat)
  | zero
  | pass
deriving DecidableEq, Repr

/-- The judgement of R8, R444 and R449. -/
def State.judgeBar (s : State) (a : BarAccess) : Judged :=
  let g := (a.off - 0x2000000) / 0x10000
  let win : Bool := 0x2000000 ≤ a.off && a.off < 0x2900000
  if !s.barAnswers a.off a.firmware then .silent
  else if !((a.width == 4 || a.width == 8) && a.off % a.width == 0) then .bad 0
  else if win && !regionValid g then .bad 2
  else if win && (s.regionCut g || s.maps.unreached.contains g) then .silent
  else if lacksBank a.off then .zero
  else if barPlace (a.off / 8 * 8) = .none then .bad 1
  else .pass

/-- Data of a read: to the host it leaves the panel. -/
def State.answer (s : State) (a : BarAccess) (o : Out) : State := if a.firmware then s else s.emit o

/-- An access to BAR0. -/
def State.barAccess (s : State) (a : BarAccess) : State :=
  let base := a.off / 8 * 8
  let sh := 8 * (a.off % 8)
  let ones := fun (s : State) => if a.write then s else s.answer a (.barOnes a.off)
  match s.judgeBar a with
  | .silent => ones s
  | .bad r => ones (s.badAccess a.off a.write r false)
  | .zero => if a.write then s else s.answer a (.barRead a.off 0)
  | .pass =>
    if a.write then s.barStore base (a.data.toNat <<< sh % 2 ^ 64) ((2 ^ (8 * a.width) - 1) <<< sh)
    else s.answer a (.barRead a.off (s.barLoad base >>> sh % 2 ^ (8 * a.width)))

/-- REGISTER_WRITE (R8-R10, R443, R444, R449, R450): an access of the host or of stage-core firmware to BAR0, a read too. A write of a
register that has commands of its own, with operands a plain write does not carry, has its effect there. -/
def execRegisterWrite (a : BarAccess) (s : State) : Res := onUnit (a.off < 0x4000000) a.off s fun s => s.barAccess a

/-- A 64-bit write of the host. -/
def State.hostWrite (s : State) (off : Nat) (value : Word64) : State := s.barAccess ⟨off, 8, true, value, false⟩

/-- EVENT_ENABLE_WRITE (R448). -/
def execEventEnableWrite (value : Word64) (s : State) : Res := .next (s.hostWrite 0x10008 value)

/-- SWEEP_CTRL_WRITE (R143): strips are swept whole, so `enable` 0 stops the sweep between strips. -/
def execSweepCtrlWrite (g : Nat) (value : Word64) (s : State) : Res :=
  onRegion g s fun s => s.hostWrite (Reg.SP_SWEEP_CTRL_enable g).off value

/-- MC_INJECT_ARM (R83, R84). -/
def execMcInjectArm (c : CellAddr) (value : Word64) (s : State) : Res :=
  onUnit (cellValid c.toNat ∧ engineOf c.toNat = .m) c.toNat s fun s => s.hostWrite (Reg.MC_CK_CTRL_inject c.toNat).off value

/-- VC_INJECT_ARM (R101). -/
def execVcInjectArm (c : CellAddr) (value : Word64) (s : State) : Res :=
  onUnit (cellValid c.toNat ∧ engineOf c.toNat = .v) c.toNat s fun s => s.hostWrite (Reg.VC_CK_CTRL_inject c.toNat).off value

/-- ARB_APPLY (R251). -/
def execArbApply (value : Word64) (s : State) : Res := .next (s.hostWrite 0x20000 value)

end Sys2Proof.Machine
end

