-- ==== Sys2Proof/Machine/Dispatch.lean ====
section
/-! DEFINITION. The dispatch of a command to its meaning, one arm per constructor. -/

namespace Sys2Proof.Machine

/-- The effect of a command on everything but the queue. -/
def exec (i : Instr) (s : State) : Host.Outcome State Fault Refusal :=
  match i with
  | .registerWrite a => Sys2Proof.Machine.execRegisterWrite a s
  | .eventEnableWrite value => Sys2Proof.Machine.execEventEnableWrite value s
  | .sweepCtrlWrite g value => Sys2Proof.Machine.execSweepCtrlWrite g value s
  | .mcInjectArm c value => Sys2Proof.Machine.execMcInjectArm c value s
  | .vcInjectArm c value => Sys2Proof.Machine.execVcInjectArm c value s
  | .arbApply value => Sys2Proof.Machine.execArbApply value s
  | .faultReportArrival idx => Sys2Proof.Machine.execFaultReportArrival idx s
  | .fenceRemove c block => Sys2Proof.Machine.execFenceRemove c block s
  | .mDescriptorDecode c => Sys2Proof.Machine.execMDescriptorDecode c s
  | .kStep c hw => Sys2Proof.Machine.execKStep c hw s
  | .kStepCheck c => Sys2Proof.Machine.execKStepCheck c s
  | .replayDone c hw => Sys2Proof.Machine.execReplayDone c hw s
  | .drainRow c => Sys2Proof.Machine.execDrainRow c s
  | .beatStart c => Sys2Proof.Machine.execBeatStart c s
  | .vnop c hw => Sys2Proof.Machine.execVnop c hw s
  | .vadd c hw => Sys2Proof.Machine.execVadd c hw s
  | .vsub c hw => Sys2Proof.Machine.execVsub c hw s
  | .vmul c hw => Sys2Proof.Machine.execVmul c hw s
  | .vfma c hw => Sys2Proof.Machine.execVfma c hw s
  | .vmax c hw => Sys2Proof.Machine.execVmax c hw s
  | .vmin c hw => Sys2Proof.Machine.execVmin c hw s
  | .vabs c hw => Sys2Proof.Machine.execVabs c hw s
  | .vneg c hw => Sys2Proof.Machine.execVneg c hw s
  | .vcmp c hw => Sys2Proof.Machine.execVcmp c hw s
  | .vsel c hw => Sys2Proof.Machine.execVsel c hw s
  | .vmov c hw => Sys2Proof.Machine.execVmov c hw s
  | .viadd c hw => Sys2Proof.Machine.execViadd c hw s
  | .visub c hw => Sys2Proof.Machine.execVisub c hw s
  | .vimul c hw => Sys2Proof.Machine.execVimul c hw s
  | .vand c hw => Sys2Proof.Machine.execVand c hw s
  | .vor c hw => Sys2Proof.Machine.execVor c hw s
  | .vxor c hw => Sys2Proof.Machine.execVxor c hw s
  | .vshl c hw => Sys2Proof.Machine.execVshl c hw s
  | .vshr c hw => Sys2Proof.Machine.execVshr c hw s
  | .vsar c hw => Sys2Proof.Machine.execVsar c hw s
  | .vcvt c hw => Sys2Proof.Machine.execVcvt c hw s
  | .vcvtw c hw => Sys2Proof.Machine.execVcvtw c hw s
  | .vqmx c hw => Sys2Proof.Machine.execVqmx c hw s
  | .vqb c hw => Sys2Proof.Machine.execVqb c hw s
  | .vdq c hw => Sys2Proof.Machine.execVdq c hw s
  | .vitof c hw => Sys2Proof.Machine.execVitof c hw s
  | .vftoi c hw => Sys2Proof.Machine.execVftoi c hw s
  | .vexp2 c hw => Sys2Proof.Machine.execVexp2 c hw s
  | .vlog2 c hw => Sys2Proof.Machine.execVlog2 c hw s
  | .vrcp c hw => Sys2Proof.Machine.execVrcp c hw s
  | .vrsqrt c hw => Sys2Proof.Machine.execVrsqrt c hw s
  | .vtanh c hw => Sys2Proof.Machine.execVtanh c hw s
  | .vsigm c hw => Sys2Proof.Machine.execVsigm c hw s
  | .vgelu c hw => Sys2Proof.Machine.execVgelu c hw s
  | .vrsum c hw => Sys2Proof.Machine.execVrsum c hw s
  | .vrmax c hw => Sys2Proof.Machine.execVrmax c hw s
  | .vrmin c hw => Sys2Proof.Machine.execVrmin c hw s
  | .vrargmax c hw => Sys2Proof.Machine.execVrargmax c hw s
  | .vrisum c hw => Sys2Proof.Machine.execVrisum c hw s
  | .vperm c hw => Sys2Proof.Machine.execVperm c hw s
  | .vrot c hw => Sys2Proof.Machine.execVrot c hw s
  | .vbcast c hw => Sys2Proof.Machine.execVbcast c hw s
  | .vsplat c hw => Sys2Proof.Machine.execVsplat c hw s
  | .vext c hw => Sys2Proof.Machine.execVext c hw s
  | .vmlog c hw => Sys2Proof.Machine.execVmlog c hw s
  | .vld c hw => Sys2Proof.Machine.execVld c hw s
  | .vst c hw => Sys2Proof.Machine.execVst c hw s
  | .vgath c hw => Sys2Proof.Machine.execVgath c hw s
  | .vscat c hw => Sys2Proof.Machine.execVscat c hw s
  | .vrecv c hw => Sys2Proof.Machine.execVrecv c hw s
  | .vsend c hw => Sys2Proof.Machine.execVsend c hw s
  | .vcuew c hw => Sys2Proof.Machine.execVcuew c hw s
  | .vcuep c hw => Sys2Proof.Machine.execVcuep c hw s
  | .vamov c hw => Sys2Proof.Machine.execVamov c hw s
  | .vaadd c hw => Sys2Proof.Machine.execVaadd c hw s
  | .vloop c hw => Sys2Proof.Machine.execVloop c hw s
  | .vbr c hw => Sys2Proof.Machine.execVbr c hw s
  | .vbnz c hw => Sys2Proof.Machine.execVbnz c hw s
  | .vend c hw => Sys2Proof.Machine.execVend c hw s
  | .sNop c hw => Sys2Proof.Machine.execSNop c hw s
  | .sAdd c hw => Sys2Proof.Machine.execSAdd c hw s
  | .sSub c hw => Sys2Proof.Machine.execSSub c hw s
  | .sAnd c hw => Sys2Proof.Machine.execSAnd c hw s
  | .sOr c hw => Sys2Proof.Machine.execSOr c hw s
  | .sXor c hw => Sys2Proof.Machine.execSXor c hw s
  | .shl c hw => Sys2Proof.Machine.execShl c hw s
  | .shr c hw => Sys2Proof.Machine.execShr c hw s
  | .sar c hw => Sys2Proof.Machine.execSar c hw s
  | .sMul c hw => Sys2Proof.Machine.execSMul c hw s
  | .mulhu c hw => Sys2Proof.Machine.execMulhu c hw s
  | .sMin c hw => Sys2Proof.Machine.execSMin c hw s
  | .sMax c hw => Sys2Proof.Machine.execSMax c hw s
  | .minu c hw => Sys2Proof.Machine.execMinu c hw s
  | .maxu c hw => Sys2Proof.Machine.execMaxu c hw s
  | .addi c hw => Sys2Proof.Machine.execAddi c hw s
  | .andi c hw => Sys2Proof.Machine.execAndi c hw s
  | .ori c hw => Sys2Proof.Machine.execOri c hw s
  | .xori c hw => Sys2Proof.Machine.execXori c hw s
  | .shli c hw => Sys2Proof.Machine.execShli c hw s
  | .shri c hw => Sys2Proof.Machine.execShri c hw s
  | .sari c hw => Sys2Proof.Machine.execSari c hw s
  | .seti c hw => Sys2Proof.Machine.execSeti c hw s
  | .appi c hw => Sys2Proof.Machine.execAppi c hw s
  | .cmp c hw => Sys2Proof.Machine.execCmp c hw s
  | .cmpi c hw => Sys2Proof.Machine.execCmpi c hw s
  | .plog c hw => Sys2Proof.Machine.execPlog c hw s
  | .sLd c hw => Sys2Proof.Machine.execSLd c hw s
  | .ldw c hw => Sys2Proof.Machine.execLdw c hw s
  | .sSt c hw => Sys2Proof.Machine.execSSt c hw s
  | .stw c hw => Sys2Proof.Machine.execStw c hw s
  | .fadd c hw => Sys2Proof.Machine.execFadd c hw s
  | .fmul c hw => Sys2Proof.Machine.execFmul c hw s
  | .fcmp c hw => Sys2Proof.Machine.execFcmp c hw s
  | .fcvt c hw => Sys2Proof.Machine.execFcvt c hw s
  | .br c hw => Sys2Proof.Machine.execBr c hw s
  | .brl c hw => Sys2Proof.Machine.execBrl c hw s
  | .jr c hw => Sys2Proof.Machine.execJr c hw s
  | .cue c hw => Sys2Proof.Machine.execCue c hw s
  | .cuew c hw => Sys2Proof.Machine.execCuew c hw s
  | .sSend c hw => Sys2Proof.Machine.execSSend c hw s
  | .sRecv c hw => Sys2Proof.Machine.execSRecv c hw s
  | .psel c hw => Sys2Proof.Machine.execPsel c hw s
  | .post c hw => Sys2Proof.Machine.execPost c hw s
  | .greq c hw => Sys2Proof.Machine.execGreq c hw s
  | .bara c hw => Sys2Proof.Machine.execBara c hw s
  | .barw c hw => Sys2Proof.Machine.execBarw c hw s
  | .flago c hw => Sys2Proof.Machine.execFlago c hw s
  | .flagr c hw => Sys2Proof.Machine.execFlagr c hw s
  | .kvreq c hw => Sys2Proof.Machine.execKvreq c hw s
  | .kvpoll c hw => Sys2Proof.Machine.execKvpoll c hw s
  | .rand c hw => Sys2Proof.Machine.execRand c hw s
  | .ctr c hw => Sys2Proof.Machine.execCtr c hw s
  | .sEnd c hw => Sys2Proof.Machine.execSEnd c hw s
  | .correctedWriteBack addr => Sys2Proof.Machine.execCorrectedWriteBack addr s
  | .remoteWrite c => Sys2Proof.Machine.execRemoteWrite c s
  | .grantAcquire c => Sys2Proof.Machine.execGrantAcquire c s
  | .grantRelease c => Sys2Proof.Machine.execGrantRelease c s
  | .grantFree c => Sys2Proof.Machine.execGrantFree c s
  | .grantAnswer c => Sys2Proof.Machine.execGrantAnswer c s
  | .sweepStrip c bank runs bad => Sys2Proof.Machine.execSweepStrip c bank runs bad s
  | .seamFlitTime blk dir flips => Sys2Proof.Machine.execSeamFlitTime blk dir flips s
  | .seamErrorThreshold blk dir => Sys2Proof.Machine.execSeamErrorThreshold blk dir s
  | .seamWireTestDone blk dir badWires badClock => Sys2Proof.Machine.execSeamWireTestDone blk dir badWires badClock s
  | .seamRetrainDone blk dir ok => Sys2Proof.Machine.execSeamRetrainDone blk dir ok s
  | .slotPeriodStart g => Sys2Proof.Machine.execSlotPeriodStart g s
  | .circuitSlot blk out slot pick => Sys2Proof.Machine.execCircuitSlot blk out slot pick s
  | .riggingRewrite edits => Sys2Proof.Machine.execRiggingRewrite edits s
  | .packetHop blk inPort => Sys2Proof.Machine.execPacketHop blk inPort s
  | .detourInstall set => Sys2Proof.Machine.execDetourInstall set s
  | .vc2ItemHop blk inPort => Sys2Proof.Machine.execVc2ItemHop blk inPort s
  | .transportReceive blk toHub => Sys2Proof.Machine.execTransportReceive blk toHub s
  | .transportNak blk toHub => Sys2Proof.Machine.execTransportNak blk toHub s
  | .transportResendTimeout blk toHub => Sys2Proof.Machine.execTransportResendTimeout blk toHub s
  | .transportAckTimer blk toHub => Sys2Proof.Machine.execTransportAckTimer blk toHub s
  | .transportCredit blk toHub => Sys2Proof.Machine.execTransportCredit blk toHub s
  | .packetDeliver c => Sys2Proof.Machine.execPacketDeliver c s
  | .packetRead c ecc => Sys2Proof.Machine.execPacketRead c ecc s
  | .readData c => Sys2Proof.Machine.execReadData c s
  | .multicastCopy blk inPort => Sys2Proof.Machine.execMulticastCopy blk inPort s
  | .multicastNak blk => Sys2Proof.Machine.execMulticastNak blk s
  | .barrierArrival blk => Sys2Proof.Machine.execBarrierArrival blk s
  | .barrierCompletion blk => Sys2Proof.Machine.execBarrierCompletion blk s
  | .flagUpdate blk => Sys2Proof.Machine.execFlagUpdate blk s
  | .flagValue blk => Sys2Proof.Machine.execFlagValue blk s
  | .channelDrainDone idx => Sys2Proof.Machine.execChannelDrainDone idx s
  | .messageArrival c ep => Sys2Proof.Machine.execMessageArrival c ep s
  | .creditFlushTimer c ep => Sys2Proof.Machine.execCreditFlushTimer c ep s
  | .creditItem c => Sys2Proof.Machine.execCreditItem c s
  | .cueArrival c => Sys2Proof.Machine.execCueArrival c s
  | .chorusContribution c ep => Sys2Proof.Machine.execChorusContribution c ep s
  | .chorusWindowItem c => Sys2Proof.Machine.execChorusWindowItem c s
  | .gateStep c ep ecc => Sys2Proof.Machine.execGateStep c ep ecc s
  | .cueTimeout c ep => Sys2Proof.Machine.execCueTimeout c ep s
  | .wingMove c ep => Sys2Proof.Machine.execWingMove c ep s
  | .channelStall c ep => Sys2Proof.Machine.execChannelStall c ep s
  | .barrierStall c => Sys2Proof.Machine.execBarrierStall c s
  | .hangDeclare => Sys2Proof.Machine.execHangDeclare s
  | .sceneBarrierArrival c => Sys2Proof.Machine.execSceneBarrierArrival c s
  | .sceneRefillDone c ecc => Sys2Proof.Machine.execSceneRefillDone c ecc s
  | .actOpen => Sys2Proof.Machine.execActOpen s
  | .curtainCommit => Sys2Proof.Machine.execCurtainCommit s
  | .watchdogPeriod => Sys2Proof.Machine.execWatchdogPeriod s
  | .completionDelivery ring => Sys2Proof.Machine.execCompletionDelivery ring s
  | .roster ticket => Sys2Proof.Machine.execRoster ticket s
  | .append ticket ecc => Sys2Proof.Machine.execAppend ticket ecc s
  | .appendLanded ticket => Sys2Proof.Machine.execAppendLanded ticket s
  | .complete ticket => Sys2Proof.Machine.execComplete ticket s
  | .stream ticket => Sys2Proof.Machine.execStream ticket s
  | .fetch ticket => Sys2Proof.Machine.execFetch ticket s
  | .pageDelivery porter ecc => Sys2Proof.Machine.execPageDelivery porter ecc s
  | .slotCloseDone slot => Sys2Proof.Machine.execSlotCloseDone slot s
  | .prompt ring entry => Sys2Proof.Machine.execPrompt ring entry s
  | .enrol ring entry => Sys2Proof.Machine.execEnrol ring entry s
  | .arbiterPeriod res => Sys2Proof.Machine.execArbiterPeriod res s
  | .arbiterGrant res => Sys2Proof.Machine.execArbiterGrant res s
  | .dramRead addr errs => Sys2Proof.Machine.execDramRead addr errs s
  | .dramWrite addr data errs => Sys2Proof.Machine.execDramWrite addr data errs s
  | .dramCorrectedRewrite unit => Sys2Proof.Machine.execDramCorrectedRewrite unit s
  | .bar4Access off len write data poison errs => Sys2Proof.Machine.execBar4Access off len write data poison errs s
  | .porterDesc ring entry => Sys2Proof.Machine.execPorterDesc ring entry s
  | .porterNop p => Sys2Proof.Machine.execPorterNop p s
  | .porterCopy p ev => Sys2Proof.Machine.execPorterCopy p ev s
  | .porterFill p ev => Sys2Proof.Machine.execPorterFill p ev s
  | .porterFence p => Sys2Proof.Machine.execPorterFence p s
  | .porterDone p => Sys2Proof.Machine.execPorterDone p s
  | .porterSteal p => Sys2Proof.Machine.execPorterSteal p s
  | .porterGrantRetry p => Sys2Proof.Machine.execPorterGrantRetry p s
  | .spotRehearsal c outs ecc cut => Sys2Proof.Machine.execSpotRehearsal c outs ecc cut s
  | .dressRehearsalDone fails => Sys2Proof.Machine.execDressRehearsalDone fails s
  | .pairedItemCompare c => Sys2Proof.Machine.execPairedItemCompare c s
  | .pairedItemTimeout c => Sys2Proof.Machine.execPairedItemTimeout c s
  | .tallySample c => Sys2Proof.Machine.execTallySample c s
  | .tallyCompare c => Sys2Proof.Machine.execTallyCompare c s
  | .tallyTimeout c => Sys2Proof.Machine.execTallyTimeout c s
  | .cairnFlush => Sys2Proof.Machine.execCairnFlush s
  | .progressStuck c => Sys2Proof.Machine.execProgressStuck c s
  | .quiesceDone => Sys2Proof.Machine.execQuiesceDone s
  | .quiesceTimeout => Sys2Proof.Machine.execQuiesceTimeout s
  | .heartbeatTick n => Sys2Proof.Machine.execHeartbeatTick n s
  | .heartbeatLoss n => Sys2Proof.Machine.execHeartbeatLoss n s
  | .coreRejoin n verified => Sys2Proof.Machine.execCoreRejoin n verified s
  | .snapshotDone ecc => Sys2Proof.Machine.execSnapshotDone ecc s
  | .computeResetDone => Sys2Proof.Machine.execComputeResetDone s
  | .computeResetTimeout => Sys2Proof.Machine.execComputeResetTimeout s
  | .restartFromBelay dram => Sys2Proof.Machine.execRestartFromBelay dram s
  | .belayHold group => Sys2Proof.Machine.execBelayHold group s
  | .belayCopyDone dram => Sys2Proof.Machine.execBelayCopyDone dram s
  | .pcieLinkTrain rate width flit degraded => Sys2Proof.Machine.execPcieLinkTrain rate width flit degraded s
  | .pcieReset kind => Sys2Proof.Machine.execPcieReset kind s
  | .bar4Resize size => Sys2Proof.Machine.execBar4Resize size s
  | .hello mb req => Sys2Proof.Machine.execHello mb req s
  | .packageLoad mb req pkg => Sys2Proof.Machine.execPackageLoad mb req pkg s
  | .packageLoadProceed => Sys2Proof.Machine.execPackageLoadProceed s
  | .packageUnload mb req ns => Sys2Proof.Machine.execPackageUnload mb req ns s
  | .channelCreate mb req => Sys2Proof.Machine.execChannelCreate mb req s
  | .channelDestroy mb req => Sys2Proof.Machine.execChannelDestroy mb req s
  | .actSchedule mb req => Sys2Proof.Machine.execActSchedule mb req s
  | .actStop mb req => Sys2Proof.Machine.execActStop mb req s
  | .slotOpen mb req => Sys2Proof.Machine.execSlotOpen mb req s
  | .slotClose mb req => Sys2Proof.Machine.execSlotClose mb req s
  | .belaySet mb req => Sys2Proof.Machine.execBelaySet mb req s
  | .restart mb req => Sys2Proof.Machine.execRestart mb req s
  | .strike mb req ns => Sys2Proof.Machine.execStrike mb req ns s
  | .fenceQuery mb req => Sys2Proof.Machine.execFenceQuery mb req s
  | .requalify mb req => Sys2Proof.Machine.execRequalify mb req s
  | .regionReturnDone g reached fails => Sys2Proof.Machine.execRegionReturnDone g reached fails s
  | .attest mb req => Sys2Proof.Machine.execAttest mb req s
  | .evidenceSign => Sys2Proof.Machine.execEvidenceSign s
  | .keyImport mb req => Sys2Proof.Machine.execKeyImport mb req s
  | .kemKeyMake => Sys2Proof.Machine.execKemKeyMake s
  | .ropeEnable mb req => Sys2Proof.Machine.execRopeEnable mb req s
  | .ropeDisable mb req => Sys2Proof.Machine.execRopeDisable mb req s
  | .ropePeers mb req => Sys2Proof.Machine.execRopePeers mb req s
  | .ropeConfigSpare mb req => Sys2Proof.Machine.execRopeConfigSpare mb req s
  | .ropeLanding mb req => Sys2Proof.Machine.execRopeLanding mb req s
  | .ropeLandingClose mb req => Sys2Proof.Machine.execRopeLandingClose mb req s
  | .reduceConfig mb req => Sys2Proof.Machine.execReduceConfig mb req s
  | .telemetryConfig mb req => Sys2Proof.Machine.execTelemetryConfig mb req s
  | .cairnRead mb req => Sys2Proof.Machine.execCairnRead mb req s
  | .modeSet mb req => Sys2Proof.Machine.execModeSet mb req s
  | .snapshotRead mb req => Sys2Proof.Machine.execSnapshotRead mb req s
  | .deferralFinal mb entry => Sys2Proof.Machine.execDeferralFinal mb entry s
  | .ringDoorbell off width write data => Sys2Proof.Machine.execRingDoorbell off width write data s
  | .padEntry ring entry => Sys2Proof.Machine.execPadEntry ring entry s
  | .messageEntry ring entry => Sys2Proof.Machine.execMessageEntry ring entry s
  | .ringIrqTimer ring => Sys2Proof.Machine.execRingIrqTimer ring s
  | .ringShutdownDone ring => Sys2Proof.Machine.execRingShutdownDone ring s
  | .startCold value => Sys2Proof.Machine.execStartCold value s
  | .startWarm value => Sys2Proof.Machine.execStartWarm value s
  | .powerCheck value env => Sys2Proof.Machine.execPowerCheck value env s
  | .secureBoot value env => Sys2Proof.Machine.execSecureBoot value env s
  | .fwLoad value env => Sys2Proof.Machine.execFwLoad value env s
  | .seamTrain value env => Sys2Proof.Machine.execSeamTrain value env s
  | .dramTrain value env => Sys2Proof.Machine.execDramTrain value env s
  | .ropeTrain value env => Sys2Proof.Machine.execRopeTrain value env s
  | .bist value env => Sys2Proof.Machine.execBist value env s
  | .mapMerge value env => Sys2Proof.Machine.execMapMerge value env s
  | .partnerCheck value env => Sys2Proof.Machine.execPartnerCheck value env s
  | .riggingBase value env => Sys2Proof.Machine.execRiggingBase value env s
  | .dressRehearsal value env => Sys2Proof.Machine.execDressRehearsal value env s
  | .strikeStep value env => Sys2Proof.Machine.execStrikeStep value env s
  | .readyStep value env => Sys2Proof.Machine.execReadyStep value env s
  | .stepComplete => Sys2Proof.Machine.execStepComplete s
  | .stepTimeout => Sys2Proof.Machine.execStepTimeout s
  | .loadRecheck => Sys2Proof.Machine.execLoadRecheck s
  | .loadRecheckDone env => Sys2Proof.Machine.execLoadRecheckDone env s
  | .powerBandLight => Sys2Proof.Machine.execPowerBandLight s
  | .streamFrame port frame => Sys2Proof.Machine.execStreamFrame port frame s
  | .partialFrame port frame => Sys2Proof.Machine.execPartialFrame port frame s
  | .paramFrame port frame => Sys2Proof.Machine.execParamFrame port frame s
  | .ctrlFrame port frame => Sys2Proof.Machine.execCtrlFrame port frame s
  | .ropeHelloFrame port frame => Sys2Proof.Machine.execRopeHelloFrame port frame s
  | .sessionFrame port frame => Sys2Proof.Machine.execSessionFrame port frame s
  | .reassemblyTimeout port => Sys2Proof.Machine.execReassemblyTimeout port s
  | .ropeReplayTimeout port => Sys2Proof.Machine.execRopeReplayTimeout port s
  | .ropeAckTimer port => Sys2Proof.Machine.execRopeAckTimer port s
  | .fecThreshold port lane => Sys2Proof.Machine.execFecThreshold port lane s
  | .spareSwap port lane => Sys2Proof.Machine.execSpareSwap port lane s
  | .bypassOpen ring => Sys2Proof.Machine.execBypassOpen ring s
  | .ropeRekey port => Sys2Proof.Machine.execRopeRekey port s
  | .reductionStepOpen k => Sys2Proof.Machine.execReductionStepOpen k s
  | .reductionCutoff shard k => Sys2Proof.Machine.execReductionCutoff shard k s
  | .reductionAbandon shard k => Sys2Proof.Machine.execReductionAbandon shard k s
  | .inputVoltageChange mv => Sys2Proof.Machine.execInputVoltageChange mv s
  | .converterFail n => Sys2Proof.Machine.execConverterFail n s
  | .regulatorFault g => Sys2Proof.Machine.execRegulatorFault g s
  | .powerSample watts => Sys2Proof.Machine.execPowerSample watts s
  | .powerStepRaise => Sys2Proof.Machine.execPowerStepRaise s
  | .powerStepLower => Sys2Proof.Machine.execPowerStepLower s
  | .fastCutHoldEnd => Sys2Proof.Machine.execFastCutHoldEnd s
  | .frequencyChange g => Sys2Proof.Machine.execFrequencyChange g s
  | .refclkLost => Sys2Proof.Machine.execRefclkLost s
  | .refclkReturn => Sys2Proof.Machine.execRefclkReturn s
  | .houseClockBeacon t => Sys2Proof.Machine.execHouseClockBeacon t s
  | .hcSyncExchange t2 t3 t4 locked depth => Sys2Proof.Machine.execHcSyncExchange t2 t3 t4 locked depth s
  | .thermalStepUp g temp => Sys2Proof.Machine.execThermalStepUp g temp s
  | .thermalStepDown g temp => Sys2Proof.Machine.execThermalStepDown g temp s
  | .ghostEntry g temp working => Sys2Proof.Machine.execGhostEntry g temp working s
  | .cutEntry g temp => Sys2Proof.Machine.execCutEntry g temp s
  | .cutExit g temp => Sys2Proof.Machine.execCutExit g temp s
  | .ghostExit g temp => Sys2Proof.Machine.execGhostExit g temp s
  | .dorEnrol value => Sys2Proof.Machine.execDorEnrol value s
  | .dorPolicy value => Sys2Proof.Machine.execDorPolicy value s
  | .dorUnlock value => Sys2Proof.Machine.execDorUnlock value s
  | .jtagInstruction ir => Sys2Proof.Machine.execJtagInstruction ir s
  | .doeAttest obj => Sys2Proof.Machine.execDoeAttest obj s
  | .setEndpointId eid => Sys2Proof.Machine.execSetEndpointId eid s
  | .dynamicAddressAssign addr => Sys2Proof.Machine.execDynamicAddressAssign addr s
  | .pldmSensorRead sensor => Sys2Proof.Machine.execPldmSensorRead sensor s
  | .sensorRefresh values => Sys2Proof.Machine.execSensorRefresh values s
  | .limitEffecter watts => Sys2Proof.Machine.execLimitEffecter watts s
  | .stateCmd => Sys2Proof.Machine.execStateCmd s
  | .cairnGet seq => Sys2Proof.Machine.execCairnGet seq s
  | .ropeSpare port lane => Sys2Proof.Machine.execRopeSpare port lane s
  | .depthSample => Sys2Proof.Machine.execDepthSample s
  | .counterSample => Sys2Proof.Machine.execCounterSample s
  | .telemetryWrite => Sys2Proof.Machine.execTelemetryWrite s
  | .powerQualified => Sys2Proof.Machine.execPowerQualified s
  | .standbyEntry => Sys2Proof.Machine.execStandbyEntry s
  | .pwrOkLow => Sys2Proof.Machine.execPwrOkLow s
  | .panelReset => Sys2Proof.Machine.execPanelReset s
  | .powerLoss => Sys2Proof.Machine.execPowerLoss s
  | .thermtrip => Sys2Proof.Machine.execThermtrip s
  | .ropeTrainingDone port ok badLanes => Sys2Proof.Machine.execRopeTrainingDone port ok badLanes s
  | .ropeLinkLost port => Sys2Proof.Machine.execRopeLinkLost port s
  | .ropeDisableDrainEnd ring => Sys2Proof.Machine.execRopeDisableDrainEnd ring s
  | .ropeHelloRetry port => Sys2Proof.Machine.execRopeHelloRetry port s
  | .hostAccessError ring => Sys2Proof.Machine.execHostAccessError ring s
  | .busMasterEnableChange enable => Sys2Proof.Machine.execBusMasterEnableChange enable s
  | .mbDoorbellGo mb req => Sys2Proof.Machine.execMbDoorbellGo mb req s
  | .regionControllerUnreachable g => Sys2Proof.Machine.execRegionControllerUnreachable g s
  | .oobUnsupportedMessage ty => Sys2Proof.Machine.execOobUnsupportedMessage ty s

end Sys2Proof.Machine
end

