-- ==== Sys2Proof/WellFormed.lean ====
section
/-! DEFINITION. When a command is well formed: the unit that it names exists (R2, R3 and the counts of the chapters), and its
operands fit the fields that carry them. -/

namespace Sys2Proof

open Machine

/-- A valid cell with an engine of this kind (R3, R206). -/
def cellIs (e : Engine) (c : CellAddr) : Bool := cellValid c.toNat && decide (engineOf c.toNat = e)

/-- A number that fits a field of `w` bits. -/
def fits (w n : Nat) : Bool := decide (n < 2 ^ w)

/-- A request whose header fields fit Table 13.5. -/
def reqFits (r : NyReq) : Bool :=
  fits 8 r.opcode && fits 32 r.session && fits 32 r.tag && fits 8 r.flags && fits 64 r.bodyAddr && decide (r.arg.length ≤ 1048576)

/-- A rope frame of the lengths of R379: a 32 B header and up to 4,096 B of payload in whole granules. -/
def frameFits (f : RopeFrame) : Bool :=
  f.hdr.length == 32 && decide (f.payload.length ≤ 4096) && f.payload.length % 32 == 0

/-- A temperature that fits `temp` of `REGION_THERMAL`: signed, in eighths of a degree. -/
def tempFits (t : Int) : Bool := decide (-2048 ≤ t) && decide (t < 2048)

/-- A register access of 1, 2, 4 or 8 bytes with data of that width. -/
def accessFits (width : Nat) (data : Word64) : Bool := [1, 2, 4, 8].contains width && fits (8 * width) data.toNat

/-- Whether the unit that a command names exists. -/
def Instr.unitOk (i : Instr) : Bool :=
  match i with
  | .registerWrite a => decide (a.off < 0x4000000)
  | .eventEnableWrite _ => true
  | .sweepCtrlWrite g _ => regionValid g
  | .mcInjectArm c _ => cellIs .m c
  | .vcInjectArm c _ => cellIs .v c
  | .arbApply _ => true
  | .faultReportArrival _ => true
  | .fenceRemove c _ => cellValid c.toNat
  | .mDescriptorDecode c => cellIs .m c.cell
  | .kStep c _ => cellIs .m c
  | .kStepCheck c => cellIs .m c
  | .replayDone c _ => cellIs .m c
  | .drainRow c => cellIs .m c.cell
  | .beatStart c => cellValid c.cell.toNat
  | .vnop c _ => cellIs .v c
  | .vadd c _ => cellIs .v c
  | .vsub c _ => cellIs .v c
  | .vmul c _ => cellIs .v c
  | .vfma c _ => cellIs .v c
  | .vmax c _ => cellIs .v c
  | .vmin c _ => cellIs .v c
  | .vabs c _ => cellIs .v c
  | .vneg c _ => cellIs .v c
  | .vcmp c _ => cellIs .v c
  | .vsel c _ => cellIs .v c
  | .vmov c _ => cellIs .v c
  | .viadd c _ => cellIs .v c
  | .visub c _ => cellIs .v c
  | .vimul c _ => cellIs .v c
  | .vand c _ => cellIs .v c
  | .vor c _ => cellIs .v c
  | .vxor c _ => cellIs .v c
  | .vshl c _ => cellIs .v c
  | .vshr c _ => cellIs .v c
  | .vsar c _ => cellIs .v c
  | .vcvt c _ => cellIs .v c
  | .vcvtw c _ => cellIs .v c
  | .vqmx c _ => cellIs .v c
  | .vqb c _ => cellIs .v c
  | .vdq c _ => cellIs .v c
  | .vitof c _ => cellIs .v c
  | .vftoi c _ => cellIs .v c
  | .vexp2 c _ => cellIs .v c
  | .vlog2 c _ => cellIs .v c
  | .vrcp c _ => cellIs .v c
  | .vrsqrt c _ => cellIs .v c
  | .vtanh c _ => cellIs .v c
  | .vsigm c _ => cellIs .v c
  | .vgelu c _ => cellIs .v c
  | .vrsum c _ => cellIs .v c
  | .vrmax c _ => cellIs .v c
  | .vrmin c _ => cellIs .v c
  | .vrargmax c _ => cellIs .v c
  | .vrisum c _ => cellIs .v c
  | .vperm c _ => cellIs .v c
  | .vrot c _ => cellIs .v c
  | .vbcast c _ => cellIs .v c
  | .vsplat c _ => cellIs .v c
  | .vext c _ => cellIs .v c
  | .vmlog c _ => cellIs .v c
  | .vld c _ => cellIs .v c
  | .vst c _ => cellIs .v c
  | .vgath c _ => cellIs .v c
  | .vscat c _ => cellIs .v c
  | .vrecv c _ => cellIs .v c
  | .vsend c _ => cellIs .v c
  | .vcuew c _ => cellIs .v c
  | .vcuep c _ => cellIs .v c
  | .vamov c _ => cellIs .v c
  | .vaadd c _ => cellIs .v c
  | .vloop c _ => cellIs .v c
  | .vbr c _ => cellIs .v c
  | .vbnz c _ => cellIs .v c
  | .vend c _ => cellIs .v c
  | .sNop c _ => cellIs .s c
  | .sAdd c _ => cellIs .s c
  | .sSub c _ => cellIs .s c
  | .sAnd c _ => cellIs .s c
  | .sOr c _ => cellIs .s c
  | .sXor c _ => cellIs .s c
  | .shl c _ => cellIs .s c
  | .shr c _ => cellIs .s c
  | .sar c _ => cellIs .s c
  | .sMul c _ => cellIs .s c
  | .mulhu c _ => cellIs .s c
  | .sMin c _ => cellIs .s c
  | .sMax c _ => cellIs .s c
  | .minu c _ => cellIs .s c
  | .maxu c _ => cellIs .s c
  | .addi c _ => cellIs .s c
  | .andi c _ => cellIs .s c
  | .ori c _ => cellIs .s c
  | .xori c _ => cellIs .s c
  | .shli c _ => cellIs .s c
  | .shri c _ => cellIs .s c
  | .sari c _ => cellIs .s c
  | .seti c _ => cellIs .s c
  | .appi c _ => cellIs .s c
  | .cmp c _ => cellIs .s c
  | .cmpi c _ => cellIs .s c
  | .plog c _ => cellIs .s c
  | .sLd c _ => cellIs .s c
  | .ldw c _ => cellIs .s c
  | .sSt c _ => cellIs .s c
  | .stw c _ => cellIs .s c
  | .fadd c _ => cellIs .s c
  | .fmul c _ => cellIs .s c
  | .fcmp c _ => cellIs .s c
  | .fcvt c _ => cellIs .s c
  | .br c _ => cellIs .s c
  | .brl c _ => cellIs .s c
  | .jr c _ => cellIs .s c
  | .cue c _ => cellIs .s c
  | .cuew c _ => cellIs .s c
  | .sSend c _ => cellIs .s c
  | .sRecv c _ => cellIs .s c
  | .psel c _ => cellIs .s c
  | .post c _ => cellIs .s c
  | .greq c _ => cellIs .s c
  | .bara c _ => cellIs .s c
  | .barw c _ => cellIs .s c
  | .flago c _ => cellIs .s c
  | .flagr c _ => cellIs .s c
  | .kvreq c _ => cellIs .s c
  | .kvpoll c _ => cellIs .s c
  | .rand c _ => cellIs .s c
  | .ctr c _ => cellIs .s c
  | .sEnd c _ => cellIs .s c
  | .correctedWriteBack _ => true
  | .remoteWrite c => cellValid c.toNat
  | .grantAcquire c => cellValid c.toNat
  | .grantRelease c => cellValid c.toNat
  | .grantFree c => cellValid c.toNat
  | .grantAnswer c => cellValid c.toNat
  | .sweepStrip c bank _ _ => cellValid c.toNat && decide (bank < bankCount c.toNat)
  | .seamFlitTime blk dir _ => seamEnd blk dir
  | .seamErrorThreshold blk dir => seamEnd blk dir
  | .seamWireTestDone blk dir _ _ => seamEnd blk dir
  | .seamRetrainDone blk dir _ => seamEnd blk dir
  | .slotPeriodStart g => regionValid g
  | .circuitSlot blk out slot _ => blkValid blk && decide (out ≤ 10) && decide (slot < slotCount blk out)
  | .riggingRewrite _ => true
  | .packetHop blk inPort => blkValid blk && decide (inPort ≤ 10)
  | .detourInstall _ => true
  | .vc2ItemHop blk inPort => blkValid blk && decide (inPort ≤ 10)
  | .transportReceive blk _ => blkValid blk.blk
  | .transportNak blk _ => blkValid blk
  | .transportResendTimeout blk _ => blkValid blk
  | .transportAckTimer blk _ => blkValid blk
  | .transportCredit blk _ => blkValid blk
  | .packetDeliver c => cellValid c.toNat
  | .packetRead c _ => cellValid c.toNat
  | .readData c => cellValid c.toNat
  | .multicastCopy blk inPort => blkValid blk && decide (inPort ≤ 10)
  | .multicastNak blk => blkValid blk
  | .barrierArrival blk => blkValid blk
  | .barrierCompletion blk => blkValid blk
  | .flagUpdate blk => blkValid blk
  | .flagValue blk => blkValid blk
  | .channelDrainDone idx => decide (idx < 65536)
  | .messageArrival c ep => cellValid c.toNat && decide (ep < 32)
  | .creditFlushTimer c ep => cellValid c.toNat && decide (ep < 32)
  | .creditItem c => cellValid c.toNat
  | .cueArrival c => cellValid c.cell.toNat
  | .chorusContribution c ep => cellValid c.cell.toNat && decide (ep < 32)
  | .chorusWindowItem c => cellValid c.toNat
  | .gateStep c ep _ => cellValid c.toNat && decide (ep < 32)
  | .cueTimeout c ep => cellValid c.toNat && decide (ep < 32)
  | .wingMove c ep => cellValid c.cell.toNat && decide (ep < 32)
  | .channelStall c ep => cellValid c.toNat && decide (ep < 32)
  | .barrierStall c => cellValid c.toNat
  | .hangDeclare => true
  | .sceneBarrierArrival c => cellValid c.toNat
  | .sceneRefillDone c _ => cellValid c.toNat
  | .actOpen => true
  | .curtainCommit => true
  | .watchdogPeriod => true
  | .completionDelivery ring => decide (ring < 16384)
  | .roster _ => true
  | .append _ _ => true
  | .appendLanded _ => true
  | .complete _ => true
  | .stream _ => true
  | .fetch _ => true
  | .pageDelivery porter _ => decide (porter < 64)
  | .slotCloseDone slot => decide (slot < 1024)
  | .prompt ring _ => decide (ring < 16384)
  | .enrol ring _ => decide (ring < 16384)
  | .arbiterPeriod res => decide (res < resources)
  | .arbiterGrant res => decide (res < resources)
  | .dramRead addr _ => isDram addr
  | .dramWrite addr data _ => inDram addr data.length
  | .dramCorrectedRewrite unit => isDram (64 * unit)
  | .bar4Access off len _ _ _ _ => decide (off + len ≤ 2 ^ 41) && decide (0 < len)
  | .porterDesc ring _ => decide (ring < 16384)
  | .porterNop p => decide (p < 64)
  | .porterCopy p _ => decide (p < 64)
  | .porterFill p _ => decide (p < 64)
  | .porterFence p => decide (p < 64)
  | .porterDone p => decide (p < 64)
  | .porterSteal p => decide (p < 64)
  | .porterGrantRetry p => decide (p < 64)
  | .spotRehearsal c _ _ _ => cellValid c.toNat
  | .dressRehearsalDone _ => true
  | .pairedItemCompare c => cellValid c.cell.toNat
  | .pairedItemTimeout c => cellValid c.toNat
  | .tallySample c => cellValid c.toNat
  | .tallyCompare c => cellValid c.toNat
  | .tallyTimeout c => cellValid c.toNat
  | .cairnFlush => true
  | .progressStuck c => cellValid c.toNat
  | .quiesceDone => true
  | .quiesceTimeout => true
  | .heartbeatTick n => decide (n < 8)
  | .heartbeatLoss n => decide (n < 8)
  | .coreRejoin n _ => decide (n < 8)
  | .snapshotDone _ => true
  | .computeResetDone => true
  | .computeResetTimeout => true
  | .restartFromBelay _ => true
  | .belayHold _ => true
  | .belayCopyDone _ => true
  | .pcieLinkTrain _ _ _ _ => true
  | .pcieReset _ => true
  | .bar4Resize _ => true
  | .hello mb _ => decide (mb < 8)
  | .packageLoad mb _ _ => decide (mb < 8)
  | .packageLoadProceed => true
  | .packageUnload mb _ _ => decide (mb < 8)
  | .channelCreate mb _ => decide (mb < 8)
  | .channelDestroy mb _ => decide (mb < 8)
  | .actSchedule mb _ => decide (mb < 8)
  | .actStop mb _ => decide (mb < 8)
  | .slotOpen mb _ => decide (mb < 8)
  | .slotClose mb _ => decide (mb < 8)
  | .belaySet mb _ => decide (mb < 8)
  | .restart mb _ => decide (mb < 8)
  | .strike mb _ _ => decide (mb < 8)
  | .fenceQuery mb _ => decide (mb < 8)
  | .requalify mb _ => decide (mb < 8)
  | .regionReturnDone g _ _ => regionValid g
  | .attest mb _ => decide (mb < 8)
  | .evidenceSign => true
  | .keyImport mb _ => decide (mb < 8)
  | .kemKeyMake => true
  | .ropeEnable mb _ => decide (mb < 8)
  | .ropeDisable mb _ => decide (mb < 8)
  | .ropePeers mb _ => decide (mb < 8)
  | .ropeConfigSpare mb _ => decide (mb < 8)
  | .ropeLanding mb _ => decide (mb < 8)
  | .ropeLandingClose mb _ => decide (mb < 8)
  | .reduceConfig mb _ => decide (mb < 8)
  | .telemetryConfig mb _ => decide (mb < 8)
  | .cairnRead mb _ => decide (mb < 8)
  | .modeSet mb _ => decide (mb < 8)
  | .snapshotRead mb _ => decide (mb < 8)
  | .deferralFinal mb entry => decide (mb < 8) && decide (entry < 64)
  | .ringDoorbell off _ _ _ => decide (off < 0x100000)
  | .padEntry ring _ => decide (ring < 16384)
  | .messageEntry ring _ => decide (ring < 16384)
  | .ringIrqTimer ring => decide (ring < 16384)
  | .ringShutdownDone ring => decide (ring < 16384)
  | .startCold _ => true
  | .startWarm _ => true
  | .powerCheck _ _ => true
  | .secureBoot _ _ => true
  | .fwLoad _ _ => true
  | .seamTrain _ _ => true
  | .dramTrain _ _ => true
  | .ropeTrain _ _ => true
  | .bist _ _ => true
  | .mapMerge _ _ => true
  | .partnerCheck _ _ => true
  | .riggingBase _ _ => true
  | .dressRehearsal _ _ => true
  | .strikeStep _ _ => true
  | .readyStep _ _ => true
  | .stepComplete => true
  | .stepTimeout => true
  | .loadRecheck => true
  | .loadRecheckDone _ => true
  | .powerBandLight => true
  | .streamFrame port _ => decide (port < 6)
  | .partialFrame port _ => decide (port < 6)
  | .paramFrame port _ => decide (port < 6)
  | .ctrlFrame port _ => decide (port < 6)
  | .ropeHelloFrame port _ => decide (port < 6)
  | .sessionFrame port _ => decide (port < 6)
  | .reassemblyTimeout port => decide (port < 6)
  | .ropeReplayTimeout port => decide (port < 6)
  | .ropeAckTimer port => decide (port < 6)
  | .fecThreshold port lane => decide (port < 6) && decide (lane < 16)
  | .spareSwap port lane => decide (port < 6) && decide (lane < 16)
  | .bypassOpen ring => decide (ring < 3)
  | .ropeRekey port => decide (port < 6)
  | .reductionStepOpen _ => true
  | .reductionCutoff _ _ => true
  | .reductionAbandon _ _ => true
  | .inputVoltageChange _ => true
  | .converterFail n => decide (n < 16)
  | .regulatorFault g => regionValid g
  | .powerSample _ => true
  | .powerStepRaise => true
  | .powerStepLower => true
  | .fastCutHoldEnd => true
  | .frequencyChange g => regionValid g
  | .refclkLost => true
  | .refclkReturn => true
  | .houseClockBeacon _ => true
  | .hcSyncExchange _ _ _ _ _ => true
  | .thermalStepUp g _ => regionValid g
  | .thermalStepDown g _ => regionValid g
  | .ghostEntry g _ _ => regionValid g
  | .cutEntry g _ => regionValid g
  | .cutExit g _ => regionValid g
  | .ghostExit g _ => regionValid g
  | .dorEnrol _ => true
  | .dorPolicy _ => true
  | .dorUnlock _ => true
  | .jtagInstruction _ => true
  | .doeAttest _ => true
  | .setEndpointId _ => true
  | .dynamicAddressAssign _ => true
  | .pldmSensorRead _ => true
  | .sensorRefresh _ => true
  | .limitEffecter _ => true
  | .stateCmd => true
  | .cairnGet _ => true
  | .ropeSpare _ _ => true
  | .depthSample => true
  | .counterSample => true
  | .telemetryWrite => true
  | .powerQualified => true
  | .standbyEntry => true
  | .pwrOkLow => true
  | .panelReset => true
  | .powerLoss => true
  | .thermtrip => true
  | .ropeTrainingDone port _ _ => decide (port < 6)
  | .ropeLinkLost port => decide (port < 6)
  | .ropeDisableDrainEnd ring => decide (ring < 3)
  | .ropeHelloRetry port => decide (port < 6)
  | .hostAccessError ring => decide (ring < 16384)
  | .busMasterEnableChange _ => true
  | .mbDoorbellGo mb _ => decide (mb < 8)
  | .regionControllerUnreachable g => regionValid g
  | .oobUnsupportedMessage _ => true

/-- Whether the operands of a command fit the fields that carry them. -/
def Instr.widthOk (i : Instr) : Bool :=
  match i with
  | .registerWrite a => accessFits a.width a.data
  | .eventEnableWrite _ => true
  | .sweepCtrlWrite _ _ => true
  | .mcInjectArm _ _ => true
  | .vcInjectArm _ _ => true
  | .arbApply _ => true
  | .faultReportArrival _ => true
  | .fenceRemove _ _ => true
  | .mDescriptorDecode _ => true
  | .kStep _ _ => true
  | .kStepCheck _ => true
  | .replayDone _ _ => true
  | .drainRow _ => true
  | .beatStart _ => true
  | .vnop _ _ => true
  | .vadd _ _ => true
  | .vsub _ _ => true
  | .vmul _ _ => true
  | .vfma _ _ => true
  | .vmax _ _ => true
  | .vmin _ _ => true
  | .vabs _ _ => true
  | .vneg _ _ => true
  | .vcmp _ _ => true
  | .vsel _ _ => true
  | .vmov _ _ => true
  | .viadd _ _ => true
  | .visub _ _ => true
  | .vimul _ _ => true
  | .vand _ _ => true
  | .vor _ _ => true
  | .vxor _ _ => true
  | .vshl _ _ => true
  | .vshr _ _ => true
  | .vsar _ _ => true
  | .vcvt _ _ => true
  | .vcvtw _ _ => true
  | .vqmx _ _ => true
  | .vqb _ _ => true
  | .vdq _ _ => true
  | .vitof _ _ => true
  | .vftoi _ _ => true
  | .vexp2 _ _ => true
  | .vlog2 _ _ => true
  | .vrcp _ _ => true
  | .vrsqrt _ _ => true
  | .vtanh _ _ => true
  | .vsigm _ _ => true
  | .vgelu _ _ => true
  | .vrsum _ _ => true
  | .vrmax _ _ => true
  | .vrmin _ _ => true
  | .vrargmax _ _ => true
  | .vrisum _ _ => true
  | .vperm _ _ => true
  | .vrot _ _ => true
  | .vbcast _ _ => true
  | .vsplat _ _ => true
  | .vext _ _ => true
  | .vmlog _ _ => true
  | .vld _ _ => true
  | .vst _ _ => true
  | .vgath _ _ => true
  | .vscat _ _ => true
  | .vrecv _ _ => true
  | .vsend _ _ => true
  | .vcuew _ _ => true
  | .vcuep _ _ => true
  | .vamov _ _ => true
  | .vaadd _ _ => true
  | .vloop _ _ => true
  | .vbr _ _ => true
  | .vbnz _ _ => true
  | .vend _ _ => true
  | .sNop _ _ => true
  | .sAdd _ _ => true
  | .sSub _ _ => true
  | .sAnd _ _ => true
  | .sOr _ _ => true
  | .sXor _ _ => true
  | .shl _ _ => true
  | .shr _ _ => true
  | .sar _ _ => true
  | .sMul _ _ => true
  | .mulhu _ _ => true
  | .sMin _ _ => true
  | .sMax _ _ => true
  | .minu _ _ => true
  | .maxu _ _ => true
  | .addi _ _ => true
  | .andi _ _ => true
  | .ori _ _ => true
  | .xori _ _ => true
  | .shli _ _ => true
  | .shri _ _ => true
  | .sari _ _ => true
  | .seti _ _ => true
  | .appi _ _ => true
  | .cmp _ _ => true
  | .cmpi _ _ => true
  | .plog _ _ => true
  | .sLd _ _ => true
  | .ldw _ _ => true
  | .sSt _ _ => true
  | .stw _ _ => true
  | .fadd _ _ => true
  | .fmul _ _ => true
  | .fcmp _ _ => true
  | .fcvt _ _ => true
  | .br _ _ => true
  | .brl _ _ => true
  | .jr _ _ => true
  | .cue _ _ => true
  | .cuew _ _ => true
  | .sSend _ _ => true
  | .sRecv _ _ => true
  | .psel _ _ => true
  | .post _ _ => true
  | .greq _ _ => true
  | .bara _ _ => true
  | .barw _ _ => true
  | .flago _ _ => true
  | .flagr _ _ => true
  | .kvreq _ _ => true
  | .kvpoll _ _ => true
  | .rand _ _ => true
  | .ctr _ _ => true
  | .sEnd _ _ => true
  | .correctedWriteBack addr => fits 48 addr
  | .remoteWrite _ => true
  | .grantAcquire _ => true
  | .grantRelease _ => true
  | .grantFree _ => true
  | .grantAnswer _ => true
  | .sweepStrip _ _ _ _ => true
  | .seamFlitTime _ _ _ => true
  | .seamErrorThreshold _ _ => true
  | .seamWireTestDone _ _ _ _ => true
  | .seamRetrainDone _ _ _ => true
  | .slotPeriodStart _ => true
  | .circuitSlot _ _ _ _ => true
  | .riggingRewrite _ => true
  | .packetHop _ _ => true
  | .detourInstall _ => true
  | .vc2ItemHop _ _ => true
  | .transportReceive _ _ => true
  | .transportNak _ _ => true
  | .transportResendTimeout _ _ => true
  | .transportAckTimer _ _ => true
  | .transportCredit _ _ => true
  | .packetDeliver _ => true
  | .packetRead _ _ => true
  | .readData _ => true
  | .multicastCopy _ _ => true
  | .multicastNak _ => true
  | .barrierArrival _ => true
  | .barrierCompletion _ => true
  | .flagUpdate _ => true
  | .flagValue _ => true
  | .channelDrainDone _ => true
  | .messageArrival _ _ => true
  | .creditFlushTimer _ _ => true
  | .creditItem _ => true
  | .cueArrival _ => true
  | .chorusContribution _ _ => true
  | .chorusWindowItem _ => true
  | .gateStep _ _ _ => true
  | .cueTimeout _ _ => true
  | .wingMove _ _ => true
  | .channelStall _ _ => true
  | .barrierStall _ => true
  | .hangDeclare => true
  | .sceneBarrierArrival _ => true
  | .sceneRefillDone _ _ => true
  | .actOpen => true
  | .curtainCommit => true
  | .watchdogPeriod => true
  | .completionDelivery _ => true
  | .roster _ => true
  | .append _ _ => true
  | .appendLanded _ => true
  | .complete _ => true
  | .stream _ => true
  | .fetch _ => true
  | .pageDelivery _ _ => true
  | .slotCloseDone _ => true
  | .prompt _ entry => entry.length == 64
  | .enrol _ entry => entry.length == 64
  | .arbiterPeriod _ => true
  | .arbiterGrant _ => true
  | .dramRead _ _ => true
  | .dramWrite _ _ _ => true
  | .dramCorrectedRewrite _ => true
  | .bar4Access _ len write data _ _ => (!write || data.length == len)
  | .porterDesc _ entry => entry.length == 64
  | .porterNop _ => true
  | .porterCopy _ _ => true
  | .porterFill _ _ => true
  | .porterFence _ => true
  | .porterDone _ => true
  | .porterSteal _ => true
  | .porterGrantRetry _ => true
  | .spotRehearsal _ _ _ _ => true
  | .dressRehearsalDone _ => true
  | .pairedItemCompare _ => true
  | .pairedItemTimeout _ => true
  | .tallySample _ => true
  | .tallyCompare _ => true
  | .tallyTimeout _ => true
  | .cairnFlush => true
  | .progressStuck _ => true
  | .quiesceDone => true
  | .quiesceTimeout => true
  | .heartbeatTick _ => true
  | .heartbeatLoss _ => true
  | .coreRejoin _ _ => true
  | .snapshotDone _ => true
  | .computeResetDone => true
  | .computeResetTimeout => true
  | .restartFromBelay _ => true
  | .belayHold _ => true
  | .belayCopyDone _ => true
  | .pcieLinkTrain rate width _ _ => fits 3 rate && fits 5 width
  | .pcieReset _ => true
  | .bar4Resize _ => true
  | .hello _ req => reqFits req
  | .packageLoad _ req _ => reqFits req
  | .packageLoadProceed => true
  | .packageUnload _ req _ => reqFits req
  | .channelCreate _ req => reqFits req
  | .channelDestroy _ req => reqFits req
  | .actSchedule _ req => reqFits req
  | .actStop _ req => reqFits req
  | .slotOpen _ req => reqFits req
  | .slotClose _ req => reqFits req
  | .belaySet _ req => reqFits req
  | .restart _ req => reqFits req
  | .strike _ req _ => reqFits req
  | .fenceQuery _ req => reqFits req
  | .requalify _ req => reqFits req
  | .regionReturnDone _ _ _ => true
  | .attest _ req => reqFits req
  | .evidenceSign => true
  | .keyImport _ req => reqFits req
  | .kemKeyMake => true
  | .ropeEnable _ req => reqFits req
  | .ropeDisable _ req => reqFits req
  | .ropePeers _ req => reqFits req
  | .ropeConfigSpare _ req => reqFits req
  | .ropeLanding _ req => reqFits req
  | .ropeLandingClose _ req => reqFits req
  | .reduceConfig _ req => reqFits req
  | .telemetryConfig _ req => reqFits req
  | .cairnRead _ req => reqFits req
  | .modeSet _ req => reqFits req
  | .snapshotRead _ req => reqFits req
  | .deferralFinal _ _ => true
  | .ringDoorbell _ width _ data => accessFits width data
  | .padEntry _ entry => entry.length == 64
  | .messageEntry _ entry => entry.length == 64
  | .ringIrqTimer _ => true
  | .ringShutdownDone _ => true
  | .startCold _ => true
  | .startWarm _ => true
  | .powerCheck _ env => fits 8 env.cause
  | .secureBoot _ env => fits 8 env.cause
  | .fwLoad _ env => fits 8 env.cause
  | .seamTrain _ env => fits 8 env.cause
  | .dramTrain _ env => fits 8 env.cause
  | .ropeTrain _ env => fits 8 env.cause
  | .bist _ env => fits 8 env.cause
  | .mapMerge _ env => fits 8 env.cause
  | .partnerCheck _ env => fits 8 env.cause
  | .riggingBase _ env => fits 8 env.cause
  | .dressRehearsal _ env => fits 8 env.cause
  | .strikeStep _ env => fits 8 env.cause
  | .readyStep _ env => fits 8 env.cause
  | .stepComplete => true
  | .stepTimeout => true
  | .loadRecheck => true
  | .loadRecheckDone env => fits 8 env.cause
  | .powerBandLight => true
  | .streamFrame _ frame => frameFits frame.frame
  | .partialFrame _ frame => frameFits frame.frame
  | .paramFrame _ frame => frameFits frame.frame
  | .ctrlFrame _ frame => frameFits frame
  | .ropeHelloFrame _ frame => frameFits frame
  | .sessionFrame _ frame => frameFits frame
  | .reassemblyTimeout _ => true
  | .ropeReplayTimeout _ => true
  | .ropeAckTimer _ => true
  | .fecThreshold _ lane => fits 5 lane
  | .spareSwap _ lane => fits 5 lane
  | .bypassOpen _ => true
  | .ropeRekey _ => true
  | .reductionStepOpen _ => true
  | .reductionCutoff _ _ => true
  | .reductionAbandon _ _ => true
  | .inputVoltageChange mv => fits 16 mv
  | .converterFail _ => true
  | .regulatorFault _ => true
  | .powerSample watts => fits 16 watts
  | .powerStepRaise => true
  | .powerStepLower => true
  | .fastCutHoldEnd => true
  | .frequencyChange _ => true
  | .refclkLost => true
  | .refclkReturn => true
  | .houseClockBeacon t => fits 64 t
  | .hcSyncExchange t2 t3 t4 _ depth => fits 64 t2 && fits 64 t3 && fits 64 t4 && fits 8 depth
  | .thermalStepUp _ temp => tempFits temp
  | .thermalStepDown _ temp => tempFits temp
  | .ghostEntry _ temp working => tempFits temp && fits 8 working
  | .cutEntry _ temp => tempFits temp
  | .cutExit _ temp => tempFits temp
  | .ghostExit _ temp => tempFits temp
  | .dorEnrol _ => true
  | .dorPolicy _ => true
  | .dorUnlock _ => true
  | .jtagInstruction _ => true
  | .doeAttest _ => true
  | .setEndpointId eid => fits 8 eid
  | .dynamicAddressAssign addr => fits 7 addr
  | .pldmSensorRead sensor => fits 16 sensor
  | .sensorRefresh _ => true
  | .limitEffecter watts => fits 16 watts
  | .stateCmd => true
  | .cairnGet seq => fits 32 seq
  | .ropeSpare port lane => fits 5 lane && fits 3 port
  | .depthSample => true
  | .counterSample => true
  | .telemetryWrite => true
  | .powerQualified => true
  | .standbyEntry => true
  | .pwrOkLow => true
  | .panelReset => true
  | .powerLoss => true
  | .thermtrip => true
  | .ropeTrainingDone _ _ _ => true
  | .ropeLinkLost _ => true
  | .ropeDisableDrainEnd _ => true
  | .ropeHelloRetry _ => true
  | .hostAccessError _ => true
  | .busMasterEnableChange _ => true
  | .mbDoorbellGo _ req => reqFits req
  | .regionControllerUnreachable _ => true
  | .oobUnsupportedMessage ty => fits 7 ty

/-- A well-formed command. -/
def Instr.wellFormed (i : Instr) : Bool := i.unitOk && i.widthOk

end Sys2Proof
end

