-- ==== Sys2Proof/Safety.lean ====
section
/-! DEFINITION. What a safe state is: the memory list has its canonical form and every waiting command is well formed. A run from a
safe state meets no command on a unit the panel does not have. -/

namespace Sys2Proof

open Machine

/-- Canonical memory (log 2), and only well-formed commands waiting. -/
def Safe (s : State) : Prop := Memory.wf s.mem = true ∧ ∀ c ∈ s.pending, c.wellFormed = true

end Sys2Proof
end

