-- ==== Sys2Proof/Certificates/Slice0/Obligations.lean ====
section
/-! DEFINITION. The statements for the provers. -/

namespace Sys2Proof.Says

open Sys2Proof.Machine

/-! ### Terms of the statements -/

/-- `t` differs from `s` at most in the field named: a cell, and nothing else of the cell table. -/
def OnlyCell (a : Nat) (s t : State) : Prop := ∀ d, d ≠ a → t.cell d = s.cell d

/-- A V-cell stands at instruction `i`, and no check fires: no code event in a bank or in the scene store, no shadow mismatch, no armed
injection. -/
abbrev VThere (c : CellAddr) (i : Nat) (hw : VHw) (s : State) : Prop :=
  cellIs .v c = true ∧ s.insAt c.toNat = some i ∧ s.fenced c.toNat = false ∧ hw.ecc = [] ∧ hw.shadow = none ∧
    hw.store = false ∧ s.flag (Reg.VC_CK_CTRL_inject c.toNat) = false

/-- ... and what follows `i` stands within its program. -/
abbrev VReady (c : CellAddr) (i : Nat) (hw : VHw) (s : State) : Prop :=
  VThere c i hw s ∧ (loopNext (s.cell c.toNat).eng.pc (s.vst c.toNat).loops).1 < s.progLen c.toNat

/-- An engine after an instruction that leads on to `pc` (R102, R292). -/
def goesOn (e : EngSt) (pc now : Nat) : EngSt := { e with pc := pc, run := 1, wait := .none, progress := e.progress + 1, progressAt := now }

/-- What a V-cell instruction leaves: its registers become `x`, the program goes on (R97), and everything else stays but the count of
skipped slots. -/
def VLeaves (c : CellAddr) (s t : State) (x : VSt) : Prop :=
  let a := c.toNat
  let r := loopNext (s.cell a).eng.pc (s.vst a).loops
  t.cell a = { s.cell a with v := { x with loops := r.2 }, eng := goesOn (s.cell a).eng r.1 s.now } ∧
    OnlyCell a s t ∧ (∀ o, o ≠ (Reg.VC_CK_COUNTS_skip_count a).off → t.reg o = s.reg o) ∧
    t = { s with cells := t.cells, regs := t.regs }

/-- A row of the V-cell's instruction table: the command, the opcode, and the registers it leaves. -/
structure VOp where
  ins : CellAddr → VHw → Instr
  op : Nat
  res : State → Nat → Nat → VSt

/-- Every instruction of a list has the result its row gives. -/
def VRun (rows : List VOp) : Prop :=
  ∀ r ∈ rows, ∀ (c : CellAddr) (i : Nat) (hw : VHw) (s : State), VReady c i hw s → vOp i = r.op →
    ∃ t, exec (r.ins c hw) s = .next t ∧ VLeaves c s t (r.res s c.toNat i)

/-- One more instruction that the shadow units have checked (R99). -/
def seen (x : VSt) : VSt := { x with checked := x.checked + 1 }

/-- Elements of the instruction's format, under its mask, from the elements of its sources (R87, R89). -/
def lanes (srcs : List Nat) (f : Nat → List Nat → Nat) (s : State) (a i : Nat) : VSt :=
  let x := s.vst a
  let w := fmtBits (vFmt i)
  seen (x.write (vVd i) 0 w (vcount w) (x.mask (vMask i)) (fun e => f e (srcs.map fun r => velem (x.vec r) w e))
    (fun e => srcs.any fun r => elemPoison (x.vpoison r) 0 w e))

/-- 64 slots of 32 bits under the instruction's mask. -/
def slots32 (f : Nat → Nat) (p : Nat → Bool) (s : State) (a i : Nat) : VSt :=
  let x := s.vst a
  seen (x.write (vVd i) 0 32 64 (x.mask (vMask i)) f p)

/-- A lane result rounded as R90 has it, from the values of the sources. -/
def arith (n : Nat) (g : FV → FV → FV → FV) (s : State) (a i : Nat) : VSt :=
  lanes ([vVa i, vVb i, vVc i].take n) (fun _ xs =>
    laneOut i (g (laneIn i (src xs 0)) (laneIn i (src xs 1)) (laneIn i (src xs 2)))) s a i

/-- A result on the codes of two sources. -/
def codes (g : Nat → Nat → Nat) (s : State) (a i : Nat) : VSt := lanes [vVa i, vVb i] (fun _ xs => g (src xs 0) (src xs 1)) s a i

/-- Lanes of one source. -/
def lanesOf1 (g : Nat → Nat) (s : State) (a i : Nat) : VSt := lanes [vVa i] (fun _ xs => g (src xs 0)) s a i

/-- A special function of the elements of `va`, in FP32 or BF16 (R94). -/
def special (f : FFmt → Nat → Nat) (s : State) (a i : Nat) : VSt := lanesOf1 (f (if vFmt i = 0 then .fp32 else .bf16)) s a i

/-- Blocks of `k` slots of `va` quantised: elements into part imm[2:0] of `vd`, scales into the bytes of `vc` (R92). -/
def quantised (k : Nat) (q : List Nat → Nat × List Nat) (tPoison : Bool) (s : State) (a i : Nat) : VSt :=
  let x := s.vst a
  let p := bits (vImm i) 0 3
  let n := 64 / k
  let m := x.mask (vMask i)
  let blk := (List.range n).map fun b => q ((blockSlots k b).map fun e => velem (x.vec (vVa i)) 32 e)
  let bad := fun b => tPoison || (blockSlots k b).any fun e => bitAt (x.vpoison (vVa i)) e
  let y := x.write (vVd i) (p * partBits (vFmt i)) (fmtBits (vFmt i)) 64 m
    (fun e => nth (nth blk (e / k) (0, [])).2 (e % k) 0) (fun e => bad (e / k))
  seen (y.write (vVc i) (8 * n * p) 8 n m (fun b => (nth blk b (0, [])).1) bad)

/-- A reduction of the active elements of `va` in element 0 of `vd`, +0 elsewhere (R95). -/
def reduced (f : Nat → List (Nat × Bool) → Nat) (s : State) (a i : Nat) : VSt :=
  let x := s.vst a
  let w := fmtBits (vFmt i)
  let pois := (List.range (vcount w)).any fun e => vactive (x.mask (vMask i)) 0 w e && elemPoison (x.vpoison (vVa i)) 0 w e
  seen (x.write (vVd i) 0 32 64 (2 ^ 256 - 1) (fun e => if e = 0 then f i (redElems x i) else 0) (fun e => e == 0 && pois))

/-- Place of the largest active element, the lowest place on a tie (R95). -/
def argBest (i : Nat) (es : List (Nat × Bool)) : Option Nat :=
  (foldIdx (fun e (best : Option (Nat × Nat)) (p : Nat × Bool) =>
    if !p.2 then best
    else match best with
      | none => some (e, p.1)
      | some b => if argAbove i p.1 b.2 then some (e, p.1) else some b) 0 none es).map (·.1)

/-- Elements of `va` taken from the places `place` names (R89). -/
def moved (place : Nat → Nat) (dep : Nat → Bool) (s : State) (a i : Nat) : VSt :=
  let x := s.vst a
  let w := fmtBits (vFmt i)
  seen (x.write (vVd i) 0 w (vcount w) (x.mask (vMask i)) (fun e => velem (x.vec (vVa i)) w (place e))
    (fun e => dep e || elemPoison (x.vpoison (vVa i)) 0 w (place e)))

/-- VCMP (R89, R90): the mask bits of the bytes of active elements take the outcome; condition 7 has no stated outcome, and neither has an
element under poison (R44): both are free (log 3). -/
def compared (s : State) (a i : Nat) : VSt :=
  let x := s.vst a
  let w := fmtBits (vFmt i)
  let k := vImm i % 8
  let out := fun e =>
    let p := velem (x.vec (vVa i)) w e
    let q := velem (x.vec (vVb i)) w e
    let fr := bitAt (Config.openResult 0x09 p q).toNat 0
    if elemPoison (x.vpoison (vVa i)) 0 w e || elemPoison (x.vpoison (vVb i)) 0 w e then bitAt (Config.openResult 0x109 k e).toNat 0
    else if fmtInt (vFmt i) then vcond k fr false (toSigned 32 p - toSigned 32 q)
    else vcond k fr (laneIn i p == .nan || laneIn i q == .nan) ((laneIn i p).cmp (laneIn i q))
  seen (x.setMask (vVd i) (packFlags 256 fun b =>
    if vactive (x.mask (vMask i)) 0 w (b * 8 / w) then out (b * 8 / w) else bitAt (x.mask (vVd i % 8)) b))

end Sys2Proof.Says

open Sys2Proof Sys2Proof.Machine Sys2Proof.Says

/-! ### The machine as a whole -/

/-- A step takes the command at the front of the queue and runs it on the state with the queue's rest; with no command waiting the house
clock goes on (the model's choice, log 48). -/
def Obligations.StepRunsFrontCommand : Prop :=
  (∀ (c : Instr) (s : State), step { s with pending := c :: s.pending } = exec c s) ∧
    ∀ s : State, s.pending = [] → step s = .next s.idle

/-- Every command on a unit that the panel has runs to a next state; one on a unit it does not have stops by name, and none is refused. -/
def Obligations.CommandsOnUnitsRun : Prop :=
  ∀ (i : Instr) (s : State),
    (i.unitOk = true → ∃ t, exec i s = .next t) ∧
    (i.unitOk = false → ∃ n, exec i s = .fault (.noSuchUnit n)) ∧
    ∀ r, exec i s ≠ .refused r

/-- From a safe state every step answers a next state, and a safe one: no stop is ever met, the memory list keeps its canonical form, and
what waits stays well formed (an invariant of the model's own form of memory, log 2). -/
def Obligations.StepKeepsSafe : Prop := ∀ s : State, Safe s → (∃ t, step s = .next t) ∧ ∀ t, step s = .next t → Safe t

/-- Right after the panel has left OFF for the first time it is in STANDBY (R31, R33), the house clock is at 0 (R403), no register has
been written, no memory word is poisoned and every byte reads 0 (log 2), no package is loaded and no command waits; and the
state is safe. -/
def Obligations.ResetState : Prop :=
  let s := State.reset
  Safe s ∧   s.isIn .standby = true ∧ s.now = 0 ∧ (∀ o, s.reg o = resetWord o) ∧ (∀ a, s.byte a = 0) ∧ s.mem.spPoison = [] ∧ s.mem.dramPoison = [] ∧
    s.pkg = none ∧ s.pending = [] ∧ s.get Reg.EVENT_STATUS_events = 0 ∧ s.get Reg.EVENT_ENABLE_enable = 0x1FF ∧
    s.get Reg.HC_SYNC_depth = 0xFF ∧ s.get Reg.POWER_STATUS_power_step = 0

/-- A written field of a register reads back (modulo its width), and no other register and no field of other bits changes. Bytes written
read back, an erased run reads 0 (R144, R258), every other byte of the device address space stays, and the list keeps its canonical form. -/
def Obligations.RegistersAndMemory : Prop :=
  (∀ (s : State) (f : RF) (v : Nat), f.lo + f.w ≤ 64 →
    (s.set f v).get f = v % 2 ^ f.w ∧ (∀ o, o ≠ f.off → (s.set f v).reg o = s.reg o) ∧
    (∀ g : RF, g.off = f.off → g.lo + g.w ≤ 64 → (g.lo + g.w ≤ f.lo ∨ f.lo + f.w ≤ g.lo) → (s.set f v).get g = s.get g) ∧
    s.set f v = { s with regs := (s.set f v).regs }) ∧
  ((∀ (s : State) (a : Nat) (bs : List Byte),
    (∀ k (h : k < bs.length), (s.writeBytes a bs).byte (a + k) = bs[k]) ∧
    (∀ x, x < a ∨ a + bs.length ≤ x → (s.writeBytes a bs).byte x = s.byte x) ∧
    (Memory.wf s.mem = true → Memory.wf (s.writeBytes a bs).mem = true)) ∧
  ∀ (s : State) (lo hi : Nat),
    (∀ x, lo ≤ x → x < hi → (s.clearMem lo hi).byte x = 0) ∧
    (∀ x, x < lo ∨ hi ≤ x → (s.clearMem lo hi).byte x = s.byte x) ∧
    (Memory.wf s.mem = true → Memory.wf (s.clearMem lo hi).mem = true))

/-- Block coordinates (R2): block column die column × 4 + block mod 4, giving 0-47; block row die row × 2 + block div 4, giving 0-23. The hub
hole is block columns 20-27 in block rows 10-13, and no block stands there; the blocks that border it are 24, and they alone have a hub
port. -/
def Obligations.BlockCoordinates : Prop :=
  let hole := fun (x y : Nat) => 20 ≤ x ∧ x ≤ 27 ∧ 10 ≤ y ∧ y ≤ 13
  let ring := fun (b : Nat) => blkValid b && (List.range 4).any fun d => (hubPort b d).isSome
  (∀ row col b, row < 12 → col < 12 → b < 8 →
    let k := row <<< 7 + col <<< 3 + b
    let x := col * 4 + b % 4
    let y := row * 2 + b / 4
    blkXY k = (x, y) ∧ x < 48 ∧ y < 24 ∧ (blkValid k = true ↔ ¬hole x y) ∧
      (ring k = true ↔ ¬hole x y ∧ (hole (x + 1) y ∨ (0 < x ∧ hole (x - 1) y) ∨ hole x (y + 1) ∨ (0 < y ∧ hole x (y - 1))))) ∧
  (∀ x y, x < 48 → y < 24 → ¬hole x y → ∃ k, blkAt x y = some k ∧ blkXY k = (x, y)) ∧
  ((List.range 1536).filter ring).length = 24

/-- A cell's scratchpad is mapped at 0x8000_0000_0000 + (cell address << 24): every cell has a window of 16 MiB, and its scratchpad is the
window from offset 0 upward, as far as its banks reach (R4); nothing else in the window, and no window of an invalid cell, is decoded. -/
def Obligations.ScratchpadAddresses : Prop :=
  ∀ c o, c < 0x10000 → o < 0x1000000 →
    spAddr c o = 0x800000000000 + c * 2 ^ 24 + o ∧
    spDecode (spAddr c o) = (if cellValid c = true ∧ o < bankCount c * 0x100000 then some (c, o) else none)

/-! ### V-cells -/

/-- A register write of `n` elements of `w` bits from bit `off` (R87): active elements take their value, inactive ones and all other bits
stay; no other register changes. A 32-bit slot is poisoned as its element is where active, and keeps its mark where not. -/
def Obligations.VectorRegisters : Prop :=
  (∀ (x : VSt) (vd m : Nat) (val : Nat → Nat) (pois : Nat → Bool) (e : Nat), e < 64 →
    bitAt ((x.write vd 0 32 64 m val pois).vpoison vd) e = if vactive m 0 32 e then pois e else bitAt (x.vpoison vd) e) ∧
  ∀ (x : VSt) (vd off w n m : Nat) (val : Nat → Nat) (pois : Nat → Bool), 0 < w →
    (∀ e, e < n → bits ((x.write vd off w n m val pois).vec vd) (off + e * w) w =
      if vactive m off w e then val e % 2 ^ w else bits (x.vec vd) (off + e * w) w) ∧
    (∀ b, b < off ∨ off + n * w ≤ b → bitAt ((x.write vd off w n m val pois).vec vd) b = bitAt (x.vec vd) b) ∧
    (∀ r, r ≠ vd → (x.write vd off w n m val pois).vec r = x.vec r ∧ (x.write vd off w n m val pois).vpoison r = x.vpoison r) ∧
    (x.write vd off w n m val pois).m = x.m ∧ (x.write vd off w n m val pois).a = x.a

/-- Arithmetic of V-cells (R48, R50-R52, R57, R89-R94): the element of every active place is the operation on the elements of the sources at
that place, correctly rounded; conversions write the part, the slots or the blocks that Table 4.4 names. -/
def Obligations.VArithmetic : Prop :=
  VRun (
    -- The elementwise instructions (R57, R89, R90); for VABS and VNEG of −2³¹ in INT32 the spec states no value, and the result is free (log 3).
    [⟨.vadd, 0x01, arith 2 fun a b _ => a.add b⟩,
    ⟨.vsub, 0x02, arith 2 fun a b _ => a.add b.neg⟩,
    ⟨.vmul, 0x03, arith 2 fun a b _ => a.mul b⟩,
    ⟨.vfma, 0x04, arith 3 fun a b c => (a.mul b).add c⟩,
    ⟨.vmax, 0x05, fun s a i => if fmtInt (vFmt i) then codes (fun p q => ofSigned 32 (max (toSigned 32 p) (toSigned 32 q))) s a i
      else arith 2 (fun p q _ => p.larger q) s a i⟩,
    ⟨.vmin, 0x06, fun s a i => if fmtInt (vFmt i) then codes (fun p q => ofSigned 32 (min (toSigned 32 p) (toSigned 32 q))) s a i
      else arith 2 (fun p q _ => p.smaller q) s a i⟩,
    ⟨.vabs, 0x07, fun s a i => if fmtInt (vFmt i) then
        lanes [vVa i] (fun _ xs => if src xs 0 = 2 ^ 31 then openLane 0x07 (2 ^ 31) 0 else (toSigned 32 (src xs 0)).natAbs) s a i
      else arith 1 (fun p _ _ => p.abs) s a i⟩,
    ⟨.vneg, 0x08, fun s a i => if fmtInt (vFmt i) then
        lanes [vVa i] (fun _ xs => if src xs 0 = 2 ^ 31 then openLane 0x08 (2 ^ 31) 0 else ofSigned 32 (-(toSigned 32 (src xs 0)))) s a i
      else arith 1 (fun p _ _ => p.neg) s a i⟩,
    ⟨.vmov, 0x0B, fun s a i => lanes [vVa i] (fun _ xs => src xs 0) s a i⟩] ++
    -- The integer and bitwise instructions (R89): 32-bit two's complement modulo 2³², shifts by the low five bits of the second source.
    [⟨.viadd, 0x10, codes fun a b => (a + b) % 2 ^ 32⟩,
    ⟨.visub, 0x11, codes fun a b => (a + 2 ^ 32 - b) % 2 ^ 32⟩,
    ⟨.vimul, 0x12, codes fun a b => a * b % 2 ^ 32⟩,
    ⟨.vand, 0x13, codes fun a b => a &&& b⟩,
    ⟨.vor, 0x14, codes fun a b => a ||| b⟩,
    ⟨.vxor, 0x15, codes fun a b => a ^^^ b⟩,
    ⟨.vshl, 0x16, codes fun a b => a <<< (b % 32) % 2 ^ 32⟩,
    ⟨.vshr, 0x17, codes fun a b => a >>> (b % 32)⟩,
    ⟨.vsar, 0x18, codes fun a b => ofSigned 32 (toSigned 32 a / (2 ^ (b % 32) : Nat))⟩] ++
    -- The conversions (R48, R50-R52, R91-R93): the part, the slots or the blocks that Table 4.4 names, in the format `fmt` names; a stochastic VCVT counts one more draw.
    [⟨.vcvt, 0x20, fun s a i =>
      let x := s.vst a
      let w := fmtBits (vFmt i)
      let off := bits (vImm i) 0 2 * partBits (vFmt i)
      let rnd := fun e => if vRound i && !fmtInt (vFmt i) then Rnd.sr (s.srWord a i (off / max w 1 + e)) else .rne
      let y := x.write (vVd i) off w 64 (x.mask (vMask i)) (fun e => convElem (vFmt i) (rnd e) (vSat i) (val32 (velem (x.vec (vVa i)) 32 e)))
        (fun e => bitAt (x.vpoison (vVa i)) e)
      seen { y with srCount := if vRound i then x.srCount + 1 else x.srCount }⟩,
    ⟨.vcvtw, 0x21, fun s a i =>
      let w := fmtBits (vFmt i)
      let off := bits (vImm i) 0 2 * partBits (vFmt i)
      slots32 (fun e => round32 (laneIn i (bits ((s.vst a).vec (vVa i)) (off + e * w) w)))
        (fun e => elemPoison ((s.vst a).vpoison (vVa i)) off w e) s a i⟩,
    ⟨.vitof, 0x25, lanesOf1 fun p => int32ToFp32 p⟩,
    ⟨.vftoi, 0x26, fun s a i =>
      let w := fmtBits (vFmt i)
      slots32 (fun e => (laneIn i (velem ((s.vst a).vec (vVa i)) w e)).toSat 32) (fun e => elemPoison ((s.vst a).vpoison (vVa i)) 0 w e) s a i⟩,
    ⟨.vqmx, 0x22, fun s a i => quantised 32 (quantMx (vFmt i) fun _ => .rne) false s a i⟩,
    ⟨.vqb, 0x23, fun s a i =>
      quantised 16 (quantS16 (vFmt i) (fun _ => .rne) ((s.vst a).addr (vVb i))) ((s.vst a).apoison (vVb i)) s a i⟩,
    ⟨.vdq, 0x24, fun s a i =>
      let x := s.vst a
      let w := fmtBits (vFmt i)
      let k := max (fmtBlock (vFmt i)) 1
      let p := bits (vImm i) 0 3
      let place := fun e => 64 / k * p + e / k
      let off := p * partBits (vFmt i)
      slots32
        (fun e =>
          let v := blockElem (vFmt i) (vFtz i) (velem (x.vec (vVb i)) 8 (place e)) (bits (x.vec (vVa i)) (off + e * w) w)
          if fmtS16 (vFmt i) then round32 (v.mul (val32 (x.addr (vVc i)))) else round32 v)
        (fun e => elemPoison (x.vpoison (vVa i)) off w e || elemPoison (x.vpoison (vVb i)) 0 8 (place e) ||
          (fmtS16 (vFmt i) && x.apoison (vVc i))) s a i⟩] ++
    -- The special functions (R94).
    [⟨.vexp2, 0x30, special fnExp2⟩, ⟨.vlog2, 0x31, special fnLog2⟩, ⟨.vrcp, 0x32, special fnRcp⟩, ⟨.vrsqrt, 0x33, special fnRsqrt⟩,
    ⟨.vtanh, 0x34, special fnTanh⟩, ⟨.vsigm, 0x35, special fnSigm⟩, ⟨.vgelu, 0x36, special fnGelu⟩])

/-- Reductions and moves of V-cells (R89, R95): element 0 takes the reduction of the active elements, every other element is +0; a moved
element comes from the place the instruction names. -/
def Obligations.VMoves : Prop :=
  VRun (
    -- The reductions (R95).
    [⟨.vrsum, 0x40, reduced fun _ es => treeSum 8 (es.map fun p => if p.2 then p.1 else 0x80000000)⟩,
    ⟨.vrmax, 0x41, reduced fun i es => redPick i true es⟩,
    ⟨.vrmin, 0x42, reduced fun i es => redPick i false es⟩,
    ⟨.vrargmax, 0x43, reduced fun i es => (argBest i es).getD (2 ^ 32 - 1)⟩,
    ⟨.vrisum, 0x44, reduced fun _ es => (es.map fun p => if p.2 then p.1 else 0).sum % 2 ^ 32⟩] ++
    -- Selection, permutes and register moves (R89).
    [⟨.vsel, 0x0A, fun s a i =>
      let x := s.vst a
      let w := fmtBits (vFmt i)
      let from' := fun e => if vactive (x.mask (vMask i)) 0 w e then vVa i else vVb i
      seen (x.write (vVd i) 0 w (vcount w) (2 ^ 256 - 1) (fun e => velem (x.vec (from' e)) w e) (fun e => elemPoison (x.vpoison (from' e)) 0 w e))⟩,
    ⟨.vperm, 0x48, fun s a i =>
      let x := s.vst a
      let w := fmtBits (vFmt i)
      moved (fun e => velem (x.vec (vVb i)) w e % vcount w) (fun e => elemPoison (x.vpoison (vVb i)) 0 w e) s a i⟩,
    ⟨.vrot, 0x49, fun s a i => moved (fun e => (e + vImm i) % vcount (fmtBits (vFmt i))) (fun _ => false) s a i⟩,
    ⟨.vbcast, 0x4A, fun s a i => moved (fun _ => vImm i % vcount (fmtBits (vFmt i))) (fun _ => false) s a i⟩,
    ⟨.vsplat, 0x4B, fun s a i =>
      let x := s.vst a
      let w := fmtBits (vFmt i)
      let pat := packBits 64 32 fun _ => x.addr (vVa i)
      seen (x.write (vVd i) 0 w (vcount w) (x.mask (vMask i)) (fun e => velem pat w e) (fun _ => x.apoison (vVa i)))⟩,
    ⟨.vext, 0x4C, fun s a i =>
      let x := s.vst a
      let k := vImm i % 64
      seen (x.setAddr (vVd i) (velem (x.vec (vVa i)) 32 k) (bitAt (x.vpoison (vVa i)) k))⟩])

/-- Masks, address registers and control (R89, R97): VCMP and VMLOG write a mask register, VAMOV and VAADD an address register, VNOP none;
a branch leaves the loops that do not hold its target. -/
def Obligations.VControl : Prop :=
  VRun [
    ⟨.vnop, 0x00, fun s a _ => s.vst a⟩,
    ⟨.vcmp, 0x09, compared⟩,
    ⟨.vmlog, 0x4D, fun s a i =>
      let x := s.vst a
      let p := x.mask (vVa i % 8)
      let q := x.mask (vVb i % 8)
      x.setMask (vVd i) (match vImm i % 4 with
        | 0 => p &&& q
        | 1 => p ||| q
        | 2 => p ^^^ q
        | _ => p &&& (q ^^^ (2 ^ 256 - 1)))⟩,
    ⟨.vamov, 0x60, fun s a i => (s.vst a).setAddr (vVd i) (ofSigned 32 (toSigned 24 (vImm i))) false⟩,
    ⟨.vaadd, 0x61, fun s a i =>
      (s.vst a).setAddr (vVd i) (ofSigned 32 (((s.vst a).addr (vVa i) : Int) + toSigned 24 (vImm i))) ((s.vst a).apoison (vVa i))⟩] ∧
  (∀ (c : CellAddr) (i : Nat) (hw : VHw) (s : State), VThere c i hw s →
    let a := c.toNat
    let x := s.vst a
    let pc := (s.cell a).eng.pc
    let jump := fun (t : Nat) => (s.modCell a fun y => { y with v := { x with loops := x.loops.dropWhile fun l => !(l.1 ≤ t && t ≤ l.2.1) } }).modEng a
      fun e => goesOn e t s.now
    (∀ t : Nat, (t : Int) = pc + toSigned 24 (vImm i) → t < s.progLen a →
      (vOp i = 0x63 → exec (.vbr c hw) s = .next (jump t)) ∧
      (vOp i = 0x64 → x.apoison (vVa i) = false → x.addr (vVa i) ≠ 0 → exec (.vbnz c hw) s = .next (jump t))) ∧
    (vOp i = 0x64 → x.apoison (vVa i) = false → x.addr (vVa i) = 0 → (loopNext pc x.loops).1 < s.progLen a → ∃ t, exec (.vbnz c hw) s = .next t ∧ VLeaves c s t x) ∧
    (vOp i = 0x62 → x.apoison (vVa i) = false → x.addr (vVa i) ≠ 0 → vImm i % 512 ≠ 0 → x.loops.length < 4 → pc + 1 < s.progLen a →
      exec (.vloop c hw) s = .next ((s.modCell a fun y => { y with v := { y.v with
        loops := (pc + 1, pc + vImm i % 512, x.addr (vVa i)) :: y.v.loops } }).modEng a fun e => goesOn e (pc + 1) s.now)) ∧
    (vOp i = 0x62 → x.apoison (vVa i) = false → x.addr (vVa i) = 0 →
      let r := loopNext (pc + vImm i % 512) x.loops
      r.1 < s.progLen a → exec (.vloop c hw) s = .next ((s.modCell a fun y => { y with v := { y.v with loops := r.2 } }).modEng a
        fun e => goesOn e r.1 s.now)) ∧
    (vOp i = 0x65 → exec (.vend c hw) s = .next ((s.modCell a fun y => { y with v := { y.v with loops := [] } }).beatEnd a [])))

/-- Bank accesses of V-cells (R96): within one granule-aligned 256 B run of a bank the scene gives the engine, VLD takes the bytes in the
bank, VST leaves the active bytes in it, and no other byte of the device address space changes; with no poisoned word among them. -/
def Obligations.VMemory : Prop :=
  ∀ (c : CellAddr) (i : Nat) (hw : VHw) (s : State), VReady c i hw s →
    let a := c.toNat
    let x := s.vst a
    let o := vAddress x i
    let w := fmtBits (vFmt i)
    x.apoison (vVa i) = false → (∀ k, s.mem.spPoison.contains (spWord a k) = false) →
    (vOp i = 0x50 → s.bankCause a o 256 32 = none → ∃ t, exec (.vld c hw) s = .next t ∧
      VLeaves c s t (x.write (vVd i) 0 w (vcount w) (x.mask (vMask i)) (fun e => velem (ofLE (s.bytes (spAddr a o) 256)) w e) fun _ => false)) ∧
    (vOp i = 0x51 → s.bankCause a o 256 32 = none → x.vpoison (vVd i) = 0 → 0 < w → ∃ t, exec (.vst c hw) s = .next t ∧
      (∀ b, b < 256 → (t.byte (spAddr a o + b)).toNat =
        if vactive (x.mask (vMask i)) 0 w (8 * b / w) then bits (x.vec (vVd i)) (8 * b) 8 else (s.byte (spAddr a o + b)).toNat) ∧
      (∀ p, p < spAddr a o ∨ spAddr a o + 256 ≤ p → t.byte p = s.byte p) ∧
      (t.cell a).eng = goesOn (s.cell a).eng (loopNext (s.cell a).eng.pc x.loops).1 s.now ∧ OnlyCell a s t ∧ t.regs = s.regs) ∧
    (vOp i = 0x52 → s.laneCause a x i = none → x.vpoison (vVb i) = 0 → ∃ t, exec (.vgath c hw) s = .next t ∧
      VLeaves c s t (x.write (vVd i) 0 32 64 (x.mask (vMask i)) (fun e => ofLE (s.bytes (spAddr a (laneAddress x i e)) 4)) fun _ => false)) ∧
    (vOp i = 0x53 → s.laneCause a x i = none → x.vpoison (vVb i) = 0 → x.vpoison (vVc i) = 0 → ∃ t, exec (.vscat c hw) s = .next t ∧
      (∀ e, e < 64 → vactive (x.mask (vMask i)) 0 32 e = true →
        (∀ e', e < e' → e' < 64 → vactive (x.mask (vMask i)) 0 32 e' = true → laneAddress x i e' ≠ laneAddress x i e) →
        t.bytes (spAddr a (laneAddress x i e)) 4 = toLE 4 (velem (x.vec (vVc i)) 32 e)) ∧
      (∀ p, (∀ e, e < 64 → vactive (x.mask (vMask i)) 0 32 e = true →
          p < spAddr a (laneAddress x i e) ∨ spAddr a (laneAddress x i e) + 4 ≤ p) → t.byte p = s.byte p) ∧
      (t.cell a).eng = goesOn (s.cell a).eng (loopNext (s.cell a).eng.pc x.loops).1 s.now ∧ OnlyCell a s t)

/-- Queue instructions of V-cells (R97): with a message or cue there, and credit for a send, they take effect and the program goes on; with
none they wait. -/
def Obligations.VQueues : Prop :=
  ∀ (c : CellAddr) (i : Nat) (hw : VHw) (s : State), VReady c i hw s →
    let a := c.toNat
    let n := vImm i % 32
    (vOp i = 0x58 → s.recvCause a n false = none → s.hasMsg a n = true → s.headLen a n ≤ 8 →
      let r := s.readHead a n hw.ecc
      r.2.fenced a = false →
      let s' := r.2.consume a n r.1
      let w := fmtBits (vFmt i)
      let y := (s'.vst a).write (vVd i) 0 w (vcount w) ((s.vst a).mask (vMask i)) (fun e => velem (ofLE (gransBytes r.1)) w e)
        (fun e => granSlots r.1 ((e * w) / 32) || granSlots r.1 ((e * w + w - 1) / 32))
      exec (.vrecv c hw) s = .next (s'.vDone a (y.setAddr (vVa i) (32 * r.1.length) false))) ∧
    (vOp i = 0x5A → s.recvCause a n true = none → s.hasMsg a n = true →
      let q := s.readCue a n []
      q.2.fenced a = false →
      exec (.vcuew c hw) s = .next ((q.2.takeCue a n).vDone a (((q.2.takeCue a n).vst a).setAddr (vVd i) (s.headCue a n).1 q.1))) ∧
    (vOp i = 0x59 →
      let k := if bits (vImm i) 5 4 = 0 then 8 else bits (vImm i) 5 4
      let r := s.epSend a n (vecGrans (s.vst a) (vVd i) k)
      s.sendCause a n k = none → r.1 = true → exec (.vsend c hw) s = .next (r.2.vDone a (r.2.vst a))) ∧
    (vOp i = 0x5B →
      let r := s.cueSend a n ((s.vst a).addr (vVa i))
      (s.vst a).apoison (vVa i) = false → s.cueCause a n = none → r.1 = true →
      exec (.vcuep c hw) s = .next (r.2.vDone a (r.2.vst a))) ∧
    (s.hasMsg a n = false → (vOp i = 0x58 → s.recvCause a n false = none → exec (.vrecv c hw) s = .next (s.waitRecv a n)) ∧
      (vOp i = 0x5A → s.recvCause a n true = none → exec (.vcuew c hw) s = .next (s.waitRecv a n)))

/-! ### S-cells -/

namespace Sys2Proof.Says

/-- An S-cell stands at instruction `i` with its guard true, and no check fires. -/
abbrev SThere (c : CellAddr) (i : Nat) (hw : SHw) (s : State) : Prop :=
  cellIs .s c = true ∧ s.insAt c.toNat = some i ∧ s.fenced c.toNat = false ∧ hw.ecc = [] ∧ hw.lock = none ∧
    hw.store = false ∧ sGuard (s.sst c.toNat) i = true

/-- ... and the next instruction stands within its program. -/
abbrev SReady (c : CellAddr) (i : Nat) (hw : SHw) (s : State) : Prop :=
  SThere c i hw s ∧ (s.cell c.toNat).eng.pc + 1 < s.progLen c.toNat

/-- The state after an S-cell instruction that leaves registers `x` and leads on to `pc`. -/
def sNext (s : State) (a : Nat) (x : SSt) (pc : Nat) : State :=
  (s.modCell a fun y => { y with sc := x }).modEng a fun e => goesOn e pc s.now

/-- A row of the S-cell's instruction table that writes registers alone: the command, the opcode, and the registers it leaves. -/
structure SOp where
  ins : CellAddr → SHw → Instr
  op : Nat
  res : State → Nat → Nat → SSt

/-- Every instruction of a list leaves the registers its row gives and goes on to the next instruction; nothing else changes. -/
def SRun (rows : List SOp) : Prop :=
  ∀ r ∈ rows, ∀ (c : CellAddr) (i : Nat) (hw : SHw) (s : State), SReady c i hw s → sOp i = r.op →
    exec (r.ins c hw) s = .next (sNext s c.toNat (r.res s c.toNat i) ((s.cell c.toNat).eng.pc + 1))

/-- gd takes a function of ga and gb, poisoned when either is (R110). -/
def alu (f : Nat → Nat → Nat) (s : State) (a i : Nat) : SSt :=
  let x := s.sst a
  x.setReg (sGd i) (f (x.reg (sGa i)) (x.reg (sGb i))) (x.poison (sGa i) || x.poison (sGb i))

/-- gd takes a function of ga and the sign-extended immediate. -/
def aluImm (f : Nat → Nat → Nat) (s : State) (a i : Nat) : SSt :=
  let x := s.sst a
  x.setReg (sGd i) (f (x.reg (sGa i)) (ofSigned 64 (sImm i))) (x.poison (sGa i))

end Sys2Proof.Says

/-- Registers of the S-cell (R105): g0 reads 0 and p0 reads true whatever was written; a write to another register reads back modulo 2⁶⁴
with its poison, and changes no other. -/
def Obligations.ScalarRegisters : Prop :=
  ∀ (x : SSt) (k v : Nat) (p : Bool),
    x.reg 0 = 0 ∧ x.poison 0 = false ∧ x.pred 0 = true ∧ x.setReg 0 v p = x ∧ x.setPred 0 p = x ∧
    (k ≠ 0 → (x.setReg k v p).reg k = v % 2 ^ 64 ∧ (x.setReg k v p).poison k = p ∧ (x.setPred k p).pred k = p) ∧
    (∀ j, j ≠ k → (x.setReg k v p).reg j = x.reg j ∧ (x.setReg k v p).poison j = x.poison j ∧ (x.setPred k p).pred j = x.pred j)

/-- Arithmetic of S-cells (R48, R57, R107, R110, R117): 64-bit integers on two registers, or a register and the immediate; FP32; RAND. -/
def Obligations.SArithmetic : Prop :=
  SRun (
    -- Integer instructions (R107).
    [⟨.sNop, 0x00, fun s a _ => s.sst a⟩,
    ⟨.sAdd, 0x01, alu fun a b => a + b⟩, ⟨.sSub, 0x02, alu fun a b => a + 2 ^ 64 - b⟩,
    ⟨.sAnd, 0x03, alu fun a b => a &&& b⟩, ⟨.sOr, 0x04, alu fun a b => a ||| b⟩, ⟨.sXor, 0x05, alu fun a b => a ^^^ b⟩,
    ⟨.shl, 0x06, alu fun a b => a <<< (b % 64)⟩, ⟨.shr, 0x07, alu fun a b => a >>> (b % 64)⟩,
    ⟨.sar, 0x08, alu fun a b => ofSigned 64 (toSigned 64 a / (2 ^ (b % 64) : Nat))⟩,
    ⟨.sMul, 0x09, alu fun a b => a * b⟩, ⟨.mulhu, 0x0A, alu fun a b => (a * b) >>> 64⟩,
    ⟨.sMin, 0x0B, alu fun a b => if toSigned 64 a ≤ toSigned 64 b then a else b⟩,
    ⟨.sMax, 0x0C, alu fun a b => if toSigned 64 a ≤ toSigned 64 b then b else a⟩,
    ⟨.minu, 0x0D, alu fun a b => min a b⟩, ⟨.maxu, 0x0E, alu fun a b => max a b⟩,
    ⟨.addi, 0x10, aluImm fun a k => a + k⟩, ⟨.andi, 0x11, aluImm fun a k => a &&& k⟩, ⟨.ori, 0x12, aluImm fun a k => a ||| k⟩,
    ⟨.xori, 0x13, aluImm fun a k => a ^^^ k⟩, ⟨.shli, 0x14, aluImm fun a k => a <<< (k % 64)⟩,
    ⟨.shri, 0x15, aluImm fun a k => a >>> (k % 64)⟩,
    ⟨.sari, 0x16, aluImm fun a k => ofSigned 64 (toSigned 64 a / (2 ^ (k % 64) : Nat))⟩,
    ⟨.seti, 0x18, fun s a i => (s.sst a).setReg (sGd i) (ofSigned 64 (toSigned 16 (sImm16 i))) false⟩,
    ⟨.appi, 0x19, fun s a i =>
      (s.sst a).setReg (sGd i) ((s.sst a).reg (sGd i) <<< 16 + sImm16 i) ((s.sst a).poison (sGd i))⟩] ++
    -- Floating-point instructions and RAND (R48, R57, R107, R117).
    [⟨.fadd, 0x24, alu fun a b => fadd32 (a % 2 ^ 32) (b % 2 ^ 32)⟩,
    ⟨.fmul, 0x25, alu fun a b => fmul32 (a % 2 ^ 32) (b % 2 ^ 32)⟩,
    ⟨.fcvt, 0x27, fun s a i =>
      let x := s.sst a
      let v := x.reg (sGa i)
      x.setReg (sGd i) (match sFunc i with
        | 0 => round32 (FV.ofInt (toSigned 64 v))
        | 1 => (val32 (v % 2 ^ 32)).toSat 64
        | 2 => FFmt.bf16.ofFV .rne false (val32 (v % 2 ^ 32))
        | _ => round32 (FFmt.bf16.decode (v % 2 ^ 16))) (x.poison (sGa i))⟩,
    ⟨.rand, 0x3D, alu fun a b => nth (philox b a) 0 0 + nth (philox b a) 1 0 <<< 32⟩])

/-- Comparisons, predicate logic, branches, CTR and END of S-cells (R107, R110, R211): with unpoisoned operands a predicate takes the outcome,
with a poisoned one the program stops with program fault 0x05; a target within the program is the next instruction; BRL leaves the place of
the instruction after it in g31; CTR gives the house clock, the beat count, the cell clocks since the scene was loaded (counted at the step's frequency: log 117) or the
logical address. -/
def Obligations.SControl : Prop :=
  (∀ (c : CellAddr) (i : Nat) (hw : SHw) (s : State), SReady c i hw s →
    let a := c.toNat
    let x := s.sst a
    let pc := (s.cell a).eng.pc
    let put := fun (b : Bool) => sNext s a (x.setPred (sGd i % 8) b) (pc + 1)
    let p := val32 (x.reg (sGa i) % 2 ^ 32)
    let q := val32 (x.reg (sGb i) % 2 ^ 32)
    let nan := p == .nan || q == .nan
    (x.poison (sGa i) = false → x.poison (sGb i) = false →
      (sOp i = 0x1C → exec (.cmp c hw) s = .next (put (sCond (sFunc i) (x.reg (sGa i)) (x.reg (sGb i))))) ∧
      (sOp i = 0x26 → exec (.fcmp c hw) s = .next (put (match sFunc i with
        | 0 => !nan && decide (p.cmp q = 0)
        | 1 => !nan && decide (p.cmp q < 0)
        | 2 => !nan && decide (p.cmp q ≤ 0)
        | _ => nan)))) ∧
    (x.poison (sGa i) = false → sOp i = 0x1D → exec (.cmpi c hw) s =
      .next (put (sCond (if sGd i / 8 = 3 then 4 else sGd i / 8) (x.reg (sGa i)) (ofSigned 64 (sImm i))))) ∧
    (sOp i = 0x1E → exec (.plog c hw) s = .next (put (
      let u := x.pred (sGa i % 8)
      let v := x.pred (sGb i % 8)
      match sFunc i with
        | 0 => u && v
        | 1 => u || v
        | 2 => u != v
        | _ => u && !v))) ∧
    (x.poison (sGa i) = true →
      (sOp i = 0x1C → exec (.cmp c hw) s = .next (s.programFault a 5)) ∧
      (sOp i = 0x1D → exec (.cmpi c hw) s = .next (s.programFault a 5)) ∧
      (sOp i = 0x26 → exec (.fcmp c hw) s = .next (s.programFault a 5)))) ∧
  (∀ (c : CellAddr) (i : Nat) (hw : SHw) (s : State), SThere c i hw s →
    let a := c.toNat
    let x := s.sst a
    let pc := (s.cell a).eng.pc
    let go := fun (t : Nat) => s.modEng a fun e => goesOn e t s.now
    (∀ t : Nat, (t : Int) = pc + sOff i → t < s.progLen a →
      (sOp i = 0x28 → exec (.br c hw) s = .next (go t)) ∧
      (sOp i = 0x29 → exec (.brl c hw) s = .next (sNext s a (x.setReg 31 (pc + 1) false) t))) ∧
    (sOp i = 0x2A → x.poison (sGa i) = false → x.reg (sGa i) < s.progLen a → exec (.jr c hw) s = .next (go (x.reg (sGa i)))) ∧
    (sOp i = 0x2A → x.poison (sGa i) = false → s.progLen a ≤ x.reg (sGa i) → exec (.jr c hw) s = .next (s.programFault a 9)) ∧
    (sOp i = 0x3E → pc + 1 < s.progLen a →
      (sImm i = 0 → exec (.ctr c hw) s = .next (sNext s a (x.setReg (sGd i) s.now false) (pc + 1))) ∧
      (sImm i = 1 → exec (.ctr c hw) s = .next (sNext s a (x.setReg (sGd i) (s.cell a).eng.beats false) (pc + 1))) ∧
      (sImm i = 2 → exec (.ctr c hw) s =
        .next (sNext s a (x.setReg (sGd i) ((s.clocks (gOf a) - (s.cell a).scene.loadedClk) / 10) false) (pc + 1))) ∧
      (sImm i = 3 → exec (.ctr c hw) s = .next (sNext s a (x.setReg (sGd i) (s.cell a).scene.logical false) (pc + 1)))) ∧
    (sOp i = 0x3F → exec (.sEnd c hw) s = .next (s.beatEnd a [])))

/-- Bank accesses of S-cells (R107, R111): a load takes the little-endian bytes at ga + imm, zero-extended; a store leaves the bytes of gd
there, and no other byte of the device address space changes; with no poisoned word or operand. -/
def Obligations.SMemory : Prop :=
  ∀ (c : CellAddr) (i : Nat) (hw : SHw) (s : State), SReady c i hw s →
    let a := c.toNat
    let x := s.sst a
    let o := sAddress x i
    let pc := (s.cell a).eng.pc
    let loads := fun (n : Nat) => sNext s a (x.setReg (sGd i) (ofLE (s.bytes (spAddr a o) n)) false) (pc + 1)
    let stores := fun (n : Nat) (t : State) =>
      t.bytes (spAddr a o) n = toLE n (x.reg (sGd i)) ∧ (∀ p, p < spAddr a o ∨ spAddr a o + n ≤ p → t.byte p = s.byte p) ∧
        t.cells = (s.modEng a fun e => goesOn e (pc + 1) s.now).cells ∧ t.regs = s.regs
    x.poison (sGa i) = false → (∀ k, s.mem.spPoison.contains (spWord a k) = false) →
    (sOp i = 0x20 → s.bankCause a o 8 8 = none → exec (.sLd c hw) s = .next (loads 8)) ∧
    (sOp i = 0x21 → s.bankCause a o 4 4 = none → exec (.ldw c hw) s = .next (loads 4)) ∧
    (x.poison (sGd i) = false →
      (sOp i = 0x22 → s.bankCause a o 8 8 = none → ∃ t, exec (.sSt c hw) s = .next t ∧ stores 8 t) ∧
      (sOp i = 0x23 → s.bankCause a o 4 4 = none → ∃ t, exec (.stw c hw) s = .next t ∧ stores 4 t))

/-- Queue instructions of S-cells (R107, R111, R113, R115): with room and credit, or a message or cue there, they take effect. -/
def Obligations.SQueues : Prop :=
  ∀ (c : CellAddr) (i : Nat) (hw : SHw) (s : State), SReady c i hw s →
    let a := c.toNat
    let x := s.sst a
    let n := sEp i
    let o := x.reg (sCa i)
    (sOp i = 0x30 → x.poison (sCa i) = false → s.cueCause a n = none →
      let r := s.cueSend a n o
      r.1 = true → exec (.cue c hw) s = .next (r.2.sDone a (r.2.sst a))) ∧
    (sOp i = 0x31 → s.recvCause a n true = none → s.hasMsg a n = true →
      let q := s.readCue a n []
      q.2.fenced a = false →
      exec (.cuew c hw) s = .next ((q.2.takeCue a n).sDone a (((q.2.takeCue a n).sst a).setReg (sGd i) (s.headCue a n).1 q.1))) ∧
    (sOp i = 0x32 → x.poison (sGd i) = false → x.poison (sCa i) = false →
      let k := x.reg (sGd i)
      s.sendCause a n k = none → s.bankCause a o (32 * k) 32 = none →
      (s.epSend a n (List.replicate k ⟨[], false⟩)).1 = true →
      let g := s.readRun a o k hw.ecc
      let r := g.2.epSend a n g.1
      g.2.fenced a = false → exec (.sSend c hw) s = .next (r.2.sDone a (r.2.sst a))) ∧
    (sOp i = 0x33 → x.poison (sCa i) = false → s.recvCause a n false = none → s.hasMsg a n = true →
      s.bankCause a o (32 * s.headLen a n) 32 = none →
      let r := s.readHead a n hw.ecc
      r.2.fenced a = false →
      let t := (r.2.consume a n r.1).writeWords a o r.1
      exec (.sRecv c hw) s = .next (t.sDone a ((t.sst a).setReg (sGd i) r.1.length false))) ∧
    (sOp i = 0x34 → x.poison (sCa i) = false → epPair (s.ep a n).cfg = true → n % 2 = 0 → s.recvCause a n false = none →
      s.recvCause a (n + 1) false = none → s.hasMsg a n = true → s.hasMsg a (n + 1) = true →
      let first := x.pred (bits (sFunc i) 0 3) != bitAt (sFunc i) 3
      let keep := if first then n else n + 1
      let other := if first then n + 1 else n
      s.bankCause a o (32 * s.headLen a keep) 32 = none →
      let r := s.readHead a keep hw.ecc
      r.2.fenced a = false →
      let t := (r.2.consume a keep r.1).writeWords a o r.1
      let t := t.consume a other (t.peekHead a other)
      exec (.psel c hw) s = .next (t.sDone a ((t.sst a).setReg (sGd i) r.1.length false))) ∧
    (sOp i = 0x31 → s.recvCause a n true = none → s.hasMsg a n = false → exec (.cuew c hw) s = .next (s.waitRecv a n))

/-- Remote writes, grant requests, barriers and flags of S-cells (R110, R113, R116, R136, R172, R173). -/
def Obligations.SMesh : Prop :=
  ∀ (c : CellAddr) (i : Nat) (hw : SHw) (s : State), SReady c i hw s →
    let a := c.toNat
    let x := s.sst a
    let obj := sObject x i
    let wait := fun (w : WaitOn) => s.engineWait a w
    (sOp i = 0x35 → x.poison (sGa i) = false → x.poison (sGb i) = false →
      let k := sFunc i + 1
      let o := x.reg (sGa i)
      let d := x.reg (sGb i)
      s.bankCause a o (32 * k) 32 = none → d % 32 = 0 →
      ∀ p po, s.mapAddress d = some (p, po) → po % 0x100000 + 32 * k ≤ 0x100000 →
      let g := s.readRun a o k hw.ecc
      g.2.fenced a = false →
      let t := g.2.sendPacket a (mkPacket 1 1 (g.2.epoch4 a) a p (spAddr p po) 0 g.1)
      exec (.post c hw) s = .next (t.sDone a (t.sst a))) ∧
    (sOp i = 0x36 → (s.cell a).eng.wait = .grant → ∀ v, x.answer = some v →
      exec (.greq c hw) s = .next (s.sDone a (({ x with answer := none } : SSt).setReg (sGd i) v false))) ∧
    (sOp i = 0x36 → (s.cell a).eng.wait ≠ .grant → x.poison (sGa i) = false → s.bankCause a (x.reg (sGa i)) 32 1 = none →
      let r := s.readSpan a (x.reg (sGa i)) 32 hw.ecc
      let w := ofLE (r.1.take 8) ||| (if (r.1.drop 8).all (· == 0) then 0 else 2 ^ 26)
      let t := r.2.2
      t.fenced a = false → r.2.1 = false → ∀ p, t.physical (grTarget w) = some p → t.laneLoad a < 8 →
      exec (.greq c hw) s = .next ((t.sendItem ⟨8, 0, p, 0, a, 0, 0, w, 0⟩).engineWait a .grant)) ∧
    (sOp i = 0x37 → s.objectCause a i false = none →
      (s.barDone a obj = true → s.laneLoad a < 8 → exec (.bara c hw) s = .next ((s.arrive a obj).sDone a ((s.arrive a obj).sst a))) ∧
      (s.barDone a obj = false → exec (.bara c hw) s = .next (wait (.barrier obj)))) ∧
    (sOp i = 0x38 → s.objectCause a i false = none →
      (s.barDone a obj = true → exec (.barw c hw) s = .next (sNext s a x ((s.cell a).eng.pc + 1))) ∧
      (s.barDone a obj = false → exec (.barw c hw) s = .next (wait (.barrier obj)))) ∧
    (sOp i = 0x39 → s.objectCause a i true = none → x.poison (sGd i) = false → s.laneLoad a < 8 →
      let t := s.sendItem ⟨6, 0, a, 0, a, 0, 0, obj, x.reg (sGd i)⟩
      exec (.flago c hw) s = .next (t.sDone a (t.sst a))) ∧
    (sOp i = 0x3A → s.objectCause a i true = none →
      exec (.flagr c hw) s = .next (sNext s a (x.setReg (sGd i) (SMap.getD (s.xr (a / 32)).flags obj 0) false) ((s.cell a).eng.pc + 1)))

/-- KVREQ and KVPOLL (R234, R236): a request becomes a ticket with a number of its own, which gd takes; polling gives its status and
quantity, 0xFF for a number no ticket has, and a final status retires the ticket. -/
def Obligations.STickets : Prop :=
  ∀ (c : CellAddr) (i : Nat) (hw : SHw) (s : State), SReady c i hw s →
    let a := c.toNat
    let x := s.sst a
    let o := sAddress x i
    let pc := (s.cell a).eng.pc
    x.poison (sGa i) = false →
    (sOp i = 0x3B → s.paired = false → s.bankCause a o 64 1 = none →
      (4096 ≤ s.kv.tickets.length → exec (.kvreq c hw) s = .next (s.engineWait a .ticket)) ∧
      (s.kv.tickets.length < 4096 →
        let g := s.readSpan a o 64 hw.ecc
        g.2.2.fenced a = false → g.2.1 = false →
        let n := g.2.2.newTicket
        let t := n.2.modKv fun v => { v with tickets := SMap.put v.tickets n.1 (ticketOf a g.1) }
        exec (.kvreq c hw) s = .next (t.sDone a ((t.sst a).setReg (sGd i) n.1 false)))) ∧
    (sOp i = 0x3C →
      let n := x.reg (sGa i) % 2 ^ 32
      (SMap.get? s.kv.tickets n = none → exec (.kvpoll c hw) s = .next (sNext s a (x.setReg (sGd i) 0xFF false) (pc + 1))) ∧
      (∀ k, SMap.get? s.kv.tickets n = some k →
        let k := s.outcomeOf k
        let t := if k.status ≠ 0 then s.retire n k else s
        exec (.kvpoll c hw) s = .next (t.sDone a (x.setReg (sGd i) (k.status + (k.qty % 2 ^ 24) <<< 8) false))))

/-- Guards and lockstep of every S-cell instruction (R106, R119): with its guard false it passes and the next one follows; at a lockstep
mismatch, or an uncorrectable read of the scene store as it is fetched (R207), the cell fences; a mismatch changes no byte of memory. -/
def Obligations.SGuard : Prop :=
  ∀ r ∈ ([(.sNop, 0x00), (.sAdd, 0x01), (.sSub, 0x02), (.sAnd, 0x03), (.sOr, 0x04), (.sXor, 0x05), (.shl, 0x06), (.shr, 0x07),
      (.sar, 0x08), (.sMul, 0x09), (.mulhu, 0x0A), (.sMin, 0x0B), (.sMax, 0x0C), (.minu, 0x0D), (.maxu, 0x0E), (.addi, 0x10),
      (.andi, 0x11), (.ori, 0x12), (.xori, 0x13), (.shli, 0x14), (.shri, 0x15), (.sari, 0x16), (.seti, 0x18), (.appi, 0x19),
      (.cmp, 0x1C), (.cmpi, 0x1D), (.plog, 0x1E), (.fadd, 0x24), (.fmul, 0x25), (.fcmp, 0x26), (.fcvt, 0x27), (.br, 0x28),
      (.brl, 0x29), (.jr, 0x2A), (.sLd, 0x20), (.ldw, 0x21), (.sSt, 0x22), (.stw, 0x23), (.cue, 0x30), (.cuew, 0x31),
      (.sSend, 0x32), (.sRecv, 0x33), (.psel, 0x34), (.post, 0x35), (.greq, 0x36), (.bara, 0x37), (.barw, 0x38), (.flago, 0x39),
      (.flagr, 0x3A), (.kvreq, 0x3B), (.kvpoll, 0x3C), (.rand, 0x3D), (.ctr, 0x3E), (.sEnd, 0x3F)] : List ((CellAddr → SHw → Instr) × Nat)),
    ∀ (c : CellAddr) (i : Nat) (hw : SHw) (s : State), cellIs .s c = true → s.insAt c.toNat = some i → sOp i = r.2 →
      (hw.store = true → exec (r.1 c hw) s = .next (s.storeFault c.toNat)) ∧
      (hw.store = false → hw.lock = none → sGuard (s.sst c.toNat) i = false → s.fenced c.toNat = false →
        (s.cell c.toNat).eng.pc + 1 < s.progLen c.toNat →
        exec (r.1 c hw) s = .next (s.modEng c.toNat fun e => goesOn e (e.pc + 1) s.now)) ∧
      (∀ h, hw.store = false → hw.lock = some h → h.point < 6 → ∃ t, exec (r.1 c hw) s = .next t ∧ t = s.lockstepFault c.toNat h ∧ t.mem = s.mem)

/-! ### M-cells -/

namespace Sys2Proof.Says

/-- An M-cell runs within a beat, at descriptor `d` of its chain. -/
abbrev MReady (c : CellAddr) (d : Nat) (s : State) : Prop :=
  cellIs .m c = true ∧ s.mRuns c.toNat = true ∧ s.descAt c.toNat (s.mst c.toNat).desc = some d

/-- Nothing added to an accumulator: no injection. -/
def noExtra : FV := .fin false 0 0

end Sys2Proof.Says

/-- K_STEP (R53, R55): with its operands there and no injection armed, every accumulator of the block takes its old value plus the
products of its row and column, summed exactly and rounded once, but where the row or the column is poisoned (R44); a K-step covers every
row of the block, or in output-stationary flow those of the 32-row sub-block under way (R64, R65); the others keep theirs, the old values
stay for the check, and the K-step goes to its check. Reading the operands gives every row and column asked for and, with no error met, leaves everything but registers
(counts of poison read) as it was (R63, R71, R73). -/
def Obligations.MatrixStep : Prop :=
  (∀ (s : State) (a d : Nat) (rows : List Nat) (ecc : List EccEvent),
    let q := s.readOps a d rows ecc
    q.1.rows.length = rows.length ∧ q.1.cols.length = dCols d ∧ (ecc = [] → q.2 = { s with regs := q.2.regs })) ∧
  ∀ (c : CellAddr) (d : Nat) (hw : MHw) (s : State), MReady c d s →
    let a := c.toNat
    let x := s.mst a
    x.phase = .stream → s.aReady a d = true → ¬(x.kIdx = 0 ∧ (dInit d = 1 ∨ x.sub = 0 ∧ 2 ≤ x.waitingBlocks)) → hw.wrong = [] → dCols d ≤ 32 →
    let rows := stepRows d x.sub
    let q := (s.modM a fun x => { x with old := x.acc, oldPoison := x.accPoison }).readOps a d rows hw.ecc
    q.2.fenced a = false → q.2.armed a d = none →
    ∃ t, exec (.kStep c hw) s = .next t ∧ OnlyCell a q.2 t ∧ t = { q.2 with cells := t.cells } ∧
      (t.mst a).phase = .check ∧ (t.mst a).group = 0 ∧ (t.mst a).ops = q.1 ∧ (t.mst a).old = (q.2.mst a).old ∧
      (∀ j r n, rows[j]? = some r → n < dCols d →
        let u := nth q.1.rows j ([], false)
        let v := nth q.1.cols n ([], false)
        SMap.getD (t.mst a).acc (accKey r n) 0 =
          if u.2 = true ∨ v.2 = true then SMap.getD (q.2.mst a).old (accKey r n) 0
          else accStep (dInt d) (SMap.getD (q.2.mst a).old (accKey r n) 0) (products u.1 v.1) noExtra) ∧
      (∀ k, (∀ r n, r ∈ rows → n < dCols d → k ≠ accKey r n) → SMap.getD (t.mst a).acc k 0 = SMap.getD (q.2.mst a).acc k 0)

/-- A K-step of integers without a fault never fails its checks (R75-R78): whatever the operands and old values, no row and no column unit
of the new accumulators mismatches. -/
def Obligations.CleanIntegerStepPasses : Prop :=
  ∀ (x : MSt) (o : KOps) (rows : Nat), x.acc = x.old → o.cols.length ≤ 32 →
    let y := { (x.step true o (List.range rows) none []) with ops := o }
    (∀ r, r < rows → (rowUnit y r r).check true ≠ .bad) ∧
    ∀ (rs : List Nat) (n : Nat), (∀ r ∈ rs, r < rows) → n < 32 → (colUnit y (rs.map fun r => (r, r)) n).check true ≠ .bad

/-- K_STEP_CHECK (R77, R80-R82): the check groups one after the other; a mismatch means that some row or column unit is bad, and under
policy 0 the group's K-step is replayed, under 2 it is recorded and counted, otherwise it is a checksum fault; with no group left the
K-step is done. -/
def Obligations.MatrixCheck : Prop :=
  ∀ (c : CellAddr) (d : Nat) (s : State), MReady c d s → (s.mst c.toNat).phase = .check →
    let a := c.toNat
    let x := s.mst a
    (groupsFrom d x.sub x.group = [] → exec (.kStepCheck c) s = .next (s.kDone a d)) ∧
    ∀ g gs, groupsFrom d x.sub x.group = g :: gs →
      let r := checkGroup (dInt d) x (groupPlaces d g) (Config.freeValue s.freeIdx).toNat
      let t := State.inc { s with freeIdx := s.freeIdx + 1 } (Reg.MC_CK_COUNTS_skip_count a) r.skips
      (r.hit = true ↔ (∃ k ∈ groupRows d g, (rowUnit x k k).check (dInt d) = .bad) ∨
        ∃ n, n < x.ops.cols.length ∧ (colUnit x (groupPlaces d g) n).check (dInt d) = .bad) ∧
      (r.hit = false → exec (.kStepCheck c) s = .next (t.runChecks a d gs)) ∧
      (r.hit = true →
        let u := t.marginRecord a r false
        (dPolicy d = 0 → exec (.kStepCheck c) s = .next (u.modM a fun x => { x with phase := .replay, group := g })) ∧
        (dPolicy d = 2 → exec (.kStepCheck c) s = .next ((u.inc (Reg.MC_CK_COUNTS_replay_ok_count a)).runChecks a d gs)) ∧
        (dPolicy d ≠ 0 → dPolicy d ≠ 2 → exec (.kStepCheck c) s = .next (u.checksumFault a)))

/-- Descriptors, the end of a K-step, replays and drains (R68, R69, R71, R72, R80): a descriptor starts at block (0, 0) with its cue
consumed, and one read from the scene store with an uncorrectable word fences the cell (R207); a K-step is followed by the next; a replay starts from the old values and a good one goes on with the
next group; a drained row goes to its bank or its endpoint. -/
def Obligations.MatrixChain : Prop :=
  ∀ (c : CellAddr) (d : Nat) (hw : MHw) (s : State), MReady c d s →
    let a := c.toNat
    let x := s.mst a
    (x.phase = .idle → x.cues = [] →
      (∀ ecc, exec (.mDescriptorDecode ⟨c, ecc, true⟩) s = .next (s.storeFault a)) ∧
      (dWaitCue d = false → ∀ ecc, exec (.mDescriptorDecode ⟨c, ecc, false⟩) s = .next ((s.startBlock a d 0 0).mProgress a)) ∧
      (dWaitCue d = true → s.hasMsg a (dCueEp d) = true → ∀ ecc,
        let q := (s.readCue a (dCueEp d) ecc).2
        q.fenced a = false →
        exec (.mDescriptorDecode ⟨c, ecc, false⟩) s = .next (((q.takeCue a (dCueEp d)).startBlock a d 0 0).mProgress a)) ∧
      (dWaitCue d = true → s.hasMsg a (dCueEp d) = false → ∀ ecc,
        exec (.mDescriptorDecode ⟨c, ecc, false⟩) s = .next (s.waitRecv a (dCueEp d)))) ∧
    (x.phase = .check → groupsFrom d x.sub x.group = [] → s.fenced a = false → x.kIdx + 1 < dSteps d →
      ∃ t, exec (.kStepCheck c) s = .next t ∧ OnlyCell a s t ∧ t = { s with cells := t.cells } ∧
        t.mst a = { x with kIdx := x.kIdx + 1, phase := .stream }) ∧
    (x.phase = .replay →
      let rows := groupRows d x.group
      let q := (s.modM a fun x => x.restore rows).readOps a d rows hw.ecc
      (q.2.fenced a = true → exec (.replayDone c hw) s = .next q.2) ∧
      (q.2.fenced a = false →
        let t := q.2.modM a fun x => x.step (dInt d) q.1 rows none hw.wrong
        let r := checkGroup (dInt d) { t.mst a with ops := q.1 } (foldIdx (fun j acc r => acc ++ [(j, r)]) 0 [] rows)
          (Config.freeValue t.freeIdx).toNat
        let t := State.inc { t with freeIdx := t.freeIdx + 1 } (Reg.MC_CK_COUNTS_skip_count a) r.skips
        (r.hit = true → exec (.replayDone c hw) s = .next ((t.marginRecord a r true).checksumFault a)) ∧
        (r.hit = false →
          let e := fourthIn1s t.now (t.cell a).eng.corrected
          let u := (t.modEng a fun y => { y with corrected := e.2 }).inc (Reg.MC_CK_COUNTS_replay_ok_count a)
          (e.1 = true → exec (.replayDone c hw) s = .next (u.checksumFault a)) ∧
          (e.1 = false →
            exec (.replayDone c hw) s = .next ((u.modM a fun y => { y with phase := .check, group := x.group + 1 }).mProgress a))))) ∧
    (∀ r rs e, x.drain = r :: rs → s.descAt a r.desc = some e →
      (dOqueue e = false → ∀ ecc,
        let t := s.drainBank a e r ecc
        (t.fenced a = false → exec (.drainRow ⟨c, ecc⟩) s = .next ((t.rowGone a e r).chainEnd a ecc)) ∧
        (t.fenced a = true → exec (.drainRow ⟨c, ecc⟩) s = .next t)) ∧
      (dOqueue e = true → ∀ ecc,
        let t := s.epSend a (dOep e) (drainGrans e r)
        (t.1 = true → exec (.drainRow ⟨c, ecc⟩) s = .next ((t.2.rowGone a e r).chainEnd a ecc)) ∧
        (t.1 = false → exec (.drainRow ⟨c, ecc⟩) s = .next (t.2.engineWait a (.queue (dOep e))))))

/-! ### Scenes and fences -/

/-- Beats and scene changes (R211, R214, R215): a ready cell starts a beat at program counter 0 and descriptor 0; its FILLED windows with
`auto_free` are FREE again; a cell between scenes with the next image in its store takes it, registers cleared, first, and an uncorrectable
word met there fences it (R207). The first beat of all waits until the package is loaded, and then the load grants go (R263; that wait is
the model's, log 129). A cell done with its entry arrives at its group's barrier. -/
def Obligations.Beats : Prop :=
  ∀ (c : CellAddr) (s : State), cellValid c.toNat = true → s.mayRun c.toNat = true →
    let a := c.toNat
    let x := s.cell a
    let s0 := if s.pkg.any (·.loading) then s.dropLoadGrants else s
    (s.loading = true → ∀ store, exec (.beatStart ⟨c, store⟩) s = .next s) ∧
    (s.loading = false → x.scene.phase = .ready → x.scene.entryDone = false →
      ∀ store, ∃ t, exec (.beatStart ⟨c, store⟩) s = .next t ∧ OnlyCell a s0 t ∧ t = { s0 with cells := t.cells } ∧
        t.cell a = { x with
          eng := { x.eng with pc := 0, run := 1, wait := .none, progressAt := s.now }
          m := { x.m with desc := 0, phase := .idle }
          scene := { x.scene with phase := .inBeat }
          grants := (t.cell a).grants } ∧
        (t.cell a).grants.static = x.grants.static ∧ (t.cell a).grants.load = (s0.cell a).grants.load ∧
        ∀ n, SMap.get? (t.cell a).grants.wins n = (SMap.get? x.grants.wins n).map fun w =>
          if w.st = .filled ∧ winAutoFree w.decl then { w with st := .free } else w) ∧
    (s.loading = false → x.scene.phase = .changing →
      let e := seNext (x.scene.entryWord x.scene.entry)
      let w := x.scene.entryWord e
      (∀ im, x.scene.store.find? (fun im => im.sceneNo == seScene w) = some im →
        ∃ t, exec (.beatStart ⟨c, false⟩) s = .next t ∧ t.regs = s.regs ∧ t.mem.cells = s.mem.cells ∧ t.chans = s.chans ∧
          (t.cell a).v = .init ∧ (t.cell a).sc = .init ∧ (t.cell a).m = .init ∧
          (t.cell a).eng.pc = 0 ∧ (t.cell a).eng.beats = 0 ∧ (t.cell a).eng.cause = 0 ∧
          (t.cell a).scene.cur = some im ∧ (t.cell a).scene.entry = e ∧ (t.cell a).scene.beatsLeft = seBeats w ∧
          (t.cell a).scene.phase = if seActGate w then .gated else .inBeat) ∧
      (x.scene.store.find? (fun im => im.sceneNo == seScene w) = none →
        exec (.beatStart ⟨c, false⟩) s = .next (s0.modScene a fun y => { y with phase := .refill, entry := e })) ∧
      exec (.beatStart ⟨c, true⟩) s = .next (s0.storeFault a)) ∧
    (x.scene.phase = .ready → x.scene.entryDone = true →
      let obj := s.sceneBarrier x.scene.group
      exec (.sceneBarrierArrival c) s = .next (State.arrive (s.modCell a fun y =>
        { y with scene := { y.scene with phase := .atBarrier }
                 eng := { y.eng with run := 3, wait := .barrier obj, waitAt := s.now } }) a obj))

/-- Stalls and refills (R200, R207, R215, R292): a wait at a barrier of `stall_limit` is marked from its first declaration on; a cell
without progress in a beat for that long, while another of its group has ended one, is a fence condition of code 0x08; at restart a cleared
store is filled from the package's images, or from the scene reserve where the package gives one, and an uncorrectable read on the way is a
fence condition of code 0x04. -/
def Obligations.Stalls : Prop :=
  ∀ (c : CellAddr) (s : State), cellValid c.toNat = true →
    let a := c.toNat
    let x := s.cell a
    (∀ obj, x.eng.wait = .barrier obj → s.isIn .running = true → x.eng.waitAt + s.stallNs ≤ s.now →
      exec (.barrierStall c) s = .next (s.modEng a fun e => { e with barStall := some (e.barStall.getD s.now) }).watch) ∧
    (s.mayRun a = true → x.scene.phase = .inBeat → x.eng.wait = .none → x.eng.progressAt + s.stallNs ≤ s.now →
      (∃ p ∈ s.cells, p.1 ≠ a ∧ p.2.scene.playing = true ∧ p.2.scene.group = x.scene.group ∧ x.eng.progressAt < p.2.eng.beatAt) →
      exec (.progressStuck c) s = .next (s.fenceCell a 0x08)) ∧
    (s.isIn .recovering = true → s.get Reg.RECOVERY_STATUS_phase = 6 → s.rcv.loadStep = 2 → s.fwBusy = false → x.scene.playing = true →
      x.scene.store = [] → s.fenced a = false →
      (s.reserveOf x.scene.logical = none →
        ∃ t, exec (.sceneRefillDone c false) s = .next t ∧ OnlyCell a s t ∧
          t.cell a = { x with scene := { x.scene with store := s.imagesOf x.scene.logical } } ∧ t.mem = s.mem ∧ t.regs = s.regs) ∧
      (∀ r o bs, s.reserveOf x.scene.logical = some (r, o, bs) →
        let g := s.readWords a o 1 [] (bs.length / 32)
        exec (.sceneRefillDone c false) s = .next (g.2.modScene a fun y =>
          { y with store := imagesFrom (engineOf x.scene.logical) (gransBytes g.1) (s.imagesOf x.scene.logical).length })) ∧
      exec (.sceneRefillDone c true) s = .next (s.storeFault a))

/-- A fence condition at a cell that is not fenced, in a block whose controller holds no fence (R14-R16): the cell is fenced with its
code, the controller names it, its engine stops and loses its registers, and a report goes up the sideband; no other cell changes. A second
cell of the block fences the whole block with code 0x09 (R15). FENCE_REMOVE (R17, R312): firmware removes the fence of a cell, which returns
struck; a cell of a fenced block stays fenced until the block's fence goes, and that takes the fences of its cells. -/
def Obligations.Fences : Prop :=
  (∀ (c : CellAddr) (s : State), cellValid c.toNat = true → s.firmware = true →
      let a := c.toNat
      let blk := s.flag (Reg.BLK_STATUS_block_fenced (a / 32))
      (blk = true → exec (.fenceRemove c false) s = .next s ∧ exec (.fenceRemove c true) s = .next (s.unfenceBlock (a / 32))) ∧
      (blk = false → s.fenced a = true →
        ∃ t, exec (.fenceRemove c false) s = .next t ∧ t = s.unfence a ∧ t.fenced a = false ∧ t.get (Reg.CELL_EPOCH_fence_cause a) = 0)) ∧
  ∀ (c : CellAddr) (cause : Nat) (s : State), cellValid c.toNat = true → s.fenced c.toNat = false → cause < 32 →
    let a := c.toNat
    let t := s.fenceCell a cause
    (s.flag (Reg.BLK_STATUS_cell_fence_valid (a / 32)) = false →
      t.fenced a = true ∧ t.get (Reg.CELL_EPOCH_fence_cause a) = cause ∧ t.flag (Reg.BLK_STATUS_cell_fence_valid (a / 32)) = true ∧
        t.get (Reg.BLK_STATUS_fenced_cell (a / 32)) = cOf a ∧ (t.cell a).eng.run = 6 ∧ (t.cell a).v = .init ∧
        (t.cell a).sc = .init ∧ (t.cell a).m = .init ∧ OnlyCell a s t ∧ t.mem = s.mem ∧
        t.mesh.reports = s.mesh.reports ++ [⟨a, cause, 0, faultWay 12 (gOf a)⟩]) ∧
    (s.flag (Reg.BLK_STATUS_cell_fence_valid (a / 32)) = true →
      t.flag (Reg.BLK_STATUS_block_fenced (a / 32)) = true ∧ t.flag (Reg.BLK_STATUS_cell_fence_valid (a / 32)) = false ∧
        (∀ k ∈ blockCells (a / 32), t.fenced k = true) ∧ t.get (Reg.CELL_EPOCH_fence_cause a) = 9 ∧ t.mem = s.mem ∧
        t.mesh.reports = s.mesh.reports ++ [⟨a, 9, 0, faultWay 12 (gOf a)⟩])

/-! ### Scratchpads and grants -/

/-- Remote writes and the write-back of corrected words (R16, R26, R129, R132, R137, R144, R214): under a static grant the granules land whole
and no other byte changes; without a grant the write is refused, counted with its writer and reason, and nothing lands; a fenced cell's are
dropped and counted, those during a strike dropped uncounted; between scenes, and while the cell's clock stands, they are held. The credit
that a packet's granules hold is owed back as the write leaves the port. -/
def Obligations.RemoteWrites : Prop :=
  (∀ (p : Nat) (s : State), exec (.correctedWriteBack p) s =
    .next { s with mem := { s.mem with writeBack := NSet.del s.mem.writeBack (p / 32) } }) ∧
  ∀ (c : CellAddr) (w : RemWrite) (ws : List RemWrite) (d o : Nat) (s : State),
    cellValid c.toNat = true → (s.cell c.toNat).port.writes = w :: ws → spDecode w.addr = some (d, o) →
    let a := c.toNat
    let n := 32 * w.grans.length
    let p := (s.modPort a fun p => { p with writes := ws }).owe (a / 32) false w.owed
    (s.gated a = true → exec (.remoteWrite c) s = .next s) ∧
    (s.gated a = false → s.striking = true → exec (.remoteWrite c) s = .next p) ∧
    (s.striking = false → s.fenced a = true → exec (.remoteWrite c) s = .next (p.inc (Reg.BLK_STATUS_fenced_drop_count (a / 32)))) ∧
    (s.striking = false → s.fenced a = false → (s.cell a).scene.phase = .changing → exec (.remoteWrite c) s = .next s) ∧
    (s.striking = false → s.gated a = false → s.fenced a = false → (s.cell a).scene.phase ≠ .changing →
      (p.judge a w.writer o n = .static → o % 32 = 0 → (∀ g ∈ w.grans, g.data.length = 32) →
        ∃ t, exec (.remoteWrite c) s = .next t ∧ t.bytes (spAddr a o) n = w.grans.flatMap (·.data) ∧
          (∀ x, x < spAddr a o ∨ spAddr a o + n ≤ x → t.byte x = s.byte x) ∧ t.regs = s.regs ∧ t.cells = p.cells ∧
          (∀ k, k < w.grans.length → t.mem.spPoison.contains (spWord a o + k) = (nth w.grans k ⟨[], false⟩).poison)) ∧
      (∀ k v, p.judge a w.writer o n = .window k → p.win a k = some v →
        let t := p.writeWords a o w.grans
        exec (.remoteWrite c) s = .next ((t.setWin a k { v with landed := v.landed + n }).fillCheck a k)) ∧
      (∀ r, p.judge a w.writer o n = .refused r →
        ∃ t, exec (.remoteWrite c) s = .next t ∧ t.mem = s.mem ∧ t.cells = p.cells ∧
          t.get (Reg.SP_GRANT_COUNTS_last_writer a) = w.writer % 2 ^ (Reg.SP_GRANT_COUNTS_last_writer a).w ∧
          t.get (Reg.SP_GRANT_COUNTS_last_reason a) = r % 2 ^ (Reg.SP_GRANT_COUNTS_last_reason a).w ∧
          t.mesh.reports = s.mesh.reports ++ [⟨a, 0, 2, faultWay 12 (gOf a)⟩]))

/-- Grant requests (Table 5.7, R135, R136): ACQUIRE of a FREE window grants it to the requester; RELEASE of a granted window lowers its
count; FREE of a FILLED one frees it; each is answered on virtual channel 2, and a request that does not fit leaves the window as it was;
the answer reaches the S-cell that waits for it. During a strike a request is discarded (R144). -/
def Obligations.Grants : Prop :=
  ∀ (c : CellAddr) (it : Item) (rest : List Item) (s : State), cellValid c.toNat = true → (s.cell c.toNat).port.inbox = it :: rest →
    s.gated c.toNat = false →
    let a := c.toNat
    let p := s.modPort a fun p => { p with inbox := rest }
    let r := it.w1
    let reply := fun (code : Nat) (t : State) => t.sendItem ⟨9, 0, it.src, 0, a, 0, 0, code, 0⟩
    (∀ w, it.ty = 8 → s.striking = false → (s.cell a).scene.phase ≠ .changing → s.win a (grWindow r) = some w → grClean r = true →
      (grType r = 0 → writerAllowed w.decl it.src = true → countOk w.decl (grCount r) = true →
        (w.st = .free → exec (.grantAcquire c) s = .next (reply 0 (p.setWin a (grWindow r)
          { w with st := .granted, writer := it.src, count := grCount r, landed := 0 }))) ∧
        (w.st ≠ .free → exec (.grantAcquire c) s = .next (reply 1 (p.inc (Reg.SP_GRANT_COUNTS_busy_count a))))) ∧
      (grType r = 0 → (writerAllowed w.decl it.src && countOk w.decl (grCount r)) = false →
        exec (.grantAcquire c) s = .next (reply 2 p)) ∧
      (grType r = 1 → writerAllowed w.decl it.src = true → countOk w.decl (grCount r) = true → w.writer = it.src → w.st = .granted →
        exec (.grantRelease c) s =
          .next (reply 0 ((p.setWin a (grWindow r) { w with count := min w.count (grCount r) }).fillCheck a (grWindow r)))) ∧
      (grType r = 2 → grCount r = 0 → w.st = .filled → it.src / 32 = a / 32 → cOf it.src = 6 → it.src < 0xF000 →
        exec (.grantFree c) s = .next (reply 0 (p.setWin a (grWindow r) { w with st := .free })))) ∧
    (it.ty = 8 → s.striking = false → (s.cell a).scene.phase ≠ .changing → s.win a (grWindow r) = none →
      (grType r = 0 → exec (.grantAcquire c) s = .next (reply 3 p)) ∧ (grType r = 1 → exec (.grantRelease c) s = .next (reply 3 p)) ∧
      (grType r = 2 → exec (.grantFree c) s = .next (reply 3 p))) ∧
    (it.ty = 8 → s.striking = true →
      (grType r = 0 → exec (.grantAcquire c) s = .next p) ∧ (grType r = 1 → exec (.grantRelease c) s = .next p) ∧
      (grType r = 2 → exec (.grantFree c) s = .next p)) ∧
    (it.ty = 9 → exec (.grantAnswer c) s = .next (s.modCell a fun x =>
      { x with port := { x.port with inbox := rest }, sc := { x.sc with answer := some (it.w1 % 256) } }))

/-- The background sweep (R138-R143): a strip whose March passes leaves the bank's contents, and the next strip follows; the shadow strip
ends a pass and strip 0 follows; a failing run with spares left is repaired with them, and with none left it is a fence condition of code
0x05. -/
def Obligations.Sweep : Prop :=
  ∀ (c : CellAddr) (k : Nat) (s : State), cellValid c.toNat = true → k < bankCount c.toNat →
    let a := c.toNat
    let g := gOf a
    let b := s.bank a k
    (s.isIn .ready = true ∨ s.isIn .running = true) → s.flag (Reg.SP_SWEEP_CTRL_enable g) = true → s.fenced a = false →
    s.get (Reg.REGION_THERMAL_tstate g) < 2 →
    (b.strip < 256 → b.atT + s.sweepPeriod g * 1000000000 / 256 ≤ s.now →
      (∀ bad, exec (.sweepStrip c k [[]] bad) s =
        .next ((s.copyStrip a k b.strip bad).modBank a k fun x => { x with strip := b.strip + 1, atT := s.now })) ∧
      (∀ runs bad, ∃ t, exec (.sweepStrip c k runs bad) s = .next t ∧ t.mem.cells = s.mem.cells ∧
        (t.bank a k).strip = b.strip + 1 ∧ (t.bank a k).atT = s.now) ∧
      (∀ f fs, let r := assignSpares b.repairs (repairTargets b.strip (f :: fs))
        r.2 = true → ∃ t, exec (.sweepStrip c k [f :: fs, []] []) s = .next t ∧ t.mem.cells = s.mem.cells ∧ (t.bank a k).repairs = r.1 ∧
          (t.bank a k).strip = b.strip + 1 ∧ t.flag (Reg.SP_SWEEP_FAIL_repaired g) = true) ∧
      (∀ f fs, (assignSpares b.repairs (repairTargets b.strip (f :: fs))).2 = false →
        ∃ t, exec (.sweepStrip c k [f :: fs] []) s = .next t ∧ t.mem.cells = s.mem.cells ∧ t.fenced a = true ∧
          t.flag (Reg.SP_SWEEP_FAIL_unrepairable g) = true)) ∧
    (b.strip = 256 →
      (∀ bad, ∃ t, exec (.sweepStrip c k [[]] bad) s = .next t ∧ t.mem = s.mem ∧
        t.bank a k = { b with strip := 0, passes := b.passes + 1 } ∧ t.cells = s.cells) ∧
      ∀ runs bad, ∃ t, exec (.sweepStrip c k runs bad) s = .next t ∧ t.mem.cells = s.mem.cells ∧ (t.bank a k).strip = 0 ∧
        (t.bank a k).passes = b.passes + 1)

/-! ### The mesh -/

/-- What an output carries in a slot, the first that applies (R153): the flit of the circuit the slot is rigged for, which moves to the
next stage; a virtual-channel-3 flit where none has gone for 511 cycles; a packet flit; another virtual-channel-3 flit; nothing. Rigging
changes (R155, R161): rewrites wait at their crossing and take effect when the slot period starts, with the variant that waits and the flits
of circuits it does not share discarded and counted; a set of detours is installed exactly when no cycle arises (R165), and the distance
table follows it. -/
def Obligations.SlotsAndRigging : Prop :=
  (∀ (b out slot pick : Nat) (s : State), blkValid b = true → out ≤ 10 → slot < slotCount b out → s.slotRuns b = true →
    let x := s.xr b
    let last := SMap.getD x.lastVc3 out 0
    let v3 := if s.vc3Room b out then x.vc3Pick b out else none
    let pk := s.pktNext b out pick
    (∀ key f, s.slotFlit b out slot = some (key, f) →
      let m := stageMask (SMap.getD x.cur.stages key 0)
      let q := SMap.getD x.stages key ⟨[], 0⟩
      let t := if q.taken == 0 && (maskOuts m).any (fun o => lateFlit x.cur b o key f) then s.inc (Reg.XR_COUNTS_late_count b) else s
      let u := if (q.take m out).taken = 0 then t.creditBack b (key / 16) false (key % 16) else t
      exec (.circuitSlot b out slot pick) s = .next ((u.modXr b fun y =>
        { y with stages := SMap.put y.stages key (q.take m out) }.fillStage key).flitOut b out { f with stage := u.nextStage b out f })) ∧
    (s.slotFlit b out slot = none →
      (∀ p, v3 = some p → (last = 0 ∨ last + 511 ≤ s.now) → exec (.circuitSlot b out slot pick) s = .next (s.vc3Move b out p)) ∧
      (∀ p, pk = some p → (v3 = none ∨ (last ≠ 0 ∧ s.now < last + 511)) → exec (.circuitSlot b out slot pick) s = .next (s.pktMove b out p)) ∧
      (∀ p, pk = none → v3 = some p → exec (.circuitSlot b out slot pick) s = .next (s.vc3Move b out p)) ∧
      (pk = none → v3 = none → exec (.circuitSlot b out slot pick) s = .next s))) ∧
  (∀ (b out slot pick : Nat) (s : State), blkValid b = true → out ≤ 10 → slot < slotCount b out → s.slotRuns b = false →
    exec (.circuitSlot b out slot pick) s = .next s) ∧
  ((∀ (edits : List RigEdit) (s : State), ∃ t, exec (.riggingRewrite edits) s = .next t ∧ t = { s with mesh := t.mesh } ∧
    ∀ b, blkValid b = true → t.xr b = { s.xr b with rewrites := (s.xr b).rewrites ++ edits.filter fun e => e.blk == b }) ∧
  (∀ (g : Nat) (s : State), regionValid g = true → (∃ b ∈ regionBlocks g, (s.xr b).periodAt < s.now / 32) →
    ∃ t, exec (.slotPeriodStart g) s = .next t ∧ t.cells = s.cells ∧ t.mem = s.mem ∧
      (∀ b ∈ regionBlocks g, t.xr b = { ((s.xr b).applyEdits).changeVariant.1 with periodAt := s.now / 32 } ∧
        (t.xr b).rewrites = [] ∧ (t.xr b).nextVariant = none ∧ (∀ n, (s.xr b).nextVariant = some n → (t.xr b).variant = n) ∧
        t.get (Reg.XR_COUNTS_rig_discard_count b) =
          satAdd (Reg.XR_COUNTS_rig_discard_count b).w (s.get (Reg.XR_COUNTS_rig_discard_count b))
            ((s.xr b).applyEdits).changeVariant.2) ∧
      ∀ b, b ∉ regionBlocks g → t.xr b = s.xr b) ∧
  ∀ (set : List (Nat × List Word64)) (s : State),
    (s.detoursOk set = true → exec (.detourInstall set) s = .next (s.setDetours set).publishDist ∧
      ∀ b, blkValid b = true → (∀ p ∈ set, p.1 = b → p.2.take 16 = s.detoursAfter set b) →
        ((s.setDetours set).xr b).detours = s.detoursAfter set b) ∧
    (s.detoursOk set = false → exec (.detourInstall set) s = .next s))

/-- Packets (R16, R163, R165, R170): the head of a packet fixes its output, or the packet is discarded and counted where its cell is
fenced or its way leads nowhere; a multicast packet takes the outputs of its group; a leaf that asks again gets its copy by unicast. -/
def Obligations.PacketRouting : Prop :=
  (∀ (b p : Nat) (f : Flit) (fs : List Flit) (s : State), blkValid b = true → p ≤ 10 →
    let q := SMap.getD (s.xr b).vc1 p .init
    q.flits = f :: fs → q.route = 0 → f.head = true →
    let h := headerOf f
    (h.mcast = false →
      let out := route (s.xr b) b h.dst (bits (h.w 2) 33 5)
      let cut := decide (4 ≤ out ∧ out ≤ 10) && s.fenced (b * 32 + (out - 4)) && !f.control
      let dead := s.deadEnd b out (decide (h.dst < 0xF000))
      let gone := s.dropPkt b p
      (cut = true → exec (.packetHop b p) s = .next (gone.inc (Reg.BLK_STATUS_fenced_drop_count b))) ∧
      (cut = false → dead = true → exec (.packetHop b p) s = .next (gone.inc (Reg.XR_COUNTS_unroutable_count b))) ∧
      (cut = false → dead = false →
        exec (.packetHop b p) s = .next (s.modPkt b p fun q => { q with route := 2 ^ out, taken := 0 }))) ∧
    (h.mcast = true → (∀ k, k < 7 → s.fenced (b * 32 + k) = false) → SMap.getD (s.xr b).groups h.group 0 % 2048 ≠ 0 →
      let head := headPacket (q.flits ++ SMap.getD (s.xr b).injPkts p [])
      ∃ t, exec (.multicastCopy b p) s = .next t ∧
        t.xr b = (s.modPkt b p fun q => { q with route := SMap.getD (s.xr b).groups h.group 0 % 2048, taken := 0 }).xr b ∧
        t.mesh.mcast = (if 4 ≤ p then (s.mesh.mcast.filter fun x => x.1 != h.src || x.2.tag != head.tag) ++ [(h.src, head)]
          else s.mesh.mcast) ∧
        t.cells = s.cells ∧ t.mem = s.mem)) ∧
  ∀ (b c d : Nat) (k p : Packet) (s : State), blkValid b = true → s.leafNak b = some (c, k) →
    s.mcastCopy c k.tag = some (d, p) →
    exec (.multicastNak b) s = .next (State.sendPacket (s.modPort c fun q => { q with pkts := q.pkts.drop 1 }) c
      (((p.setW 0 9 1 0).setW 0 48 16 k.src).setW 1 0 64 (spAddr k.src (p.addr % 2 ^ 24))).seal)

/-- The side lane and its trees (R154, R172, R173, R313): an item hops towards its cell; an arrival sets its port's bit in the mask of
its parity, and one of another epoch is dropped and counted; a completion turns the parity and goes down the tree; flag updates are ORed into the
word, and a new value goes down. As long as the current generation of a barrier misses a port nothing leaves; when its mask is full it is
cleared, and an arrival goes to the parent, or at the root a completion into the tree. -/
def Obligations.SideLane : Prop :=
  (∀ (b key : Nat) (e : CombineSt) (s : State), SMap.get? (s.xr b).combine key = some e →
      (e.mask e.parity ≠ e.childMask → s.combineUp b key = s) ∧
      (e.mask e.parity = e.childMask →
        let t := s.modXr b fun x => { x with combine := SMap.put x.combine key (e.setMask e.parity 0) }
        let w := key / 2 + e.parity * 4096
        s.combineUp b key = if e.parent = 15 then t.treePush b ⟨5, 0, 0xFFFF, 0, 0xFFFF, 0, 0, w, 0⟩
          else t.itemOut b e.parent ⟨4, 0, 0xFFFF, 0, 0xFFFF, 0, 0, w, 0⟩)) ∧
  ∀ (b : Nat) (s : State), blkValid b = true →
    let x := s.xr b
    (∀ p it rest, p ≤ 10 → SMap.getD x.vc2 p [] = it :: rest → s.slotRuns b = true →
      let pop := s.modXr b fun x => { x with vc2 := SMap.put x.vc2 p rest }.fillItems p
      let out := route x b it.dst (s.xr (it.src / 32)).home
      let dead := s.deadEnd b out (decide (it.dst < 0xF000))
      (4 ≤ it.ty → it.ty ≤ 7 → exec (.vc2ItemHop b p) s = .next s) ∧
      ((it.ty < 4 ∨ 7 < it.ty) →
        (4 ≤ out → out ≤ 10 → exec (.vc2ItemHop b p) s = .next (if s.itemRoom b out then pop.itemAt (b * 32 + (out - 4)) it else s)) ∧
        ((out < 4 ∨ 10 < out) → dead = true → exec (.vc2ItemHop b p) s = .next (pop.inc (Reg.XR_COUNTS_unroutable_count b))) ∧
        (out < 4 → dead = false → exec (.vc2ItemHop b p) s = .next (if s.itemRoom b out then pop.itemOut b out it else s)))) ∧
    (∀ port it, x.treeHead 4 = some (port, it) →
      let pop := s.modXr b fun x => x.treePop port
      let key := combKey false it.obj
      (s.staleItem it = true → exec (.barrierArrival b) s = .next (
        if 4 ≤ port ∧ port < 11 then pop.inc (Reg.CELL_EPOCH_epoch_drop_count (b * 32 + (port - 4))) else pop)) ∧
      (s.staleItem it = false → SMap.get? x.combine key = none → exec (.barrierArrival b) s = .next pop) ∧
      (∀ e, s.staleItem it = false → SMap.get? x.combine key = some e → (e.parent = 15 ∨ s.itemRoom b e.parent = true) →
        exec (.barrierArrival b) s = .next ((pop.modXr b fun x =>
          { x with combine := SMap.put x.combine key (e.setMask it.parity (e.mask it.parity ||| 2 ^ port)) }).combineUp b key))) ∧
    (∀ port it e, x.treeHead 5 = some (port, it) → SMap.get? x.combine (combKey false it.obj) = some e →
      (port = 15 → s.barred b it.obj = false) → s.downRoom b e.childMask = true → (e.parent = 15 ∨ s.itemRoom b e.parent = true) →
      let key := combKey false it.obj
      let t := (s.modXr b fun x =>
        { x.treePop port with combine := SMap.put x.combine key { e with parity := 1 - e.parity } }).downMesh b e.childMask it
      exec (.barrierCompletion b) s = .next (State.combineUp (State.sceneAtXr
        ((indices 7 fun k => bitAt e.childMask (4 + k)).foldl (fun s k => s.barrierAt (b * 32 + k) it.obj) t) b it.obj) b key)) ∧
    (∀ port it e, x.treeHead 6 = some (port, it) → SMap.get? x.combine (combKey true it.obj) = some e →
      let mine := fun (p : Nat × Item) => p.2.ty == 6 && p.2.obj == it.obj
      let live := x.treeHeads.filter fun p => mine p && !s.staleItem p.2
      let stale := x.treeHeads.filter fun p => mine p && s.staleItem p.2
      let v := live.foldl (fun v p => v ||| p.2.w2) 0
      let pop := stale.foldl (fun s p => s.treeDrop b p.1) (s.modXr b fun x => (live ++ stale).foldl (fun x p => x.treePop p.1) x)
      let put := pop.modXr b fun x => { x with combine := SMap.put x.combine (combKey true it.obj) { e with word := e.word ||| v } }
      (e.parent = 15 → e.word ||| v = e.word → exec (.flagUpdate b) s = .next put) ∧
      (e.parent = 15 → e.word ||| v ≠ e.word →
        exec (.flagUpdate b) s = .next (put.treePush b ⟨7, 0, 0xFFFF, 0, 0xFFFF, 0, 0, it.obj, e.word ||| v⟩)) ∧
      (e.parent ≠ 15 → s.itemRoom b e.parent = true → live ≠ [] →
        exec (.flagUpdate b) s = .next (pop.itemOut b e.parent ⟨6, 0, 0xFFFF, 0, 0xFFFF, 0, 0, it.obj, v⟩))) ∧
    (∀ port it e, x.treeHead 7 = some (port, it) → SMap.get? x.combine (combKey true it.obj) = some e →
      s.downRoom b e.childMask = true →
      exec (.flagValue b) s = .next ((s.modXr b fun x =>
        { x.treePop port with flags := SMap.put x.flags it.obj it.w2 }).downMesh b e.childMask it))

/-- Seams (R148, R149, R151): a bridge checks a flit time while its link is up; three failures within 1 ms hold the link for a wire test;
failed wires take spares or the link retrains in full; a failed training takes it down and reports it. A flit crosses whole when no bit of its
flit time changes: both checks pass, every sideband field and every data byte arrives as it was sent, and so do the returned credit, the fault
sideband's bits and the 64 bits of the side-lane fragment. -/
def Obligations.Seams : Prop :=
  (∀ (b d : Nat) (s : State), seamEnd b d = true →
    let e := d % 4
    let k := wireInto b d
    let up := fun (t : State) => t.setLink b e 2
    let trained := fun (t : State) => t.inc (Reg.SEAM_STATUS_retrain_count (bkG b) (seamLink b e))
    (∀ flips, s.linkUp b e = true → exec (.seamFlitTime b d flips) s = .next (s.seamTime b d flips)) ∧
    (s.linkUp b e = true → 3 ≤ ((s.wire k).fails.filter fun t => s.now < t + 1000000).length →
      ∃ t, exec (.seamErrorThreshold b d) s = .next t ∧ t.linkState b e = 3 ∧ t.linkUp b e = false ∧
        t.wire k = { s.wire k with fails := [], held := true } ∧ t.cells = s.cells ∧ t.mem = s.mem) ∧
    (s.linkState b e = 3 → ∀ bad,
      (bad = [] → exec (.seamWireTestDone b d bad false) s = .next (up s)) ∧
      (bad ≠ [] → bad.length ≤ s.spareCount b d → exec (.seamWireTestDone b d bad false) s =
        .next (up (trained (s.swapSpares b d (bad.map (· % 68)))))) ∧
      (s.spareCount b d < bad.length → exec (.seamWireTestDone b d bad false) s = .next (s.setLink b e 4)) ∧
      exec (.seamWireTestDone b d bad true) s = .next (s.setLink b e 4)) ∧
    (s.linkState b e = 4 →
      exec (.seamRetrainDone b d true) s = .next (up (trained s)) ∧
      ∃ t, exec (.seamRetrainDone b d false) s = .next t ∧ t.linkState b e = 5 ∧ (⟨b * 32, 0, 7, faultWay 12 (gOf (b * 32))⟩ : Report) ∈ t.mesh.reports)) ∧
  (∀ (f : Flit) (credit fault frag pos now : Nat), credit < 256 → fault < 256 → f.vc < 4 → f.stage < 16 → f.epoch < 16 → f.poison < 256 → frag < 2 ^ 64 → pos < 4 →
    let w := sideband (some f) credit fault frag pos
    ctrlOk w = true ∧ seamFlit f w f.data now = ({ f with atT := now }, true) ∧ bits w 24 1 = 1 ∧ bits w 38 8 = credit ∧
      bits w 46 8 = fault ∧ bits w 54 64 = frag ∧ bits w 118 2 = pos)


/-- The base-camp transport (R166-R168): the packet whose number is expected is accepted and the next one expected; a duplicate is
discarded, counted and acknowledged again; another is discarded with one NAK; a NAK and 4 us without progress send everything unacknowledged again, and after 16
times the block is fenced with code 0x0A; acknowledgements go after 16 packets or 1 us; a CREDIT packet returns credit. -/
def Obligations.Transport : Prop :=
  ∀ (b : Nat) (hub : Bool) (s : State), blkValid b = true →
    let t := s.tp b hub
    (∀ p rest, t.inq = p :: rest →
      let u := s.modTp b hub fun t => { t with inq := rest }
      let good := p.hOk && !p.linkErr
      (∀ dram ecc,
        (good = true → p.ty = 5 → exec (.transportReceive ⟨b, dram, ecc⟩ hub) s = .next (u.carriedBack b hub p)) ∧
        (good = true → p.pOk = true → p.ty < 5 → p.seq = t.expect →
          let v := (u.carriedBack b hub p).modTp b hub fun t =>
            { t with expect := (t.expect + 1) % 2 ^ 16, nakSent := false, accepted := t.accepted + 1
                     ackAt := if t.accepted = 0 ∧ t.owed = 0 then (u.carriedBack b hub p).now else t.ackAt }
          let v := v.accepted b hub p dram ecc
          exec (.transportReceive ⟨b, dram, ecc⟩ hub) s = .next (if 16 ≤ (v.tp b hub).accepted then v.sendAck b hub 5 else v)) ∧
        (good = true → p.pOk = true → p.ty < 5 → p.seq ≠ t.expect → (t.expect + 2 ^ 16 - p.seq) % 2 ^ 16 ≤ 64 →
          let d := if hub then u.hubDrop p.dst else u.inc (Reg.XR_COUNTS_pkt_drop_count b)
          exec (.transportReceive ⟨b, dram, ecc⟩ hub) s = .next ((d.owe b hub p.cost).sendAck b hub 5)) ∧
        (good = true → p.pOk = true → p.ty < 5 → 64 < (t.expect + 2 ^ 16 - p.seq) % 2 ^ 16 → p.seq ≠ t.expect →
          exec (.transportReceive ⟨b, dram, ecc⟩ hub) s = .next (u.rxDiscard b hub p)) ∧
        ((good = false ∨ p.pOk = false ∧ p.ty < 5) → exec (.transportReceive ⟨b, dram, ecc⟩ hub) s = .next (u.rxDiscard b hub p))) ∧
      (good = true → p.ty = 7 → exec (.transportCredit b hub) s = .next (u.credited b (!hub) p.credit)) ∧
      (good = true → p.ty = 6 → (hub = false ∨ p.dst = 0xF050) →
        exec (.transportNak b hub) s = .next ((u.carriedBack b hub p).goBack b (!hub))) ∧
      (∀ x q, good = true → p.ty = 6 → hub = true → p.dst ≠ 0xF050 → s.mcastCopy p.dst p.tag = some (x, q) →
        exec (.transportNak b hub) s = .next (u.tpSend (p.src / 32) false
          (((q.setW 0 9 1 0).setW 0 48 16 p.src).setW 1 0 64 (spAddr p.src (q.addr % 2 ^ 24))).seal))) ∧
    (t.unacked ≠ [] → t.progressAt + 4000 ≤ s.now →
      (t.resends < 16 → exec (.transportResendTimeout b hub) s = .next ((s.modTp b hub fun t =>
        { t with resends := t.resends + 1, progressAt := s.now, resend := t.unacked }).pumpAll b hub)) ∧
      (16 ≤ t.resends → ∃ u, exec (.transportResendTimeout b hub) s = .next u ∧
        u.flag (Reg.BLK_STATUS_block_fenced b) = true ∧ u.mem = s.mem ∧
        (⟨b * 32, 0x0A, 0, faultWay 12 (gOf (b * 32))⟩ : Report) ∈ u.mesh.reports)) ∧
    (t.ackAt + 1000 ≤ s.now → exec (.transportAckTimer b hub) s =
      .next (if t.accepted ≠ 0 then s.sendAck b hub 5 else if t.owed ≠ 0 then s.sendAck b hub 7 else s))

/-- Packets at a cell (R16, R166, R169): a fenced cell's are dropped and counted; one whose header check fails is dropped with a cell
fault; a WRITE becomes a remote write, poisoned whole when its payload check fails; a READ is answered with READ_DATA of the granules it
asks for; a MESSAGE goes to the endpoint of its channel, and READ_DATA is taken. The transport credit of a packet from base camp is owed back
as it is delivered or dropped (R167), a WRITE's with its remote write. -/
def Obligations.CellPackets : Prop :=
  ∀ (c : CellAddr) (p : Packet) (rest : List Packet) (s : State), cellValid c.toNat = true → (s.cell c.toNat).port.pkts = p :: rest →
    s.gated c.toNat = false →
    let a := c.toNat
    let u := s.modPort a fun q => { q with pkts := rest }
    let done := fun (t : State) => t.owe (a / 32) false p.fromHub
    let fresh := 0xF000 ≤ p.src ∨ p.epoch = s.epoch4 p.src
    (s.fenced a = true → p.ty ≠ 2 → p.ty ≠ 3 → p.ty ≠ 6 →
      exec (.packetDeliver c) s = .next (done (u.inc (Reg.BLK_STATUS_fenced_drop_count (a / 32))))) ∧
    (s.fenced a = false → p.mcast = false → p.hOk = false → p.ty ≠ 2 → p.ty ≠ 3 → p.ty ≠ 6 →
      exec (.packetDeliver c) s = .next (done ((u.pktDrop a).cellFault a 4))) ∧
    (s.fenced a = false → p.mcast = false → p.hOk = true → ¬fresh → p.ty ≠ 2 → p.ty ≠ 3 → p.ty ≠ 6 →
      exec (.packetDeliver c) s = .next (done (u.inc (Reg.CELL_EPOCH_epoch_drop_count a)))) ∧
    (s.fenced a = false → p.mcast = false → p.hOk = true → fresh →
      (p.ty = 1 → p.pOk = true → p.linkErr = false → ∀ o, spDecode p.addr = some (a, o) →
        o + 32 * p.payload.length ≤ bankCount a * 0x100000 → exec (.packetDeliver c) s =
          .next (u.modPort a fun q => { q with writes := q.writes ++ [⟨p.src, p.addr, p.payload, p.fromHub⟩] })) ∧
      (p.ty = 1 → p.pOk = false → ∀ o, spDecode p.addr = some (a, o) →
        ∃ t, exec (.packetDeliver c) s = .next t ∧
          ∀ w ∈ (t.cell a).port.writes, w ∉ (s.cell a).port.writes → ∀ g ∈ w.grans, g.poison = true) ∧
      (p.ty = 4 → p.pOk = true → p.linkErr = false → ∀ e, (s.chan (hIndex p.tag)).recv = some e → e.unit = a →
        exec (.packetDeliver c) s = .next ((done u).deliverMsg a e.ep ⟨p.tag, 0, p.epoch, p.addr, p.payload, 0, true⟩)) ∧
      (p.ty = 2 → p.pOk = true → p.linkErr = false → ∀ o ecc, spDecode p.addr = some (a, o) → o % 32 = 0 →
        o + 32 * p.len ≤ bankCount a * 0x100000 →
        let r := (done u).readWords a o 1 ecc p.len
        exec (.packetRead c ecc) s = .next (r.2.sendPacket a (mkPacket 3 p.cls (r.2.epoch4 a) a p.src p.addr p.tag r.1))) ∧
      (p.ty = 3 → p.pOk = true → p.linkErr = false → exec (.readData c) s = .next (done u)))

/-! ### Channels -/

/-- What arrives on channels (R56, R144, R179, R182, R183, R186, R189, R191, R197): a message that its endpoint takes lands whole at the
queue's tail, and no other byte changes; a cue lands as its value and tag; a credit item raises the sender's credit and a window item its
limit, and end its stall; credit goes back 1 us after the oldest unsent; the oldest message of the wings moves into a freed queue cell; the
flits of a contribution are added into their item's slot one by one, or the contribution is dropped with a cell fault. During a strike what
arrives is discarded. -/
def Obligations.ChannelArrivals : Prop :=
  (∀ (c : CellAddr) (n : Nat) (m : Msg) (ms : List Msg) (s : State), cellValid c.toNat = true → n < 32 →
    SMap.getD (s.cell c.toNat).port.msgs n [] = m :: ms → s.gated c.toNat = false →
    let a := c.toNat
    let e := (s.fed a n).ep a n
    let r := (s.ep a n).cfg
    let u := s.modPort a fun p => { p with msgs := SMap.put p.msgs n ms }
    (s.striking = true → epKind r ≠ 2 → exec (.messageArrival c n) s = .next u) ∧
    (s.striking = true → epKind r = 2 → ∀ ecc, exec (.chorusContribution ⟨c, ecc⟩ n) s = .next u) ∧
    (s.striking = false → epKind r ≠ 2 → u.rejectMsg a n m = none → m.pad = 0 → epWings r = 0 → epStorage r ≠ 0 → epBase r % 32 = 0 →
      (∀ g ∈ m.grans, g.data.length = 32) →
      let o := spAddr a (epBase r + 32 * e.rtail)
      ∃ t, exec (.messageArrival c n) s = .next t ∧
        t.bytes o (32 * m.grans.length) = m.grans.flatMap (·.data) ∧
        (∀ x, x < o ∨ o + 32 * m.grans.length ≤ x → t.byte x = s.byte x) ∧
        t.ep a n = { e with recs := e.recs ++ [⟨false, e.rtail, m.grans.length, m.num⟩], rtail := (e.rtail + m.grans.length) % epStorage r } ∧
        t.regs = s.regs ∧ t.chans = s.chans ∧ OnlyCell a s t) ∧
    (s.striking = false → epKind r ≠ 2 → ∀ j, u.rejectMsg a n m = some j → exec (.messageArrival c n) s = .next (u.applyReject a n m j)) ∧
    (s.striking = false → epKind r = 2 → ∀ ecc,
      let x := s.aux a n
      let i := epItem r m.num
      let got := m.start + m.grans.length
      let skip := decide (m.start ≠ 0) && x.skip.contains (hIndex m.handle)
      let fits := decide ((i + 2 ^ 32 - x.base) % 2 ^ 32 < epSlots r) && !(SMap.getD x.slots i ⟨i, 0, false⟩).released &&
        decide (got ≤ epContrib r) && (!m.final || got == epContrib r)
      (skip = true → exec (.chorusContribution ⟨c, ecc⟩ n) s = .next (u.chorusSkip a n m true)) ∧
      (skip = false → ∀ j, u.rejectMsg a n m = some j →
        exec (.chorusContribution ⟨c, ecc⟩ n) s = .next ((u.applyReject a n m j).chorusSkip a n m true)) ∧
      (skip = false → u.rejectMsg a n m = none →
        (fits = true → exec (.chorusContribution ⟨c, ecc⟩ n) s = .next ((u.chorusTake a n i m ecc).chorusSkip a n m false)) ∧
        (fits = false → exec (.chorusContribution ⟨c, ecc⟩ n) s = .next (((u.dropMsg a n).cellFault a 3).chorusSkip a n m true))))) ∧
  (∀ (c : CellAddr) (it : Item) (rest : List Item) (s : State), cellValid c.toNat = true → (s.cell c.toNat).port.inbox = it :: rest →
    s.gated c.toNat = false →
    let a := c.toNat
    let u := s.modPort a fun p => { p with inbox := rest }
    let e := s.ep a it.dstEp
    let v := it.w1 % 2 ^ 32 + (it.tag % 256) * 2 ^ 32
    (it.ty = 1 → s.striking = true → ∀ ecc, exec (.cueArrival ⟨c, ecc⟩) s = .next u) ∧
    (it.ty = 1 → s.striking = false → epKind e.cfg = 3 → epSends e.cfg = false → (s.aux a it.dstEp).draining = false → ∀ ecc,
      exec (.cueArrival ⟨c, ecc⟩) s =
        .next (((u.fed a it.dstEp).writePart a (epBase e.cfg + 8 * e.rtail) (toLE 8 v) false ecc).modEp a it.dstEp fun e =>
          { e with recs := e.recs ++ [⟨false, e.rtail, 1, it.tag⟩], rtail := (e.rtail + 1) % epStorage e.cfg })) ∧
    (it.ty = 2 → exec (.creditItem c) s = .next (u.modEp a it.dstEp fun e =>
      { e with credit := e.credit + it.w1 % 2 ^ 16, waitSince := none, stalled := none }).watch) ∧
    (it.ty = 3 → exec (.chorusWindowItem c) s = .next (u.modEp a it.dstEp fun e =>
      { e with limit := it.w1 % 2 ^ 32, waitSince := none, stalled := none }).watch)) ∧
  ∀ (c : CellAddr) (n : Nat) (s : State), cellValid c.toNat = true → n < 32 → s.fenced c.toNat = false → s.gated c.toNat = false →
    let a := c.toNat
    let e := s.ep a n
    let r := e.cfg
    (e.unsent ≠ 0 → e.unsentSince + 1000 ≤ s.now → exec (.creditFlushTimer c n) s = .next (s.flushCredit a n)) ∧
    (∀ w ws ecc, e.wing = w :: ws → (e.recs.length + 1) * epMaxGran r ≤ epStorage r →
      let g := s.readWords a (epBase r + 32 * (epStorage r + w.pos)) 1 ecc w.n
      g.2.fenced a = false →
      exec (.wingMove ⟨c, ecc⟩ n) s = .next ((g.2.writeWords a (epBase r + 32 * e.rtail) g.1).modEp a n fun e =>
        { e with wing := ws, recs := e.recs ++ [{ w with pos := e.rtail }], rtail := (e.rtail + epMaxGran r) % epStorage r }))

/-- Gates, stalls and the end of channels (R179, R180, R193-R195, R200-R202): a gate moves its message by the cue's value, discards it where
the cue says so, and stops at a mismatch; a send or a gate side that has waited for its limit is marked stalled; the index of a channel that
is being shut down, once nothing of it is on its way, is free with the next generation and both ends are cleared; a declared hang starts a
recovery with the graph of its cause. -/
def Obligations.ChannelControl : Prop :=
  (∀ (c : CellAddr) (n : Nat) (ecc : List EccEvent) (s : State), cellValid c.toNat = true → n < 32 →
    let a := c.toNat
    let r := (s.ep a n).cfg
    let cue := epGateCue r
    let v := (s.headCue a cue).1
    let tag := (s.headCue a cue).2
    let src := if epMerge r then epGatePort r (v % 4) else n
    let dst := if epMerge r then n else epGatePort r (v % 4)
    (s.mayRun a = true → epGate r = true → (s.aux a n).gateStopped = false →
      (s.hasMsg a cue = false → epMerge r = false → s.hasMsg a n = true → exec (.gateStep c n ecc) s = .next (s.gateWaits a n true)) ∧
      (s.hasMsg a cue = true → (tag ≠ (s.aux a n).gateTag ∨ epGateN r < v % 4) → exec (.gateStep c n ecc) s = .next (s.gateFault a n)) ∧
      (s.hasMsg a cue = true → tag = (s.aux a n).gateTag → v % 4 ≤ epGateN r →
        (s.hasMsg a src = false → exec (.gateStep c n ecc) s = .next (s.gateWaits a n false)) ∧
        (s.hasMsg a src = true → epMerge r = false → (s.headRec a n).num % 256 ≠ tag →
          exec (.gateStep c n ecc) s = .next (s.gateFault a n)) ∧
        (s.hasMsg a src = true → (epMerge r = true ∨ (s.headRec a n).num % 256 = tag) →
          (bitAt v 2 = true →
            let q := s.readCue a cue ecc
            q.2.fenced a = false → q.1 = false → exec (.gateStep c n ecc) s =
              .next (((q.2.consume a src (q.2.peekHead a src)).takeCue a cue).gatePassed a n)) ∧
          (bitAt v 2 = false →
            let t := s.epSend a dst (s.peekHead a src)
            (t.1 = false → exec (.gateStep c n ecc) s = .next (t.2.gateQuiet a n)) ∧
            (t.1 = true →
              let g := s.readHead a src ecc
              let q := g.2.readCue a cue ecc
              g.2.fenced a = false → q.2.fenced a = false → q.1 = false → exec (.gateStep c n ecc) s =
                .next ((((q.2.epSend a dst g.1).2.consume a src g.1).takeCue a cue).gatePassed a n)))))) ∧
    (∀ t, (s.ep a n).waitSince = some t → s.isIn .running = true → t + s.stallNs ≤ s.now →
      exec (.channelStall c n) s = .next (s.modEp a n fun e => { e with stalled := some (e.stalled.getD s.now) }).watch) ∧
    (∀ t, (s.aux a n).skewSince = some t → s.isIn .running = true → epGate r = true → t + s.skewNs ≤ s.now →
      exec (.cueTimeout c n) s = .next (s.modAux a n fun x => { x with timeout := some (x.timeout.getD s.now) }).watch)) ∧
  (∀ (k : Nat) (x y : ChanEnd) (s : State), k < 65536 → (s.chan k).draining = true → s.chanLeft k = false → (s.chan k).send = some x →
    (s.chan k).recv = some y → x.unit < 0xF000 → y.unit < 0xF000 → (∀ p ∈ s.chans, p.2.next = none) →
    ∃ t, exec (.channelDrainDone k) s = .next t ∧ t.chan k = { ChanSt.init with gen := nextGen (s.chan k).gen } ∧
      (∀ j, j ≠ k → t.chan j = s.chan j) ∧ t.ep x.unit x.ep = { EpSt.init with cfg := (s.ep x.unit x.ep).cfg } ∧
      t.ep y.unit y.ep = { EpSt.init with cfg := (s.ep y.unit y.ep).cfg } ∧ t.regs = s.regs ∧ t.mem = s.mem) ∧
  ∀ s : State, s.isIn .running = true → s.hung = true →
    exec .hangDeclare s = .next ((s.startRecovery 1 1).modRcv fun r => { r with graph := s.graphEntries })

/-! ### Acts, the stager, base camp -/

/-- Acts (R226, R228, R229, R231, R240, R243, R246, R295): the next act opens at its time with its roster fixed and act-gated cells
released; at its curtain it ends, its committed slots commit, and the watchdog counts; one that could not open is skipped; idle periods are
counted; a closed slot's pages are freed and the next of it has another generation; PROMPT and ENROL entries are served from their ring. -/
def Obligations.Acts : Prop :=
  (∀ (s : State) (num o cur kind : Nat), s.acts.cur = none → s.nextAct = some (num, o, cur, kind) →
    (s.isIn .running = true → o ≤ s.now → s.now < cur →
      ∃ t, exec .actOpen s = .next t ∧
        t.acts.cur = some ⟨num, o, cur, kind, s.acts.restart, false, s.acts.fixed.getD (s.rosterOf kind)⟩ ∧
        t.acts.queue = takeAct s.acts.queue ∧ t.acts.fixed = none ∧ t.acts.restart = false ∧
        (∀ c, t.cell c = if (s.cell c).scene.phase = .gated then { s.cell c with scene := { (s.cell c).scene with phase := .ready } } else s.cell c) ∧
        t.mem = s.mem ∧ t.regs = s.regs ∧ t.slots = s.slots) ∧
    (cur ≤ s.now → exec .curtainCommit s = .next ((s.skipAct num o cur kind).idlePeriod))) ∧
  (∀ (s : State) (a : Act), s.acts.cur = some a → a.curtain ≤ s.now →
    exec .curtainCommit s =
      .next (((s.endAct a).curtainCount (!a.roster.isEmpty) (a.roster.any (s.commits a))).idlePeriod)) ∧
  (∀ s : State, s.isIn .running = true → s.acts.cur = none → s.acts.queue = [] → s.rcv.periodAt + 16 * s.stallNs ≤ s.now →
    let n := if s.rcv.periodBeat then 0 else s.rcv.periods + 1
    let t := s.modRcv fun r => { r with periods := n, periodAt := s.now, periodBeat := false }
    exec .watchdogPeriod s = .next (if 3 ≤ n then t.startRecovery 1 2 else t)) ∧
  (∀ (k : Nat) (s : State), k < 1024 → (s.slot k).st = 4 →
    let t := (s.freeSlotPages k).slotEvent k 4 0
    ((s.slot k).reopen = none → exec (.slotCloseDone k) s = .next (t.modSlot k fun x => { SlotSt.init with gen := x.gen })) ∧
    (∀ mb e b, (s.slot k).reopen = some (mb, e, b) → exec (.slotCloseDone k) s =
      .next ((t.modSlot k fun x => openSlot (if x.gen = 0xFFFF then 1 else x.gen + 1) b).settleDefer mb e .ok))) ∧
  ∀ (r n seq : Nat) (entry body : List Byte) (s t : State), r < 16384 → s.readRing r entry = .entry seq n body →
    (ofLE (entry.take 1) = 0x10 → s.readPrompt body = some t → exec (.prompt r entry) s = .next (t.passEntry r n true)) ∧
    (ofLE (entry.take 1) = 0x11 → s.readEnrol body = some t → exec (.enrol r entry) s = .next (t.passEntry r n true))

/-- The KV stager (R235-R240, R244): an accepted request does its work; APPEND takes every new page or none and writes the rows to DRAM,
and is done when they have landed; COMPLETE stages the token; ROSTER, STREAM and FETCH deliver what they name, and a porter carries each
delivery into its window. -/
def Obligations.Stager : Prop :=
  (∀ (t : Nat) (k : Ticket) (s : State),
    (s.workable t 3 = some k → k.judged = true →
      exec (.complete t) s = .next (State.checkStage ((s.modSlot k.slot fun x =>
        { x with stage := { x.stage with token := some k.token, stop := k.stop } }).modTicket t fun k => { k with status := 1 }) k.act k.slot)) ∧
    (s.workable t 2 = some k → k.judged = true → k.out = 0 →
      let x := s.slot k.slot
      let new := x.newPages k
      (∀ ecc, s.appendRows k = none → exec (.append t ecc) s = .next (s.modTicket t fun k => { k with status := 0x14 })) ∧
      (∀ c o m ecc, s.appendRows k = some (c, o, m) →
        (s.takePages new.length = none → exec (.append t ecc) s = .next ((s.modTicket t fun k => { k with status := 0x03 }).modSlot k.slot
          fun x => { x with stage := { x.stage with noPages := true } })) ∧
        (∀ ps u, s.takePages new.length = some (ps, u) →
          let v := u.modSlot k.slot fun x => { x with stage := { x.stage with
            pages := (new.zip ps).foldl (fun m p => SMap.put m p.1 p.2) x.stage.pages
            toks := x.stage.toks ++ (List.range k.count).map fun i => (k.layer, k.first + i)
            landing := x.stage.landing + 1 } }
          (v.fenced c = true → exec (.append t ecc) s = .next (v.modTicket t fun k => { k with status := 0x15 })) ∧
          (v.fenced c = false →
            let y := v.slot k.slot
            exec (.append t ecc) s = .next (((List.range k.count).foldl (fun s i =>
              let g := s.readWords c (o + i * y.row) 2 ecc (y.row / 32)
              (g.2.request 0 0 0 y.row).writeGrans (y.rowAddr k.layer (y.len + k.first + i)) g.1 []) v).modTicket t
                fun k => { k with out := 1 }))))) ∧
    (s.workable t 2 = some k → k.out = 1 →
      let u := s.modTicket t fun k => { k with out := 0, qty := k.count, status := 1 }
      exec (.appendLanded t) s = .next ((u.modSlot k.slot fun x =>
        { x with stage := { x.stage with landing := x.stage.landing - 1 } }).checkStage k.act k.slot)) ∧
    (s.workable t 5 = some k → k.judged = true → k.closed = false →
      let x := s.slot k.slot
      let u := s.pagesOut t (fun p => p < k.first + k.count) (fun p => min x.tpp (k.len - p * x.tpp) * x.row) 256
      ∀ q, SMap.get? u.kv.tickets t = some q →
        exec (.fetch t) s = .next (if q.first + q.count ≤ q.nextPage then u.closeTicket t else u)) ∧
    (s.workable t 4 = some k → k.judged = true → k.closed = false → s.rosterIn k.act = none →
      let x := s.slot k.slot
      let u := s.pagesOut t (fun p => x.cold x.len p) (fun _ => x.tpp * x.row) 256
      ∀ q, SMap.get? u.kv.tickets t = some q →
        exec (.stream t) s = .next (if q.count ≠ 0 ∧ q.first + q.count ≤ q.nextPage then u.closeTicket t else u)) ∧
    (s.workable t 1 = some k → k.judged = true → k.closed = false → s.porterRoom k.porter = true → ∀ r, s.rosterIn k.act = some r →
      ∃ u data, exec (.roster t) s = .next u ∧ (gransBytes data).take 8 = toLE 8 k.act ∧ u = (s.deliver t k 0 (32 * data.length)
        (r.filter fun e => decide (k.first ≤ e.slot) && decide (e.slot < k.first + k.count)).length data).modTicket t fun k => { k with closed := true })) ∧
  ∀ (p : Nat) (d : Desc) (k : Ticket) (s : State), p < 64 → s.portersRun = true → (s.porter p).run = some d → d.owner = 1 →
    (s.porter p).phase ≠ .moved → SMap.get? s.kv.tickets d.ticket = some k →
    ∀ dram, (k.status = 0 → exec (.pageDelivery p dram) s = .next (s.porterGo p d ⟨[], dram, false, [], 0⟩)) ∧
      (k.status ≠ 0 → exec (.pageDelivery p dram) s = .next (s.porterEnd p 6 0))

/-- DRAM, its aperture and the arbiter (R250, R251, R256, R258, R319): written bytes read back and no others change; a read reports what
its code found; the aperture reaches the window at its base, never the panel area; a grant of a period goes to the next class with credit,
or to the next that may borrow. -/
def Obligations.BaseCamp : Prop :=
  (∀ (a : Nat) (data : List Byte) (s : State), inDram a data.length = true → data ≠ [] →
    (∀ u, a / 64 ≤ u → u ≤ (a + data.length - 1) / 64 → s.mem.dramPoison.contains u = false) →
    ∃ t, exec (.dramWrite a data []) s = .next t ∧ (∀ k (h : k < data.length), t.byte (a + k) = data[k]) ∧
      (∀ x, x < a ∨ a + data.length ≤ x → t.byte x = s.byte x) ∧ t.cells = s.cells) ∧
  (∀ (a : Nat) (data : List Byte) (errs : List DramErr) (s : State), inDram a data.length = true →
    exec (.dramWrite a data errs) s = .next (s.writeDram a data false errs (data.length / 64 + 2))) ∧
  (∀ (a : Nat) (s : State), isDram a = true →
    let u := a / 64
    let c := dramChan (64 * u)
    ((s.granule (64 * u)).erased = true → ∀ errs, exec (.dramRead a errs) s = .next s) ∧
    ((s.granule (64 * u)).erased = false → ∀ errs,
      (∀ e, (errs.find? fun e => e.unit == u && !e.corrected) = some e → ∃ t, exec (.dramRead a errs) s = .next t ∧
        t.get (Reg.DRAM_CH_STATUS_ue_count c) = satAdd (Reg.DRAM_CH_STATUS_ue_count c).w (s.get (Reg.DRAM_CH_STATUS_ue_count c)) 1 ∧
        t.mem = s.mem ∧ t.cells = s.cells) ∧
      ((errs.find? fun e => e.unit == u && !e.corrected) = none → s.mem.dramPoison.contains u = false → ∀ e,
        (errs.find? fun e => e.unit == u) = some e → ∃ t, exec (.dramRead a errs) s = .next t ∧
          t.get (Reg.DRAM_CH_STATUS_corrected_count c) =
            satAdd (Reg.DRAM_CH_STATUS_corrected_count c).w (s.get (Reg.DRAM_CH_STATUS_corrected_count c)) 1 ∧
          t.mem = { s.mem with rewrite := NSet.add s.mem.rewrite u } ∧ t.cells = s.cells)) ∧
    (s.mem.dramPoison.contains (a / 64) = false → exec (.dramRead a []) s = .next s) ∧
    (s.mem.dramPoison.contains (a / 64) = true → (s.granule (a / 64 * 64)).erased = false →
      exec (.dramRead a []) s = .next (s.inc (Reg.DRAM_CH_STATUS_poison_read_count (dramChan (a / 64 * 64)))))) ∧
  (∀ (u : Nat) (s : State), isDram (64 * u) = true → exec (.dramCorrectedRewrite u) s =
    .next { s with mem := { s.mem with rewrite := NSet.del s.mem.rewrite u } }) ∧
  (∀ (off len : Nat) (w poison : Bool) (data : List Byte) (errs : List DramErr) (s : State), 0 < len → off + len ≤ s.host.bar4 → off + len ≤ 2 ^ 41 →
    let a := s.get Reg.APERTURE_BASE_base / s.host.bar4 * s.host.bar4 + off
    let ones := State.emit s (.bar4Data off (some (List.replicate len 0xFF)))
    (s.bar4Answers = false → exec (.bar4Access off len w data poison errs) s = .next (if w then s else ones)) ∧
    (s.bar4Answers = true → s.linkServes = true → panelArea a = true → exec (.bar4Access off len true data poison errs) s =
      .next (s.inc Reg.DRAM_CFG_guard_count)) ∧
    (s.bar4Answers = true → s.linkServes = true → panelArea a = false → inDram a len = true →
      let t := (s.request 0 3 0 len).request (if w then 1 else 2) 3 0 len
      (w = true → exec (.bar4Access off len w data poison errs) s = .next (t.writeDram a (data.take len) poison errs (len / 64 + 2))) ∧
      (w = false → let r := t.readUnits errs (a / 64) ((a + len - 1) / 64 - a / 64 + 1)
        exec (.bar4Access off len w data poison errs) s = .next (r.2.emit (.bar4Data off
          (if r.1.any (·.2) then none else some (((r.1.flatMap (·.1)).drop (a % 64)).take len))))))) ∧
  ∀ (r : Nat) (s : State), r < resources →
    let x := s.res r
    let waits := fun c => s.hub.reqs.any fun q => q.res == r && q.cls == c
    let first := nextClass x.rr1 fun c => waits c && nth x.credit c 0 != 0
    let second := nextClass x.rr2 fun c =>
      let t := nth x.table c (0, false, 0)
      waits c && t.2.1 && decide (nth x.taken c 0 < t.2.2)
    let gave := fun (c : Nat) (f : ResSt → ResSt) =>
      (s.modHub fun h => { h with reqs := takeGrant r c h.reqs }).modRes r fun x =>
        f { x with left := x.left - 1, taken := setNth x.taken c (nth x.taken c 0 + 1) }
    (x.left = 0 → s.flag Reg.ARB_CTRL_apply = false → x.table ≠ [] → exec (.arbiterPeriod r) s = .next (s.modRes r fun x =>
      { x with left := 256, credit := x.table.map (·.1), taken := List.replicate 16 0, changed := false })) ∧
    (x.left ≠ 0 →
      (∀ c, first = some c → exec (.arbiterGrant r) s = .next ((gave c fun y =>
        { y with credit := setNth x.credit c (nth x.credit c 0 - 1), rr1 := c }).wrap (Reg.ARB_COUNTS_guaranteed c))) ∧
      (∀ c, first = none → second = some c → exec (.arbiterGrant r) s =
        .next ((gave c fun y => { y with rr2 := c }).wrap (Reg.ARB_COUNTS_borrowed c))) ∧
      (first = none → second = none → exec (.arbiterGrant r) s = .next s))

/-- Porters (R198, R252, R259-R266): each carries the descriptor at its head in its steps; a FILL in DRAM leaves its pattern at the destination
and a COPY the source's bytes, and no other byte changes; a FENCE starts once what stands ahead of it is done; BUSY is asked again after
1 us; a finished descriptor leaves its status and its bytes, and completes when its report has been sent; an idle porter takes half of
another's eligible descriptors. -/
def Obligations.Porters : Prop :=
  (∀ (p : Nat) (d : Desc) (ev : PorterEv) (s : State), p < 64 → s.portersRun = true → (s.porter p).run = some d →
    ((d.op ≠ 1 ∧ d.op ≠ 2) → exec (.porterNop p) s = .next (s.porterGo p d ⟨[], [], false, [], 0⟩)) ∧
    ((d.op ≠ 1 ∧ d.op ≠ 2) → (s.porter p).phase = .started → exec (.porterNop p) s =
      .next (s.porterEnd p (if d.bad then 2 else 0) 0)) ∧
    (d.op = 1 → d.owner ≠ 1 → exec (.porterCopy p ev) s = .next (s.porterGo p d ev)) ∧
    (d.op = 2 → exec (.porterFill p ev) s = .next (s.porterGo p d ev)) ∧
    let clean := fun (a : Nat) => ∀ u, a / 64 ≤ u → u ≤ (a + d.len - 1) / 64 → s.mem.dramPoison.contains u = false
    let moves := fun (bs : List Byte) (t : State) => t.bytes d.dstAddr d.len = bs ∧
      (∀ x, x < d.dstAddr ∨ d.dstAddr + d.len ≤ x → t.byte x = s.byte x) ∧
      t.porter p = { s.porter p with phase := .moved, status := 0, moved := d.len, atT := s.now } ∧ t.cells = s.cells
    ((s.porter p).phase = .granted → d.data = [] → d.mcast = false → d.dstSpace = 0 → d.dstAddr % 32 = 0 → 0 < d.len → d.len % 32 = 0 →
      inDram d.dstAddr d.len = true → clean d.dstAddr → ev.dram = [] →
      (d.op = 2 → ∃ t, exec (.porterFill p ev) s = .next t ∧ moves ((List.replicate (d.len / 8) (toLE 8 (d.w 5))).flatten) t) ∧
      (d.op = 1 → d.owner ≠ 1 → d.srcSpace = 0 → inDram d.srcAddr d.len = true → clean d.srcAddr →
        ∃ t, exec (.porterCopy p ev) s = .next t ∧ moves (s.bytes d.srcAddr d.len) t))) ∧
  (∀ (p : Nat) (d : Desc) (rest : List Desc) (s : State), p < 64 → (s.porter p).run = none → (s.porter p).queue = d :: rest →
    s.portersRun = true → d.fence = true → s.aheadOf d = false → exec (.porterFence p) s = .next (s.porterStart p d rest)) ∧
  (∀ (p : Nat) (d : Desc) (s : State), p < 64 →
    let t := s.answers p
    (t.porter p).run = some d → (t.porter p).phase = .busy → (t.porter p).atT + 1000 ≤ t.now →
      exec (.porterGrantRetry p) s = .next (t.acquire p d)) ∧
  (∀ (p : Nat) (d : Desc) (s : State), p < 64 → (s.porter p).run = some d →
    let ends := fun (u : State) =>
      if (u.porter p).phase = .sending ∧ u.doneWaits d = false then
        (u.modPorter p fun x => { x with run := none, phase := .idle, atT := u.now }).fwFeed
      else u
    ((s.porter p).phase = .moved → s.granted (porterOwner p) = true →
      let x := s.porter p
      let st := if x.status ≤ 1 ∧ (s.porterCells d).any s.fenced = true then 6 else x.status
      exec (.porterDone p) s = .next (ends ((((s.modPorter p fun x => { x with phase := .sending }).set
        (Reg.PORTER_STATUS_last_status p) st).wrap (Reg.PORTER_BYTES_bytes p) x.moved).porterNotify d st x.moved))) ∧
    ((s.porter p).phase = .sending → exec (.porterDone p) s = .next (ends s.hubCredits))) ∧
  (∀ (p v : Nat) (s : State), p < 64 → s.portersRun = true → (s.porter p).run = none → (s.porter p).queue = [] →
    (s.porter p).atT + 200 ≤ s.now →
    (((List.range 63).map fun i => (p + 1 + i) % 64).find? fun v =>
      decide (4 ≤ (s.porter v).queue.length) && decide (2 ≤ (eligible (s.porter v)).length)) = some v →
    ∃ t, exec (.porterSteal p) s = .next t ∧
      (t.porter p).queue.length = (eligible (s.porter v)).length / 2 ∧
      (t.porter v).queue.length + (t.porter p).queue.length = (s.porter v).queue.length ∧
      (∀ d ∈ (t.porter p).queue, d.fence = false ∧ ∃ e ∈ (s.porter v).queue, d = { e with trail := d.trail }) ∧
      (∀ q, q ≠ p → q ≠ v → t.porter q = s.porter q) ∧ t.mem = s.mem ∧ t.cells = s.cells) ∧
  ∀ (r n seq : Nat) (entry body : List Byte) (s : State), r < 16384 → s.readRing r entry = .entry seq n body →
    ofLE (entry.take 1) = 0x30 → s.porterRoom (s.ring r).porter = true →
    ∃ d t, exec (.porterDesc r entry) s = .next t ∧ t = (s.queueDesc (s.ring r).porter d).passEntry r n true ∧ d.owner = 2 + r

/-! ### Checks, recovery, heartbeats -/

/-- Silent-error checks (R270-R272, R274, R281, R282, R289): a spot rehearsal puts the next kernel's operands and expected signature into the
rehearsal area, runs it and compares the signature of its outputs; the engine's state is as before; a mismatch is recorded and fences the
cell with code 0x06, an uncorrectable read of the area with 0x04, and a kernel that is cut off is abandoned with no outcome; a pair's items and tallies are compared, equal ones go on and unequal or
late ones are a mismatch; the oldest staged cairn record goes to flash, which keeps the last 4,096. -/
def Obligations.SilentErrors : Prop :=
  (∀ (c : CellAddr) (outs : List OutWord) (s : State), cellValid c.toNat = true → s.serviceable c.toNat = true → s.spotDue c.toNat = true →
    let a := c.toNat
    let n := (s.cell a).rh.spot
    let k := n % (lastKernel a + 1)
    (signature outs = expectedSig a k (n % 11) 0 → ∃ t, exec (.spotRehearsal c outs false false) s = .next t ∧
      t.cell a = { s.cell a with
        rh := { (s.cell a).rh with spot := n + 1, spotAt := s.now }
        scene := { (s.cell a).scene with area := (t.cell a).scene.area } } ∧
      (t.cell a).scene.area.operands = rhOperands a k 0 (n % 11) ∧ (t.cell a).scene.area.outs = outs ∧
      t.get (Reg.RH_STATUS_kernel a) = k ∧ t.get (Reg.RH_STATUS_seed a) = n % 11 ∧
      t.flag (Reg.RH_STATUS_pass a) = true ∧ OnlyCell a s t ∧ t.mem = s.mem ∧ t.mesh = s.mesh) ∧
    (signature outs ≠ expectedSig a k (n % 11) 0 → ∃ t, exec (.spotRehearsal c outs false false) s = .next t ∧ t.fenced a = true ∧
      t.flag (Reg.RH_STATUS_pass a) = false ∧ t.mem = s.mem ∧
      (s.fenced a = false → s.flag (Reg.BLK_STATUS_cell_fence_valid (a / 32)) = false → t.get (Reg.CELL_EPOCH_fence_cause a) = 6)) ∧
    (∀ cut, exec (.spotRehearsal c outs true cut) s = .next ((s.rhSave a k (n % 11)).storeFault a)) ∧
    (exec (.spotRehearsal c outs false true) s = .next (s.rhSave a k (n % 11)))) ∧
  (∀ (c : CellAddr) (s : State), cellValid c.toNat = true →
    let l := s.primaryOf c.toNat
    (s.paired = true → ∀ x y dram ecc, s.pairOf l = some (x, y) → exec (.pairedItemCompare ⟨c, dram, ecc⟩) s =
      .next (if crc64 x.hashed = crc64 y.hashed then s.matchItems x y dram ecc else s.pairMismatch l x.num)) ∧
    (∀ x, (s.pair.held.find? fun a => a.primary == l && decide (a.atT + s.stallNs ≤ s.now) &&
        !(s.pair.held.any fun b => b.primary == l && b.num == a.num && b.twin != a.twin)) = some x →
      exec (.pairedItemTimeout c) s = .next (s.pairMismatch l x.num)) ∧
    (s.paired = true → s.mayRun c.toNat = true → (s.cell c.toNat).scene.phase = .atBarrier →
      (∀ t ∈ (s.cell c.toNat).rh.tallies, t.2.1 ≠ (s.cell c.toNat).eng.beats) →
      exec (.tallySample c) s = .next (s.sampleTally c.toNat)) ∧
    (s.paired = true → ∀ x y, s.tallyPair l = some (x, y) →
      let t : State := { s with pair := { s.pair with tallies := (s.pair.tallies.erase x).erase y } }
      exec (.tallyCompare c) s = .next (if x.tally = y.tally then t else t.pairMismatch l (x.scene * 2 ^ 32 + x.beat))) ∧
    (∀ x, (s.pair.tallies.find? fun a => (a.logical == l || a.logical == twinOf l) && decide (a.atT + s.stallNs ≤ s.now) &&
        !(s.pair.tallies.any fun b => b.logical == twinOf a.logical && b.scene == a.scene && b.beat == a.beat)) = some x →
      exec (.tallyTimeout c) s = .next (State.pairMismatch { s with pair := { s.pair with tallies := s.pair.tallies.erase x } } l
        (x.scene * 2 ^ 32 + x.beat)))) ∧
  ∀ (r : Cairn) (rest : List Cairn) (s : State), s.cairn.staging = r :: rest → s.cairn.flash.length ≤ 4096 →
    ∃ t, exec .cairnFlush s = .next t ∧ t.cairn.staging = rest ∧ t.cairn.flash.getLast? = some r ∧ t.cairn.flash.length ≤ 4096 ∧
      (s.cairn.flash.length < 4096 → t.cairn.flash = s.cairn.flash ++ [r]) ∧ t.regs = s.regs ∧ t.cells = s.cells ∧ t.mem = s.mem

/-- Recovery and the stage cores' heartbeats (R21, R29, R202, R293, R294, R296, R298, R302-R306, R309, R310): a fault report enters the
field map and starts a recovery where the package uses the cell; each phase leads to the next, a timeout of the reset to DARK; belays are
held, copied and restarted from; a heartbeat that has not changed for 1 ms loses its core, the lowest live core leads, and a verified core
rejoins. -/
def Obligations.Recovery : Prop :=
  ((∀ (r : Report) (k : Nat) (s : State), s.mesh.reports[k]? = some r →
    let t : State := { s with mesh := { s.mesh with reports := s.mesh.reports.eraseIdx k } }
    (r.cause ≠ 0 → r.cause ≠ 9 → r.cause ≠ 10 →
      let u := (t.fieldAdd 1 3 r.cell 0).recount
      exec (.faultReportArrival k) s = .next (if u.used r.cell then u.fenceRoute else u)) ∧
    (r.cause = 0 → r.kind < 7 → exec (.faultReportArrival k) s = .next (if t.isIn .running then t.startRecovery 2 8 else t))) ∧
  (∀ s : State, s.isIn .recovering = true →
    let p := s.get Reg.RECOVERY_STATUS_phase
    let late := s.rcv.boundAt + 5000000 ≤ s.now
    (p = 2 → (s.clearCompute true).rcv.refuse = false →
      exec .quiesceDone s = .next ((s.clearCompute true).set Reg.RECOVERY_STATUS_phase 5)) ∧
    (p = 2 → (s.clearCompute true).rcv.refuse = true →
      exec .quiesceDone s = .next (((s.clearCompute true).stageCairn (Cairn.blank 0x0B 6 0 0 0xFFFF 0)).refuseRestart)) ∧
    (p = 2 → late → exec .quiesceTimeout s = .next ((s.sets [(Reg.RECOVERY_STATUS_phase, 1), (Reg.RECOVERY_STATUS_cause, 5)]).modRcv fun r =>
      { r with route := 1, boundAt := s.now, snapCause := 5, snapTime := s.now })) ∧
    (p = 1 → ∀ ecc, exec (.snapshotDone ecc) s =
      .next (((s.writeSnapshot ecc).set Reg.RECOVERY_STATUS_phase 3).modRcv fun r => { r with boundAt := s.now })) ∧
    (p = 3 → late → exec .computeResetTimeout s = .next (s.enterDark 1)) ∧
    (p = 3 → let t := (s.clearCompute false).strikeAgain
      t.rcv.refuse = false →
        (t.get Reg.RECOVERY_STATUS_cause ≠ 1 → exec .computeResetDone s = .next (t.set Reg.RECOVERY_STATUS_phase 4)) ∧
        (t.get Reg.RECOVERY_STATUS_cause = 1 → exec .computeResetDone s =
          .next (((t.stageCairn { Cairn.blank 0x0B 6 0 0 0xFFFF 0 with ext := t.rcv.graph.take 120 }).modRcv fun r =>
            { r with graph := [] }).set Reg.RECOVERY_STATUS_phase 4))) ∧
    (p = 4 → s.rcv.route ≠ 3 → ∀ fails,
      let r := s.dress s.allServiceable fails
      exec (.dressRehearsalDone fails) s = .next (if s.allServiceable.length < 50 * r.2 then r.1.enterDark 2
        else r.1.recount.set Reg.RECOVERY_STATUS_phase 5)) ∧
    (p = 4 → s.rcv.route = 3 → ∀ fails, ∃ t, exec (.dressRehearsalDone fails) s = .next t ∧ t.get Reg.RECOVERY_STATUS_phase = 5) ∧
    (p = 5 → let r := s.planView.replaceAll s.toMove
      (r.2 = false → ∀ dram, exec (.restartFromBelay dram) s = .next r.1.refuseRestart) ∧
      (r.2 = true → r.1.rigBroken = none →
        ∀ dram, exec (.restartFromBelay dram) s = .next ((r.1.stageCairn (Cairn.blank 0x0C 6 0 0 0xFFFF 0)).refuseRestart)) ∧
      (r.2 = true → ∀ t, r.1.rigBroken = some t →
        let u := (t.asRewrites s).publishCast
        ∀ dram, exec (.restartFromBelay dram) s =
          .next ((if s.toMove.isEmpty ∧ s.rcv.route ≠ 2 then u else u.publishDist).set Reg.RECOVERY_STATUS_phase 6))) ∧
    (p = 6 → ∀ dram, exec (.restartFromBelay dram) s = .next (s.restartBelay dram)) ∧
    (p = 6 → s.rcv.loadStep = 0 → ∀ y, s.rcv.lastBelay = some y → s.belaySeq y 0 = none → s.belaySeq y 1 = none → ∀ dram,
      ∃ t, exec (.restartFromBelay dram) s = .next t ∧ t.rcv.half = none ∧ t.rcv.loadStep = 1) ∧
    (p = 6 → 2 ≤ s.rcv.loadStep → s.fwBusy = false →
      (s.hub.fwPoison = true → ∀ dram, exec (.restartFromBelay dram) s = .next ((s.stageCairn (Cairn.blank 0x0A 6 0 0 0xFFFF 0)).refuseRestart)) ∧
      (s.hub.fwPoison = false → s.storesFull = true → ∀ dram, exec (.restartFromBelay dram) s = .next s.restartRun))) ∧
  ∀ (y : Belay) (p : Loaded) (s : State), s.belay = some y → s.pkg = some p → s.isIn .running = true →
    (∀ g, g < p.pkg.folds.length → y.copying = false → g ∉ y.held → s.groupHeld y g = true →
      let z := { y with held := NSet.add y.held g }
      let t : State := { s with belay := some z }
      (z.held.length < p.pkg.folds.length → exec (.belayHold g) s = .next t) ∧
      (p.pkg.folds.length ≤ z.held.length → exec (.belayHold g) s =
        .next (if t.belayQuiet then State.startCopy { t with belay := some { z with copying := true } } z else t.dropBelay))) ∧
    (y.copying = true → s.fwBusy = false → ∀ dram, ∃ t seq, exec (.belayCopyDone dram) s = .next t ∧ t.belay = none ∧
      seq = (match s.belayLast y with | some (_, n) => n + 1 | none => 1) ∧
      t = State.respond { ((s.writeBelay y (s.belayTarget y) seq dram).modRcv fun r =>
        { r with lastBelay := some y }) with belay := none } y.mb St.ok.code (toLE 8 seq))) ∧
  (∀ (n : Nat) (s : State), n < 8 →
    (s.coreLive n = true → exec (.heartbeatTick n) s = .next (s.modRcv fun r => { r with coreAt := setNth r.coreAt n s.now })) ∧
    (s.coreLive n = true → nth s.rcv.coreAt n 0 + 1000000 ≤ s.now → s.isIn .ready = true → s.get Reg.HEARTBEAT_lead ≠ n →
      s.get Reg.HEARTBEAT_live ≠ 2 ^ n →
      ∃ t, exec (.heartbeatLoss n) s = .next t ∧ t.get Reg.HEARTBEAT_live = s.get Reg.HEARTBEAT_live - 2 ^ n ∧
        t.rcv.lost = NSet.add s.rcv.lost n ∧ t.get Reg.HEARTBEAT_lead = s.get Reg.HEARTBEAT_lead ∧ t.mem = s.mem) ∧
    (s.rcv.lost.contains n = true → s.get Reg.HEARTBEAT_live ≠ 0 →
      ∃ t, exec (.coreRejoin n true) s = .next t ∧ t.get Reg.HEARTBEAT_live = (s.get Reg.HEARTBEAT_live) ||| 2 ^ n ∧
        t.rcv.lost = NSet.del s.rcv.lost n ∧ nth t.rcv.coreAt n 0 = (if n < s.rcv.coreAt.length then s.now else 0)) ∧
    (s.rcv.lost.contains n = true → s.get Reg.HEARTBEAT_live = 0 →
      ∃ t, exec (.coreRejoin n true) s = .next t ∧ t.get Reg.HEARTBEAT_live = 0xFF ∧ t.get Reg.HEARTBEAT_lead = 0 ∧ t.rcv.lost = []) ∧
    exec (.coreRejoin n false) s = .next s)


/-! ### The host interface -/

/-- BAR0, the configuration space and the PCIe link (R8-R10, R143, R251, R316, R319, R322, R323, R444, R448, R449): an access of a wrong
width is a bad access and changes no register it names; one that no range answers is discarded; every field of every register takes what
its access code says; the registers with rules of their own take them. -/
def Obligations.RegisterAccess : Prop :=
  (∀ r ∈ regRows, ∀ f ∈ r.fields, ∀ (locked : Bool) (old v m : Nat),
    bits (r.after locked old v m) f.lo f.w = f.after locked old v m % 2 ^ f.w) ∧
  (∀ (a : BarAccess) (s : State), a.off < 0x4000000 →
    (s.judgeBar a = .silent → a.write = true → exec (.registerWrite a) s = .next s) ∧
    (s.judgeBar a = .silent → a.write = false → a.firmware = false → exec (.registerWrite a) s = .next (s.emit (.barOnes a.off))) ∧
    (∀ k, s.judgeBar a = .bad k → a.write = true → ∃ t, exec (.registerWrite a) s = .next t ∧ t = s.badAccess a.off true k false ∧
      t.get Reg.BAD_ACCESS_INFO_offset = a.off ∧ t.get Reg.BAD_ACCESS_INFO_reason = k % 2 ^ Reg.BAD_ACCESS_INFO_reason.w ∧
      t.mem = s.mem ∧ t.cells = s.cells) ∧
    (s.judgeBar a = .pass → a.write = false → a.firmware = false → exec (.registerWrite a) s =
      .next (s.emit (.barRead a.off (s.barLoad (a.off / 8 * 8) >>> (8 * (a.off % 8)) % 2 ^ (8 * a.width))))) ∧
    (∀ r, s.judgeBar a = .pass → a.write = true → a.width = 8 → barPlace a.off = .reg r → ownRow a.off = false →
      overrunBit a.off = none → (∀ w v, s.adjust a.off w v = w) → a.off ≠ 0x10008 → a.off ≠ 0x20000 → s.locked a.off = false →
      exec (.registerWrite a) s = .next (s.setReg a.off (r.after false (s.reg a.off) a.data.toNat (2 ^ 64 - 1))))) ∧
  (∀ (v : Word64) (s : State), s.isIn .off = false → s.isIn .dark = false → s.linkServes = true →
    (∃ t, exec (.eventEnableWrite v) s = .next t ∧ t.get Reg.EVENT_ENABLE_enable = v.toNat % 2 ^ 9 ∧
      t.out = (if v.toNat &&& s.get Reg.EVENT_STATUS_events = 0 then s.out else s.out ++ [.msix 0]) ∧
      (∀ o, o ≠ 0x10008 → t.reg o = s.reg o) ∧ t.mem = s.mem ∧ t.cells = s.cells) ∧
    (s.reached 3 = true → v.toNat % 2 = 1 → ∃ t, exec (.arbApply v) s = .next t ∧ t.mem = s.mem ∧ t.cells = s.cells ∧
      (256 < ((List.range 16).map fun i => s.get (Reg.ARB_CLASS_share i)).sum →
        t.flag Reg.ARB_CTRL_bad_sum = true ∧ t.flag Reg.ARB_CTRL_apply = s.flag Reg.ARB_CTRL_apply ∧ t.hub = s.hub) ∧
      (((List.range 16).map fun i => s.get (Reg.ARB_CLASS_share i)).sum ≤ 256 → t.flag Reg.ARB_CTRL_apply = true ∧ t.hub.applying = s.stagedTable)) ∧
    (∀ g, regionValid g = true → s.reached 4 = true → s.regionCut g = false → s.maps.unreached.contains g = false →
      ∃ t, exec (.sweepCtrlWrite g v) s = .next t ∧ t.get (Reg.SP_SWEEP_CTRL_period g) = min 3600 (max 1 (bits v.toNat 1 12)) ∧
        t.get (Reg.SP_SWEEP_CTRL_enable g) = v.toNat % 2 ∧ t.mem = s.mem ∧ t.cells = s.cells) ∧
    (∀ c : CellAddr, s.reached 4 = true → s.regionCut (gOf c.toNat) = false → s.maps.unreached.contains (gOf c.toNat) = false →
      v.toNat % 2 = 1 →
      (cellIs .m c = true → ∃ t, exec (.mcInjectArm c v) s = .next t ∧ t.flag (Reg.MC_CK_CTRL_inject c.toNat) = true ∧ t.cells = s.cells ∧ t.mem = s.mem) ∧
      (cellIs .v c = true → ∃ t, exec (.vcInjectArm c v) s = .next t ∧ t.flag (Reg.VC_CK_CTRL_inject c.toNat) = true ∧ t.cells = s.cells ∧ t.mem = s.mem))) ∧
  ∀ s : State, s.isIn .off = false →
    (∀ rate width flit deg, ∃ t, exec (.pcieLinkTrain rate width flit deg) s = .next t ∧
      t.get Reg.PCIE_LINK_rate = rate % 2 ^ Reg.PCIE_LINK_rate.w ∧ t.get Reg.PCIE_LINK_width = width % 2 ^ Reg.PCIE_LINK_width.w ∧
      t.flag Reg.PCIE_LINK_degraded = (deg || rate == 0 || decide (width < 4)) ∧ t.mem = s.mem) ∧
    (∀ n, 30 ≤ n → n ≤ 41 → exec (.bar4Resize (2 ^ n)) s = .next ((s.modHost fun h => { h with bar4 := 2 ^ n }).set Reg.APERTURE_BASE_base 0)) ∧
    (∀ k, (∀ n, 30 ≤ n → n ≤ 41 → k ≠ 2 ^ n) → exec (.bar4Resize k) s = .next s) ∧
    (∀ b, exec (.busMasterEnableChange b) s = .next (s.modHost fun h => { h with bme := b })) ∧
    ∀ k, s.isIn .dark = false →
      let u := (SMap.keys s.host.rings).foldl State.killRing ((s.resetConfig.inc Reg.PCIE_LINK_flr_count).resetMailboxes)
      (u.isIn .ready = true → exec (.pcieReset k) s = .next u) ∧
      (u.isIn .running = true → u.pkg.isSome = true → exec (.pcieReset k) s = .next (u.startUnload 8 0x11 0).endStrike)

namespace Sys2Proof.Says

/-- The state in which a mailbox command is judged: its request stands in the request area and its mailbox is busy (R327). -/
def accepted (s : State) (mb : Nat) (r : NyReq) : State :=
  ((s.putRequest mb r).set (Reg.MB_STATUS_busy mb) 1).modMb mb fun m => { m with cmd := some (r, s.now) }

/-- A doorbell that a stage core takes: the panel serves mailboxes, the link carries it, and the mailbox is not busy. -/
abbrev NyTaken (mb : Nat) (s : State) : Prop :=
  mb < 8 ∧ s.isIn .off = false ∧ s.linkServes = true ∧ s.nymakServes = true ∧ s.flag (Reg.MB_STATUS_busy mb) = false

/-- A command that passes the checks before its own (R327 step 3): the panel's state, the session and the request's form. -/
abbrev NyReady (mb : Nat) (r : NyReq) (s : State) : Prop :=
  NyTaken mb s ∧
    let u := accepted s mb r
    ((!u.isIn .recovering || servedRecovering r.opcode) &&
      (r.opcode == 1 || (r.session != 0 && r.session == (u.mb mb).session)) && !u.badFormat r) = true

/-- A row of a mailbox command with its opcode (but ROPE_CONFIG's). -/
def NyRow (mb : Nat) (r : NyReq) (pkg : Package) (ns : Nat) (i : Instr) (op : Nat) : Prop :=
  (i, op) ∈ [((.hello mb r, 0x01) : Instr × Nat), (.packageLoad mb r pkg, 0x10), (.packageUnload mb r ns, 0x11), (.channelCreate mb r, 0x20), (.channelDestroy mb r, 0x21),
    (.actSchedule mb r, 0x30), (.actStop mb r, 0x31), (.slotOpen mb r, 0x40), (.slotClose mb r, 0x41), (.belaySet mb r, 0x50),
    (.restart mb r, 0x51), (.strike mb r ns, 0x60), (.fenceQuery mb r, 0x70), (.requalify mb r, 0x71), (.attest mb r, 0x80), (.keyImport mb r, 0x81),
    (.reduceConfig mb r, 0x91), (.telemetryConfig mb r, 0xA0), (.cairnRead mb r, 0xA1), (.modeSet mb r, 0xB0), (.snapshotRead mb r, 0xC0)]

end Sys2Proof.Says

/-- The mailbox protocol (R32, R324-R327): a busy mailbox counts and ignores the doorbell; in RECOVERING only some commands are served, the
others end with BUSY; a command without its session ends with AUTH_FAIL, a malformed one or one of an unknown opcode with BAD_ARG; where no
stage core serves, the house core answers. A response clears `busy`, sets `done` with its status and opcode, stands whole in the response
area, and raises the mailbox's vector. -/
def Obligations.MailboxProtocol : Prop :=
  (∀ (mb : Nat) (r : NyReq) (s : State), mb < 8 → s.isIn .off = false → s.linkServes = true → s.nymakServes = true →
    ∀ pkg ns i op, NyRow mb r pkg ns i op → r.opcode = op →
      let u := accepted s mb r
      (s.flag (Reg.MB_STATUS_busy mb) = true → exec i s = .next (s.inc (Reg.MB_STATUS_ignored_count mb))) ∧
      (s.flag (Reg.MB_STATUS_busy mb) = false →
        (u.isIn .recovering = true → servedRecovering r.opcode = false → exec i s = .next (u.respond mb St.busy.code [])) ∧
        (u.isIn .recovering = false → r.opcode ≠ 1 → (r.session = 0 ∨ r.session ≠ (u.mb mb).session) →
          exec i s = .next (u.respond mb St.authFail.code [])) ∧
        (u.isIn .recovering = false → (r.opcode = 1 ∨ (r.session ≠ 0 ∧ r.session = (u.mb mb).session)) → u.badFormat r = true →
          exec i s = .next (u.respond mb St.badArg.code [])))) ∧
  (∀ (mb : Nat) (r : NyReq) (s : State),
    (NyReady mb r s → knownOp r.opcode = false → exec (.mbDoorbellGo mb r) s = .next ((accepted s mb r).respond mb St.badArg.code [])) ∧
    (mb < 8 → s.isIn .off = false → s.linkServes = true → s.nymakServes = false → s.isIn .dark = false →
      exec (.mbDoorbellGo mb r) s = .next ((s.putRequest mb r).houseAnswer mb))) ∧
  (∀ (mb status : Nat) (r : NyReq) (at' : Nat) (res : List Byte) (s : State), mb < 8 → (s.mb mb).cmd = some (r, at') → res.length ≤ 0x3000 →
    let t := s.respond mb status res
    t.flag (Reg.MB_STATUS_busy mb) = false ∧ t.flag (Reg.MB_STATUS_done mb) = true ∧
      t.get (Reg.MB_STATUS_last_status mb) = status % 2 ^ (Reg.MB_STATUS_last_status mb).w ∧
      t.get (Reg.MB_STATUS_last_opcode mb) = r.opcode % 2 ^ (Reg.MB_STATUS_last_opcode mb).w ∧ (t.mb mb).cmd = none ∧
      t.out = s.out ++ [.msix (1 + mb)] ∧ t.mem = s.mem ∧ t.cells = s.cells ∧
      ∀ i, i < res.length → bits (t.reg (mbBase mb + 0x4020 + i / 8 * 8)) (i % 8 * 8) 8 = (nth res i (0 : Byte)).toNat) ∧
  ∀ (mb e st : Nat) (s : State), mb < 8 → e < 64 → (s.host.finals.find? fun f => f.1 == mb && f.2.1 == e) = some (mb, e, st) →
    bitAt (s.reg (deferAt mb e)) 0 = true → bitAt (s.reg (deferAt mb e)) 1 = false →
    ∃ t, exec (.deferralFinal mb e) s = .next t ∧ bitAt (t.reg (deferAt mb e)) 1 = true ∧ bits (t.reg (deferAt mb e)) 16 8 = st % 256 ∧
      t.flag (Reg.MB_STATUS_deferred mb) = true ∧ t.out = s.out ++ [.msix (1 + mb)] ∧ t.mem = s.mem ∧ t.cells = s.cells

/-- What mailbox commands do once they pass (R180, R208-R210, R224-R231, R267, R297, R308, R329, R334, R336-R341): each ends with OK and its
result, or goes on. The number of a new session is free (log 3). -/
def Obligations.MailboxCommands : Prop :=
  (∀ (mb : Nat) (r : NyReq) (s : State), NyReady mb r s →
    let u := accepted s mb r
    let b := r.arg
    let ok : State → List Byte → Res := fun t res => .next (t.respond mb St.ok.code res)
    (r.opcode = 0x01 → 5 ≤ b.length → argN b 0 4 = 1 →
      (argN b 4 1 = 0 → ∃ t n, exec (.hello mb r) s = .next t ∧ 0 < n ∧ n < 2 ^ 32 ∧ (t.mb mb).session = n ∧
        t.flag (Reg.MB_STATUS_session_open mb) = true ∧ t.get (Reg.MB_STATUS_last_status mb) = 0 ∧ t.mem = s.mem ∧ t.cells = s.cells) ∧
      (argN b 4 1 = 1 → exec (.hello mb r) s = ok (u.closeSession mb) [])) ∧
    (r.opcode = 0x10 → u.host.strike = none → ∀ pkg,
      let j := u.judgeLoad b pkg
      exec (.packageLoad mb r pkg) s = .next (j.2.respond mb j.1.code (loadResult j.1 j.2)) ∧
      let p := u.packageOf (argN b 0 8) pkg
      (u.isIn .ready = true → u.flag Reg.DOR_DEBUG_unlocked = false → u.loadArgOk b = true → u.magicOk b = true → u.digestOk b = true →
        u.sectionsOk (argN b 0 8) p = true → u.castFenced p = false → ∀ rsv, u.reserveFor (argN b 0 8) p = some rsv →
        ∃ t, exec (.packageLoad mb r pkg) s = .next (t.respond mb St.ok.code (loadResult .ok t)) ∧ t = u.loadPackage b p rsv)) ∧
    (r.opcode = 0x11 → u.host.load = none → u.host.strike = none → u.seq.start = none → u.isIn .running = true → ∀ ns,
      exec (.packageUnload mb r ns) s = .next (u.startUnload mb 0x11 ns).endStrike) ∧
    (r.opcode = 0x20 → argN b 0 1 = 0 → argN b 1 1 = 0 → argN b 2 2 < 64 → 12 ≤ b.length → argN b 12 20 = 0 → ∀ c k,
      u.physical (argN b 4 2) = some c → u.openEp c (argN b 6 1) = true → u.joined ⟨c, argN b 6 1⟩ = none → u.freeChan = some k →
      epSends (u.ep c (argN b 6 1)).cfg = false → u.drainsAt ⟨0xF000 + argN b 2 2, 0⟩ ⟨c, argN b 6 1⟩ = none →
      ∃ t ty, exec (.channelCreate mb r) s = .next t ∧
        t = State.respond ((u.modChan k fun ch => { ChanSt.init with
            gen := ch.gen, live := true, ty := ty, send := some ⟨0xF000 + argN b 2 2, 0⟩, recv := some ⟨c, argN b 6 1⟩ }).chanUp k ⟨0xF000 + argN b 2 2, 0⟩ ⟨c, argN b 6 1⟩)
          mb St.ok.code (toLE 4 (ty * 2 ^ 28 + (u.chan k).gen * 2 ^ 16 + k)) ∧
        ty = (if epKind (u.ep c (argN b 6 1)).cfg = 3 then 3 else if u.inPair ⟨c, argN b 6 1⟩ then 5 else 2)) ∧
    (r.opcode = 0x21 → 4 ≤ b.length → hType (argN b 0 4) ≠ 6 → ∀ ch, u.chanOf (argN b 0 4) = some ch → ch.fromPkg = false →
      exec (.channelDestroy mb r) s = ok (u.destroyChan (hIndex (argN b 0 4))) []) ∧
    (r.opcode = 0x30 → 15 ≤ b.length → 0 < argN b 8 4 → argN b 8 4 ≤ 1000000 → argN b 14 1 ≤ 1 → argN b 15 17 = 0 →
      u.isIn .running = true → u.pkg.isSome = true → u.acts.queue.length < 16 → (∀ a ∈ u.acts.queue, a.count ≠ 0) → argN b 0 8 ≠ 0 →
      (∀ t, u.lastCurtain = some t → t ≤ argN b 0 8) →
      exec (.actSchedule mb r) s = ok (u.modActs fun a => { a with
        queue := a.queue ++ [(⟨argN b 0 8, argN b 8 4 * 1000, argN b 12 2, argN b 14 1, a.nextNum, 0⟩ : ActRec)]
        nextNum := a.nextNum + argN b 12 2 }) (toLE 8 u.acts.nextNum)) ∧
    (r.opcode = 0x31 → 1 ≤ b.length → argN b 0 1 = 0 → u.acts.changes = [] →
      exec (.actStop mb r) s = ok (u.modActs fun a => { a with
        queue := [], nextNum := (match u.nextAct with | some a => a.1 | none => u.acts.nextNum), fixed := none }).idlePeriod
        (toLE 4 (min (queuedActs u.acts.queue) (2 ^ 32 - 1)))) ∧
    (r.opcode = 0x40 → slotArgOk b = true → ∀ i, u.ringOf (argN b 16 4) = some i → (u.ring i).binding = 3 →
      (u.slots.map fun p => match p.2.reopen with
        | some (_, _, a) => argN a 8 4
        | none => if p.2.isOpen then p.2.pt else 0).sum + argN b 8 4 ≤ 16777216 →
      let x := u.slot (argN b 0 2)
      let gen := if x.gen = 0xFFFF then 1 else x.gen + 1
      x.isOpen = false → x.st ≠ 4 →
      exec (.slotOpen mb r) s = ok (u.modSlot (argN b 0 2) fun _ => openSlot gen b) (toLE 2 gen)) ∧
    (r.opcode = 0x41 → 4 ≤ b.length → argN b 0 2 < 1024 → (u.slot (argN b 0 2)).isOpen = true → (u.slot (argN b 0 2)).gen = argN b 2 2 →
      exec (.slotClose mb r) s = ok (u.change (.close (argN b 0 2) (argN b 2 2))) []) ∧
    (r.opcode = 0x50 → u.isIn .running = true → u.belay = none → ∀ p, u.pkg = some p → 144 ≤ b.length → argN b 16 2 = 1 →
      argN b 18 6 = 0 → argN b 88 40 = 0 → argN b 0 8 % 65536 = 0 → argN b 8 8 % 131072 = 0 → inJob (argN b 0 8) (argN b 8 8) = true →
      (∀ g, g < 64 → bits (argN b (24 + g) 1) 4 3 = 0) → (∀ g, g < p.pkg.folds.length → g < 64 ∧ bitAt (argN b (24 + g) 1) 7 = true) →
      bits (argN b 128 8) 39 25 = 0 → argN b 140 4 = 0 → u.extentOk (belayExtent b 0) = true →
      4096 + (belayExtent b 0).2.2.2 ≤ argN b 8 8 / 2 →
      exec (.belaySet mb r) s = .next { u with belay := some ⟨mb, argN b 0 8, argN b 8 8,
        (List.range 64).map fun g => bits (argN b (24 + g) 1) 0 4, [belayExtent b 0], [], false⟩ }) ∧
    (r.opcode = 0x51 → u.isIn .running = true → u.pkg.isSome = true → exec (.restart mb r) s = ok (u.startRecovery 1 6) []) ∧
    (r.opcode = 0x60 → 16 ≤ b.length → argN b 0 1 = 1 → argN b 1 1 = 0 → argN b 2 14 = 0 → u.isIn .ready = true → u.host.strike = none → ∀ ns,
      let areas := [(0, 0x01AE00000000)]
      exec (.strike mb r ns) s = .next (u.modHost fun h =>
        { h with strike := some ⟨mb, 0x60, 0x01AE00000000 / 65536, u.now + min ns (3430 + eraseNs areas), areas,
          min ns (3430 + eraseNs areas), false⟩ }).endStrike) ∧
    (r.opcode = 0x70 → 9 ≤ b.length → argN b 8 1 = 0 → exec (.fenceQuery mb r) s = ok u u.fenceResult) ∧
    (r.opcode = 0xA1 → 16 ≤ b.length → u.host.bme = true →
      let q := copyCairns (argN b 4 4) (u.cairnsFrom (argN b 0 4))
      let t := if q.1.isEmpty then u else (u.request 2 4 0 q.1.length).emit (.hostWrite (argN b 8 8) q.1)
      exec (.cairnRead mb r) s = ok t
        (toLE 4 q.2.1 ++ toLE 4 q.1.length ++ toLE 4 (q.2.2.getD (argN b 0 4)) ++ toLE 4 u.oldestCairn ++ toLE 4 u.newestCairn)) ∧
    (r.opcode = 0xB0 → 1 ≤ b.length → argN b 0 1 ≤ 1 → u.isIn .ready = true →
      exec (.modeSet mb r) s = ok (u.set Reg.SERVICE_MODE_mode (argN b 0 1)) []) ∧
    (r.opcode = 0xC0 → 24 ≤ b.length → argN b 0 8 % 4096 = 0 → argN b 8 8 % 4096 = 0 → argN b 8 8 ≤ 0x4000000 →
      argN b 0 8 + argN b 8 8 ≤ 0x10000000 → u.host.bme = true →
      (u.host.keySession ≠ mb + 1 → exec (.snapshotRead mb r) s = .next (u.respond mb St.authFail.code [])) ∧
      (u.host.keySession = mb + 1 → u.flag Reg.RECOVERY_STATUS_snapshot_valid = true →
        let q := ((u.request 0 4 0 (argN b 8 8)).request 2 4 0 (argN b 8 8)).readDram (snapAt + argN b 0 8) (argN b 8 8) []
        exec (.snapshotRead mb r) s = ok (q.2.emit (.hostWrite (argN b 16 8) (gransBytes q.1))) (toLE 8 (argN b 8 8))))) ∧
  ∀ (l : LoadSt) (s : State), s.host.load = some l → s.host.strike = none → s.isIn .ready = true →
    let j := (s.modHost fun h => { h with load := none }).judgeLoad l.req.arg l.pkg
    exec .packageLoadProceed s = .next ((if j.1 = .ok then j.2.setReg (deferAt l.mb l.entry + 8) (ofLE (loadResult j.1 j.2)) else j.2).settleDefer
      l.mb l.entry j.1)

/-- Host rings (R320, R323, R344-R349): a doorbell moves the host's position of a ring within its bounds, and stops the ring beyond them; an
entry of the ring's kind is passed, a PAD skipped; a waiting completion entry is written once it has room; the interrupt follows the first
entry not signalled; an access error stops the ring; a ring that has shut down is free with the next generation. -/
def Obligations.Rings : Prop :=
  (∀ (off : Nat) (v : Word64) (s : State), off < 0x100000 → off % 64 = 0 → s.isIn .off = false → s.isIn .dark = false →
    s.linkServes = true → (s.ring (off / 64)).up = true → (s.ring (off / 64)).stopped = false →
    let i := off / 64
    let r := s.ring i
    ∀ w, (w = 4 ∨ w = 8) →
    let p := v.toNat % 2 ^ 32
    (p < r.grans → r.binding = 3 → (p + r.grans - r.head) % r.grans ≤ r.fill →
      exec (.ringDoorbell off w true v) s = .next (s.modRing i fun r => { r with head := p })) ∧
    (p < r.grans → r.binding ≠ 3 → r.fill + (p + r.grans - r.tail) % r.grans ≤ r.grans - 1 →
      exec (.ringDoorbell off w true v) s = .next (s.modRing i fun r => { r with tail := p })) ∧
    (r.grans ≤ p → exec (.ringDoorbell off w true v) s = .next ((s.ringErr i 6 r.seq true).writeBackRing i)) ∧
    exec (.ringDoorbell off w false v) s = .next (s.emit (.barRead off (s.doorbellWord off w)))) ∧
  (∀ (i n : Nat) (e : List Byte) (s : State), i < 16384 → foreignEntry e = true →
    (s.readRing i e = .pad n → exec (.padEntry i e) s = .next (s.passEntry i n false)) ∧
    ∀ seq, s.readRing i e = .skip 1 seq n →
      exec (.padEntry i e) s = .next ((s.ringErr i 1 seq false).passEntry i n (ofLE (e.take 1) != 0))) ∧
  (∀ (i n seq : Nat) (e b : List Byte) (s : State), i < 16384 →
    let u := s.hubCredits
    u.readRing i e = .entry seq n b → ofLE (e.take 1) = 0x40 →
    let h := ofLE (b.take 4)
    let ch := u.chan (hIndex h)
    let len := ofLE ((b.drop 4).take 4)
    ch.live = true → ch.draining = false → handleOf (hIndex h) ch = h → ch.send = some ⟨0x10000 + i, 0⟩ → ∀ c k, ch.recv = some ⟨c, k⟩ → c < 0xF000 →
    32 ≤ len → len ≤ 4096 → ofLE ((b.drop 8).take 1) ≤ 1 → ofLE ((b.drop 9).take 7) = 0 → len ≤ (b.drop 16).length →
    (len + 31) / 32 ≤ epMaxGran (u.ep c k).cfg →
    exec (.messageEntry i e) s =
      .next ((u.hubSend (hIndex h) (toGrans (fun _ => ofLE ((b.drop 8).take 1) == 1) ((b.drop 16).take len))).passEntry i n true)) ∧
  ∀ (i : Nat) (s : State), i < 16384 →
    let r := s.ring i
    let u := s.hubIntake
    (u.ringsRun = true → (u.ring i).live = true → (u.ring i).stopped = false → (u.ring i).binding = 3 →
      exec (.completionDelivery i) s = .next (u.deliverEntry i)) ∧
    (∀ t, r.unsignalled = some t → s.ringsRun = true → r.live = true → t + 1000 * r.delay ≤ s.now →
      exec (.ringIrqTimer i) s = .next ((s.modRing i fun r => { r with unsignalled := none }).emit (.msix r.vector))) ∧
    (r.live = true → r.stopped = false → exec (.hostAccessError i) s = .next (s.modRing i fun r =>
      { r with errs := (r.errs + 1) % 2 ^ 32, lastErr := 7, errSeq := r.seq, stopped := true })) ∧
    (r.closing.isSome = true →
      let g := if r.gen = 0xFFF then 1 else r.gen + 1
      (r.next = none → exec (.ringShutdownDone i) s = .next (s.modRing i fun _ => { RingSt.init with gen := g })) ∧
      (∀ mb e a, r.next = some (mb, e, a) → exec (.ringShutdownDone i) s =
        .next ((s.modRing i fun _ => { ringFromArg g a r.chan with next := some (mb, e, []) }).settleDefer mb e .ok)))

/-! ### Bring-up, contacts -/

/-- Bring-up and the contacts (R31, R33, R350-R359, R396, R457-R459): in BRINGUP the code of the next step begins that step, any other is
refused with its error; a start is taken, or refused where the state forbids it; a step ends in time or past its bound, and a failure goes
back to STANDBY; the heavy band is entered and left, with its recheck. Qualified power wakes the always-on domain; PANEL_RESET_N and TEST_N
high enter STANDBY with the house clock at 0 and the straps sampled, only a cold start to follow; PWR_OK low, PANEL_RESET_N low and the input
outside its range end in OFF; a thermal trip changes no state of the panel. -/
def Obligations.BringUp : Prop :=
  ((∀ (v : Word64) (env : StepEnv) (s : State), s.isIn .off = false →
    ∀ p ∈ ([(.powerCheck, 1), (.secureBoot, 2), (.fwLoad, 3), (.seamTrain, 4), (.dramTrain, 5), (.ropeTrain, 6), (.bist, 7), (.mapMerge, 8),
        (.partnerCheck, 9), (.riggingBase, 10), (.dressRehearsal, 11), (.strikeStep, 12), (.readyStep, 13)] :
        List ((Word64 → StepEnv → Instr) × Nat)), v.toNat % 16 = p.2 →
      (s.isIn .bringup = false → exec (p.1 v env) s = .next (s.set Reg.SEQ_STATUS_last_err 4)) ∧
      (s.isIn .bringup = true → s.flag Reg.SEQ_STATUS_running = true → exec (p.1 v env) s = .next (s.set Reg.SEQ_STATUS_last_err 5)) ∧
      (s.isIn .bringup = true → s.flag Reg.SEQ_STATUS_running = false → s.seq.next ≠ p.2 →
        exec (p.1 v env) s = .next (s.set Reg.SEQ_STATUS_last_err 4)) ∧
      (s.isIn .bringup = true → s.flag Reg.SEQ_STATUS_running = false → s.seq.next = p.2 → s.warm = false →
        (p.2 = 9 → s.flag Reg.SEQ_STATUS_partner_needed = true) →
        ∃ t, exec (p.1 v env) s = .next t ∧ t.flag Reg.SEQ_STATUS_running = true ∧ t.get Reg.SEQ_STATUS_step = p.2 ∧
          t.get Reg.SEQ_STATUS_last_err = 0 ∧ t.seq = { s.seq with stepAt := s.now, env := some env, losses := 0 } ∧
          t.mem = s.mem ∧ t.cells = s.cells) ∧
      (s.isIn .bringup = true → s.flag Reg.SEQ_STATUS_running = false → s.seq.next = p.2 → s.warm = true → (p.2 = 7 ∨ p.2 = 9) →
        ∃ t, exec (p.1 v env) s = .next t ∧ t.flag Reg.SEQ_STATUS_running = false ∧ t.flag Reg.SEQ_STATUS_skipped = true ∧
          t.seq.next = p.2 + 1 ∧ t.mem = s.mem)) ∧
  (∀ (v : Word64) (s : State), s.isIn .off = false → s.isIn .bringup = false → s.isIn .recovering = false → s.isIn .dark = false →
    s.seq.start = none → s.flag Reg.DOR_DEBUG_unlocked = false → s.isIn .running = false →
    (v.toNat % 16 = 15 → ∃ t, exec (.startCold v) s = .next t ∧ t = (s.enterBringup false).set Reg.SEQ_STATUS_last_err 0 ∧
      t.isIn .bringup = true ∧ t.seq.next = 1 ∧ t.mem.cells = [] ∧ t.flag Reg.SEQ_STATUS_warm = false ∧ t.cells = [] ∧ t.chans = []) ∧
    (v.toNat % 16 = 14 → s.flag Reg.SEQ_STATUS_cold_only = true → exec (.startWarm v) s = .next (s.set Reg.SEQ_STATUS_last_err 3)) ∧
    (v.toNat % 16 = 14 → s.flag Reg.SEQ_STATUS_cold_only = false → ∃ t, exec (.startWarm v) s = .next t ∧
      t = (s.enterBringup true).set Reg.SEQ_STATUS_last_err 0 ∧ t.isIn .bringup = true ∧ t.seq.next = 1 ∧ t.flag Reg.SEQ_STATUS_warm = true)) ∧
  (∀ (e : StepEnv) (s : State), s.seq.env = some e → s.isIn .bringup = true → s.flag Reg.SEQ_STATUS_running = true →
    let code := s.seq.next
    let late := s.seq.stepAt + s.stepBound code e < s.now
    (late → exec .stepTimeout s = .next (s.failStep 0x0C 0) ∧ exec .stepComplete s = .next (s.failStep 0x0C 0)) ∧
    (¬late → exec .stepTimeout s = .next s) ∧
    (¬late → e.cause ≠ 0 → code ≠ 5 → code ≠ 6 → code < 12 → exec .stepComplete s = .next (s.failStep e.cause e.unit)) ∧
    (¬late → e.cause ≠ 0 → code = 5 →
      exec .stepComplete s = .next ((s.set (Reg.DRAM_CH_STATUS_state (e.unit % 24)) 2).failStep e.cause e.unit)) ∧
    (¬late → e.cause = 0 ∨ code = 6 ∨ code = 12 → code ≠ 13 → ∀ t, s.stepWork code e = (t, none) → exec .stepComplete s = .next (t.stepDone false)) ∧
    (¬late → e.cause = 0 ∨ code = 6 ∨ code = 12 → code ≠ 13 → ∀ t cause unit, s.stepWork code e = (t, some (cause, unit)) →
      exec .stepComplete s = .next (t.failStep cause unit)) ∧
    (¬late → code = 13 → exec .stepComplete s = .next (s.readyStep e))) ∧
  (∀ (cause unit : Nat) (s : State),
    let t := s.failStep cause unit
    t.isIn .standby = true ∧ t.flag Reg.SEQ_STATUS_running = false ∧
    t.flag Reg.SEQ_STATUS_cold_only = true) ∧
  ∀ s : State,
    ((s.isIn .ready = true ∨ s.isIn .running = true) → s.seq.recheck = none → s.seq.rechecked = false →
      s.get Reg.POWER_CTRL_limit_w < 2 * s.get Reg.POWER_STATUS_input_w →
      exec .loadRecheck s = .next ((s.set Reg.POWER_STATUS_band_heavy 1).modSeq fun q => { q with recheck := some s.now })) ∧
    (∀ e : StepEnv, (s.isIn .ready = true ∨ s.isIn .running = true) → s.seq.recheck.isSome = true → ∃ t, exec (.loadRecheckDone e) s = .next t ∧
      t.seq.recheck = none ∧ t.seq.rechecked = true ∧ t.seq.heavy.valid = (e.cause == 0) ∧
      (e.bad = [] → t = s.modSeq fun q => { q with recheck := none, rechecked := true, heavy := ⟨e.cause == 0, s.linkWords⟩ })) ∧
    (∀ t, s.seq.lightAt = some t → s.flag Reg.POWER_STATUS_band_heavy = true → t + 60000000000 ≤ s.now →
      exec .powerBandLight s = .next ((s.set Reg.POWER_STATUS_band_heavy 0).modSeq fun q => { q with rechecked := false }))) ∧
  (∀ s : State,
    (s.isIn .off = true → 54000 ≤ s.pins.mv → s.pins.mv ≤ 62000 →
      exec .powerQualified s = .next (s.modPins fun p => { p with pwrOk := true, alwaysOn := true })) ∧
    (s.isIn .off = true → s.pins.alwaysOn = true → s.pins.testN = true →
      ∃ t, exec .standbyEntry s = .next t ∧ t.isIn .standby = true ∧ t.now = 0 ∧ t.flag Reg.SEQ_STATUS_cold_only = true ∧
        t.pins = { s.pins with resetN := true, sampled := s.pins.straps % 8 } ∧ t.mem = s.mem ∧ t.cells = s.cells) ∧
    (s.isIn .off = false → ∃ t, exec .pwrOkLow s = .next t ∧ t.isIn .off = true ∧ t.pins.pwrOk = false ∧ t.pins.alwaysOn = false ∧
      t.mem = State.reset.mem ∧ t.cairn.staging = [] ∧ t.cairn.flash = s.cairn.flash ∧ t.pkg = none) ∧
    (s.isIn .off = false → ∃ t, exec .panelReset s = .next t ∧ t.isIn .off = true ∧ t.pins.resetN = false ∧ t.pins.alwaysOn = s.pins.alwaysOn ∧
      t.mem = State.reset.mem ∧ t.cairn.flash = s.cairn.flash ∧ t.pkg = none) ∧
    (∀ k, s.power.outAt = some k → k + 50000 ≤ s.now → ∃ t, exec .powerLoss s = .next t ∧ t.isIn .off = true ∧ t.pins.alwaysOn = false) ∧
    (s.pins.alwaysOn = true → exec .thermtrip s = .next (s.modPins fun p => { p with tripped := true })))


/-! ### Rope -/

/-- Rope frames (R373, R380, R381, R383, R385, R386): a frame whose tag fails is discarded and counted; one with the expected number is
accepted, acknowledged after 64 frames or 2 us, and sent again by its sender after 10 us without progress; a stream frame for this rank lands
in its stream's landing, one for another rank is forwarded. -/
def Obligations.RopeFrames : Prop :=
  (∀ (p : Nat) (f : RopeFrame) (s : State),
    let x := s.rport p
    (f.fec ≠ 0 → s.ropeReceive p f true = (false, (s.inc (Reg.ROPE_COUNTS_fec_uncorrected p) f.fec).ropeNak p)) ∧
    (f.fec = 0 → f.tagOk = false → s.ropeReceive p f true = (false, (s.tagFail p).ropeNak p)) ∧
    (f.fec = 0 → f.tagOk = true → fSeq f ≠ x.expect → s.ropeReceive p f true = (false, s.ropeNak p)) ∧
    (s.ropeNak p = if x.nakSent ∨ s.ringSt (p / 2) = 7 then s else s.ropeCtrl p true) ∧
    (f.fec = 0 → f.tagOk = true → fSeq f = x.expect → (s.ropeReceive p f true).1 = true ∧
      ((s.ropeReceive p f true).2.rport p).expect = (x.expect + 1) % 2 ^ 16)) ∧
  (∀ (p : Nat) (f : RopeFrame) (dram : List DramErr) (s : State), p < 6 → s.portUp p = true →
    let r := s.ropeReceive p f true
    let u := r.2
    let mine := r.1 = true
    (fType f = 1 →
      (r.1 = false → exec (.streamFrame p ⟨f, dram⟩) s = .next u) ∧
      (mine → u.ownRank (fDst f) = false → exec (.streamFrame p ⟨f, dram⟩) s = .next (u.ropeForward p f)) ∧
      (mine → u.ownRank (fDst f) = true →
        (∀ base len, SMap.get? u.rope.landings (fStream f) = some (base, len) → 32 * fOffset f + f.payload.length ≤ len →
          exec (.streamFrame p ⟨f, dram⟩) s = .next ((u.request 0 2 0 f.payload.length).writeGrans (base + 32 * fOffset f) (fGrans f) dram)) ∧
        (SMap.get? u.rope.landings (fStream f) = none →
          exec (.streamFrame p ⟨f, dram⟩) s = .next (u.inc (Reg.ROPE_COUNTS_landing_drop_count p))))) ∧
    (fType f = 2 → mine → ∀ t, u.rope.team = some t →
      (t.rank ≠ fDst f → exec (.partialFrame p ⟨f, dram⟩) s = .next (u.ropeForward p f)) ∧
      (t.rank = fDst f → ∀ x, t.shardOf (fStream f) = some x →
        exec (.partialFrame p ⟨f, dram⟩) s = .next (if bitAt (fFlags f) 2 then u.contribute t x (fStep f) (some (fSrc f)) 0 0 0 0 [] dram
          else u.contribute t x (fStep f) (some (fSrc f)) 0 (fCount f) (32 * fOffset f) x.bytes (fGrans f) dram)) ∧
      (t.rank = fDst f → t.shardOf (fStream f) = none → exec (.partialFrame p ⟨f, dram⟩) s = .next (u.inc Reg.ROPE_RED_COUNTS_late_in))) ∧
    (fType f = 3 → mine → ∀ t x, u.rope.team = some t → t.rank = fDst f → t.shardOf (fStream f) = some x →
      (u.redStep x.shard (fStep f)).isSome = true → fOffset f ≠ 0 →
      exec (.paramFrame p ⟨f, dram⟩) s = .next (u.params t x (fStep f) (32 * fOffset f) (bitAt (fFlags f) 0) (fGrans f) dram))) ∧
  (∀ (p : Nat) (f : RopeFrame) (s : State), p < 6 →
    (fType f = 4 → s.sessionOpen p = true → f.fec = 0 →
      (f.tagOk = false → exec (.ctrlFrame p f) s = .next (s.tagFail p)) ∧
      (f.tagOk = true → f.payload.length < 32 → bitAt (fFlags f) 3 = false → exec (.ctrlFrame p f) s = .next (s.ropeAcked p f))) ∧
    (fType f = 5 → s.sessionOpen p = true → p % 2 = 0 →
      let r := s.ropeReceive p f false
      let q := r.2.collect p (helloLen + sigLen) f
      r.1 = true → exec (.ropeHelloFrame p f) s = .next (match q.1 with | some m => q.2.answerHello p m | none => q.2)) ∧
    (fType f = 6 → s.sessionOpen p = true → p % 2 = 1 →
      let r := s.ropeReceive p f false
      let q := r.2.collect p (sessionLen + sigLen) f
      r.1 = true → exec (.sessionFrame p f) s = .next (match q.1 with | some m => q.2.takeSession p m | none => q.2))) ∧
  ∀ (p : Nat) (s : State), p < 6 →
    let x := s.rport p
    (x.accepted ≠ 0 → x.ackAt + 2000 ≤ s.now → exec (.ropeAckTimer p) s = .next (s.ropeCtrl p false)) ∧
    (x.unacked ≠ [] → x.trained = true → x.progressAt + 10000 ≤ s.now → exec (.ropeReplayTimeout p) s = .next (s.ropeReplay p)) ∧
    (∀ ty n bs t, x.part = some (ty, n, bs, t) → t + 100000000 ≤ s.now → exec (.reassemblyTimeout p) s = .next (s.dropPart p))

/-- Rope rings, lanes and their commands (R375, R376, R378, R383, R384, R394, R395): training, HELLO, session and bypass lead a ring to UP; a
lost link trains again; a ring that drains is DISABLED and a deferred ENABLE follows; lanes move to spares; the operations of ROPE_CONFIG
do what Table 15.8 says. -/
def Obligations.RopeRings : Prop :=
  (∀ (p : Nat) (s : State), p < 6 →
    let i := p / 2
    let x := s.rport p
    let r := s.rring i
    (∀ l, l < 16 → s.portUp p = true → s.spareOk p l = true → exec (.fecThreshold p l) s = .next (s.askSpare p l 1)) ∧
    (∀ l y, l < 16 → s.portUp p = true → (x.lanes.find? fun z => z % 32 == l) = some y → exec (.spareSwap p l) s =
      .next ((s.modPortR p fun z => { z with lanes := z.lanes.erase y }).spareLane p l (if y / 32 = 2 then 2 else 1) (s.sparedCount p + 1))) ∧
    (p % 2 = 1 → s.ringSt i = 2 → bitAt r.expected 1 = true → bitAt r.session 1 = false → x.sessionAt + 100000000 ≤ s.now →
      exec (.ropeHelloRetry p) s = .next (s.sendHello p 5)) ∧
    (p % 2 = 1 → s.portUp p = true → bitAt r.session 1 = true → (x.sessionAt + 3600000000000 ≤ s.now ∨ 2 ^ 40 ≤ x.frames) →
      exec (.ropeRekey p) s = .next (s.sendHello p 6)) ∧
    (∀ bad, x.trained = false → s.ringSt i = 1 → bitAt r.expected (p % 2) = true →
      exec (.ropeTrainingDone p true bad) s = .next ((s.modPortR p fun y => { y with trained := true }).ringOn i) ∧
      exec (.ropeTrainingDone p false bad) s = .next (s.ringDown i)) ∧
    (∀ bad, x.trained = false → s.ringSt i = 3 → s.flag (Reg.ROPE_STATUS_bypass_open p) = true →
      bitAt r.expected (p % 2) = true →
      exec (.ropeTrainingDone p true bad) s = .next ((s.trainLanes p bad).ringUp i) ∧
      exec (.ropeTrainingDone p false bad) s = .next (s.ringDown i)) ∧
    (s.portUp p = true → ∃ t, exec (.ropeLinkLost p) s = .next t ∧
      t.rport p = { RopePortSt.init with lanes := x.lanes, msgNo := x.msgNo } ∧ bitAt (t.rring i).session (p % 2) = false ∧
      (∀ q, q ≠ p → t.rport q = s.rport q) ∧ t.mem = s.mem ∧ t.cells = s.cells)) ∧
  (∀ (i : Nat) (s : State), i < 3 →
    (s.ringSt i = 3 → s.flag (Reg.ROPE_STATUS_bypass_open (2 * i)) = false → (s.rring i).breakAt ≤ s.now →
      ∃ t, exec (.bypassOpen i) s = .next t ∧ t.flag (Reg.ROPE_STATUS_bypass_open (2 * i)) = true ∧
        t.flag (Reg.ROPE_STATUS_bypass_open (2 * i + 1)) = true ∧ (t.rport (2 * i)).trained = false ∧
        (t.rport (2 * i + 1)).trained = false ∧ t.mem = s.mem) ∧
    (s.ringSt i = 5 → (s.rring i).disabledAt + 1000000 ≤ s.now →
      let t := (s.endRing i 6).modRingR i fun r => { r with next := none }
      ((s.rring i).next = none → exec (.ropeDisableDrainEnd i) s = .next t) ∧
      (∀ mb e sel, (s.rring i).next = some (mb, e, sel) →
        exec (.ropeDisableDrainEnd i) s = .next ((t.openRing i sel).settleDefer mb e .ok)))) ∧
  ∀ (mb : Nat) (r : NyReq) (s : State), NyReady mb r s → r.opcode = 0x90 →
    let u := accepted s mb r
    let b := r.arg
    let i := argN b 1 1
    let ok : State → List Byte → Res := fun t res => .next (t.respond mb St.ok.code res)
    64 ≤ b.length → argN b 3 1 = 0 → argN b 24 40 = 0 →
      (argN b 0 1 = 0 → i ≤ 2 → argN b 2 1 ≤ 3 → u.ringSt i ≠ 3 → u.ringSt i ≠ 4 → u.ringSt i ≠ 5 → exec (.ropeEnable mb r) s = ok (u.openRing i (argN b 2 1)) []) ∧
      (argN b 0 1 = 1 → i ≤ 2 → (u.rring i).next = none →
        (u.ringSt i ≠ 4 → u.ringSt i ≠ 5 → exec (.ropeDisable mb r) s = ok (u.endRing i 6) []) ∧
        (u.ringSt i = 4 → ∃ t, exec (.ropeDisable mb r) s = ok t [] ∧ t.ringSt i = 5 ∧ (t.rport (2 * i)).waiting = [] ∧
          (t.rport (2 * i + 1)).waiting = [] ∧ (t.rring i).disabledAt = s.now ∧ t.mem = s.mem ∧ t.cells = s.cells)) ∧
      (argN b 0 1 = 2 → argN b 6 2 ≤ 4096 → 64 + 64 * argN b 6 2 ≤ b.length →
        let raw := (b.drop 64).take (64 * argN b 6 2)
        let t := (u.modRope fun y => { y with peers := chunks 64 (argN b 6 2) raw }).dorLog 0x0E (shake256 64 raw) []
        exec (.ropePeers mb r) s = ok ((List.range 6).foldl (fun s p => s.recheckPeers u.rope.peers p) t) []) ∧
      (argN b 0 1 = 3 → i ≤ 5 → u.spareOk i (argN b 2 1) = true → exec (.ropeConfigSpare mb r) s = ok (u.askSpare i (argN b 2 1) 2) []) ∧
      (argN b 0 1 = 4 → argN b 8 8 % 65536 = 0 → inJob (argN b 8 8) (argN b 16 8) = true → u.isIn .running = true →
        exec (.ropeLanding mb r) s = ok (u.modRope fun y => { y with landings := SMap.put y.landings (argN b 4 2) (argN b 8 8, argN b 16 8) }) []) ∧
      (argN b 0 1 = 5 → exec (.ropeLandingClose mb r) s = ok (u.modRope fun y => { y with landings := SMap.del y.landings (argN b 4 2) }) [])

/-- The gradient reduction (R387-R391): in RUNNING a team is configured at once; its step opens for every shard with its buffer at −0; at the
cutoff, with every contribution complete, the node's loop ends, and at `level_ns` after it what is incomplete is abandoned. -/
def Obligations.Reduction : Prop :=
  (∀ (mb : Nat) (r : NyReq) (s : State), NyReady mb r s → r.opcode = 0x91 →
    let u := accepted s mb r
    (u.isIn .running = true → 64 ≤ r.arg.length → u.teamOk r.arg (teamOf r.arg) = true → exec (.reduceConfig mb r) s =
      .next ((u.modRope fun y => { y with team := some (teamOf r.arg), former := none, steps := [] }).respond mb St.ok.code [])) ∧
    (u.isIn .running = false → exec (.reduceConfig mb r) s = .next (u.respond mb St.noResource.code []))) ∧
  (∀ (k : Nat) (t : Team) (s : State), s.rope.team = some t → s.isIn .running = true → t.openOf k ≤ s.now → (∀ x ∈ s.rope.steps, x.k < k) →
    ∃ u, exec (.reductionStepOpen k) s = .next u ∧ (∀ x ∈ t.shards, ∃ y ∈ u.rope.steps, y.shard = x.shard ∧ y.k = k ∧ y.contribs = []) ∧
      u.rope.team = some t ∧ u.cells = s.cells ∧
      (∀ a, (∀ x ∈ t.shards, a < x.buf k ∨ x.buf k + x.bytes / 32 * 32 ≤ a) → u.byte a = s.byte a)) ∧
  (∀ (sh k : Nat) (dram : List DramErr) (t : Team) (x : Shard) (r : RedStep) (s : State), s.rope.team = some t → t.shardOf sh = some x → s.redStep sh k = some r →
    s.isIn .running = true →
    (t.cutoff sh k ≤ s.now → (∀ c ∈ r.contribs, c.complete = true) → exec (.reductionCutoff ⟨sh, dram⟩ k) s = .next (s.endStep t x k false dram)) ∧
    (t.cutoff sh k + t.level ≤ s.now → exec (.reductionAbandon ⟨sh, dram⟩ k) s = .next (s.endStep t x k true dram))) ∧
  ∀ (t : Team) (x : Shard) (k : Nat) (r : RedStep) (dram : List DramErr) (s : State), s.redStep x.shard k = some r →
    (r.ended = true → ∀ b, s.endStep t x k b dram = s) ∧
    (r.ended = false → t.self x.shard ≠ 0 → (∃ c ∈ r.contribs, c.complete = false) →
      let v := (s.modRed x.shard k fun y => { y with ended := true, count := 0 }).inc Reg.ROPE_RED_COUNTS_late_in
      s.endStep t x k true dram = v.ropeTo t 2 4 (t.parent x.shard) x.shard k 0 0 0 [])

/-! ### Power and clocks -/

/-- The effective limit (R398) is the least of `limit_w`, 225 A times the measured input voltage, and 900 W times the number of working
converters: none of the three is below it, and it is one of them. At 54 V it is 12,150 W; with two converters out, 12,600 W. -/
def Obligations.EffectiveLimit : Prop :=
  ∀ s : State,
    let amps := 225 * s.pins.mv / 1000
    let conv := 900 * (16 - s.power.failed.length)
    let limit := s.get Reg.POWER_CTRL_limit_w
    s.effLimit ≤ limit ∧ s.effLimit ≤ amps ∧ s.effLimit ≤ conv ∧ (s.effLimit = limit ∨ s.effLimit = amps ∨ s.effLimit = conv) ∧
      (s.pins.mv = 54000 → limit = 13500 → s.power.failed = [] → s.effLimit = 12150) ∧
      (∀ i j, s.pins.mv = 62000 → limit = 13500 → s.power.failed = [i, j] → s.effLimit = 12600)

namespace Sys2Proof.Says

/-- What a power sample shows (R357, R399): it joins the samples of the last millisecond, `input_w` shows their average, and since when the
average is below half the limit is noted. -/
def sampledPower (s : State) (watts : Nat) : State :=
  let xs := s.power.samples ++ [watts]
  let u := s.modPower fun p => { p with samples := xs.drop (xs.length - 1000) }
  let u := u.showInput.set Reg.POWER_STATUS_input_w (min u.average 65535)
  u.modSeq fun q => { q with lightAt := if 2 * u.average < u.get Reg.POWER_CTRL_limit_w then some (q.lightAt.getD u.now) else none }

end Sys2Proof.Says

open Sys2Proof Sys2Proof.Machine Sys2Proof.Says

/-- Power and clocks (R396, R397, R399-R404): the input and its limits are shown; a failed converter leaves the bus; the power step rises
above the limit and falls below 95 % of it; a fast cut holds code 12 for 1 ms; a region takes the highest of its codes, at least 6 in BRINGUP;
a lost reference clears `locked`; the house clock follows the beacon and the exchange, and never moves backward. -/
def Obligations.PowerAndClocks : Prop :=
  (∀ (mv : Nat) (s : State),
    let outAt := if 52000 ≤ mv ∧ mv ≤ 63000 then none else some (s.power.outAt.getD s.now)
    (s.isIn .off = true → exec (.inputVoltageChange mv) s =
      .next { s with pins := { s.pins with mv := mv }, power := { s.power with outAt := outAt } }) ∧
    (s.isIn .off = false → s.isIn .bringup = false → ∃ t, exec (.inputVoltageChange mv) s = .next t ∧
      t.pins = { s.pins with mv := mv } ∧ t.power = { s.power with outAt := outAt } ∧
      t.get Reg.POWER_STATUS_input_mv = mv % 2 ^ 16 ∧ t.flag Reg.POWER_STATUS_undervolt = decide (mv < 54000) ∧
      t.flag Reg.POWER_STATUS_overvolt = decide (62000 < mv) ∧ t.mem = s.mem ∧ t.cells = s.cells ∧ t.pst = s.pst)) ∧
  (∀ (n : Nat) (s : State), n < 16 → s.powered = true →
    (s.power.failed.contains n = false → ∃ t, exec (.converterFail n) s = .next t ∧
      t.power = { s.power with failed := NSet.add s.power.failed n } ∧ bitAt (t.get Reg.EVENT_STATUS_events) Ev.power.bit = true ∧
      t.mem = s.mem ∧ t.cells = s.cells) ∧
    (s.power.failed.contains n = true → exec (.converterFail n) s = .next s)) ∧
  (∀ (w : Nat) (s : State), s.powered = true →
    let v := sampledPower s w
    let peak : Bool := (if v.flag Reg.POWER_CTRL_peak_enable then 16000 else s.effLimit) < w
    let since := if s.effLimit < w then some (v.power.overAt.getD s.now) else none
    let long := since.any fun t => t + 10000000 ≤ s.now
    let held := v.power.hold.any fun t => s.now < t
    (held = false → peak = false → long = false → exec (.powerSample w) s = .next (v.modPower fun p => { p with overAt := since })) ∧
    (held = false → (peak = true ∨ long = true) → exec (.powerSample w) s = .next v.fastCut) ∧
    (held = true → exec (.powerSample w) s =
      .next (if peak then v.modPower fun p => { p with hold := some (s.now + 1000000) } else v))) ∧
  (∀ s : State,
    s.fastCut.get Reg.POWER_STATUS_power_step = 12 ∧ s.fastCut.power.hold = some (s.now + 1000000) ∧
    bitAt (s.fastCut.get Reg.EVENT_STATUS_events) Ev.power.bit = true ∧
    (s.powered = true → s.power.hold = none → s.effLimit < s.average → s.get Reg.POWER_STATUS_power_step < 12 → s.power.stepAt + 100000 ≤ s.now →
      exec .powerStepRaise s = .next (s.setPowerStep (s.get Reg.POWER_STATUS_power_step + 1))) ∧
    (s.powered = true → s.power.hold = none → 20 * s.average < 19 * s.effLimit → 0 < s.get Reg.POWER_STATUS_power_step →
      s.power.stepAt + 1000000 ≤ s.now → exec .powerStepLower s = .next (s.setPowerStep (s.get Reg.POWER_STATUS_power_step - 1))) ∧
    (∀ t, s.power.hold = some t → t ≤ s.now →
      exec .fastCutHoldEnd s = .next (s.modPower fun p => { p with hold := none, stepAt := s.now, overAt := none })) ∧
    (∀ g, regionValid g = true → s.powered = true → s.get (Reg.REGION_THERMAL_tstate g) < 2 → exec (.frequencyChange g) s =
      .next ((s.clockMark g).set (Reg.REGION_THERMAL_fstep g) (max (max (s.thermal g).step (max (s.get Reg.POWER_STATUS_power_step)
        (s.get (Reg.REGION_FCAP_fstep_max g)))) (if s.isIn .bringup then 6 else 0))))) ∧
  (∀ s : State, s.isIn .off = false →
    (s.flag Reg.POWER_STATUS_ref_lost = false → ∃ t, exec .refclkLost s = .next t ∧ t.flag Reg.POWER_STATUS_ref_lost = true ∧
      t.flag Reg.HC_SYNC_locked = false ∧ t.clock = ⟨some s.now, 0⟩ ∧ t.pst = s.pst ∧ t.mem = s.mem ∧ t.cells = s.cells) ∧
    exec .refclkReturn s = .next { s.set Reg.POWER_STATUS_ref_lost 0 with clock := { s.clock with lostAt := none } } ∧
    (∀ t, s.host.strike = none → s.seq.start = none → exec (.houseClockBeacon t) s = .next { s with now := max s.now t })) ∧
  ∀ (t2 t3 t4 depth : Nat) (s : State), s.isIn .off = false → s.get Reg.HC_SYNC_source = 1 → s.get Reg.HC_SYNC_ring < 3 →
    s.portUp (2 * s.get Reg.HC_SYNC_ring + s.get Reg.HC_SYNC_side) = true →
    let u := s.ropeCtrlWith (2 * s.get Reg.HC_SYNC_ring + s.get Reg.HC_SYNC_side) false (toLE 8 2 ++ toLE 8 s.now ++ toLE 16 0)
    exec (.hcSyncExchange t2 t3 t4 false depth) s = .next (State.set { u with clock := { s.clock with inLock := 0 } } Reg.HC_SYNC_locked 0) ∧
    (s.host.strike = none → s.seq.start = none →
      let off := (((t2 : Int) - s.now) + ((t3 : Int) - t4)).tdiv 2
      let n := if -5 ≤ off ∧ off ≤ 5 then s.clock.inLock + 1 else 0
      ∃ t, exec (.hcSyncExchange t2 t3 t4 true depth) s = .next t ∧ t.clock = { s.clock with inLock := n } ∧
        t.get Reg.HC_SYNC_offset_ns = ofSigned 16 (clampInt (-32768) 32767 off) ∧ t.get Reg.HC_SYNC_depth = min (depth + 1) 0xFF ∧
        t.flag Reg.HC_SYNC_locked = (decide (16 ≤ n) && s.clock.lostAt.isNone) ∧
        t.now = max s.now t4 + (if off ≤ 0 then 0 else if s.isIn .running = true then min off.toNat 10
          else if 1000000 < off then off.toNat else min off.toNat 10000) ∧
        t.out = u.out ∧ t.mem = s.mem ∧ t.cells = s.cells ∧ t.pst = s.pst)

/-! ### Thermal control and the return of a region -/

/-- Thermal steps, GHOST and CUT, the return of a region (R221, R370, R371, R397, R405-R409): at 95 °C and above a region's step rises every
100 us, below 92 °C it falls every 1 ms; 105 °C, 100 ms at 95 °C at code 12, or no working sensor lead to GHOST, 115 °C or a failed regulator
to CUT; below 90 °C it returns; a region that cannot be reached is lost until REQUALIFY. Temperatures in 1/8 °C. -/
def Obligations.ThermalControl : Prop :=
  (∀ (g : Nat) (temp : Int) (s : State), regionValid g = true → s.powered = true → s.tstate g < 2 →
    let v := s.senseTemp g temp
    let due := s.temp g < 760 ∨ (s.thermal g).stepAt + 100000 ≤ s.now
    let up := v.modTherm g fun x => { x with step := x.step + 1, stepAt := s.now }
    let down := v.modTherm g fun x => { x with step := x.step - 1, stepAt := s.now }
    (760 ≤ temp → due → (s.thermal g).step < 12 →
      exec (.thermalStepUp g temp) s = .next (if s.tstate g = 0 then up.dim g else up)) ∧
    ((temp < 760 ∨ ¬due ∨ 12 ≤ (s.thermal g).step) → exec (.thermalStepUp g temp) s = .next v) ∧
    (temp < 736 → (s.thermal g).stepAt + 1000000 ≤ s.now → 0 < (s.thermal g).step → exec (.thermalStepDown g temp) s =
      .next (if (s.thermal g).step = 1 then down.set (Reg.REGION_THERMAL_tstate g) 0 else down)) ∧
    ((736 ≤ temp ∨ s.now < (s.thermal g).stepAt + 1000000 ∨ (s.thermal g).step = 0) → exec (.thermalStepDown g temp) s = .next v)) ∧
  (∀ (g working : Nat) (temp : Int) (s : State), regionValid g = true → s.powered = true →
    let v := (s.set (Reg.REGION_THERMAL_sensors_ok g) working).senseTemp g temp
    let long := (v.thermal g).hotAt.any fun t => t + 100000000 ≤ s.now
    (s.tstate g < 2 →
      (working % 256 = 0 → exec (.ghostEntry g temp working) s = .next ((s.set (Reg.REGION_THERMAL_sensors_ok g) working).ghost g)) ∧
      (working % 256 ≠ 0 → 920 ≤ temp → exec (.ghostEntry g temp working) s = .next (v.cut g)) ∧
      (working % 256 ≠ 0 → temp < 920 → (840 ≤ temp ∨ long = true) → exec (.ghostEntry g temp working) s = .next (v.ghost g)) ∧
      (working % 256 ≠ 0 → temp < 840 → long = false → exec (.ghostEntry g temp working) s = .next v)) ∧
    (s.tstate g < 3 → 920 ≤ temp → exec (.cutEntry g temp) s = .next ((s.senseTemp g temp).cut g)) ∧
    (s.tstate g < 3 → s.power.regFault.contains g = false →
      exec (.regulatorFault g) s = .next (State.cut (s.modPower fun p => { p with regFault := NSet.add p.regFault g }) g))) ∧
  (∀ (g : Nat) (s : State), regionValid g = true → s.isIn .bringup = false →
    let report : Report := ⟨dieUnit g, 0, 9, faultWay 12 (gOf (dieUnit g))⟩
    ((s.ghost g).tstate g = 2 ∧ report ∈ (s.ghost g).mesh.reports ∧ bitAt ((s.ghost g).get Reg.EVENT_STATUS_events) Ev.thermal.bit = true ∧
      (s.ghost g).mem = s.mem ∧ (s.ghost g).cells = s.cells) ∧
    ((s.cut g).tstate g = 3 ∧ report ∈ (s.cut g).mesh.reports ∧ bitAt ((s.cut g).get Reg.EVENT_STATUS_events) Ev.thermal.bit = true ∧
      (s.cut g).mem = s.mem ∧ (s.cut g).cells = s.cells ∧ (∀ p ∈ regionLinks g, (s.cut g).linkState p.1 p.2 = 5) ∧
      ∀ b ∈ regionBlocks g, ((s.cut g).xr b).stages = [] ∧ ((s.cut g).xr b).vc1 = [] ∧ ((s.cut g).xr b).vc2 = [] ∧ ((s.cut g).xr b).vc3 = [])) ∧
  (∀ (g : Nat) (temp : Int) (s : State), regionValid g = true → s.powered = true → s.isIn .recovering = false →
    s.flag (Reg.REGION_THERMAL_lost g) = false → s.power.regFault.contains g = false →
    let v := s.senseTemp g temp
    let cool := fun (ns : Nat) => (v.thermal g).coolAt.any fun t => t + ns ≤ s.now
    (s.tstate g = 3 → cool 1000000000 = true → exec (.cutExit g temp) s =
      .next (((((v.set (Reg.REGION_THERMAL_tstate g) 2).inc (Reg.REGION_THERMAL_dark_count g)).restoreLinks g).showGhost g).raise .thermal)) ∧
    (s.tstate g = 3 → cool 1000000000 = false → exec (.cutExit g temp) s = .next v) ∧
    (s.tstate g = 2 → cool 100000000 = true → exec (.ghostExit g temp) s = .next (v.light g)) ∧
    (s.tstate g = 2 → cool 100000000 = false → exec (.ghostExit g temp) s = .next v) ∧
    (v.light g).tstate g = 1 ∧ (v.light g).get (Reg.REGION_THERMAL_fstep g) = 12) ∧
  (∀ (g : Nat) (s : State), regionValid g = true →
    (s.firmware = true → s.isIn .bringup = false → s.maps.unreached.contains g = false →
      let v := s.modMaps fun m => { m with unreached := NSet.add m.unreached g }
      let v := if s.spareMode then v.set (Reg.REGION_THERMAL_lost g) 1 else v
      exec (.regionControllerUnreachable g) s = .next (if v.regionUsed g then v.fenceRoute else v)) ∧
    (∀ q fails, (s.host.requal.find? fun q => q.1 == g) = some q → (s.isIn .ready = true ∨ s.isIn .running = true) →
      (∀ p ∈ s.placed, gOf (bits p.2 0 16) ≠ g) →
      exec (.regionReturnDone g true fails) s = .next ((s.returnRegion g fails).requalEnds q .ok) ∧
      exec (.regionReturnDone g false fails) s = .next (s.requalEnds q .fenced))) ∧
  ∀ (mb : Nat) (r : NyReq) (s : State), NyReady mb r s → r.opcode = 0x71 →
    let u := accepted s mb r
    let b := r.arg
    let n := argN b 2 2
    let g := argN b 9 1 * 12 + argN b 8 1
    argN b 1 1 = 0 → argN b 4 4 = 0 → 0 < n → n ≤ 256 → 8 + 8 * n ≤ b.length →
      (argN b 0 1 = 0 → (∀ i, i < n → let w := argN b (8 + 8 * i) 8
          bits w 0 4 = 1 ∨ bits w 0 4 = 3 ∨ bits w 0 4 = 4 → cellValid (bits w 8 16) = true) → exec (.requalify mb r) s =
        .next ((u.requalUnits b n).1.respond mb St.ok.code (toLE 2 (u.requalUnits b n).2.1 ++ toLE 2 (u.requalUnits b n).2.2))) ∧
      (argN b 0 1 = 1 → n = 1 → argN b 8 1 ≤ 11 → argN b 9 1 ≤ 11 → u.requalOk g = true →
        ((∀ p ∈ u.placed, gOf (bits p.2 0 16) ≠ g) →
          exec (.requalify mb r) s = .next (u.modHost fun h => { h with requal := h.requal ++ [(g, mb, none)] })) ∧
        ((∃ p ∈ u.placed, gOf (bits p.2 0 16) = g) → ∀ e, u.freeDefer mb = some e →
          let res := toLE 2 1 ++ toLE 2 0
          exec (.requalify mb r) s = .next (State.respond (State.putDefer
            (u.modHost fun h => { h with requal := h.requal ++ [(g, mb, some e)] }) mb e 0x71 r.tag (ofLE res)) mb St.deferred.code res))) ∧
      ∀ e : MapEnt, (u.maps.fixed e = true → u.candidate e = none) ∧
        (u.maps.fixed e = false → u.maps.field.any e.names = true → ∀ t, u.candidate e = some t →
          t.maps.field = u.maps.field.map fun f => if f.names e then { f with candidate := true, passes := 0 } else f)

/-! ### Doreana -/

/-- Doreana (R413-R415, R420-R424, R426-R428): enrolment and policy records are decided by state, form, free slot and signature in this order;
an accepted token wipes the panel and opens debug, a refused one is counted, and the challenge changes after both; evidence is asked for,
queued and signed over the nonce of its request; the job key is taken when its wrapping opens. -/
def Obligations.DoreanaCommands : Prop :=
  (∀ (v : Word64) (s : State), s.isIn .off = false → s.isIn .dark = false → s.linkServes = true →
    let owners := s.dor.owners
    let policy := nth (s.staged 64 1) 0 (0 : Byte) == 1
    let err := fun (e : Nat) => s.set Reg.DOR_STATUS_enrol_err e
    (v.getLsbD 0 = true → v.getLsbD 1 = false →
      (s.isIn .standby = false → exec (.dorEnrol v) s = .next (err 3)) ∧
      (s.isIn .standby = true → s.recordForm = false → exec (.dorEnrol v) s = .next (err 4)) ∧
      (s.isIn .standby = true → s.recordForm = true → 4 ≤ owners.length → exec (.dorEnrol v) s = .next (err 2)) ∧
      (s.isIn .standby = true → s.recordForm = true → owners.length < 4 → s.dor.owner.isSome = true → s.ownerSigned = false →
        exec (.dorEnrol v) s = .next (err 1)) ∧
      (s.isIn .standby = true → s.recordForm = true → owners.length < 4 → (s.dor.owner = none ∨ s.ownerSigned = true) →
        exec (.dorEnrol v) s = .next ((err 0).modDor fun d =>
          { d with owners := (owners.map fun o => (o.1, true)) ++ [(s.staged 0 64, false)], policy := policy }))) ∧
    (v.getLsbD 1 = true → v.getLsbD 0 = false →
      ((s.isIn .standby = true ∨ s.isIn .bringup = true) → s.recordForm = true → s.dor.owner = some (s.staged 0 64) → s.ownerSigned = true →
        exec (.dorPolicy v) s = .next ((err 0).modDor fun d => { d with policy := policy })) ∧
      ((s.isIn .standby = true ∨ s.isIn .bringup = true) → s.recordForm = true → (s.dor.owner ≠ some (s.staged 0 64) ∨ s.ownerSigned = false) →
        exec (.dorPolicy v) s = .next (err 1)) ∧
      ((s.isIn .standby = true ∨ s.isIn .bringup = true) → s.recordForm = false → exec (.dorPolicy v) s = .next (err 4)) ∧
      (s.isIn .standby = false → s.isIn .bringup = false → exec (.dorPolicy v) s = .next (err 3))) ∧
    (v.getLsbD 0 = true → (s.isIn .standby = true ∨ s.isIn .ready = true) → s.tokenOk = true → ∃ t, exec (.dorUnlock v) s = .next t ∧
      t.flag Reg.DOR_DEBUG_unlocked = true ∧ t.get Reg.DOR_DEBUG_scope = argN (s.staged 68 1) 0 1 % 8 ∧
      t.get Reg.DOR_DEBUG_challenge = (Config.freeValue s.freeIdx).toNat % 2 ^ 32 ∧ t.dor.keys = false ∧ t.dor.jobKey = none ∧
      t.flag Reg.DOR_STATUS_kem_ready = false ∧ t.dor.total = s.dor.total + 1 ∧ (∀ p, p < 6 → t.rport p = { RopePortSt.init with lanes := (s.rport p).lanes }) ∧ t.cells = SMap.mapVal (fun _ x => x.struck) s.cells ∧
      (∀ a, a < keyTable ∨ (keyTable + 0x4000000 ≤ a ∧ a < 0x01B000000000) ∨ (0x800000000000 ≤ a ∧ a < 0x810000000000) → t.byte a = 0)) ∧
    (v.getLsbD 0 = true → ((s.isIn .standby = false ∧ s.isIn .ready = false) ∨ s.tokenOk = false) → exec (.dorUnlock v) s =
      .next (State.set { s.inc Reg.DOR_DEBUG_unlock_fail_count with freeIdx := s.freeIdx + 1 } Reg.DOR_DEBUG_challenge
        ((Config.freeValue s.freeIdx).toNat % 2 ^ 32)))) ∧
  (∀ s : State, s.isIn .off = false →
    (∀ ir, exec (.jtagInstruction ir) s = .next (s.emit (.jtag ir (match ir with
      | 0 => s.isIn .standby
      | 1 => true
      | 2 => true
      | 3 => true
      | _ => s.flag Reg.DOR_DEBUG_unlocked && (7 ≤ ir || bitAt (s.get Reg.DOR_DEBUG_scope) (ir - 4)))))) ∧
    (s.isIn .dark = false → s.dor.keys = true → s.flag Reg.DOR_STATUS_kem_ready = false → ∃ t, exec .kemKeyMake s = .next t ∧
      t.flag Reg.DOR_STATUS_kem_ready = true ∧ t.dor = { s.dor with kemId := (s.dor.kemId + 1) % 2 ^ 32 } ∧ t.mem = s.mem ∧ t.cells = s.cells) ∧
    (∀ obj : List Byte, obj.length = 37 → s.isIn .dark = false → s.flag Reg.DOR_DEBUG_unlocked = false →
      (argN obj 36 1 = 1 → exec (.doeAttest obj) s = .next (s.emit (.doe Config.certificate))) ∧
      (argN obj 36 1 = 0 → s.dor.queue.length < 4 → exec (.doeAttest obj) s =
        .next (s.setQueue (s.dor.queue ++ [(⟨8, obj.take 32, argN obj 32 4, 0, 1048576, s.now⟩ : EvReq)])))) ∧
    (∀ obj : List Byte, (obj.length ≠ 37 ∨ s.flag Reg.DOR_DEBUG_unlocked = true) → exec (.doeAttest obj) s = .next (s.emit (.doe [])))) ∧
  (∀ (q : EvReq) (rest : List EvReq) (s : State), s.dor.queue = q :: rest → s.flag Reg.DOR_STATUS_kem_ready = true → s.dor.keys = true →
    let n := (q.maxBytes - 31616) / 96
    let ev := s.evidence q.nonce q.first n
    let t := (s.setQueue (rest.map fun (r : EvReq) => { r with atT := s.now })).inc Reg.DOR_STATUS_attest_count
    (q.nonce.length = 32 → (ev.drop 8).take 32 = q.nonce ∧ ((s.dor.pick q.first n).length ≤ n)) ∧
    (q.mb = 8 → exec .evidenceSign s = .next (t.emit (.doe ev))) ∧
    (q.mb ≠ 8 → exec .evidenceSign s = .next ((t.emit (.hostWrite q.dest ev)).respond q.mb St.ok.code
      (toLE 4 ev.length ++ toLE 4 (s.dor.pick q.first n).length)))) ∧
  ∀ (mb : Nat) (r : NyReq) (s : State), NyReady mb r s →
    let u := accepted s mb r
    let b := r.arg
    (r.opcode = 0x80 → 52 ≤ b.length → argN b 37 3 = 0 → argN b 40 8 % 64 = 0 → 31616 ≤ argN b 48 4 → u.host.bme = true →
      (u.flag Reg.DOR_DEBUG_unlocked = true → argN b 36 1 ≤ 1 → exec (.attest mb r) s = .next (u.respond mb St.authFail.code [])) ∧
      (u.flag Reg.DOR_DEBUG_unlocked = false → argN b 36 1 = 1 →
        let c := Config.certificate.take (argN b 48 4)
        exec (.attest mb r) s = .next ((u.emit (.hostWrite (argN b 40 8) c)).respond mb St.ok.code (toLE 4 c.length ++ toLE 4 0))) ∧
      (u.flag Reg.DOR_DEBUG_unlocked = false → argN b 36 1 = 0 → u.dor.queue.length < 4 → exec (.attest mb r) s =
        .next (u.setQueue (u.dor.queue ++ [(⟨mb, b.take 32, argN b 32 4, argN b 40 8, argN b 48 4, u.now⟩ : EvReq)]))) ∧
      (u.flag Reg.DOR_DEBUG_unlocked = false → argN b 36 1 = 0 → 4 ≤ u.dor.queue.length →
        exec (.attest mb r) s = .next (u.respond mb St.busy.code []))) ∧
    (r.opcode = 0x81 → 1624 ≤ b.length → argN b 4 4 = 0 →
      (u.flag Reg.DOR_DEBUG_unlocked = true → exec (.keyImport mb r) s = .next (u.respond mb St.noResource.code [])) ∧
      (u.flag Reg.DOR_DEBUG_unlocked = false → (u.flag Reg.DOR_STATUS_kem_ready = false ∨ argN b 0 4 ≠ u.dor.kemId) →
        exec (.keyImport mb r) s = .next (u.respond mb St.authFail.code [])) ∧
      (u.flag Reg.DOR_DEBUG_unlocked = false → u.flag Reg.DOR_STATUS_kem_ready = true → argN b 0 4 = u.dor.kemId →
        (u.unwrapKey b = none → exec (.keyImport mb r) s = .next (u.dropKem.respond mb St.authFail.code [])) ∧
        (∀ k, u.unwrapKey b = some k → k.length = 32 → ∃ t, exec (.keyImport mb r) s = .next t ∧ t.dor.jobKey = some k ∧
          t.flag Reg.DOR_STATUS_job_key = true ∧ t.flag Reg.DOR_STATUS_kem_ready = false ∧ t.host.keySession = mb + 1 ∧
          t.flag Reg.RECOVERY_STATUS_snapshot_valid = false ∧ t.dor.total = s.dor.total + 1 ∧ t.get (Reg.MB_STATUS_last_status mb) = 0 ∧
          (∀ a, 0x01AE18000000 ≤ a → a < 0x01AE28000000 → t.byte a = 0) ∧ t.cells = s.cells)))

/-! ### Management and telemetry -/

/-- The sensors of a field die are unavailable in STANDBY and DARK, in CUT, and where the region controller cannot be reached; input, bus and
converter sensors and the two state sensors report in every state except OFF (R432). The bytes of a reading are the model's (log 47): byte 1 is
the operational state, 3 for unavailable. -/
def Obligations.SensorAvailability : Prop :=
  ∀ (id : Nat) (num : Bool) (s : State), sensorKind id = some num → s.isIn .off = false →
    let g := id % 0x100
    let lost := s.isIn .standby = true ∨ s.isIn .dark = true ∨ s.tstate g = 3 ∨ s.maps.unreached.contains g = true
    let v := s.sensorValue id
    (id < 0x400 → lost → exec (.pldmSensorRead id) s = .next (s.served ([0, 3, 0, 0, 0, 0, 0] : List Byte))) ∧
    ((0x400 ≤ id ∨ ¬lost) → exec (.pldmSensorRead id) s =
      .next (s.served (toLE 1 0 ++ toLE 1 0 ++ toLE 1 (if num then s.threshold id v else 0) ++ toLE 4 (ofSigned 32 v))))

/-- Management (R375, R429-R434, R440, R441): an endpoint identifier and a dynamic address are taken; a message of another type is an error;
sensors are refreshed, a critical one ending a start; the limit is clamped as a register write is; STATE, CAIRN_GET and ROPE_SPARE answer.
In DARK nothing is changed. -/
def Obligations.Management : Prop :=
  ∀ s : State, s.isIn .off = false →
    (∀ bs, s.served bs = (s.set Reg.OOB_STATUS_msg_count (s.get Reg.OOB_STATUS_msg_count + 1)).emit (.oob bs)) ∧
    (∀ eid, 0 < eid → eid < 0xFF → exec (.setEndpointId eid) s = .next ((s.set Reg.OOB_STATUS_eid eid).served [0])) ∧
    (∀ eid, (eid = 0 ∨ 0xFF ≤ eid) → exec (.setEndpointId eid) s = .next (s.oobErr [2])) ∧
    (∀ a, exec (.dynamicAddressAssign a) s = .next ((s.set Reg.OOB_STATUS_i3c 1).set Reg.OOB_STATUS_dyn_addr a)) ∧
    (∀ ty, ty ≠ 0 → ty ≠ 1 → ty ≠ 0x7E → exec (.oobUnsupportedMessage ty) s = .next (s.oobErr [5])) ∧
    (∀ values, s.isIn .bringup = false → ∃ t, exec (.sensorRefresh values) s = .next t ∧
      SMap.getD t.tel.sensors 0x401 0 = s.pins.mv ∧ SMap.getD t.tel.sensors 0x403 0 = s.get Reg.POWER_STATUS_input_w ∧
      (∀ id v, (values.filter fun p => p.1 == id) = [(id, v)] → sensorKind id = some true → id ≠ 0x401 → id ≠ 0x403 →
        SMap.getD t.tel.sensors id 0 = v ∧ (id < 0x200 → s.powered = true → t.temp (id % 0x100) = clampInt (-2048) 2047 v)) ∧
      t.mem = s.mem ∧ t.cells = s.cells ∧ t.pst = s.pst) ∧
    (∀ id v, s.isIn .bringup = true → s.tel.sensors = [] → 0x410 ≤ id → id ≤ 0x41F → 900 ≤ v → 54000 < s.pins.mv → s.pins.mv < 62000 →
      s.get Reg.POWER_STATUS_input_w < s.effLimit → ∃ t, exec (.sensorRefresh [(id, v)]) s = .next t ∧ t.isIn .standby = true) ∧
    (∀ w, (s.isIn .dark = false → exec (.limitEffecter w) s = .next ((s.set Reg.POWER_CTRL_limit_w (min 13500 (max 4000 w))).served [0])) ∧
      (s.isIn .dark = true → exec (.limitEffecter w) s = .next (s.oobErr [0x40]))) ∧
    exec .stateCmd s = .next (s.served (vendorHead 1 .ok ++ toLE 8 (s.view 0x10) ++ toLE 8 (s.view 0x110) ++ (s.fenceResult.drop 32).take 19)) ∧
    (∀ n, (s.cairnsFrom n = [] → exec (.cairnGet n) s = .next (s.served (vendorHead 2 .ok ++ toLE 4 n))) ∧
      (∀ c cs, s.cairnsFrom n = c :: cs → exec (.cairnGet n) s =
        .next (s.served (vendorHead 2 .ok ++ c.bytes ++ toLE 4 ((c.seq + 1) % 2 ^ 32))))) ∧
    (∀ p l, (s.isIn .dark = true → exec (.ropeSpare p l) s = .next (s.oobErr (vendorHead 3 .dark))) ∧
      (s.isIn .dark = false → p ≤ 5 → s.spareOk p l = true → exec (.ropeSpare p l) s = .next ((s.askSpare p l 2).served (vendorHead 3 .ok))) ∧
      (s.isIn .dark = false → (5 < p ∨ s.spareOk p l = false) → exec (.ropeSpare p l) s = .next (s.oobErr (vendorHead 3 .badArg))))

/-- Telemetry (R435-R440): TELEMETRY_CONFIG names a ring and what is sampled, or turns it off; samples are taken at multiples of their
intervals; an endpoint's depth is its fill in 254ths of its capacity, rounded up; records are staged in the order of their stamps, or
dropped whole and counted; the first one is written to its ring when that has room. -/
def Obligations.Telemetry : Prop :=
  (∀ (mb : Nat) (r : NyReq) (s : State), NyReady mb r s → r.opcode = 0xA0 →
    let u := accepted s mb r
    let b := r.arg
    let ring := argN b 0 4
    (4 ≤ b.length → ring = 0 → ∃ t, exec (.telemetryConfig mb r) s = .next t ∧ t.flag Reg.TELEM_STATUS_enabled = false ∧
      t.get Reg.TELEM_STATUS_kinds = 0 ∧ t.get Reg.TELEM_STATUS_ring = 0 ∧ t.tel = s.tel ∧ t.mem = s.mem ∧ t.cells = s.cells) ∧
    (4 ≤ b.length → ring ≠ 0 → u.ringOf ring = none → exec (.telemetryConfig mb r) s = .next (u.respond mb St.badHandle.code [])) ∧
    (∀ i, 64 ≤ b.length → ring ≠ 0 → u.ringOf ring = some i → (u.ring i).binding = 3 → argN b 4 1 ≤ 31 → argN b 5 3 = 0 → 0 < argN b 8 4 →
      argN b 8 4 ≤ 10000 → 1000 ≤ argN b 12 4 → argN b 12 4 ≤ 1000000 → argN b 34 30 = 0 →
      (∀ g, bitAt (argN b 16 18) g = true → regionValid g = true) → ∃ t, exec (.telemetryConfig mb r) s = .next t ∧
        t.flag Reg.TELEM_STATUS_enabled = true ∧ t.get Reg.TELEM_STATUS_kinds = argN b 4 1 ∧ t.get Reg.TELEM_STATUS_ring = ring ∧
        t.tel = { s.tel with
          depthUs := argN b 8 4, counterUs := argN b 12 4, regions := argN b 16 18, depthAt := s.now, counterAt := s.now
          cairnSeen := s.cairn.next, dropsSeen := s.reg 0x40008 } ∧
        t.get (Reg.MB_STATUS_last_status mb) = 0 ∧ t.mem = s.mem ∧ t.cells = s.cells)) ∧
  (∀ (c n : Nat) (s : State), epKind (s.ep c n).cfg ≠ 0 →
    (s.depthByte c n = 0 ↔ s.fill c n = 0) ∧ (s.depthByte c n = 254 ↔ 254 * s.fill c n > 253 * max (s.cap c n) 1) ∧ s.depthByte c n ≠ 255) ∧
  (∀ (r : TelRec) (s : State),
    (s.get Reg.TELEM_STATUS_staged + r.grans ≤ 3932160 → s.stage r = (s.request 0 4 0 (64 * r.grans)).setStaged (insertRec r s.tel.staged)) ∧
    (3932160 < s.get Reg.TELEM_STATUS_staged + r.grans → s.stage r = (s.inc (dropField r.kind)).raise .telemDrop) ∧
    (s.tel.staged.Pairwise (fun a b => a.stamp ≤ b.stamp) → (insertRec r s.tel.staged).Pairwise fun a b => a.stamp ≤ b.stamp) ∧
    (insertRec r s.tel.staged).Perm (r :: s.tel.staged)) ∧
  ∀ s : State,
    (s.flag Reg.TELEM_STATUS_enabled = true →
      let k := fun (n : Nat) (t : State) => bitAt (t.get Reg.TELEM_STATUS_kinds) n
      (0 < s.tel.depthUs → s.tel.depthAt < s.tickOf s.tel.depthUs →
        let t := s.tickOf s.tel.depthUs
        let v : State := { s with tel := { s.tel with depthAt := t } }
        (k 0 s = false → exec .depthSample s = .next v) ∧
        (k 0 s = true → exec .depthSample s = .next ((allRegions.filter s.sampled).foldl (fun u g => u.stageKind 1 1 (g % 12 + g / 12 * 256) t
          ((regionCells g).flatMap fun c => (List.range 32).map fun n => u.depthByte c n)) v))) ∧
      (0 < s.tel.counterUs → s.tel.counterAt < s.tickOf s.tel.counterUs →
        let t := s.tickOf s.tel.counterUs
        let v : State := { s with tel := { s.tel with counterAt := t } }
        let v := if k 1 s then v.sampleChannels t else v
        let v := if k 2 s then v.sampleHub t else v
        let v := if k 3 s then v.sampleRope t else v
        exec .counterSample s = .next (if k 4 s then (v.sampleDrops t).sampleCairn t else v.sampleDrops t))) ∧
    (∀ r rest i, s.tel.staged = r :: rest → s.ringOf r.ring = some i → s.ringsRun = true → (s.ring i).waiting = [] → (s.ring i).stopped = false →
      let t := (s.post r.ring ⟨0x50, r.body⟩).deliverEntry i
      exec .telemetryWrite s = .next (if (t.ring i).waiting = [] then t.setStaged rest else s))
end

