-- ==== Sys2Proof/Laws/Tables.lean ====
section
/-! SUPPORT. Laws of the sparse tables and of bit fields: what a read gives after a write, and the reads a write leaves alone. -/

namespace Sys2Proof.Machine

variable {α : Type}

@[simp] theorem SMap.get?_nil (a : Nat) : SMap.get? ([] : SMap α) a = none := rfl

/-- A removed key is not listed. -/
@[simp] theorem SMap.get?_del_self (m : SMap α) (a : Nat) : SMap.get? (SMap.del m a) a = none := by
  induction m with
  | nil => rfl
  | cons p m ih =>
    by_cases h : p.1 = a
    · simp [SMap.del, h, ih]
    · simp [SMap.del, SMap.get?, h, ih]

/-- Removing a key leaves every other. -/
theorem SMap.get?_del_ne (m : SMap α) {a b : Nat} (h : b ≠ a) : SMap.get? (SMap.del m a) b = SMap.get? m b := by
  induction m with
  | nil => rfl
  | cons p m ih =>
    by_cases h1 : p.1 = a
    · have h2 : p.1 ≠ b := fun e => h (e.symm.trans h1)
      simp [SMap.del, SMap.get?, h1, ih, h.symm]
    · by_cases h2 : p.1 = b
      · subst h2; simp [SMap.del, SMap.get?, h]
      · simp [SMap.del, SMap.get?, h1, h2, ih]

/-- An inserted key is found, if the table did not list it before. -/
theorem SMap.get?_ins_self (m : SMap α) (a : Nat) (x : α) (h : SMap.get? m a = none) : SMap.get? (SMap.ins m a x) a = some x := by
  induction m with
  | nil => simp [SMap.ins, SMap.get?]
  | cons p m ih =>
    have hp : p.1 ≠ a := by intro e; simp [SMap.get?, e] at h
    have hm : SMap.get? m a = none := by simpa [SMap.get?, hp] using h
    by_cases hlt : p.1 < a
    · simp [SMap.ins, SMap.get?, hlt, hp, ih hm]
    · simp [SMap.ins, SMap.get?, hlt]

/-- Inserting a key leaves every other. -/
theorem SMap.get?_ins_ne (m : SMap α) {a b : Nat} (x : α) (h : b ≠ a) : SMap.get? (SMap.ins m a x) b = SMap.get? m b := by
  induction m with
  | nil => simp [SMap.ins, SMap.get?, h.symm]
  | cons p m ih =>
    by_cases hlt : p.1 < a
    · by_cases h2 : p.1 = b
      · subst h2; simp [SMap.ins, SMap.get?, hlt]
      · simp [SMap.ins, SMap.get?, hlt, h2, ih]
    · simp [SMap.ins, SMap.get?, hlt, h.symm]

/-- What was put is read back. -/
@[simp] theorem SMap.get?_put_self (m : SMap α) (a : Nat) (x : α) : SMap.get? (SMap.put m a x) a = some x :=
  SMap.get?_ins_self _ _ _ (SMap.get?_del_self m a)

/-- A put leaves every other key. -/
theorem SMap.get?_put_ne (m : SMap α) {a b : Nat} (x : α) (h : b ≠ a) : SMap.get? (SMap.put m a x) b = SMap.get? m b := by
  rw [SMap.put, SMap.get?_ins_ne _ _ h, SMap.get?_del_ne _ h]

@[simp] theorem SMap.getD_put_self (m : SMap α) (a : Nat) (x d : α) : SMap.getD (SMap.put m a x) a d = x := by
  simp [SMap.getD]

theorem SMap.getD_put_ne (m : SMap α) {a b : Nat} (x d : α) (h : b ≠ a) : SMap.getD (SMap.put m a x) b d = SMap.getD m b d := by
  simp [SMap.getD, SMap.get?_put_ne m x h]

@[simp] theorem SMap.getD_del_self (m : SMap α) (a : Nat) (d : α) : SMap.getD (SMap.del m a) a d = d := by
  simp [SMap.getD]

theorem SMap.getD_del_ne (m : SMap α) {a b : Nat} (d : α) (h : b ≠ a) : SMap.getD (SMap.del m a) b d = SMap.getD m b d := by
  simp [SMap.getD, SMap.get?_del_ne m h]

@[simp] theorem SMap.getD_nil (a : Nat) (d : α) : SMap.getD ([] : SMap α) a d = d := rfl

/-- A function applied to every value commutes with a read. -/
@[simp] theorem SMap.get?_mapVal {β : Type} (f : Nat → α → β) (m : SMap α) (a : Nat) :
    SMap.get? (SMap.mapVal f m) a = (SMap.get? m a).map (f a) := by
  induction m with
  | nil => rfl
  | cons p m ih =>
    by_cases h : p.1 = a
    · simp [SMap.mapVal, SMap.get?, h]
    · simpa [SMap.mapVal, SMap.get?, h] using ih

/-! ### Bit fields -/

/-- A field is smaller than its width allows. -/
theorem bits_lt (x lo w : Nat) : bits x lo w < 2 ^ w := Nat.mod_lt _ (Nat.two_pow_pos w)

/-- Bit n of a field. -/
theorem testBit_bits (x lo w n : Nat) : (bits x lo w).testBit n = (decide (n < w) && x.testBit (lo + n)) := by
  simp [bits, Nat.testBit_mod_two_pow, Nat.testBit_shiftRight]

/-- Bit n of a word whose field was replaced. -/
theorem testBit_setBits (x lo w v n : Nat) :
    (setBits x lo w v).testBit n = (if lo ≤ n ∧ n < lo + w then v.testBit (n - lo) else x.testBit n) := by
  have h2 : x % 2 ^ lo < 2 ^ lo := Nat.mod_lt _ (Nat.two_pow_pos lo)
  have e : setBits x lo w v = ((x >>> (lo + w)) <<< w + v % 2 ^ w) * 2 ^ lo + x % 2 ^ lo := by
    simp only [setBits, Nat.shiftLeft_eq, Nat.pow_add]; ring
  have h1 : v % 2 ^ w < 2 ^ w := Nat.mod_lt _ (Nat.two_pow_pos w)
  rw [e, ← Nat.shiftLeft_eq, Nat.shiftLeft_add_eq_or_of_lt h2, Nat.shiftLeft_add_eq_or_of_lt h1]
  simp only [Nat.testBit_or, Nat.testBit_shiftLeft, Nat.testBit_mod_two_pow, Nat.testBit_shiftRight]
  by_cases a : lo ≤ n
  · by_cases b : n < lo + w
    · have c : n - lo < w := by omega
      have d : ¬ n < lo := by omega
      simp [a, b, c, d]
    · have c : ¬ n - lo < w := by omega
      have d : ¬ n < lo := by omega
      have f : w ≤ n - lo := by omega
      have g : lo + w + (n - lo - w) = n := by omega
      simp [a, b, c, d, f, g]
  · have d : n < lo := by omega
    simp [a, d]

/-- A replaced field reads as what it was given. -/
@[simp] theorem bits_setBits_self (x lo w v : Nat) : bits (setBits x lo w v) lo w = v % 2 ^ w := by
  apply Nat.eq_of_testBit_eq
  intro n
  rw [testBit_bits, testBit_setBits, Nat.testBit_mod_two_pow]
  by_cases h : n < w <;> simp [h]

/-- A field that shares no bit with the replaced one stays. -/
theorem bits_setBits_disjoint (x lo w v lo' w' : Nat) (h : lo' + w' ≤ lo ∨ lo + w ≤ lo') :
    bits (setBits x lo w v) lo' w' = bits x lo' w' := by
  apply Nat.eq_of_testBit_eq
  intro n
  rw [testBit_bits, testBit_setBits, testBit_bits]
  by_cases a : n < w'
  · have b : ¬ (lo ≤ lo' + n ∧ lo' + n < lo + w) := by omega
    simp [b]
  · simp [a]

/-- A field inside the low 64 bits of a word. -/
theorem bits_mod_64 (x lo w : Nat) (h : lo + w ≤ 64) : bits (x % 2 ^ 64) lo w = bits x lo w := by
  apply Nat.eq_of_testBit_eq
  intro n
  rw [testBit_bits, testBit_bits, Nat.testBit_mod_two_pow]
  by_cases a : n < w
  · have b : lo + n < 64 := by omega
    simp [a, b]
  · simp [a]

/-- Bytes of a number: as many as asked. -/
@[simp] theorem toLE_length (n x : Nat) : (toLE n x).length = n := by
  induction n generalizing x with
  | zero => rfl
  | succ n ih => simp [toLE, ih]

/-- The number that its bytes spell. -/
@[simp] theorem ofLE_toLE (n x : Nat) : ofLE (toLE n x) = x % 2 ^ (8 * n) := by
  induction n generalizing x with
  | zero => simp [toLE, ofLE, Nat.mod_one]
  | succ n ih =>
    rw [toLE, ofLE, ih, BitVec.toNat_ofNat, Nat.shiftLeft_eq, Nat.shiftRight_eq_div_pow]
    have e : 8 * (n + 1) = 8 + 8 * n := by ring
    rw [e, Nat.pow_add, Nat.mod_mul]
    ring

end Sys2Proof.Machine
end

