-- ==== Sys2Proof/Laws/State.lean ====
section
/-! SUPPORT. One law for each field of the state and each update: what the update leaves alone, and what it puts there. -/

namespace Sys2Proof.Machine

/-! ### Fields after updates -/

/-! `setReg` changes `regs` only. -/
@[simp] theorem State.setReg_pending (s : State) (off v : Nat) : (s.setReg off v).pending = s.pending := rfl
@[simp] theorem State.setReg_now (s : State) (off v : Nat) : (s.setReg off v).now = s.now := rfl
@[simp] theorem State.setReg_freeIdx (s : State) (off v : Nat) : (s.setReg off v).freeIdx = s.freeIdx := rfl
@[simp] theorem State.setReg_out (s : State) (off v : Nat) : (s.setReg off v).out = s.out := rfl
@[simp] theorem State.setReg_mem (s : State) (off v : Nat) : (s.setReg off v).mem = s.mem := rfl
@[simp] theorem State.setReg_cells (s : State) (off v : Nat) : (s.setReg off v).cells = s.cells := rfl
@[simp] theorem State.setReg_banks (s : State) (off v : Nat) : (s.setReg off v).banks = s.banks := rfl
@[simp] theorem State.setReg_mesh (s : State) (off v : Nat) : (s.setReg off v).mesh = s.mesh := rfl
@[simp] theorem State.setReg_chans (s : State) (off v : Nat) : (s.setReg off v).chans = s.chans := rfl
@[simp] theorem State.setReg_pkg (s : State) (off v : Nat) : (s.setReg off v).pkg = s.pkg := rfl
@[simp] theorem State.setReg_belay (s : State) (off v : Nat) : (s.setReg off v).belay = s.belay := rfl
@[simp] theorem State.setReg_rcv (s : State) (off v : Nat) : (s.setReg off v).rcv = s.rcv := rfl
@[simp] theorem State.setReg_cairn (s : State) (off v : Nat) : (s.setReg off v).cairn = s.cairn := rfl
@[simp] theorem State.setReg_pair (s : State) (off v : Nat) : (s.setReg off v).pair = s.pair := rfl
@[simp] theorem State.setReg_acts (s : State) (off v : Nat) : (s.setReg off v).acts = s.acts := rfl
@[simp] theorem State.setReg_slots (s : State) (off v : Nat) : (s.setReg off v).slots = s.slots := rfl
@[simp] theorem State.setReg_kv (s : State) (off v : Nat) : (s.setReg off v).kv = s.kv := rfl
@[simp] theorem State.setReg_hub (s : State) (off v : Nat) : (s.setReg off v).hub = s.hub := rfl
@[simp] theorem State.setReg_host (s : State) (off v : Nat) : (s.setReg off v).host = s.host := rfl
@[simp] theorem State.setReg_rope (s : State) (off v : Nat) : (s.setReg off v).rope = s.rope := rfl
@[simp] theorem State.setReg_maps (s : State) (off v : Nat) : (s.setReg off v).maps = s.maps := rfl
@[simp] theorem State.setReg_seq (s : State) (off v : Nat) : (s.setReg off v).seq = s.seq := rfl
@[simp] theorem State.setReg_power (s : State) (off v : Nat) : (s.setReg off v).power = s.power := rfl
@[simp] theorem State.setReg_therm (s : State) (off v : Nat) : (s.setReg off v).therm = s.therm := rfl
@[simp] theorem State.setReg_clock (s : State) (off v : Nat) : (s.setReg off v).clock = s.clock := rfl
@[simp] theorem State.setReg_dor (s : State) (off v : Nat) : (s.setReg off v).dor = s.dor := rfl
@[simp] theorem State.setReg_tel (s : State) (off v : Nat) : (s.setReg off v).tel = s.tel := rfl
@[simp] theorem State.setReg_pins (s : State) (off v : Nat) : (s.setReg off v).pins = s.pins := rfl
@[simp] theorem State.setReg_castGen (s : State) (off v : Nat) : (s.setReg off v).castGen = s.castGen := rfl
@[simp] theorem State.setReg_castTab (s : State) (off v : Nat) : (s.setReg off v).castTab = s.castTab := rfl
@[simp] theorem State.setReg_distGen (s : State) (off v : Nat) : (s.setReg off v).distGen = s.distGen := rfl
@[simp] theorem State.setReg_dist (s : State) (off v : Nat) : (s.setReg off v).dist = s.dist := rfl

/-! `set` changes `regs` only. -/
@[simp] theorem State.set_pending (s : State) (f : RF) (v : Nat) : (s.set f v).pending = s.pending := rfl
@[simp] theorem State.set_now (s : State) (f : RF) (v : Nat) : (s.set f v).now = s.now := rfl
@[simp] theorem State.set_freeIdx (s : State) (f : RF) (v : Nat) : (s.set f v).freeIdx = s.freeIdx := rfl
@[simp] theorem State.set_out (s : State) (f : RF) (v : Nat) : (s.set f v).out = s.out := rfl
@[simp] theorem State.set_mem (s : State) (f : RF) (v : Nat) : (s.set f v).mem = s.mem := rfl
@[simp] theorem State.set_cells (s : State) (f : RF) (v : Nat) : (s.set f v).cells = s.cells := rfl
@[simp] theorem State.set_banks (s : State) (f : RF) (v : Nat) : (s.set f v).banks = s.banks := rfl
@[simp] theorem State.set_mesh (s : State) (f : RF) (v : Nat) : (s.set f v).mesh = s.mesh := rfl
@[simp] theorem State.set_chans (s : State) (f : RF) (v : Nat) : (s.set f v).chans = s.chans := rfl
@[simp] theorem State.set_pkg (s : State) (f : RF) (v : Nat) : (s.set f v).pkg = s.pkg := rfl
@[simp] theorem State.set_belay (s : State) (f : RF) (v : Nat) : (s.set f v).belay = s.belay := rfl
@[simp] theorem State.set_rcv (s : State) (f : RF) (v : Nat) : (s.set f v).rcv = s.rcv := rfl
@[simp] theorem State.set_cairn (s : State) (f : RF) (v : Nat) : (s.set f v).cairn = s.cairn := rfl
@[simp] theorem State.set_pair (s : State) (f : RF) (v : Nat) : (s.set f v).pair = s.pair := rfl
@[simp] theorem State.set_acts (s : State) (f : RF) (v : Nat) : (s.set f v).acts = s.acts := rfl
@[simp] theorem State.set_slots (s : State) (f : RF) (v : Nat) : (s.set f v).slots = s.slots := rfl
@[simp] theorem State.set_kv (s : State) (f : RF) (v : Nat) : (s.set f v).kv = s.kv := rfl
@[simp] theorem State.set_hub (s : State) (f : RF) (v : Nat) : (s.set f v).hub = s.hub := rfl
@[simp] theorem State.set_host (s : State) (f : RF) (v : Nat) : (s.set f v).host = s.host := rfl
@[simp] theorem State.set_rope (s : State) (f : RF) (v : Nat) : (s.set f v).rope = s.rope := rfl
@[simp] theorem State.set_maps (s : State) (f : RF) (v : Nat) : (s.set f v).maps = s.maps := rfl
@[simp] theorem State.set_seq (s : State) (f : RF) (v : Nat) : (s.set f v).seq = s.seq := rfl
@[simp] theorem State.set_power (s : State) (f : RF) (v : Nat) : (s.set f v).power = s.power := rfl
@[simp] theorem State.set_therm (s : State) (f : RF) (v : Nat) : (s.set f v).therm = s.therm := rfl
@[simp] theorem State.set_clock (s : State) (f : RF) (v : Nat) : (s.set f v).clock = s.clock := rfl
@[simp] theorem State.set_dor (s : State) (f : RF) (v : Nat) : (s.set f v).dor = s.dor := rfl
@[simp] theorem State.set_tel (s : State) (f : RF) (v : Nat) : (s.set f v).tel = s.tel := rfl
@[simp] theorem State.set_pins (s : State) (f : RF) (v : Nat) : (s.set f v).pins = s.pins := rfl
@[simp] theorem State.set_castGen (s : State) (f : RF) (v : Nat) : (s.set f v).castGen = s.castGen := rfl
@[simp] theorem State.set_castTab (s : State) (f : RF) (v : Nat) : (s.set f v).castTab = s.castTab := rfl
@[simp] theorem State.set_distGen (s : State) (f : RF) (v : Nat) : (s.set f v).distGen = s.distGen := rfl
@[simp] theorem State.set_dist (s : State) (f : RF) (v : Nat) : (s.set f v).dist = s.dist := rfl

/-! `inc` changes `regs` only. -/
@[simp] theorem State.inc_pending (s : State) (f : RF) (k : Nat) : (s.inc f k).pending = s.pending := rfl
@[simp] theorem State.inc_now (s : State) (f : RF) (k : Nat) : (s.inc f k).now = s.now := rfl
@[simp] theorem State.inc_freeIdx (s : State) (f : RF) (k : Nat) : (s.inc f k).freeIdx = s.freeIdx := rfl
@[simp] theorem State.inc_out (s : State) (f : RF) (k : Nat) : (s.inc f k).out = s.out := rfl
@[simp] theorem State.inc_mem (s : State) (f : RF) (k : Nat) : (s.inc f k).mem = s.mem := rfl
@[simp] theorem State.inc_cells (s : State) (f : RF) (k : Nat) : (s.inc f k).cells = s.cells := rfl
@[simp] theorem State.inc_banks (s : State) (f : RF) (k : Nat) : (s.inc f k).banks = s.banks := rfl
@[simp] theorem State.inc_mesh (s : State) (f : RF) (k : Nat) : (s.inc f k).mesh = s.mesh := rfl
@[simp] theorem State.inc_chans (s : State) (f : RF) (k : Nat) : (s.inc f k).chans = s.chans := rfl
@[simp] theorem State.inc_pkg (s : State) (f : RF) (k : Nat) : (s.inc f k).pkg = s.pkg := rfl
@[simp] theorem State.inc_belay (s : State) (f : RF) (k : Nat) : (s.inc f k).belay = s.belay := rfl
@[simp] theorem State.inc_rcv (s : State) (f : RF) (k : Nat) : (s.inc f k).rcv = s.rcv := rfl
@[simp] theorem State.inc_cairn (s : State) (f : RF) (k : Nat) : (s.inc f k).cairn = s.cairn := rfl
@[simp] theorem State.inc_pair (s : State) (f : RF) (k : Nat) : (s.inc f k).pair = s.pair := rfl
@[simp] theorem State.inc_acts (s : State) (f : RF) (k : Nat) : (s.inc f k).acts = s.acts := rfl
@[simp] theorem State.inc_slots (s : State) (f : RF) (k : Nat) : (s.inc f k).slots = s.slots := rfl
@[simp] theorem State.inc_kv (s : State) (f : RF) (k : Nat) : (s.inc f k).kv = s.kv := rfl
@[simp] theorem State.inc_hub (s : State) (f : RF) (k : Nat) : (s.inc f k).hub = s.hub := rfl
@[simp] theorem State.inc_host (s : State) (f : RF) (k : Nat) : (s.inc f k).host = s.host := rfl
@[simp] theorem State.inc_rope (s : State) (f : RF) (k : Nat) : (s.inc f k).rope = s.rope := rfl
@[simp] theorem State.inc_maps (s : State) (f : RF) (k : Nat) : (s.inc f k).maps = s.maps := rfl
@[simp] theorem State.inc_seq (s : State) (f : RF) (k : Nat) : (s.inc f k).seq = s.seq := rfl
@[simp] theorem State.inc_power (s : State) (f : RF) (k : Nat) : (s.inc f k).power = s.power := rfl
@[simp] theorem State.inc_therm (s : State) (f : RF) (k : Nat) : (s.inc f k).therm = s.therm := rfl
@[simp] theorem State.inc_clock (s : State) (f : RF) (k : Nat) : (s.inc f k).clock = s.clock := rfl
@[simp] theorem State.inc_dor (s : State) (f : RF) (k : Nat) : (s.inc f k).dor = s.dor := rfl
@[simp] theorem State.inc_tel (s : State) (f : RF) (k : Nat) : (s.inc f k).tel = s.tel := rfl
@[simp] theorem State.inc_pins (s : State) (f : RF) (k : Nat) : (s.inc f k).pins = s.pins := rfl
@[simp] theorem State.inc_castGen (s : State) (f : RF) (k : Nat) : (s.inc f k).castGen = s.castGen := rfl
@[simp] theorem State.inc_castTab (s : State) (f : RF) (k : Nat) : (s.inc f k).castTab = s.castTab := rfl
@[simp] theorem State.inc_distGen (s : State) (f : RF) (k : Nat) : (s.inc f k).distGen = s.distGen := rfl
@[simp] theorem State.inc_dist (s : State) (f : RF) (k : Nat) : (s.inc f k).dist = s.dist := rfl

/-! `emit` changes `out` only. -/
@[simp] theorem State.emit_pending (s : State) (o : Out) : (s.emit o).pending = s.pending := rfl
@[simp] theorem State.emit_now (s : State) (o : Out) : (s.emit o).now = s.now := rfl
@[simp] theorem State.emit_freeIdx (s : State) (o : Out) : (s.emit o).freeIdx = s.freeIdx := rfl
@[simp] theorem State.emit_out (s : State) (o : Out) : (s.emit o).out = s.out ++ [o] := rfl
@[simp] theorem State.emit_regs (s : State) (o : Out) : (s.emit o).regs = s.regs := rfl
@[simp] theorem State.emit_mem (s : State) (o : Out) : (s.emit o).mem = s.mem := rfl
@[simp] theorem State.emit_cells (s : State) (o : Out) : (s.emit o).cells = s.cells := rfl
@[simp] theorem State.emit_banks (s : State) (o : Out) : (s.emit o).banks = s.banks := rfl
@[simp] theorem State.emit_mesh (s : State) (o : Out) : (s.emit o).mesh = s.mesh := rfl
@[simp] theorem State.emit_chans (s : State) (o : Out) : (s.emit o).chans = s.chans := rfl
@[simp] theorem State.emit_pkg (s : State) (o : Out) : (s.emit o).pkg = s.pkg := rfl
@[simp] theorem State.emit_belay (s : State) (o : Out) : (s.emit o).belay = s.belay := rfl
@[simp] theorem State.emit_rcv (s : State) (o : Out) : (s.emit o).rcv = s.rcv := rfl
@[simp] theorem State.emit_cairn (s : State) (o : Out) : (s.emit o).cairn = s.cairn := rfl
@[simp] theorem State.emit_pair (s : State) (o : Out) : (s.emit o).pair = s.pair := rfl
@[simp] theorem State.emit_acts (s : State) (o : Out) : (s.emit o).acts = s.acts := rfl
@[simp] theorem State.emit_slots (s : State) (o : Out) : (s.emit o).slots = s.slots := rfl
@[simp] theorem State.emit_kv (s : State) (o : Out) : (s.emit o).kv = s.kv := rfl
@[simp] theorem State.emit_hub (s : State) (o : Out) : (s.emit o).hub = s.hub := rfl
@[simp] theorem State.emit_host (s : State) (o : Out) : (s.emit o).host = s.host := rfl
@[simp] theorem State.emit_rope (s : State) (o : Out) : (s.emit o).rope = s.rope := rfl
@[simp] theorem State.emit_maps (s : State) (o : Out) : (s.emit o).maps = s.maps := rfl
@[simp] theorem State.emit_seq (s : State) (o : Out) : (s.emit o).seq = s.seq := rfl
@[simp] theorem State.emit_power (s : State) (o : Out) : (s.emit o).power = s.power := rfl
@[simp] theorem State.emit_therm (s : State) (o : Out) : (s.emit o).therm = s.therm := rfl
@[simp] theorem State.emit_clock (s : State) (o : Out) : (s.emit o).clock = s.clock := rfl
@[simp] theorem State.emit_dor (s : State) (o : Out) : (s.emit o).dor = s.dor := rfl
@[simp] theorem State.emit_tel (s : State) (o : Out) : (s.emit o).tel = s.tel := rfl
@[simp] theorem State.emit_pins (s : State) (o : Out) : (s.emit o).pins = s.pins := rfl
@[simp] theorem State.emit_castGen (s : State) (o : Out) : (s.emit o).castGen = s.castGen := rfl
@[simp] theorem State.emit_castTab (s : State) (o : Out) : (s.emit o).castTab = s.castTab := rfl
@[simp] theorem State.emit_distGen (s : State) (o : Out) : (s.emit o).distGen = s.distGen := rfl
@[simp] theorem State.emit_dist (s : State) (o : Out) : (s.emit o).dist = s.dist := rfl

/-! `emits` changes `out` only. -/
@[simp] theorem State.emits_pending (s : State) (os : List Out) : (s.emits os).pending = s.pending := rfl
@[simp] theorem State.emits_now (s : State) (os : List Out) : (s.emits os).now = s.now := rfl
@[simp] theorem State.emits_freeIdx (s : State) (os : List Out) : (s.emits os).freeIdx = s.freeIdx := rfl
@[simp] theorem State.emits_out (s : State) (os : List Out) : (s.emits os).out = s.out ++ os := rfl
@[simp] theorem State.emits_regs (s : State) (os : List Out) : (s.emits os).regs = s.regs := rfl
@[simp] theorem State.emits_mem (s : State) (os : List Out) : (s.emits os).mem = s.mem := rfl
@[simp] theorem State.emits_cells (s : State) (os : List Out) : (s.emits os).cells = s.cells := rfl
@[simp] theorem State.emits_banks (s : State) (os : List Out) : (s.emits os).banks = s.banks := rfl
@[simp] theorem State.emits_mesh (s : State) (os : List Out) : (s.emits os).mesh = s.mesh := rfl
@[simp] theorem State.emits_chans (s : State) (os : List Out) : (s.emits os).chans = s.chans := rfl
@[simp] theorem State.emits_pkg (s : State) (os : List Out) : (s.emits os).pkg = s.pkg := rfl
@[simp] theorem State.emits_belay (s : State) (os : List Out) : (s.emits os).belay = s.belay := rfl
@[simp] theorem State.emits_rcv (s : State) (os : List Out) : (s.emits os).rcv = s.rcv := rfl
@[simp] theorem State.emits_cairn (s : State) (os : List Out) : (s.emits os).cairn = s.cairn := rfl
@[simp] theorem State.emits_pair (s : State) (os : List Out) : (s.emits os).pair = s.pair := rfl
@[simp] theorem State.emits_acts (s : State) (os : List Out) : (s.emits os).acts = s.acts := rfl
@[simp] theorem State.emits_slots (s : State) (os : List Out) : (s.emits os).slots = s.slots := rfl
@[simp] theorem State.emits_kv (s : State) (os : List Out) : (s.emits os).kv = s.kv := rfl
@[simp] theorem State.emits_hub (s : State) (os : List Out) : (s.emits os).hub = s.hub := rfl
@[simp] theorem State.emits_host (s : State) (os : List Out) : (s.emits os).host = s.host := rfl
@[simp] theorem State.emits_rope (s : State) (os : List Out) : (s.emits os).rope = s.rope := rfl
@[simp] theorem State.emits_maps (s : State) (os : List Out) : (s.emits os).maps = s.maps := rfl
@[simp] theorem State.emits_seq (s : State) (os : List Out) : (s.emits os).seq = s.seq := rfl
@[simp] theorem State.emits_power (s : State) (os : List Out) : (s.emits os).power = s.power := rfl
@[simp] theorem State.emits_therm (s : State) (os : List Out) : (s.emits os).therm = s.therm := rfl
@[simp] theorem State.emits_clock (s : State) (os : List Out) : (s.emits os).clock = s.clock := rfl
@[simp] theorem State.emits_dor (s : State) (os : List Out) : (s.emits os).dor = s.dor := rfl
@[simp] theorem State.emits_tel (s : State) (os : List Out) : (s.emits os).tel = s.tel := rfl
@[simp] theorem State.emits_pins (s : State) (os : List Out) : (s.emits os).pins = s.pins := rfl
@[simp] theorem State.emits_castGen (s : State) (os : List Out) : (s.emits os).castGen = s.castGen := rfl
@[simp] theorem State.emits_castTab (s : State) (os : List Out) : (s.emits os).castTab = s.castTab := rfl
@[simp] theorem State.emits_distGen (s : State) (os : List Out) : (s.emits os).distGen = s.distGen := rfl
@[simp] theorem State.emits_dist (s : State) (os : List Out) : (s.emits os).dist = s.dist := rfl

/-! `setMem` changes `mem` only. -/
@[simp] theorem State.setMem_pending (s : State) (m : List Host.Cell) : (s.setMem m).pending = s.pending := rfl
@[simp] theorem State.setMem_now (s : State) (m : List Host.Cell) : (s.setMem m).now = s.now := rfl
@[simp] theorem State.setMem_freeIdx (s : State) (m : List Host.Cell) : (s.setMem m).freeIdx = s.freeIdx := rfl
@[simp] theorem State.setMem_out (s : State) (m : List Host.Cell) : (s.setMem m).out = s.out := rfl
@[simp] theorem State.setMem_regs (s : State) (m : List Host.Cell) : (s.setMem m).regs = s.regs := rfl
@[simp] theorem State.setMem_mem (s : State) (m : List Host.Cell) : (s.setMem m).mem = { s.mem with cells := m } := rfl
@[simp] theorem State.setMem_cells (s : State) (m : List Host.Cell) : (s.setMem m).cells = s.cells := rfl
@[simp] theorem State.setMem_banks (s : State) (m : List Host.Cell) : (s.setMem m).banks = s.banks := rfl
@[simp] theorem State.setMem_mesh (s : State) (m : List Host.Cell) : (s.setMem m).mesh = s.mesh := rfl
@[simp] theorem State.setMem_chans (s : State) (m : List Host.Cell) : (s.setMem m).chans = s.chans := rfl
@[simp] theorem State.setMem_pkg (s : State) (m : List Host.Cell) : (s.setMem m).pkg = s.pkg := rfl
@[simp] theorem State.setMem_belay (s : State) (m : List Host.Cell) : (s.setMem m).belay = s.belay := rfl
@[simp] theorem State.setMem_rcv (s : State) (m : List Host.Cell) : (s.setMem m).rcv = s.rcv := rfl
@[simp] theorem State.setMem_cairn (s : State) (m : List Host.Cell) : (s.setMem m).cairn = s.cairn := rfl
@[simp] theorem State.setMem_pair (s : State) (m : List Host.Cell) : (s.setMem m).pair = s.pair := rfl
@[simp] theorem State.setMem_acts (s : State) (m : List Host.Cell) : (s.setMem m).acts = s.acts := rfl
@[simp] theorem State.setMem_slots (s : State) (m : List Host.Cell) : (s.setMem m).slots = s.slots := rfl
@[simp] theorem State.setMem_kv (s : State) (m : List Host.Cell) : (s.setMem m).kv = s.kv := rfl
@[simp] theorem State.setMem_hub (s : State) (m : List Host.Cell) : (s.setMem m).hub = s.hub := rfl
@[simp] theorem State.setMem_host (s : State) (m : List Host.Cell) : (s.setMem m).host = s.host := rfl
@[simp] theorem State.setMem_rope (s : State) (m : List Host.Cell) : (s.setMem m).rope = s.rope := rfl
@[simp] theorem State.setMem_maps (s : State) (m : List Host.Cell) : (s.setMem m).maps = s.maps := rfl
@[simp] theorem State.setMem_seq (s : State) (m : List Host.Cell) : (s.setMem m).seq = s.seq := rfl
@[simp] theorem State.setMem_power (s : State) (m : List Host.Cell) : (s.setMem m).power = s.power := rfl
@[simp] theorem State.setMem_therm (s : State) (m : List Host.Cell) : (s.setMem m).therm = s.therm := rfl
@[simp] theorem State.setMem_clock (s : State) (m : List Host.Cell) : (s.setMem m).clock = s.clock := rfl
@[simp] theorem State.setMem_dor (s : State) (m : List Host.Cell) : (s.setMem m).dor = s.dor := rfl
@[simp] theorem State.setMem_tel (s : State) (m : List Host.Cell) : (s.setMem m).tel = s.tel := rfl
@[simp] theorem State.setMem_pins (s : State) (m : List Host.Cell) : (s.setMem m).pins = s.pins := rfl
@[simp] theorem State.setMem_castGen (s : State) (m : List Host.Cell) : (s.setMem m).castGen = s.castGen := rfl
@[simp] theorem State.setMem_castTab (s : State) (m : List Host.Cell) : (s.setMem m).castTab = s.castTab := rfl
@[simp] theorem State.setMem_distGen (s : State) (m : List Host.Cell) : (s.setMem m).distGen = s.distGen := rfl
@[simp] theorem State.setMem_dist (s : State) (m : List Host.Cell) : (s.setMem m).dist = s.dist := rfl

/-! `writeBytes` changes `mem` only. -/
@[simp] theorem State.writeBytes_pending (s : State) (a : Nat) (bs : List Byte) : (s.writeBytes a bs).pending = s.pending := rfl
@[simp] theorem State.writeBytes_now (s : State) (a : Nat) (bs : List Byte) : (s.writeBytes a bs).now = s.now := rfl
@[simp] theorem State.writeBytes_freeIdx (s : State) (a : Nat) (bs : List Byte) : (s.writeBytes a bs).freeIdx = s.freeIdx := rfl
@[simp] theorem State.writeBytes_out (s : State) (a : Nat) (bs : List Byte) : (s.writeBytes a bs).out = s.out := rfl
@[simp] theorem State.writeBytes_regs (s : State) (a : Nat) (bs : List Byte) : (s.writeBytes a bs).regs = s.regs := rfl
@[simp] theorem State.writeBytes_mem (s : State) (a : Nat) (bs : List Byte) : (s.writeBytes a bs).mem = { s.mem with cells := Mem.write s.mem.cells a bs } := rfl
@[simp] theorem State.writeBytes_cells (s : State) (a : Nat) (bs : List Byte) : (s.writeBytes a bs).cells = s.cells := rfl
@[simp] theorem State.writeBytes_banks (s : State) (a : Nat) (bs : List Byte) : (s.writeBytes a bs).banks = s.banks := rfl
@[simp] theorem State.writeBytes_mesh (s : State) (a : Nat) (bs : List Byte) : (s.writeBytes a bs).mesh = s.mesh := rfl
@[simp] theorem State.writeBytes_chans (s : State) (a : Nat) (bs : List Byte) : (s.writeBytes a bs).chans = s.chans := rfl
@[simp] theorem State.writeBytes_pkg (s : State) (a : Nat) (bs : List Byte) : (s.writeBytes a bs).pkg = s.pkg := rfl
@[simp] theorem State.writeBytes_belay (s : State) (a : Nat) (bs : List Byte) : (s.writeBytes a bs).belay = s.belay := rfl
@[simp] theorem State.writeBytes_rcv (s : State) (a : Nat) (bs : List Byte) : (s.writeBytes a bs).rcv = s.rcv := rfl
@[simp] theorem State.writeBytes_cairn (s : State) (a : Nat) (bs : List Byte) : (s.writeBytes a bs).cairn = s.cairn := rfl
@[simp] theorem State.writeBytes_pair (s : State) (a : Nat) (bs : List Byte) : (s.writeBytes a bs).pair = s.pair := rfl
@[simp] theorem State.writeBytes_acts (s : State) (a : Nat) (bs : List Byte) : (s.writeBytes a bs).acts = s.acts := rfl
@[simp] theorem State.writeBytes_slots (s : State) (a : Nat) (bs : List Byte) : (s.writeBytes a bs).slots = s.slots := rfl
@[simp] theorem State.writeBytes_kv (s : State) (a : Nat) (bs : List Byte) : (s.writeBytes a bs).kv = s.kv := rfl
@[simp] theorem State.writeBytes_hub (s : State) (a : Nat) (bs : List Byte) : (s.writeBytes a bs).hub = s.hub := rfl
@[simp] theorem State.writeBytes_host (s : State) (a : Nat) (bs : List Byte) : (s.writeBytes a bs).host = s.host := rfl
@[simp] theorem State.writeBytes_rope (s : State) (a : Nat) (bs : List Byte) : (s.writeBytes a bs).rope = s.rope := rfl
@[simp] theorem State.writeBytes_maps (s : State) (a : Nat) (bs : List Byte) : (s.writeBytes a bs).maps = s.maps := rfl
@[simp] theorem State.writeBytes_seq (s : State) (a : Nat) (bs : List Byte) : (s.writeBytes a bs).seq = s.seq := rfl
@[simp] theorem State.writeBytes_power (s : State) (a : Nat) (bs : List Byte) : (s.writeBytes a bs).power = s.power := rfl
@[simp] theorem State.writeBytes_therm (s : State) (a : Nat) (bs : List Byte) : (s.writeBytes a bs).therm = s.therm := rfl
@[simp] theorem State.writeBytes_clock (s : State) (a : Nat) (bs : List Byte) : (s.writeBytes a bs).clock = s.clock := rfl
@[simp] theorem State.writeBytes_dor (s : State) (a : Nat) (bs : List Byte) : (s.writeBytes a bs).dor = s.dor := rfl
@[simp] theorem State.writeBytes_tel (s : State) (a : Nat) (bs : List Byte) : (s.writeBytes a bs).tel = s.tel := rfl
@[simp] theorem State.writeBytes_pins (s : State) (a : Nat) (bs : List Byte) : (s.writeBytes a bs).pins = s.pins := rfl
@[simp] theorem State.writeBytes_castGen (s : State) (a : Nat) (bs : List Byte) : (s.writeBytes a bs).castGen = s.castGen := rfl
@[simp] theorem State.writeBytes_castTab (s : State) (a : Nat) (bs : List Byte) : (s.writeBytes a bs).castTab = s.castTab := rfl
@[simp] theorem State.writeBytes_distGen (s : State) (a : Nat) (bs : List Byte) : (s.writeBytes a bs).distGen = s.distGen := rfl
@[simp] theorem State.writeBytes_dist (s : State) (a : Nat) (bs : List Byte) : (s.writeBytes a bs).dist = s.dist := rfl

/-! `clearMem` changes `mem` only. -/
@[simp] theorem State.clearMem_pending (s : State) (lo hi : Nat) : (s.clearMem lo hi).pending = s.pending := rfl
@[simp] theorem State.clearMem_now (s : State) (lo hi : Nat) : (s.clearMem lo hi).now = s.now := rfl
@[simp] theorem State.clearMem_freeIdx (s : State) (lo hi : Nat) : (s.clearMem lo hi).freeIdx = s.freeIdx := rfl
@[simp] theorem State.clearMem_out (s : State) (lo hi : Nat) : (s.clearMem lo hi).out = s.out := rfl
@[simp] theorem State.clearMem_regs (s : State) (lo hi : Nat) : (s.clearMem lo hi).regs = s.regs := rfl
@[simp] theorem State.clearMem_cells (s : State) (lo hi : Nat) : (s.clearMem lo hi).cells = s.cells := rfl
@[simp] theorem State.clearMem_banks (s : State) (lo hi : Nat) : (s.clearMem lo hi).banks = s.banks := rfl
@[simp] theorem State.clearMem_mesh (s : State) (lo hi : Nat) : (s.clearMem lo hi).mesh = s.mesh := rfl
@[simp] theorem State.clearMem_chans (s : State) (lo hi : Nat) : (s.clearMem lo hi).chans = s.chans := rfl
@[simp] theorem State.clearMem_pkg (s : State) (lo hi : Nat) : (s.clearMem lo hi).pkg = s.pkg := rfl
@[simp] theorem State.clearMem_belay (s : State) (lo hi : Nat) : (s.clearMem lo hi).belay = s.belay := rfl
@[simp] theorem State.clearMem_rcv (s : State) (lo hi : Nat) : (s.clearMem lo hi).rcv = s.rcv := rfl
@[simp] theorem State.clearMem_cairn (s : State) (lo hi : Nat) : (s.clearMem lo hi).cairn = s.cairn := rfl
@[simp] theorem State.clearMem_pair (s : State) (lo hi : Nat) : (s.clearMem lo hi).pair = s.pair := rfl
@[simp] theorem State.clearMem_acts (s : State) (lo hi : Nat) : (s.clearMem lo hi).acts = s.acts := rfl
@[simp] theorem State.clearMem_slots (s : State) (lo hi : Nat) : (s.clearMem lo hi).slots = s.slots := rfl
@[simp] theorem State.clearMem_kv (s : State) (lo hi : Nat) : (s.clearMem lo hi).kv = s.kv := rfl
@[simp] theorem State.clearMem_hub (s : State) (lo hi : Nat) : (s.clearMem lo hi).hub = s.hub := rfl
@[simp] theorem State.clearMem_host (s : State) (lo hi : Nat) : (s.clearMem lo hi).host = s.host := rfl
@[simp] theorem State.clearMem_rope (s : State) (lo hi : Nat) : (s.clearMem lo hi).rope = s.rope := rfl
@[simp] theorem State.clearMem_maps (s : State) (lo hi : Nat) : (s.clearMem lo hi).maps = s.maps := rfl
@[simp] theorem State.clearMem_seq (s : State) (lo hi : Nat) : (s.clearMem lo hi).seq = s.seq := rfl
@[simp] theorem State.clearMem_power (s : State) (lo hi : Nat) : (s.clearMem lo hi).power = s.power := rfl
@[simp] theorem State.clearMem_therm (s : State) (lo hi : Nat) : (s.clearMem lo hi).therm = s.therm := rfl
@[simp] theorem State.clearMem_clock (s : State) (lo hi : Nat) : (s.clearMem lo hi).clock = s.clock := rfl
@[simp] theorem State.clearMem_dor (s : State) (lo hi : Nat) : (s.clearMem lo hi).dor = s.dor := rfl
@[simp] theorem State.clearMem_tel (s : State) (lo hi : Nat) : (s.clearMem lo hi).tel = s.tel := rfl
@[simp] theorem State.clearMem_pins (s : State) (lo hi : Nat) : (s.clearMem lo hi).pins = s.pins := rfl
@[simp] theorem State.clearMem_castGen (s : State) (lo hi : Nat) : (s.clearMem lo hi).castGen = s.castGen := rfl
@[simp] theorem State.clearMem_castTab (s : State) (lo hi : Nat) : (s.clearMem lo hi).castTab = s.castTab := rfl
@[simp] theorem State.clearMem_distGen (s : State) (lo hi : Nat) : (s.clearMem lo hi).distGen = s.distGen := rfl
@[simp] theorem State.clearMem_dist (s : State) (lo hi : Nat) : (s.clearMem lo hi).dist = s.dist := rfl

/-! `setCell` changes `cells` only. -/
@[simp] theorem State.setCell_pending (s : State) (c : Nat) (x : CellSt) : (s.setCell c x).pending = s.pending := rfl
@[simp] theorem State.setCell_now (s : State) (c : Nat) (x : CellSt) : (s.setCell c x).now = s.now := rfl
@[simp] theorem State.setCell_freeIdx (s : State) (c : Nat) (x : CellSt) : (s.setCell c x).freeIdx = s.freeIdx := rfl
@[simp] theorem State.setCell_out (s : State) (c : Nat) (x : CellSt) : (s.setCell c x).out = s.out := rfl
@[simp] theorem State.setCell_regs (s : State) (c : Nat) (x : CellSt) : (s.setCell c x).regs = s.regs := rfl
@[simp] theorem State.setCell_mem (s : State) (c : Nat) (x : CellSt) : (s.setCell c x).mem = s.mem := rfl
@[simp] theorem State.setCell_cells (s : State) (c : Nat) (x : CellSt) : (s.setCell c x).cells = SMap.put s.cells c x := rfl
@[simp] theorem State.setCell_banks (s : State) (c : Nat) (x : CellSt) : (s.setCell c x).banks = s.banks := rfl
@[simp] theorem State.setCell_mesh (s : State) (c : Nat) (x : CellSt) : (s.setCell c x).mesh = s.mesh := rfl
@[simp] theorem State.setCell_chans (s : State) (c : Nat) (x : CellSt) : (s.setCell c x).chans = s.chans := rfl
@[simp] theorem State.setCell_pkg (s : State) (c : Nat) (x : CellSt) : (s.setCell c x).pkg = s.pkg := rfl
@[simp] theorem State.setCell_belay (s : State) (c : Nat) (x : CellSt) : (s.setCell c x).belay = s.belay := rfl
@[simp] theorem State.setCell_rcv (s : State) (c : Nat) (x : CellSt) : (s.setCell c x).rcv = s.rcv := rfl
@[simp] theorem State.setCell_cairn (s : State) (c : Nat) (x : CellSt) : (s.setCell c x).cairn = s.cairn := rfl
@[simp] theorem State.setCell_pair (s : State) (c : Nat) (x : CellSt) : (s.setCell c x).pair = s.pair := rfl
@[simp] theorem State.setCell_acts (s : State) (c : Nat) (x : CellSt) : (s.setCell c x).acts = s.acts := rfl
@[simp] theorem State.setCell_slots (s : State) (c : Nat) (x : CellSt) : (s.setCell c x).slots = s.slots := rfl
@[simp] theorem State.setCell_kv (s : State) (c : Nat) (x : CellSt) : (s.setCell c x).kv = s.kv := rfl
@[simp] theorem State.setCell_hub (s : State) (c : Nat) (x : CellSt) : (s.setCell c x).hub = s.hub := rfl
@[simp] theorem State.setCell_host (s : State) (c : Nat) (x : CellSt) : (s.setCell c x).host = s.host := rfl
@[simp] theorem State.setCell_rope (s : State) (c : Nat) (x : CellSt) : (s.setCell c x).rope = s.rope := rfl
@[simp] theorem State.setCell_maps (s : State) (c : Nat) (x : CellSt) : (s.setCell c x).maps = s.maps := rfl
@[simp] theorem State.setCell_seq (s : State) (c : Nat) (x : CellSt) : (s.setCell c x).seq = s.seq := rfl
@[simp] theorem State.setCell_power (s : State) (c : Nat) (x : CellSt) : (s.setCell c x).power = s.power := rfl
@[simp] theorem State.setCell_therm (s : State) (c : Nat) (x : CellSt) : (s.setCell c x).therm = s.therm := rfl
@[simp] theorem State.setCell_clock (s : State) (c : Nat) (x : CellSt) : (s.setCell c x).clock = s.clock := rfl
@[simp] theorem State.setCell_dor (s : State) (c : Nat) (x : CellSt) : (s.setCell c x).dor = s.dor := rfl
@[simp] theorem State.setCell_tel (s : State) (c : Nat) (x : CellSt) : (s.setCell c x).tel = s.tel := rfl
@[simp] theorem State.setCell_pins (s : State) (c : Nat) (x : CellSt) : (s.setCell c x).pins = s.pins := rfl
@[simp] theorem State.setCell_castGen (s : State) (c : Nat) (x : CellSt) : (s.setCell c x).castGen = s.castGen := rfl
@[simp] theorem State.setCell_castTab (s : State) (c : Nat) (x : CellSt) : (s.setCell c x).castTab = s.castTab := rfl
@[simp] theorem State.setCell_distGen (s : State) (c : Nat) (x : CellSt) : (s.setCell c x).distGen = s.distGen := rfl
@[simp] theorem State.setCell_dist (s : State) (c : Nat) (x : CellSt) : (s.setCell c x).dist = s.dist := rfl

/-! `modCell` changes `cells` only. -/
@[simp] theorem State.modCell_pending (s : State) (c : Nat) (f : CellSt → CellSt) : (s.modCell c f).pending = s.pending := rfl
@[simp] theorem State.modCell_now (s : State) (c : Nat) (f : CellSt → CellSt) : (s.modCell c f).now = s.now := rfl
@[simp] theorem State.modCell_freeIdx (s : State) (c : Nat) (f : CellSt → CellSt) : (s.modCell c f).freeIdx = s.freeIdx := rfl
@[simp] theorem State.modCell_out (s : State) (c : Nat) (f : CellSt → CellSt) : (s.modCell c f).out = s.out := rfl
@[simp] theorem State.modCell_regs (s : State) (c : Nat) (f : CellSt → CellSt) : (s.modCell c f).regs = s.regs := rfl
@[simp] theorem State.modCell_mem (s : State) (c : Nat) (f : CellSt → CellSt) : (s.modCell c f).mem = s.mem := rfl
@[simp] theorem State.modCell_cells (s : State) (c : Nat) (f : CellSt → CellSt) : (s.modCell c f).cells = SMap.put s.cells c (f (s.cell c)) := rfl
@[simp] theorem State.modCell_banks (s : State) (c : Nat) (f : CellSt → CellSt) : (s.modCell c f).banks = s.banks := rfl
@[simp] theorem State.modCell_mesh (s : State) (c : Nat) (f : CellSt → CellSt) : (s.modCell c f).mesh = s.mesh := rfl
@[simp] theorem State.modCell_chans (s : State) (c : Nat) (f : CellSt → CellSt) : (s.modCell c f).chans = s.chans := rfl
@[simp] theorem State.modCell_pkg (s : State) (c : Nat) (f : CellSt → CellSt) : (s.modCell c f).pkg = s.pkg := rfl
@[simp] theorem State.modCell_belay (s : State) (c : Nat) (f : CellSt → CellSt) : (s.modCell c f).belay = s.belay := rfl
@[simp] theorem State.modCell_rcv (s : State) (c : Nat) (f : CellSt → CellSt) : (s.modCell c f).rcv = s.rcv := rfl
@[simp] theorem State.modCell_cairn (s : State) (c : Nat) (f : CellSt → CellSt) : (s.modCell c f).cairn = s.cairn := rfl
@[simp] theorem State.modCell_pair (s : State) (c : Nat) (f : CellSt → CellSt) : (s.modCell c f).pair = s.pair := rfl
@[simp] theorem State.modCell_acts (s : State) (c : Nat) (f : CellSt → CellSt) : (s.modCell c f).acts = s.acts := rfl
@[simp] theorem State.modCell_slots (s : State) (c : Nat) (f : CellSt → CellSt) : (s.modCell c f).slots = s.slots := rfl
@[simp] theorem State.modCell_kv (s : State) (c : Nat) (f : CellSt → CellSt) : (s.modCell c f).kv = s.kv := rfl
@[simp] theorem State.modCell_hub (s : State) (c : Nat) (f : CellSt → CellSt) : (s.modCell c f).hub = s.hub := rfl
@[simp] theorem State.modCell_host (s : State) (c : Nat) (f : CellSt → CellSt) : (s.modCell c f).host = s.host := rfl
@[simp] theorem State.modCell_rope (s : State) (c : Nat) (f : CellSt → CellSt) : (s.modCell c f).rope = s.rope := rfl
@[simp] theorem State.modCell_maps (s : State) (c : Nat) (f : CellSt → CellSt) : (s.modCell c f).maps = s.maps := rfl
@[simp] theorem State.modCell_seq (s : State) (c : Nat) (f : CellSt → CellSt) : (s.modCell c f).seq = s.seq := rfl
@[simp] theorem State.modCell_power (s : State) (c : Nat) (f : CellSt → CellSt) : (s.modCell c f).power = s.power := rfl
@[simp] theorem State.modCell_therm (s : State) (c : Nat) (f : CellSt → CellSt) : (s.modCell c f).therm = s.therm := rfl
@[simp] theorem State.modCell_clock (s : State) (c : Nat) (f : CellSt → CellSt) : (s.modCell c f).clock = s.clock := rfl
@[simp] theorem State.modCell_dor (s : State) (c : Nat) (f : CellSt → CellSt) : (s.modCell c f).dor = s.dor := rfl
@[simp] theorem State.modCell_tel (s : State) (c : Nat) (f : CellSt → CellSt) : (s.modCell c f).tel = s.tel := rfl
@[simp] theorem State.modCell_pins (s : State) (c : Nat) (f : CellSt → CellSt) : (s.modCell c f).pins = s.pins := rfl
@[simp] theorem State.modCell_castGen (s : State) (c : Nat) (f : CellSt → CellSt) : (s.modCell c f).castGen = s.castGen := rfl
@[simp] theorem State.modCell_castTab (s : State) (c : Nat) (f : CellSt → CellSt) : (s.modCell c f).castTab = s.castTab := rfl
@[simp] theorem State.modCell_distGen (s : State) (c : Nat) (f : CellSt → CellSt) : (s.modCell c f).distGen = s.distGen := rfl
@[simp] theorem State.modCell_dist (s : State) (c : Nat) (f : CellSt → CellSt) : (s.modCell c f).dist = s.dist := rfl

/-! `modEng` changes `cells` only. -/
@[simp] theorem State.modEng_pending (s : State) (c : Nat) (f : EngSt → EngSt) : (s.modEng c f).pending = s.pending := rfl
@[simp] theorem State.modEng_now (s : State) (c : Nat) (f : EngSt → EngSt) : (s.modEng c f).now = s.now := rfl
@[simp] theorem State.modEng_freeIdx (s : State) (c : Nat) (f : EngSt → EngSt) : (s.modEng c f).freeIdx = s.freeIdx := rfl
@[simp] theorem State.modEng_out (s : State) (c : Nat) (f : EngSt → EngSt) : (s.modEng c f).out = s.out := rfl
@[simp] theorem State.modEng_regs (s : State) (c : Nat) (f : EngSt → EngSt) : (s.modEng c f).regs = s.regs := rfl
@[simp] theorem State.modEng_mem (s : State) (c : Nat) (f : EngSt → EngSt) : (s.modEng c f).mem = s.mem := rfl
@[simp] theorem State.modEng_banks (s : State) (c : Nat) (f : EngSt → EngSt) : (s.modEng c f).banks = s.banks := rfl
@[simp] theorem State.modEng_mesh (s : State) (c : Nat) (f : EngSt → EngSt) : (s.modEng c f).mesh = s.mesh := rfl
@[simp] theorem State.modEng_chans (s : State) (c : Nat) (f : EngSt → EngSt) : (s.modEng c f).chans = s.chans := rfl
@[simp] theorem State.modEng_pkg (s : State) (c : Nat) (f : EngSt → EngSt) : (s.modEng c f).pkg = s.pkg := rfl
@[simp] theorem State.modEng_belay (s : State) (c : Nat) (f : EngSt → EngSt) : (s.modEng c f).belay = s.belay := rfl
@[simp] theorem State.modEng_rcv (s : State) (c : Nat) (f : EngSt → EngSt) : (s.modEng c f).rcv = s.rcv := rfl
@[simp] theorem State.modEng_cairn (s : State) (c : Nat) (f : EngSt → EngSt) : (s.modEng c f).cairn = s.cairn := rfl
@[simp] theorem State.modEng_pair (s : State) (c : Nat) (f : EngSt → EngSt) : (s.modEng c f).pair = s.pair := rfl
@[simp] theorem State.modEng_acts (s : State) (c : Nat) (f : EngSt → EngSt) : (s.modEng c f).acts = s.acts := rfl
@[simp] theorem State.modEng_slots (s : State) (c : Nat) (f : EngSt → EngSt) : (s.modEng c f).slots = s.slots := rfl
@[simp] theorem State.modEng_kv (s : State) (c : Nat) (f : EngSt → EngSt) : (s.modEng c f).kv = s.kv := rfl
@[simp] theorem State.modEng_hub (s : State) (c : Nat) (f : EngSt → EngSt) : (s.modEng c f).hub = s.hub := rfl
@[simp] theorem State.modEng_host (s : State) (c : Nat) (f : EngSt → EngSt) : (s.modEng c f).host = s.host := rfl
@[simp] theorem State.modEng_rope (s : State) (c : Nat) (f : EngSt → EngSt) : (s.modEng c f).rope = s.rope := rfl
@[simp] theorem State.modEng_maps (s : State) (c : Nat) (f : EngSt → EngSt) : (s.modEng c f).maps = s.maps := rfl
@[simp] theorem State.modEng_seq (s : State) (c : Nat) (f : EngSt → EngSt) : (s.modEng c f).seq = s.seq := rfl
@[simp] theorem State.modEng_power (s : State) (c : Nat) (f : EngSt → EngSt) : (s.modEng c f).power = s.power := rfl
@[simp] theorem State.modEng_therm (s : State) (c : Nat) (f : EngSt → EngSt) : (s.modEng c f).therm = s.therm := rfl
@[simp] theorem State.modEng_clock (s : State) (c : Nat) (f : EngSt → EngSt) : (s.modEng c f).clock = s.clock := rfl
@[simp] theorem State.modEng_dor (s : State) (c : Nat) (f : EngSt → EngSt) : (s.modEng c f).dor = s.dor := rfl
@[simp] theorem State.modEng_tel (s : State) (c : Nat) (f : EngSt → EngSt) : (s.modEng c f).tel = s.tel := rfl
@[simp] theorem State.modEng_pins (s : State) (c : Nat) (f : EngSt → EngSt) : (s.modEng c f).pins = s.pins := rfl
@[simp] theorem State.modEng_castGen (s : State) (c : Nat) (f : EngSt → EngSt) : (s.modEng c f).castGen = s.castGen := rfl
@[simp] theorem State.modEng_castTab (s : State) (c : Nat) (f : EngSt → EngSt) : (s.modEng c f).castTab = s.castTab := rfl
@[simp] theorem State.modEng_distGen (s : State) (c : Nat) (f : EngSt → EngSt) : (s.modEng c f).distGen = s.distGen := rfl
@[simp] theorem State.modEng_dist (s : State) (c : Nat) (f : EngSt → EngSt) : (s.modEng c f).dist = s.dist := rfl

/-! `modScene` changes `cells` only. -/
@[simp] theorem State.modScene_pending (s : State) (c : Nat) (f : SceneSt → SceneSt) : (s.modScene c f).pending = s.pending := rfl
@[simp] theorem State.modScene_now (s : State) (c : Nat) (f : SceneSt → SceneSt) : (s.modScene c f).now = s.now := rfl
@[simp] theorem State.modScene_freeIdx (s : State) (c : Nat) (f : SceneSt → SceneSt) : (s.modScene c f).freeIdx = s.freeIdx := rfl
@[simp] theorem State.modScene_out (s : State) (c : Nat) (f : SceneSt → SceneSt) : (s.modScene c f).out = s.out := rfl
@[simp] theorem State.modScene_regs (s : State) (c : Nat) (f : SceneSt → SceneSt) : (s.modScene c f).regs = s.regs := rfl
@[simp] theorem State.modScene_mem (s : State) (c : Nat) (f : SceneSt → SceneSt) : (s.modScene c f).mem = s.mem := rfl
@[simp] theorem State.modScene_banks (s : State) (c : Nat) (f : SceneSt → SceneSt) : (s.modScene c f).banks = s.banks := rfl
@[simp] theorem State.modScene_mesh (s : State) (c : Nat) (f : SceneSt → SceneSt) : (s.modScene c f).mesh = s.mesh := rfl
@[simp] theorem State.modScene_chans (s : State) (c : Nat) (f : SceneSt → SceneSt) : (s.modScene c f).chans = s.chans := rfl
@[simp] theorem State.modScene_pkg (s : State) (c : Nat) (f : SceneSt → SceneSt) : (s.modScene c f).pkg = s.pkg := rfl
@[simp] theorem State.modScene_belay (s : State) (c : Nat) (f : SceneSt → SceneSt) : (s.modScene c f).belay = s.belay := rfl
@[simp] theorem State.modScene_rcv (s : State) (c : Nat) (f : SceneSt → SceneSt) : (s.modScene c f).rcv = s.rcv := rfl
@[simp] theorem State.modScene_cairn (s : State) (c : Nat) (f : SceneSt → SceneSt) : (s.modScene c f).cairn = s.cairn := rfl
@[simp] theorem State.modScene_pair (s : State) (c : Nat) (f : SceneSt → SceneSt) : (s.modScene c f).pair = s.pair := rfl
@[simp] theorem State.modScene_acts (s : State) (c : Nat) (f : SceneSt → SceneSt) : (s.modScene c f).acts = s.acts := rfl
@[simp] theorem State.modScene_slots (s : State) (c : Nat) (f : SceneSt → SceneSt) : (s.modScene c f).slots = s.slots := rfl
@[simp] theorem State.modScene_kv (s : State) (c : Nat) (f : SceneSt → SceneSt) : (s.modScene c f).kv = s.kv := rfl
@[simp] theorem State.modScene_hub (s : State) (c : Nat) (f : SceneSt → SceneSt) : (s.modScene c f).hub = s.hub := rfl
@[simp] theorem State.modScene_host (s : State) (c : Nat) (f : SceneSt → SceneSt) : (s.modScene c f).host = s.host := rfl
@[simp] theorem State.modScene_rope (s : State) (c : Nat) (f : SceneSt → SceneSt) : (s.modScene c f).rope = s.rope := rfl
@[simp] theorem State.modScene_maps (s : State) (c : Nat) (f : SceneSt → SceneSt) : (s.modScene c f).maps = s.maps := rfl
@[simp] theorem State.modScene_seq (s : State) (c : Nat) (f : SceneSt → SceneSt) : (s.modScene c f).seq = s.seq := rfl
@[simp] theorem State.modScene_power (s : State) (c : Nat) (f : SceneSt → SceneSt) : (s.modScene c f).power = s.power := rfl
@[simp] theorem State.modScene_therm (s : State) (c : Nat) (f : SceneSt → SceneSt) : (s.modScene c f).therm = s.therm := rfl
@[simp] theorem State.modScene_clock (s : State) (c : Nat) (f : SceneSt → SceneSt) : (s.modScene c f).clock = s.clock := rfl
@[simp] theorem State.modScene_dor (s : State) (c : Nat) (f : SceneSt → SceneSt) : (s.modScene c f).dor = s.dor := rfl
@[simp] theorem State.modScene_tel (s : State) (c : Nat) (f : SceneSt → SceneSt) : (s.modScene c f).tel = s.tel := rfl
@[simp] theorem State.modScene_pins (s : State) (c : Nat) (f : SceneSt → SceneSt) : (s.modScene c f).pins = s.pins := rfl
@[simp] theorem State.modScene_castGen (s : State) (c : Nat) (f : SceneSt → SceneSt) : (s.modScene c f).castGen = s.castGen := rfl
@[simp] theorem State.modScene_castTab (s : State) (c : Nat) (f : SceneSt → SceneSt) : (s.modScene c f).castTab = s.castTab := rfl
@[simp] theorem State.modScene_distGen (s : State) (c : Nat) (f : SceneSt → SceneSt) : (s.modScene c f).distGen = s.distGen := rfl
@[simp] theorem State.modScene_dist (s : State) (c : Nat) (f : SceneSt → SceneSt) : (s.modScene c f).dist = s.dist := rfl

/-! `modPort` changes `cells` only. -/
@[simp] theorem State.modPort_pending (s : State) (c : Nat) (f : PortSt → PortSt) : (s.modPort c f).pending = s.pending := rfl
@[simp] theorem State.modPort_now (s : State) (c : Nat) (f : PortSt → PortSt) : (s.modPort c f).now = s.now := rfl
@[simp] theorem State.modPort_freeIdx (s : State) (c : Nat) (f : PortSt → PortSt) : (s.modPort c f).freeIdx = s.freeIdx := rfl
@[simp] theorem State.modPort_out (s : State) (c : Nat) (f : PortSt → PortSt) : (s.modPort c f).out = s.out := rfl
@[simp] theorem State.modPort_regs (s : State) (c : Nat) (f : PortSt → PortSt) : (s.modPort c f).regs = s.regs := rfl
@[simp] theorem State.modPort_mem (s : State) (c : Nat) (f : PortSt → PortSt) : (s.modPort c f).mem = s.mem := rfl
@[simp] theorem State.modPort_banks (s : State) (c : Nat) (f : PortSt → PortSt) : (s.modPort c f).banks = s.banks := rfl
@[simp] theorem State.modPort_mesh (s : State) (c : Nat) (f : PortSt → PortSt) : (s.modPort c f).mesh = s.mesh := rfl
@[simp] theorem State.modPort_chans (s : State) (c : Nat) (f : PortSt → PortSt) : (s.modPort c f).chans = s.chans := rfl
@[simp] theorem State.modPort_pkg (s : State) (c : Nat) (f : PortSt → PortSt) : (s.modPort c f).pkg = s.pkg := rfl
@[simp] theorem State.modPort_belay (s : State) (c : Nat) (f : PortSt → PortSt) : (s.modPort c f).belay = s.belay := rfl
@[simp] theorem State.modPort_rcv (s : State) (c : Nat) (f : PortSt → PortSt) : (s.modPort c f).rcv = s.rcv := rfl
@[simp] theorem State.modPort_cairn (s : State) (c : Nat) (f : PortSt → PortSt) : (s.modPort c f).cairn = s.cairn := rfl
@[simp] theorem State.modPort_pair (s : State) (c : Nat) (f : PortSt → PortSt) : (s.modPort c f).pair = s.pair := rfl
@[simp] theorem State.modPort_acts (s : State) (c : Nat) (f : PortSt → PortSt) : (s.modPort c f).acts = s.acts := rfl
@[simp] theorem State.modPort_slots (s : State) (c : Nat) (f : PortSt → PortSt) : (s.modPort c f).slots = s.slots := rfl
@[simp] theorem State.modPort_kv (s : State) (c : Nat) (f : PortSt → PortSt) : (s.modPort c f).kv = s.kv := rfl
@[simp] theorem State.modPort_hub (s : State) (c : Nat) (f : PortSt → PortSt) : (s.modPort c f).hub = s.hub := rfl
@[simp] theorem State.modPort_host (s : State) (c : Nat) (f : PortSt → PortSt) : (s.modPort c f).host = s.host := rfl
@[simp] theorem State.modPort_rope (s : State) (c : Nat) (f : PortSt → PortSt) : (s.modPort c f).rope = s.rope := rfl
@[simp] theorem State.modPort_maps (s : State) (c : Nat) (f : PortSt → PortSt) : (s.modPort c f).maps = s.maps := rfl
@[simp] theorem State.modPort_seq (s : State) (c : Nat) (f : PortSt → PortSt) : (s.modPort c f).seq = s.seq := rfl
@[simp] theorem State.modPort_power (s : State) (c : Nat) (f : PortSt → PortSt) : (s.modPort c f).power = s.power := rfl
@[simp] theorem State.modPort_therm (s : State) (c : Nat) (f : PortSt → PortSt) : (s.modPort c f).therm = s.therm := rfl
@[simp] theorem State.modPort_clock (s : State) (c : Nat) (f : PortSt → PortSt) : (s.modPort c f).clock = s.clock := rfl
@[simp] theorem State.modPort_dor (s : State) (c : Nat) (f : PortSt → PortSt) : (s.modPort c f).dor = s.dor := rfl
@[simp] theorem State.modPort_tel (s : State) (c : Nat) (f : PortSt → PortSt) : (s.modPort c f).tel = s.tel := rfl
@[simp] theorem State.modPort_pins (s : State) (c : Nat) (f : PortSt → PortSt) : (s.modPort c f).pins = s.pins := rfl
@[simp] theorem State.modPort_castGen (s : State) (c : Nat) (f : PortSt → PortSt) : (s.modPort c f).castGen = s.castGen := rfl
@[simp] theorem State.modPort_castTab (s : State) (c : Nat) (f : PortSt → PortSt) : (s.modPort c f).castTab = s.castTab := rfl
@[simp] theorem State.modPort_distGen (s : State) (c : Nat) (f : PortSt → PortSt) : (s.modPort c f).distGen = s.distGen := rfl
@[simp] theorem State.modPort_dist (s : State) (c : Nat) (f : PortSt → PortSt) : (s.modPort c f).dist = s.dist := rfl

/-! `modEp` changes `cells` only. -/
@[simp] theorem State.modEp_pending (s : State) (c n : Nat) (f : EpSt → EpSt) : (s.modEp c n f).pending = s.pending := rfl
@[simp] theorem State.modEp_now (s : State) (c n : Nat) (f : EpSt → EpSt) : (s.modEp c n f).now = s.now := rfl
@[simp] theorem State.modEp_freeIdx (s : State) (c n : Nat) (f : EpSt → EpSt) : (s.modEp c n f).freeIdx = s.freeIdx := rfl
@[simp] theorem State.modEp_out (s : State) (c n : Nat) (f : EpSt → EpSt) : (s.modEp c n f).out = s.out := rfl
@[simp] theorem State.modEp_regs (s : State) (c n : Nat) (f : EpSt → EpSt) : (s.modEp c n f).regs = s.regs := rfl
@[simp] theorem State.modEp_mem (s : State) (c n : Nat) (f : EpSt → EpSt) : (s.modEp c n f).mem = s.mem := rfl
@[simp] theorem State.modEp_banks (s : State) (c n : Nat) (f : EpSt → EpSt) : (s.modEp c n f).banks = s.banks := rfl
@[simp] theorem State.modEp_mesh (s : State) (c n : Nat) (f : EpSt → EpSt) : (s.modEp c n f).mesh = s.mesh := rfl
@[simp] theorem State.modEp_chans (s : State) (c n : Nat) (f : EpSt → EpSt) : (s.modEp c n f).chans = s.chans := rfl
@[simp] theorem State.modEp_pkg (s : State) (c n : Nat) (f : EpSt → EpSt) : (s.modEp c n f).pkg = s.pkg := rfl
@[simp] theorem State.modEp_belay (s : State) (c n : Nat) (f : EpSt → EpSt) : (s.modEp c n f).belay = s.belay := rfl
@[simp] theorem State.modEp_rcv (s : State) (c n : Nat) (f : EpSt → EpSt) : (s.modEp c n f).rcv = s.rcv := rfl
@[simp] theorem State.modEp_cairn (s : State) (c n : Nat) (f : EpSt → EpSt) : (s.modEp c n f).cairn = s.cairn := rfl
@[simp] theorem State.modEp_pair (s : State) (c n : Nat) (f : EpSt → EpSt) : (s.modEp c n f).pair = s.pair := rfl
@[simp] theorem State.modEp_acts (s : State) (c n : Nat) (f : EpSt → EpSt) : (s.modEp c n f).acts = s.acts := rfl
@[simp] theorem State.modEp_slots (s : State) (c n : Nat) (f : EpSt → EpSt) : (s.modEp c n f).slots = s.slots := rfl
@[simp] theorem State.modEp_kv (s : State) (c n : Nat) (f : EpSt → EpSt) : (s.modEp c n f).kv = s.kv := rfl
@[simp] theorem State.modEp_hub (s : State) (c n : Nat) (f : EpSt → EpSt) : (s.modEp c n f).hub = s.hub := rfl
@[simp] theorem State.modEp_host (s : State) (c n : Nat) (f : EpSt → EpSt) : (s.modEp c n f).host = s.host := rfl
@[simp] theorem State.modEp_rope (s : State) (c n : Nat) (f : EpSt → EpSt) : (s.modEp c n f).rope = s.rope := rfl
@[simp] theorem State.modEp_maps (s : State) (c n : Nat) (f : EpSt → EpSt) : (s.modEp c n f).maps = s.maps := rfl
@[simp] theorem State.modEp_seq (s : State) (c n : Nat) (f : EpSt → EpSt) : (s.modEp c n f).seq = s.seq := rfl
@[simp] theorem State.modEp_power (s : State) (c n : Nat) (f : EpSt → EpSt) : (s.modEp c n f).power = s.power := rfl
@[simp] theorem State.modEp_therm (s : State) (c n : Nat) (f : EpSt → EpSt) : (s.modEp c n f).therm = s.therm := rfl
@[simp] theorem State.modEp_clock (s : State) (c n : Nat) (f : EpSt → EpSt) : (s.modEp c n f).clock = s.clock := rfl
@[simp] theorem State.modEp_dor (s : State) (c n : Nat) (f : EpSt → EpSt) : (s.modEp c n f).dor = s.dor := rfl
@[simp] theorem State.modEp_tel (s : State) (c n : Nat) (f : EpSt → EpSt) : (s.modEp c n f).tel = s.tel := rfl
@[simp] theorem State.modEp_pins (s : State) (c n : Nat) (f : EpSt → EpSt) : (s.modEp c n f).pins = s.pins := rfl
@[simp] theorem State.modEp_castGen (s : State) (c n : Nat) (f : EpSt → EpSt) : (s.modEp c n f).castGen = s.castGen := rfl
@[simp] theorem State.modEp_castTab (s : State) (c n : Nat) (f : EpSt → EpSt) : (s.modEp c n f).castTab = s.castTab := rfl
@[simp] theorem State.modEp_distGen (s : State) (c n : Nat) (f : EpSt → EpSt) : (s.modEp c n f).distGen = s.distGen := rfl
@[simp] theorem State.modEp_dist (s : State) (c n : Nat) (f : EpSt → EpSt) : (s.modEp c n f).dist = s.dist := rfl

/-! `modAux` changes `cells` only. -/
@[simp] theorem State.modAux_pending (s : State) (c n : Nat) (f : EpAux → EpAux) : (s.modAux c n f).pending = s.pending := rfl
@[simp] theorem State.modAux_now (s : State) (c n : Nat) (f : EpAux → EpAux) : (s.modAux c n f).now = s.now := rfl
@[simp] theorem State.modAux_freeIdx (s : State) (c n : Nat) (f : EpAux → EpAux) : (s.modAux c n f).freeIdx = s.freeIdx := rfl
@[simp] theorem State.modAux_out (s : State) (c n : Nat) (f : EpAux → EpAux) : (s.modAux c n f).out = s.out := rfl
@[simp] theorem State.modAux_regs (s : State) (c n : Nat) (f : EpAux → EpAux) : (s.modAux c n f).regs = s.regs := rfl
@[simp] theorem State.modAux_mem (s : State) (c n : Nat) (f : EpAux → EpAux) : (s.modAux c n f).mem = s.mem := rfl
@[simp] theorem State.modAux_banks (s : State) (c n : Nat) (f : EpAux → EpAux) : (s.modAux c n f).banks = s.banks := rfl
@[simp] theorem State.modAux_mesh (s : State) (c n : Nat) (f : EpAux → EpAux) : (s.modAux c n f).mesh = s.mesh := rfl
@[simp] theorem State.modAux_chans (s : State) (c n : Nat) (f : EpAux → EpAux) : (s.modAux c n f).chans = s.chans := rfl
@[simp] theorem State.modAux_pkg (s : State) (c n : Nat) (f : EpAux → EpAux) : (s.modAux c n f).pkg = s.pkg := rfl
@[simp] theorem State.modAux_belay (s : State) (c n : Nat) (f : EpAux → EpAux) : (s.modAux c n f).belay = s.belay := rfl
@[simp] theorem State.modAux_rcv (s : State) (c n : Nat) (f : EpAux → EpAux) : (s.modAux c n f).rcv = s.rcv := rfl
@[simp] theorem State.modAux_cairn (s : State) (c n : Nat) (f : EpAux → EpAux) : (s.modAux c n f).cairn = s.cairn := rfl
@[simp] theorem State.modAux_pair (s : State) (c n : Nat) (f : EpAux → EpAux) : (s.modAux c n f).pair = s.pair := rfl
@[simp] theorem State.modAux_acts (s : State) (c n : Nat) (f : EpAux → EpAux) : (s.modAux c n f).acts = s.acts := rfl
@[simp] theorem State.modAux_slots (s : State) (c n : Nat) (f : EpAux → EpAux) : (s.modAux c n f).slots = s.slots := rfl
@[simp] theorem State.modAux_kv (s : State) (c n : Nat) (f : EpAux → EpAux) : (s.modAux c n f).kv = s.kv := rfl
@[simp] theorem State.modAux_hub (s : State) (c n : Nat) (f : EpAux → EpAux) : (s.modAux c n f).hub = s.hub := rfl
@[simp] theorem State.modAux_host (s : State) (c n : Nat) (f : EpAux → EpAux) : (s.modAux c n f).host = s.host := rfl
@[simp] theorem State.modAux_rope (s : State) (c n : Nat) (f : EpAux → EpAux) : (s.modAux c n f).rope = s.rope := rfl
@[simp] theorem State.modAux_maps (s : State) (c n : Nat) (f : EpAux → EpAux) : (s.modAux c n f).maps = s.maps := rfl
@[simp] theorem State.modAux_seq (s : State) (c n : Nat) (f : EpAux → EpAux) : (s.modAux c n f).seq = s.seq := rfl
@[simp] theorem State.modAux_power (s : State) (c n : Nat) (f : EpAux → EpAux) : (s.modAux c n f).power = s.power := rfl
@[simp] theorem State.modAux_therm (s : State) (c n : Nat) (f : EpAux → EpAux) : (s.modAux c n f).therm = s.therm := rfl
@[simp] theorem State.modAux_clock (s : State) (c n : Nat) (f : EpAux → EpAux) : (s.modAux c n f).clock = s.clock := rfl
@[simp] theorem State.modAux_dor (s : State) (c n : Nat) (f : EpAux → EpAux) : (s.modAux c n f).dor = s.dor := rfl
@[simp] theorem State.modAux_tel (s : State) (c n : Nat) (f : EpAux → EpAux) : (s.modAux c n f).tel = s.tel := rfl
@[simp] theorem State.modAux_pins (s : State) (c n : Nat) (f : EpAux → EpAux) : (s.modAux c n f).pins = s.pins := rfl
@[simp] theorem State.modAux_castGen (s : State) (c n : Nat) (f : EpAux → EpAux) : (s.modAux c n f).castGen = s.castGen := rfl
@[simp] theorem State.modAux_castTab (s : State) (c n : Nat) (f : EpAux → EpAux) : (s.modAux c n f).castTab = s.castTab := rfl
@[simp] theorem State.modAux_distGen (s : State) (c n : Nat) (f : EpAux → EpAux) : (s.modAux c n f).distGen = s.distGen := rfl
@[simp] theorem State.modAux_dist (s : State) (c n : Nat) (f : EpAux → EpAux) : (s.modAux c n f).dist = s.dist := rfl

/-! `modM` changes `cells` only. -/
@[simp] theorem State.modM_pending (s : State) (c : Nat) (f : MSt → MSt) : (s.modM c f).pending = s.pending := rfl
@[simp] theorem State.modM_now (s : State) (c : Nat) (f : MSt → MSt) : (s.modM c f).now = s.now := rfl
@[simp] theorem State.modM_freeIdx (s : State) (c : Nat) (f : MSt → MSt) : (s.modM c f).freeIdx = s.freeIdx := rfl
@[simp] theorem State.modM_out (s : State) (c : Nat) (f : MSt → MSt) : (s.modM c f).out = s.out := rfl
@[simp] theorem State.modM_regs (s : State) (c : Nat) (f : MSt → MSt) : (s.modM c f).regs = s.regs := rfl
@[simp] theorem State.modM_mem (s : State) (c : Nat) (f : MSt → MSt) : (s.modM c f).mem = s.mem := rfl
@[simp] theorem State.modM_banks (s : State) (c : Nat) (f : MSt → MSt) : (s.modM c f).banks = s.banks := rfl
@[simp] theorem State.modM_mesh (s : State) (c : Nat) (f : MSt → MSt) : (s.modM c f).mesh = s.mesh := rfl
@[simp] theorem State.modM_chans (s : State) (c : Nat) (f : MSt → MSt) : (s.modM c f).chans = s.chans := rfl
@[simp] theorem State.modM_pkg (s : State) (c : Nat) (f : MSt → MSt) : (s.modM c f).pkg = s.pkg := rfl
@[simp] theorem State.modM_belay (s : State) (c : Nat) (f : MSt → MSt) : (s.modM c f).belay = s.belay := rfl
@[simp] theorem State.modM_rcv (s : State) (c : Nat) (f : MSt → MSt) : (s.modM c f).rcv = s.rcv := rfl
@[simp] theorem State.modM_cairn (s : State) (c : Nat) (f : MSt → MSt) : (s.modM c f).cairn = s.cairn := rfl
@[simp] theorem State.modM_pair (s : State) (c : Nat) (f : MSt → MSt) : (s.modM c f).pair = s.pair := rfl
@[simp] theorem State.modM_acts (s : State) (c : Nat) (f : MSt → MSt) : (s.modM c f).acts = s.acts := rfl
@[simp] theorem State.modM_slots (s : State) (c : Nat) (f : MSt → MSt) : (s.modM c f).slots = s.slots := rfl
@[simp] theorem State.modM_kv (s : State) (c : Nat) (f : MSt → MSt) : (s.modM c f).kv = s.kv := rfl
@[simp] theorem State.modM_hub (s : State) (c : Nat) (f : MSt → MSt) : (s.modM c f).hub = s.hub := rfl
@[simp] theorem State.modM_host (s : State) (c : Nat) (f : MSt → MSt) : (s.modM c f).host = s.host := rfl
@[simp] theorem State.modM_rope (s : State) (c : Nat) (f : MSt → MSt) : (s.modM c f).rope = s.rope := rfl
@[simp] theorem State.modM_maps (s : State) (c : Nat) (f : MSt → MSt) : (s.modM c f).maps = s.maps := rfl
@[simp] theorem State.modM_seq (s : State) (c : Nat) (f : MSt → MSt) : (s.modM c f).seq = s.seq := rfl
@[simp] theorem State.modM_power (s : State) (c : Nat) (f : MSt → MSt) : (s.modM c f).power = s.power := rfl
@[simp] theorem State.modM_therm (s : State) (c : Nat) (f : MSt → MSt) : (s.modM c f).therm = s.therm := rfl
@[simp] theorem State.modM_clock (s : State) (c : Nat) (f : MSt → MSt) : (s.modM c f).clock = s.clock := rfl
@[simp] theorem State.modM_dor (s : State) (c : Nat) (f : MSt → MSt) : (s.modM c f).dor = s.dor := rfl
@[simp] theorem State.modM_tel (s : State) (c : Nat) (f : MSt → MSt) : (s.modM c f).tel = s.tel := rfl
@[simp] theorem State.modM_pins (s : State) (c : Nat) (f : MSt → MSt) : (s.modM c f).pins = s.pins := rfl
@[simp] theorem State.modM_castGen (s : State) (c : Nat) (f : MSt → MSt) : (s.modM c f).castGen = s.castGen := rfl
@[simp] theorem State.modM_castTab (s : State) (c : Nat) (f : MSt → MSt) : (s.modM c f).castTab = s.castTab := rfl
@[simp] theorem State.modM_distGen (s : State) (c : Nat) (f : MSt → MSt) : (s.modM c f).distGen = s.distGen := rfl
@[simp] theorem State.modM_dist (s : State) (c : Nat) (f : MSt → MSt) : (s.modM c f).dist = s.dist := rfl

/-! `modXr` changes `mesh` only. -/
@[simp] theorem State.modXr_pending (s : State) (b : Nat) (f : XrSt → XrSt) : (s.modXr b f).pending = s.pending := rfl
@[simp] theorem State.modXr_now (s : State) (b : Nat) (f : XrSt → XrSt) : (s.modXr b f).now = s.now := rfl
@[simp] theorem State.modXr_freeIdx (s : State) (b : Nat) (f : XrSt → XrSt) : (s.modXr b f).freeIdx = s.freeIdx := rfl
@[simp] theorem State.modXr_out (s : State) (b : Nat) (f : XrSt → XrSt) : (s.modXr b f).out = s.out := rfl
@[simp] theorem State.modXr_regs (s : State) (b : Nat) (f : XrSt → XrSt) : (s.modXr b f).regs = s.regs := rfl
@[simp] theorem State.modXr_mem (s : State) (b : Nat) (f : XrSt → XrSt) : (s.modXr b f).mem = s.mem := rfl
@[simp] theorem State.modXr_cells (s : State) (b : Nat) (f : XrSt → XrSt) : (s.modXr b f).cells = s.cells := rfl
@[simp] theorem State.modXr_banks (s : State) (b : Nat) (f : XrSt → XrSt) : (s.modXr b f).banks = s.banks := rfl
@[simp] theorem State.modXr_chans (s : State) (b : Nat) (f : XrSt → XrSt) : (s.modXr b f).chans = s.chans := rfl
@[simp] theorem State.modXr_pkg (s : State) (b : Nat) (f : XrSt → XrSt) : (s.modXr b f).pkg = s.pkg := rfl
@[simp] theorem State.modXr_belay (s : State) (b : Nat) (f : XrSt → XrSt) : (s.modXr b f).belay = s.belay := rfl
@[simp] theorem State.modXr_rcv (s : State) (b : Nat) (f : XrSt → XrSt) : (s.modXr b f).rcv = s.rcv := rfl
@[simp] theorem State.modXr_cairn (s : State) (b : Nat) (f : XrSt → XrSt) : (s.modXr b f).cairn = s.cairn := rfl
@[simp] theorem State.modXr_pair (s : State) (b : Nat) (f : XrSt → XrSt) : (s.modXr b f).pair = s.pair := rfl
@[simp] theorem State.modXr_acts (s : State) (b : Nat) (f : XrSt → XrSt) : (s.modXr b f).acts = s.acts := rfl
@[simp] theorem State.modXr_slots (s : State) (b : Nat) (f : XrSt → XrSt) : (s.modXr b f).slots = s.slots := rfl
@[simp] theorem State.modXr_kv (s : State) (b : Nat) (f : XrSt → XrSt) : (s.modXr b f).kv = s.kv := rfl
@[simp] theorem State.modXr_hub (s : State) (b : Nat) (f : XrSt → XrSt) : (s.modXr b f).hub = s.hub := rfl
@[simp] theorem State.modXr_host (s : State) (b : Nat) (f : XrSt → XrSt) : (s.modXr b f).host = s.host := rfl
@[simp] theorem State.modXr_rope (s : State) (b : Nat) (f : XrSt → XrSt) : (s.modXr b f).rope = s.rope := rfl
@[simp] theorem State.modXr_maps (s : State) (b : Nat) (f : XrSt → XrSt) : (s.modXr b f).maps = s.maps := rfl
@[simp] theorem State.modXr_seq (s : State) (b : Nat) (f : XrSt → XrSt) : (s.modXr b f).seq = s.seq := rfl
@[simp] theorem State.modXr_power (s : State) (b : Nat) (f : XrSt → XrSt) : (s.modXr b f).power = s.power := rfl
@[simp] theorem State.modXr_therm (s : State) (b : Nat) (f : XrSt → XrSt) : (s.modXr b f).therm = s.therm := rfl
@[simp] theorem State.modXr_clock (s : State) (b : Nat) (f : XrSt → XrSt) : (s.modXr b f).clock = s.clock := rfl
@[simp] theorem State.modXr_dor (s : State) (b : Nat) (f : XrSt → XrSt) : (s.modXr b f).dor = s.dor := rfl
@[simp] theorem State.modXr_tel (s : State) (b : Nat) (f : XrSt → XrSt) : (s.modXr b f).tel = s.tel := rfl
@[simp] theorem State.modXr_pins (s : State) (b : Nat) (f : XrSt → XrSt) : (s.modXr b f).pins = s.pins := rfl
@[simp] theorem State.modXr_castGen (s : State) (b : Nat) (f : XrSt → XrSt) : (s.modXr b f).castGen = s.castGen := rfl
@[simp] theorem State.modXr_castTab (s : State) (b : Nat) (f : XrSt → XrSt) : (s.modXr b f).castTab = s.castTab := rfl
@[simp] theorem State.modXr_distGen (s : State) (b : Nat) (f : XrSt → XrSt) : (s.modXr b f).distGen = s.distGen := rfl
@[simp] theorem State.modXr_dist (s : State) (b : Nat) (f : XrSt → XrSt) : (s.modXr b f).dist = s.dist := rfl

/-! `modWire` changes `mesh` only. -/
@[simp] theorem State.modWire_pending (s : State) (k : Nat) (f : WireSt → WireSt) : (s.modWire k f).pending = s.pending := rfl
@[simp] theorem State.modWire_now (s : State) (k : Nat) (f : WireSt → WireSt) : (s.modWire k f).now = s.now := rfl
@[simp] theorem State.modWire_freeIdx (s : State) (k : Nat) (f : WireSt → WireSt) : (s.modWire k f).freeIdx = s.freeIdx := rfl
@[simp] theorem State.modWire_out (s : State) (k : Nat) (f : WireSt → WireSt) : (s.modWire k f).out = s.out := rfl
@[simp] theorem State.modWire_regs (s : State) (k : Nat) (f : WireSt → WireSt) : (s.modWire k f).regs = s.regs := rfl
@[simp] theorem State.modWire_mem (s : State) (k : Nat) (f : WireSt → WireSt) : (s.modWire k f).mem = s.mem := rfl
@[simp] theorem State.modWire_cells (s : State) (k : Nat) (f : WireSt → WireSt) : (s.modWire k f).cells = s.cells := rfl
@[simp] theorem State.modWire_banks (s : State) (k : Nat) (f : WireSt → WireSt) : (s.modWire k f).banks = s.banks := rfl
@[simp] theorem State.modWire_chans (s : State) (k : Nat) (f : WireSt → WireSt) : (s.modWire k f).chans = s.chans := rfl
@[simp] theorem State.modWire_pkg (s : State) (k : Nat) (f : WireSt → WireSt) : (s.modWire k f).pkg = s.pkg := rfl
@[simp] theorem State.modWire_belay (s : State) (k : Nat) (f : WireSt → WireSt) : (s.modWire k f).belay = s.belay := rfl
@[simp] theorem State.modWire_rcv (s : State) (k : Nat) (f : WireSt → WireSt) : (s.modWire k f).rcv = s.rcv := rfl
@[simp] theorem State.modWire_cairn (s : State) (k : Nat) (f : WireSt → WireSt) : (s.modWire k f).cairn = s.cairn := rfl
@[simp] theorem State.modWire_pair (s : State) (k : Nat) (f : WireSt → WireSt) : (s.modWire k f).pair = s.pair := rfl
@[simp] theorem State.modWire_acts (s : State) (k : Nat) (f : WireSt → WireSt) : (s.modWire k f).acts = s.acts := rfl
@[simp] theorem State.modWire_slots (s : State) (k : Nat) (f : WireSt → WireSt) : (s.modWire k f).slots = s.slots := rfl
@[simp] theorem State.modWire_kv (s : State) (k : Nat) (f : WireSt → WireSt) : (s.modWire k f).kv = s.kv := rfl
@[simp] theorem State.modWire_hub (s : State) (k : Nat) (f : WireSt → WireSt) : (s.modWire k f).hub = s.hub := rfl
@[simp] theorem State.modWire_host (s : State) (k : Nat) (f : WireSt → WireSt) : (s.modWire k f).host = s.host := rfl
@[simp] theorem State.modWire_rope (s : State) (k : Nat) (f : WireSt → WireSt) : (s.modWire k f).rope = s.rope := rfl
@[simp] theorem State.modWire_maps (s : State) (k : Nat) (f : WireSt → WireSt) : (s.modWire k f).maps = s.maps := rfl
@[simp] theorem State.modWire_seq (s : State) (k : Nat) (f : WireSt → WireSt) : (s.modWire k f).seq = s.seq := rfl
@[simp] theorem State.modWire_power (s : State) (k : Nat) (f : WireSt → WireSt) : (s.modWire k f).power = s.power := rfl
@[simp] theorem State.modWire_therm (s : State) (k : Nat) (f : WireSt → WireSt) : (s.modWire k f).therm = s.therm := rfl
@[simp] theorem State.modWire_clock (s : State) (k : Nat) (f : WireSt → WireSt) : (s.modWire k f).clock = s.clock := rfl
@[simp] theorem State.modWire_dor (s : State) (k : Nat) (f : WireSt → WireSt) : (s.modWire k f).dor = s.dor := rfl
@[simp] theorem State.modWire_tel (s : State) (k : Nat) (f : WireSt → WireSt) : (s.modWire k f).tel = s.tel := rfl
@[simp] theorem State.modWire_pins (s : State) (k : Nat) (f : WireSt → WireSt) : (s.modWire k f).pins = s.pins := rfl
@[simp] theorem State.modWire_castGen (s : State) (k : Nat) (f : WireSt → WireSt) : (s.modWire k f).castGen = s.castGen := rfl
@[simp] theorem State.modWire_castTab (s : State) (k : Nat) (f : WireSt → WireSt) : (s.modWire k f).castTab = s.castTab := rfl
@[simp] theorem State.modWire_distGen (s : State) (k : Nat) (f : WireSt → WireSt) : (s.modWire k f).distGen = s.distGen := rfl
@[simp] theorem State.modWire_dist (s : State) (k : Nat) (f : WireSt → WireSt) : (s.modWire k f).dist = s.dist := rfl

/-! `modTp` changes `mesh` only. -/
@[simp] theorem State.modTp_pending (s : State) (b : Nat) (toHub : Bool) (f : TpSt → TpSt) : (s.modTp b toHub f).pending = s.pending := rfl
@[simp] theorem State.modTp_now (s : State) (b : Nat) (toHub : Bool) (f : TpSt → TpSt) : (s.modTp b toHub f).now = s.now := rfl
@[simp] theorem State.modTp_freeIdx (s : State) (b : Nat) (toHub : Bool) (f : TpSt → TpSt) : (s.modTp b toHub f).freeIdx = s.freeIdx := rfl
@[simp] theorem State.modTp_out (s : State) (b : Nat) (toHub : Bool) (f : TpSt → TpSt) : (s.modTp b toHub f).out = s.out := rfl
@[simp] theorem State.modTp_regs (s : State) (b : Nat) (toHub : Bool) (f : TpSt → TpSt) : (s.modTp b toHub f).regs = s.regs := rfl
@[simp] theorem State.modTp_mem (s : State) (b : Nat) (toHub : Bool) (f : TpSt → TpSt) : (s.modTp b toHub f).mem = s.mem := rfl
@[simp] theorem State.modTp_cells (s : State) (b : Nat) (toHub : Bool) (f : TpSt → TpSt) : (s.modTp b toHub f).cells = s.cells := rfl
@[simp] theorem State.modTp_banks (s : State) (b : Nat) (toHub : Bool) (f : TpSt → TpSt) : (s.modTp b toHub f).banks = s.banks := rfl
@[simp] theorem State.modTp_chans (s : State) (b : Nat) (toHub : Bool) (f : TpSt → TpSt) : (s.modTp b toHub f).chans = s.chans := rfl
@[simp] theorem State.modTp_pkg (s : State) (b : Nat) (toHub : Bool) (f : TpSt → TpSt) : (s.modTp b toHub f).pkg = s.pkg := rfl
@[simp] theorem State.modTp_belay (s : State) (b : Nat) (toHub : Bool) (f : TpSt → TpSt) : (s.modTp b toHub f).belay = s.belay := rfl
@[simp] theorem State.modTp_rcv (s : State) (b : Nat) (toHub : Bool) (f : TpSt → TpSt) : (s.modTp b toHub f).rcv = s.rcv := rfl
@[simp] theorem State.modTp_cairn (s : State) (b : Nat) (toHub : Bool) (f : TpSt → TpSt) : (s.modTp b toHub f).cairn = s.cairn := rfl
@[simp] theorem State.modTp_pair (s : State) (b : Nat) (toHub : Bool) (f : TpSt → TpSt) : (s.modTp b toHub f).pair = s.pair := rfl
@[simp] theorem State.modTp_acts (s : State) (b : Nat) (toHub : Bool) (f : TpSt → TpSt) : (s.modTp b toHub f).acts = s.acts := rfl
@[simp] theorem State.modTp_slots (s : State) (b : Nat) (toHub : Bool) (f : TpSt → TpSt) : (s.modTp b toHub f).slots = s.slots := rfl
@[simp] theorem State.modTp_kv (s : State) (b : Nat) (toHub : Bool) (f : TpSt → TpSt) : (s.modTp b toHub f).kv = s.kv := rfl
@[simp] theorem State.modTp_hub (s : State) (b : Nat) (toHub : Bool) (f : TpSt → TpSt) : (s.modTp b toHub f).hub = s.hub := rfl
@[simp] theorem State.modTp_host (s : State) (b : Nat) (toHub : Bool) (f : TpSt → TpSt) : (s.modTp b toHub f).host = s.host := rfl
@[simp] theorem State.modTp_rope (s : State) (b : Nat) (toHub : Bool) (f : TpSt → TpSt) : (s.modTp b toHub f).rope = s.rope := rfl
@[simp] theorem State.modTp_maps (s : State) (b : Nat) (toHub : Bool) (f : TpSt → TpSt) : (s.modTp b toHub f).maps = s.maps := rfl
@[simp] theorem State.modTp_seq (s : State) (b : Nat) (toHub : Bool) (f : TpSt → TpSt) : (s.modTp b toHub f).seq = s.seq := rfl
@[simp] theorem State.modTp_power (s : State) (b : Nat) (toHub : Bool) (f : TpSt → TpSt) : (s.modTp b toHub f).power = s.power := rfl
@[simp] theorem State.modTp_therm (s : State) (b : Nat) (toHub : Bool) (f : TpSt → TpSt) : (s.modTp b toHub f).therm = s.therm := rfl
@[simp] theorem State.modTp_clock (s : State) (b : Nat) (toHub : Bool) (f : TpSt → TpSt) : (s.modTp b toHub f).clock = s.clock := rfl
@[simp] theorem State.modTp_dor (s : State) (b : Nat) (toHub : Bool) (f : TpSt → TpSt) : (s.modTp b toHub f).dor = s.dor := rfl
@[simp] theorem State.modTp_tel (s : State) (b : Nat) (toHub : Bool) (f : TpSt → TpSt) : (s.modTp b toHub f).tel = s.tel := rfl
@[simp] theorem State.modTp_pins (s : State) (b : Nat) (toHub : Bool) (f : TpSt → TpSt) : (s.modTp b toHub f).pins = s.pins := rfl
@[simp] theorem State.modTp_castGen (s : State) (b : Nat) (toHub : Bool) (f : TpSt → TpSt) : (s.modTp b toHub f).castGen = s.castGen := rfl
@[simp] theorem State.modTp_castTab (s : State) (b : Nat) (toHub : Bool) (f : TpSt → TpSt) : (s.modTp b toHub f).castTab = s.castTab := rfl
@[simp] theorem State.modTp_distGen (s : State) (b : Nat) (toHub : Bool) (f : TpSt → TpSt) : (s.modTp b toHub f).distGen = s.distGen := rfl
@[simp] theorem State.modTp_dist (s : State) (b : Nat) (toHub : Bool) (f : TpSt → TpSt) : (s.modTp b toHub f).dist = s.dist := rfl

/-! `modBank` changes `banks` only. -/
@[simp] theorem State.modBank_pending (s : State) (c k : Nat) (f : BankSt → BankSt) : (s.modBank c k f).pending = s.pending := rfl
@[simp] theorem State.modBank_now (s : State) (c k : Nat) (f : BankSt → BankSt) : (s.modBank c k f).now = s.now := rfl
@[simp] theorem State.modBank_freeIdx (s : State) (c k : Nat) (f : BankSt → BankSt) : (s.modBank c k f).freeIdx = s.freeIdx := rfl
@[simp] theorem State.modBank_out (s : State) (c k : Nat) (f : BankSt → BankSt) : (s.modBank c k f).out = s.out := rfl
@[simp] theorem State.modBank_regs (s : State) (c k : Nat) (f : BankSt → BankSt) : (s.modBank c k f).regs = s.regs := rfl
@[simp] theorem State.modBank_mem (s : State) (c k : Nat) (f : BankSt → BankSt) : (s.modBank c k f).mem = s.mem := rfl
@[simp] theorem State.modBank_cells (s : State) (c k : Nat) (f : BankSt → BankSt) : (s.modBank c k f).cells = s.cells := rfl
@[simp] theorem State.modBank_mesh (s : State) (c k : Nat) (f : BankSt → BankSt) : (s.modBank c k f).mesh = s.mesh := rfl
@[simp] theorem State.modBank_chans (s : State) (c k : Nat) (f : BankSt → BankSt) : (s.modBank c k f).chans = s.chans := rfl
@[simp] theorem State.modBank_pkg (s : State) (c k : Nat) (f : BankSt → BankSt) : (s.modBank c k f).pkg = s.pkg := rfl
@[simp] theorem State.modBank_belay (s : State) (c k : Nat) (f : BankSt → BankSt) : (s.modBank c k f).belay = s.belay := rfl
@[simp] theorem State.modBank_rcv (s : State) (c k : Nat) (f : BankSt → BankSt) : (s.modBank c k f).rcv = s.rcv := rfl
@[simp] theorem State.modBank_cairn (s : State) (c k : Nat) (f : BankSt → BankSt) : (s.modBank c k f).cairn = s.cairn := rfl
@[simp] theorem State.modBank_pair (s : State) (c k : Nat) (f : BankSt → BankSt) : (s.modBank c k f).pair = s.pair := rfl
@[simp] theorem State.modBank_acts (s : State) (c k : Nat) (f : BankSt → BankSt) : (s.modBank c k f).acts = s.acts := rfl
@[simp] theorem State.modBank_slots (s : State) (c k : Nat) (f : BankSt → BankSt) : (s.modBank c k f).slots = s.slots := rfl
@[simp] theorem State.modBank_kv (s : State) (c k : Nat) (f : BankSt → BankSt) : (s.modBank c k f).kv = s.kv := rfl
@[simp] theorem State.modBank_hub (s : State) (c k : Nat) (f : BankSt → BankSt) : (s.modBank c k f).hub = s.hub := rfl
@[simp] theorem State.modBank_host (s : State) (c k : Nat) (f : BankSt → BankSt) : (s.modBank c k f).host = s.host := rfl
@[simp] theorem State.modBank_rope (s : State) (c k : Nat) (f : BankSt → BankSt) : (s.modBank c k f).rope = s.rope := rfl
@[simp] theorem State.modBank_maps (s : State) (c k : Nat) (f : BankSt → BankSt) : (s.modBank c k f).maps = s.maps := rfl
@[simp] theorem State.modBank_seq (s : State) (c k : Nat) (f : BankSt → BankSt) : (s.modBank c k f).seq = s.seq := rfl
@[simp] theorem State.modBank_power (s : State) (c k : Nat) (f : BankSt → BankSt) : (s.modBank c k f).power = s.power := rfl
@[simp] theorem State.modBank_therm (s : State) (c k : Nat) (f : BankSt → BankSt) : (s.modBank c k f).therm = s.therm := rfl
@[simp] theorem State.modBank_clock (s : State) (c k : Nat) (f : BankSt → BankSt) : (s.modBank c k f).clock = s.clock := rfl
@[simp] theorem State.modBank_dor (s : State) (c k : Nat) (f : BankSt → BankSt) : (s.modBank c k f).dor = s.dor := rfl
@[simp] theorem State.modBank_tel (s : State) (c k : Nat) (f : BankSt → BankSt) : (s.modBank c k f).tel = s.tel := rfl
@[simp] theorem State.modBank_pins (s : State) (c k : Nat) (f : BankSt → BankSt) : (s.modBank c k f).pins = s.pins := rfl
@[simp] theorem State.modBank_castGen (s : State) (c k : Nat) (f : BankSt → BankSt) : (s.modBank c k f).castGen = s.castGen := rfl
@[simp] theorem State.modBank_castTab (s : State) (c k : Nat) (f : BankSt → BankSt) : (s.modBank c k f).castTab = s.castTab := rfl
@[simp] theorem State.modBank_distGen (s : State) (c k : Nat) (f : BankSt → BankSt) : (s.modBank c k f).distGen = s.distGen := rfl
@[simp] theorem State.modBank_dist (s : State) (c k : Nat) (f : BankSt → BankSt) : (s.modBank c k f).dist = s.dist := rfl

/-! `modChan` changes `chans` only. -/
@[simp] theorem State.modChan_pending (s : State) (i : Nat) (f : ChanSt → ChanSt) : (s.modChan i f).pending = s.pending := rfl
@[simp] theorem State.modChan_now (s : State) (i : Nat) (f : ChanSt → ChanSt) : (s.modChan i f).now = s.now := rfl
@[simp] theorem State.modChan_freeIdx (s : State) (i : Nat) (f : ChanSt → ChanSt) : (s.modChan i f).freeIdx = s.freeIdx := rfl
@[simp] theorem State.modChan_out (s : State) (i : Nat) (f : ChanSt → ChanSt) : (s.modChan i f).out = s.out := rfl
@[simp] theorem State.modChan_regs (s : State) (i : Nat) (f : ChanSt → ChanSt) : (s.modChan i f).regs = s.regs := rfl
@[simp] theorem State.modChan_mem (s : State) (i : Nat) (f : ChanSt → ChanSt) : (s.modChan i f).mem = s.mem := rfl
@[simp] theorem State.modChan_cells (s : State) (i : Nat) (f : ChanSt → ChanSt) : (s.modChan i f).cells = s.cells := rfl
@[simp] theorem State.modChan_banks (s : State) (i : Nat) (f : ChanSt → ChanSt) : (s.modChan i f).banks = s.banks := rfl
@[simp] theorem State.modChan_mesh (s : State) (i : Nat) (f : ChanSt → ChanSt) : (s.modChan i f).mesh = s.mesh := rfl
@[simp] theorem State.modChan_pkg (s : State) (i : Nat) (f : ChanSt → ChanSt) : (s.modChan i f).pkg = s.pkg := rfl
@[simp] theorem State.modChan_belay (s : State) (i : Nat) (f : ChanSt → ChanSt) : (s.modChan i f).belay = s.belay := rfl
@[simp] theorem State.modChan_rcv (s : State) (i : Nat) (f : ChanSt → ChanSt) : (s.modChan i f).rcv = s.rcv := rfl
@[simp] theorem State.modChan_cairn (s : State) (i : Nat) (f : ChanSt → ChanSt) : (s.modChan i f).cairn = s.cairn := rfl
@[simp] theorem State.modChan_pair (s : State) (i : Nat) (f : ChanSt → ChanSt) : (s.modChan i f).pair = s.pair := rfl
@[simp] theorem State.modChan_acts (s : State) (i : Nat) (f : ChanSt → ChanSt) : (s.modChan i f).acts = s.acts := rfl
@[simp] theorem State.modChan_slots (s : State) (i : Nat) (f : ChanSt → ChanSt) : (s.modChan i f).slots = s.slots := rfl
@[simp] theorem State.modChan_kv (s : State) (i : Nat) (f : ChanSt → ChanSt) : (s.modChan i f).kv = s.kv := rfl
@[simp] theorem State.modChan_hub (s : State) (i : Nat) (f : ChanSt → ChanSt) : (s.modChan i f).hub = s.hub := rfl
@[simp] theorem State.modChan_host (s : State) (i : Nat) (f : ChanSt → ChanSt) : (s.modChan i f).host = s.host := rfl
@[simp] theorem State.modChan_rope (s : State) (i : Nat) (f : ChanSt → ChanSt) : (s.modChan i f).rope = s.rope := rfl
@[simp] theorem State.modChan_maps (s : State) (i : Nat) (f : ChanSt → ChanSt) : (s.modChan i f).maps = s.maps := rfl
@[simp] theorem State.modChan_seq (s : State) (i : Nat) (f : ChanSt → ChanSt) : (s.modChan i f).seq = s.seq := rfl
@[simp] theorem State.modChan_power (s : State) (i : Nat) (f : ChanSt → ChanSt) : (s.modChan i f).power = s.power := rfl
@[simp] theorem State.modChan_therm (s : State) (i : Nat) (f : ChanSt → ChanSt) : (s.modChan i f).therm = s.therm := rfl
@[simp] theorem State.modChan_clock (s : State) (i : Nat) (f : ChanSt → ChanSt) : (s.modChan i f).clock = s.clock := rfl
@[simp] theorem State.modChan_dor (s : State) (i : Nat) (f : ChanSt → ChanSt) : (s.modChan i f).dor = s.dor := rfl
@[simp] theorem State.modChan_tel (s : State) (i : Nat) (f : ChanSt → ChanSt) : (s.modChan i f).tel = s.tel := rfl
@[simp] theorem State.modChan_pins (s : State) (i : Nat) (f : ChanSt → ChanSt) : (s.modChan i f).pins = s.pins := rfl
@[simp] theorem State.modChan_castGen (s : State) (i : Nat) (f : ChanSt → ChanSt) : (s.modChan i f).castGen = s.castGen := rfl
@[simp] theorem State.modChan_castTab (s : State) (i : Nat) (f : ChanSt → ChanSt) : (s.modChan i f).castTab = s.castTab := rfl
@[simp] theorem State.modChan_distGen (s : State) (i : Nat) (f : ChanSt → ChanSt) : (s.modChan i f).distGen = s.distGen := rfl
@[simp] theorem State.modChan_dist (s : State) (i : Nat) (f : ChanSt → ChanSt) : (s.modChan i f).dist = s.dist := rfl

/-! `modSlot` changes `slots` only. -/
@[simp] theorem State.modSlot_pending (s : State) (n : Nat) (f : SlotSt → SlotSt) : (s.modSlot n f).pending = s.pending := rfl
@[simp] theorem State.modSlot_now (s : State) (n : Nat) (f : SlotSt → SlotSt) : (s.modSlot n f).now = s.now := rfl
@[simp] theorem State.modSlot_freeIdx (s : State) (n : Nat) (f : SlotSt → SlotSt) : (s.modSlot n f).freeIdx = s.freeIdx := rfl
@[simp] theorem State.modSlot_out (s : State) (n : Nat) (f : SlotSt → SlotSt) : (s.modSlot n f).out = s.out := rfl
@[simp] theorem State.modSlot_regs (s : State) (n : Nat) (f : SlotSt → SlotSt) : (s.modSlot n f).regs = s.regs := rfl
@[simp] theorem State.modSlot_mem (s : State) (n : Nat) (f : SlotSt → SlotSt) : (s.modSlot n f).mem = s.mem := rfl
@[simp] theorem State.modSlot_cells (s : State) (n : Nat) (f : SlotSt → SlotSt) : (s.modSlot n f).cells = s.cells := rfl
@[simp] theorem State.modSlot_banks (s : State) (n : Nat) (f : SlotSt → SlotSt) : (s.modSlot n f).banks = s.banks := rfl
@[simp] theorem State.modSlot_mesh (s : State) (n : Nat) (f : SlotSt → SlotSt) : (s.modSlot n f).mesh = s.mesh := rfl
@[simp] theorem State.modSlot_chans (s : State) (n : Nat) (f : SlotSt → SlotSt) : (s.modSlot n f).chans = s.chans := rfl
@[simp] theorem State.modSlot_pkg (s : State) (n : Nat) (f : SlotSt → SlotSt) : (s.modSlot n f).pkg = s.pkg := rfl
@[simp] theorem State.modSlot_belay (s : State) (n : Nat) (f : SlotSt → SlotSt) : (s.modSlot n f).belay = s.belay := rfl
@[simp] theorem State.modSlot_rcv (s : State) (n : Nat) (f : SlotSt → SlotSt) : (s.modSlot n f).rcv = s.rcv := rfl
@[simp] theorem State.modSlot_cairn (s : State) (n : Nat) (f : SlotSt → SlotSt) : (s.modSlot n f).cairn = s.cairn := rfl
@[simp] theorem State.modSlot_pair (s : State) (n : Nat) (f : SlotSt → SlotSt) : (s.modSlot n f).pair = s.pair := rfl
@[simp] theorem State.modSlot_acts (s : State) (n : Nat) (f : SlotSt → SlotSt) : (s.modSlot n f).acts = s.acts := rfl
@[simp] theorem State.modSlot_kv (s : State) (n : Nat) (f : SlotSt → SlotSt) : (s.modSlot n f).kv = s.kv := rfl
@[simp] theorem State.modSlot_hub (s : State) (n : Nat) (f : SlotSt → SlotSt) : (s.modSlot n f).hub = s.hub := rfl
@[simp] theorem State.modSlot_host (s : State) (n : Nat) (f : SlotSt → SlotSt) : (s.modSlot n f).host = s.host := rfl
@[simp] theorem State.modSlot_rope (s : State) (n : Nat) (f : SlotSt → SlotSt) : (s.modSlot n f).rope = s.rope := rfl
@[simp] theorem State.modSlot_maps (s : State) (n : Nat) (f : SlotSt → SlotSt) : (s.modSlot n f).maps = s.maps := rfl
@[simp] theorem State.modSlot_seq (s : State) (n : Nat) (f : SlotSt → SlotSt) : (s.modSlot n f).seq = s.seq := rfl
@[simp] theorem State.modSlot_power (s : State) (n : Nat) (f : SlotSt → SlotSt) : (s.modSlot n f).power = s.power := rfl
@[simp] theorem State.modSlot_therm (s : State) (n : Nat) (f : SlotSt → SlotSt) : (s.modSlot n f).therm = s.therm := rfl
@[simp] theorem State.modSlot_clock (s : State) (n : Nat) (f : SlotSt → SlotSt) : (s.modSlot n f).clock = s.clock := rfl
@[simp] theorem State.modSlot_dor (s : State) (n : Nat) (f : SlotSt → SlotSt) : (s.modSlot n f).dor = s.dor := rfl
@[simp] theorem State.modSlot_tel (s : State) (n : Nat) (f : SlotSt → SlotSt) : (s.modSlot n f).tel = s.tel := rfl
@[simp] theorem State.modSlot_pins (s : State) (n : Nat) (f : SlotSt → SlotSt) : (s.modSlot n f).pins = s.pins := rfl
@[simp] theorem State.modSlot_castGen (s : State) (n : Nat) (f : SlotSt → SlotSt) : (s.modSlot n f).castGen = s.castGen := rfl
@[simp] theorem State.modSlot_castTab (s : State) (n : Nat) (f : SlotSt → SlotSt) : (s.modSlot n f).castTab = s.castTab := rfl
@[simp] theorem State.modSlot_distGen (s : State) (n : Nat) (f : SlotSt → SlotSt) : (s.modSlot n f).distGen = s.distGen := rfl
@[simp] theorem State.modSlot_dist (s : State) (n : Nat) (f : SlotSt → SlotSt) : (s.modSlot n f).dist = s.dist := rfl

/-! `modKv` changes `kv` only. -/
@[simp] theorem State.modKv_pending (s : State) (f : KvSt → KvSt) : (s.modKv f).pending = s.pending := rfl
@[simp] theorem State.modKv_now (s : State) (f : KvSt → KvSt) : (s.modKv f).now = s.now := rfl
@[simp] theorem State.modKv_freeIdx (s : State) (f : KvSt → KvSt) : (s.modKv f).freeIdx = s.freeIdx := rfl
@[simp] theorem State.modKv_out (s : State) (f : KvSt → KvSt) : (s.modKv f).out = s.out := rfl
@[simp] theorem State.modKv_regs (s : State) (f : KvSt → KvSt) : (s.modKv f).regs = s.regs := rfl
@[simp] theorem State.modKv_mem (s : State) (f : KvSt → KvSt) : (s.modKv f).mem = s.mem := rfl
@[simp] theorem State.modKv_cells (s : State) (f : KvSt → KvSt) : (s.modKv f).cells = s.cells := rfl
@[simp] theorem State.modKv_banks (s : State) (f : KvSt → KvSt) : (s.modKv f).banks = s.banks := rfl
@[simp] theorem State.modKv_mesh (s : State) (f : KvSt → KvSt) : (s.modKv f).mesh = s.mesh := rfl
@[simp] theorem State.modKv_chans (s : State) (f : KvSt → KvSt) : (s.modKv f).chans = s.chans := rfl
@[simp] theorem State.modKv_pkg (s : State) (f : KvSt → KvSt) : (s.modKv f).pkg = s.pkg := rfl
@[simp] theorem State.modKv_belay (s : State) (f : KvSt → KvSt) : (s.modKv f).belay = s.belay := rfl
@[simp] theorem State.modKv_rcv (s : State) (f : KvSt → KvSt) : (s.modKv f).rcv = s.rcv := rfl
@[simp] theorem State.modKv_cairn (s : State) (f : KvSt → KvSt) : (s.modKv f).cairn = s.cairn := rfl
@[simp] theorem State.modKv_pair (s : State) (f : KvSt → KvSt) : (s.modKv f).pair = s.pair := rfl
@[simp] theorem State.modKv_acts (s : State) (f : KvSt → KvSt) : (s.modKv f).acts = s.acts := rfl
@[simp] theorem State.modKv_slots (s : State) (f : KvSt → KvSt) : (s.modKv f).slots = s.slots := rfl
@[simp] theorem State.modKv_kv (s : State) (f : KvSt → KvSt) : (s.modKv f).kv = f s.kv := rfl
@[simp] theorem State.modKv_hub (s : State) (f : KvSt → KvSt) : (s.modKv f).hub = s.hub := rfl
@[simp] theorem State.modKv_host (s : State) (f : KvSt → KvSt) : (s.modKv f).host = s.host := rfl
@[simp] theorem State.modKv_rope (s : State) (f : KvSt → KvSt) : (s.modKv f).rope = s.rope := rfl
@[simp] theorem State.modKv_maps (s : State) (f : KvSt → KvSt) : (s.modKv f).maps = s.maps := rfl
@[simp] theorem State.modKv_seq (s : State) (f : KvSt → KvSt) : (s.modKv f).seq = s.seq := rfl
@[simp] theorem State.modKv_power (s : State) (f : KvSt → KvSt) : (s.modKv f).power = s.power := rfl
@[simp] theorem State.modKv_therm (s : State) (f : KvSt → KvSt) : (s.modKv f).therm = s.therm := rfl
@[simp] theorem State.modKv_clock (s : State) (f : KvSt → KvSt) : (s.modKv f).clock = s.clock := rfl
@[simp] theorem State.modKv_dor (s : State) (f : KvSt → KvSt) : (s.modKv f).dor = s.dor := rfl
@[simp] theorem State.modKv_tel (s : State) (f : KvSt → KvSt) : (s.modKv f).tel = s.tel := rfl
@[simp] theorem State.modKv_pins (s : State) (f : KvSt → KvSt) : (s.modKv f).pins = s.pins := rfl
@[simp] theorem State.modKv_castGen (s : State) (f : KvSt → KvSt) : (s.modKv f).castGen = s.castGen := rfl
@[simp] theorem State.modKv_castTab (s : State) (f : KvSt → KvSt) : (s.modKv f).castTab = s.castTab := rfl
@[simp] theorem State.modKv_distGen (s : State) (f : KvSt → KvSt) : (s.modKv f).distGen = s.distGen := rfl
@[simp] theorem State.modKv_dist (s : State) (f : KvSt → KvSt) : (s.modKv f).dist = s.dist := rfl

/-! `modActs` changes `acts` only. -/
@[simp] theorem State.modActs_pending (s : State) (f : ActsSt → ActsSt) : (s.modActs f).pending = s.pending := rfl
@[simp] theorem State.modActs_now (s : State) (f : ActsSt → ActsSt) : (s.modActs f).now = s.now := rfl
@[simp] theorem State.modActs_freeIdx (s : State) (f : ActsSt → ActsSt) : (s.modActs f).freeIdx = s.freeIdx := rfl
@[simp] theorem State.modActs_out (s : State) (f : ActsSt → ActsSt) : (s.modActs f).out = s.out := rfl
@[simp] theorem State.modActs_regs (s : State) (f : ActsSt → ActsSt) : (s.modActs f).regs = s.regs := rfl
@[simp] theorem State.modActs_mem (s : State) (f : ActsSt → ActsSt) : (s.modActs f).mem = s.mem := rfl
@[simp] theorem State.modActs_cells (s : State) (f : ActsSt → ActsSt) : (s.modActs f).cells = s.cells := rfl
@[simp] theorem State.modActs_banks (s : State) (f : ActsSt → ActsSt) : (s.modActs f).banks = s.banks := rfl
@[simp] theorem State.modActs_mesh (s : State) (f : ActsSt → ActsSt) : (s.modActs f).mesh = s.mesh := rfl
@[simp] theorem State.modActs_chans (s : State) (f : ActsSt → ActsSt) : (s.modActs f).chans = s.chans := rfl
@[simp] theorem State.modActs_pkg (s : State) (f : ActsSt → ActsSt) : (s.modActs f).pkg = s.pkg := rfl
@[simp] theorem State.modActs_belay (s : State) (f : ActsSt → ActsSt) : (s.modActs f).belay = s.belay := rfl
@[simp] theorem State.modActs_rcv (s : State) (f : ActsSt → ActsSt) : (s.modActs f).rcv = s.rcv := rfl
@[simp] theorem State.modActs_cairn (s : State) (f : ActsSt → ActsSt) : (s.modActs f).cairn = s.cairn := rfl
@[simp] theorem State.modActs_pair (s : State) (f : ActsSt → ActsSt) : (s.modActs f).pair = s.pair := rfl
@[simp] theorem State.modActs_acts (s : State) (f : ActsSt → ActsSt) : (s.modActs f).acts = f s.acts := rfl
@[simp] theorem State.modActs_slots (s : State) (f : ActsSt → ActsSt) : (s.modActs f).slots = s.slots := rfl
@[simp] theorem State.modActs_kv (s : State) (f : ActsSt → ActsSt) : (s.modActs f).kv = s.kv := rfl
@[simp] theorem State.modActs_hub (s : State) (f : ActsSt → ActsSt) : (s.modActs f).hub = s.hub := rfl
@[simp] theorem State.modActs_host (s : State) (f : ActsSt → ActsSt) : (s.modActs f).host = s.host := rfl
@[simp] theorem State.modActs_rope (s : State) (f : ActsSt → ActsSt) : (s.modActs f).rope = s.rope := rfl
@[simp] theorem State.modActs_maps (s : State) (f : ActsSt → ActsSt) : (s.modActs f).maps = s.maps := rfl
@[simp] theorem State.modActs_seq (s : State) (f : ActsSt → ActsSt) : (s.modActs f).seq = s.seq := rfl
@[simp] theorem State.modActs_power (s : State) (f : ActsSt → ActsSt) : (s.modActs f).power = s.power := rfl
@[simp] theorem State.modActs_therm (s : State) (f : ActsSt → ActsSt) : (s.modActs f).therm = s.therm := rfl
@[simp] theorem State.modActs_clock (s : State) (f : ActsSt → ActsSt) : (s.modActs f).clock = s.clock := rfl
@[simp] theorem State.modActs_dor (s : State) (f : ActsSt → ActsSt) : (s.modActs f).dor = s.dor := rfl
@[simp] theorem State.modActs_tel (s : State) (f : ActsSt → ActsSt) : (s.modActs f).tel = s.tel := rfl
@[simp] theorem State.modActs_pins (s : State) (f : ActsSt → ActsSt) : (s.modActs f).pins = s.pins := rfl
@[simp] theorem State.modActs_castGen (s : State) (f : ActsSt → ActsSt) : (s.modActs f).castGen = s.castGen := rfl
@[simp] theorem State.modActs_castTab (s : State) (f : ActsSt → ActsSt) : (s.modActs f).castTab = s.castTab := rfl
@[simp] theorem State.modActs_distGen (s : State) (f : ActsSt → ActsSt) : (s.modActs f).distGen = s.distGen := rfl
@[simp] theorem State.modActs_dist (s : State) (f : ActsSt → ActsSt) : (s.modActs f).dist = s.dist := rfl

/-! `modSeq` changes `seq` only. -/
@[simp] theorem State.modSeq_pending (s : State) (f : SeqSt → SeqSt) : (s.modSeq f).pending = s.pending := rfl
@[simp] theorem State.modSeq_now (s : State) (f : SeqSt → SeqSt) : (s.modSeq f).now = s.now := rfl
@[simp] theorem State.modSeq_freeIdx (s : State) (f : SeqSt → SeqSt) : (s.modSeq f).freeIdx = s.freeIdx := rfl
@[simp] theorem State.modSeq_out (s : State) (f : SeqSt → SeqSt) : (s.modSeq f).out = s.out := rfl
@[simp] theorem State.modSeq_regs (s : State) (f : SeqSt → SeqSt) : (s.modSeq f).regs = s.regs := rfl
@[simp] theorem State.modSeq_mem (s : State) (f : SeqSt → SeqSt) : (s.modSeq f).mem = s.mem := rfl
@[simp] theorem State.modSeq_cells (s : State) (f : SeqSt → SeqSt) : (s.modSeq f).cells = s.cells := rfl
@[simp] theorem State.modSeq_banks (s : State) (f : SeqSt → SeqSt) : (s.modSeq f).banks = s.banks := rfl
@[simp] theorem State.modSeq_mesh (s : State) (f : SeqSt → SeqSt) : (s.modSeq f).mesh = s.mesh := rfl
@[simp] theorem State.modSeq_chans (s : State) (f : SeqSt → SeqSt) : (s.modSeq f).chans = s.chans := rfl
@[simp] theorem State.modSeq_pkg (s : State) (f : SeqSt → SeqSt) : (s.modSeq f).pkg = s.pkg := rfl
@[simp] theorem State.modSeq_belay (s : State) (f : SeqSt → SeqSt) : (s.modSeq f).belay = s.belay := rfl
@[simp] theorem State.modSeq_rcv (s : State) (f : SeqSt → SeqSt) : (s.modSeq f).rcv = s.rcv := rfl
@[simp] theorem State.modSeq_cairn (s : State) (f : SeqSt → SeqSt) : (s.modSeq f).cairn = s.cairn := rfl
@[simp] theorem State.modSeq_pair (s : State) (f : SeqSt → SeqSt) : (s.modSeq f).pair = s.pair := rfl
@[simp] theorem State.modSeq_acts (s : State) (f : SeqSt → SeqSt) : (s.modSeq f).acts = s.acts := rfl
@[simp] theorem State.modSeq_slots (s : State) (f : SeqSt → SeqSt) : (s.modSeq f).slots = s.slots := rfl
@[simp] theorem State.modSeq_kv (s : State) (f : SeqSt → SeqSt) : (s.modSeq f).kv = s.kv := rfl
@[simp] theorem State.modSeq_hub (s : State) (f : SeqSt → SeqSt) : (s.modSeq f).hub = s.hub := rfl
@[simp] theorem State.modSeq_host (s : State) (f : SeqSt → SeqSt) : (s.modSeq f).host = s.host := rfl
@[simp] theorem State.modSeq_rope (s : State) (f : SeqSt → SeqSt) : (s.modSeq f).rope = s.rope := rfl
@[simp] theorem State.modSeq_maps (s : State) (f : SeqSt → SeqSt) : (s.modSeq f).maps = s.maps := rfl
@[simp] theorem State.modSeq_seq (s : State) (f : SeqSt → SeqSt) : (s.modSeq f).seq = f s.seq := rfl
@[simp] theorem State.modSeq_power (s : State) (f : SeqSt → SeqSt) : (s.modSeq f).power = s.power := rfl
@[simp] theorem State.modSeq_therm (s : State) (f : SeqSt → SeqSt) : (s.modSeq f).therm = s.therm := rfl
@[simp] theorem State.modSeq_clock (s : State) (f : SeqSt → SeqSt) : (s.modSeq f).clock = s.clock := rfl
@[simp] theorem State.modSeq_dor (s : State) (f : SeqSt → SeqSt) : (s.modSeq f).dor = s.dor := rfl
@[simp] theorem State.modSeq_tel (s : State) (f : SeqSt → SeqSt) : (s.modSeq f).tel = s.tel := rfl
@[simp] theorem State.modSeq_pins (s : State) (f : SeqSt → SeqSt) : (s.modSeq f).pins = s.pins := rfl
@[simp] theorem State.modSeq_castGen (s : State) (f : SeqSt → SeqSt) : (s.modSeq f).castGen = s.castGen := rfl
@[simp] theorem State.modSeq_castTab (s : State) (f : SeqSt → SeqSt) : (s.modSeq f).castTab = s.castTab := rfl
@[simp] theorem State.modSeq_distGen (s : State) (f : SeqSt → SeqSt) : (s.modSeq f).distGen = s.distGen := rfl
@[simp] theorem State.modSeq_dist (s : State) (f : SeqSt → SeqSt) : (s.modSeq f).dist = s.dist := rfl

/-! `modDor` changes `dor` only. -/
@[simp] theorem State.modDor_pending (s : State) (f : DorSt → DorSt) : (s.modDor f).pending = s.pending := rfl
@[simp] theorem State.modDor_now (s : State) (f : DorSt → DorSt) : (s.modDor f).now = s.now := rfl
@[simp] theorem State.modDor_freeIdx (s : State) (f : DorSt → DorSt) : (s.modDor f).freeIdx = s.freeIdx := rfl
@[simp] theorem State.modDor_out (s : State) (f : DorSt → DorSt) : (s.modDor f).out = s.out := rfl
@[simp] theorem State.modDor_regs (s : State) (f : DorSt → DorSt) : (s.modDor f).regs = s.regs := rfl
@[simp] theorem State.modDor_mem (s : State) (f : DorSt → DorSt) : (s.modDor f).mem = s.mem := rfl
@[simp] theorem State.modDor_cells (s : State) (f : DorSt → DorSt) : (s.modDor f).cells = s.cells := rfl
@[simp] theorem State.modDor_banks (s : State) (f : DorSt → DorSt) : (s.modDor f).banks = s.banks := rfl
@[simp] theorem State.modDor_mesh (s : State) (f : DorSt → DorSt) : (s.modDor f).mesh = s.mesh := rfl
@[simp] theorem State.modDor_chans (s : State) (f : DorSt → DorSt) : (s.modDor f).chans = s.chans := rfl
@[simp] theorem State.modDor_pkg (s : State) (f : DorSt → DorSt) : (s.modDor f).pkg = s.pkg := rfl
@[simp] theorem State.modDor_belay (s : State) (f : DorSt → DorSt) : (s.modDor f).belay = s.belay := rfl
@[simp] theorem State.modDor_rcv (s : State) (f : DorSt → DorSt) : (s.modDor f).rcv = s.rcv := rfl
@[simp] theorem State.modDor_cairn (s : State) (f : DorSt → DorSt) : (s.modDor f).cairn = s.cairn := rfl
@[simp] theorem State.modDor_pair (s : State) (f : DorSt → DorSt) : (s.modDor f).pair = s.pair := rfl
@[simp] theorem State.modDor_acts (s : State) (f : DorSt → DorSt) : (s.modDor f).acts = s.acts := rfl
@[simp] theorem State.modDor_slots (s : State) (f : DorSt → DorSt) : (s.modDor f).slots = s.slots := rfl
@[simp] theorem State.modDor_kv (s : State) (f : DorSt → DorSt) : (s.modDor f).kv = s.kv := rfl
@[simp] theorem State.modDor_hub (s : State) (f : DorSt → DorSt) : (s.modDor f).hub = s.hub := rfl
@[simp] theorem State.modDor_host (s : State) (f : DorSt → DorSt) : (s.modDor f).host = s.host := rfl
@[simp] theorem State.modDor_rope (s : State) (f : DorSt → DorSt) : (s.modDor f).rope = s.rope := rfl
@[simp] theorem State.modDor_maps (s : State) (f : DorSt → DorSt) : (s.modDor f).maps = s.maps := rfl
@[simp] theorem State.modDor_seq (s : State) (f : DorSt → DorSt) : (s.modDor f).seq = s.seq := rfl
@[simp] theorem State.modDor_power (s : State) (f : DorSt → DorSt) : (s.modDor f).power = s.power := rfl
@[simp] theorem State.modDor_therm (s : State) (f : DorSt → DorSt) : (s.modDor f).therm = s.therm := rfl
@[simp] theorem State.modDor_clock (s : State) (f : DorSt → DorSt) : (s.modDor f).clock = s.clock := rfl
@[simp] theorem State.modDor_dor (s : State) (f : DorSt → DorSt) : (s.modDor f).dor = f s.dor := rfl
@[simp] theorem State.modDor_tel (s : State) (f : DorSt → DorSt) : (s.modDor f).tel = s.tel := rfl
@[simp] theorem State.modDor_pins (s : State) (f : DorSt → DorSt) : (s.modDor f).pins = s.pins := rfl
@[simp] theorem State.modDor_castGen (s : State) (f : DorSt → DorSt) : (s.modDor f).castGen = s.castGen := rfl
@[simp] theorem State.modDor_castTab (s : State) (f : DorSt → DorSt) : (s.modDor f).castTab = s.castTab := rfl
@[simp] theorem State.modDor_distGen (s : State) (f : DorSt → DorSt) : (s.modDor f).distGen = s.distGen := rfl
@[simp] theorem State.modDor_dist (s : State) (f : DorSt → DorSt) : (s.modDor f).dist = s.dist := rfl

/-! `modHub` changes `hub` only. -/
@[simp] theorem State.modHub_pending (s : State) (f : HubSt → HubSt) : (s.modHub f).pending = s.pending := rfl
@[simp] theorem State.modHub_now (s : State) (f : HubSt → HubSt) : (s.modHub f).now = s.now := rfl
@[simp] theorem State.modHub_freeIdx (s : State) (f : HubSt → HubSt) : (s.modHub f).freeIdx = s.freeIdx := rfl
@[simp] theorem State.modHub_out (s : State) (f : HubSt → HubSt) : (s.modHub f).out = s.out := rfl
@[simp] theorem State.modHub_regs (s : State) (f : HubSt → HubSt) : (s.modHub f).regs = s.regs := rfl
@[simp] theorem State.modHub_mem (s : State) (f : HubSt → HubSt) : (s.modHub f).mem = s.mem := rfl
@[simp] theorem State.modHub_cells (s : State) (f : HubSt → HubSt) : (s.modHub f).cells = s.cells := rfl
@[simp] theorem State.modHub_banks (s : State) (f : HubSt → HubSt) : (s.modHub f).banks = s.banks := rfl
@[simp] theorem State.modHub_mesh (s : State) (f : HubSt → HubSt) : (s.modHub f).mesh = s.mesh := rfl
@[simp] theorem State.modHub_chans (s : State) (f : HubSt → HubSt) : (s.modHub f).chans = s.chans := rfl
@[simp] theorem State.modHub_pkg (s : State) (f : HubSt → HubSt) : (s.modHub f).pkg = s.pkg := rfl
@[simp] theorem State.modHub_belay (s : State) (f : HubSt → HubSt) : (s.modHub f).belay = s.belay := rfl
@[simp] theorem State.modHub_rcv (s : State) (f : HubSt → HubSt) : (s.modHub f).rcv = s.rcv := rfl
@[simp] theorem State.modHub_cairn (s : State) (f : HubSt → HubSt) : (s.modHub f).cairn = s.cairn := rfl
@[simp] theorem State.modHub_pair (s : State) (f : HubSt → HubSt) : (s.modHub f).pair = s.pair := rfl
@[simp] theorem State.modHub_acts (s : State) (f : HubSt → HubSt) : (s.modHub f).acts = s.acts := rfl
@[simp] theorem State.modHub_slots (s : State) (f : HubSt → HubSt) : (s.modHub f).slots = s.slots := rfl
@[simp] theorem State.modHub_kv (s : State) (f : HubSt → HubSt) : (s.modHub f).kv = s.kv := rfl
@[simp] theorem State.modHub_hub (s : State) (f : HubSt → HubSt) : (s.modHub f).hub = f s.hub := rfl
@[simp] theorem State.modHub_host (s : State) (f : HubSt → HubSt) : (s.modHub f).host = s.host := rfl
@[simp] theorem State.modHub_rope (s : State) (f : HubSt → HubSt) : (s.modHub f).rope = s.rope := rfl
@[simp] theorem State.modHub_maps (s : State) (f : HubSt → HubSt) : (s.modHub f).maps = s.maps := rfl
@[simp] theorem State.modHub_seq (s : State) (f : HubSt → HubSt) : (s.modHub f).seq = s.seq := rfl
@[simp] theorem State.modHub_power (s : State) (f : HubSt → HubSt) : (s.modHub f).power = s.power := rfl
@[simp] theorem State.modHub_therm (s : State) (f : HubSt → HubSt) : (s.modHub f).therm = s.therm := rfl
@[simp] theorem State.modHub_clock (s : State) (f : HubSt → HubSt) : (s.modHub f).clock = s.clock := rfl
@[simp] theorem State.modHub_dor (s : State) (f : HubSt → HubSt) : (s.modHub f).dor = s.dor := rfl
@[simp] theorem State.modHub_tel (s : State) (f : HubSt → HubSt) : (s.modHub f).tel = s.tel := rfl
@[simp] theorem State.modHub_pins (s : State) (f : HubSt → HubSt) : (s.modHub f).pins = s.pins := rfl
@[simp] theorem State.modHub_castGen (s : State) (f : HubSt → HubSt) : (s.modHub f).castGen = s.castGen := rfl
@[simp] theorem State.modHub_castTab (s : State) (f : HubSt → HubSt) : (s.modHub f).castTab = s.castTab := rfl
@[simp] theorem State.modHub_distGen (s : State) (f : HubSt → HubSt) : (s.modHub f).distGen = s.distGen := rfl
@[simp] theorem State.modHub_dist (s : State) (f : HubSt → HubSt) : (s.modHub f).dist = s.dist := rfl

/-! `modRes` changes `hub` only. -/
@[simp] theorem State.modRes_pending (s : State) (r : Nat) (f : ResSt → ResSt) : (s.modRes r f).pending = s.pending := rfl
@[simp] theorem State.modRes_now (s : State) (r : Nat) (f : ResSt → ResSt) : (s.modRes r f).now = s.now := rfl
@[simp] theorem State.modRes_freeIdx (s : State) (r : Nat) (f : ResSt → ResSt) : (s.modRes r f).freeIdx = s.freeIdx := rfl
@[simp] theorem State.modRes_out (s : State) (r : Nat) (f : ResSt → ResSt) : (s.modRes r f).out = s.out := rfl
@[simp] theorem State.modRes_regs (s : State) (r : Nat) (f : ResSt → ResSt) : (s.modRes r f).regs = s.regs := rfl
@[simp] theorem State.modRes_mem (s : State) (r : Nat) (f : ResSt → ResSt) : (s.modRes r f).mem = s.mem := rfl
@[simp] theorem State.modRes_cells (s : State) (r : Nat) (f : ResSt → ResSt) : (s.modRes r f).cells = s.cells := rfl
@[simp] theorem State.modRes_banks (s : State) (r : Nat) (f : ResSt → ResSt) : (s.modRes r f).banks = s.banks := rfl
@[simp] theorem State.modRes_mesh (s : State) (r : Nat) (f : ResSt → ResSt) : (s.modRes r f).mesh = s.mesh := rfl
@[simp] theorem State.modRes_chans (s : State) (r : Nat) (f : ResSt → ResSt) : (s.modRes r f).chans = s.chans := rfl
@[simp] theorem State.modRes_pkg (s : State) (r : Nat) (f : ResSt → ResSt) : (s.modRes r f).pkg = s.pkg := rfl
@[simp] theorem State.modRes_belay (s : State) (r : Nat) (f : ResSt → ResSt) : (s.modRes r f).belay = s.belay := rfl
@[simp] theorem State.modRes_rcv (s : State) (r : Nat) (f : ResSt → ResSt) : (s.modRes r f).rcv = s.rcv := rfl
@[simp] theorem State.modRes_cairn (s : State) (r : Nat) (f : ResSt → ResSt) : (s.modRes r f).cairn = s.cairn := rfl
@[simp] theorem State.modRes_pair (s : State) (r : Nat) (f : ResSt → ResSt) : (s.modRes r f).pair = s.pair := rfl
@[simp] theorem State.modRes_acts (s : State) (r : Nat) (f : ResSt → ResSt) : (s.modRes r f).acts = s.acts := rfl
@[simp] theorem State.modRes_slots (s : State) (r : Nat) (f : ResSt → ResSt) : (s.modRes r f).slots = s.slots := rfl
@[simp] theorem State.modRes_kv (s : State) (r : Nat) (f : ResSt → ResSt) : (s.modRes r f).kv = s.kv := rfl
@[simp] theorem State.modRes_host (s : State) (r : Nat) (f : ResSt → ResSt) : (s.modRes r f).host = s.host := rfl
@[simp] theorem State.modRes_rope (s : State) (r : Nat) (f : ResSt → ResSt) : (s.modRes r f).rope = s.rope := rfl
@[simp] theorem State.modRes_maps (s : State) (r : Nat) (f : ResSt → ResSt) : (s.modRes r f).maps = s.maps := rfl
@[simp] theorem State.modRes_seq (s : State) (r : Nat) (f : ResSt → ResSt) : (s.modRes r f).seq = s.seq := rfl
@[simp] theorem State.modRes_power (s : State) (r : Nat) (f : ResSt → ResSt) : (s.modRes r f).power = s.power := rfl
@[simp] theorem State.modRes_therm (s : State) (r : Nat) (f : ResSt → ResSt) : (s.modRes r f).therm = s.therm := rfl
@[simp] theorem State.modRes_clock (s : State) (r : Nat) (f : ResSt → ResSt) : (s.modRes r f).clock = s.clock := rfl
@[simp] theorem State.modRes_dor (s : State) (r : Nat) (f : ResSt → ResSt) : (s.modRes r f).dor = s.dor := rfl
@[simp] theorem State.modRes_tel (s : State) (r : Nat) (f : ResSt → ResSt) : (s.modRes r f).tel = s.tel := rfl
@[simp] theorem State.modRes_pins (s : State) (r : Nat) (f : ResSt → ResSt) : (s.modRes r f).pins = s.pins := rfl
@[simp] theorem State.modRes_castGen (s : State) (r : Nat) (f : ResSt → ResSt) : (s.modRes r f).castGen = s.castGen := rfl
@[simp] theorem State.modRes_castTab (s : State) (r : Nat) (f : ResSt → ResSt) : (s.modRes r f).castTab = s.castTab := rfl
@[simp] theorem State.modRes_distGen (s : State) (r : Nat) (f : ResSt → ResSt) : (s.modRes r f).distGen = s.distGen := rfl
@[simp] theorem State.modRes_dist (s : State) (r : Nat) (f : ResSt → ResSt) : (s.modRes r f).dist = s.dist := rfl

/-! `modMaps` changes `maps` only. -/
@[simp] theorem State.modMaps_pending (s : State) (f : MapSt → MapSt) : (s.modMaps f).pending = s.pending := rfl
@[simp] theorem State.modMaps_now (s : State) (f : MapSt → MapSt) : (s.modMaps f).now = s.now := rfl
@[simp] theorem State.modMaps_freeIdx (s : State) (f : MapSt → MapSt) : (s.modMaps f).freeIdx = s.freeIdx := rfl
@[simp] theorem State.modMaps_out (s : State) (f : MapSt → MapSt) : (s.modMaps f).out = s.out := rfl
@[simp] theorem State.modMaps_regs (s : State) (f : MapSt → MapSt) : (s.modMaps f).regs = s.regs := rfl
@[simp] theorem State.modMaps_mem (s : State) (f : MapSt → MapSt) : (s.modMaps f).mem = s.mem := rfl
@[simp] theorem State.modMaps_cells (s : State) (f : MapSt → MapSt) : (s.modMaps f).cells = s.cells := rfl
@[simp] theorem State.modMaps_banks (s : State) (f : MapSt → MapSt) : (s.modMaps f).banks = s.banks := rfl
@[simp] theorem State.modMaps_mesh (s : State) (f : MapSt → MapSt) : (s.modMaps f).mesh = s.mesh := rfl
@[simp] theorem State.modMaps_chans (s : State) (f : MapSt → MapSt) : (s.modMaps f).chans = s.chans := rfl
@[simp] theorem State.modMaps_pkg (s : State) (f : MapSt → MapSt) : (s.modMaps f).pkg = s.pkg := rfl
@[simp] theorem State.modMaps_belay (s : State) (f : MapSt → MapSt) : (s.modMaps f).belay = s.belay := rfl
@[simp] theorem State.modMaps_rcv (s : State) (f : MapSt → MapSt) : (s.modMaps f).rcv = s.rcv := rfl
@[simp] theorem State.modMaps_cairn (s : State) (f : MapSt → MapSt) : (s.modMaps f).cairn = s.cairn := rfl
@[simp] theorem State.modMaps_pair (s : State) (f : MapSt → MapSt) : (s.modMaps f).pair = s.pair := rfl
@[simp] theorem State.modMaps_acts (s : State) (f : MapSt → MapSt) : (s.modMaps f).acts = s.acts := rfl
@[simp] theorem State.modMaps_slots (s : State) (f : MapSt → MapSt) : (s.modMaps f).slots = s.slots := rfl
@[simp] theorem State.modMaps_kv (s : State) (f : MapSt → MapSt) : (s.modMaps f).kv = s.kv := rfl
@[simp] theorem State.modMaps_hub (s : State) (f : MapSt → MapSt) : (s.modMaps f).hub = s.hub := rfl
@[simp] theorem State.modMaps_host (s : State) (f : MapSt → MapSt) : (s.modMaps f).host = s.host := rfl
@[simp] theorem State.modMaps_rope (s : State) (f : MapSt → MapSt) : (s.modMaps f).rope = s.rope := rfl
@[simp] theorem State.modMaps_maps (s : State) (f : MapSt → MapSt) : (s.modMaps f).maps = f s.maps := rfl
@[simp] theorem State.modMaps_seq (s : State) (f : MapSt → MapSt) : (s.modMaps f).seq = s.seq := rfl
@[simp] theorem State.modMaps_power (s : State) (f : MapSt → MapSt) : (s.modMaps f).power = s.power := rfl
@[simp] theorem State.modMaps_therm (s : State) (f : MapSt → MapSt) : (s.modMaps f).therm = s.therm := rfl
@[simp] theorem State.modMaps_clock (s : State) (f : MapSt → MapSt) : (s.modMaps f).clock = s.clock := rfl
@[simp] theorem State.modMaps_dor (s : State) (f : MapSt → MapSt) : (s.modMaps f).dor = s.dor := rfl
@[simp] theorem State.modMaps_tel (s : State) (f : MapSt → MapSt) : (s.modMaps f).tel = s.tel := rfl
@[simp] theorem State.modMaps_pins (s : State) (f : MapSt → MapSt) : (s.modMaps f).pins = s.pins := rfl
@[simp] theorem State.modMaps_castGen (s : State) (f : MapSt → MapSt) : (s.modMaps f).castGen = s.castGen := rfl
@[simp] theorem State.modMaps_castTab (s : State) (f : MapSt → MapSt) : (s.modMaps f).castTab = s.castTab := rfl
@[simp] theorem State.modMaps_distGen (s : State) (f : MapSt → MapSt) : (s.modMaps f).distGen = s.distGen := rfl
@[simp] theorem State.modMaps_dist (s : State) (f : MapSt → MapSt) : (s.modMaps f).dist = s.dist := rfl

/-! `modHost` changes `host` only. -/
@[simp] theorem State.modHost_pending (s : State) (f : HostSt → HostSt) : (s.modHost f).pending = s.pending := rfl
@[simp] theorem State.modHost_now (s : State) (f : HostSt → HostSt) : (s.modHost f).now = s.now := rfl
@[simp] theorem State.modHost_freeIdx (s : State) (f : HostSt → HostSt) : (s.modHost f).freeIdx = s.freeIdx := rfl
@[simp] theorem State.modHost_out (s : State) (f : HostSt → HostSt) : (s.modHost f).out = s.out := rfl
@[simp] theorem State.modHost_regs (s : State) (f : HostSt → HostSt) : (s.modHost f).regs = s.regs := rfl
@[simp] theorem State.modHost_mem (s : State) (f : HostSt → HostSt) : (s.modHost f).mem = s.mem := rfl
@[simp] theorem State.modHost_cells (s : State) (f : HostSt → HostSt) : (s.modHost f).cells = s.cells := rfl
@[simp] theorem State.modHost_banks (s : State) (f : HostSt → HostSt) : (s.modHost f).banks = s.banks := rfl
@[simp] theorem State.modHost_mesh (s : State) (f : HostSt → HostSt) : (s.modHost f).mesh = s.mesh := rfl
@[simp] theorem State.modHost_chans (s : State) (f : HostSt → HostSt) : (s.modHost f).chans = s.chans := rfl
@[simp] theorem State.modHost_pkg (s : State) (f : HostSt → HostSt) : (s.modHost f).pkg = s.pkg := rfl
@[simp] theorem State.modHost_belay (s : State) (f : HostSt → HostSt) : (s.modHost f).belay = s.belay := rfl
@[simp] theorem State.modHost_rcv (s : State) (f : HostSt → HostSt) : (s.modHost f).rcv = s.rcv := rfl
@[simp] theorem State.modHost_cairn (s : State) (f : HostSt → HostSt) : (s.modHost f).cairn = s.cairn := rfl
@[simp] theorem State.modHost_pair (s : State) (f : HostSt → HostSt) : (s.modHost f).pair = s.pair := rfl
@[simp] theorem State.modHost_acts (s : State) (f : HostSt → HostSt) : (s.modHost f).acts = s.acts := rfl
@[simp] theorem State.modHost_slots (s : State) (f : HostSt → HostSt) : (s.modHost f).slots = s.slots := rfl
@[simp] theorem State.modHost_kv (s : State) (f : HostSt → HostSt) : (s.modHost f).kv = s.kv := rfl
@[simp] theorem State.modHost_hub (s : State) (f : HostSt → HostSt) : (s.modHost f).hub = s.hub := rfl
@[simp] theorem State.modHost_host (s : State) (f : HostSt → HostSt) : (s.modHost f).host = f s.host := rfl
@[simp] theorem State.modHost_rope (s : State) (f : HostSt → HostSt) : (s.modHost f).rope = s.rope := rfl
@[simp] theorem State.modHost_maps (s : State) (f : HostSt → HostSt) : (s.modHost f).maps = s.maps := rfl
@[simp] theorem State.modHost_seq (s : State) (f : HostSt → HostSt) : (s.modHost f).seq = s.seq := rfl
@[simp] theorem State.modHost_power (s : State) (f : HostSt → HostSt) : (s.modHost f).power = s.power := rfl
@[simp] theorem State.modHost_therm (s : State) (f : HostSt → HostSt) : (s.modHost f).therm = s.therm := rfl
@[simp] theorem State.modHost_clock (s : State) (f : HostSt → HostSt) : (s.modHost f).clock = s.clock := rfl
@[simp] theorem State.modHost_dor (s : State) (f : HostSt → HostSt) : (s.modHost f).dor = s.dor := rfl
@[simp] theorem State.modHost_tel (s : State) (f : HostSt → HostSt) : (s.modHost f).tel = s.tel := rfl
@[simp] theorem State.modHost_pins (s : State) (f : HostSt → HostSt) : (s.modHost f).pins = s.pins := rfl
@[simp] theorem State.modHost_castGen (s : State) (f : HostSt → HostSt) : (s.modHost f).castGen = s.castGen := rfl
@[simp] theorem State.modHost_castTab (s : State) (f : HostSt → HostSt) : (s.modHost f).castTab = s.castTab := rfl
@[simp] theorem State.modHost_distGen (s : State) (f : HostSt → HostSt) : (s.modHost f).distGen = s.distGen := rfl
@[simp] theorem State.modHost_dist (s : State) (f : HostSt → HostSt) : (s.modHost f).dist = s.dist := rfl

/-! `modMb` changes `host` only. -/
@[simp] theorem State.modMb_pending (s : State) (n : Nat) (f : MbSt → MbSt) : (s.modMb n f).pending = s.pending := rfl
@[simp] theorem State.modMb_now (s : State) (n : Nat) (f : MbSt → MbSt) : (s.modMb n f).now = s.now := rfl
@[simp] theorem State.modMb_freeIdx (s : State) (n : Nat) (f : MbSt → MbSt) : (s.modMb n f).freeIdx = s.freeIdx := rfl
@[simp] theorem State.modMb_out (s : State) (n : Nat) (f : MbSt → MbSt) : (s.modMb n f).out = s.out := rfl
@[simp] theorem State.modMb_regs (s : State) (n : Nat) (f : MbSt → MbSt) : (s.modMb n f).regs = s.regs := rfl
@[simp] theorem State.modMb_mem (s : State) (n : Nat) (f : MbSt → MbSt) : (s.modMb n f).mem = s.mem := rfl
@[simp] theorem State.modMb_cells (s : State) (n : Nat) (f : MbSt → MbSt) : (s.modMb n f).cells = s.cells := rfl
@[simp] theorem State.modMb_banks (s : State) (n : Nat) (f : MbSt → MbSt) : (s.modMb n f).banks = s.banks := rfl
@[simp] theorem State.modMb_mesh (s : State) (n : Nat) (f : MbSt → MbSt) : (s.modMb n f).mesh = s.mesh := rfl
@[simp] theorem State.modMb_chans (s : State) (n : Nat) (f : MbSt → MbSt) : (s.modMb n f).chans = s.chans := rfl
@[simp] theorem State.modMb_pkg (s : State) (n : Nat) (f : MbSt → MbSt) : (s.modMb n f).pkg = s.pkg := rfl
@[simp] theorem State.modMb_belay (s : State) (n : Nat) (f : MbSt → MbSt) : (s.modMb n f).belay = s.belay := rfl
@[simp] theorem State.modMb_rcv (s : State) (n : Nat) (f : MbSt → MbSt) : (s.modMb n f).rcv = s.rcv := rfl
@[simp] theorem State.modMb_cairn (s : State) (n : Nat) (f : MbSt → MbSt) : (s.modMb n f).cairn = s.cairn := rfl
@[simp] theorem State.modMb_pair (s : State) (n : Nat) (f : MbSt → MbSt) : (s.modMb n f).pair = s.pair := rfl
@[simp] theorem State.modMb_acts (s : State) (n : Nat) (f : MbSt → MbSt) : (s.modMb n f).acts = s.acts := rfl
@[simp] theorem State.modMb_slots (s : State) (n : Nat) (f : MbSt → MbSt) : (s.modMb n f).slots = s.slots := rfl
@[simp] theorem State.modMb_kv (s : State) (n : Nat) (f : MbSt → MbSt) : (s.modMb n f).kv = s.kv := rfl
@[simp] theorem State.modMb_hub (s : State) (n : Nat) (f : MbSt → MbSt) : (s.modMb n f).hub = s.hub := rfl
@[simp] theorem State.modMb_rope (s : State) (n : Nat) (f : MbSt → MbSt) : (s.modMb n f).rope = s.rope := rfl
@[simp] theorem State.modMb_maps (s : State) (n : Nat) (f : MbSt → MbSt) : (s.modMb n f).maps = s.maps := rfl
@[simp] theorem State.modMb_seq (s : State) (n : Nat) (f : MbSt → MbSt) : (s.modMb n f).seq = s.seq := rfl
@[simp] theorem State.modMb_power (s : State) (n : Nat) (f : MbSt → MbSt) : (s.modMb n f).power = s.power := rfl
@[simp] theorem State.modMb_therm (s : State) (n : Nat) (f : MbSt → MbSt) : (s.modMb n f).therm = s.therm := rfl
@[simp] theorem State.modMb_clock (s : State) (n : Nat) (f : MbSt → MbSt) : (s.modMb n f).clock = s.clock := rfl
@[simp] theorem State.modMb_dor (s : State) (n : Nat) (f : MbSt → MbSt) : (s.modMb n f).dor = s.dor := rfl
@[simp] theorem State.modMb_tel (s : State) (n : Nat) (f : MbSt → MbSt) : (s.modMb n f).tel = s.tel := rfl
@[simp] theorem State.modMb_pins (s : State) (n : Nat) (f : MbSt → MbSt) : (s.modMb n f).pins = s.pins := rfl
@[simp] theorem State.modMb_castGen (s : State) (n : Nat) (f : MbSt → MbSt) : (s.modMb n f).castGen = s.castGen := rfl
@[simp] theorem State.modMb_castTab (s : State) (n : Nat) (f : MbSt → MbSt) : (s.modMb n f).castTab = s.castTab := rfl
@[simp] theorem State.modMb_distGen (s : State) (n : Nat) (f : MbSt → MbSt) : (s.modMb n f).distGen = s.distGen := rfl
@[simp] theorem State.modMb_dist (s : State) (n : Nat) (f : MbSt → MbSt) : (s.modMb n f).dist = s.dist := rfl

/-! `modRing` changes `host` only. -/
@[simp] theorem State.modRing_pending (s : State) (i : Nat) (f : RingSt → RingSt) : (s.modRing i f).pending = s.pending := rfl
@[simp] theorem State.modRing_now (s : State) (i : Nat) (f : RingSt → RingSt) : (s.modRing i f).now = s.now := rfl
@[simp] theorem State.modRing_freeIdx (s : State) (i : Nat) (f : RingSt → RingSt) : (s.modRing i f).freeIdx = s.freeIdx := rfl
@[simp] theorem State.modRing_out (s : State) (i : Nat) (f : RingSt → RingSt) : (s.modRing i f).out = s.out := rfl
@[simp] theorem State.modRing_regs (s : State) (i : Nat) (f : RingSt → RingSt) : (s.modRing i f).regs = s.regs := rfl
@[simp] theorem State.modRing_mem (s : State) (i : Nat) (f : RingSt → RingSt) : (s.modRing i f).mem = s.mem := rfl
@[simp] theorem State.modRing_cells (s : State) (i : Nat) (f : RingSt → RingSt) : (s.modRing i f).cells = s.cells := rfl
@[simp] theorem State.modRing_banks (s : State) (i : Nat) (f : RingSt → RingSt) : (s.modRing i f).banks = s.banks := rfl
@[simp] theorem State.modRing_mesh (s : State) (i : Nat) (f : RingSt → RingSt) : (s.modRing i f).mesh = s.mesh := rfl
@[simp] theorem State.modRing_chans (s : State) (i : Nat) (f : RingSt → RingSt) : (s.modRing i f).chans = s.chans := rfl
@[simp] theorem State.modRing_pkg (s : State) (i : Nat) (f : RingSt → RingSt) : (s.modRing i f).pkg = s.pkg := rfl
@[simp] theorem State.modRing_belay (s : State) (i : Nat) (f : RingSt → RingSt) : (s.modRing i f).belay = s.belay := rfl
@[simp] theorem State.modRing_rcv (s : State) (i : Nat) (f : RingSt → RingSt) : (s.modRing i f).rcv = s.rcv := rfl
@[simp] theorem State.modRing_cairn (s : State) (i : Nat) (f : RingSt → RingSt) : (s.modRing i f).cairn = s.cairn := rfl
@[simp] theorem State.modRing_pair (s : State) (i : Nat) (f : RingSt → RingSt) : (s.modRing i f).pair = s.pair := rfl
@[simp] theorem State.modRing_acts (s : State) (i : Nat) (f : RingSt → RingSt) : (s.modRing i f).acts = s.acts := rfl
@[simp] theorem State.modRing_slots (s : State) (i : Nat) (f : RingSt → RingSt) : (s.modRing i f).slots = s.slots := rfl
@[simp] theorem State.modRing_kv (s : State) (i : Nat) (f : RingSt → RingSt) : (s.modRing i f).kv = s.kv := rfl
@[simp] theorem State.modRing_hub (s : State) (i : Nat) (f : RingSt → RingSt) : (s.modRing i f).hub = s.hub := rfl
@[simp] theorem State.modRing_rope (s : State) (i : Nat) (f : RingSt → RingSt) : (s.modRing i f).rope = s.rope := rfl
@[simp] theorem State.modRing_maps (s : State) (i : Nat) (f : RingSt → RingSt) : (s.modRing i f).maps = s.maps := rfl
@[simp] theorem State.modRing_seq (s : State) (i : Nat) (f : RingSt → RingSt) : (s.modRing i f).seq = s.seq := rfl
@[simp] theorem State.modRing_power (s : State) (i : Nat) (f : RingSt → RingSt) : (s.modRing i f).power = s.power := rfl
@[simp] theorem State.modRing_therm (s : State) (i : Nat) (f : RingSt → RingSt) : (s.modRing i f).therm = s.therm := rfl
@[simp] theorem State.modRing_clock (s : State) (i : Nat) (f : RingSt → RingSt) : (s.modRing i f).clock = s.clock := rfl
@[simp] theorem State.modRing_dor (s : State) (i : Nat) (f : RingSt → RingSt) : (s.modRing i f).dor = s.dor := rfl
@[simp] theorem State.modRing_tel (s : State) (i : Nat) (f : RingSt → RingSt) : (s.modRing i f).tel = s.tel := rfl
@[simp] theorem State.modRing_pins (s : State) (i : Nat) (f : RingSt → RingSt) : (s.modRing i f).pins = s.pins := rfl
@[simp] theorem State.modRing_castGen (s : State) (i : Nat) (f : RingSt → RingSt) : (s.modRing i f).castGen = s.castGen := rfl
@[simp] theorem State.modRing_castTab (s : State) (i : Nat) (f : RingSt → RingSt) : (s.modRing i f).castTab = s.castTab := rfl
@[simp] theorem State.modRing_distGen (s : State) (i : Nat) (f : RingSt → RingSt) : (s.modRing i f).distGen = s.distGen := rfl
@[simp] theorem State.modRing_dist (s : State) (i : Nat) (f : RingSt → RingSt) : (s.modRing i f).dist = s.dist := rfl

/-! `modPins` changes `pins` only. -/
@[simp] theorem State.modPins_pending (s : State) (f : PinSt → PinSt) : (s.modPins f).pending = s.pending := rfl
@[simp] theorem State.modPins_now (s : State) (f : PinSt → PinSt) : (s.modPins f).now = s.now := rfl
@[simp] theorem State.modPins_freeIdx (s : State) (f : PinSt → PinSt) : (s.modPins f).freeIdx = s.freeIdx := rfl
@[simp] theorem State.modPins_out (s : State) (f : PinSt → PinSt) : (s.modPins f).out = s.out := rfl
@[simp] theorem State.modPins_regs (s : State) (f : PinSt → PinSt) : (s.modPins f).regs = s.regs := rfl
@[simp] theorem State.modPins_mem (s : State) (f : PinSt → PinSt) : (s.modPins f).mem = s.mem := rfl
@[simp] theorem State.modPins_cells (s : State) (f : PinSt → PinSt) : (s.modPins f).cells = s.cells := rfl
@[simp] theorem State.modPins_banks (s : State) (f : PinSt → PinSt) : (s.modPins f).banks = s.banks := rfl
@[simp] theorem State.modPins_mesh (s : State) (f : PinSt → PinSt) : (s.modPins f).mesh = s.mesh := rfl
@[simp] theorem State.modPins_chans (s : State) (f : PinSt → PinSt) : (s.modPins f).chans = s.chans := rfl
@[simp] theorem State.modPins_pkg (s : State) (f : PinSt → PinSt) : (s.modPins f).pkg = s.pkg := rfl
@[simp] theorem State.modPins_belay (s : State) (f : PinSt → PinSt) : (s.modPins f).belay = s.belay := rfl
@[simp] theorem State.modPins_rcv (s : State) (f : PinSt → PinSt) : (s.modPins f).rcv = s.rcv := rfl
@[simp] theorem State.modPins_cairn (s : State) (f : PinSt → PinSt) : (s.modPins f).cairn = s.cairn := rfl
@[simp] theorem State.modPins_pair (s : State) (f : PinSt → PinSt) : (s.modPins f).pair = s.pair := rfl
@[simp] theorem State.modPins_acts (s : State) (f : PinSt → PinSt) : (s.modPins f).acts = s.acts := rfl
@[simp] theorem State.modPins_slots (s : State) (f : PinSt → PinSt) : (s.modPins f).slots = s.slots := rfl
@[simp] theorem State.modPins_kv (s : State) (f : PinSt → PinSt) : (s.modPins f).kv = s.kv := rfl
@[simp] theorem State.modPins_hub (s : State) (f : PinSt → PinSt) : (s.modPins f).hub = s.hub := rfl
@[simp] theorem State.modPins_host (s : State) (f : PinSt → PinSt) : (s.modPins f).host = s.host := rfl
@[simp] theorem State.modPins_rope (s : State) (f : PinSt → PinSt) : (s.modPins f).rope = s.rope := rfl
@[simp] theorem State.modPins_maps (s : State) (f : PinSt → PinSt) : (s.modPins f).maps = s.maps := rfl
@[simp] theorem State.modPins_seq (s : State) (f : PinSt → PinSt) : (s.modPins f).seq = s.seq := rfl
@[simp] theorem State.modPins_power (s : State) (f : PinSt → PinSt) : (s.modPins f).power = s.power := rfl
@[simp] theorem State.modPins_therm (s : State) (f : PinSt → PinSt) : (s.modPins f).therm = s.therm := rfl
@[simp] theorem State.modPins_clock (s : State) (f : PinSt → PinSt) : (s.modPins f).clock = s.clock := rfl
@[simp] theorem State.modPins_dor (s : State) (f : PinSt → PinSt) : (s.modPins f).dor = s.dor := rfl
@[simp] theorem State.modPins_tel (s : State) (f : PinSt → PinSt) : (s.modPins f).tel = s.tel := rfl
@[simp] theorem State.modPins_pins (s : State) (f : PinSt → PinSt) : (s.modPins f).pins = f s.pins := rfl
@[simp] theorem State.modPins_castGen (s : State) (f : PinSt → PinSt) : (s.modPins f).castGen = s.castGen := rfl
@[simp] theorem State.modPins_castTab (s : State) (f : PinSt → PinSt) : (s.modPins f).castTab = s.castTab := rfl
@[simp] theorem State.modPins_distGen (s : State) (f : PinSt → PinSt) : (s.modPins f).distGen = s.distGen := rfl
@[simp] theorem State.modPins_dist (s : State) (f : PinSt → PinSt) : (s.modPins f).dist = s.dist := rfl

/-! `modPorter` changes `hub` only. -/
@[simp] theorem State.modPorter_pending (s : State) (p : Nat) (f : PorterSt → PorterSt) : (s.modPorter p f).pending = s.pending := rfl
@[simp] theorem State.modPorter_now (s : State) (p : Nat) (f : PorterSt → PorterSt) : (s.modPorter p f).now = s.now := rfl
@[simp] theorem State.modPorter_freeIdx (s : State) (p : Nat) (f : PorterSt → PorterSt) : (s.modPorter p f).freeIdx = s.freeIdx := rfl
@[simp] theorem State.modPorter_out (s : State) (p : Nat) (f : PorterSt → PorterSt) : (s.modPorter p f).out = s.out := rfl
@[simp] theorem State.modPorter_regs (s : State) (p : Nat) (f : PorterSt → PorterSt) : (s.modPorter p f).regs = s.regs := rfl
@[simp] theorem State.modPorter_mem (s : State) (p : Nat) (f : PorterSt → PorterSt) : (s.modPorter p f).mem = s.mem := rfl
@[simp] theorem State.modPorter_cells (s : State) (p : Nat) (f : PorterSt → PorterSt) : (s.modPorter p f).cells = s.cells := rfl
@[simp] theorem State.modPorter_banks (s : State) (p : Nat) (f : PorterSt → PorterSt) : (s.modPorter p f).banks = s.banks := rfl
@[simp] theorem State.modPorter_mesh (s : State) (p : Nat) (f : PorterSt → PorterSt) : (s.modPorter p f).mesh = s.mesh := rfl
@[simp] theorem State.modPorter_chans (s : State) (p : Nat) (f : PorterSt → PorterSt) : (s.modPorter p f).chans = s.chans := rfl
@[simp] theorem State.modPorter_pkg (s : State) (p : Nat) (f : PorterSt → PorterSt) : (s.modPorter p f).pkg = s.pkg := rfl
@[simp] theorem State.modPorter_belay (s : State) (p : Nat) (f : PorterSt → PorterSt) : (s.modPorter p f).belay = s.belay := rfl
@[simp] theorem State.modPorter_rcv (s : State) (p : Nat) (f : PorterSt → PorterSt) : (s.modPorter p f).rcv = s.rcv := rfl
@[simp] theorem State.modPorter_cairn (s : State) (p : Nat) (f : PorterSt → PorterSt) : (s.modPorter p f).cairn = s.cairn := rfl
@[simp] theorem State.modPorter_pair (s : State) (p : Nat) (f : PorterSt → PorterSt) : (s.modPorter p f).pair = s.pair := rfl
@[simp] theorem State.modPorter_acts (s : State) (p : Nat) (f : PorterSt → PorterSt) : (s.modPorter p f).acts = s.acts := rfl
@[simp] theorem State.modPorter_slots (s : State) (p : Nat) (f : PorterSt → PorterSt) : (s.modPorter p f).slots = s.slots := rfl
@[simp] theorem State.modPorter_kv (s : State) (p : Nat) (f : PorterSt → PorterSt) : (s.modPorter p f).kv = s.kv := rfl
@[simp] theorem State.modPorter_host (s : State) (p : Nat) (f : PorterSt → PorterSt) : (s.modPorter p f).host = s.host := rfl
@[simp] theorem State.modPorter_rope (s : State) (p : Nat) (f : PorterSt → PorterSt) : (s.modPorter p f).rope = s.rope := rfl
@[simp] theorem State.modPorter_maps (s : State) (p : Nat) (f : PorterSt → PorterSt) : (s.modPorter p f).maps = s.maps := rfl
@[simp] theorem State.modPorter_seq (s : State) (p : Nat) (f : PorterSt → PorterSt) : (s.modPorter p f).seq = s.seq := rfl
@[simp] theorem State.modPorter_power (s : State) (p : Nat) (f : PorterSt → PorterSt) : (s.modPorter p f).power = s.power := rfl
@[simp] theorem State.modPorter_therm (s : State) (p : Nat) (f : PorterSt → PorterSt) : (s.modPorter p f).therm = s.therm := rfl
@[simp] theorem State.modPorter_clock (s : State) (p : Nat) (f : PorterSt → PorterSt) : (s.modPorter p f).clock = s.clock := rfl
@[simp] theorem State.modPorter_dor (s : State) (p : Nat) (f : PorterSt → PorterSt) : (s.modPorter p f).dor = s.dor := rfl
@[simp] theorem State.modPorter_tel (s : State) (p : Nat) (f : PorterSt → PorterSt) : (s.modPorter p f).tel = s.tel := rfl
@[simp] theorem State.modPorter_pins (s : State) (p : Nat) (f : PorterSt → PorterSt) : (s.modPorter p f).pins = s.pins := rfl
@[simp] theorem State.modPorter_castGen (s : State) (p : Nat) (f : PorterSt → PorterSt) : (s.modPorter p f).castGen = s.castGen := rfl
@[simp] theorem State.modPorter_castTab (s : State) (p : Nat) (f : PorterSt → PorterSt) : (s.modPorter p f).castTab = s.castTab := rfl
@[simp] theorem State.modPorter_distGen (s : State) (p : Nat) (f : PorterSt → PorterSt) : (s.modPorter p f).distGen = s.distGen := rfl
@[simp] theorem State.modPorter_dist (s : State) (p : Nat) (f : PorterSt → PorterSt) : (s.modPorter p f).dist = s.dist := rfl

/-! `modPower` changes `power` only. -/
@[simp] theorem State.modPower_pending (s : State) (f : PowerSt → PowerSt) : (s.modPower f).pending = s.pending := rfl
@[simp] theorem State.modPower_now (s : State) (f : PowerSt → PowerSt) : (s.modPower f).now = s.now := rfl
@[simp] theorem State.modPower_freeIdx (s : State) (f : PowerSt → PowerSt) : (s.modPower f).freeIdx = s.freeIdx := rfl
@[simp] theorem State.modPower_out (s : State) (f : PowerSt → PowerSt) : (s.modPower f).out = s.out := rfl
@[simp] theorem State.modPower_regs (s : State) (f : PowerSt → PowerSt) : (s.modPower f).regs = s.regs := rfl
@[simp] theorem State.modPower_mem (s : State) (f : PowerSt → PowerSt) : (s.modPower f).mem = s.mem := rfl
@[simp] theorem State.modPower_cells (s : State) (f : PowerSt → PowerSt) : (s.modPower f).cells = s.cells := rfl
@[simp] theorem State.modPower_banks (s : State) (f : PowerSt → PowerSt) : (s.modPower f).banks = s.banks := rfl
@[simp] theorem State.modPower_mesh (s : State) (f : PowerSt → PowerSt) : (s.modPower f).mesh = s.mesh := rfl
@[simp] theorem State.modPower_chans (s : State) (f : PowerSt → PowerSt) : (s.modPower f).chans = s.chans := rfl
@[simp] theorem State.modPower_pkg (s : State) (f : PowerSt → PowerSt) : (s.modPower f).pkg = s.pkg := rfl
@[simp] theorem State.modPower_belay (s : State) (f : PowerSt → PowerSt) : (s.modPower f).belay = s.belay := rfl
@[simp] theorem State.modPower_rcv (s : State) (f : PowerSt → PowerSt) : (s.modPower f).rcv = s.rcv := rfl
@[simp] theorem State.modPower_cairn (s : State) (f : PowerSt → PowerSt) : (s.modPower f).cairn = s.cairn := rfl
@[simp] theorem State.modPower_pair (s : State) (f : PowerSt → PowerSt) : (s.modPower f).pair = s.pair := rfl
@[simp] theorem State.modPower_acts (s : State) (f : PowerSt → PowerSt) : (s.modPower f).acts = s.acts := rfl
@[simp] theorem State.modPower_slots (s : State) (f : PowerSt → PowerSt) : (s.modPower f).slots = s.slots := rfl
@[simp] theorem State.modPower_kv (s : State) (f : PowerSt → PowerSt) : (s.modPower f).kv = s.kv := rfl
@[simp] theorem State.modPower_hub (s : State) (f : PowerSt → PowerSt) : (s.modPower f).hub = s.hub := rfl
@[simp] theorem State.modPower_host (s : State) (f : PowerSt → PowerSt) : (s.modPower f).host = s.host := rfl
@[simp] theorem State.modPower_rope (s : State) (f : PowerSt → PowerSt) : (s.modPower f).rope = s.rope := rfl
@[simp] theorem State.modPower_maps (s : State) (f : PowerSt → PowerSt) : (s.modPower f).maps = s.maps := rfl
@[simp] theorem State.modPower_seq (s : State) (f : PowerSt → PowerSt) : (s.modPower f).seq = s.seq := rfl
@[simp] theorem State.modPower_power (s : State) (f : PowerSt → PowerSt) : (s.modPower f).power = f s.power := rfl
@[simp] theorem State.modPower_therm (s : State) (f : PowerSt → PowerSt) : (s.modPower f).therm = s.therm := rfl
@[simp] theorem State.modPower_clock (s : State) (f : PowerSt → PowerSt) : (s.modPower f).clock = s.clock := rfl
@[simp] theorem State.modPower_dor (s : State) (f : PowerSt → PowerSt) : (s.modPower f).dor = s.dor := rfl
@[simp] theorem State.modPower_tel (s : State) (f : PowerSt → PowerSt) : (s.modPower f).tel = s.tel := rfl
@[simp] theorem State.modPower_pins (s : State) (f : PowerSt → PowerSt) : (s.modPower f).pins = s.pins := rfl
@[simp] theorem State.modPower_castGen (s : State) (f : PowerSt → PowerSt) : (s.modPower f).castGen = s.castGen := rfl
@[simp] theorem State.modPower_castTab (s : State) (f : PowerSt → PowerSt) : (s.modPower f).castTab = s.castTab := rfl
@[simp] theorem State.modPower_distGen (s : State) (f : PowerSt → PowerSt) : (s.modPower f).distGen = s.distGen := rfl
@[simp] theorem State.modPower_dist (s : State) (f : PowerSt → PowerSt) : (s.modPower f).dist = s.dist := rfl

/-! `modTherm` changes `therm` only. -/
@[simp] theorem State.modTherm_pending (s : State) (g : Nat) (f : ThermSt → ThermSt) : (s.modTherm g f).pending = s.pending := rfl
@[simp] theorem State.modTherm_now (s : State) (g : Nat) (f : ThermSt → ThermSt) : (s.modTherm g f).now = s.now := rfl
@[simp] theorem State.modTherm_freeIdx (s : State) (g : Nat) (f : ThermSt → ThermSt) : (s.modTherm g f).freeIdx = s.freeIdx := rfl
@[simp] theorem State.modTherm_out (s : State) (g : Nat) (f : ThermSt → ThermSt) : (s.modTherm g f).out = s.out := rfl
@[simp] theorem State.modTherm_regs (s : State) (g : Nat) (f : ThermSt → ThermSt) : (s.modTherm g f).regs = s.regs := rfl
@[simp] theorem State.modTherm_mem (s : State) (g : Nat) (f : ThermSt → ThermSt) : (s.modTherm g f).mem = s.mem := rfl
@[simp] theorem State.modTherm_cells (s : State) (g : Nat) (f : ThermSt → ThermSt) : (s.modTherm g f).cells = s.cells := rfl
@[simp] theorem State.modTherm_banks (s : State) (g : Nat) (f : ThermSt → ThermSt) : (s.modTherm g f).banks = s.banks := rfl
@[simp] theorem State.modTherm_mesh (s : State) (g : Nat) (f : ThermSt → ThermSt) : (s.modTherm g f).mesh = s.mesh := rfl
@[simp] theorem State.modTherm_chans (s : State) (g : Nat) (f : ThermSt → ThermSt) : (s.modTherm g f).chans = s.chans := rfl
@[simp] theorem State.modTherm_pkg (s : State) (g : Nat) (f : ThermSt → ThermSt) : (s.modTherm g f).pkg = s.pkg := rfl
@[simp] theorem State.modTherm_belay (s : State) (g : Nat) (f : ThermSt → ThermSt) : (s.modTherm g f).belay = s.belay := rfl
@[simp] theorem State.modTherm_rcv (s : State) (g : Nat) (f : ThermSt → ThermSt) : (s.modTherm g f).rcv = s.rcv := rfl
@[simp] theorem State.modTherm_cairn (s : State) (g : Nat) (f : ThermSt → ThermSt) : (s.modTherm g f).cairn = s.cairn := rfl
@[simp] theorem State.modTherm_pair (s : State) (g : Nat) (f : ThermSt → ThermSt) : (s.modTherm g f).pair = s.pair := rfl
@[simp] theorem State.modTherm_acts (s : State) (g : Nat) (f : ThermSt → ThermSt) : (s.modTherm g f).acts = s.acts := rfl
@[simp] theorem State.modTherm_slots (s : State) (g : Nat) (f : ThermSt → ThermSt) : (s.modTherm g f).slots = s.slots := rfl
@[simp] theorem State.modTherm_kv (s : State) (g : Nat) (f : ThermSt → ThermSt) : (s.modTherm g f).kv = s.kv := rfl
@[simp] theorem State.modTherm_hub (s : State) (g : Nat) (f : ThermSt → ThermSt) : (s.modTherm g f).hub = s.hub := rfl
@[simp] theorem State.modTherm_host (s : State) (g : Nat) (f : ThermSt → ThermSt) : (s.modTherm g f).host = s.host := rfl
@[simp] theorem State.modTherm_rope (s : State) (g : Nat) (f : ThermSt → ThermSt) : (s.modTherm g f).rope = s.rope := rfl
@[simp] theorem State.modTherm_maps (s : State) (g : Nat) (f : ThermSt → ThermSt) : (s.modTherm g f).maps = s.maps := rfl
@[simp] theorem State.modTherm_seq (s : State) (g : Nat) (f : ThermSt → ThermSt) : (s.modTherm g f).seq = s.seq := rfl
@[simp] theorem State.modTherm_power (s : State) (g : Nat) (f : ThermSt → ThermSt) : (s.modTherm g f).power = s.power := rfl
@[simp] theorem State.modTherm_clock (s : State) (g : Nat) (f : ThermSt → ThermSt) : (s.modTherm g f).clock = s.clock := rfl
@[simp] theorem State.modTherm_dor (s : State) (g : Nat) (f : ThermSt → ThermSt) : (s.modTherm g f).dor = s.dor := rfl
@[simp] theorem State.modTherm_tel (s : State) (g : Nat) (f : ThermSt → ThermSt) : (s.modTherm g f).tel = s.tel := rfl
@[simp] theorem State.modTherm_pins (s : State) (g : Nat) (f : ThermSt → ThermSt) : (s.modTherm g f).pins = s.pins := rfl
@[simp] theorem State.modTherm_castGen (s : State) (g : Nat) (f : ThermSt → ThermSt) : (s.modTherm g f).castGen = s.castGen := rfl
@[simp] theorem State.modTherm_castTab (s : State) (g : Nat) (f : ThermSt → ThermSt) : (s.modTherm g f).castTab = s.castTab := rfl
@[simp] theorem State.modTherm_distGen (s : State) (g : Nat) (f : ThermSt → ThermSt) : (s.modTherm g f).distGen = s.distGen := rfl
@[simp] theorem State.modTherm_dist (s : State) (g : Nat) (f : ThermSt → ThermSt) : (s.modTherm g f).dist = s.dist := rfl

/-! `modRcv` changes `rcv` only. -/
@[simp] theorem State.modRcv_pending (s : State) (f : RecSt → RecSt) : (s.modRcv f).pending = s.pending := rfl
@[simp] theorem State.modRcv_now (s : State) (f : RecSt → RecSt) : (s.modRcv f).now = s.now := rfl
@[simp] theorem State.modRcv_freeIdx (s : State) (f : RecSt → RecSt) : (s.modRcv f).freeIdx = s.freeIdx := rfl
@[simp] theorem State.modRcv_out (s : State) (f : RecSt → RecSt) : (s.modRcv f).out = s.out := rfl
@[simp] theorem State.modRcv_regs (s : State) (f : RecSt → RecSt) : (s.modRcv f).regs = s.regs := rfl
@[simp] theorem State.modRcv_mem (s : State) (f : RecSt → RecSt) : (s.modRcv f).mem = s.mem := rfl
@[simp] theorem State.modRcv_cells (s : State) (f : RecSt → RecSt) : (s.modRcv f).cells = s.cells := rfl
@[simp] theorem State.modRcv_banks (s : State) (f : RecSt → RecSt) : (s.modRcv f).banks = s.banks := rfl
@[simp] theorem State.modRcv_mesh (s : State) (f : RecSt → RecSt) : (s.modRcv f).mesh = s.mesh := rfl
@[simp] theorem State.modRcv_chans (s : State) (f : RecSt → RecSt) : (s.modRcv f).chans = s.chans := rfl
@[simp] theorem State.modRcv_pkg (s : State) (f : RecSt → RecSt) : (s.modRcv f).pkg = s.pkg := rfl
@[simp] theorem State.modRcv_belay (s : State) (f : RecSt → RecSt) : (s.modRcv f).belay = s.belay := rfl
@[simp] theorem State.modRcv_rcv (s : State) (f : RecSt → RecSt) : (s.modRcv f).rcv = f s.rcv := rfl
@[simp] theorem State.modRcv_cairn (s : State) (f : RecSt → RecSt) : (s.modRcv f).cairn = s.cairn := rfl
@[simp] theorem State.modRcv_pair (s : State) (f : RecSt → RecSt) : (s.modRcv f).pair = s.pair := rfl
@[simp] theorem State.modRcv_acts (s : State) (f : RecSt → RecSt) : (s.modRcv f).acts = s.acts := rfl
@[simp] theorem State.modRcv_slots (s : State) (f : RecSt → RecSt) : (s.modRcv f).slots = s.slots := rfl
@[simp] theorem State.modRcv_kv (s : State) (f : RecSt → RecSt) : (s.modRcv f).kv = s.kv := rfl
@[simp] theorem State.modRcv_hub (s : State) (f : RecSt → RecSt) : (s.modRcv f).hub = s.hub := rfl
@[simp] theorem State.modRcv_host (s : State) (f : RecSt → RecSt) : (s.modRcv f).host = s.host := rfl
@[simp] theorem State.modRcv_rope (s : State) (f : RecSt → RecSt) : (s.modRcv f).rope = s.rope := rfl
@[simp] theorem State.modRcv_maps (s : State) (f : RecSt → RecSt) : (s.modRcv f).maps = s.maps := rfl
@[simp] theorem State.modRcv_seq (s : State) (f : RecSt → RecSt) : (s.modRcv f).seq = s.seq := rfl
@[simp] theorem State.modRcv_power (s : State) (f : RecSt → RecSt) : (s.modRcv f).power = s.power := rfl
@[simp] theorem State.modRcv_therm (s : State) (f : RecSt → RecSt) : (s.modRcv f).therm = s.therm := rfl
@[simp] theorem State.modRcv_clock (s : State) (f : RecSt → RecSt) : (s.modRcv f).clock = s.clock := rfl
@[simp] theorem State.modRcv_dor (s : State) (f : RecSt → RecSt) : (s.modRcv f).dor = s.dor := rfl
@[simp] theorem State.modRcv_tel (s : State) (f : RecSt → RecSt) : (s.modRcv f).tel = s.tel := rfl
@[simp] theorem State.modRcv_pins (s : State) (f : RecSt → RecSt) : (s.modRcv f).pins = s.pins := rfl
@[simp] theorem State.modRcv_castGen (s : State) (f : RecSt → RecSt) : (s.modRcv f).castGen = s.castGen := rfl
@[simp] theorem State.modRcv_castTab (s : State) (f : RecSt → RecSt) : (s.modRcv f).castTab = s.castTab := rfl
@[simp] theorem State.modRcv_distGen (s : State) (f : RecSt → RecSt) : (s.modRcv f).distGen = s.distGen := rfl
@[simp] theorem State.modRcv_dist (s : State) (f : RecSt → RecSt) : (s.modRcv f).dist = s.dist := rfl

/-! `modRope` changes `rope` only. -/
@[simp] theorem State.modRope_pending (s : State) (f : RopeSt → RopeSt) : (s.modRope f).pending = s.pending := rfl
@[simp] theorem State.modRope_now (s : State) (f : RopeSt → RopeSt) : (s.modRope f).now = s.now := rfl
@[simp] theorem State.modRope_freeIdx (s : State) (f : RopeSt → RopeSt) : (s.modRope f).freeIdx = s.freeIdx := rfl
@[simp] theorem State.modRope_out (s : State) (f : RopeSt → RopeSt) : (s.modRope f).out = s.out := rfl
@[simp] theorem State.modRope_regs (s : State) (f : RopeSt → RopeSt) : (s.modRope f).regs = s.regs := rfl
@[simp] theorem State.modRope_mem (s : State) (f : RopeSt → RopeSt) : (s.modRope f).mem = s.mem := rfl
@[simp] theorem State.modRope_cells (s : State) (f : RopeSt → RopeSt) : (s.modRope f).cells = s.cells := rfl
@[simp] theorem State.modRope_banks (s : State) (f : RopeSt → RopeSt) : (s.modRope f).banks = s.banks := rfl
@[simp] theorem State.modRope_mesh (s : State) (f : RopeSt → RopeSt) : (s.modRope f).mesh = s.mesh := rfl
@[simp] theorem State.modRope_chans (s : State) (f : RopeSt → RopeSt) : (s.modRope f).chans = s.chans := rfl
@[simp] theorem State.modRope_pkg (s : State) (f : RopeSt → RopeSt) : (s.modRope f).pkg = s.pkg := rfl
@[simp] theorem State.modRope_belay (s : State) (f : RopeSt → RopeSt) : (s.modRope f).belay = s.belay := rfl
@[simp] theorem State.modRope_rcv (s : State) (f : RopeSt → RopeSt) : (s.modRope f).rcv = s.rcv := rfl
@[simp] theorem State.modRope_cairn (s : State) (f : RopeSt → RopeSt) : (s.modRope f).cairn = s.cairn := rfl
@[simp] theorem State.modRope_pair (s : State) (f : RopeSt → RopeSt) : (s.modRope f).pair = s.pair := rfl
@[simp] theorem State.modRope_acts (s : State) (f : RopeSt → RopeSt) : (s.modRope f).acts = s.acts := rfl
@[simp] theorem State.modRope_slots (s : State) (f : RopeSt → RopeSt) : (s.modRope f).slots = s.slots := rfl
@[simp] theorem State.modRope_kv (s : State) (f : RopeSt → RopeSt) : (s.modRope f).kv = s.kv := rfl
@[simp] theorem State.modRope_hub (s : State) (f : RopeSt → RopeSt) : (s.modRope f).hub = s.hub := rfl
@[simp] theorem State.modRope_host (s : State) (f : RopeSt → RopeSt) : (s.modRope f).host = s.host := rfl
@[simp] theorem State.modRope_rope (s : State) (f : RopeSt → RopeSt) : (s.modRope f).rope = f s.rope := rfl
@[simp] theorem State.modRope_maps (s : State) (f : RopeSt → RopeSt) : (s.modRope f).maps = s.maps := rfl
@[simp] theorem State.modRope_seq (s : State) (f : RopeSt → RopeSt) : (s.modRope f).seq = s.seq := rfl
@[simp] theorem State.modRope_power (s : State) (f : RopeSt → RopeSt) : (s.modRope f).power = s.power := rfl
@[simp] theorem State.modRope_therm (s : State) (f : RopeSt → RopeSt) : (s.modRope f).therm = s.therm := rfl
@[simp] theorem State.modRope_clock (s : State) (f : RopeSt → RopeSt) : (s.modRope f).clock = s.clock := rfl
@[simp] theorem State.modRope_dor (s : State) (f : RopeSt → RopeSt) : (s.modRope f).dor = s.dor := rfl
@[simp] theorem State.modRope_tel (s : State) (f : RopeSt → RopeSt) : (s.modRope f).tel = s.tel := rfl
@[simp] theorem State.modRope_pins (s : State) (f : RopeSt → RopeSt) : (s.modRope f).pins = s.pins := rfl
@[simp] theorem State.modRope_castGen (s : State) (f : RopeSt → RopeSt) : (s.modRope f).castGen = s.castGen := rfl
@[simp] theorem State.modRope_castTab (s : State) (f : RopeSt → RopeSt) : (s.modRope f).castTab = s.castTab := rfl
@[simp] theorem State.modRope_distGen (s : State) (f : RopeSt → RopeSt) : (s.modRope f).distGen = s.distGen := rfl
@[simp] theorem State.modRope_dist (s : State) (f : RopeSt → RopeSt) : (s.modRope f).dist = s.dist := rfl

/-! `modPortR` changes `rope` only. -/
@[simp] theorem State.modPortR_pending (s : State) (p : Nat) (f : RopePortSt → RopePortSt) : (s.modPortR p f).pending = s.pending := rfl
@[simp] theorem State.modPortR_now (s : State) (p : Nat) (f : RopePortSt → RopePortSt) : (s.modPortR p f).now = s.now := rfl
@[simp] theorem State.modPortR_freeIdx (s : State) (p : Nat) (f : RopePortSt → RopePortSt) : (s.modPortR p f).freeIdx = s.freeIdx := rfl
@[simp] theorem State.modPortR_out (s : State) (p : Nat) (f : RopePortSt → RopePortSt) : (s.modPortR p f).out = s.out := rfl
@[simp] theorem State.modPortR_regs (s : State) (p : Nat) (f : RopePortSt → RopePortSt) : (s.modPortR p f).regs = s.regs := rfl
@[simp] theorem State.modPortR_mem (s : State) (p : Nat) (f : RopePortSt → RopePortSt) : (s.modPortR p f).mem = s.mem := rfl
@[simp] theorem State.modPortR_cells (s : State) (p : Nat) (f : RopePortSt → RopePortSt) : (s.modPortR p f).cells = s.cells := rfl
@[simp] theorem State.modPortR_banks (s : State) (p : Nat) (f : RopePortSt → RopePortSt) : (s.modPortR p f).banks = s.banks := rfl
@[simp] theorem State.modPortR_mesh (s : State) (p : Nat) (f : RopePortSt → RopePortSt) : (s.modPortR p f).mesh = s.mesh := rfl
@[simp] theorem State.modPortR_chans (s : State) (p : Nat) (f : RopePortSt → RopePortSt) : (s.modPortR p f).chans = s.chans := rfl
@[simp] theorem State.modPortR_pkg (s : State) (p : Nat) (f : RopePortSt → RopePortSt) : (s.modPortR p f).pkg = s.pkg := rfl
@[simp] theorem State.modPortR_belay (s : State) (p : Nat) (f : RopePortSt → RopePortSt) : (s.modPortR p f).belay = s.belay := rfl
@[simp] theorem State.modPortR_rcv (s : State) (p : Nat) (f : RopePortSt → RopePortSt) : (s.modPortR p f).rcv = s.rcv := rfl
@[simp] theorem State.modPortR_cairn (s : State) (p : Nat) (f : RopePortSt → RopePortSt) : (s.modPortR p f).cairn = s.cairn := rfl
@[simp] theorem State.modPortR_pair (s : State) (p : Nat) (f : RopePortSt → RopePortSt) : (s.modPortR p f).pair = s.pair := rfl
@[simp] theorem State.modPortR_acts (s : State) (p : Nat) (f : RopePortSt → RopePortSt) : (s.modPortR p f).acts = s.acts := rfl
@[simp] theorem State.modPortR_slots (s : State) (p : Nat) (f : RopePortSt → RopePortSt) : (s.modPortR p f).slots = s.slots := rfl
@[simp] theorem State.modPortR_kv (s : State) (p : Nat) (f : RopePortSt → RopePortSt) : (s.modPortR p f).kv = s.kv := rfl
@[simp] theorem State.modPortR_hub (s : State) (p : Nat) (f : RopePortSt → RopePortSt) : (s.modPortR p f).hub = s.hub := rfl
@[simp] theorem State.modPortR_host (s : State) (p : Nat) (f : RopePortSt → RopePortSt) : (s.modPortR p f).host = s.host := rfl
@[simp] theorem State.modPortR_maps (s : State) (p : Nat) (f : RopePortSt → RopePortSt) : (s.modPortR p f).maps = s.maps := rfl
@[simp] theorem State.modPortR_seq (s : State) (p : Nat) (f : RopePortSt → RopePortSt) : (s.modPortR p f).seq = s.seq := rfl
@[simp] theorem State.modPortR_power (s : State) (p : Nat) (f : RopePortSt → RopePortSt) : (s.modPortR p f).power = s.power := rfl
@[simp] theorem State.modPortR_therm (s : State) (p : Nat) (f : RopePortSt → RopePortSt) : (s.modPortR p f).therm = s.therm := rfl
@[simp] theorem State.modPortR_clock (s : State) (p : Nat) (f : RopePortSt → RopePortSt) : (s.modPortR p f).clock = s.clock := rfl
@[simp] theorem State.modPortR_dor (s : State) (p : Nat) (f : RopePortSt → RopePortSt) : (s.modPortR p f).dor = s.dor := rfl
@[simp] theorem State.modPortR_tel (s : State) (p : Nat) (f : RopePortSt → RopePortSt) : (s.modPortR p f).tel = s.tel := rfl
@[simp] theorem State.modPortR_pins (s : State) (p : Nat) (f : RopePortSt → RopePortSt) : (s.modPortR p f).pins = s.pins := rfl
@[simp] theorem State.modPortR_castGen (s : State) (p : Nat) (f : RopePortSt → RopePortSt) : (s.modPortR p f).castGen = s.castGen := rfl
@[simp] theorem State.modPortR_castTab (s : State) (p : Nat) (f : RopePortSt → RopePortSt) : (s.modPortR p f).castTab = s.castTab := rfl
@[simp] theorem State.modPortR_distGen (s : State) (p : Nat) (f : RopePortSt → RopePortSt) : (s.modPortR p f).distGen = s.distGen := rfl
@[simp] theorem State.modPortR_dist (s : State) (p : Nat) (f : RopePortSt → RopePortSt) : (s.modPortR p f).dist = s.dist := rfl

/-! `modRingR` changes `rope` only. -/
@[simp] theorem State.modRingR_pending (s : State) (i : Nat) (f : RopeRingSt → RopeRingSt) : (s.modRingR i f).pending = s.pending := rfl
@[simp] theorem State.modRingR_now (s : State) (i : Nat) (f : RopeRingSt → RopeRingSt) : (s.modRingR i f).now = s.now := rfl
@[simp] theorem State.modRingR_freeIdx (s : State) (i : Nat) (f : RopeRingSt → RopeRingSt) : (s.modRingR i f).freeIdx = s.freeIdx := rfl
@[simp] theorem State.modRingR_out (s : State) (i : Nat) (f : RopeRingSt → RopeRingSt) : (s.modRingR i f).out = s.out := rfl
@[simp] theorem State.modRingR_regs (s : State) (i : Nat) (f : RopeRingSt → RopeRingSt) : (s.modRingR i f).regs = s.regs := rfl
@[simp] theorem State.modRingR_mem (s : State) (i : Nat) (f : RopeRingSt → RopeRingSt) : (s.modRingR i f).mem = s.mem := rfl
@[simp] theorem State.modRingR_cells (s : State) (i : Nat) (f : RopeRingSt → RopeRingSt) : (s.modRingR i f).cells = s.cells := rfl
@[simp] theorem State.modRingR_banks (s : State) (i : Nat) (f : RopeRingSt → RopeRingSt) : (s.modRingR i f).banks = s.banks := rfl
@[simp] theorem State.modRingR_mesh (s : State) (i : Nat) (f : RopeRingSt → RopeRingSt) : (s.modRingR i f).mesh = s.mesh := rfl
@[simp] theorem State.modRingR_chans (s : State) (i : Nat) (f : RopeRingSt → RopeRingSt) : (s.modRingR i f).chans = s.chans := rfl
@[simp] theorem State.modRingR_pkg (s : State) (i : Nat) (f : RopeRingSt → RopeRingSt) : (s.modRingR i f).pkg = s.pkg := rfl
@[simp] theorem State.modRingR_belay (s : State) (i : Nat) (f : RopeRingSt → RopeRingSt) : (s.modRingR i f).belay = s.belay := rfl
@[simp] theorem State.modRingR_rcv (s : State) (i : Nat) (f : RopeRingSt → RopeRingSt) : (s.modRingR i f).rcv = s.rcv := rfl
@[simp] theorem State.modRingR_cairn (s : State) (i : Nat) (f : RopeRingSt → RopeRingSt) : (s.modRingR i f).cairn = s.cairn := rfl
@[simp] theorem State.modRingR_pair (s : State) (i : Nat) (f : RopeRingSt → RopeRingSt) : (s.modRingR i f).pair = s.pair := rfl
@[simp] theorem State.modRingR_acts (s : State) (i : Nat) (f : RopeRingSt → RopeRingSt) : (s.modRingR i f).acts = s.acts := rfl
@[simp] theorem State.modRingR_slots (s : State) (i : Nat) (f : RopeRingSt → RopeRingSt) : (s.modRingR i f).slots = s.slots := rfl
@[simp] theorem State.modRingR_kv (s : State) (i : Nat) (f : RopeRingSt → RopeRingSt) : (s.modRingR i f).kv = s.kv := rfl
@[simp] theorem State.modRingR_hub (s : State) (i : Nat) (f : RopeRingSt → RopeRingSt) : (s.modRingR i f).hub = s.hub := rfl
@[simp] theorem State.modRingR_host (s : State) (i : Nat) (f : RopeRingSt → RopeRingSt) : (s.modRingR i f).host = s.host := rfl
@[simp] theorem State.modRingR_maps (s : State) (i : Nat) (f : RopeRingSt → RopeRingSt) : (s.modRingR i f).maps = s.maps := rfl
@[simp] theorem State.modRingR_seq (s : State) (i : Nat) (f : RopeRingSt → RopeRingSt) : (s.modRingR i f).seq = s.seq := rfl
@[simp] theorem State.modRingR_power (s : State) (i : Nat) (f : RopeRingSt → RopeRingSt) : (s.modRingR i f).power = s.power := rfl
@[simp] theorem State.modRingR_therm (s : State) (i : Nat) (f : RopeRingSt → RopeRingSt) : (s.modRingR i f).therm = s.therm := rfl
@[simp] theorem State.modRingR_clock (s : State) (i : Nat) (f : RopeRingSt → RopeRingSt) : (s.modRingR i f).clock = s.clock := rfl
@[simp] theorem State.modRingR_dor (s : State) (i : Nat) (f : RopeRingSt → RopeRingSt) : (s.modRingR i f).dor = s.dor := rfl
@[simp] theorem State.modRingR_tel (s : State) (i : Nat) (f : RopeRingSt → RopeRingSt) : (s.modRingR i f).tel = s.tel := rfl
@[simp] theorem State.modRingR_pins (s : State) (i : Nat) (f : RopeRingSt → RopeRingSt) : (s.modRingR i f).pins = s.pins := rfl
@[simp] theorem State.modRingR_castGen (s : State) (i : Nat) (f : RopeRingSt → RopeRingSt) : (s.modRingR i f).castGen = s.castGen := rfl
@[simp] theorem State.modRingR_castTab (s : State) (i : Nat) (f : RopeRingSt → RopeRingSt) : (s.modRingR i f).castTab = s.castTab := rfl
@[simp] theorem State.modRingR_distGen (s : State) (i : Nat) (f : RopeRingSt → RopeRingSt) : (s.modRingR i f).distGen = s.distGen := rfl
@[simp] theorem State.modRingR_dist (s : State) (i : Nat) (f : RopeRingSt → RopeRingSt) : (s.modRingR i f).dist = s.dist := rfl

/-! ### Cells, endpoints, crossings, channels and slots after their updates -/

@[simp] theorem State.cell_modCell_self (s : State) (c : Nat) (f : CellSt → CellSt) : (s.modCell c f).cell c = f (s.cell c) := by
  simp [State.cell]

theorem State.cell_modCell_ne (s : State) {c d : Nat} (f : CellSt → CellSt) (h : d ≠ c) : (s.modCell c f).cell d = s.cell d := by
  simp [State.cell, SMap.getD_put_ne _ _ _ h]

@[simp] theorem State.ep_modEp_self (s : State) (c n : Nat) (f : EpSt → EpSt) : (s.modEp c n f).ep c n = f (s.ep c n) := by
  simp [State.ep, State.modEp]

theorem State.ep_modEp_ne (s : State) {c n m : Nat} (f : EpSt → EpSt) (h : m ≠ n) : (s.modEp c n f).ep c m = s.ep c m := by
  simp [State.ep, State.modEp, SMap.getD_put_ne _ _ _ h]

@[simp] theorem State.aux_modAux_self (s : State) (c n : Nat) (f : EpAux → EpAux) : (s.modAux c n f).aux c n = f (s.aux c n) := by
  simp [State.aux, State.modAux]

@[simp] theorem State.xr_modXr_self (s : State) (b : Nat) (f : XrSt → XrSt) : (s.modXr b f).xr b = f (s.xr b) := by
  simp [State.xr, State.modXr]

theorem State.xr_modXr_ne (s : State) {b d : Nat} (f : XrSt → XrSt) (h : d ≠ b) : (s.modXr b f).xr d = s.xr d := by
  simp [State.xr, State.modXr, SMap.getD_put_ne _ _ _ h]

@[simp] theorem State.wire_modWire_self (s : State) (k : Nat) (f : WireSt → WireSt) : (s.modWire k f).wire k = f (s.wire k) := by
  simp [State.wire, State.modWire]

@[simp] theorem State.tp_modTp_self (s : State) (b : Nat) (h : Bool) (f : TpSt → TpSt) : (s.modTp b h f).tp b h = f (s.tp b h) := by
  simp [State.tp, State.modTp]

@[simp] theorem State.bank_modBank_self (s : State) (c k : Nat) (f : BankSt → BankSt) : (s.modBank c k f).bank c k = f (s.bank c k) := by
  simp [State.bank, State.modBank]

@[simp] theorem State.chan_modChan_self (s : State) (i : Nat) (f : ChanSt → ChanSt) : (s.modChan i f).chan i = f (s.chan i) := by
  simp [State.chan, State.modChan]

theorem State.chan_modChan_ne (s : State) {i j : Nat} (f : ChanSt → ChanSt) (h : j ≠ i) : (s.modChan i f).chan j = s.chan j := by
  simp [State.chan, State.modChan, SMap.getD_put_ne _ _ _ h]

@[simp] theorem State.slot_modSlot_self (s : State) (n : Nat) (f : SlotSt → SlotSt) : (s.modSlot n f).slot n = f (s.slot n) := by
  simp [State.slot, State.modSlot]

theorem State.slot_modSlot_ne (s : State) {n m : Nat} (f : SlotSt → SlotSt) (h : m ≠ n) : (s.modSlot n f).slot m = s.slot m := by
  simp [State.slot, State.modSlot, SMap.getD_put_ne _ _ _ h]

@[simp] theorem State.ring_modRing_self (s : State) (i : Nat) (f : RingSt → RingSt) : (s.modRing i f).ring i = f (s.ring i) := by
  simp [State.ring, State.modRing]

@[simp] theorem State.mb_modMb_self (s : State) (n : Nat) (f : MbSt → MbSt) : (s.modMb n f).mb n = f (s.mb n) := by
  simp [State.mb, State.modMb]

@[simp] theorem State.porter_modPorter_self (s : State) (p : Nat) (f : PorterSt → PorterSt) : (s.modPorter p f).porter p = f (s.porter p) := by
  simp [State.porter, State.modPorter]

@[simp] theorem State.res_modRes_self (s : State) (r : Nat) (f : ResSt → ResSt) : (s.modRes r f).res r = f (s.res r) := by
  simp [State.res, State.modRes]

@[simp] theorem State.thermal_modTherm_self (s : State) (g : Nat) (f : ThermSt → ThermSt) : (s.modTherm g f).thermal g = f (s.thermal g) := by
  simp [State.thermal, State.modTherm]

@[simp] theorem State.rport_modPortR_self (s : State) (p : Nat) (f : RopePortSt → RopePortSt) : (s.modPortR p f).rport p = f (s.rport p) := by
  simp [State.rport, State.modPortR]

@[simp] theorem State.rring_modRingR_self (s : State) (i : Nat) (f : RopeRingSt → RopeRingSt) : (s.modRingR i f).rring i = f (s.rring i) := by
  simp [State.rring, State.modRingR]

/-! ### Registers -/

/-- A written register reads as what was written, modulo 2^64. -/
@[simp] theorem State.reg_setReg_self (s : State) (o v : Nat) : (s.setReg o v).reg o = v % 2 ^ 64 := by
  simp [State.reg, State.setReg, SMap.upd]

/-- No other register changes. -/
theorem State.reg_setReg_ne (s : State) {o p : Nat} (v : Nat) (h : p ≠ o) : (s.setReg o v).reg p = s.reg p := by
  by_cases e : p / 65536 = o / 65536
  · simp [State.reg, State.setReg, SMap.upd, e, SMap.get?_put_ne _ _ h]
  · simp [State.reg, State.setReg, SMap.upd, SMap.getD_put_ne _ _ _ e]

theorem State.reg_set_ne (s : State) (f : RF) (v : Nat) {o : Nat} (h : o ≠ f.off) : (s.set f v).reg o = s.reg o :=
  s.reg_setReg_ne _ h

/-- A written field reads as what was written, modulo its width. -/
theorem State.get_set_self (s : State) (f : RF) (v : Nat) (h : f.lo + f.w ≤ 64) : (s.set f v).get f = v % 2 ^ f.w := by
  simp only [State.get, State.set, State.reg_setReg_self]
  rw [bits_mod_64 _ _ _ h, bits_setBits_self]

/-- A field of another register stays. -/
theorem State.get_set_ne (s : State) {f g : RF} (v : Nat) (h : g.off ≠ f.off) : (s.set f v).get g = s.get g := by
  simp only [State.get, s.reg_set_ne f v h]

/-- A field of other bits of the register stays. -/
theorem State.get_set_disjoint (s : State) {f g : RF} (v : Nat) (h : g.off = f.off) (h64 : g.lo + g.w ≤ 64)
    (hd : g.lo + g.w ≤ f.lo ∨ f.lo + f.w ≤ g.lo) : (s.set f v).get g = s.get g := by
  simp only [State.get, State.set, h, State.reg_setReg_self]
  rw [bits_mod_64 _ _ _ h64, bits_setBits_disjoint _ _ _ _ _ _ hd]

/-- A list of fields written: every part of the state but the registers stays. -/
theorem State.sets_eq (s : State) (fs : List (RF × Nat)) : s.sets fs = { s with regs := (s.sets fs).regs } := by
  induction fs generalizing s with
  | nil => rfl
  | cons p fs ih => exact ih (s.set p.1 p.2)

@[simp] theorem State.sets_pending (s : State) (fs : List (RF × Nat)) : (s.sets fs).pending = s.pending := by rw [State.sets_eq]
@[simp] theorem State.sets_now (s : State) (fs : List (RF × Nat)) : (s.sets fs).now = s.now := by rw [State.sets_eq]
@[simp] theorem State.sets_freeIdx (s : State) (fs : List (RF × Nat)) : (s.sets fs).freeIdx = s.freeIdx := by rw [State.sets_eq]
@[simp] theorem State.sets_out (s : State) (fs : List (RF × Nat)) : (s.sets fs).out = s.out := by rw [State.sets_eq]
@[simp] theorem State.sets_mem (s : State) (fs : List (RF × Nat)) : (s.sets fs).mem = s.mem := by rw [State.sets_eq]
@[simp] theorem State.sets_cells (s : State) (fs : List (RF × Nat)) : (s.sets fs).cells = s.cells := by rw [State.sets_eq]
@[simp] theorem State.sets_banks (s : State) (fs : List (RF × Nat)) : (s.sets fs).banks = s.banks := by rw [State.sets_eq]
@[simp] theorem State.sets_mesh (s : State) (fs : List (RF × Nat)) : (s.sets fs).mesh = s.mesh := by rw [State.sets_eq]
@[simp] theorem State.sets_chans (s : State) (fs : List (RF × Nat)) : (s.sets fs).chans = s.chans := by rw [State.sets_eq]
@[simp] theorem State.sets_pkg (s : State) (fs : List (RF × Nat)) : (s.sets fs).pkg = s.pkg := by rw [State.sets_eq]
@[simp] theorem State.sets_belay (s : State) (fs : List (RF × Nat)) : (s.sets fs).belay = s.belay := by rw [State.sets_eq]
@[simp] theorem State.sets_rcv (s : State) (fs : List (RF × Nat)) : (s.sets fs).rcv = s.rcv := by rw [State.sets_eq]
@[simp] theorem State.sets_cairn (s : State) (fs : List (RF × Nat)) : (s.sets fs).cairn = s.cairn := by rw [State.sets_eq]
@[simp] theorem State.sets_pair (s : State) (fs : List (RF × Nat)) : (s.sets fs).pair = s.pair := by rw [State.sets_eq]
@[simp] theorem State.sets_acts (s : State) (fs : List (RF × Nat)) : (s.sets fs).acts = s.acts := by rw [State.sets_eq]
@[simp] theorem State.sets_slots (s : State) (fs : List (RF × Nat)) : (s.sets fs).slots = s.slots := by rw [State.sets_eq]
@[simp] theorem State.sets_kv (s : State) (fs : List (RF × Nat)) : (s.sets fs).kv = s.kv := by rw [State.sets_eq]
@[simp] theorem State.sets_hub (s : State) (fs : List (RF × Nat)) : (s.sets fs).hub = s.hub := by rw [State.sets_eq]
@[simp] theorem State.sets_host (s : State) (fs : List (RF × Nat)) : (s.sets fs).host = s.host := by rw [State.sets_eq]
@[simp] theorem State.sets_rope (s : State) (fs : List (RF × Nat)) : (s.sets fs).rope = s.rope := by rw [State.sets_eq]
@[simp] theorem State.sets_maps (s : State) (fs : List (RF × Nat)) : (s.sets fs).maps = s.maps := by rw [State.sets_eq]
@[simp] theorem State.sets_seq (s : State) (fs : List (RF × Nat)) : (s.sets fs).seq = s.seq := by rw [State.sets_eq]
@[simp] theorem State.sets_power (s : State) (fs : List (RF × Nat)) : (s.sets fs).power = s.power := by rw [State.sets_eq]
@[simp] theorem State.sets_therm (s : State) (fs : List (RF × Nat)) : (s.sets fs).therm = s.therm := by rw [State.sets_eq]
@[simp] theorem State.sets_clock (s : State) (fs : List (RF × Nat)) : (s.sets fs).clock = s.clock := by rw [State.sets_eq]
@[simp] theorem State.sets_dor (s : State) (fs : List (RF × Nat)) : (s.sets fs).dor = s.dor := by rw [State.sets_eq]
@[simp] theorem State.sets_tel (s : State) (fs : List (RF × Nat)) : (s.sets fs).tel = s.tel := by rw [State.sets_eq]
@[simp] theorem State.sets_pins (s : State) (fs : List (RF × Nat)) : (s.sets fs).pins = s.pins := by rw [State.sets_eq]
@[simp] theorem State.sets_castGen (s : State) (fs : List (RF × Nat)) : (s.sets fs).castGen = s.castGen := by rw [State.sets_eq]
@[simp] theorem State.sets_castTab (s : State) (fs : List (RF × Nat)) : (s.sets fs).castTab = s.castTab := by rw [State.sets_eq]
@[simp] theorem State.sets_distGen (s : State) (fs : List (RF × Nat)) : (s.sets fs).distGen = s.distGen := by rw [State.sets_eq]
@[simp] theorem State.sets_dist (s : State) (fs : List (RF × Nat)) : (s.sets fs).dist = s.dist := by rw [State.sets_eq]

/-- Registers outside a list of written fields stay. -/
theorem State.reg_sets_ne (s : State) (fs : List (RF × Nat)) {o : Nat} (h : ∀ p ∈ fs, o ≠ p.1.off) : (s.sets fs).reg o = s.reg o := by
  induction fs generalizing s with
  | nil => rfl
  | cons p fs ih =>
    have hp := h p (List.mem_cons_self ..)
    have ht := ih (s.set p.1 p.2) fun q hq => h q (List.mem_cons_of_mem _ hq)
    exact ht.trans (s.reg_set_ne p.1 p.2 hp)

/-- A raised event changes registers and outputs only. -/
theorem State.raise_eq (s : State) (e : Ev) : s.raise e = { s with regs := (s.raise e).regs, out := (s.raise e).out } := by
  simp only [State.raise]
  split_ifs <;> rfl

@[simp] theorem State.raise_pending (s : State) (e : Ev) : (s.raise e).pending = s.pending := by rw [State.raise_eq]
@[simp] theorem State.raise_now (s : State) (e : Ev) : (s.raise e).now = s.now := by rw [State.raise_eq]
@[simp] theorem State.raise_freeIdx (s : State) (e : Ev) : (s.raise e).freeIdx = s.freeIdx := by rw [State.raise_eq]
@[simp] theorem State.raise_mem (s : State) (e : Ev) : (s.raise e).mem = s.mem := by rw [State.raise_eq]
@[simp] theorem State.raise_cells (s : State) (e : Ev) : (s.raise e).cells = s.cells := by rw [State.raise_eq]
@[simp] theorem State.raise_banks (s : State) (e : Ev) : (s.raise e).banks = s.banks := by rw [State.raise_eq]
@[simp] theorem State.raise_mesh (s : State) (e : Ev) : (s.raise e).mesh = s.mesh := by rw [State.raise_eq]
@[simp] theorem State.raise_chans (s : State) (e : Ev) : (s.raise e).chans = s.chans := by rw [State.raise_eq]
@[simp] theorem State.raise_pkg (s : State) (e : Ev) : (s.raise e).pkg = s.pkg := by rw [State.raise_eq]
@[simp] theorem State.raise_belay (s : State) (e : Ev) : (s.raise e).belay = s.belay := by rw [State.raise_eq]
@[simp] theorem State.raise_rcv (s : State) (e : Ev) : (s.raise e).rcv = s.rcv := by rw [State.raise_eq]
@[simp] theorem State.raise_cairn (s : State) (e : Ev) : (s.raise e).cairn = s.cairn := by rw [State.raise_eq]
@[simp] theorem State.raise_pair (s : State) (e : Ev) : (s.raise e).pair = s.pair := by rw [State.raise_eq]
@[simp] theorem State.raise_acts (s : State) (e : Ev) : (s.raise e).acts = s.acts := by rw [State.raise_eq]
@[simp] theorem State.raise_slots (s : State) (e : Ev) : (s.raise e).slots = s.slots := by rw [State.raise_eq]
@[simp] theorem State.raise_kv (s : State) (e : Ev) : (s.raise e).kv = s.kv := by rw [State.raise_eq]
@[simp] theorem State.raise_hub (s : State) (e : Ev) : (s.raise e).hub = s.hub := by rw [State.raise_eq]
@[simp] theorem State.raise_host (s : State) (e : Ev) : (s.raise e).host = s.host := by rw [State.raise_eq]
@[simp] theorem State.raise_rope (s : State) (e : Ev) : (s.raise e).rope = s.rope := by rw [State.raise_eq]
@[simp] theorem State.raise_maps (s : State) (e : Ev) : (s.raise e).maps = s.maps := by rw [State.raise_eq]
@[simp] theorem State.raise_seq (s : State) (e : Ev) : (s.raise e).seq = s.seq := by rw [State.raise_eq]
@[simp] theorem State.raise_power (s : State) (e : Ev) : (s.raise e).power = s.power := by rw [State.raise_eq]
@[simp] theorem State.raise_therm (s : State) (e : Ev) : (s.raise e).therm = s.therm := by rw [State.raise_eq]
@[simp] theorem State.raise_clock (s : State) (e : Ev) : (s.raise e).clock = s.clock := by rw [State.raise_eq]
@[simp] theorem State.raise_dor (s : State) (e : Ev) : (s.raise e).dor = s.dor := by rw [State.raise_eq]
@[simp] theorem State.raise_tel (s : State) (e : Ev) : (s.raise e).tel = s.tel := by rw [State.raise_eq]
@[simp] theorem State.raise_pins (s : State) (e : Ev) : (s.raise e).pins = s.pins := by rw [State.raise_eq]
@[simp] theorem State.raise_castGen (s : State) (e : Ev) : (s.raise e).castGen = s.castGen := by rw [State.raise_eq]
@[simp] theorem State.raise_castTab (s : State) (e : Ev) : (s.raise e).castTab = s.castTab := by rw [State.raise_eq]
@[simp] theorem State.raise_distGen (s : State) (e : Ev) : (s.raise e).distGen = s.distGen := by rw [State.raise_eq]
@[simp] theorem State.raise_dist (s : State) (e : Ev) : (s.raise e).dist = s.dist := by rw [State.raise_eq]

/-- A transition changes registers and outputs only. -/
theorem State.goto_eq (s : State) (p : PState) : s.goto p = { s with regs := (s.goto p).regs, out := (s.goto p).out } := by
  unfold State.goto
  rw [State.raise_eq]
  rfl

@[simp] theorem State.goto_pending (s : State) (p : PState) : (s.goto p).pending = s.pending := by rw [State.goto_eq]
@[simp] theorem State.goto_now (s : State) (p : PState) : (s.goto p).now = s.now := by rw [State.goto_eq]
@[simp] theorem State.goto_freeIdx (s : State) (p : PState) : (s.goto p).freeIdx = s.freeIdx := by rw [State.goto_eq]
@[simp] theorem State.goto_mem (s : State) (p : PState) : (s.goto p).mem = s.mem := by rw [State.goto_eq]
@[simp] theorem State.goto_cells (s : State) (p : PState) : (s.goto p).cells = s.cells := by rw [State.goto_eq]
@[simp] theorem State.goto_banks (s : State) (p : PState) : (s.goto p).banks = s.banks := by rw [State.goto_eq]
@[simp] theorem State.goto_mesh (s : State) (p : PState) : (s.goto p).mesh = s.mesh := by rw [State.goto_eq]
@[simp] theorem State.goto_chans (s : State) (p : PState) : (s.goto p).chans = s.chans := by rw [State.goto_eq]
@[simp] theorem State.goto_pkg (s : State) (p : PState) : (s.goto p).pkg = s.pkg := by rw [State.goto_eq]
@[simp] theorem State.goto_belay (s : State) (p : PState) : (s.goto p).belay = s.belay := by rw [State.goto_eq]
@[simp] theorem State.goto_rcv (s : State) (p : PState) : (s.goto p).rcv = s.rcv := by rw [State.goto_eq]
@[simp] theorem State.goto_cairn (s : State) (p : PState) : (s.goto p).cairn = s.cairn := by rw [State.goto_eq]
@[simp] theorem State.goto_pair (s : State) (p : PState) : (s.goto p).pair = s.pair := by rw [State.goto_eq]
@[simp] theorem State.goto_acts (s : State) (p : PState) : (s.goto p).acts = s.acts := by rw [State.goto_eq]
@[simp] theorem State.goto_slots (s : State) (p : PState) : (s.goto p).slots = s.slots := by rw [State.goto_eq]
@[simp] theorem State.goto_kv (s : State) (p : PState) : (s.goto p).kv = s.kv := by rw [State.goto_eq]
@[simp] theorem State.goto_hub (s : State) (p : PState) : (s.goto p).hub = s.hub := by rw [State.goto_eq]
@[simp] theorem State.goto_host (s : State) (p : PState) : (s.goto p).host = s.host := by rw [State.goto_eq]
@[simp] theorem State.goto_rope (s : State) (p : PState) : (s.goto p).rope = s.rope := by rw [State.goto_eq]
@[simp] theorem State.goto_maps (s : State) (p : PState) : (s.goto p).maps = s.maps := by rw [State.goto_eq]
@[simp] theorem State.goto_seq (s : State) (p : PState) : (s.goto p).seq = s.seq := by rw [State.goto_eq]
@[simp] theorem State.goto_power (s : State) (p : PState) : (s.goto p).power = s.power := by rw [State.goto_eq]
@[simp] theorem State.goto_therm (s : State) (p : PState) : (s.goto p).therm = s.therm := by rw [State.goto_eq]
@[simp] theorem State.goto_clock (s : State) (p : PState) : (s.goto p).clock = s.clock := by rw [State.goto_eq]
@[simp] theorem State.goto_dor (s : State) (p : PState) : (s.goto p).dor = s.dor := by rw [State.goto_eq]
@[simp] theorem State.goto_tel (s : State) (p : PState) : (s.goto p).tel = s.tel := by rw [State.goto_eq]
@[simp] theorem State.goto_pins (s : State) (p : PState) : (s.goto p).pins = s.pins := by rw [State.goto_eq]
@[simp] theorem State.goto_castGen (s : State) (p : PState) : (s.goto p).castGen = s.castGen := by rw [State.goto_eq]
@[simp] theorem State.goto_castTab (s : State) (p : PState) : (s.goto p).castTab = s.castTab := by rw [State.goto_eq]
@[simp] theorem State.goto_distGen (s : State) (p : PState) : (s.goto p).distGen = s.distGen := by rw [State.goto_eq]
@[simp] theorem State.goto_dist (s : State) (p : PState) : (s.goto p).dist = s.dist := by rw [State.goto_eq]

end Sys2Proof.Machine
end

