-- ==== Sys2Proof/Laws/Memory.lean ====
section
/-! SUPPORT. Laws of the memory list: what is read after a write and after an erase, and that every memory operation keeps the
canonical form. -/

namespace Sys2Proof.Machine

/-- The canonical form, as a property of the entries and of their order. -/
theorem Mem.sorted_iff (m : List Host.Cell) : Mem.sorted m = true ↔ (∀ p ∈ m, p.2 ≠ 0) ∧ m.Pairwise (·.1 < ·.1) := by
  induction m with
  | nil => simp [Mem.sorted]
  | cons p m ih =>
    cases m with
    | nil => simp [Mem.sorted]
    | cons q m =>
      simp only [Mem.sorted, Bool.and_eq_true, bne_iff_ne, ne_eq, decide_eq_true_eq, ih, List.mem_cons, List.pairwise_cons, forall_eq_or_imp]
      constructor
      · rintro ⟨⟨hp, hpq⟩, ⟨hq, hm⟩, hqm, hs⟩
        exact ⟨⟨hp, hq, hm⟩, ⟨hpq, fun r hr => Nat.lt_trans hpq (hqm r hr)⟩, hqm, hs⟩
      · rintro ⟨⟨hp, hq, hm⟩, ⟨hpq, _⟩, hqm, hs⟩
        exact ⟨⟨hp, hpq⟩, ⟨hq, hm⟩, hqm, hs⟩

/-- Reset memory lists nothing. -/
theorem Memory.wf_reset : Memory.wf State.reset.mem = true := rfl

/-- Removing an address keeps the entries that are left, in order. -/
theorem SMap.del_sublist {α : Type} (m : SMap α) (a : Nat) : (SMap.del m a).Sublist m := by
  induction m with
  | nil => exact List.Sublist.slnil
  | cons p m ih =>
    by_cases h : p.1 = a
    · simpa [SMap.del, h] using ih.cons p
    · simpa [SMap.del, h] using ih.cons_cons p

/-- Nothing is left at a removed key. -/
theorem SMap.ne_of_mem_del {α : Type} (m : SMap α) (a : Nat) : ∀ p ∈ SMap.del m a, p.1 ≠ a := by
  induction m with
  | nil => simp [SMap.del]
  | cons p m ih =>
    by_cases h : p.1 = a
    · simpa [SMap.del, h] using ih
    · simpa [SMap.del, h] using ih

theorem SMap.mem_ins {α : Type} (m : SMap α) (a : Nat) (x : α) (p : Nat × α) : p ∈ SMap.ins m a x ↔ p = (a, x) ∨ p ∈ m := by
  induction m with
  | nil => simp [SMap.ins]
  | cons q m ih =>
    by_cases h : q.1 < a
    · simp only [SMap.ins, h, if_true, List.mem_cons, ih]; tauto
    · simp [SMap.ins, h]

/-- An insertion of a new key keeps the keys strictly rising. -/
theorem SMap.pairwise_ins {α : Type} (m : SMap α) (a : Nat) (x : α) (hs : m.Pairwise (·.1 < ·.1)) (hn : ∀ p ∈ m, p.1 ≠ a) :
    (SMap.ins m a x).Pairwise (·.1 < ·.1) := by
  induction m with
  | nil => simp [SMap.ins]
  | cons q m ih =>
    rw [List.pairwise_cons] at hs
    by_cases h : q.1 < a
    · simp only [SMap.ins, h, if_true, List.pairwise_cons]
      refine ⟨fun p hp => ?_, ih hs.2 fun p hp => hn p (List.mem_cons_of_mem _ hp)⟩
      rcases (SMap.mem_ins m a x p).1 hp with rfl | hp
      · exact h
      · exact hs.1 p hp
    · have hq : q.1 ≠ a := hn q (List.mem_cons_self ..)
      simp only [SMap.ins, h, if_false, List.pairwise_cons, List.mem_cons, forall_eq_or_imp]
      exact ⟨⟨by omega, fun p hp => by have := hs.1 p hp; omega⟩, hs.1, hs.2⟩

/-- A byte written keeps the canonical form. -/
theorem Mem.sorted_put (m : List Host.Cell) (a : Nat) (v : Byte) (h : Mem.sorted m = true) : Mem.sorted (Mem.put m a v) = true := by
  rw [Mem.sorted_iff] at h ⊢
  have hs := SMap.del_sublist m a
  have hd : (∀ p ∈ SMap.del m a, p.2 ≠ 0) ∧ (SMap.del m a).Pairwise (·.1 < ·.1) := ⟨fun p hp => h.1 p (hs.subset hp), h.2.sublist hs⟩
  unfold Mem.put
  split
  · exact hd
  · rename_i hv
    refine ⟨fun p hp => ?_, SMap.pairwise_ins _ a v hd.2 (SMap.ne_of_mem_del m a)⟩
    rcases (SMap.mem_ins _ a v p).1 hp with rfl | hp
    · exact hv
    · exact hd.1 p hp

/-- Bytes written keep the canonical form. -/
theorem Mem.sorted_write (bs : List Byte) (m : List Host.Cell) (a : Nat) (h : Mem.sorted m = true) : Mem.sorted (Mem.write m a bs) = true := by
  induction bs generalizing m a with
  | nil => exact h
  | cons b bs ih => exact ih _ _ (Mem.sorted_put m a b h)

/-- An erase keeps the canonical form. -/
theorem Mem.sorted_clear (m : List Host.Cell) (lo hi : Nat) (h : Mem.sorted m = true) : Mem.sorted (Mem.clear m lo hi) = true := by
  rw [Mem.sorted_iff] at h ⊢
  exact ⟨fun p hp => h.1 p (List.mem_of_mem_filter hp), h.2.sublist List.filter_sublist⟩

/-- A byte reads as it was written. -/
@[simp] theorem Mem.get_put_self (m : List Host.Cell) (a : Nat) (v : Byte) : Mem.get (Mem.put m a v) a = v := by
  unfold Mem.put
  split
  · rename_i h; simp [Mem.get, h]
  · simp [Mem.get]

/-- A write of one byte leaves every other. -/
theorem Mem.get_put_ne (m : List Host.Cell) {a b : Nat} (v : Byte) (h : b ≠ a) : Mem.get (Mem.put m a v) b = Mem.get m b := by
  unfold Mem.put
  split
  · exact SMap.getD_del_ne m 0 h
  · exact SMap.getD_put_ne m v 0 h

/-- A write of several bytes leaves the addresses outside its run. -/
theorem Mem.get_write_out (bs : List Byte) (m : List Host.Cell) {a x : Nat} (h : x < a ∨ a + bs.length ≤ x) :
    Mem.get (Mem.write m a bs) x = Mem.get m x := by
  induction bs generalizing m a with
  | nil => rfl
  | cons b bs ih =>
    simp only [List.length_cons] at h
    rw [Mem.write, ih _ (by omega), Mem.get_put_ne _ _ (by omega)]

/-- Each byte of a run reads as it was written. -/
theorem Mem.get_write_in (bs : List Byte) (m : List Host.Cell) (a k : Nat) (h : k < bs.length) :
    Mem.get (Mem.write m a bs) (a + k) = bs[k] := by
  induction bs generalizing m a k with
  | nil => simp at h
  | cons b bs ih =>
    cases k with
    | zero => rw [Mem.write, Mem.get_write_out _ _ (by omega)]; simp
    | succ k =>
      have e : a + (k + 1) = a + 1 + k := by omega
      have hk : k < bs.length := by simpa using h
      simpa [Mem.write, e] using ih (Mem.put m a b) (a + 1) k hk

/-- An erased run reads 0. -/
theorem Mem.get_clear_in (m : List Host.Cell) (lo hi x : Nat) (h : lo ≤ x ∧ x < hi) : Mem.get (Mem.clear m lo hi) x = 0 := by
  induction m with
  | nil => rfl
  | cons p m ih =>
    simp only [Mem.clear, List.filter_cons] at *
    split
    · rename_i hp
      have : p.1 ≠ x := by rintro rfl; simp at hp; omega
      simpa [Mem.get, SMap.getD, SMap.get?, this] using ih
    · exact ih

/-- An erase leaves the addresses outside its run. -/
theorem Mem.get_clear_out (m : List Host.Cell) (lo hi x : Nat) (h : x < lo ∨ hi ≤ x) : Mem.get (Mem.clear m lo hi) x = Mem.get m x := by
  induction m with
  | nil => rfl
  | cons p m ih =>
    simp only [Mem.clear, List.filter_cons] at *
    split
    · by_cases e : p.1 = x <;> simp_all [Mem.get, SMap.getD, SMap.get?]
    · rename_i hp
      have : p.1 ≠ x := by rintro rfl; simp at hp; omega
      simpa [Mem.get, SMap.getD, SMap.get?, this] using ih

/-! ### The state's memory -/

/-- Bytes written to the device address space keep the canonical form. -/
theorem State.wf_writeBytes (s : State) (a : Nat) (bs : List Byte) (h : Memory.wf s.mem = true) : Memory.wf (s.writeBytes a bs).mem = true :=
  Mem.sorted_write bs _ a h

/-- A zeroed run keeps the canonical form. -/
theorem State.wf_clearMem (s : State) (lo hi : Nat) (h : Memory.wf s.mem = true) : Memory.wf (s.clearMem lo hi).mem = true :=
  Mem.sorted_clear _ lo hi h

/-- A byte outside a written run stays. -/
theorem State.byte_writeBytes_out (s : State) {a x : Nat} (bs : List Byte) (h : x < a ∨ a + bs.length ≤ x) :
    (s.writeBytes a bs).byte x = s.byte x :=
  Mem.get_write_out bs _ h

/-- A byte of a written run. -/
theorem State.byte_writeBytes_in (s : State) (a k : Nat) (bs : List Byte) (h : k < bs.length) : (s.writeBytes a bs).byte (a + k) = bs[k] :=
  Mem.get_write_in bs _ a k h

theorem State.byte_clearMem_in (s : State) (lo hi x : Nat) (h : lo ≤ x ∧ x < hi) : (s.clearMem lo hi).byte x = 0 :=
  Mem.get_clear_in _ lo hi x h

theorem State.byte_clearMem_out (s : State) (lo hi x : Nat) (h : x < lo ∨ hi ≤ x) : (s.clearMem lo hi).byte x = s.byte x :=
  Mem.get_clear_out _ lo hi x h

/-- A write to a register, and every other change outside memory, leaves every byte. -/
theorem State.byte_congr {s t : State} (h : t.mem = s.mem) (a : Nat) : t.byte a = s.byte a := by rw [State.byte, State.byte, h]

end Sys2Proof.Machine
end

