-- ==== Sys2Proof/Laws/Outcomes.lean ====
section
/-! SUPPORT. Laws of the shared operations that every command goes through: where a command on a unit leads, what a disabled command does,
and what an answer, a fence report and a cairn record change. -/

namespace Sys2Proof.Machine

/-! ### Commands on units -/

/-- A command on a unit answers a next state exactly when the unit exists, and then its effect. -/
theorem onUnit_next_iff (ok : Bool) (n : Nat) (s t : State) (f : State → State) : onUnit ok n s f = .next t ↔ ok = true ∧ f s = t := by
  cases ok <;> simp [onUnit]

/-- It stops exactly when the unit does not exist, by one name. -/
theorem onUnit_fault_iff (ok : Bool) (n : Nat) (s : State) (f : State → State) (e : Fault) :
    onUnit ok n s f = .fault e ↔ ok = false ∧ e = .noSuchUnit n := by
  cases ok <;> simp [onUnit, eq_comm]

/-- It is never refused. -/
theorem onUnit_ne_refused (ok : Bool) (n : Nat) (s : State) (f : State → State) (r : Refusal) : onUnit ok n s f ≠ .refused r := by
  cases ok <;> simp [onUnit]

@[simp] theorem onUnit_true (n : Nat) (s : State) (f : State → State) : onUnit true n s f = .next (f s) := rfl
@[simp] theorem onUnit_false (n : Nat) (s : State) (f : State → State) : onUnit false n s f = .fault (.noSuchUnit n) := rfl

theorem onCell_of_valid {c : CellAddr} (h : cellValid c.toNat = true) (s : State) (f : State → State) : onCell c s f = .next (f s) := by
  simp [onCell, h]

theorem onBlk_of_valid {b : Nat} (h : blkValid b = true) (s : State) (f : State → State) : onBlk b s f = .next (f s) := by
  simp [onBlk, h]

theorem onRegion_of_valid {g : Nat} (h : regionValid g = true) (s : State) (f : State → State) : onRegion g s f = .next (f s) := by
  simp [onRegion, h]

/-- A command whose condition holds has its effect (log 4). -/
@[simp] theorem when_true (f : State → State) (s : State) : when true f s = f s := rfl
/-- A command whose condition fails changes nothing (log 4). -/
@[simp] theorem when_false (f : State → State) (s : State) : when false f s = s := rfl

/-- What a condition gives, either way. -/
theorem when_cases (p : Bool) (f : State → State) (s : State) : (p = true ∧ when p f s = f s) ∨ (p = false ∧ when p f s = s) := by
  cases p <;> simp

/-! ### Answers, reports, records -/

/-- A report waits at the lead stage core and changes nothing else. -/
theorem State.report_eq (s : State) (c cause kind : Nat) :
    s.report c cause kind = { s with mesh := { s.mesh with reports := s.mesh.reports ++ [⟨c, cause, kind, faultWay 12 (gOf c)⟩] } } := rfl

/-- Bytes put into a mailbox area change registers only. -/
theorem State.putArea_eq (s : State) (off : Nat) (bs : List Byte) : s.putArea off bs = { s with regs := (s.putArea off bs).regs } := by
  unfold State.putArea
  generalize chunks 8 bs.length bs = xs
  generalize 0 = n
  induction xs generalizing s n with
  | nil => rfl
  | cons x xs ih => exact ih _ _

@[simp] theorem State.putArea_pending (s : State) (off : Nat) (bs : List Byte) : (s.putArea off bs).pending = s.pending := by rw [State.putArea_eq]
@[simp] theorem State.putArea_now (s : State) (off : Nat) (bs : List Byte) : (s.putArea off bs).now = s.now := by rw [State.putArea_eq]
@[simp] theorem State.putArea_freeIdx (s : State) (off : Nat) (bs : List Byte) : (s.putArea off bs).freeIdx = s.freeIdx := by rw [State.putArea_eq]
@[simp] theorem State.putArea_out (s : State) (off : Nat) (bs : List Byte) : (s.putArea off bs).out = s.out := by rw [State.putArea_eq]
@[simp] theorem State.putArea_mem (s : State) (off : Nat) (bs : List Byte) : (s.putArea off bs).mem = s.mem := by rw [State.putArea_eq]
@[simp] theorem State.putArea_cells (s : State) (off : Nat) (bs : List Byte) : (s.putArea off bs).cells = s.cells := by rw [State.putArea_eq]
@[simp] theorem State.putArea_banks (s : State) (off : Nat) (bs : List Byte) : (s.putArea off bs).banks = s.banks := by rw [State.putArea_eq]
@[simp] theorem State.putArea_mesh (s : State) (off : Nat) (bs : List Byte) : (s.putArea off bs).mesh = s.mesh := by rw [State.putArea_eq]
@[simp] theorem State.putArea_chans (s : State) (off : Nat) (bs : List Byte) : (s.putArea off bs).chans = s.chans := by rw [State.putArea_eq]
@[simp] theorem State.putArea_pkg (s : State) (off : Nat) (bs : List Byte) : (s.putArea off bs).pkg = s.pkg := by rw [State.putArea_eq]
@[simp] theorem State.putArea_belay (s : State) (off : Nat) (bs : List Byte) : (s.putArea off bs).belay = s.belay := by rw [State.putArea_eq]
@[simp] theorem State.putArea_rcv (s : State) (off : Nat) (bs : List Byte) : (s.putArea off bs).rcv = s.rcv := by rw [State.putArea_eq]
@[simp] theorem State.putArea_cairn (s : State) (off : Nat) (bs : List Byte) : (s.putArea off bs).cairn = s.cairn := by rw [State.putArea_eq]
@[simp] theorem State.putArea_pair (s : State) (off : Nat) (bs : List Byte) : (s.putArea off bs).pair = s.pair := by rw [State.putArea_eq]
@[simp] theorem State.putArea_acts (s : State) (off : Nat) (bs : List Byte) : (s.putArea off bs).acts = s.acts := by rw [State.putArea_eq]
@[simp] theorem State.putArea_slots (s : State) (off : Nat) (bs : List Byte) : (s.putArea off bs).slots = s.slots := by rw [State.putArea_eq]
@[simp] theorem State.putArea_kv (s : State) (off : Nat) (bs : List Byte) : (s.putArea off bs).kv = s.kv := by rw [State.putArea_eq]
@[simp] theorem State.putArea_hub (s : State) (off : Nat) (bs : List Byte) : (s.putArea off bs).hub = s.hub := by rw [State.putArea_eq]
@[simp] theorem State.putArea_host (s : State) (off : Nat) (bs : List Byte) : (s.putArea off bs).host = s.host := by rw [State.putArea_eq]
@[simp] theorem State.putArea_rope (s : State) (off : Nat) (bs : List Byte) : (s.putArea off bs).rope = s.rope := by rw [State.putArea_eq]
@[simp] theorem State.putArea_maps (s : State) (off : Nat) (bs : List Byte) : (s.putArea off bs).maps = s.maps := by rw [State.putArea_eq]
@[simp] theorem State.putArea_seq (s : State) (off : Nat) (bs : List Byte) : (s.putArea off bs).seq = s.seq := by rw [State.putArea_eq]
@[simp] theorem State.putArea_power (s : State) (off : Nat) (bs : List Byte) : (s.putArea off bs).power = s.power := by rw [State.putArea_eq]
@[simp] theorem State.putArea_therm (s : State) (off : Nat) (bs : List Byte) : (s.putArea off bs).therm = s.therm := by rw [State.putArea_eq]
@[simp] theorem State.putArea_clock (s : State) (off : Nat) (bs : List Byte) : (s.putArea off bs).clock = s.clock := by rw [State.putArea_eq]
@[simp] theorem State.putArea_dor (s : State) (off : Nat) (bs : List Byte) : (s.putArea off bs).dor = s.dor := by rw [State.putArea_eq]
@[simp] theorem State.putArea_tel (s : State) (off : Nat) (bs : List Byte) : (s.putArea off bs).tel = s.tel := by rw [State.putArea_eq]
@[simp] theorem State.putArea_pins (s : State) (off : Nat) (bs : List Byte) : (s.putArea off bs).pins = s.pins := by rw [State.putArea_eq]
@[simp] theorem State.putArea_castGen (s : State) (off : Nat) (bs : List Byte) : (s.putArea off bs).castGen = s.castGen := by rw [State.putArea_eq]
@[simp] theorem State.putArea_castTab (s : State) (off : Nat) (bs : List Byte) : (s.putArea off bs).castTab = s.castTab := by rw [State.putArea_eq]
@[simp] theorem State.putArea_distGen (s : State) (off : Nat) (bs : List Byte) : (s.putArea off bs).distGen = s.distGen := by rw [State.putArea_eq]
@[simp] theorem State.putArea_dist (s : State) (off : Nat) (bs : List Byte) : (s.putArea off bs).dist = s.dist := by rw [State.putArea_eq]

/-! An answer changes the mailbox, its registers and the outputs; nothing else. -/

@[simp] theorem State.respond_pending (s : State) (mb status : Nat) (res : List Byte) : (s.respond mb status res).pending = s.pending := by
  unfold State.respond; split <;> simp
@[simp] theorem State.respond_now (s : State) (mb status : Nat) (res : List Byte) : (s.respond mb status res).now = s.now := by
  unfold State.respond; split <;> simp
@[simp] theorem State.respond_freeIdx (s : State) (mb status : Nat) (res : List Byte) : (s.respond mb status res).freeIdx = s.freeIdx := by
  unfold State.respond; split <;> simp
@[simp] theorem State.respond_mem (s : State) (mb status : Nat) (res : List Byte) : (s.respond mb status res).mem = s.mem := by
  unfold State.respond; split <;> simp
@[simp] theorem State.respond_cells (s : State) (mb status : Nat) (res : List Byte) : (s.respond mb status res).cells = s.cells := by
  unfold State.respond; split <;> simp
@[simp] theorem State.respond_banks (s : State) (mb status : Nat) (res : List Byte) : (s.respond mb status res).banks = s.banks := by
  unfold State.respond; split <;> simp
@[simp] theorem State.respond_mesh (s : State) (mb status : Nat) (res : List Byte) : (s.respond mb status res).mesh = s.mesh := by
  unfold State.respond; split <;> simp
@[simp] theorem State.respond_chans (s : State) (mb status : Nat) (res : List Byte) : (s.respond mb status res).chans = s.chans := by
  unfold State.respond; split <;> simp
@[simp] theorem State.respond_pkg (s : State) (mb status : Nat) (res : List Byte) : (s.respond mb status res).pkg = s.pkg := by
  unfold State.respond; split <;> simp
@[simp] theorem State.respond_belay (s : State) (mb status : Nat) (res : List Byte) : (s.respond mb status res).belay = s.belay := by
  unfold State.respond; split <;> simp
@[simp] theorem State.respond_rcv (s : State) (mb status : Nat) (res : List Byte) : (s.respond mb status res).rcv = s.rcv := by
  unfold State.respond; split <;> simp
@[simp] theorem State.respond_cairn (s : State) (mb status : Nat) (res : List Byte) : (s.respond mb status res).cairn = s.cairn := by
  unfold State.respond; split <;> simp
@[simp] theorem State.respond_pair (s : State) (mb status : Nat) (res : List Byte) : (s.respond mb status res).pair = s.pair := by
  unfold State.respond; split <;> simp
@[simp] theorem State.respond_acts (s : State) (mb status : Nat) (res : List Byte) : (s.respond mb status res).acts = s.acts := by
  unfold State.respond; split <;> simp
@[simp] theorem State.respond_slots (s : State) (mb status : Nat) (res : List Byte) : (s.respond mb status res).slots = s.slots := by
  unfold State.respond; split <;> simp
@[simp] theorem State.respond_kv (s : State) (mb status : Nat) (res : List Byte) : (s.respond mb status res).kv = s.kv := by
  unfold State.respond; split <;> simp
@[simp] theorem State.respond_hub (s : State) (mb status : Nat) (res : List Byte) : (s.respond mb status res).hub = s.hub := by
  unfold State.respond; split <;> simp
@[simp] theorem State.respond_rope (s : State) (mb status : Nat) (res : List Byte) : (s.respond mb status res).rope = s.rope := by
  unfold State.respond; split <;> simp
@[simp] theorem State.respond_maps (s : State) (mb status : Nat) (res : List Byte) : (s.respond mb status res).maps = s.maps := by
  unfold State.respond; split <;> simp
@[simp] theorem State.respond_seq (s : State) (mb status : Nat) (res : List Byte) : (s.respond mb status res).seq = s.seq := by
  unfold State.respond; split <;> simp
@[simp] theorem State.respond_power (s : State) (mb status : Nat) (res : List Byte) : (s.respond mb status res).power = s.power := by
  unfold State.respond; split <;> simp
@[simp] theorem State.respond_therm (s : State) (mb status : Nat) (res : List Byte) : (s.respond mb status res).therm = s.therm := by
  unfold State.respond; split <;> simp
@[simp] theorem State.respond_clock (s : State) (mb status : Nat) (res : List Byte) : (s.respond mb status res).clock = s.clock := by
  unfold State.respond; split <;> simp
@[simp] theorem State.respond_dor (s : State) (mb status : Nat) (res : List Byte) : (s.respond mb status res).dor = s.dor := by
  unfold State.respond; split <;> simp
@[simp] theorem State.respond_tel (s : State) (mb status : Nat) (res : List Byte) : (s.respond mb status res).tel = s.tel := by
  unfold State.respond; split <;> simp
@[simp] theorem State.respond_pins (s : State) (mb status : Nat) (res : List Byte) : (s.respond mb status res).pins = s.pins := by
  unfold State.respond; split <;> simp
@[simp] theorem State.respond_castGen (s : State) (mb status : Nat) (res : List Byte) : (s.respond mb status res).castGen = s.castGen := by
  unfold State.respond; split <;> simp
@[simp] theorem State.respond_castTab (s : State) (mb status : Nat) (res : List Byte) : (s.respond mb status res).castTab = s.castTab := by
  unfold State.respond; split <;> simp
@[simp] theorem State.respond_distGen (s : State) (mb status : Nat) (res : List Byte) : (s.respond mb status res).distGen = s.distGen := by
  unfold State.respond; split <;> simp
@[simp] theorem State.respond_dist (s : State) (mb status : Nat) (res : List Byte) : (s.respond mb status res).dist = s.dist := by
  unfold State.respond; split <;> simp

/-! A request at the arbiter changes base camp; nothing else. -/

@[simp] theorem State.request_pending (s : State) (res cls owner n : Nat) : (s.request res cls owner n).pending = s.pending := by
  simp only [State.request]; split <;> rfl
@[simp] theorem State.request_now (s : State) (res cls owner n : Nat) : (s.request res cls owner n).now = s.now := by
  simp only [State.request]; split <;> rfl
@[simp] theorem State.request_freeIdx (s : State) (res cls owner n : Nat) : (s.request res cls owner n).freeIdx = s.freeIdx := by
  simp only [State.request]; split <;> rfl
@[simp] theorem State.request_out (s : State) (res cls owner n : Nat) : (s.request res cls owner n).out = s.out := by
  simp only [State.request]; split <;> rfl
@[simp] theorem State.request_regs (s : State) (res cls owner n : Nat) : (s.request res cls owner n).regs = s.regs := by
  simp only [State.request]; split <;> rfl
@[simp] theorem State.request_mem (s : State) (res cls owner n : Nat) : (s.request res cls owner n).mem = s.mem := by
  simp only [State.request]; split <;> rfl
@[simp] theorem State.request_cells (s : State) (res cls owner n : Nat) : (s.request res cls owner n).cells = s.cells := by
  simp only [State.request]; split <;> rfl
@[simp] theorem State.request_banks (s : State) (res cls owner n : Nat) : (s.request res cls owner n).banks = s.banks := by
  simp only [State.request]; split <;> rfl
@[simp] theorem State.request_mesh (s : State) (res cls owner n : Nat) : (s.request res cls owner n).mesh = s.mesh := by
  simp only [State.request]; split <;> rfl
@[simp] theorem State.request_chans (s : State) (res cls owner n : Nat) : (s.request res cls owner n).chans = s.chans := by
  simp only [State.request]; split <;> rfl
@[simp] theorem State.request_pkg (s : State) (res cls owner n : Nat) : (s.request res cls owner n).pkg = s.pkg := by
  simp only [State.request]; split <;> rfl
@[simp] theorem State.request_belay (s : State) (res cls owner n : Nat) : (s.request res cls owner n).belay = s.belay := by
  simp only [State.request]; split <;> rfl
@[simp] theorem State.request_rcv (s : State) (res cls owner n : Nat) : (s.request res cls owner n).rcv = s.rcv := by
  simp only [State.request]; split <;> rfl
@[simp] theorem State.request_cairn (s : State) (res cls owner n : Nat) : (s.request res cls owner n).cairn = s.cairn := by
  simp only [State.request]; split <;> rfl
@[simp] theorem State.request_pair (s : State) (res cls owner n : Nat) : (s.request res cls owner n).pair = s.pair := by
  simp only [State.request]; split <;> rfl
@[simp] theorem State.request_acts (s : State) (res cls owner n : Nat) : (s.request res cls owner n).acts = s.acts := by
  simp only [State.request]; split <;> rfl
@[simp] theorem State.request_slots (s : State) (res cls owner n : Nat) : (s.request res cls owner n).slots = s.slots := by
  simp only [State.request]; split <;> rfl
@[simp] theorem State.request_kv (s : State) (res cls owner n : Nat) : (s.request res cls owner n).kv = s.kv := by
  simp only [State.request]; split <;> rfl
@[simp] theorem State.request_host (s : State) (res cls owner n : Nat) : (s.request res cls owner n).host = s.host := by
  simp only [State.request]; split <;> rfl
@[simp] theorem State.request_rope (s : State) (res cls owner n : Nat) : (s.request res cls owner n).rope = s.rope := by
  simp only [State.request]; split <;> rfl
@[simp] theorem State.request_maps (s : State) (res cls owner n : Nat) : (s.request res cls owner n).maps = s.maps := by
  simp only [State.request]; split <;> rfl
@[simp] theorem State.request_seq (s : State) (res cls owner n : Nat) : (s.request res cls owner n).seq = s.seq := by
  simp only [State.request]; split <;> rfl
@[simp] theorem State.request_power (s : State) (res cls owner n : Nat) : (s.request res cls owner n).power = s.power := by
  simp only [State.request]; split <;> rfl
@[simp] theorem State.request_therm (s : State) (res cls owner n : Nat) : (s.request res cls owner n).therm = s.therm := by
  simp only [State.request]; split <;> rfl
@[simp] theorem State.request_clock (s : State) (res cls owner n : Nat) : (s.request res cls owner n).clock = s.clock := by
  simp only [State.request]; split <;> rfl
@[simp] theorem State.request_dor (s : State) (res cls owner n : Nat) : (s.request res cls owner n).dor = s.dor := by
  simp only [State.request]; split <;> rfl
@[simp] theorem State.request_tel (s : State) (res cls owner n : Nat) : (s.request res cls owner n).tel = s.tel := by
  simp only [State.request]; split <;> rfl
@[simp] theorem State.request_pins (s : State) (res cls owner n : Nat) : (s.request res cls owner n).pins = s.pins := by
  simp only [State.request]; split <;> rfl
@[simp] theorem State.request_castGen (s : State) (res cls owner n : Nat) : (s.request res cls owner n).castGen = s.castGen := by
  simp only [State.request]; split <;> rfl
@[simp] theorem State.request_castTab (s : State) (res cls owner n : Nat) : (s.request res cls owner n).castTab = s.castTab := by
  simp only [State.request]; split <;> rfl
@[simp] theorem State.request_distGen (s : State) (res cls owner n : Nat) : (s.request res cls owner n).distGen = s.distGen := by
  simp only [State.request]; split <;> rfl
@[simp] theorem State.request_dist (s : State) (res cls owner n : Nat) : (s.request res cls owner n).dist = s.dist := by
  simp only [State.request]; split <;> rfl

/-! A cairn record changes staging, its request at the arbiter, the drop count and the event; nothing else. -/

@[simp] theorem State.stageCairn_pending (s : State) (c : Cairn) : (s.stageCairn c).pending = s.pending := by
  simp only [State.stageCairn]; split <;> simp
@[simp] theorem State.stageCairn_now (s : State) (c : Cairn) : (s.stageCairn c).now = s.now := by
  simp only [State.stageCairn]; split <;> simp
@[simp] theorem State.stageCairn_freeIdx (s : State) (c : Cairn) : (s.stageCairn c).freeIdx = s.freeIdx := by
  simp only [State.stageCairn]; split <;> simp
@[simp] theorem State.stageCairn_mem (s : State) (c : Cairn) : (s.stageCairn c).mem = s.mem := by
  simp only [State.stageCairn]; split <;> simp
@[simp] theorem State.stageCairn_cells (s : State) (c : Cairn) : (s.stageCairn c).cells = s.cells := by
  simp only [State.stageCairn]; split <;> simp
@[simp] theorem State.stageCairn_banks (s : State) (c : Cairn) : (s.stageCairn c).banks = s.banks := by
  simp only [State.stageCairn]; split <;> simp
@[simp] theorem State.stageCairn_mesh (s : State) (c : Cairn) : (s.stageCairn c).mesh = s.mesh := by
  simp only [State.stageCairn]; split <;> simp
@[simp] theorem State.stageCairn_chans (s : State) (c : Cairn) : (s.stageCairn c).chans = s.chans := by
  simp only [State.stageCairn]; split <;> simp
@[simp] theorem State.stageCairn_pkg (s : State) (c : Cairn) : (s.stageCairn c).pkg = s.pkg := by
  simp only [State.stageCairn]; split <;> simp
@[simp] theorem State.stageCairn_belay (s : State) (c : Cairn) : (s.stageCairn c).belay = s.belay := by
  simp only [State.stageCairn]; split <;> simp
@[simp] theorem State.stageCairn_rcv (s : State) (c : Cairn) : (s.stageCairn c).rcv = s.rcv := by
  simp only [State.stageCairn]; split <;> simp
@[simp] theorem State.stageCairn_pair (s : State) (c : Cairn) : (s.stageCairn c).pair = s.pair := by
  simp only [State.stageCairn]; split <;> simp
@[simp] theorem State.stageCairn_acts (s : State) (c : Cairn) : (s.stageCairn c).acts = s.acts := by
  simp only [State.stageCairn]; split <;> simp
@[simp] theorem State.stageCairn_slots (s : State) (c : Cairn) : (s.stageCairn c).slots = s.slots := by
  simp only [State.stageCairn]; split <;> simp
@[simp] theorem State.stageCairn_kv (s : State) (c : Cairn) : (s.stageCairn c).kv = s.kv := by
  simp only [State.stageCairn]; split <;> simp
@[simp] theorem State.stageCairn_host (s : State) (c : Cairn) : (s.stageCairn c).host = s.host := by
  simp only [State.stageCairn]; split <;> simp
@[simp] theorem State.stageCairn_rope (s : State) (c : Cairn) : (s.stageCairn c).rope = s.rope := by
  simp only [State.stageCairn]; split <;> simp
@[simp] theorem State.stageCairn_maps (s : State) (c : Cairn) : (s.stageCairn c).maps = s.maps := by
  simp only [State.stageCairn]; split <;> simp
@[simp] theorem State.stageCairn_seq (s : State) (c : Cairn) : (s.stageCairn c).seq = s.seq := by
  simp only [State.stageCairn]; split <;> simp
@[simp] theorem State.stageCairn_power (s : State) (c : Cairn) : (s.stageCairn c).power = s.power := by
  simp only [State.stageCairn]; split <;> simp
@[simp] theorem State.stageCairn_therm (s : State) (c : Cairn) : (s.stageCairn c).therm = s.therm := by
  simp only [State.stageCairn]; split <;> simp
@[simp] theorem State.stageCairn_clock (s : State) (c : Cairn) : (s.stageCairn c).clock = s.clock := by
  simp only [State.stageCairn]; split <;> simp
@[simp] theorem State.stageCairn_dor (s : State) (c : Cairn) : (s.stageCairn c).dor = s.dor := by
  simp only [State.stageCairn]; split <;> simp
@[simp] theorem State.stageCairn_tel (s : State) (c : Cairn) : (s.stageCairn c).tel = s.tel := by
  simp only [State.stageCairn]; split <;> simp
@[simp] theorem State.stageCairn_pins (s : State) (c : Cairn) : (s.stageCairn c).pins = s.pins := by
  simp only [State.stageCairn]; split <;> simp
@[simp] theorem State.stageCairn_castGen (s : State) (c : Cairn) : (s.stageCairn c).castGen = s.castGen := by
  simp only [State.stageCairn]; split <;> simp
@[simp] theorem State.stageCairn_castTab (s : State) (c : Cairn) : (s.stageCairn c).castTab = s.castTab := by
  simp only [State.stageCairn]; split <;> simp
@[simp] theorem State.stageCairn_distGen (s : State) (c : Cairn) : (s.stageCairn c).distGen = s.distGen := by
  simp only [State.stageCairn]; split <;> simp
@[simp] theorem State.stageCairn_dist (s : State) (c : Cairn) : (s.stageCairn c).dist = s.dist := by
  simp only [State.stageCairn]; split <;> simp

/-! ### Engines -/

/-- An instruction of an unfenced V-cell that is done leaves its registers and the next instruction in that cell. -/
theorem State.vDone_next (s : State) (c : Nat) (x : VSt) (h : s.fenced c = false) :
    s.vDone c x = (s.modCell c fun y => { y with v := { x with loops := (loopNext (s.cell c).eng.pc x.loops).2 } }).engineAt c
      (loopNext (s.cell c).eng.pc x.loops).1 := by
  simp [State.vDone, h]

/-- A fenced V-cell does not go on. -/
theorem State.vDone_fenced (s : State) (c : Nat) (x : VSt) (h : s.fenced c = true) : s.vDone c x = s := by simp [State.vDone, h]

/-- An instruction of an unfenced S-cell that is done leaves its registers and the next instruction in that cell. -/
theorem State.sDone_next (s : State) (c : Nat) (x : SSt) (h : s.fenced c = false) :
    s.sDone c x = (s.modCell c fun y => { y with sc := x }).engineAt c ((s.cell c).eng.pc + 1) := by
  simp [State.sDone, h]

/-- A fenced S-cell does not go on. -/
theorem State.sDone_fenced (s : State) (c : Nat) (x : SSt) (h : s.fenced c = true) : s.sDone c x = s := by simp [State.sDone, h]

end Sys2Proof.Machine
end

