-- ==== Sys2Proof/Tests/Slice0.lean ====
section
/-! SUPPORT. Tests: ill-formed commands are refused; for every statement of Obligations.lean a state and operands that meet its hypotheses,
clause by clause (`meets_…`); small results by hand from the spec (`test_…`). -/

set_option Elab.async false

namespace Sys2Proof.Tests

open Sys2Proof Sys2Proof.Machine Sys2Proof.Says

/-! ### Builders -/

/-- The panel in a state. -/
def inSt (p : PState) : State := State.reset.goto p

/-- RUNNING. -/
def run0 : State := inSt .running

/-- A cell that plays, within a beat, a scene with the given configuration words and program. -/
def playing (c : Nat) (head : List Word64) (code : List Nat) (s : State) : State :=
  s.modCell c fun x => { x with scene := { x.scene with playing := true, phase := .inBeat, cur := some ⟨head, code⟩ } }

end Sys2Proof.Tests

open Sys2Proof Sys2Proof.Machine Sys2Proof.Says Sys2Proof.Tests

/-! ### Ill-formed commands are refused -/

/-- A command on a unit that the panel does not have is ill formed: a test for each way to name a unit. -/
theorem test_unit_cells :
    (Instr.vadd 0 ⟨[], none, false⟩).wellFormed = false ∧ (Instr.sAdd 4 ⟨[], none, false⟩).wellFormed = false ∧ (Instr.drainRow ⟨4, []⟩).wellFormed = false ∧
      (Instr.beatStart ⟨0x5500, false⟩).wellFormed = false ∧ (Instr.messageArrival 4 32).wellFormed = false ∧ (Instr.sweepStrip 4 9 [] []).wellFormed = false ∧
      (Instr.sweepCtrlWrite 144 0).wellFormed = false ∧ (Instr.sweepCtrlWrite 65 0).wellFormed = false ∧ (Instr.beatStart ⟨4, false⟩).wellFormed = true := by decide +kernel

theorem test_unit_mesh :
    (Instr.circuitSlot 2000 0 0 0).wellFormed = false ∧ (Instr.circuitSlot 0 11 0 0).wellFormed = false ∧ (Instr.circuitSlot 0 0 128 0).wellFormed = false ∧
      (Instr.packetHop 0 11).wellFormed = false ∧ (Instr.flagUpdate 1536).wellFormed = false ∧ (Instr.seamErrorThreshold 0 9).wellFormed = false ∧
      (Instr.circuitSlot 0 0 0 0).wellFormed = true := by decide +kernel

theorem test_unit_memory :
    (Instr.dramRead 0x01B000000000 []).wellFormed = false ∧ (Instr.dramWrite 0x01AFFFFFFFFF [0, 0] []).wellFormed = false ∧
      (Instr.dramCorrectedRewrite 0x6C00000000).wellFormed = false ∧ (Instr.bar4Access 0 0 false [] false []).wellFormed = false ∧
      (Instr.arbiterGrant resources).wellFormed = false ∧ (Instr.porterCopy 64 ⟨[], [], false, [], 0⟩).wellFormed = false ∧
      (Instr.pageDelivery 64 []).wellFormed = false ∧ (Instr.slotCloseDone 1024).wellFormed = false := by decide +kernel

theorem test_unit_host :
    (Instr.registerWrite ⟨0x4000000, 4, true, 0, false⟩).wellFormed = false ∧ (Instr.ringDoorbell 0x100000 4 true 0).wellFormed = false ∧
      (Instr.ringIrqTimer 16384).wellFormed = false ∧ (Instr.hello 8 ⟨1, 0, 0, 0, false, 0, []⟩).wellFormed = false ∧ (Instr.deferralFinal 0 64).wellFormed = false ∧
      (Instr.channelDrainDone 65536).wellFormed = false ∧ (Instr.heartbeatTick 8).wellFormed = false := by decide +kernel

theorem test_unit_rope :
    (Instr.converterFail 16).wellFormed = false ∧ (Instr.bypassOpen 3).wellFormed = false ∧ (Instr.ropeAckTimer 6).wellFormed = false ∧
      (Instr.fecThreshold 0 16).wellFormed = false ∧ (Instr.thermalStepUp 65 0).wellFormed = false := by decide +kernel

/-- An operand that does not fit its field is ill formed. -/
theorem test_width :
    (Instr.hello 0 ⟨256, 0, 0, 0, false, 0, []⟩).wellFormed = false ∧ (Instr.hello 0 ⟨1, 2 ^ 32, 0, 0, false, 0, []⟩).wellFormed = false ∧
      (Instr.messageEntry 0 []).wellFormed = false ∧ (Instr.streamFrame 0 ⟨⟨[], [], true, 0⟩, []⟩).wellFormed = false ∧ (Instr.thermalStepUp 0 2048).wellFormed = false ∧
      (Instr.ghostEntry 0 0 256).wellFormed = false ∧ (Instr.powerCheck 1 ⟨256, 0, 0, [], []⟩).wellFormed = false ∧ (Instr.powerSample 65536).wellFormed = false ∧
      (Instr.inputVoltageChange 65536).wellFormed = false ∧ (Instr.ropeSpare 0 32).wellFormed = false ∧
      (Instr.registerWrite ⟨0, 3, true, 0, false⟩).wellFormed = false := by decide +kernel

theorem test_width_more :
    (Instr.ringDoorbell 0 4 true 0x100000000).wellFormed = false ∧ (Instr.houseClockBeacon (2 ^ 64)).wellFormed = false ∧
      (Instr.hcSyncExchange 0 0 0 true 256).wellFormed = false ∧ (Instr.pcieLinkTrain 8 0 true false).wellFormed = false ∧
      (Instr.bar4Access 0 4 true [0] false []).wellFormed = false ∧ (Instr.setEndpointId 256).wellFormed = false ∧
      (Instr.dynamicAddressAssign 128).wellFormed = false ∧ (Instr.pldmSensorRead 65536).wellFormed = false ∧ (Instr.cairnGet (2 ^ 32)).wellFormed = false ∧
      (Instr.oobUnsupportedMessage 128).wellFormed = false ∧ (Instr.correctedWriteBack (2 ^ 48)).wellFormed = false := by decide +kernel

/-! ### The machine as a whole -/

/-- StepRunsFrontCommand, CommandsOnUnitsRun, StepKeepsSafe: a queue with a command in front, an empty one, a safe state with one that
waits, commands on a unit there is and on one there is not. -/
theorem meets_StepRunsFrontCommand :
    ({ run0 with pending := [Instr.beatStart ⟨4, false⟩] } : State).pending = Instr.beatStart ⟨4, false⟩ :: [] ∧ State.reset.pending = [] ∧
      (Instr.beatStart ⟨4, false⟩).unitOk = true ∧ (Instr.beatStart ⟨0x5500, false⟩).unitOk = false := by decide +kernel

theorem meets_CommandsOnUnitsRun : (Instr.beatStart ⟨4, false⟩).unitOk = true ∧ (Instr.beatStart ⟨0x5500, false⟩).unitOk = false := by decide +kernel

theorem meets_StepKeepsSafe : Safe { (State.reset.writeBytes 5 [7, 0, 9]) with pending := [Instr.beatStart ⟨4, false⟩] } := by unfold Safe; decide +kernel

/-- ResetState has no hypothesis; its state is the one named. -/
theorem meets_ResetState : Safe State.reset := by unfold Safe; decide +kernel

/-- RegistersAndMemory: a field of 64 bits and one at bit 63, another field of its register, bytes, a run to erase. -/
theorem meets_RegistersAndMemory :
    (let f : RF := ⟨0x10008, 0, 64⟩; let g : RF := ⟨0x10008, 63, 1⟩; let h : RF := ⟨0x10008, 0, 63⟩;
      f.lo + f.w ≤ 64 ∧ g.lo + g.w ≤ 64 ∧ h.off = g.off ∧ (h.lo + h.w ≤ g.lo ∨ g.lo + g.w ≤ h.lo)) ∧
    (0 < [(7 : Byte)].length ∧ (0x01AFFFFFFFFF + [(7 : Byte)].length ≤ 0x01B000000000) ∧ Memory.wf State.reset.mem = true) := by decide +kernel

/-- BlockCoordinates: blocks beside the hole and away from it. -/
theorem meets_BlockCoordinates : (∃ k, blkAt 19 10 = some k ∧ blkXY k = (19, 10)) ∧ blkAt 20 10 = none ∧ blkAt 47 23 = some 1503 := by
  exact ⟨⟨676 - 1, by decide +kernel⟩, by decide +kernel, by decide +kernel⟩

/-- ScratchpadAddresses: the last byte of a cell's banks and the one after it. -/
theorem meets_ScratchpadAddresses :
    cellValid 4 = true ∧ bankCount 4 * 0x100000 - 1 < 0x1000000 ∧ spDecode (spAddr 4 (bankCount 4 * 0x100000 - 1)) = some (4, bankCount 4 * 0x100000 - 1) ∧
      spDecode (spAddr 4 (bankCount 4 * 0x100000)) = none ∧ spDecode (spAddr 0x5500 0) = none := by decide +kernel

/-! ### V-cells -/

namespace Sys2Proof.Tests

/-- A V-cell instruction: opcode, vd, va, vb, mask, format, immediate. -/
def vIns (op vd va vb m fmt imm : Nat) : Nat := op + vd <<< 8 + va <<< 13 + vb <<< 18 + m <<< 28 + fmt <<< 32 + imm <<< 40

/-- D(0,0) B0 C4 before an instruction and a VEND. -/
def vAt (i : Nat) : State := playing 4 [] [i, 0x65] run0

/-- No event of the hardware. -/
def quiet : VHw := ⟨[], none, false⟩

/-- Opcodes of the instructions that write registers alone. -/
def vOps : List Nat :=
  [0x00, 0x01, 0x02, 0x03, 0x04, 0x05, 0x06, 0x07, 0x08, 0x09, 0x0A, 0x0B, 0x10, 0x11, 0x12, 0x13, 0x14, 0x15, 0x16, 0x17, 0x18, 0x20, 0x21, 0x22,
    0x23, 0x24, 0x25, 0x26, 0x30, 0x31, 0x32, 0x33, 0x34, 0x35, 0x36, 0x40, 0x41, 0x42, 0x43, 0x44, 0x48, 0x49, 0x4A, 0x4B, 0x4C, 0x4D, 0x60, 0x61]

end Sys2Proof.Tests

/-- VArithmetic, VMoves, VControl: every instruction stands somewhere, ready. -/
theorem meets_VRun : ∀ op ∈ vOps, VReady 4 (vIns op 1 2 3 0 0 0) quiet (vAt (vIns op 1 2 3 0 0 0)) ∧ vOp (vIns op 1 2 3 0 0 0) = op := by
  decide +kernel

namespace Sys2Proof.Tests

/-- The V-cell's registers changed. -/
def vSet (f : VSt → VSt) (s : State) : State := s.modCell 4 fun x => { x with v := f x.v }

/-- A cell with an endpoint of a given record. -/
def epAt (c n : Nat) (e : EpSt) (s : State) : State := s.modCell c fun x => { x with eps := SMap.put x.eps n e }

/-- A plain receiving endpoint of 4 KiB at the start of bank 0 that holds a message of one granule. -/
def plainIn : EpSt := { EpSt.init with cfg := 1 + 12 <<< 28 + 8 <<< 33, recs := [⟨false, 0, 1, 0⟩] }

/-- A cue endpoint that holds a cue. -/
def cueIn : EpSt := { EpSt.init with cfg := 3 + 12 <<< 28 + 1 <<< 33, recs := [⟨false, 0, 1, 0⟩] }

/-- A plain sending endpoint of up to eight granules over packets, and its channel 5 to D(0,0) B0 C5. -/
def plainOut : EpSt := { EpSt.init with cfg := 1 + 4 + 8 + 12 <<< 28 + 8 <<< 33, handle := 5, credit := 64 }

/-- A sending cue endpoint on channel 5. -/
def cueOut : EpSt := { EpSt.init with cfg := 3 + 4 + 12 <<< 28 + 1 <<< 33, handle := 5, credit := 8 }

/-- Channel 5: from an endpoint to endpoint 1 of D(0,0) B0 C5. -/
def chan5 (c n : Nat) (s : State) : State :=
  s.modChan 5 fun x => { x with live := true, ty := 2, send := some ⟨c, n⟩, recv := some ⟨5, 1⟩ }

/-- A VSt with a register a1 = 1. -/
def a1 (x : VSt) : VSt := x.setAddr 1 1 false

end Sys2Proof.Tests

/-- VectorRegisters: element 63, and element 7 of part 2 of 8-bit elements. -/
theorem meets_VectorRegisters : 63 < 64 ∧ 0 < 8 ∧ 7 < 64 ∧ (511 < 2 * 512 ∨ 2 * 512 + 64 * 8 ≤ 511) ∧ 3 ≠ 4 := by decide

/-- VControl: branches taken and not, a loop, the end. -/
theorem meets_VControl :
    (let i := vIns 0x63 0 0 0 0 0 1; VThere 4 i quiet (vAt i) ∧ ((1 : Nat) : Int) = 0 + toSigned 24 (vImm i) ∧ 1 < (vAt i).progLen 4) ∧
    (let i := vIns 0x64 0 1 0 0 0 1; let s := vSet a1 (vAt i)
      VThere 4 i quiet s ∧ (s.vst 4).apoison (vVa i) = false ∧ (s.vst 4).addr (vVa i) ≠ 0 ∧ 1 < s.progLen 4) ∧
    (let i := vIns 0x64 0 2 0 0 0 1; let s := vSet a1 (vAt i)
      VReady 4 i quiet s ∧ (s.vst 4).apoison (vVa i) = false ∧ (s.vst 4).addr (vVa i) = 0) ∧
    (let i := vIns 0x62 0 1 0 0 0 1; let s := vSet a1 (vAt i)
      VThere 4 i quiet s ∧ (s.vst 4).addr (vVa i) ≠ 0 ∧ vImm i % 512 ≠ 0 ∧ (s.vst 4).loops.length < 4 ∧ 1 < s.progLen 4) ∧
    (let i := vIns 0x62 0 2 0 0 0 1; let s := playing 4 [] [i, 0, 0x65] run0
      VThere 4 i quiet s ∧ (s.vst 4).apoison (vVa i) = false ∧ (s.vst 4).addr (vVa i) = 0 ∧
        (loopNext (0 + vImm i % 512) (s.vst 4).loops).1 < s.progLen 4) ∧
    VThere 4 0x65 quiet (playing 4 [] [0x65] run0) := by decide +kernel

/-- VMemory: accesses at the start of bank 0. -/
theorem meets_VMemory :
    (∀ op ∈ [0x50, 0x51, 0x52, 0x53], VReady 4 (vIns op 1 1 3 0 0 0) quiet (vAt (vIns op 1 1 3 0 0 0)) ∧ vOp (vIns op 1 1 3 0 0 0) = op) ∧
    (let i := vIns 0x51 1 1 3 0 0 0; let s := vAt i
      s.mem.spPoison = [] ∧ s.bankCause 4 (vAddress (s.vst 4) i) 256 32 = none ∧ (s.vst 4).apoison (vVa i) = false ∧ (s.vst 4).vpoison (vVd i) = 0 ∧ 0 < fmtBits (vFmt i)) ∧
    (let i := vIns 0x53 1 1 3 0 0 0; let s := vAt i
      s.laneCause 4 (s.vst 4) i = none ∧ (s.vst 4).vpoison (vVb i) = 0 ∧ (s.vst 4).vpoison (vVc i) = 0 ∧ vactive ((s.vst 4).mask (vMask i)) 0 32 63 = true) := by
  decide +kernel

/-- VQueues: a message, a cue, credit for a message and for a cue, and an empty queue. -/
theorem meets_VQueues :
    (let i := vIns 0x58 1 2 0 0 0 1; let s := epAt 4 1 plainIn (vAt i)
      VReady 4 i quiet s ∧ s.recvCause 4 1 false = none ∧ s.hasMsg 4 1 = true ∧ s.headLen 4 1 ≤ 8 ∧ (s.readHead 4 1 []).2.fenced 4 = false) ∧
    (let i := vIns 0x5A 1 2 0 0 0 1; let s := epAt 4 1 cueIn (vAt i)
      VReady 4 i quiet s ∧ s.recvCause 4 1 true = none ∧ s.hasMsg 4 1 = true ∧ (s.readCue 4 1 []).2.fenced 4 = false) := by decide +kernel

/-- VQueues, sends and empty queues. -/
theorem meets_VQueues_send :
    (let i := vIns 0x59 1 2 0 0 0 1; let s := chan5 4 1 (epAt 4 1 plainOut (vAt i))
      VReady 4 i quiet s ∧ s.sendCause 4 1 8 = none ∧ (s.epSend 4 1 (vecGrans (s.vst 4) (vVd i) 8)).1 = true) ∧
    (let i := vIns 0x5B 0 2 0 0 0 1; let s := chan5 4 1 (epAt 4 1 cueOut (vAt i))
      VReady 4 i quiet s ∧ s.cueCause 4 1 = none ∧ (s.cueSend 4 1 ((s.vst 4).addr (vVa i))).1 = true) ∧
    (let i := vIns 0x58 1 2 0 0 0 1; let s := epAt 4 1 { plainIn with recs := [] } (vAt i)
      VReady 4 i quiet s ∧ s.recvCause 4 1 false = none ∧ s.hasMsg 4 1 = false) ∧
    (let i := vIns 0x5A 1 2 0 0 0 1; let s := epAt 4 1 { cueIn with recs := [] } (vAt i)
      VReady 4 i quiet s ∧ s.recvCause 4 1 true = none ∧ s.hasMsg 4 1 = false) := by decide +kernel

/-! ### S-cells -/

namespace Sys2Proof.Tests

/-- An S-cell instruction of format A or I: opcode, gd, ga, gb, func. -/
def sIns (op gd ga gb fn : Nat) : Nat := op + gd <<< 10 + ga <<< 15 + gb <<< 20 + fn <<< 25

/-- D(0,0) B0 C6 before an instruction and an END. -/
def sAt (i : Nat) : State := playing 6 [] [i, 0x3F] run0

/-- No event of the hardware. -/
def calm : SHw := ⟨[], none, false⟩

/-- General registers of the S-cell set. -/
def gSet (rs : List (Nat × Nat)) (s : State) : State :=
  s.modCell 6 fun x => { x with sc := rs.foldl (fun y r => y.setReg r.1 r.2 false) x.sc }

/-- Opcodes of the S-cell's instructions. -/
def sOps : List Nat :=
  [0x00, 0x01, 0x02, 0x03, 0x04, 0x05, 0x06, 0x07, 0x08, 0x09, 0x0A, 0x0B, 0x0C, 0x0D, 0x0E, 0x10, 0x11, 0x12, 0x13, 0x14, 0x15, 0x16, 0x18, 0x19,
    0x1C, 0x1D, 0x1E, 0x20, 0x21, 0x22, 0x23, 0x24, 0x25, 0x26, 0x27, 0x28, 0x29, 0x2A, 0x30, 0x31, 0x32, 0x33, 0x34, 0x35, 0x36, 0x37, 0x38, 0x39,
    0x3A, 0x3B, 0x3C, 0x3D, 0x3E, 0x3F]

/-- A scene whose object bindings are barrier 7 and flag word 9. -/
def bound : List Word64 := List.replicate 0xD8 (0 : Word64) ++ [BitVec.ofNat 64 ((7 + 1 <<< 13) <<< 32), BitVec.ofNat 64 (9 + 1 <<< 12 + 1 <<< 13)]

/-- The S-cell at an instruction of that scene. -/
def sBound (i : Nat) : State := playing 6 bound [i, 0x3F] run0

/-- A package is loaded whose logical cells 5 and 6 of D(0,0) B0 are at their own addresses. -/
def loaded (s : State) : State :=
  { s with pkg := some ⟨⟨[], [], [], [], [], [], [], [], [], [], [], []⟩, [], 2000, 100, false, false, [(5, 5 + 1 <<< 22), (6, 6 + 1 <<< 22)], [], [], [], [], false⟩ }

end Sys2Proof.Tests

/-- SArithmetic, SGuard: every instruction stands somewhere, ready; and with a false guard. -/
theorem meets_SRun : ∀ op ∈ sOps,
    (let i := sIns op 1 2 3 0; SReady 6 i calm (sAt i) ∧ sOp i = op) ∧
    (let i := sIns op 1 2 3 0 + 1 <<< 9;
      cellIs .s 6 = true ∧ (sAt i).insAt 6 = some i ∧ sGuard ((sAt i).sst 6) i = false ∧ (sAt i).fenced 6 = false ∧ 0 + 1 < (sAt i).progLen 6) := by
  decide +kernel

/-- ScalarRegisters, CMP with a poisoned source, branches, JR within and past the program, END as the last instruction. -/
theorem meets_SControl :
    (let i := sIns 0x1C 1 2 3 0; let s := (sAt i).modCell 6 fun x => { x with sc := x.sc.setReg 2 7 true }
      SReady 6 i calm s ∧ (s.sst 6).poison (sGa i) = true) ∧
    (let i := sIns 0x1C 1 2 3 0; SReady 6 i calm (sAt i) ∧ ((sAt i).sst 6).poison (sGa i) = false ∧ ((sAt i).sst 6).poison (sGb i) = false) ∧
    (∀ op ∈ [0x28, 0x29], let i := op + 1 <<< 10; SThere 6 i calm (sAt i) ∧ ((1 : Nat) : Int) = 0 + sOff i ∧ 1 < (sAt i).progLen 6) ∧
    (let i := sIns 0x2A 0 2 0 0; SThere 6 i calm (sAt i) ∧ ((sAt i).sst 6).reg (sGa i) < (sAt i).progLen 6) ∧
    (let i := sIns 0x2A 0 2 0 0; let s := gSet [(2, 2)] (sAt i); SThere 6 i calm s ∧ s.progLen 6 ≤ (s.sst 6).reg (sGa i)) ∧
    (∀ k ∈ [0, 1, 2, 3], let i := sIns 0x3E 1 0 k 0; SThere 6 i calm (sAt i) ∧ sImm i = k ∧ 0 + 1 < (sAt i).progLen 6) ∧
    SThere 6 0x3F calm (playing 6 [] [0x3F] run0) := by decide +kernel

/-- SMemory: at the last word of bank 1, unpoisoned. -/
theorem meets_SMemory :
    let i := sIns 0x22 1 2 0 0
    let s := gSet [(1, 5), (2, 0x1FFFF8)] (sAt i)
    SReady 6 i calm s ∧ (s.sst 6).poison (sGa i) = false ∧ (s.sst 6).poison (sGd i) = false ∧ s.mem.spPoison = [] ∧
      s.bankCause 6 (sAddress (s.sst 6) i) 8 8 = none ∧ s.bankCause 6 (sAddress (s.sst 6) i) 4 4 = none := by decide +kernel

/-- SQueues: a cue to send and one to take, a message to send and one to take, a predicated pair, an empty queue. -/
theorem meets_SQueues :
    (let i := sIns 0x30 0 1 2 0; let s := chan5 6 1 (epAt 6 1 cueOut (sAt i))
      SReady 6 i calm s ∧ s.cueCause 6 1 = none ∧ (s.cueSend 6 1 ((s.sst 6).reg (sCa i))).1 = true ∧ sEp i = 1) ∧
    (let i := sIns 0x31 3 1 2 0; let s := epAt 6 1 cueIn (sAt i)
      SReady 6 i calm s ∧ s.recvCause 6 1 true = none ∧ s.hasMsg 6 1 = true ∧ (s.readCue 6 1 []).2.fenced 6 = false) ∧
    (let i := sIns 0x32 3 1 2 0; let s := gSet [(3, 1)] (chan5 6 1 (epAt 6 1 plainOut (sAt i)))
      SReady 6 i calm s ∧ s.sendCause 6 1 1 = none ∧ s.bankCause 6 0 32 32 = none ∧ (s.epSend 6 1 (List.replicate 1 ⟨[], false⟩)).1 = true ∧
        (s.readRun 6 0 1 []).2.fenced 6 = false) := by decide +kernel

/-- SQueues, the rest. -/
theorem meets_SQueues_recv :
    (let i := sIns 0x33 3 1 2 0; let s := epAt 6 1 plainIn (sAt i)
      SReady 6 i calm s ∧ s.recvCause 6 1 false = none ∧ s.hasMsg 6 1 = true ∧ s.bankCause 6 0 (32 * s.headLen 6 1) 32 = none ∧
        (s.readHead 6 1 []).2.fenced 6 = false) ∧
    (let i := sIns 0x34 3 2 2 0; let s := epAt 6 2 { plainIn with cfg := plainIn.cfg + 1 <<< 7 } (epAt 6 3 plainIn (sAt i))
      SReady 6 i calm s ∧ epPair (s.ep 6 2).cfg = true ∧ s.recvCause 6 2 false = none ∧ s.recvCause 6 3 false = none ∧ s.hasMsg 6 2 = true ∧
        s.hasMsg 6 3 = true ∧ s.bankCause 6 0 (32 * s.headLen 6 2) 32 = none ∧ (s.readHead 6 2 []).2.fenced 6 = false ∧ sEp i = 2) ∧
    (let i := sIns 0x31 3 1 2 0; let s := epAt 6 1 { cueIn with recs := [] } (sAt i)
      SReady 6 i calm s ∧ s.recvCause 6 1 true = none ∧ s.hasMsg 6 1 = false) := by decide +kernel

/-- SMesh: a remote write, an answered and a new grant request, barriers open and closed, a flag word. -/
theorem meets_SMesh :
    (let i := sIns 0x35 0 2 3 0; let s := gSet [(3, spAddr 5 0)] (loaded (sAt i))
      SReady 6 i calm s ∧ s.bankCause 6 0 32 32 = none ∧ (s.sst 6).reg (sGb i) % 32 = 0 ∧ s.mapAddress (spAddr 5 0) = some (5, 0) ∧ 0 % 0x100000 + 32 * (sFunc i + 1) ≤ 0x100000 ∧
        (s.readRun 6 0 1 []).2.fenced 6 = false) ∧
    (let i := sIns 0x36 1 2 0 0; let s := ((sAt i).modEng 6 fun e => { e with wait := .grant }).modCell 6 fun x => { x with sc := { x.sc with answer := some 0 } }
      SReady 6 i calm s ∧ (s.cell 6).eng.wait = .grant ∧ (s.sst 6).answer = some 0) ∧
    (let i := sIns 0x36 1 2 0 0; let s := State.writeBytes (loaded (sAt i)) (spAddr 6 0) [5]; let r := s.readSpan 6 0 32 []
      let w := ofLE (r.1.take 8) ||| (if (r.1.drop 8).all (· == 0) then 0 else 2 ^ 26)
      SReady 6 i calm s ∧ (s.cell 6).eng.wait ≠ .grant ∧ s.bankCause 6 0 32 1 = none ∧ r.2.2.fenced 6 = false ∧ r.2.1 = false ∧
        r.2.2.physical (grTarget w) = some 5 ∧ r.2.2.laneLoad 6 < 8) := by decide +kernel

/-- SMesh, barriers and flag words. -/
theorem meets_SMesh_objects :
    (∀ op ∈ [0x37, 0x38], let i := sIns op 0 0 7 0; let s := sBound i;
      SReady 6 i calm s ∧ s.objectCause 6 i false = none ∧ s.barDone 6 7 = true ∧ s.laneLoad 6 < 8 ∧ sObject (s.sst 6) i = 7) ∧
    (let i := sIns 0x38 0 0 7 0; let s := (sBound i).modCell 6 fun x => { x with bars := [(7, ⟨1, 0⟩)] }
      SReady 6 i calm s ∧ s.objectCause 6 i false = none ∧ s.barDone 6 7 = false) ∧
    (∀ op ∈ [0x39, 0x3A], let i := sIns op 1 0 9 0; let s := sBound i;
      SReady 6 i calm s ∧ s.objectCause 6 i true = none ∧ (s.sst 6).poison (sGd i) = false ∧ s.laneLoad 6 < 8) := by decide +kernel

/-- STickets: room for a ticket and none; a number with a ticket and one without. -/
theorem meets_STickets :
    (let i := sIns 0x3B 1 2 0 0; let s := sAt i
      SReady 6 i calm s ∧ s.paired = false ∧ s.bankCause 6 (sAddress (s.sst 6) i) 64 1 = none ∧ s.kv.tickets.length < 4096 ∧
        (s.readSpan 6 0 64 []).2.2.fenced 6 = false ∧ (s.readSpan 6 0 64 []).2.1 = false) ∧
    (let i := sIns 0x3C 1 2 0 0; let s := sAt i; SReady 6 i calm s ∧ SMap.get? s.kv.tickets ((s.sst 6).reg (sGa i) % 2 ^ 32) = none) ∧
    (let i := sIns 0x3C 1 2 0 0; let s := (sAt i).modKv fun v => { v with tickets := [(0, ticketOf 6 [])] }
      SReady 6 i calm s ∧ (SMap.get? s.kv.tickets ((s.sst 6).reg (sGa i) % 2 ^ 32)).isSome = true) := by decide +kernel

/-! ### M-cells -/

namespace Sys2Proof.Tests

/-- A descriptor of INT8 operands, 2 rows, 3 columns, reduction length 64, one block, last of its chain, with further fields of word 0. -/
def mDesc (w0 : Nat) : Nat := 1 <<< 3 + 0x0A <<< 16 + 0x0A <<< 24 + w0 + (2 + 3 <<< 10 + 64 <<< 16 + 1 <<< 32 + 1 <<< 48) <<< 448

/-- D(0,0) B0 C0 in a phase of that descriptor. -/
def mAt (w0 : Nat) (f : MSt → MSt) : State := (playing 0 [] [mDesc w0] run0).modCell 0 fun x => { x with m := f x.m }

/-- No event of the hardware. -/
def still : MHw := ⟨[], []⟩

/-- Operands of zeros, and an accumulator at 5 that nothing explains. -/
def badAcc (x : MSt) : MSt :=
  { x with phase := .check, acc := [(accKey 0 0, 5)], ops := ⟨List.replicate 2 ([], false), List.replicate 3 ([], false)⟩ }

end Sys2Proof.Tests

/-- MatrixStep: a first K-step with its operands there. -/
theorem meets_MatrixStep :
    let s := mAt 0 fun x => { x with phase := .stream }
    let q := (s.modM 0 fun x => { x with old := x.acc, oldPoison := x.accPoison }).readOps 0 (mDesc 0) (List.range 2) []
    MReady 0 (mDesc 0) s ∧ (s.mst 0).phase = .stream ∧ s.aReady 0 (mDesc 0) = true ∧
      ¬((s.mst 0).kIdx = 0 ∧ (dInit (mDesc 0) = 1 ∨ (s.mst 0).sub = 0 ∧ 2 ≤ (s.mst 0).waitingBlocks)) ∧ stepRows (mDesc 0) 0 = [0, 1] ∧ dRows (mDesc 0) = 2 ∧ dCols (mDesc 0) = 3 ∧
      q.2.fenced 0 = false ∧ q.2.armed 0 (mDesc 0) = none := by decide +kernel

/-- CleanIntegerStepPasses: before the K-step nothing differs. -/
theorem meets_CleanIntegerStepPasses : MSt.init.acc = MSt.init.old ∧ (⟨[], []⟩ : KOps).cols.length ≤ 32 ∧ 31 < 32 := by decide

/-- MatrixCheck: a group that passes, one that fails under each policy, no group left. -/
theorem meets_MatrixCheck :
    (let s := mAt 0 fun x => { x with phase := .check, group := 1 };
      MReady 0 (mDesc 0) s ∧ (s.mst 0).phase = .check ∧ groupsFrom (mDesc 0) (s.mst 0).sub (s.mst 0).group = []) ∧
    groupsFrom (mDesc 0) 0 0 = [0] ∧
    (∀ p ∈ [0, 1, 2], let d := mDesc (p <<< 11); let s := mAt (p <<< 11) badAcc;
      MReady 0 d s ∧ (s.mst 0).phase = .check ∧ dPolicy d = p ∧
        (checkGroup (dInt d) (s.mst 0) (groupPlaces d 0) (Config.freeValue s.freeIdx).toNat).hit = true) ∧
    (checkGroup true MSt.init (groupPlaces (mDesc 0) 0) (Config.freeValue 0).toNat).hit = false := by decide +kernel

/-- MatrixChain: decoding with and without a cue, the end of a K-step, a replay, a drained row to a bank and to an endpoint. -/
theorem meets_MatrixChain :
    (MReady 0 (mDesc 0) (mAt 0 id) ∧ ((mAt 0 id).mst 0).phase = .idle ∧ ((mAt 0 id).mst 0).cues = [] ∧ dWaitCue (mDesc 0) = false) ∧
    (let w := 1 <<< 52 + 1 <<< 53; let s := epAt 0 1 cueIn (mAt w id);
      MReady 0 (mDesc w) s ∧ dWaitCue (mDesc w) = true ∧ s.hasMsg 0 (dCueEp (mDesc w)) = true ∧ (mAt w id).hasMsg 0 1 = false) ∧
    (let s := mAt 0 fun x => { x with phase := .check, group := 1 };
      groupsFrom (mDesc 0) (s.mst 0).sub (s.mst 0).group = [] ∧ s.fenced 0 = false ∧ (s.mst 0).kIdx + 1 < dSteps (mDesc 0)) ∧
    (let s := mAt 0 fun x => { x with phase := .replay };
      MReady 0 (mDesc 0) s ∧ (s.mst 0).phase = .replay ∧
        ((s.modM 0 fun x => x.restore [0, 1]).readOps 0 (mDesc 0) [0, 1] []).2.fenced 0 = false) := by decide +kernel

/-- MatrixChain, drains. -/
theorem meets_MatrixChain_drain :
    (let s := mAt 0 fun x => { x with drain := [⟨0, 0, 0, 0, [1, 2, 3], 0, false⟩] };
      MReady 0 (mDesc 0) s ∧ s.descAt 0 0 = some (mDesc 0) ∧ dOqueue (mDesc 0) = false) ∧
    (let w := 1 <<< 46 + 1 <<< 47; let s := chan5 0 1 (epAt 0 1 plainOut (mAt w fun x => { x with drain := [⟨0, 0, 0, 0, [1, 2, 3], 0, false⟩] }));
      MReady 0 (mDesc w) s ∧ dOqueue (mDesc w) = true ∧ dOep (mDesc w) = 1 ∧ (s.epSend 0 1 (drainGrans (mDesc w) ⟨0, 0, 0, 0, [1, 2, 3], 0, false⟩)).1 = true ∧
        ((epAt 0 1 { plainOut with credit := 0 } s).epSend 0 1 (drainGrans (mDesc w) ⟨0, 0, 0, 0, [1, 2, 3], 0, false⟩)).1 = false) := by decide +kernel

/-! ### Scenes, fences, scratchpads, grants -/

namespace Sys2Proof.Tests

/-- D(0,0) B0 C4 that plays, with its scene state changed. -/
def scene4 (f : SceneSt → SceneSt) : State := run0.modCell 4 fun x => { x with scene := f { x.scene with playing := true } }

/-- The house clock at one second. -/
def sec (s : State) : State := { s with now := 1000000000 }

/-- The cell holds a remote write of one granule of porter 1 to its offset 0. -/
def write1 : RemWrite := ⟨0xF001, spAddr 4 0, [⟨List.replicate 32 1, false⟩], 0⟩

/-- D(0,0) B0 C4 with that write at its port, and grants. -/
def wr4 (g : GrantSt) : State := run0.modCell 4 fun x => { x with port := { x.port with writes := [write1] }, grants := g }

/-- A window of 64 B in bank 0 that S-cells and porters may fill, with auto_free. -/
def winDecl : Nat := 1 + 64 <<< 24 + 3 <<< 45 + 1 <<< 52

/-- D(0,0) B0 C4 with a request at its port and window 0. -/
def req4 (it : Item) (w : Win) : State := run0.modCell 4 fun x => { x with port := { x.port with inbox := [it] }, grants := ⟨[], [(0, w)], []⟩ }

end Sys2Proof.Tests

/-- Beats: a ready cell, one between scenes with and without the next image, one done with its entry. -/
theorem meets_Beats :
    cellValid 4 = true ∧
    (let s := scene4 fun y => { y with phase := .ready }; s.mayRun 4 = true ∧ (s.cell 4).scene.phase = .ready ∧ (s.cell 4).scene.entryDone = false) ∧
    (let s := scene4 fun y => { y with phase := .changing, store := [⟨[], []⟩] };
      s.mayRun 4 = true ∧ (s.cell 4).scene.phase = .changing ∧
        ((s.cell 4).scene.store.find? fun im => im.sceneNo == seScene ((s.cell 4).scene.entryWord 0)) = some ⟨[], []⟩) ∧
    (let s := scene4 fun y => { y with phase := .changing };
      s.mayRun 4 = true ∧ ((s.cell 4).scene.store.find? fun im => im.sceneNo == seScene ((s.cell 4).scene.entryWord 0)) = none) ∧
    (let s := scene4 fun y => { y with phase := .ready, entryDone := true }; s.mayRun 4 = true ∧ (s.cell 4).scene.entryDone = true) := by
  decide +kernel

/-- Stalls: at a barrier for a second, in a beat without progress while a cell of the group ended one, waiting for a refill. -/
theorem meets_Stalls :
    (let s := sec ((scene4 id).modEng 4 fun e => { e with wait := .barrier 7 });
      (s.cell 4).eng.wait = .barrier 7 ∧ s.isIn .running = true ∧ (s.cell 4).eng.waitAt + s.stallNs ≤ s.now) ∧
    (let s := sec (((scene4 fun y => { y with phase := .inBeat }).modCell 5 fun x => { x with scene := { x.scene with playing := true } }).modEng 5
        fun e => { e with beatAt := 5 });
      s.mayRun 4 = true ∧ (s.cell 4).scene.phase = .inBeat ∧ (s.cell 4).eng.wait = .none ∧ (s.cell 4).eng.progressAt + s.stallNs ≤ s.now ∧
        ∃ p ∈ s.cells, p.1 ≠ 4 ∧ p.2.scene.playing = true ∧ p.2.scene.group = (s.cell 4).scene.group ∧ (s.cell 4).eng.progressAt < p.2.eng.beatAt) ∧
    (let s := scene4 fun y => { y with phase := .refill }; s.mayRun 4 = true ∧ (s.cell 4).scene.phase = .refill) := by decide +kernel

/-- Fences: a fenced cell alone and in a fenced block; a first and a second fence condition of a block. -/
theorem meets_Fences :
    (run0.firmware = true ∧ (run0.fenceCell 4 1).firmware = true ∧ (run0.fenceCell 4 1).flag (Reg.BLK_STATUS_block_fenced 0) = false ∧
      (run0.fenceCell 4 1).fenced 4 = true ∧ ((run0.fenceCell 4 1).fenceCell 5 1).flag (Reg.BLK_STATUS_block_fenced 0) = true) ∧
    (run0.fenced 4 = false ∧ run0.flag (Reg.BLK_STATUS_cell_fence_valid (4 / 32)) = false) ∧
    ((run0.fenceCell 5 1).fenced 4 = false ∧ (run0.fenceCell 5 1).flag (Reg.BLK_STATUS_cell_fence_valid (4 / 32)) = true) := by decide +kernel

/-- RemoteWrites: to a fenced cell, between scenes, under a static grant, in a window, and with none. -/
theorem meets_RemoteWrites :
    spDecode write1.addr = some (4, 0) ∧
    (let s := (wr4 ⟨[], [], []⟩).fenceCell 4 1; (s.cell 4).port.writes = [write1] ∧ s.fenced 4 = true) ∧
    (let s := (wr4 ⟨[], [], []⟩).modScene 4 fun y => { y with phase := .changing };
      s.fenced 4 = false ∧ (s.cell 4).scene.phase = .changing ∧ (s.cell 4).port.writes = [write1]) ∧
    (let s := wr4 ⟨[⟨0, 0, 64, 0xF001⟩], [], []⟩;
      s.fenced 4 = false ∧ (s.cell 4).scene.phase ≠ .changing ∧ (s.modPort 4 fun p => { p with writes := [] }).judge 4 0xF001 0 32 = .static) ∧
    (let s := wr4 ⟨[], [(0, ⟨winDecl, .granted, 0xF001, 32, 0⟩)], []⟩;
      (s.modPort 4 fun p => { p with writes := [] }).judge 4 0xF001 0 32 = .window 0 ∧ (s.win 4 0).isSome = true) ∧
    (wr4 ⟨[], [], []⟩).judge 4 0xF001 0 32 = .refused 1 := by decide +kernel

/-- Grants: ACQUIRE of a free, a granted and a missing window and with a count of 0; RELEASE; FREE; an answer. -/
theorem meets_Grants :
    (∀ st ∈ [WinState.free, .granted], let r := 32 <<< 32; let s := req4 ⟨8, 0, 4, 0, 6, 0, 0, r, 0⟩ ⟨winDecl, st, 6, 32, 0⟩;
      (s.cell 4).port.inbox = [⟨8, 0, 4, 0, 6, 0, 0, r, 0⟩] ∧ (s.cell 4).scene.phase ≠ .changing ∧ (s.win 4 (grWindow r)).isSome = true ∧
        grClean r = true ∧ grType r = 0 ∧ writerAllowed winDecl 6 = true ∧ countOk winDecl (grCount r) = true) ∧
    (grClean 0 = true ∧ grType 0 = 0 ∧ (writerAllowed winDecl 6 && countOk winDecl (grCount 0)) = false) ∧
    (let r := 1 <<< 24 + 32 <<< 32; grClean r = true ∧ grType r = 1 ∧ countOk winDecl (grCount r) = true) ∧
    (let r := 2 <<< 24; grClean r = true ∧ grType r = 2 ∧ grCount r = 0 ∧ 6 / 32 = 4 / 32 ∧ cOf 6 = 6 ∧ 6 < 0xF000) ∧
    (req4 ⟨8, 0, 4, 0, 6, 0, 0, 1 <<< 16, 0⟩ ⟨winDecl, .free, 0, 0, 0⟩).win 4 (grWindow (1 <<< 16)) = none := by decide +kernel

/-- Sweep: a strip due, failures that the spares repair and that they do not, the shadow strip. -/
theorem meets_Sweep :
    (let s := sec ((sec run0).set (Reg.SP_SWEEP_CTRL_enable 0) 1);
      s.isIn .running = true ∧ s.flag (Reg.SP_SWEEP_CTRL_enable (gOf 4)) = true ∧ s.fenced 4 = false ∧ s.get (Reg.REGION_THERMAL_tstate (gOf 4)) < 2 ∧
        (s.bank 4 3).strip < 256 ∧ ((s.set (Reg.SP_SWEEP_CTRL_period 0) 1).bank 4 3).atT + (s.set (Reg.SP_SWEEP_CTRL_period 0) 1).sweepPeriod 0 * 1000000000 / 256 ≤ s.now) ∧
    (assignSpares [] (repairTargets 0 [⟨0, 0, 0, 0⟩])).2 = true ∧
    (assignSpares ((List.range 64).map fun i => ⟨i, i % 2 == 0, i, 2, true, false⟩) (repairTargets 0 [⟨0, 0, 0, 0⟩])).2 = false ∧
    3 < bankCount 4 ∧ ((run0.modBank 4 3 fun x => { x with strip := 256 }).bank 4 3).strip = 256 := by decide +kernel

/-! ### The mesh and the transport -/

namespace Sys2Proof.Tests

/-- A flit of virtual channel 0 that waits at a stage. -/
def flit0 : Flit := ⟨0, 1, true, true, false, 0, 0, 0, 1, List.replicate 32 7, 0, 0, 0⟩

/-- A packet of one granule from porter 2 to D(0,0) B0 C4, sealed. -/
def pkt (ty : Nat) : Packet := mkPacket ty 2 0 0xF002 4 (spAddr 4 0) 9 [⟨List.replicate 32 1, false⟩]

/-- A head flit of a packet. -/
def headFlit (p : Packet) : Flit := { flit0 with vc := 1, data := p.hdr.flatMap fun w => toLE 8 w.toNat, tail := false }

/-- Block 0 with its crossing changed. -/
def xr0 (f : XrSt → XrSt) : State := run0.modXr 0 f

/-- A combine entry of barrier 7 whose children are ports 4 and 1. -/
def comb (parent mask0 : Nat) : CombineSt := ⟨2 ^ 4 + 2 ^ 1, parent, mask0, 0, 0, 0⟩

/-- An arrival or completion item of barrier 7, from porter 0. -/
def arr (ty : Nat) : Item := ⟨ty, 0, 0xFFFF, 0, 0xFFFF, 0, 0, 7, 0⟩

/-- One at local port 4. -/
def vcTree (ty : Nat) (x : XrSt) : XrSt := { x with vc2 := [(4, [arr ty])] }

end Sys2Proof.Tests

/-- SlotsAndRigging: a rigged slot with its flit; a slot without one and a virtual-channel-3 flit, a packet flit, neither. -/
theorem meets_Slots :
    blkValid 0 = true ∧ 4 ≤ 10 ∧ 63 < slotCount 0 4 ∧ run0.slotRuns 0 = true ∧
    (let s := xr0 fun x => { x with variants := [⟨[(4 * 64, 1 + 5 <<< 1 + 1 <<< 5)], [(5 * 16 + 1, 1 + 2 ^ 4 <<< 1)], []⟩], stages := [(5 * 16 + 1, ⟨[flit0], 0⟩)] };
      (slotUsed (slotEntry (s.xr 0).cur 4 0) = true ∧ slotKey (slotEntry (s.xr 0).cur 4 0) = 81) ∧ s.slotFlit 0 4 0 = some (81, flit0)) ∧
    (let s := xr0 fun x => { x with vc3 := [(5, [{ flit0 with vc := 3 }])] };
      s.slotFlit 0 4 0 = none ∧ s.vc3Room 0 4 = true ∧ (s.xr 0).vc3Pick 0 4 = some 5 ∧ SMap.getD (s.xr 0).lastVc3 4 0 = 0) ∧
    (let s := xr0 fun x => { x with vc1 := [(5, ⟨[headFlit (pkt 1)], 2 ^ 4, 0, false⟩)] };
      s.slotFlit 0 4 0 = none ∧ s.pktNext 0 4 0 = some 5 ∧ (s.xr 0).vc3Pick 0 4 = none) ∧
    (run0.slotFlit 0 4 0 = none ∧ (run0.xr 0).vc3Pick 0 4 = none ∧ run0.pktNext 0 4 0 = none) ∧ (run0.cut 0).slotRuns 0 = false := by decide +kernel

/-- SlotsAndRigging: a period due. -/
theorem meets_Rigging :
    (regionValid 0 = true ∧ ∃ b ∈ regionBlocks 0, ((sec run0).xr b).periodAt < (sec run0).now / 32) := by decide +kernel

/-- SlotsAndRigging: a set of detours; the check, which either passes or not, on two hops in line and on two in a circle. -/
theorem meets_Detours :
    blkValid 1 = true ∧ (∀ p ∈ ([(1, [5])] : List (Nat × List Word64)), p.1 = 1 → p.2.take 16 = run0.detoursAfter [(1, [5])] 1) ∧
      acyclicIn 9 [(1, 2), (2, 3)] = true ∧ acyclicIn 9 [(1, 2), (2, 1)] = false ∧ ∀ set, run0.detoursOk set = true ∨ run0.detoursOk set = false := by
  refine ⟨by decide +kernel, by decide +kernel, by decide +kernel, by decide +kernel, fun set => ?_⟩
  cases run0.detoursOk set <;> decide

/-- PacketRouting: a packet to its cell, to a fenced one, to a column beyond the edge of the mesh; a multicast packet and a NAK. -/
theorem meets_PacketRouting :
    (let s := xr0 fun x => { x with vc1 := [(1, ⟨[headFlit (pkt 1)], 0, 0, false⟩)] }; let h := headerOf (headFlit (pkt 1));
      (SMap.getD (s.xr 0).vc1 1 .init).flits = [headFlit (pkt 1)] ∧ h.mcast = false ∧ route (s.xr 0) 0 h.dst (bits (h.w 2) 33 5) = 8 ∧
        s.fenced (0 * 32 + (8 - 4)) = false ∧ s.deadEnd 0 8 true = false ∧ (s.fenceCell 4 1).fenced (0 * 32 + (8 - 4)) = true) ∧
    (let p := (pkt 1).setW 0 48 16 32; let s := (xr0 id).setLink 0 1 5;
      route (s.xr 0) 0 (headerOf (headFlit p)).dst 0 = 1 ∧ (s.cut 0).deadEnd 0 1 true = true) ∧
    (let p := (pkt 1).setW 0 9 1 1; (headerOf (headFlit p)).mcast = true) ∧
    (let p := (pkt 1).setW 0 9 1 1; let s := xr0 fun x => { x with groups := [((headerOf (headFlit p)).group, 1)] };
      SMap.getD (s.xr 0).groups (headerOf (headFlit p)).group 0 % 2048 ≠ 0 ∧ ∀ k, k < 7 → s.fenced (0 * 32 + k) = false) ∧
    (let k := pkt 6; let s := { run0.modPort 4 fun q => { q with pkts := [k] } with mesh := { run0.mesh with mcast := [(4, pkt 1)] } };
      (run0.modPort 4 fun q => { q with pkts := [k] }).leafNak 0 = some (4, k) ∧ s.mcastCopy 4 (pkt 1).tag = some (4, pkt 1)) := by decide +kernel

/-- SideLane: a hop, arrivals fresh and stale, a completion, a flag update and a flag value; a full mask and one not full. -/
theorem meets_SideLane :
    (let s := xr0 fun x => { x with combine := [(14, comb 15 0)] };
      SMap.get? (s.xr 0).combine 14 = some (comb 15 0) ∧ (comb 15 0).mask 0 ≠ (comb 15 0).childMask ∧ (comb 15 18).mask 0 = (comb 15 18).childMask) ∧
    (let s := xr0 fun x => { x with vc2 := [(5, [⟨1, 0, 4, 1, 5, 1, 0, 0, 0⟩])] };
      SMap.getD (s.xr 0).vc2 5 [] = [⟨1, 0, 4, 1, 5, 1, 0, 0, 0⟩] ∧ s.slotRuns 0 = true ∧ route (s.xr 0) 0 4 0 = 8 ∧ route (s.xr 0) 0 32 0 = 1 ∧ s.deadEnd 0 1 true = false) ∧
    ((run0.xr 0).treeHead 4 = none ∧ ((xr0 (vcTree 4)).xr 0).treeHead 4 = some (4, arr 4) ∧ run0.staleItem (arr 4) = false ∧ run0.staleItem { arr 4 with src := 4, epoch := 1 } = true ∧
      combKey false (arr 4).obj = 14) ∧
    (let s := xr0 fun x => { x with combine := [(14, comb 15 0)], treeIn := [arr 5] };
      (s.xr 0).treeHead 5 = some (15, arr 5) ∧ s.barred 0 7 = false ∧ s.downRoom 0 (comb 15 0).childMask = true ∧ s.itemRoom 0 1 = true) ∧
    (((xr0 (vcTree 6)).xr 0).treeHead 6 = some (4, arr 6) ∧ (0 : Nat) ||| 1 ≠ 0) ∧
    ((xr0 fun x => { x with treeIn := [arr 7] }).xr 0).treeHead 7 = some (15, arr 7) := by decide +kernel

/-- Seams: D(0,0) B3 east; up, with three failures, held, retraining; a flit with its fields at their bounds. -/
theorem meets_Seams :
    (let s := run0.setLink 3 1 2;
      seamEnd 3 1 = true ∧ s.linkUp 3 1 = true ∧ (s.setLink 3 1 3).linkState 3 1 = 3 ∧ (s.setLink 3 1 4).linkState 3 1 = 4 ∧
        (s.freeSpares 3 1).length = 2 ∧
        3 ≤ (((s.modWire (wireInto 3 1) fun w => { w with fails := [0, 0, 0] }).wire (wireInto 3 1)).fails.filter fun t => s.now < t + 1000000).length) ∧
    (3 < 4 ∧ flit0.stage < 16 ∧ flit0.poison < 256 ∧ (2 : Nat) ^ 64 - 1 < 2 ^ 64) := by decide +kernel

namespace Sys2Proof.Tests

/-- A control packet. -/
def ctl (ty : Nat) : Packet := mkPacket ty 0 0 0xF050 0xF050 0 0 []

/-- The transport of block 0 with a packet in. -/
def tpIn (hub : Bool) (p : Packet) (f : TpSt → TpSt) : State := run0.modTp 0 hub fun t => f { t with inq := [p] }

end Sys2Proof.Tests

/-- Transport: packets expected, repeated, out of order, damaged, ACK, CREDIT, NAK. -/
theorem meets_Transport_receive :
    (let s := tpIn false (pkt 1) id; let t := s.tp 0 false;
      t.inq = [pkt 1] ∧ ((pkt 1).hOk && !(pkt 1).linkErr) = true ∧ (pkt 1).pOk = true ∧ (pkt 1).ty < 5 ∧ (pkt 1).seq = t.expect):= by decide +kernel

/-- Transport, numbers that are not expected, damage, control packets. -/
theorem meets_Transport_others :
    (∀ e ∈ [1, 64], let t := (tpIn false (pkt 1) fun t => { t with expect := e }).tp 0 false;
      (pkt 1).seq ≠ t.expect ∧ (t.expect + 2 ^ 16 - (pkt 1).seq) % 2 ^ 16 ≤ 64) ∧
    (let t := (tpIn false (pkt 1) fun t => { t with expect := 65 }).tp 0 false; 64 < (t.expect + 2 ^ 16 - (pkt 1).seq) % 2 ^ 16) := by decide +kernel

/-- Transport, damage and control packets. -/
theorem meets_Transport_control :
    (({ pkt 1 with linkErr := true } : Packet).hOk && !({ pkt 1 with linkErr := true } : Packet).linkErr) = false ∧
    (∀ ty ∈ [5, 6, 7], (ctl ty).ty = ty ∧ ((ctl ty).hOk && !(ctl ty).linkErr) = true ∧ (ctl ty).dst = 0xF050) := by decide +kernel

/-- Transport, the NAK of a leaf. -/
theorem meets_Transport_leaf :
    (let k := mkPacket 6 0 0 4 5 0 9 []; let m : List (Nat × Packet) := [(5, mkPacket 1 2 0 5 0 0 9 [])];
      k.ty = 6 ∧ k.hOk = true ∧ k.dst ≠ 0xF050 ∧ (m.find? fun x => x.1 == k.dst && x.2.tag == k.tag).isSome = true) := by decide +kernel

/-- Transport, timers: progress overdue below and at the bound of resends, an acknowledgement due. -/
theorem meets_Transport_timers :
    let s := sec (tpIn false (pkt 1) fun t => { t with unacked := [pkt 1] })
    (s.tp 0 false).unacked ≠ [] ∧ (s.tp 0 false).progressAt + 4000 ≤ s.now ∧ (s.tp 0 false).resends < 16 ∧
      16 ≤ ((s.modTp 0 false fun t => { t with resends := 16 }).tp 0 false).resends ∧ (s.tp 0 false).ackAt + 1000 ≤ s.now := by decide +kernel

/-- CellPackets: packets of each kind at D(0,0) B0 C4, good and damaged, and at a fenced cell. -/
theorem meets_CellPackets :
    (∀ ty ∈ [1, 3, 4], let s := run0.modPort 4 fun q => { q with pkts := [pkt ty] };
      cellValid 4 = true ∧ s.gated 4 = false ∧ (s.cell 4).port.pkts = [pkt ty] ∧ s.fenced 4 = false ∧ (pkt ty).mcast = false ∧ (pkt ty).hOk = true ∧ 0xF000 ≤ (pkt ty).src ∧
        (pkt ty).ty = ty ∧ (pkt ty).pOk = true ∧ (pkt ty).linkErr = false ∧ spDecode (pkt ty).addr = some (4, 0) ∧ 0 + 32 * 1 ≤ bankCount 4 * 0x100000) ∧
    (let p := ((mkPacket 2 2 0 0xF002 4 (spAddr 4 0) 9 []).setW 0 16 8 1).seal; p.ty = 2 ∧ p.len = 1 ∧ p.hOk = true ∧ p.pOk = true ∧ p.linkErr = false) ∧
    (let p := { pkt 1 with payload := [⟨List.replicate 32 2, false⟩] }; p.hOk = true ∧ p.pOk = false) ∧
    ((pkt 1).setW 2 0 16 1).hOk = false ∧ (run0.fenceCell 4 1).fenced 4 = true ∧
    (chan5 4 0 run0).chan (hIndex 5) = { ChanSt.init with live := true, ty := 2, send := some ⟨4, 0⟩, recv := some ⟨5, 1⟩ } := by decide +kernel

/-! ### Channels, acts, the stager -/

namespace Sys2Proof.Tests

/-- Handle of channel 5, of a type, with its first generation. -/
def h5 (ty : Nat) : Nat := 5 + 1 <<< 16 + ty <<< 28

/-- D(0,0) B0 C5 with a receiving endpoint 1 on channel 5 (from a porter) and a message of one granule for it. -/
def msgIn (e : EpSt) (pad : Nat) : State :=
  ((epAt 5 1 { e with handle := h5 2 } run0).modChan 5 fun x => { x with live := true, ty := 2, send := some ⟨0xF000, 0⟩, recv := some ⟨5, 1⟩ }).modPort 5
    fun p => { p with msgs := [(1, [⟨h5 2, 0, 0, pad, [⟨List.replicate 32 1, false⟩], 0, true⟩])] }

/-- A chorus endpoint of two slots of 64 B of FP32, released after one contribution. -/
def chorusIn : EpSt := { EpSt.init with cfg := 2 + 7 <<< 28 + 6 <<< 98 + 1 <<< 102 }

/-- A gate of one port, 3, at endpoint 1, steered by cue endpoint 2. -/
def gate (f : EpAux → EpAux) : State :=
  ((playing 4 [] [] (epAt 4 1 { plainIn with cfg := plainIn.cfg + 1 <<< 64 + 3 <<< 68 + 2 <<< 88 } (epAt 4 2 cueIn (epAt 4 3 plainIn run0))))).modAux 4 1 f

end Sys2Proof.Tests

/-- ChannelArrivals: a message that lands, one of another generation, a contribution taken and one out of its window. -/
theorem meets_ChannelArrivals :
    (let s := msgIn { plainIn with recs := [] } 0; let m := nth (SMap.getD (s.cell 5).port.msgs 1 []) 0 ⟨0, 0, 0, 0, [], 0, true⟩; let r := (s.ep 5 1).cfg;
      m.handle = h5 2 ∧ epKind r ≠ 2 ∧ s.rejectMsg 5 1 m = none ∧ m.pad = 0 ∧ epWings r = 0 ∧ epStorage r ≠ 0 ∧ epBase r % 32 = 0 ∧
        (∀ g ∈ m.grans, g.data.length = 32) ∧ (s.rejectMsg 5 1 { m with handle := h5 2 + 1 <<< 16 }).isSome = true) ∧
    (let s := msgIn chorusIn 0; let m : Msg := ⟨h5 2, 0, 0, 0, List.replicate 2 ⟨List.replicate 32 0, false⟩, 0, true⟩; let r := (s.ep 5 1).cfg;
      epKind r = 2 ∧ s.rejectMsg 5 1 m = none ∧ epItem r 0 = 0 ∧ epSlots r = 2 ∧ m.grans.length = epContrib r ∧ epItem r 2 = 2) ∧
    (let s := (epAt 5 1 { cueIn with recs := [] } run0).modPort 5 fun p => { p with inbox := [⟨1, 0, 5, 1, 4, 1, 3, 9, 0⟩] };
      (s.cell 5).port.inbox = [⟨1, 0, 5, 1, 4, 1, 3, 9, 0⟩] ∧ epKind (s.ep 5 1).cfg = 3 ∧ epSends (s.ep 5 1).cfg = false ∧ (s.aux 5 1).draining = false) ∧
    (let s := sec (epAt 5 1 { plainIn with unsent := 1, recs := [], wing := [⟨false, 0, 1, 0⟩] } run0); let e := s.ep 5 1;
      e.unsent ≠ 0 ∧ e.unsentSince + 1000 ≤ s.now ∧ e.wing = [⟨false, 0, 1, 0⟩] ∧ (e.recs.length + 1) * epMaxGran e.cfg ≤ epStorage e.cfg) := by
  decide +kernel

/-- ChannelControl: a gate at a mismatch, without its message, with it; stalls; a drained channel; a declared hang. -/
theorem meets_ChannelControl :
    (let s := gate id;
      s.mayRun 4 = true ∧ epGate (s.ep 4 1).cfg = true ∧ (s.aux 4 1).gateStopped = false ∧ s.hasMsg 4 (epGateCue (s.ep 4 1).cfg) = true ∧
        s.headCue 4 2 = (0, 0) ∧ (s.aux 4 1).gateTag = 0 ∧ 0 % 4 ≤ epGateN (s.ep 4 1).cfg ∧ s.hasMsg 4 1 = true ∧ (s.headRec 4 1).num % 256 = 0 ∧
        (epAt 4 1 { s.ep 4 1 with recs := [] } s).hasMsg 4 1 = false) ∧
    ((gate fun x => { x with gateTag := 1 }).aux 4 1).gateTag ≠ 0 ∧
    (let s := sec (epAt 4 1 { plainOut with waitSince := some 0 } run0); (s.ep 4 1).waitSince = some 0 ∧ s.isIn .running = true ∧ 0 + s.stallNs ≤ s.now) ∧
    (let s := sec (gate fun x => { x with skewSince := some 0 }); (s.aux 4 1).skewSince = some 0 ∧ epGate (s.ep 4 1).cfg = true ∧ 0 + s.skewNs ≤ s.now) ∧
    (let s := (chan5 4 1 run0).modChan 5 fun x => { x with draining := true };
      (s.chan 5).draining = true ∧ (s.chan 5).send = some ⟨4, 1⟩ ∧ (s.chan 5).recv = some ⟨5, 1⟩ ∧ ∀ p ∈ s.chans, p.2.next = none) ∧
    (let s := sec ((epAt 4 1 { plainOut with stalled := some 0 } (epAt 5 1 { plainOut with stalled := some 0 } run0)).modRcv fun r => { r with twoSince := some 0 }); s.hung = true ∧ s.isIn .running = true) := by
  decide +kernel

namespace Sys2Proof.Tests

/-- An act queued for the next 1,000 ns, or open since 0 until 500. -/
def actSoon (open0 : Nat) : State := run0.modActs fun a => { a with queue := [⟨open0, 1000, 1, 0, 1, 0⟩] }
/-- An act open since 0 until 500. -/
def actNow (roster : List RosterEnt) : State := run0.modActs fun a => { a with cur := some ⟨1, 0, 500, 0, false, false, roster⟩ }

/-- A submission ring with binding `b` whose first entry is at hand, Bus Master Enable on. -/
def ring0 (b : Nat) : State := (run0.modHost fun h => { h with bme := true }).modRing 0 fun r => { r with live := true, binding := b, tail := 1 }

/-- An entry of one granule for that ring. -/
def ent0 (ty : Nat) (body : List Byte) : List Byte := toLE 1 ty ++ toLE 1 1 ++ toLE 2 0 ++ toLE 4 0 ++ toLE 4 (6 <<< 28 + 1 <<< 16) ++ toLE 4 0 ++ body

/-- Slot 0 in DECODE, 32 B rows, one layer. -/
def slot0 : SlotSt := { SlotSt.init with st := 3, gen := 1, layers := 1, tok := 1, hot := 1, pt := 4, maxLen := 100 }

/-- A ticket of an operation on slot 0 for act 1, judged, held by D(0,0) B0 C6; addr: offset 0 of logical cell 5. -/
def tick (op : Nat) : Ticket := { ticketOf 6 [] with op := op, gen := 1, act := 1, addr := spAddr 5 0, count := 1, status := 0, judged := true }

/-- RUNNING with slot 0, a ticket, pages to take, act 1 open. -/
def stg (k : Ticket) : State :=
  ((loaded (actNow [])).modSlot 0 fun _ => slot0).modKv fun v => { v with base := 0, len := 10 * 65536, tickets := [(0, k)] }

end Sys2Proof.Tests

/-- Acts: an act that opens, one too late, a curtain, an idle period, slots that close. -/
theorem meets_Acts :
    (let s := actSoon 0; s.acts.cur = none ∧ s.nextAct = some (1, 0, 1000, 0) ∧ s.isIn .running = true ∧ 0 ≤ s.now ∧ s.now < 1000 ∧ 1000 ≤ (sec s).now) ∧
    (let s := sec (actNow []); s.acts.cur = some ⟨1, 0, 500, 0, false, false, []⟩ ∧ 500 ≤ s.now) ∧
    (let s := sec run0; s.acts.cur = none ∧ s.acts.queue = [] ∧ s.rcv.periodAt + 16 * s.stallNs ≤ s.now) ∧
    (let s := run0.modSlot 0 fun x => { x with st := 4 }; (s.slot 0).st = 4 ∧ (s.slot 0).reopen = none) ∧
    ((run0.modSlot 0 fun x => { x with st := 4, reopen := some (0, 0, []) }).slot 0).reopen = some (0, 0, []) := by decide +kernel

/-- Acts: a PROMPT and an ENROL entry at the head of a ring. -/
theorem meets_Acts_rings :
    (let s := (ring0 0).modSlot 0 fun _ => slot0; let b := toLE 2 0 ++ toLE 2 1 ++ toLE 1 1 ++ List.replicate 43 (0 : Byte); let e := ent0 0x11 b;
      s.readRing 0 e = .entry 0 1 b ∧ ofLE (e.take 1) = 0x11 ∧ (s.readEnrol b).isSome = true) ∧
    (let s := (ring0 0).modSlot 0 fun _ => slot0; let b := toLE 2 0 ++ toLE 2 1 ++ toLE 4 1 ++ toLE 8 1 ++ List.replicate 32 (0 : Byte); let e := ent0 0x10 b;
      s.readRing 0 e = .entry 0 1 b ∧ ofLE (e.take 1) = 0x10 ∧ (s.readPrompt b).isSome = true) := by decide +kernel

/-- Stager: tickets of each operation that work; an APPEND with rows and pages, without pages, from no cell; one landed. -/
theorem meets_Stager :
    (∀ op ∈ [1, 2, 3, 4, 5], (stg (tick op)).workable 0 op = some (tick op)) ∧ (tick 1).judged = true ∧ (tick 1).closed = false ∧
    (let s := stg (tick 2);
      s.appendRows (tick 2) = some (5, 0, 32) ∧ (s.slot 0).newPages (tick 2) = [0] ∧ (s.takePages 1).isSome = true ∧
        (s.modKv fun v => { v with len := 0 }).takePages 1 = none ∧ run0.appendRows (tick 2) = none ∧ s.fenced 5 = false) ∧
    (stg { tick 2 with out := 1 }).workable 0 2 = some { tick 2 with out := 1 } ∧
    (let s := stg (tick 1); s.porterRoom (tick 1).porter = true ∧ s.rosterIn (tick 1).act = some [] ∧ (stg { tick 4 with act := 2 }).rosterIn 2 = none) ∧
    (let s := (stg (tick 5)).modPorter 0 fun x => { x with run := some ⟨[1], 1, 0, 0, [], []⟩, phase := .granted };
      s.portersRun = true ∧ (s.porter 0).run = some ⟨[1], 1, 0, 0, [], []⟩ ∧ (s.porter 0).phase ≠ .moved ∧ SMap.get? s.kv.tickets 0 = some (tick 5)) := by
  decide +kernel

/-- BaseCamp: the last bytes of DRAM, a poisoned unit, the aperture, the panel area, a period and its grants. -/
theorem meets_BaseCamp :
    inDram 0x01AFFFFFFFFF 1 = true ∧ isDram 0x01AFFFFFFFFF = true ∧ run0.mem.dramPoison.contains (0x01AFFFFFFFFF / 64) = false ∧
    (let s := { run0 with mem := { run0.mem with dramPoison := [0] } }; s.mem.dramPoison.contains (63 / 64) = true ∧ (s.granule (63 / 64 * 64)).erased = false) ∧
    (0 < 4 ∧ 0x3FFFFFFC + 4 ≤ run0.host.bar4 ∧ run0.bar4Answers = true ∧ run0.linkServes = true ∧ (inSt .standby).bar4Answers = false) ∧
    (let s := run0.set Reg.APERTURE_BASE_base 0x01AE00000000;
      panelArea (s.get Reg.APERTURE_BASE_base / s.host.bar4 * s.host.bar4 + 0) = true ∧ panelArea 0 = false ∧ inDram 0 4 = true) ∧
    (let s := run0.modRes 0 fun x => { x with table := List.replicate 16 (16, false, 0) }; 0 < resources ∧ (s.res 0).left = 0 ∧ (s.res 0).table ≠ [] ∧ s.flag Reg.ARB_CTRL_apply = false) ∧
    (let s := (run0.modHub fun h => { h with reqs := [⟨0, 2, 0, 64⟩] }).modRes 0 fun x => { x with left := 9, credit := List.replicate 16 1, taken := List.replicate 16 0 };
      (s.res 0).left ≠ 0 ∧ nextClass (s.res 0).rr1 (fun c => s.hub.reqs.any (fun q => q.res == 0 && q.cls == c) && nth (s.res 0).credit c 0 != 0) = some 2) := by
  decide +kernel

namespace Sys2Proof.Tests

/-- A descriptor of an operation in porter 0's hands, in a phase. -/
def por (op : Nat) (ph : PorterPhase) : State := run0.modPorter 0 fun x => { x with run := some ⟨[op], 2, 0, 0, [], []⟩, phase := ph }

end Sys2Proof.Tests

/-- Porters: NOP, COPY, FILL, a FENCE with nothing ahead, a BUSY answer a microsecond old, a moved descriptor, a queue to steal from, an entry. -/
theorem meets_Porters :
    (∀ op ∈ [0, 1, 2], let s := por op .started;
      s.portersRun = true ∧ (s.porter 0).run = some ⟨[op], 2, 0, 0, [], []⟩ ∧ Desc.op ⟨[op], 2, 0, 0, [], []⟩ = op) ∧
    (let d : Desc := ⟨[1 <<< 4], 2, 0, 0, [], []⟩; let s := run0.modPorter 0 fun x => { x with queue := [d] };
      (s.porter 0).run = none ∧ (s.porter 0).queue = [d] ∧ d.fence = true ∧ s.aheadOf d = false) ∧
    (let s := sec (por 1 .busy); ((s.answers 0).porter 0).run.isSome = true ∧ ((s.answers 0).porter 0).phase = .busy ∧ ((s.answers 0).porter 0).atT + 1000 ≤ (s.answers 0).now) ∧
    ((por 1 .moved).granted (porterOwner 0) = true ∧ ((por 1 .moved).porter 0).phase = .moved) ∧
    (let s := sec (run0.modPorter 7 fun x => { x with queue := List.replicate 4 ⟨[1], 2, 0, 0, [], []⟩ });
      (s.porter 0).run = none ∧ (s.porter 0).queue = [] ∧ (s.porter 0).atT + 200 ≤ s.now ∧
        (((List.range 63).map fun i => (0 + 1 + i) % 64).find? fun v =>
          decide (4 ≤ (s.porter v).queue.length) && decide (2 ≤ (eligible (s.porter v)).length)) = some 7) ∧
    (let s := ring0 1; let b := List.replicate 48 (0 : Byte); let e := ent0 0x30 b;
      s.readRing 0 e = .entry 0 1 b ∧ ofLE (e.take 1) = 0x30 ∧ s.porterRoom (s.ring 0).porter = true) := by decide +kernel

/-! ### Checks, recovery -/

namespace Sys2Proof.Tests

/-- An item of the pair of logical cell 4, held since 0. -/
def held (twin : Bool) : HeldItem := ⟨4, 1, twin, 0, none, none, none, []⟩

/-- RUNNING, paired, with logical cell 4 on D(0,0) B0 C4. -/
def pairs (f : PairSt → PairSt) : State :=
  let s := (run0.set Reg.SERVICE_MODE_loaded_paired 1)
  let s : State := { s with pkg := some ⟨⟨[], [], [], [], [], [], [], [], [], [], [], []⟩, [], 2000, 100, false, true, [(4, 4 + 1 <<< 22)], [], [], [], [], false⟩ }
  State.modCell { s with pair := f s.pair } 4 fun x => { x with scene := { x.scene with playing := true, logical := 4 } }

/-- RECOVERING in a phase. -/
def rec (phase : Nat) : State := (inSt .recovering).set Reg.RECOVERY_STATUS_phase phase

end Sys2Proof.Tests

/-- SilentErrors: a spot rehearsal due; pairs of items and tallies, complete and late; a staged record. -/
theorem meets_SilentErrors :
    (let s := { run0 with now := 2000000000 }; cellValid 4 = true ∧ s.serviceable 4 = true ∧ s.spotDue 4 = true ∧ s.fenced 4 = false ∧ s.flag (Reg.BLK_STATUS_cell_fence_valid (4 / 32)) = false) ∧
    signature [] ≠ signature [⟨true, []⟩] ∧
    (let s := pairs fun p => { p with held := [held false, held true] }; s.paired = true ∧ s.primaryOf 4 = 4 ∧ s.pairOf 4 = some (held false, held true)) ∧
    (let s := sec (pairs fun p => { p with held := [held false] });
      (s.pair.held.find? fun a => a.primary == 4 && decide (a.atT + s.stallNs ≤ s.now) &&
        !(s.pair.held.any fun b => b.primary == 4 && b.num == a.num && b.twin != a.twin)) = some (held false)) ∧
    (let s := (pairs id).modCell 4 fun x => { x with scene := { x.scene with playing := true, phase := .atBarrier } };
      s.mayRun 4 = true ∧ (s.cell 4).scene.phase = .atBarrier ∧ (s.cell 4).rh.tallies = []) ∧
    (let s := pairs fun p => { p with tallies := [⟨4, 0, 1, 5, 0⟩, ⟨twinOf 4, 0, 1, 6, 0⟩] }; s.tallyPair 4 = some (⟨4, 0, 1, 5, 0⟩, ⟨twinOf 4, 0, 1, 6, 0⟩)) ∧
    (let s := sec (pairs fun p => { p with tallies := [⟨4, 0, 1, 5, 0⟩] });
      (s.pair.tallies.find? fun a => (a.logical == 4 || a.logical == twinOf 4) && decide (a.atT + s.stallNs ≤ s.now) &&
        !(s.pair.tallies.any fun b => b.logical == twinOf a.logical && b.scene == a.scene && b.beat == a.beat)) = some ⟨4, 0, 1, 5, 0⟩) ∧
    (let s := run0.stageCairn (Cairn.blank 1 0 0 0 0 0); s.cairn.staging.length = 1 ∧ s.cairn.flash.length ≤ 4096) := by decide +kernel

/-- Recovery: reports of a cause and of none, each phase, a bound past. -/
theorem meets_Recovery :
    (let s := run0.report 4 3 0; s.mesh.reports[0]? = some ⟨4, 3, 0, faultWay 12 (gOf 4)⟩ ∧ (3 ≠ 0 ∧ 3 ≠ 9 ∧ 3 ≠ 10)) ∧
    ((run0.report 4 0 6).mesh.reports[0]? = some ⟨4, 0, 6, faultWay 12 (gOf 4)⟩ ∧ 6 < 7) ∧
    (∀ p ∈ [1, 2, 3, 4, 5, 6], (rec p).isIn .recovering = true ∧ (rec p).get Reg.RECOVERY_STATUS_phase = p ∧ (sec (rec p)).rcv.boundAt + 5000000 ≤ (sec (rec p)).now) ∧
    ((rec 2).clearCompute true).rcv.refuse = false ∧ ((rec 3).clearCompute false).rcv.refuse = false ∧
    (((rec 3).set Reg.RECOVERY_STATUS_cause 1).clearCompute false).get Reg.RECOVERY_STATUS_cause = 1 ∧ (rec 4).rcv.route ≠ 3 ∧
    (rec 5).toMove = [] ∧ ((rec 5).planView.replaceAll []).2 = true ∧ (((rec 5).planView.replaceAll []).1.rigBroken).isSome = true ∧
    (let s := (rec 6).modRcv fun r => { r with loadStep := 2 };
      s.rcv.loadStep = 2 ∧ s.fwBusy = false ∧ s.hub.fwPoison = false ∧ s.storesFull = true ∧ (s.modHub fun h => { h with fwPoison := true }).hub.fwPoison = true) ∧
    (let y : Belay := ⟨0, 0, 0x20000, [0], [], [], false⟩; let s := (rec 6).modRcv fun r => { r with lastBelay := some y };
      s.rcv.loadStep = 0 ∧ s.rcv.lastBelay = some y ∧ s.belaySeq y 0 = none ∧ s.belaySeq y 1 = none) := by decide +kernel

/-- Recovery: a group to hold, a belay that copies. -/
theorem meets_Recovery_belay :
    (let y : Belay := ⟨0, 0, 131072, [0], [], [], false⟩; let p : Package := ⟨[], [], [], [], [⟨7, 0, []⟩], [], [], [], [], [], [], []⟩;
      let s : State := { run0 with belay := some y, pkg := some ⟨p, [], 2000, 100, false, false, [], [], [], [], [], false⟩ };
      s.belay = some y ∧ s.isIn .running = true ∧ 0 < p.folds.length ∧ s.groupHeld y 0 = true ∧ y.copying = false ∧ (NSet.add y.held 0).length = 1 ∧
        s.fwBusy = false ∧ ({ y with copying := true } : Belay).copying = true) := by decide +kernel

/-- Recovery: a live core, one that has not ticked for a millisecond, a lost one. -/
theorem meets_Heartbeats :
    (let s := (sec (inSt .ready)).sets [(Reg.HEARTBEAT_live, 0xFF), (Reg.HEARTBEAT_lead, 0)];
      s.coreLive 3 = true ∧ nth s.rcv.coreAt 3 0 + 1000000 ≤ s.now ∧ s.isIn .ready = true ∧ s.get Reg.HEARTBEAT_lead ≠ 3 ∧ s.get Reg.HEARTBEAT_live ≠ 2 ^ 3) ∧
    (let s := ((inSt .ready).set Reg.HEARTBEAT_live 0xF7).modRcv fun r => { r with lost := [3] }; s.rcv.lost.contains 3 = true ∧ s.get Reg.HEARTBEAT_live ≠ 0) ∧
    ((inSt .ready).set Reg.HEARTBEAT_live 0).get Reg.HEARTBEAT_live = 0 := by decide +kernel

/-! ### The host interface -/

namespace Sys2Proof.Tests

/-- A request with session 1, an opcode and its argument's fields (width in bytes, value). -/
def req (op : Nat) (arg : List (Nat × Nat)) : NyReq := ⟨op, 1, 0, 0, false, 0, arg.flatMap fun f => toLE f.1 f.2⟩

/-- Mailbox 0 holds session 1; Bus Master Enable is on. -/
def ny (s : State) : State := (s.modMb 0 fun m => { m with session := 1 }).modHost fun h => { h with bme := true }

/-- A write of BAR0. -/
def wr (off width : Nat) : BarAccess := ⟨off, width, true, 5, false⟩
/-- A read of BAR0. -/
def rd (off width : Nat) : BarAccess := ⟨off, width, false, 0, false⟩

/-- A package without sections. -/
def pkg0 : Package := ⟨[], [], [], [], [], [], [], [], [], [], [], []⟩

/-- RUNNING with a package loaded. -/
def withPkg (s : State) : State := { s with pkg := some ⟨pkg0, [], 2000, 100, false, false, [], [], [], [], [], false⟩ }

end Sys2Proof.Tests

/-- RegisterAccess: the three judgements of an access, and the registers with rules of their own. -/
theorem meets_RegisterAccess :
    (regRows ≠ [] ∧ ∀ r ∈ regRows.take 1, r.fields ≠ []) ∧
    ((inSt .off).judgeBar (wr 0 4) = .silent ∧ (inSt .off).judgeBar (rd 0 4) = .silent) ∧
    (run0.judgeBar (wr 0x10008 2) = .bad 0 ∧ run0.judgeBar (wr 0x7F8 8) = .bad 1 ∧ (5 : Nat) < 0x4000000) ∧
    (run0.judgeBar (rd 0x10000 8) = .pass ∧ (rd 0x10000 8).firmware = false) ∧
    (run0.isIn .off = false ∧ run0.isIn .dark = false ∧ run0.linkServes = true ∧ run0.reached 3 = true) ∧
    (256 < ((List.range 16).map fun i => (run0.set (Reg.ARB_CLASS_share 0) 256).get (Reg.ARB_CLASS_share i)).sum ∧
      ((List.range 16).map fun i => run0.get (Reg.ARB_CLASS_share i)).sum ≤ 256) ∧
    (regionValid 0 = true ∧ run0.reached 4 = true ∧ run0.regionCut 0 = false ∧ run0.maps.unreached.contains 0 = false ∧ gOf 4 = 0 ∧
      cellIs .v 4 = true ∧ cellIs .m 0 = true) ∧ (inSt .ready).isIn .ready = true := by decide +kernel

/-- RegisterAccess: a write that a register takes by its access codes alone. -/
theorem meets_RegisterAccess_write :
    run0.judgeBar (wr 0x10010 8) = .pass ∧ (∃ r, barPlace 0x10010 = .reg r) ∧ ownRow 0x10010 = false ∧ overrunBit 0x10010 = none ∧
      run0.locked 0x410 = true ∧ (inSt .standby).locked 0x10010 = false ∧ ∀ w v, (inSt .standby).adjust 0x10010 w v = w := by
  refine ⟨by decide +kernel, ?_, by decide +kernel, by decide +kernel, by decide +kernel, by decide +kernel, fun w v => rfl⟩
  exact ⟨⟨false, 0x10010, 0, 1, .warm, (regRowAt 0x10010 |>.map (·.fields)).getD []⟩, by decide +kernel⟩

/-- MailboxProtocol: a busy mailbox, each early answer, the house core's, a response, a deferral's result. -/
theorem meets_MailboxProtocol :
    (let s := ny run0; let r := req 0x70 [];
      s.isIn .off = false ∧ s.linkServes = true ∧ s.nymakServes = true ∧ s.flag (Reg.MB_STATUS_busy 0) = false ∧
        (accepted s 0 r).isIn .recovering = false ∧ (r.session ≠ 0 ∧ r.session = ((accepted s 0 r).mb 0).session) ∧
        (accepted s 0 { r with rsv := true }).badFormat { r with rsv := true } = true) ∧
    NyRow 0 (req 0x70 []) pkg0 0 (.fenceQuery 0 (req 0x70 [])) 0x70 ∧
    ((run0.set (Reg.MB_STATUS_busy 0) 1).flag (Reg.MB_STATUS_busy 0) = true ∧ (accepted (inSt .recovering) 0 (req 0x30 [])).isIn .recovering = true ∧
      servedRecovering 0x30 = false ∧ (1 : Nat) ≠ ((accepted run0 0 (req 0x70 [])).mb 0).session) ∧
    (NyReady 0 (req 0x99 []) (ny run0) ∧ knownOp 0x99 = false) ∧
    ((inSt .standby).nymakServes = false ∧ (inSt .standby).isIn .dark = false) ∧
    ((accepted (ny run0) 0 (req 0x70 [])).mb 0).cmd = some (req 0x70 [], 0) ∧
    (let s := (run0.modHost fun h => { h with finals := [(0, 0, 0)] }).setReg (deferAt 0 0) 1;
      (s.host.finals.find? fun f => f.1 == 0 && f.2.1 == 0) = some (0, 0, 0) ∧ bitAt (s.reg (deferAt 0 0)) 0 = true ∧ bitAt (s.reg (deferAt 0 0)) 1 = false) := by
  refine ⟨by decide +kernel, ?_, by decide +kernel, by decide +kernel, by decide +kernel, by decide +kernel, by decide +kernel⟩
  simp [NyRow]

/-- MailboxCommands: sessions, a load, an unload, a stop. -/
theorem meets_MailboxCommands :
    (∀ c ∈ [0, 1], let r : NyReq := { req 1 [(4, 1), (1, c)] with session := 0 }; NyReady 0 r (ny run0) ∧ 5 ≤ r.arg.length ∧ argN r.arg 0 4 = 1 ∧ argN r.arg 4 1 = c) ∧
    (NyReady 0 (req 0x10 []) (ny (inSt .ready)) ∧ (accepted (ny (inSt .ready)) 0 (req 0x10 [])).host.strike = none) ∧
    (let u := accepted (ny run0) 0 (req 0x11 []); NyReady 0 (req 0x11 []) (ny run0) ∧ u.host.load = none ∧ u.host.strike = none ∧ u.isIn .running = true) ∧
    (let r := req 0x31 [(1, 0)]; NyReady 0 r (ny run0) ∧ 1 ≤ r.arg.length ∧ argN r.arg 0 1 = 0 ∧ (accepted (ny run0) 0 r).acts.changes = []) := by decide +kernel

/-- MailboxCommands: a channel from porter 0 to endpoint 1 of D(0,0) B0 C5, created and destroyed. -/
theorem meets_MailboxCommands_channels :
    (let r := req 0x20 [(1, 0), (1, 0), (2, 0), (2, 5), (1, 1), (5, 0), (20, 0)];
      let s := (epAt 5 1 { EpSt.init with cfg := 1 + 1 <<< 3 + 1 <<< 41 } (ny run0));
      let s := loaded s;
      let u := accepted s 0 r;
      NyReady 0 r s ∧ argN r.arg 0 1 = 0 ∧ argN r.arg 1 1 = 0 ∧ argN r.arg 2 2 < 64 ∧ 12 ≤ r.arg.length ∧ argN r.arg 12 20 = 0 ∧ u.physical 5 = some 5 ∧
        u.openEp 5 1 = true ∧ u.joined ⟨5, 1⟩ = none ∧ u.freeChan = some 0 ∧ epSends (u.ep 5 1).cfg = false ∧ u.drainsAt ⟨0xF000, 0⟩ ⟨5, 1⟩ = none) ∧
    (let s := (chan5 4 1 (ny run0)); let h := handleOf 5 (s.chan 5); let r := req 0x21 [(4, h)];
      let u := accepted s 0 r;
      NyReady 0 r s ∧ 4 ≤ r.arg.length ∧ hType (argN r.arg 0 4) ≠ 6 ∧ (u.chanOf (argN r.arg 0 4)).isSome = true ∧ (u.chan 5).fromPkg = false) := by decide +kernel

/-- MailboxCommands: a schedule and slots. -/
theorem meets_MailboxCommands_acts :
    (let r := req 0x30 [(8, 1), (4, 1), (2, 1), (1, 0), (17, 0)];
      let s := ny (withPkg run0);
      let u := accepted s 0 r;
      NyReady 0 r s ∧ 32 ≤ r.arg.length ∧ 0 < argN r.arg 8 4 ∧ argN r.arg 14 1 ≤ 1 ∧ argN r.arg 15 17 = 0 ∧ u.pkg.isSome = true ∧
        u.acts.queue.length < 16 ∧ u.acts.queue = [] ∧ argN r.arg 0 8 ≠ 0 ∧ u.lastCurtain = none) ∧
    (let s := (ny run0).modRing 0 fun x => { x with live := true, binding := 3 };
      let r := req 0x40 [(2, 0), (2, 1), (2, 1), (1, 1), (1, 0), (4, 4), (4, 0), (4, ringHandle 0 (s.ring 0)), (2, 0), (2, 1), (32, 0), (8, 0)];
      let u := accepted s 0 r;
      NyReady 0 r s ∧ slotArgOk r.arg = true ∧ u.ringOf (argN r.arg 16 4) = some 0 ∧ (u.ring 0).binding = 3 ∧
        ((u.slots.filter fun p => p.2.isOpen).map fun p => p.2.pt).sum + argN r.arg 8 4 ≤ 16777216 ∧ (u.slot 0).isOpen = false ∧ (u.slot 0).st ≠ 4) ∧
    (let r := req 0x41 [(2, 0), (2, 1)];
      let s := (ny run0).modSlot 0 fun _ => slot0;
      let u := accepted s 0 r;
      NyReady 0 r s ∧ 4 ≤ r.arg.length ∧ argN r.arg 0 2 < 1024 ∧ (u.slot 0).isOpen = true ∧ (u.slot 0).gen = argN r.arg 2 2) := by decide +kernel

/-- MailboxCommands: a belay with one extent of 32 B of logical cell 5, a restart, a strike of job DRAM. -/
theorem meets_MailboxCommands_belay :
    (let s := ny (loaded run0);
      let r := req 0x50 [(8, 0), (8, 131072), (2, 1), (6, 0), (64, 0), (40, 0), (8, 5), (4, 32), (4, 0)];
      let u := accepted s 0 r;
      NyReady 0 r s ∧ u.belay = none ∧ u.pkg.isSome = true ∧ 144 ≤ r.arg.length ∧ argN r.arg 16 2 = 1 ∧ argN r.arg 18 6 = 0 ∧ argN r.arg 88 40 = 0 ∧
        argN r.arg 8 8 = 131072 ∧ inJob 0 131072 = true ∧ (∀ g, g < 64 → bits (argN r.arg (24 + g) 1) 4 3 = 0) ∧ bits (argN r.arg 128 8) 39 25 = 0 ∧
        argN r.arg 140 4 = 0 ∧ u.extentOk (belayExtent r.arg 0) = true ∧ 4096 + (belayExtent r.arg 0).2.2.2 ≤ argN r.arg 8 8 / 2) ∧
    (NyReady 0 (req 0x51 []) (ny (withPkg run0)) ∧ (accepted (ny (withPkg run0)) 0 (req 0x51 [])).pkg.isSome = true) ∧
    (let r := req 0x60 [(1, 1), (1, 0), (14, 0)];
      let s := ny (inSt .ready);
      NyReady 0 r s ∧ 16 ≤ r.arg.length ∧ argN r.arg 0 1 = 1 ∧ argN r.arg 1 1 = 0 ∧ argN r.arg 2 14 = 0 ∧ (accepted s 0 r).host.strike = none) := by
  decide +kernel

/-- MailboxCommands: a query, a cairn read, a mode, a snapshot read without and with the key's session; a load that waits. -/
theorem meets_MailboxCommands_reads :
    (let r := req 0x70 [(8, 0), (1, 0)]; NyReady 0 r (ny run0) ∧ 9 ≤ r.arg.length ∧ argN r.arg 8 1 = 0) ∧
    (let r := req 0xA1 [(16, 0)]; NyReady 0 r (ny run0) ∧ 16 ≤ r.arg.length ∧ (accepted (ny run0) 0 r).host.bme = true) ∧
    (let r := req 0xB0 [(1, 1)]; NyReady 0 r (ny (inSt .ready)) ∧ 1 ≤ r.arg.length ∧ argN r.arg 0 1 ≤ 1) ∧
    (let r := req 0xC0 [(8, 0), (8, 4096), (8, 0)];
      let s := (ny run0).modHost fun h => { h with keySession := 1 };
      NyReady 0 r s ∧ 24 ≤ r.arg.length ∧ argN r.arg 8 8 = 4096 ∧ (accepted s 0 r).host.keySession = 1 ∧ (accepted (ny run0) 0 r).host.keySession ≠ 1 ∧
        (accepted (s.set Reg.RECOVERY_STATUS_snapshot_valid 1) 0 r).flag Reg.RECOVERY_STATUS_snapshot_valid = true) ∧
    (let s := (inSt .ready).modHost fun h => { h with load := some ⟨0, 0, req 0x10 [], pkg0⟩ };
      s.host.load = some ⟨0, 0, req 0x10 [], pkg0⟩ ∧ s.host.strike = none ∧ s.isIn .ready = true) := by decide +kernel

/-- Rings: doorbells of a completion and a submission ring within and beyond their bounds. -/
theorem meets_Rings :
    (let s := (run0.modRing 0 fun r => { r with live := true, binding := 3, size := 10, tail := 3 }); let r := s.ring 0;
      s.linkServes = true ∧ r.up = true ∧ r.stopped = false ∧ 2 < r.grans ∧ r.binding = 3 ∧ (2 + r.grans - r.head) % r.grans ≤ r.fill ∧ r.grans ≤ 16) ∧
    (let s := (run0.modRing 0 fun r => { r with live := true, binding := 0, size := 10 }); let r := s.ring 0;
      r.up = true ∧ 2 < r.grans ∧ r.binding ≠ 3 ∧ r.fill + (2 + r.grans - r.tail) % r.grans ≤ r.grans - 1) := by decide +kernel

/-- Rings: a PAD, a foreign entry, a message. -/
theorem meets_Rings_entries :
    (let s := (run0.modHost fun h => { h with bme := true }).modRing 0 fun r => { r with live := true, binding := 2, size := 10, tail := 2, gen := 1 };
      let e := ent0 0 (List.replicate 48 0);
      let f := ent0 0x77 (List.replicate 48 0);
      foreignEntry e = true ∧ s.readRing 0 e = .pad 1 ∧ foreignEntry f = true ∧ s.readRing 0 f = .skip 1 0 1) ∧
    (let s := (epAt 5 1 { plainIn with recs := [] } (run0.modHost fun h => { h with bme := true })).modRing 0 fun r =>
        { r with live := true, binding := 2, size := 10, tail := 2, gen := 1, chan := 5 };
      let s := s.modChan 5 fun x => { x with live := true, gen := 1, ty := 5, send := some ⟨0x10000, 0⟩, recv := some ⟨5, 1⟩ };
      let b := toLE 4 (handleOf 5 (s.chan 5)) ++ toLE 4 32 ++ List.replicate 40 0;
      let e := ent0 0x40 b;
      let u := s.hubCredits;
      u.readRing 0 e = .entry 0 1 b ∧ ofLE (e.take 1) = 0x40 ∧ hIndex (ofLE (b.take 4)) = 5 ∧ (u.chan 5).live = true ∧ (u.chan 5).send = some ⟨0x10000, 0⟩ ∧
        (u.chan 5).recv = some ⟨5, 1⟩ ∧ ofLE ((b.drop 4).take 4) = 32 ∧ ofLE ((b.drop 8).take 1) = 0 ∧ ofLE ((b.drop 9).take 7) = 0 ∧ 32 ≤ (b.drop 16).length ∧
        1 ≤ epMaxGran (u.ep 5 1).cfg) := by decide +kernel

/-- Rings: a completion ring that runs, an entry not signalled, a ring that closes. -/
theorem meets_Rings_delivery :
    (let s := (ny run0).modRing 0 fun r => { r with live := true, binding := 3, size := 10, unsignalled := some 0, closing := some 0 };
      s.hubIntake.ringsRun = true ∧ (s.hubIntake.ring 0).live = true ∧ (s.hubIntake.ring 0).stopped = false ∧ (s.hubIntake.ring 0).binding = 3 ∧
        (s.ring 0).unsignalled = some 0 ∧ 0 + 1000 * (s.ring 0).delay ≤ s.now ∧ (s.ring 0).closing.isSome = true ∧ (s.ring 0).next = none) ∧
    ((run0.modRing 0 fun r => { r with closing := some 0, next := some (0, 0, []) }).ring 0).next = some (0, 0, []) := by decide +kernel

/-! ### Bring-up, rope -/

namespace Sys2Proof.Tests

/-- BRINGUP, the step `code` next; warm or cold. -/
def toStep (code : Nat) (warm : Bool) : State :=
  ((inSt .bringup).modSeq fun q => { q with next := code }).sets [(Reg.SEQ_STATUS_warm, warm.toNat), (Reg.SEQ_STATUS_partner_needed, 1)]

/-- BRINGUP, the step `code` running since 0. -/
def stepOn (code : Nat) (e : StepEnv) : State :=
  ((toStep code false).modSeq fun q => { q with env := some e }).set Reg.SEQ_STATUS_running 1

/-- Debug locked, the challenge a known number. -/
def locked (s : State) : State := s.setReg Reg.DOR_DEBUG_unlocked.off 0

/-- Power on the always-on domain. -/
def live (p : PState) : State := (inSt p).modPins fun x => { x with alwaysOn := true, testN := true, mv := 58000 }

end Sys2Proof.Tests

/-- BringUp: a step out of turn, in turn, running, skipped. -/
theorem meets_BringUp :
    (∀ c ∈ [1, 2, 3, 4, 5, 6, 7, 8, 9, 10, 11, 12, 13], let v : Word64 := BitVec.ofNat 64 c;
      v.toNat % 16 = c ∧ (inSt .standby).isIn .bringup = false ∧ (stepOn 4 ⟨0, 0, 0, [], []⟩).flag Reg.SEQ_STATUS_running = true ∧ (inSt .bringup).seq.next ≠ 7 ∧
        (toStep c false).isIn .bringup = true ∧ (toStep c false).flag Reg.SEQ_STATUS_running = false ∧ (toStep c false).seq.next = c ∧ (toStep c false).warm = false ∧
        (toStep c false).flag Reg.SEQ_STATUS_partner_needed = true ∧ (toStep c true).warm = true) := by decide +kernel

/-- BringUp: a panel that may start. -/
theorem meets_BringUp_starts :
    (∀ s ∈ [locked (inSt .standby), locked <| (inSt .ready).set Reg.SEQ_STATUS_cold_only 0], s.isIn .off = false ∧ s.isIn .bringup = false ∧ s.isIn .recovering = false ∧
      s.isIn .dark = false ∧ s.seq.start = none ∧ s.flag Reg.DOR_DEBUG_unlocked = false ∧ s.isIn .running = false) ∧
    (15#64).toNat % 16 = 15 ∧ (14#64).toNat % 16 = 14 ∧ (inSt .standby).flag Reg.SEQ_STATUS_cold_only = true ∧
    ((inSt .ready).set Reg.SEQ_STATUS_cold_only 0).flag Reg.SEQ_STATUS_cold_only = false := by decide +kernel

/-- BringUp: a step that ends in time, with and without a failure, one that is late, READY; the load's recheck; the contacts. -/
theorem meets_BringUp_ends :
    (let s := stepOn 4 ⟨0, 0, 0, [], []⟩; s.seq.env = some ⟨0, 0, 0, [], []⟩ ∧ s.seq.next = 4 ∧ ¬ s.seq.stepAt + s.stepBound 4 ⟨0, 0, 0, [], []⟩ < s.now ∧ (s.stepWork 4 ⟨0, 0, 0, [], []⟩).2 = none) ∧
    (let s := stepOn 4 ⟨3, 1, 0, [], []⟩; s.seq.env = some ⟨3, 1, 0, [], []⟩ ∧ (3 : Nat) ≠ 0) ∧
    (let s := stepOn 7 ⟨0, 0, 0, [], []⟩; s.seq.stepAt + s.stepBound 7 ⟨0, 0, 0, [], []⟩ < ({ s with now := 10 ^ 11 } : State).now) ∧
    (stepOn 13 ⟨0, 0, 0, [], []⟩).seq.next = 13 ∧ ¬ (stepOn 13 ⟨0, 0, 0, [], []⟩).seq.stepAt + (stepOn 13 ⟨0, 0, 0, [], []⟩).stepBound 13 ⟨0, 0, 0, [], []⟩ < 0 ∧
    (let s := (inSt .ready).sets [(Reg.POWER_CTRL_limit_w, 13500), (Reg.POWER_STATUS_input_w, 7000)];
      s.isIn .ready = true ∧ s.seq.recheck = none ∧ s.seq.rechecked = false ∧ s.get Reg.POWER_CTRL_limit_w < 2 * s.get Reg.POWER_STATUS_input_w) ∧
    ((inSt .ready).modSeq fun q => { q with recheck := some 0 }).seq.recheck.isSome = true ∧
    (let s : State := { ((inSt .ready).modSeq fun q => { q with lightAt := some 0 }).set Reg.POWER_STATUS_band_heavy 1 with now := 60000000000 };
      s.seq.lightAt = some 0 ∧ s.flag Reg.POWER_STATUS_band_heavy = true ∧ 0 + 60000000000 ≤ s.now) ∧
    ((live .off).isIn .off = true ∧ 54000 ≤ (live .off).pins.mv ∧ (live .off).pins.mv ≤ 62000 ∧ (live .off).pins.alwaysOn = true ∧ (live .off).pins.testN = true) ∧
    (let s : State := { run0 with power := { run0.power with outAt := some 0 }, now := 50000 }; s.power.outAt = some 0 ∧ 0 + 50000 ≤ s.now) := by decide +kernel

/-- BringUp: a step whose work fails. -/
theorem meets_BringUp_fails : let s := (stepOn 1 ⟨0, 0, 0, [], []⟩).modPins fun p => { p with mv := 40000 }; (s.stepWork 1 ⟨0, 0, 0, [], []⟩).2.isSome = true := by decide +kernel

namespace Sys2Proof.Tests

/-- A frame with a type, flags, number, receiving rank, stream, offset and step. -/
def frame (ty flags seq dst stream off step : Nat) (payload : List Byte) (tag : Bool) : RopeFrame :=
  ⟨toLE 1 ty ++ toLE 1 flags ++ toLE 1 0 ++ toLE 1 1 ++ toLE 2 seq ++ toLE 4 0 ++ toLE 2 0 ++ toLE 2 dst ++ toLE 2 stream ++ toLE 4 off ++ toLE 4 step ++ toLE 8 0,
    payload, tag, 0⟩

/-- The first ring is in a state. -/
def ringAt (st : Nat) (s : State) : State := (s.set (Reg.ROPE_STATUS_state 0) st).set (Reg.ROPE_STATUS_state 1) st

/-- A team of one rank with one shard of 4 KiB. -/
def team1 : Team := ⟨2, 0, 0, 1000000, 1000, 100, [0, 1 <<< 3], [⟨3, 1, 5, 1, 4096, 0, 65536, 0⟩]⟩

/-- The first ring is UP and a team is in force. -/
def roped : State := (ringAt 4 run0).modRope fun r => { r with team := some team1, landings := [(9, (0, 4096))], steps := [⟨3, 0, [], [], false, 0, 0, 0, false⟩] }

end Sys2Proof.Tests

/-- RopeFrames: frames whose tag fails, out of turn, in turn; of every type. -/
theorem meets_RopeFrames :
    ((frame 1 0 0 0 9 0 0 [] false).tagOk = false ∧ fSeq (frame 1 0 7 0 9 0 0 [] true) ≠ (roped.rport 0).expect ∧
      fSeq (frame 1 0 0 0 9 0 0 [] true) = (roped.rport 0).expect) ∧
    roped.portUp 0 = true ∧
    (let f := frame 1 0 0 0 9 0 0 (List.replicate 32 1) true; let u := (roped.ropeReceive 0 f true).2;
      fType f = 1 ∧ (roped.ropeReceive 0 f true).1 = true ∧ u.ownRank (fDst f) = true ∧ SMap.get? u.rope.landings (fStream f) = some (0, 4096) ∧
        32 * fOffset f + f.payload.length ≤ 4096 ∧ u.ownRank (fDst (frame 1 0 0 1 9 0 0 [] true)) = false ∧
        SMap.get? u.rope.landings (fStream (frame 1 0 0 0 8 0 0 [] true)) = none) ∧
    (∀ st ∈ [3, 4], let f := frame 2 0 0 0 st 0 0 (List.replicate 32 1) true; let u := (roped.ropeReceive 0 f true).2;
      fType f = 2 ∧ (roped.ropeReceive 0 f true).1 = true ∧ u.rope.team = some team1 ∧ team1.rank = fDst f ∧ (team1.shardOf (fStream f)).isSome = (st == 3) ∧
        team1.rank ≠ fDst (frame 2 0 0 1 3 0 0 [] true)) ∧
    (let f := frame 3 0 0 0 3 1 0 (List.replicate 32 1) true; let u := (roped.ropeReceive 0 f true).2;
      fType f = 3 ∧ (roped.ropeReceive 0 f true).1 = true ∧ u.rope.team = some team1 ∧ (u.redStep 3 (fStep f)).isSome = true ∧ fOffset f ≠ 0) := by decide +kernel

/-- RopeFrames: control, HELLO and session frames; the timers. -/
theorem meets_RopeFrames_control :
    (let f := frame 4 0 0 0 0 0 0 [] true; fType f = 4 ∧ roped.sessionOpen 0 = true ∧ f.payload.length < 32 ∧ bitAt (fFlags f) 3 = false) ∧
    (let f := frame 5 0 0 0 0 0 0 [1] true; fType f = 5 ∧ 0 % 2 = 0 ∧ (roped.ropeReceive 0 f false).1 = true) ∧
    (let f := frame 6 0 0 0 0 0 0 [1] true; fType f = 6 ∧ 1 % 2 = 1 ∧ roped.sessionOpen 1 = true ∧ (roped.ropeReceive 1 f false).1 = true) ∧
    (let s := sec (roped.modPortR 0 fun x => { x with accepted := 1, trained := true, unacked := [frame 1 0 0 0 9 0 0 [] true], part := some (5, 0, [], 0) });
      let x := s.rport 0;
      x.accepted ≠ 0 ∧ x.ackAt + 2000 ≤ s.now ∧ x.unacked ≠ [] ∧ x.trained = true ∧ x.progressAt + 10000 ≤ s.now ∧ x.part = some (5, 0, [], 0) ∧ 0 + 100000000 ≤ s.now) := by
  decide +kernel

/-- RopeRings: a lane to replace, one in hand, a retry, a new key, training, a bypass to open, a ring to end. -/
theorem meets_RopeRings :
    (roped.spareOk 0 3 = true ∧ (((roped.modPortR 0 fun x => { x with lanes := [3 + 32] }).rport 0).lanes.find? fun z => z % 32 == 3) = some 35) ∧
    (let s := sec ((ringAt 2 run0).modRingR 0 fun r => { r with expected := 3 });
      s.ringSt 0 = 2 ∧ bitAt (s.rring 0).expected 1 = true ∧ bitAt (s.rring 0).session 1 = false ∧ (s.rport 1).sessionAt + 100000000 ≤ s.now) ∧
    (let s := (roped.modRingR 0 fun r => { r with session := 3 }).modPortR 1 fun x => { x with frames := 2 ^ 40 };
      s.portUp 1 = true ∧ bitAt (s.rring 0).session 1 = true ∧ 2 ^ 40 ≤ (s.rport 1).frames) ∧
    (let s := (ringAt 1 run0).modRingR 0 fun r => { r with expected := 3 }; (s.rport 0).trained = false ∧ s.ringSt 0 = 1 ∧ bitAt (s.rring 0).expected 0 = true) ∧
    (let s := (ringAt 3 run0).set (Reg.ROPE_STATUS_bypass_open 0) 1;
      (s.rport 0).trained = false ∧ s.ringSt 0 = 3 ∧ s.flag (Reg.ROPE_STATUS_bypass_open 0) = true ∧ (s.trainLanes 0 []).ringSt 0 = 3) ∧
    (let s := ringAt 3 run0; s.ringSt 0 = 3 ∧ s.flag (Reg.ROPE_STATUS_bypass_open (2 * 0)) = false ∧ (s.rring 0).breakAt ≤ s.now) ∧
    (let s := sec (ringAt 5 run0); s.ringSt 0 = 5 ∧ (s.rring 0).disabledAt + 1000000 ≤ s.now ∧ (s.rring 0).next = none) ∧
    ((run0.modRingR 0 fun r => { r with next := some (0, 0, 3) }).rring 0).next = some (0, 0, 3) := by decide +kernel

/-- RopeRings: each operation of ROPE_CONFIG. -/
theorem meets_RopeRings_config :
    (∀ op ∈ [0, 1, 2, 3, 4, 5], let r := req 0x90 [(1, op), (1, 0), (1, 1), (1, 0), (2, 7), (2, 0), (8, 0), (8, 65536), (40, 0)];
      let u := accepted (ny run0) 0 r;
      NyReady 0 r (ny run0) ∧ 64 ≤ r.arg.length ∧ argN r.arg 0 1 = op ∧ argN r.arg 1 1 = 0 ∧ argN r.arg 3 1 = 0 ∧ argN r.arg 24 40 = 0 ∧ u.ringSt 0 < 3 ∧
        (u.rring 0).next = none ∧ argN r.arg 6 2 = 0 ∧ u.spareOk 0 1 = true ∧ argN r.arg 8 8 % 65536 = 0 ∧ inJob (argN r.arg 8 8) (argN r.arg 16 8) = true ∧
        u.isIn .running = true) := by decide +kernel

/-- Reduction: a team that keeps its ranges, in and out of RUNNING; a step to open, at its cutoff and past it, a node that is not the root. -/
theorem meets_Reduction :
    (∀ s ∈ [run0, inSt .ready], let r := req 0x91 [(2, 1), (2, 0), (2, 0), (2, 0), (8, 0), (8, 1000), (8, 500), (8, 1), (24, 0), (4, 0)];
      let u := accepted (ny s) 0 r;
      NyReady 0 r (ny s) ∧ 64 ≤ r.arg.length ∧ u.teamOk r.arg (teamOf r.arg) = true ∧ u.isIn .running = s.isIn .running) ∧
    (let s := roped.modRope fun y => { y with steps := [] }; s.rope.team = some team1 ∧ team1.openOf 0 ≤ s.now ∧ ∀ x ∈ s.rope.steps, x.k < 0) ∧
    (let s := sec roped; (team1.shardOf 3).isSome = true ∧ s.redStep 3 0 = some ⟨3, 0, [], [], false, 0, 0, 0, false⟩ ∧ team1.cutoff 3 0 + team1.level ≤ s.now) ∧
    (let s := roped.modRope fun y => { y with steps := [⟨1, 0, [⟨none, 0, 32, 1, false⟩], [], false, 0, 0, 0, false⟩] };
      team1.self 1 ≠ 0 ∧ ∃ r, s.redStep 1 0 = some r ∧ r.ended = false ∧ ∃ c ∈ r.contribs, c.complete = false) := by
  refine ⟨by decide +kernel, by decide +kernel, by decide +kernel, by decide +kernel, _, rfl, rfl, _, List.mem_singleton.mpr rfl, rfl⟩

/-! ### Power, clocks, thermal, security, management -/

/-- EffectiveLimit: its three terms can each be the least. -/
theorem meets_EffectiveLimit :
    (let s := (run0.set Reg.POWER_CTRL_limit_w 13500).modPins fun p => { p with mv := 54000 };
      s.pins.mv = 54000 ∧ s.get Reg.POWER_CTRL_limit_w = 13500 ∧ s.power.failed = [] ∧ s.effLimit = 12150) ∧
    (let s := ((run0.set Reg.POWER_CTRL_limit_w 13500).modPins fun p => { p with mv := 62000 }).modPower fun p => { p with failed := [1, 2] };
      s.pins.mv = 62000 ∧ s.power.failed = [1, 2] ∧ s.effLimit = 12600) ∧
    (let s := (run0.set Reg.POWER_CTRL_limit_w 5000).modPins fun p => { p with mv := 62000 }; s.effLimit = 5000) := by decide +kernel

namespace Sys2Proof.Tests

/-- RUNNING, 13,500 W at 58 V, with a power state. -/
def pow (f : PowerSt → PowerSt) : State := sec (((run0.set Reg.POWER_CTRL_limit_w 13500).modPins fun p => { p with mv := 58000 }).modPower f)

/-- Locked to the first ring's even side. -/
def synced (s : State) : State :=
  ((s.set Reg.HC_SYNC_source 1).set Reg.HC_SYNC_ring 0).set Reg.HC_SYNC_side 0

end Sys2Proof.Tests

/-- PowerAndClocks: a converter, samples with and without a hold, a peak, the power step, a region that runs, the clock. -/
theorem meets_PowerAndClocks :
    ((inSt .off).isIn .off = true ∧ run0.isIn .off = false ∧ run0.isIn .bringup = false) ∧
    (run0.powered = true ∧ run0.power.failed.contains 3 = false ∧ (pow fun p => { p with failed := [3] }).power.failed.contains 3 = true) ∧
    (let s := pow id; let v := sampledPower s 20000;
      s.powered = true ∧ v.power.hold = none ∧ s.effLimit < 20000 ∧ 16000 < 20000 ∧ ¬ s.effLimit < 9000 ∧ (sampledPower s 9000).power.hold = none) ∧
    (let s := pow fun p => { p with overAt := some 0 }; ((sampledPower s 14000).power.overAt.getD s.now) + 10000000 ≤ s.now) ∧
    (let s := pow fun p => { p with hold := some 5 }; (sampledPower s 9000).power.hold.isSome = true ∧ s.power.hold = some 5 ∧ 5 ≤ s.now) ∧
    (let s := pow fun p => { p with samples := [14000] };
      s.power.hold = none ∧ s.effLimit < s.average ∧ s.get Reg.POWER_STATUS_power_step < 12 ∧ s.power.stepAt + 100000 ≤ s.now) ∧
    (let s := (pow fun p => { p with samples := [9000] }).set Reg.POWER_STATUS_power_step 3;
      20 * s.average < 19 * s.effLimit ∧ 0 < s.get Reg.POWER_STATUS_power_step ∧ s.power.stepAt + 1000000 ≤ s.now) ∧
    (regionValid 143 = true ∧ run0.get (Reg.REGION_THERMAL_tstate 143) < 2) := by decide +kernel

/-- PowerAndClocks: the reference there, an exchange. -/
theorem meets_PowerAndClocks_clock :
    run0.flag Reg.POWER_STATUS_ref_lost = false ∧ run0.host.strike = none ∧ run0.seq.start = none ∧
      let s := synced roped;
        s.isIn .off = false ∧ s.get Reg.HC_SYNC_source = 1 ∧ s.get Reg.HC_SYNC_ring < 3 ∧
        s.portUp (2 * s.get Reg.HC_SYNC_ring + s.get Reg.HC_SYNC_side) = true ∧ s.host.strike = none ∧ s.seq.start = none := by decide +kernel

namespace Sys2Proof.Tests

/-- Region 0 in a thermal state, one second after reset. -/
def hot (ts : Nat) (f : ThermSt → ThermSt) : State := (sec (run0.sets [(Reg.REGION_THERMAL_tstate 0, ts), (Reg.REGION_THERMAL_fstep 0, 12)])).modTherm 0 f

end Sys2Proof.Tests

/-- ThermalControl: steps up and down, the ways to GHOST and CUT, the return. -/
theorem meets_ThermalControl :
    (let s := hot 0 id; s.powered = true ∧ s.tstate 0 < 2 ∧ s.temp 0 < 760 ∧ (s.thermal 0).stepAt + 100000 ≤ s.now ∧ (s.thermal 0).step < 12) ∧
    (let s := hot 1 fun x => { x with step := 3 }; s.tstate 0 = 1 ∧ (s.thermal 0).stepAt + 1000000 ≤ s.now ∧ 0 < (s.thermal 0).step) ∧
    (let s := hot 1 fun x => { x with step := 12, hotAt := some 0 };
      let v := (s.set (Reg.REGION_THERMAL_sensors_ok 0) 2).senseTemp 0 800;
      ((v.thermal 0).hotAt.any fun t => t + 100000000 ≤ s.now) = true ∧ 2 % 256 ≠ 0) ∧
    ((((hot 0 id).set (Reg.REGION_THERMAL_sensors_ok 0) 2).senseTemp 0 700).thermal 0).hotAt.any (fun t => t + 100000000 ≤ 1000000000) = false ∧
    ((hot 0 id).tstate 0 < 3 ∧ (hot 0 id).power.regFault.contains 0 = false ∧ (hot 0 id).isIn .recovering = false ∧ (hot 0 id).flag (Reg.REGION_THERMAL_lost 0) = false) ∧
    (∀ ts ∈ [2, 3], let s := hot ts fun x => { x with coolAt := some 0 };
      s.tstate 0 = ts ∧ (((s.senseTemp 0 600).thermal 0).coolAt.any fun t => t + (if ts = 3 then 1000000000 else 100000000) ≤ s.now) = true ∧
        (((hot ts id).senseTemp 0 600).thermal 0).coolAt.any (fun t => t + 100000000 ≤ 1000000000) = false) ∧
    ((inSt .ready).firmware = true ∧ (inSt .ready).maps.unreached.contains 0 = false ∧
      (((inSt .ready).modHost fun h => { h with requal := [(0, 0, none)] }).host.requal.find? fun q => q.1 == 0) = some (0, 0, none) ∧ (inSt .ready).placed = []) := by
  decide +kernel

/-- ThermalControl: REQUALIFY of a unit and of a region, empty or in use. -/
theorem meets_Requalify :
    (let r := req 0x71 [(1, 0), (1, 0), (2, 1), (4, 0), (8, 1)];
      NyReady 0 r (ny run0) ∧ argN r.arg 0 1 = 0 ∧ argN r.arg 1 1 = 0 ∧ argN r.arg 4 4 = 0 ∧ argN r.arg 2 2 = 1 ∧ 16 ≤ r.arg.length) ∧
    (let r := req 0x71 [(1, 1), (1, 0), (2, 1), (4, 0), (8, 0)];
      let s := ny (run0.modMaps fun m => { m with unreached := [0] });
      let u := accepted s 0 r;
      NyReady 0 r s ∧ argN r.arg 0 1 = 1 ∧ argN r.arg 8 1 = 0 ∧ argN r.arg 9 1 = 0 ∧ u.requalOk 0 = true ∧ u.placed = [] ∧
        (∃ p ∈ (loaded u).placed, gOf (bits p.2 0 16) = 0) ∧ (loaded u).freeDefer 0 = some 0) ∧
    (let e : MapEnt := ⟨1, 3, 4, 0, 0, false, false, false, 0, 0⟩;
      let m := run0.writeField [e];
      m.maps.fixed e = false ∧ m.maps.field.any e.same = true ∧ (m.candidate e).isSome = true ∧ m.maps.fixed { e with kind := 3 } = true) := by decide +kernel

namespace Sys2Proof.Tests

/-- STANDBY or another state with the first words of the staging area. -/
def stagedIn (p : PState) (w8 : Nat) : State := locked ((inSt p).setReg 0x201040 w8)

/-- An evidence request of mailbox `mb` (8: the DOE). -/
def evq (mb : Nat) : EvReq := ⟨mb, List.replicate 32 7, 0, 4096, 31616, 0⟩

end Sys2Proof.Tests

/-- DoreanaCommands: an enrolment out of state, ill-formed, without a free slot, unsigned, the first; policy records. -/
theorem meets_Doreana_enrol :
    (let s := stagedIn .standby 0;
      s.isIn .off = false ∧ s.isIn .dark = false ∧ s.linkServes = true ∧ (1#64).getLsbD 0 = true ∧ (1#64).getLsbD 1 = false ∧ s.isIn .standby = true ∧ s.recordForm = true ∧
        s.dor.owners.length < 4 ∧ s.dor.owner = none) ∧
    (stagedIn .ready 0).isIn .standby = false ∧ (stagedIn .standby 6).recordForm = false ∧
    (let s := (stagedIn .standby 0).modDor fun d => { d with owners := List.replicate 4 ([], true) }; 4 ≤ s.dor.owners.length) ∧
    (let s := (stagedIn .standby 0).modDor fun d => { d with owners := [([1], false)] };
      s.dor.owner = some [1] ∧ s.dor.owner.isSome = true ∧ s.dor.owner ≠ some (s.staged 0 64)) ∧
    ((2#64).getLsbD 1 = true ∧ (2#64).getLsbD 0 = false ∧ (stagedIn .bringup 6).recordForm = false ∧ (stagedIn .ready 0).isIn .bringup = false) := by decide +kernel

/-- DoreanaCommands: an owner that did not sign. -/
theorem meets_Doreana_unsigned : (run0.ownerSigned = false) := by decide +kernel

/-- DoreanaCommands: unlocking, JTAG, a KEM key to make, evidence over the DOE. -/
theorem meets_Doreana :
    ((inSt .running).isIn .standby = false ∧ (inSt .running).isIn .ready = false) ∧
    (let s := locked ((inSt .ready).modDor fun d => { d with keys := true });
      s.isIn .off = false ∧ s.isIn .dark = false ∧ s.dor.keys = true ∧ s.flag Reg.DOR_STATUS_kem_ready = false ∧ s.flag Reg.DOR_DEBUG_unlocked = false ∧
        s.dor.queue.length < 4 ∧ (s.setReg Reg.DOR_DEBUG_unlocked.off (1 <<< Reg.DOR_DEBUG_unlocked.lo)).flag Reg.DOR_DEBUG_unlocked = true) ∧
    (∀ c ∈ [0, 1], let obj := List.replicate 36 (0 : Byte) ++ toLE 1 c; obj.length = 37 ∧ argN obj 36 1 = c) ∧
    (∀ mb ∈ [0, 8], let s := ((inSt .ready).modDor fun d => { d with keys := true, queue := [evq mb] }).set Reg.DOR_STATUS_kem_ready 1;
      s.dor.queue = [evq mb] ∧ s.flag Reg.DOR_STATUS_kem_ready = true ∧ s.dor.keys = true ∧ (evq mb).nonce.length = 32) := by decide +kernel

/-- DoreanaCommands: ATTEST for evidence and for the certificate, to a full queue; KEY_IMPORT under no and under another key. -/
theorem meets_Doreana_mailbox :
    (∀ c ∈ [0, 1], let r := req 0x80 [(36, 0), (1, c), (3, 0), (8, 64), (4, 31616)];
      let s := locked (ny run0);
      let u := accepted s 0 r;
      NyReady 0 r s ∧ 52 ≤ r.arg.length ∧ argN r.arg 37 3 = 0 ∧ argN r.arg 40 8 % 64 = 0 ∧ 31616 ≤ argN r.arg 48 4 ∧ u.host.bme = true ∧
        u.flag Reg.DOR_DEBUG_unlocked = false ∧ argN r.arg 36 1 = c ∧ u.dor.queue.length < 4 ∧
        4 ≤ (u.modDor fun d => { d with queue := List.replicate 4 (evq 0) }).dor.queue.length) ∧
    (∀ k ∈ [0, 9], let r := req 0x81 [(4, k), (1620, 0)];
      let s := locked (ny (run0.set Reg.DOR_STATUS_kem_ready 1));
      let u := accepted s 0 r;
      NyReady 0 r s ∧ 1624 ≤ r.arg.length ∧ argN r.arg 4 4 = 0 ∧ u.flag Reg.DOR_DEBUG_unlocked = false ∧ u.flag Reg.DOR_STATUS_kem_ready = true ∧
        (argN r.arg 0 4 = u.dor.kemId ↔ k = 0)) := by decide +kernel

/-- SensorAvailability: a die's sensor in CUT, in STANDBY, in RUNNING; the input's. -/
theorem meets_SensorAvailability :
    (sensorKind 0x100 = some true ∧ sensorKind 0x300 = some false ∧ sensorKind 0x401 = some true ∧ run0.isIn .off = false ∧ (inSt .standby).isIn .off = false) ∧
    (0x100 < 0x400 ∧ (hot 3 id).tstate (0x100 % 0x100) = 3 ∧ (inSt .standby).isIn .standby = true) ∧
    (run0.isIn .standby = false ∧ run0.isIn .dark = false ∧ run0.tstate 0 ≠ 3 ∧ run0.maps.unreached.contains 0 = false) := by decide +kernel

/-- Management: refreshed sensors, a critical one in BRINGUP, records to get and none, lanes to replace and not. -/
theorem meets_Management :
    (run0.isIn .off = false ∧ run0.isIn .bringup = false ∧ run0.isIn .dark = false ∧ (inSt .dark).isIn .dark = true ∧
      (([(0x100, (20 : Int))].filter fun p => p.1 == 0x100) = [(0x100, (20 : Int))]) ∧ 0x100 < 0x200) ∧
    (let s := ((inSt .bringup).set Reg.POWER_CTRL_limit_w 13500).modPins fun p => { p with mv := 58000 };
      s.isIn .bringup = true ∧ s.tel.sensors = [] ∧ 54000 < s.pins.mv ∧ s.pins.mv < 62000 ∧ s.get Reg.POWER_STATUS_input_w < s.effLimit) ∧
    run0.cairnsFrom 0 = [] ∧ (∃ c, ({ run0 with cairn := { run0.cairn with flash := [Cairn.blank 1 0 0 0 0 0] } } : State).cairnsFrom 0xFFFFFFFF = [c]) ∧
    (run0.spareOk 0 3 = true ∧ run0.spareOk 0 16 = false) := by
  refine ⟨by decide +kernel, by decide +kernel, by decide +kernel, ?_, by decide +kernel⟩
  exact ⟨Cairn.blank 1 0 0 0 0 0, by decide +kernel⟩

namespace Sys2Proof.Tests

/-- Telemetry on, to ring 0, all kinds; a sample due. -/
def telOn : State :=
  sec ((((ny run0).modRing 0 fun r => { r with live := true, binding := 3, size := 10, gen := 1 }).sets [(Reg.TELEM_STATUS_enabled, 1), (Reg.TELEM_STATUS_kinds, 31)]) |> fun s =>
    { s with tel := { s.tel with depthUs := 100, counterUs := 1000 } })

end Sys2Proof.Tests

/-- Telemetry: turned off, a stale ring, a ring; an endpoint; room and none; samples due; a record to write. -/
theorem meets_Telemetry :
    (∀ h ∈ [0, 7], let r := req 0xA0 [(4, h)]; NyReady 0 r (ny run0) ∧ 4 ≤ r.arg.length ∧ argN r.arg 0 4 = h ∧ (accepted (ny run0) 0 r).ringOf 7 = none) ∧
    (let h := ringHandle 0 (telOn.ring 0);
      let r := req 0xA0 [(4, h), (1, 31), (3, 0), (4, 100), (4, 1000), (18, 1), (30, 0)];
      let u := accepted telOn 0 r;
      NyReady 0 r telOn ∧ 64 ≤ r.arg.length ∧ h ≠ 0 ∧ argN r.arg 0 4 = h ∧ u.ringOf h = some 0 ∧ (u.ring 0).binding = 3 ∧ argN r.arg 4 1 = 31 ∧ argN r.arg 5 3 = 0 ∧
        argN r.arg 8 4 = 100 ∧ argN r.arg 12 4 = 1000 ∧ argN r.arg 34 30 = 0 ∧ argN r.arg 16 18 = 1) ∧
    (∀ g, bitAt 1 g = true → g = 0) ∧
    epKind ((epAt 4 1 plainIn run0).ep 4 1).cfg ≠ 0 := by
  refine ⟨by decide +kernel, by decide +kernel, ?_, by decide +kernel⟩
  intro g h; cases g with
  | zero => rfl
  | succ n => simp [bitAt, Nat.testBit_succ] at h

/-- Telemetry: room in staging and none; samples due; a record to write. -/
theorem meets_Telemetry_samples :
    (let r : TelRec := ⟨1, 4, List.replicate 48 0, 5⟩; run0.get Reg.TELEM_STATUS_staged + r.grans ≤ 3932160 ∧
      3932160 < (run0.set Reg.TELEM_STATUS_staged 3932160).get Reg.TELEM_STATUS_staged + r.grans) ∧
    (telOn.flag Reg.TELEM_STATUS_enabled = true ∧ 0 < telOn.tel.depthUs ∧ telOn.tel.depthAt < telOn.tickOf telOn.tel.depthUs ∧ 0 < telOn.tel.counterUs ∧
      telOn.tel.counterAt < telOn.tickOf telOn.tel.counterUs ∧ bitAt (telOn.get Reg.TELEM_STATUS_kinds) 0 = true) ∧
    (let h := ringHandle 0 (telOn.ring 0);
      let s := telOn.setStaged [⟨h, 4, List.replicate 48 0, 5⟩];
      s.tel.staged = [⟨h, 4, List.replicate 48 0, 5⟩] ∧ s.ringOf h = some 0 ∧ s.ringsRun = true ∧ (s.ring 0).waiting = [] ∧ (s.ring 0).stopped = false) := by decide +kernel

/-! ### Further clauses -/

namespace Sys2Proof.Tests

/-- A strike that ends later. -/
def struck (s : State) : State := s.modHost fun h => { h with strike := some ⟨0, 0x60, 0, 1000, [], 1000, false⟩ }

/-- Region 0 in GHOST. -/
def ghostly (s : State) : State := s.set (Reg.REGION_THERMAL_tstate 0) 2

/-- RECOVERING, the stores to be filled, D(0,0) B0 C4 with a cleared store. -/
def refilling : State := (rec 6).modRcv (fun r => { r with loadStep := 2 }) |>.modCell 4 fun x => { x with scene := { x.scene with playing := true, logical := 4 } }

end Sys2Proof.Tests

/-- Beats: weights still on their way, and there. -/
theorem meets_Beats_loading :
    (let s := (loaded (scene4 fun y => { y with phase := .ready })).modHub fun h => { h with fw := [fwCopy 0 4096 64 []] };
      let t : State := { s with pkg := s.pkg.map fun l => { l with loading := true } };
      t.mayRun 4 = true ∧ t.loading = true ∧ s.loading = false) ∧ run0.loading = false := by decide +kernel

/-- Stalls: a store to fill from the package, from the scene reserve. -/
theorem meets_Stalls_refill :
    let s := refilling
    let p : Package := { pkg0 with scenes := [⟨4, 0, 64, [⟨[], []⟩]⟩] }
    let l : State := { s with pkg := some ⟨p, [], 2000, 100, false, false, [(4, 4 + 1 <<< 22)], [], [], [], [], false⟩ }
    s.isIn .recovering = true ∧ s.get Reg.RECOVERY_STATUS_phase = 6 ∧ s.rcv.loadStep = 2 ∧ s.fwBusy = false ∧ (s.cell 4).scene.playing = true ∧
      (s.cell 4).scene.store = [] ∧ s.fenced 4 = false ∧ s.reserveOf (s.cell 4).scene.logical = none ∧ (l.reserveOf (l.cell 4).scene.logical).isSome = true := by
  decide +kernel

/-- RemoteWrites, Grants, ChannelArrivals: a strike under way, a cell whose clock stands. -/
theorem meets_Arrivals_held :
    (struck run0).striking = true ∧ run0.striking = false ∧ run0.gated 4 = false ∧ (ghostly run0).gated 4 = true ∧
      (ghostly (run0.fenceCell 4 1)).gated 4 = false ∧ (struck (msgIn { plainIn with recs := [] } 0)).gated 5 = false := by decide +kernel

/-- ChannelArrivals: contributions of a sender whose message is dropped, out of the window, too long, ended short. -/
theorem meets_ChannelArrivals_chorus :
    let s := msgIn chorusIn 0
    let r := (s.ep 5 1).cfg
    let i := fun (n : Nat) => epItem r n
    (decide ((1 : Nat) ≠ 0) && ((s.modAux 5 1 fun x => { x with skip := [5] }).aux 5 1).skip.contains (hIndex (h5 2))) = true ∧
      decide ((i 0 + 2 ^ 32 - (s.aux 5 1).base) % 2 ^ 32 < epSlots r) = true ∧ decide ((i 2 + 2 ^ 32 - (s.aux 5 1).base) % 2 ^ 32 < epSlots r) = false ∧
      decide (0 + 2 ≤ epContrib r) = true ∧ decide (1 + 2 ≤ epContrib r) = false ∧ (!true || (0 + 1 == epContrib r)) = false := by decide +kernel

/-- MatrixChain, Wings: a replay or a drain that an uncorrectable word ends with a fence. -/
theorem meets_MatrixChain_fenced :
    (let s := mAt 0 fun x => { x with phase := .replay };
      ((s.fenceCell 0 4).modM 0 fun x => x.restore [0, 1]).fenced 0 = true) ∧
    (let s := mAt 0 fun x => { x with drain := [⟨0, 0, 0, 0, [1, 2, 3], 0, false⟩] };
      (s.drainBank 0 (mDesc 0) ⟨0, 0, 0, 0, [1, 2, 3], 0, false⟩ []).fenced 0 = false) := by decide +kernel

namespace Sys2Proof.Tests

/-- A descriptor of 64 B in DRAM: operation, source, destination. -/
def move (op src dst : Nat) : Desc := ⟨[op + 64 <<< 32, src, dst, 0, 0, 7, 0, 0], 2, 0, 0, [], []⟩

end Sys2Proof.Tests

/-- Porters: a COPY and a FILL of 64 B in DRAM, granted; one that sends its report; BaseCamp: errors of both kinds. -/
theorem meets_Porters_moves :
    (∀ op ∈ [1, 2], let d := move op 0 4096; let s := run0.modPorter 0 fun x => { x with run := some d, phase := .granted };
      s.portersRun = true ∧ (s.porter 0).run = some d ∧ d.op = op ∧ (s.porter 0).phase = .granted ∧ d.data = [] ∧ d.mcast = false ∧ d.dstSpace = 0 ∧
        d.srcSpace = 0 ∧ d.dstAddr % 32 = 0 ∧ d.len = 64 ∧ inDram d.dstAddr d.len = true ∧ inDram d.srcAddr d.len = true ∧ s.mem.dramPoison = []) ∧
    ((por 1 .sending).porter 0).phase = .sending ∧
    (let es : List DramErr := [⟨5, true, 3⟩]; (es.find? fun e => e.unit == 5 && !e.corrected) = none ∧ (es.find? fun e => e.unit == 5) = some ⟨5, true, 3⟩) ∧
    (([⟨5, false, 3⟩] : List DramErr).find? fun e => e.unit == 5 && !e.corrected) = some ⟨5, false, 3⟩ := by decide +kernel

/-- Grants: RELEASE by the writer of a granted window. -/
theorem meets_Grants_release :
    let r := 1 <<< 24 + 32 <<< 32
    let s := req4 ⟨8, 0, 4, 0, 6, 0, 0, r, 0⟩ ⟨winDecl, .granted, 6, 32, 0⟩
    ∃ w, s.win 4 (grWindow r) = some w ∧ grType r = 1 ∧ writerAllowed w.decl 6 = true ∧ countOk w.decl (grCount r) = true ∧ w.writer = 6 ∧ w.st = .granted := by
  exact ⟨_, rfl, by decide +kernel⟩

/-- RopeFrames, RopeRings: a frame with an uncorrectable codeword, a session that is open, a ring that drains with frames under way. -/
theorem meets_Rope_more :
    ({ frame 1 0 0 0 9 0 0 [] true with fec := 2 } : RopeFrame).fec ≠ 0 ∧ roped.ringSt 0 = 4 ∧ (roped.rring 0).next = none ∧
      (ringAt 1 run0).ringSt 0 ≠ 4 ∧ (ringAt 1 run0).ringSt 0 ≠ 5 ∧ roped.isIn .running = true := by decide +kernel

/-- BringUp: a step past its bound, the codes whose own work judges. -/
theorem meets_BringUp_late :
    (let s := stepOn 9 ⟨0, 0, 0, [], []⟩; let t : State := { s with now := 10 ^ 13 };
      t.seq.env = some ⟨0, 0, 0, [], []⟩ ∧ t.isIn .bringup = true ∧ t.flag Reg.SEQ_STATUS_running = true ∧ t.seq.stepAt + t.stepBound 9 ⟨0, 0, 0, [], []⟩ < t.now) ∧
    (∀ c ∈ [6, 12], ((stepOn c ⟨1, 0, 0, [], []⟩).stepWork c ⟨1, 0, 0, [], []⟩).2 = none) := by decide +kernel

/-- R310, log 136: of two complete halves a restart takes the later one, and the other one when a read of its header is uncorrectable. -/
theorem test_belay_header :
    let y : Belay := ⟨0, 0, 0x20000, [0], [], [], false⟩
    let w := loaded (rec 6)
    let w : State := { w with pkg := w.pkg.map fun l => { l with digest := List.replicate 64 0 } }
    let s := ((((w.modRcv fun r => { r with lastBelay := some y }).writeBytes 64 (toLE 8 3)).writeBytes 4088 (toLE 8 1)).writeBytes
      0x10040 (toLE 8 4)).writeBytes 0x10FF8 (toLE 8 1)
    (s.takeHalf []).rcv.half = some 1 ∧ (s.takeHalf [⟨0x401, false, 0⟩]).rcv.half = some 0 := by decide +kernel

/-! ### Worked examples of the spec -/

/-- Scope, "locating one cell": D(7,3) B5 C2. -/
theorem test_locate :
    0x37A2 = 3 <<< 12 + 7 <<< 8 + 5 <<< 5 + 2 ∧ gOf 0x37A2 = 43 ∧ bOf 0x37A2 = 5 ∧ cOf 0x37A2 = 2 ∧ blkXY (3 <<< 7 + 7 <<< 3 + 5) = (29, 7) ∧ engineOf 0x37A2 = .m ∧
      spAddr 0x37A2 0 = 0x8037A2000000 ∧ spDecode 0x8037A25FFFFF = some (0x37A2, 0x5FFFFF) ∧ spDecode 0x8037A2600000 = none := by decide +kernel

/-- Panel architecture, "the hub port of a west-side block": D(4,6) B7 is port 20. -/
theorem test_hub_port : blkXY (6 <<< 7 + 4 <<< 3 + 7) = (19, 13) ∧ hubPort (6 <<< 7 + 4 <<< 3 + 7) 1 = some 20 := by decide +kernel

/-- Number formats, "decoding a B4S16 pair": the products are formed with 24 and −6. -/
theorem test_b4s16 :
    packedElem 0x0C [0xB7] 0 = 7 ∧ packedElem 0x0C [0xB7] 1 = 0xB ∧ (blockElem 0x0C false 0x48 7).cmp (FV.ofInt 24) = 0 ∧
      (blockElem 0x0C false 0x48 0xB).cmp (FV.ofInt (-6)) = 0 ∧ (elemVal 0x0C false 7).cmp (FV.ofInt 6) = 0 := by decide +kernel

/-- Number formats, "rounding 1.3 to BF16". -/
theorem test_round_bf16 :
    convElem 0x01 .rne false (val32 0x3FA66666) = 0x3FA6 ∧ convElem 0x01 (.sr (0x9999 <<< 16)) false (val32 0x3FA66666) = 0x3FA6 ∧
      convElem 0x01 (.sr (0x999A <<< 16)) false (val32 0x3FA66666) = 0x3FA7 := by decide +kernel

/-- Matrix cells, "a rounding residual and a dropped product": no mismatch, then a mismatch with `excess` 8. -/
theorem test_row_check :
    let u : Machine.Unit := ⟨[.fin false (2 ^ 14 + 1) (-16), .fin true (2 ^ 14 - 1) (-16), .fin false 2 0, .fin true 3 (-1)], [], [0x447A0000, 0xC0400000],
      [0x447A0000, 0xC0200000], false⟩;
    let v : Machine.Unit := { u with news := [0x447A0000, 0xC0300000] };
    u.check false = .ok ∧ v.check false = .bad ∧ excessOf v = 8 := by decide +kernel

/-- Vector and scalar cells, "one FMA in a softmax loop": the fields of 0x0188_2304. -/
theorem test_vfma_word :
    let i := 0x01882304;
    vOp i = 0x04 ∧ vVd i = 3 ∧ vVa i = 1 ∧ vVb i = 2 ∧ vVc i = 3 ∧ vMask i = 0 ∧ vFmt i = 0 ∧ vRound i = false := by decide +kernel

/-- Scratchpads, "reading a sweep failure": offset, strip, device address, column group. -/
theorem test_sweep_failure :
    let f : MarchFail := ⟨1716, 2, 141, 3⟩;
    f.row * 128 + f.col * 32 = 0x35A40 ∧ spAddr 0x37A2 (4 * 0x100000 + 0x35A40) = 0x8037A2435A40 ∧ colGroup f = 85 := by decide +kernel

/-- Mesh, "timing one circuit": columns first, then rows, from (10,19) to (13,17). -/
theorem test_path :
    let hop := fun (x y : Nat) => (blkAt x y).bind fun b => hopTo (fun _ => []) b 13 17;
    hop 10 19 = some 1 ∧ hop 11 19 = some 1 ∧ hop 12 19 = some 1 ∧ hop 13 19 = some 0 ∧ hop 13 18 = some 0 ∧ hop 13 17 = none := by decide +kernel

/-- Channels, "a pad record": with credit 2 and the tail at granule 30, a message of 5 granules sends a pad of 2 and waits. -/
theorem test_pad_record :
    let s := chan5 4 1 (epAt 5 1 { EpSt.init with cfg := 1 + 10 <<< 28 + 5 <<< 33 } (epAt 4 1 { plainOut with credit := 2, tail := 30 } run0));
    let r := s.epSend 4 1 (List.replicate 5 ⟨[], false⟩);
    r.1 = false ∧ (r.2.ep 4 1).credit = 0 ∧ (r.2.ep 4 1).tail = 0 := by decide +kernel

/-- Scenes, "replacing a matrix cell": the index and the value of the entry. -/
theorem test_cast_entry : castIndex 0x37A2 = 2445 ∧ 64 + castIndex 0x37A2 * 4 = 0x2674 ∧ 3 <<< 12 + 7 <<< 8 + 7 <<< 5 + 3 = 0x37E3 := by decide +kernel

/-- Checked and Paired service, "a mismatch at a curtain-bound token": the twin of D(3,2) B6 C6 is D(8,9) B1 C6. -/
theorem test_twin : twinOf (2 <<< 12 + 3 <<< 8 + 6 <<< 5 + 6) = 9 <<< 12 + 8 <<< 8 + 1 <<< 5 + 6 := by decide +kernel

/-- Host interface, "a prompt that meets the ring end": the PAD of 24 granules at granule 1,000 is passed. -/
theorem test_prompt_pad :
    let h := ringHandle 37 ({ RingSt.init with gen := 4 } : RingSt);
    let s := (run0.modHost fun h => { h with bme := true }).modRing 37 fun r =>
      { r with live := true, gen := 4, binding := 0, size := 16, head := 1000, tail := 95, seq := 812 };
    h = 0x60040025 ∧ s.readRing 37 (toLE 1 0 ++ toLE 1 24 ++ toLE 2 0 ++ toLE 4 0 ++ toLE 4 h ++ toLE 52 0) = .pad 24 := by decide +kernel

/-- Bring-up, "die D(7,3) across three cold starts": the first word of B6 C4's entry. -/
theorem test_map_entry : (MapEnt.bytes ⟨1, 2, 0x37C4, 0, 0, false, false, false, 0, 212⟩).take 4 = [0x21, 0xC4, 0x37, 0x00] := by decide +kernel

/-- Rope, "one cutoff": the virtual ranks of shard 2 in a team of six, and the cutoffs at depths 1 and 2. -/
theorem test_cutoff :
    let t := fun (r : Nat) => (⟨6, r, 0, 10000000, 2000000, 200000, [], []⟩ : Team);
    [2, 3, 4, 5, 0, 1].map (fun r => (t r).self 2) = [0, 1, 2, 3, 4, 5] ∧ (t 3).cutoff 2 0 = 1800000 ∧ (t 0).cutoff 2 0 = 1600000 ∧
      (t 5).parent 2 = 3 ∧ (t 1).parent 2 = 4 := by decide +kernel

/-- Thermal, "a region that loses cooling": step 1 is 3.4 GHz, step 12 is 1.2 GHz. -/
theorem test_steps : stepMHz 0 = 3600 ∧ stepMHz 1 = 3400 ∧ stepMHz 12 = 1200 := by decide +kernel

/-- Telemetry, "sizing depth sampling": 700 of 2,048 granules read 87. -/
theorem test_depth :
    (let s := epAt 4 1 { plainIn with cfg := 1 + 16 <<< 28 + 255 <<< 33, recs := [⟨false, 0, 255, 0⟩, ⟨false, 0, 255, 0⟩, ⟨false, 0, 190, 0⟩] } run0;
      s.depthByte 4 1) = 87 := by decide +kernel

/-- Registers, "the registers of one cell": offsets of D(7,3) B5 C2. -/
theorem test_register_offsets :
    winBase 43 = 0x22B0000 ∧ (Reg.MC_CK_LAST_excess 0x37A2).off = 0x22B8588 ∧ (Reg.CELL_EPOCH_epoch 0x37A2).off = 0x22B9528 ∧
      (Reg.BLK_STATUS_cell_fence_valid (3 <<< 7 + 7 <<< 3 + 5)).off = 0x22BE250 ∧ (Reg.REGION_ID_g 43).off = 0x22B0000 := by decide +kernel
end

section
/-! PROOFS. The numbering of blocks: the fields of a block key, the hub hole, hub ports, block keys from coordinates (R2, R19). -/

namespace Sys2Proof.Machine

/-! ### The fields of a block key -/

/-- The key of block `b` on the die in column `col` and row `row` (cell address / 32). -/
def blockKey (row col b : Nat) : Nat := row <<< 7 + col <<< 3 + b

section
variable {row col b : Nat} (hcol : col < 16) (hb : b < 8)
include hcol hb

theorem blockKey_shiftRight : blockKey row col b >>> 7 = row := by
  simp only [blockKey, Nat.shiftLeft_eq, Nat.shiftRight_eq_div_pow]; omega

theorem bits_blockKey_col : bits (blockKey row col b) 3 4 = col := by
  simp only [blockKey, bits, Nat.shiftLeft_eq, Nat.shiftRight_eq_div_pow]; omega

omit hcol in
theorem bkB_blockKey : bkB (blockKey row col b) = b := by
  simp only [blockKey, bkB, bits, Nat.shiftLeft_eq, Nat.shiftRight_eq_div_pow]; omega

theorem blkXY_blockKey : blkXY (blockKey row col b) = (col * 4 + b % 4, row * 2 + b / 4) := by
  rw [blkXY, bits_blockKey_col hcol hb, bkB_blockKey hb, blockKey_shiftRight hcol hb]

end

/-! ### The hub hole -/

/-- The block coordinates of the hub hole: columns 20–27 in rows 10–13 (R2). -/
def InHubHole (x y : Nat) : Prop := 20 ≤ x ∧ x ≤ 27 ∧ 10 ≤ y ∧ y ≤ 13

/-- Coordinates beside the hub hole: outside it, with a neighbour in it. -/
def BordersHubHole (x y : Nat) : Prop :=
  ¬InHubHole x y ∧ (InHubHole (x + 1) y ∨ (0 < x ∧ InHubHole (x - 1) y) ∨ InHubHole x (y + 1) ∨ (0 < y ∧ InHubHole x (y - 1)))

/-- The hub hole is the blocks of the four hub dies. -/
theorem hubDie_iff_inHubHole {row col b : Nat} (hb : b < 8) :
    hubDie col row = true ↔ InHubHole (col * 4 + b % 4) (row * 2 + b / 4) := by
  simp only [hubDie, InHubHole, Bool.and_eq_true, Bool.or_eq_true, beq_iff_eq]; omega

/-- A block key is valid when its die is one of the field: the block's first cell has the die's position in its address. -/
theorem blkValid_iff (k : Nat) :
    blkValid k = true ↔ k >>> 7 < 12 ∧ bits k 3 4 < 12 ∧ hubDie (bits k 3 4) (k >>> 7) = false := by
  have hrow : (k * 32) >>> 12 = k >>> 7 := by simp only [Nat.shiftRight_eq_div_pow]; omega
  have hcol : bits (k * 32) 8 4 = bits k 3 4 := by simp only [bits, Nat.shiftRight_eq_div_pow]; omega
  have hmid : bits (k * 32) 3 2 = 0 := by simp only [bits, Nat.shiftRight_eq_div_pow]; omega
  have hcell : cOf (k * 32) = 0 := by simp only [cOf, bits, Nat.shiftRight_eq_div_pow]; omega
  have hsize : k >>> 7 < 12 → k * 32 < 0x10000 := by simp only [Nat.shiftRight_eq_div_pow]; omega
  simp only [blkValid, cellValid, hrow, hcol, hmid, hcell, Bool.and_eq_true, decide_eq_true_eq, Bool.not_eq_true', beq_self_eq_true]
  constructor
  · rintro ⟨⟨⟨⟨⟨-, hr⟩, hc⟩, hd⟩, -⟩, -⟩
    exact ⟨by omega, by omega, hd⟩
  · rintro ⟨hr, hc, hd⟩
    exact ⟨⟨⟨⟨⟨hsize hr, by omega⟩, by omega⟩, hd⟩, trivial⟩, by omega⟩

/-- The keys of the field that name no block are those in the hub hole. -/
theorem blkValid_blockKey_iff {row col b : Nat} (hrow : row < 12) (hcol : col < 12) (hb : b < 8) :
    blkValid (blockKey row col b) = true ↔ ¬InHubHole (col * 4 + b % 4) (row * 2 + b / 4) := by
  have hcol' : col < 16 := by omega
  rw [blkValid_iff, bits_blockKey_col hcol' hb, blockKey_shiftRight hcol' hb, ← hubDie_iff_inHubHole hb]
  simp [hrow, hcol]

/-! ### The hub ring -/

/-- Whether a block of the field has a hub port (the hub ring, R2). -/
def inHubRing (k : Nat) : Bool := blkValid k && (List.range 4).any fun d => (hubPort k d).isSome

/-- The hub ports by side of the hole: above it, right of it, below it and left of it (Table 1.2). -/
theorem hubPort_isSome_iff {k x y : Nat} (hk : blkXY k = (x, y)) (d : Nat) :
    (hubPort k d).isSome = true ↔
      (d = 2 ∧ y = 9 ∧ 20 ≤ x ∧ x ≤ 27) ∨ (d = 3 ∧ x = 28 ∧ 10 ≤ y ∧ y ≤ 13) ∨
      (d = 0 ∧ y = 14 ∧ 20 ≤ x ∧ x ≤ 27) ∨ (d = 1 ∧ x = 19 ∧ 10 ≤ y ∧ y ≤ 13) := by
  simp only [hubPort, hk]
  split_ifs <;> simp [*]

/-- A block has a hub port when it borders the hole: a hub port faces each side of the hole. -/
theorem any_hubPort_iff {k x y : Nat} (hk : blkXY k = (x, y)) :
    ((List.range 4).any fun d => (hubPort k d).isSome) = true ↔ BordersHubHole x y := by
  simp only [List.any_eq_true, List.mem_range, hubPort_isSome_iff hk, BordersHubHole, InHubHole]
  constructor
  · rintro ⟨d, -, h⟩
    omega
  · rintro ⟨hout, hright | hleft | hbelow | habove⟩
    · exact ⟨1, by omega, by omega⟩
    · exact ⟨3, by omega, by omega⟩
    · exact ⟨2, by omega, by omega⟩
    · exact ⟨0, by omega, by omega⟩

theorem inHubRing_blockKey_iff {row col b : Nat} (hrow : row < 12) (hcol : col < 12) (hb : b < 8) :
    inHubRing (blockKey row col b) = true ↔ BordersHubHole (col * 4 + b % 4) (row * 2 + b / 4) := by
  have hport := any_hubPort_iff (blkXY_blockKey (row := row) (col := col) (b := b) (by omega) hb)
  rw [inHubRing, Bool.and_eq_true, blkValid_blockKey_iff hrow hcol hb, hport]
  exact ⟨fun h => h.2, fun h => ⟨h.1, h⟩⟩

/-- The hub ring is 24 of the 1,536 keys. -/
theorem length_hubRing : ((List.range 1536).filter inHubRing).length = 24 := by decide +kernel

/-! ### Block keys from coordinates -/

/-- Outside the hub hole every coordinate pair of the field has a block. -/
theorem exists_blkAt {x y : Nat} (hx : x < 48) (hy : y < 24) (h : ¬InHubHole x y) : ∃ k, blkAt x y = some k ∧ blkXY k = (x, y) := by
  have hrow : y / 2 < 12 := by omega
  have hcol : x / 4 < 12 := by omega
  have hb : y % 2 * 4 + x % 4 < 8 := by omega
  have hxk : x / 4 * 4 + (y % 2 * 4 + x % 4) % 4 = x := by omega
  have hyk : y / 2 * 2 + (y % 2 * 4 + x % 4) / 4 = y := by omega
  have hvalid : blkValid (blockKey (y / 2) (x / 4) (y % 2 * 4 + x % 4)) = true := by
    rw [blkValid_blockKey_iff hrow hcol hb, hxk, hyk]; exact h
  refine ⟨blockKey (y / 2) (x / 4) (y % 2 * 4 + x % 4), ?_, ?_⟩
  · rw [blockKey, ← Nat.add_assoc] at hvalid ⊢
    exact if_pos ⟨hx, hy, hvalid⟩
  · rw [blkXY_blockKey (by omega) hb, hxk, hyk]

/-- Settles O6: each block key by its fields, each coordinate pair by its key, the hub ring by a count over the keys. -/
theorem blockCoordinates : Obligations.BlockCoordinates := by
  refine ⟨fun row col b hrow hcol hb => ⟨blkXY_blockKey (by omega) hb, ?_, ?_, ?_, ?_⟩, fun x y => exists_blkAt, length_hubRing⟩
  · omega
  · omega
  · exact blkValid_blockKey_iff hrow hcol hb
  · exact inHubRing_blockKey_iff hrow hcol hb

end Sys2Proof.Machine
end

section
/-! PROOFS. Scratchpad device addresses: the cell and the offset that an address carries, and which addresses are decoded (R4). -/

namespace Sys2Proof.Machine

/-- The windows follow each other from 0x8000_0000_0000, 16 MiB for each cell address (R4). -/
theorem spAddr_eq (c o : Nat) : spAddr c o = 0x800000000000 + c * 2 ^ 24 + o := by rw [spAddr, Nat.shiftLeft_eq]

section
variable {c o : Nat} (ho : o < 0x1000000)
include ho

theorem spAddr_window : (spAddr c o - 0x800000000000) >>> 24 = c := by
  rw [spAddr_eq, Nat.shiftRight_eq_div_pow]; omega

theorem spAddr_offset : spAddr c o % 2 ^ 24 = o := by
  rw [spAddr_eq]; omega

/-- A window's address is decoded within the banks of a valid cell, and nowhere else. -/
theorem spDecode_spAddr (hc : c < 0x10000) :
    spDecode (spAddr c o) = if cellValid c = true ∧ o < bankCount c * 0x100000 then some (c, o) else none := by
  have hin : ¬(spAddr c o < 0x800000000000 ∨ 0x810000000000 ≤ spAddr c o) := by rw [spAddr_eq]; omega
  rw [spDecode, if_neg hin, spAddr_window ho, spAddr_offset ho]

end

/-- Settles O7: an address carries its cell and its offset, and is decoded by them. -/
theorem scratchpadAddresses : Obligations.ScratchpadAddresses := fun c o hc ho => ⟨spAddr_eq c o, spDecode_spAddr ho hc⟩

end Sys2Proof.Machine
end

section
/-! PROOFS. The effective limit of the input power: its three bounds, that one of them is met, and the worked values (R398). -/

namespace Sys2Proof.Machine

section
variable (s : State)

/-- What lies within the limit: what lies within all three terms. -/
theorem le_effLimit_iff (w : Nat) :
    w ≤ s.effLimit ↔
      w ≤ s.get Reg.POWER_CTRL_limit_w ∧ w ≤ 225 * s.pins.mv / 1000 ∧ w ≤ 900 * (16 - s.power.failed.length) := by
  rw [State.effLimit, le_min_iff, le_min_iff]

theorem effLimit_eq_term :
    s.effLimit = s.get Reg.POWER_CTRL_limit_w ∨ s.effLimit = 225 * s.pins.mv / 1000 ∨
      s.effLimit = 900 * (16 - s.power.failed.length) :=
  (min_choice _ _).imp_right fun (h : s.effLimit = _) => (min_choice _ _).imp h.trans h.trans

variable {s} (hlimit : s.get Reg.POWER_CTRL_limit_w = 13500)
include hlimit

/-- At 54 V with every converter at work the input's 225 A bind: 12,150 W, under 13,500 W and 14,400 W. -/
theorem effLimit_at_54V (hmv : s.pins.mv = 54000) (hall : s.power.failed = []) : s.effLimit = 12150 := by
  rw [State.effLimit, hlimit, hmv, hall]; rfl

/-- At 62 V with two converters out the other fourteen bind: 12,600 W, under 13,500 W and 13,950 W. -/
theorem effLimit_of_two_failed {i j : Nat} (hmv : s.pins.mv = 62000) (htwo : s.power.failed = [i, j]) :
    s.effLimit = 12600 := by
  rw [State.effLimit, hlimit, hmv, htwo]; rfl

end

/-- Settles O54: the bounds hold of the limit itself, one of them is met, and each worked value names the term that binds. -/
theorem effectiveLimit : Obligations.EffectiveLimit := by
  intro s amps conv limit
  obtain ⟨hlimit, hamps, hconv⟩ := (le_effLimit_iff s s.effLimit).mp le_rfl
  exact ⟨hlimit, hamps, hconv, effLimit_eq_term s, fun hmv h hall => effLimit_at_54V h hmv hall,
    fun _ _ hmv h htwo => effLimit_of_two_failed h hmv htwo⟩

end Sys2Proof.Machine
end

section
/-! PROOFS. Readings of the sensors: which of them report, and the answer of one that does and of one that does not (R431, R432). -/

namespace Sys2Proof.Machine

theorem exec_pldmSensorRead (id : Nat) (s : State) : exec (.pldmSensorRead id) s = execPldmSensorRead id s := rfl

section
variable {s : State} {id : Nat}

/-- R432's three cases for the sensors of a field die; the panel's own sensors are subject to none of them. -/
theorem sensorUp_eq_false_iff :
    s.sensorUp id = false ↔ id < 0x400 ∧
      (s.isIn .standby = true ∨ s.isIn .dark = true ∨ s.tstate (id % 0x100) = 3 ∨ s.maps.unreached.contains (id % 0x100) = true) := by
  rw [State.sensorUp]
  split
  case isTrue hdie =>
    rw [and_iff_right hdie]
    simp only [Bool.and_eq_false_iff, Bool.not_eq_false', Bool.or_eq_true, bne_eq_false_iff_eq, or_assoc]
  case isFalse hpanel => exact iff_of_false nofun fun h => hpanel h.1

variable {num : Bool} (hkind : sensorKind id = some num) (hon : s.isIn .off = false)
include hkind hon

theorem exec_pldmSensorRead_of_unavailable (hup : s.sensorUp id = false) :
    exec (.pldmSensorRead id) s = .next (s.served ([0, 3, 0, 0, 0, 0, 0] : List Byte)) := by
  rw [exec_pldmSensorRead, execPldmSensorRead, hon, hkind, hup]
  rfl

theorem exec_pldmSensorRead_of_available (hup : s.sensorUp id = true) :
    exec (.pldmSensorRead id) s =
      .next (s.served (toLE 1 0 ++ toLE 1 0 ++ toLE 1 (if num then s.threshold id (s.sensorValue id) else 0) ++
        toLE 4 (ofSigned 32 (s.sensorValue id)))) := by
  rw [exec_pldmSensorRead, execPldmSensorRead, hon, hkind, hup]
  rfl

end

/-- Settles O58: a die's sensor is unavailable just where R432 says so, and each answer is that of its availability. -/
theorem sensorAvailability : Obligations.SensorAvailability := by
  intro id num s hkind hon g lost v
  constructor
  · intro hdie hlost
    exact exec_pldmSensorRead_of_unavailable hkind hon (sensorUp_eq_false_iff.mpr ⟨hdie, hlost⟩)
  · intro hreports
    refine exec_pldmSensorRead_of_available hkind hon (Bool.eq_true_of_not_eq_false fun hdown => ?_)
    obtain ⟨hdie, hlost⟩ := sensorUp_eq_false_iff.mp hdown
    exact hreports.elim (fun hpanel => absurd hdie (Nat.not_lt.mpr hpanel)) fun havail => havail hlost

end Sys2Proof.Machine
end

section
/-! PROOFS. What keeps a state safe (O3): the rules for one update of the state, one lemma per operation of the model, then
one per command that says what it answers on its unit and off it (O2). -/
namespace Sys2Proof
open Machine
/-- What an operation that may have no answer leaves, where it has one, is safe. -/
def SafeOpt {α : Type} (g : α → State) (o : Option α) : Prop := ∀ r, o = some r → Safe (g r)
variable {s t : State}
/-- A state that keeps the queue and the memory of a safe one is safe. -/
theorem Safe.congr
    {now freeIdx : Nat} {out : List Out} {regs : SMap (SMap Word64)} {cells : SMap CellSt} {banks : SMap BankSt} {mesh : MeshSt} {chans : SMap
    ChanSt} {pkg : Option Loaded} {belay : Option Belay} {rcv : RecSt} {cairn : CairnSt} {pair : PairSt} {acts : ActsSt} {slots : SMap SlotSt}
    {kv : KvSt} {hub : HubSt} {host : HostSt} {rope : RopeSt} {maps : MapSt} {seq : SeqSt} {power : PowerSt} {therm : SMap ThermSt} {clock :
    ClockSt} {dor : DorSt} {tel : TelSt} {pins : PinSt} {castGen : Nat} {castTab : SMap Nat} {distGen : Nat} {dist : DistSt} (h : Safe s) :
    Safe ⟨s.pending, now, freeIdx, out, regs, s.mem, cells, banks, mesh, chans, pkg, belay, rcv, cairn, pair, acts, slots, kv, hub, host, rope,
    maps, seq, power, therm, clock, dor, tel, pins, castGen, castTab, distGen, dist⟩ := h
/-- So is one whose memory keeps its bytes, whatever its marks. -/
theorem Safe.marks
    {poisonSp poisonDram back again : List Nat} {granules : SMap Granule} {strips : SMap Nat}
    {now freeIdx : Nat} {out : List Out} {regs : SMap (SMap Word64)} {cells : SMap CellSt} {banks : SMap BankSt} {mesh : MeshSt} {chans : SMap
    ChanSt} {pkg : Option Loaded} {belay : Option Belay} {rcv : RecSt} {cairn : CairnSt} {pair : PairSt} {acts : ActsSt} {slots : SMap SlotSt}
    {kv : KvSt} {hub : HubSt} {host : HostSt} {rope : RopeSt} {maps : MapSt} {seq : SeqSt} {power : PowerSt} {therm : SMap ThermSt} {clock :
    ClockSt} {dor : DorSt} {tel : TelSt} {pins : PinSt} {castGen : Nat} {castTab : SMap Nat} {distGen : Nat} {dist : DistSt} (h : Safe s) :
    Safe ⟨s.pending, now, freeIdx, out, regs, ⟨s.mem.cells, poisonSp, poisonDram, back, again, granules, strips⟩, cells, banks, mesh, chans,
    pkg, belay, rcv, cairn, pair, acts, slots, kv, hub, host, rope, maps, seq, power, therm, clock, dor, tel, pins, castGen, castTab, distGen,
    dist⟩ := h
/-- So is one whose memory is empty. -/
theorem Safe.erased
    {poisonSp poisonDram back again : List Nat} {granules : SMap Granule} {strips : SMap Nat}
    {now freeIdx : Nat} {out : List Out} {regs : SMap (SMap Word64)} {cells : SMap CellSt} {banks : SMap BankSt} {mesh : MeshSt} {chans : SMap
    ChanSt} {pkg : Option Loaded} {belay : Option Belay} {rcv : RecSt} {cairn : CairnSt} {pair : PairSt} {acts : ActsSt} {slots : SMap SlotSt}
    {kv : KvSt} {hub : HubSt} {host : HostSt} {rope : RopeSt} {maps : MapSt} {seq : SeqSt} {power : PowerSt} {therm : SMap ThermSt} {clock :
    ClockSt} {dor : DorSt} {tel : TelSt} {pins : PinSt} {castGen : Nat} {castTab : SMap Nat} {distGen : Nat} {dist : DistSt} (h : Safe s) :
    Safe ⟨s.pending, now, freeIdx, out, regs, ⟨[], poisonSp, poisonDram, back, again, granules, strips⟩, cells, banks, mesh, chans,
    pkg, belay, rcv, cairn, pair, acts, slots, kv, hub, host, rope, maps, seq, power, therm, clock, dor, tel, pins, castGen, castTab, distGen,
    dist⟩ := ⟨rfl, h.2⟩
theorem safe_ite {p : Prop} [Decidable p] (hs : Safe s) (ht : Safe t) : Safe (if p then s else t) := by
  split
  · exact hs
  · exact ht
theorem safe_ite_snd {α : Type} {x y : α × State} {p : Prop} [Decidable p] (hx : Safe x.2) (hy : Safe y.2) : Safe (if p then x else y).2 := by
  split
  · exact hx
  · exact hy
theorem safe_ite_fst {α : Type} {x y : State × α} {p : Prop} [Decidable p] (hx : Safe x.1) (hy : Safe y.1) : Safe (if p then x else y).1 := by
  split
  · exact hx
  · exact hy
theorem safe_ite_snd_snd {α β : Type} {x y : α × β × State} {p : Prop} [Decidable p] (hx : Safe x.2.2) (hy : Safe y.2.2) : Safe (if p then x else
    y).2.2 := by
  split
  · exact hx
  · exact hy
theorem Safe.foldl {α : Type} {f : State → α → State} {xs : List α} (h : Safe s) (hf : ∀ {s x}, Safe s → Safe (f s x)) : Safe (xs.foldl f s) := by
  induction xs generalizing s with
  | nil => exact h
  | cons x xs ih => exact ih (hf h)
theorem Safe.foldl_snd {α β : Type} {f : β × State → α → β × State} {b : β} {xs : List α} (h : Safe s)
    (hf : ∀ {p x}, Safe p.2 → Safe (f p x).2) : Safe (xs.foldl f (b, s)).2 :=
  List.foldlRecOn (motive := fun p => Safe p.2) xs f h fun _ hp _ _ => hf hp
theorem Safe.foldl_fst {α β : Type} {f : State × β → α → State × β} {b : β} {xs : List α} (h : Safe s)
    (hf : ∀ {p x}, Safe p.1 → Safe (f p x).1) : Safe (xs.foldl f (s, b)).1 :=
  List.foldlRecOn (motive := fun p => Safe p.1) xs f h fun _ hp _ _ => hf hp
theorem SafeOpt.foldl {α β : Type} {g : β → State} {f : Option β → α → Option β} {xs : List α} {o : Option β} (ho : SafeOpt g o)
    (hf : ∀ {o x}, SafeOpt g o → SafeOpt g (f o x)) : SafeOpt g (xs.foldl f o) :=
  List.foldlRecOn (motive := SafeOpt g) xs f ho fun _ hp _ _ => hf hp
theorem Safe.foldIdx {α : Type} {f : Nat → State → α → State} {n : Nat} {xs : List α} (h : Safe s) (hf : ∀ {i s x}, Safe s → Safe (f i s x)) :
    Safe (foldIdx f n s xs) := by
  induction xs generalizing n s with
  | nil => exact h
  | cons x xs ih => exact ih (hf h)
/-- The state that a mailbox command leaves is safe, whether it ends or goes on. -/
def SafeAns : Ans → Prop
  | .done t _ _ => Safe t
  | .goes t => Safe t
theorem safeAns_ite {p : Prop} [Decidable p] {a b : Ans} (ha : SafeAns a) (hb : SafeAns b) : SafeAns (if p then a else b) := by
  split
  · exact ha
  · exact hb
theorem Safe.when {p : Bool} {f : State → State} (h : Safe s) (hf : Safe s → Safe (f s)) : Safe (when p f s) := by
  cases p
  · exact h
  · exact hf h
theorem Safe.setMem (h : Safe s) {m : List Host.Cell} (hm : Mem.sorted m = true) : Safe (s.setMem m) := ⟨hm, h.2⟩
theorem Safe.clearMem (h : Safe s) {lo hi : Nat} : Safe (s.clearMem lo hi) := ⟨Mem.sorted_clear _ _ _ h.1, h.2⟩
theorem Safe.writeBytes (h : Safe s) {a : Nat} {bs : List Byte} : Safe (s.writeBytes a bs) := h.setMem (Mem.sorted_write _ _ _ h.1)
section
variable {α β : Type} {g : α → State}
theorem SafeOpt.none : SafeOpt g none := nofun
theorem SafeOpt.some {r : α} (h : Safe (g r)) : SafeOpt g (some r) := by rintro _ ⟨⟩; exact h
theorem SafeOpt.ite {p : Prop} [Decidable p] {o q : Option α} (ho : SafeOpt g o) (hq : SafeOpt g q) : SafeOpt g (if p then o else q) := by
  split
  · exact ho
  · exact hq
theorem SafeOpt.map {k : β → State} {f : α → β} {o : Option α} (ho : SafeOpt g o) (hf : ∀ r, Safe (g r) → Safe (k (f r))) :
    SafeOpt k (o.map f) := by
  intro r hr
  obtain ⟨q, hq, rfl⟩ := Option.map_eq_some_iff.1 hr
  exact hf q (ho q hq)
end
end Sys2Proof
end
section
/-! The operations of `Machine/Ops` keep a state safe -/
namespace Sys2Proof
open Machine
variable {s : State} (h : Safe s)
include h
theorem Safe.setReg {off : Nat} {v : Nat} : Safe (s.setReg off v) := h.congr
theorem Safe.set {f : RF} {v : Nat} : Safe (s.set f v) := h.setReg
theorem Safe.inc {f : RF} {k : Nat} : Safe (s.inc f k) := h.set
theorem Safe.wrap {f : RF} {k : Nat} : Safe (s.wrap f k) := h.set
theorem Safe.sets {fs : List (RF × Nat)} : Safe (s.sets fs) := by
  unfold State.sets
  exact h.foldl fun h => h.set
theorem Safe.emit {o : Out} : Safe (s.emit o) := h.congr
theorem Safe.emits {os : List Out} : Safe (s.emits os) := h.congr
theorem Safe.draw : Safe s.draw.2 := h.congr
theorem Safe.drawBytes {n : Nat} : Safe (s.drawBytes n).2 := h.congr
theorem Safe.raise {e : Ev} : Safe (s.raise e) := safe_ite h (safe_ite h.set.emit h.set)
theorem Safe.goto {p : PState} : Safe (s.goto p) := h.set.set.wrap.set.raise
theorem Safe.modTherm {g : Nat} {f : ThermSt → ThermSt} : Safe (s.modTherm g f) := h.congr
theorem Safe.setCell {c : Nat} {x : CellSt} : Safe (s.setCell c x) := h.congr
theorem Safe.modCell {c : Nat} {f : CellSt → CellSt} : Safe (s.modCell c f) := h.setCell
theorem Safe.modEng {c : Nat} {f : EngSt → EngSt} : Safe (s.modEng c f) := h.modCell
theorem Safe.modScene {c : Nat} {f : SceneSt → SceneSt} : Safe (s.modScene c f) := h.modCell
theorem Safe.modPort {c : Nat} {f : PortSt → PortSt} : Safe (s.modPort c f) := h.modCell
theorem Safe.modEp {c : Nat} {n : Nat} {f : EpSt → EpSt} : Safe (s.modEp c n f) := h.modCell
theorem Safe.modAux {c : Nat} {n : Nat} {f : EpAux → EpAux} : Safe (s.modAux c n f) := h.modCell
theorem Safe.modXr {b : Nat} {f : XrSt → XrSt} : Safe (s.modXr b f) := h.congr
theorem Safe.modWire {k : Nat} {f : WireSt → WireSt} : Safe (s.modWire k f) := h.congr
theorem Safe.modTp {b : Nat} {toHub : Bool} {f : TpSt → TpSt} : Safe (s.modTp b toHub f) := h.congr
theorem Safe.modBank {c : Nat} {k : Nat} {f : BankSt → BankSt} : Safe (s.modBank c k f) := h.congr
theorem Safe.modChan {i : Nat} {f : ChanSt → ChanSt} : Safe (s.modChan i f) := h.congr
end Sys2Proof
end
section
/-! The operations of `Machine/Faults` keep a state safe -/
namespace Sys2Proof
open Machine
variable {s : State} (h : Safe s)
include h
theorem Safe.clockMark {g : Nat} : Safe (s.clockMark g) := h.modTherm
theorem Safe.modHub {f : HubSt → HubSt} : Safe (s.modHub f) := h.congr
theorem Safe.request {res : Nat} {cls : Nat} {owner : Nat} {n : Nat} : Safe (s.request res cls owner n) := safe_ite h h.modHub
theorem Safe.stageCairn {c : Cairn} : Safe (s.stageCairn c) := safe_ite h.request.congr.raise h.congr.inc
theorem Safe.report {c : Nat} {cause : Nat} {kind : Nat} : Safe (s.report c cause kind) := h.congr
theorem Safe.hubReport {unit : Nat} {kind : Nat} : Safe (s.hubReport unit kind) := h.congr
theorem Safe.cellFault {c : Nat} {kind : Nat} : Safe (s.cellFault c kind) := h.inc.report
theorem Safe.stopEngine {c : Nat} : Safe (s.stopEngine c) := h.modCell
theorem Safe.markFenced {c : Nat} {cause : Nat} : Safe (s.markFenced c cause) := safe_ite h h.set.set.stopEngine
theorem Safe.reserveLoss {c : Nat} : Safe (s.reserveLoss c) := by
  unfold State.reserveLoss
  split
  · exact safe_ite h.congr.stageCairn h
  · exact h
theorem Safe.fenceBlock {b : Nat} {cause : Nat} : Safe (s.fenceBlock b cause) := by
  unfold State.fenceBlock
  dsimp only
  exact h.set.set.set.foldl fun h => h.markFenced.reserveLoss
theorem Safe.fenceCell {c : Nat} {cause : Nat} : Safe (s.fenceCell c cause) :=
  safe_ite h.inc.report (safe_ite h.inc.fenceBlock.report h.inc.set.set.markFenced.reserveLoss.report)
theorem Safe.fenceAbove {c : Nat} {cause : Nat} : Safe (s.fenceAbove c cause) := safe_ite h (safe_ite h.fenceBlock h.markFenced.reserveLoss)
theorem Safe.programFault {c : Nat} {cause : Nat} : Safe (s.programFault c cause) := h.modCell.cellFault
theorem Safe.modMaps {f : MapSt → MapSt} : Safe (s.modMaps f) := h.congr
theorem Safe.writeField {es : List MapEnt} : Safe (s.writeField es) := h.modMaps
theorem Safe.fieldPut {e : MapEnt} : Safe (s.fieldPut e) := safe_ite h.writeField h.writeField
theorem Safe.fieldAdd {kind : Nat} {source : Nat} {unit : Nat} {index : Nat} : Safe (s.fieldAdd kind source unit index) := h.fieldPut
theorem Safe.fieldFence {source : Nat} {c : Nat} : Safe (s.fieldFence source c) := safe_ite h.fieldAdd h.fieldAdd
theorem Safe.fieldRepairs {c : Nat} {k : Nat} {rs : List Repair} : Safe (s.fieldRepairs c k rs) := by
  unfold State.fieldRepairs
  dsimp only
  exact h.foldl fun h => safe_ite h h.writeField
end Sys2Proof
end
section
/-! The operations of `Machine/Mail` keep a state safe -/
namespace Sys2Proof
open Machine
variable {s : State} (h : Safe s)
include h
theorem Safe.badAccess {off : Nat} {write : Bool} {reason : Nat} {bar2 : Bool} : Safe (s.badAccess off write reason bar2) :=
  h.sets.inc.raise
theorem Safe.modHost {f : HostSt → HostSt} : Safe (s.modHost f) := h.congr
theorem Safe.modMb {n : Nat} {f : MbSt → MbSt} : Safe (s.modMb n f) := h.modHost
theorem Safe.putArea {off : Nat} {bs : List Byte} : Safe (s.putArea off bs) := by
  unfold State.putArea
  exact h.foldIdx fun h => h.setReg
theorem Safe.putRequest {mb : Nat} {r : NyReq} : Safe (s.putRequest mb r) := h.putArea
theorem Safe.respond {mb : Nat} {status : Nat} {result : List Byte} : Safe (s.respond mb status result) := by
  unfold State.respond
  dsimp only
  split
  · exact h
  · exact h.putArea.modMb.sets.emit
theorem Safe.putDefer {mb : Nat} {e : Nat} {opcode : Nat} {tag : Nat} {result : Nat} : Safe (s.putDefer mb e opcode tag result) :=
  h.setReg.setReg.inc
theorem Safe.settleDefer {mb : Nat} {e : Nat} {st : St} : Safe (s.settleDefer mb e st) := h.modHost
theorem Safe.finalDefer {mb : Nat} {e : Nat} {status : Nat} : Safe (s.finalDefer mb e status) := safe_ite h.setReg.set.set.emit h
end Sys2Proof
end
section
/-! The operations of `Machine/Dram` keep a state safe -/
namespace Sys2Proof
open Machine
variable {s : State} (h : Safe s)
include h
theorem Safe.eraseArea {base : Nat} {len : Nat} : Safe (s.eraseArea base len) := h.clearMem.marks
theorem Safe.dramLast {u : Nat} {e : DramErr} : Safe (s.dramLast u e) := h.sets
theorem Safe.readUnit {u : Nat} {errs : List DramErr} : Safe (s.readUnit u errs).2 := by
  unfold State.readUnit
  dsimp only
  refine safe_ite_snd ?_ ?_
  · exact h
  · split
    · exact h.inc.dramLast.stageCairn
    · refine safe_ite_snd ?_ ?_
      · exact h.inc
      · split
        · exact h.inc.dramLast.hubReport.marks
        · exact h
theorem Safe.readUnits {errs : List DramErr} {u n : Nat} : Safe (s.readUnits errs u n).2 := by
  induction n generalizing s u with
  | zero => exact h
  | succ n ih => exact ih h.readUnit
theorem Safe.readDram {a : Nat} {n : Nat} {errs : List DramErr} : Safe (s.readDram a n errs).2 := safe_ite_snd h h.readUnits
theorem Safe.fillGranule {a : Nat} : Safe (s.fillGranule a) := safe_ite h.marks h
theorem Safe.writeUnit {a : Nat} {bs : List Byte} {poison : Bool} {errs : List DramErr} : Safe (s.writeUnit a bs poison errs) :=
  safe_ite h.fillGranule.writeBytes.marks (safe_ite h.fillGranule.readUnit.marks h.fillGranule.readUnit.writeBytes.marks)
theorem Safe.writeDram {a : Nat} {bs : List Byte} {poison : Bool} {errs : List DramErr} {n : Nat} : Safe (s.writeDram a bs poison errs n) := by
  induction n generalizing s a bs with
  | zero => exact h
  | succ n ih => exact safe_ite h (ih h.writeUnit)
theorem Safe.writeGrans {a : Nat} {gs : List Gran} {errs : List DramErr} : Safe (s.writeGrans a gs errs) :=
  h.foldl_snd fun h => safe_ite h h.writeUnit
theorem Safe.modRes {r : Nat} {f : ResSt → ResSt} : Safe (s.modRes r f) := h.modHub
theorem Safe.applied : Safe s.applied := by
  unfold State.applied
  dsimp only
  exact .modHub (.set (h.foldIdx fun h => h.sets))
theorem Safe.arbPeriod {r : Nat} : Safe (s.arbPeriod r) := safe_ite h.modRes.applied h.modRes
theorem Safe.arbGrant {res : Nat} : Safe (s.arbGrant res) := by
  unfold State.arbGrant
  dsimp only
  split
  · exact h.modHub.modRes.wrap
  · split
    · exact h.modHub.modRes.wrap
    · exact h
theorem Safe.bar4 {off : Nat} {len : Nat} {write : Bool} {data : List Byte} {poison : Bool} {errs : List DramErr} :
    Safe (s.bar4 off len write data poison errs) := by
  unfold State.bar4
  dsimp only
  refine safe_ite ?_ ?_
  · exact safe_ite h h.emit
  · refine safe_ite ?_ ?_
    · exact safe_ite h.inc h.inc.emit
    · exact safe_ite (safe_ite h h.emit) (safe_ite h.request.request.writeDram h.request.request.readUnits.emit)
end Sys2Proof
end
section
/-! The operations of `Machine/RegWrite` keep a state safe -/
namespace Sys2Proof
open Machine
variable {s : State} (h : Safe s)
include h
theorem Safe.arbApply {pending : Bool} : Safe (s.arbApply pending) := safe_ite h.sets h.modHub
theorem Safe.regWrite {r : RegRow} {off : Nat} {v : Nat} {m : Nat} : Safe (s.regWrite r off v m) := by
  unfold State.regWrite
  dsimp only
  refine safe_ite ?_ ?_
  · exact safe_ite (safe_ite h.setReg.inc h.setReg) (.emit (safe_ite h.setReg.inc h.setReg))
  · exact safe_ite (.arbApply (safe_ite h.setReg.inc h.setReg)) (safe_ite h.setReg.inc h.setReg)
end Sys2Proof
end
section
/-! The operations of `Machine/Scratch` keep a state safe -/
namespace Sys2Proof
open Machine
variable {s : State} (h : Safe s)
include h
theorem Safe.eccLast {c : Nat} {o : Nat} {master : Nat} {e : EccEvent} : Safe (s.eccLast c o master e) := h.sets
theorem Safe.uncorrectable {c : Nat} {o : Nat} {master : Nat} {e : EccEvent} : Safe (s.uncorrectable c o master e) :=
  h.inc.eccLast.stageCairn.fenceCell
theorem Safe.correctedRead {c : Nat} {o : Nat} {master : Nat} {e : EccEvent} : Safe (s.correctedRead c o master e) := h.inc.eccLast.marks
theorem Safe.readWord {c : Nat} {o : Nat} {master : Nat} {ecc : List EccEvent} : Safe (s.readWord c o master ecc).2 := by
  unfold State.readWord
  dsimp only
  split
  · exact safe_ite_snd h.uncorrectable (safe_ite_snd (safe_ite h.inc h) h.correctedRead)
  · exact safe_ite h.inc h
theorem Safe.readWords {c o master : Nat} {ecc : List EccEvent} {n : Nat} : Safe (s.readWords c o master ecc n).2 := by
  induction n generalizing s o with
  | zero => exact h
  | succ n ih => exact ih h.readWord
theorem Safe.touch {c : Nat} {o : Nat} : Safe (s.touch c o) := h.marks
theorem Safe.writeWord {c : Nat} {o : Nat} {g : Gran} : Safe (s.writeWord c o g) := h.writeBytes.touch.marks
theorem Safe.writeWords {c o : Nat} {gs : List Gran} : Safe (s.writeWords c o gs) := by
  induction gs generalizing s o with
  | nil => exact h
  | cons g gs ih => exact ih h.writeWord
theorem Safe.writePart {c : Nat} {o : Nat} {bs : List Byte} {poison : Bool} {ecc : List EccEvent} : Safe (s.writePart c o bs poison ecc) :=
  safe_ite h.readWord.writeWord h.readWord.writeWord
end Sys2Proof
end
section
/-! The operations of `Machine/Net` keep a state safe -/
namespace Sys2Proof
open Machine
variable {s : State} (h : Safe s)
include h
theorem Safe.pushItem {b : Nat} {port : Nat} {it : Item} : Safe (s.pushItem b port it) := h.modXr
theorem Safe.sendItem {it : Item} : Safe (s.sendItem it) := safe_ite h.modXr (safe_ite h.modWire h.congr)
theorem Safe.pushFlits {b : Nat} {port : Nat} {fs : List Flit} : Safe (s.pushFlits b port fs) := h.modXr
theorem Safe.injectPkt {b : Nat} {port : Nat} {fs : List Flit} : Safe (s.injectPkt b port fs) := h.modXr
theorem Safe.injectStage {b : Nat} {key : Nat} {fs : List Flit} : Safe (s.injectStage b key fs) := h.modXr
theorem Safe.launch {b : Nat} {toHub : Bool} {p : Packet} : Safe (s.launch b toHub p) := safe_ite h.injectPkt h.modWire
theorem Safe.pump {b : Nat} {toHub : Bool} {n : Nat} : Safe (s.pump b toHub n) := by
  induction n generalizing s with
  | zero => exact h
  | succ n ih =>
    unfold State.pump
    dsimp only
    split
    · exact safe_ite (ih h.modTp.launch) h
    · exact h
    · exact safe_ite (ih h.modTp.modTp.launch) h
theorem Safe.pumpAll {b : Nat} {toHub : Bool} : Safe (s.pumpAll b toHub) := h.pump
theorem Safe.owe {b : Nat} {toHub : Bool} {k : Nat} : Safe (s.owe b toHub k) := safe_ite h h.modTp
theorem Safe.tpSend {b : Nat} {toHub : Bool} {p : Packet} : Safe (s.tpSend b toHub p) := h.modTp.pumpAll
theorem Safe.sendPacket {c : Nat} {p : Packet} : Safe (s.sendPacket c p) := safe_ite h.tpSend h.injectPkt
theorem Safe.tpControl {b : Nat} {toHub : Bool} {ty : Nat} {ack : Nat} {credit : Nat} : Safe (s.tpControl b toHub ty ack credit) := by
  unfold State.tpControl
  dsimp only
  split <;> exact h.launch
end Sys2Proof
end
section
/-! The operations of `Machine/Channels` keep a state safe -/
namespace Sys2Proof
open Machine
variable {s : State} (h : Safe s)
include h
theorem Safe.sendWait {c : Nat} {n : Nat} : Safe (s.sendWait c n) := h.modEp
theorem Safe.fed {c : Nat} {n : Nat} : Safe (s.fed c n) := h.modEp
theorem Safe.watch : Safe s.watch := h.congr
theorem Safe.transmit {c hd : Nat} {m : Msg} : Safe (s.transmit c hd m) := by
  unfold State.transmit
  dsimp only
  split
  · split
    · exact h.injectStage
    · exact h
  · split
    · exact h.sendPacket
    · exact h
theorem Safe.epSend {c : Nat} {n : Nat} {grans : List Gran} : Safe (s.epSend c n grans).2 :=
  safe_ite_snd h.sendWait (safe_ite_snd (.transmit (.modEp (safe_ite h.modEp.transmit h))) (.sendWait (safe_ite h.modEp.transmit h)))
theorem Safe.cueSend {c : Nat} {n : Nat} {value : Nat} : Safe (s.cueSend c n value).2 := by
  unfold State.cueSend
  dsimp only
  split
  · exact safe_ite_snd h.modEp.sendItem h.sendWait
  · exact h.sendWait
theorem Safe.flushCredit {c : Nat} {n : Nat} : Safe (s.flushCredit c n) := by
  unfold State.flushCredit
  dsimp only
  refine .modAux (.modEp (safe_ite (h.foldl fun h => ?_) ?_))
  · split
    · exact h.sendItem
    · exact h
  · split
    · exact h.sendItem
    · exact h
theorem Safe.giveCredit {c : Nat} {n : Nat} {k : Nat} : Safe (s.giveCredit c n k) := safe_ite h.modEp.flushCredit h.modEp
theorem Safe.passPads {c : Nat} {n : Nat} : Safe (s.passPads c n) := by
  unfold State.passPads
  split
  · exact safe_ite h.modEp.giveCredit h
  · exact h
theorem Safe.deliverMsg {c : Nat} {n : Nat} {m : Msg} : Safe (s.deliverMsg c n m) := .modPort (safe_ite h.modAux h)
theorem Safe.dropMsg {c : Nat} {n : Nat} : Safe (s.dropMsg c n) := h.modEp
theorem Safe.landMsg {c : Nat} {n : Nat} {m : Msg} : Safe (s.landMsg c n m) := by
  unfold State.landMsg
  dsimp only
  refine safe_ite ?_ ?_
  · exact .passPads (.modEp (safe_ite h.fed h))
  · refine safe_ite ?_ ?_
    · exact .modEp (.writeWords (safe_ite h.fed h))
    · exact safe_ite (.modEp (.writeWords (safe_ite h.fed h))) (.modEp (.writeWords (safe_ite h.fed h)))
theorem Safe.applyReject {c : Nat} {n : Nat} {m : Msg} {x1 : Reject} : Safe (s.applyReject c n m x1) := by
  unfold State.applyReject
  dsimp only
  split
  · exact h.inc
  · exact safe_ite h.inc h.inc.giveCredit
  · exact h.dropMsg
theorem Safe.chorusTake {c : Nat} {n : Nat} {item : Nat} {m : Msg} {ecc : List EccEvent} : Safe (s.chorusTake c n item m ecc) := by
  unfold State.chorusTake
  dsimp only
  refine safe_ite ?_ ?_
  · exact .fed (safe_ite (.modEp (.modAux (.writeWords (.readWords (safe_ite h.writeWords h))))) (.modAux (.writeWords (.readWords (safe_ite
      h.writeWords h)))))
  · refine safe_ite ?_ ?_
    · exact .modEp (.modAux (.writeWords (.readWords (safe_ite h.writeWords h))))
    · exact .modAux (.writeWords (.readWords (safe_ite h.writeWords h)))
theorem Safe.chorusSkip {c : Nat} {n : Nat} {m : Msg} {on : Bool} : Safe (s.chorusSkip c n m on) := h.modAux
theorem Safe.chorusFlit {c : Nat} {n : Nat} {m : Msg} {ecc : List EccEvent} : Safe (s.chorusFlit c n m ecc) := by
  unfold State.chorusFlit
  dsimp only
  refine safe_ite ?_ ?_
  · exact h.chorusSkip
  · split
    · exact h.applyReject.chorusSkip
    · exact safe_ite h.dropMsg.cellFault.chorusSkip h.chorusTake.chorusSkip
theorem Safe.chorusBarrier {c : Nat} {n : Nat} : Safe (s.chorusBarrier c n) := .modAux (safe_ite h.fed h)
theorem Safe.readHead {c : Nat} {n : Nat} {ecc : List EccEvent} : Safe (s.readHead c n ecc).2 := safe_ite_snd h.readWords h.readWords
theorem Safe.tallyMsg {c : Nat} {n : Nat} {gs : List Gran} : Safe (s.tallyMsg c n gs) := h.modAux
theorem Safe.consume {c : Nat} {n : Nat} {gs : List Gran} : Safe (s.consume c n gs) :=
  safe_ite h.modEng.tallyMsg.modAux.giveCredit h.modEng.tallyMsg.modEp.giveCredit.passPads
theorem Safe.readCue {c : Nat} {n : Nat} {ecc : List EccEvent} : Safe (s.readCue c n ecc).2 := h.readWord
theorem Safe.takeCue {c : Nat} {n : Nat} : Safe (s.takeCue c n) := h.modEng.modAux.modEp.giveCredit
theorem Safe.starve {c : Nat} {n : Nat} : Safe (s.starve c n) := h.modEp
theorem Safe.clearEp {c : Nat} {n : Nat} : Safe (s.clearEp c n) := h.modEp.modAux
theorem Safe.freshEp {c : Nat} {n : Nat} {handle : Nat} : Safe (s.freshEp c n handle) := h.modEp.modEp.modAux
theorem Safe.chanUp {i : Nat} {a : ChanEnd} {b : ChanEnd} : Safe (s.chanUp i a b) := by
  unfold State.chanUp
  dsimp only
  split
  · exact .settleDefer (.modHost (safe_ite (.freshEp (.modEp (safe_ite (.freshEp (.modEp (safe_ite h.modChan.modEp h.modChan))) (safe_ite
      h.modChan.modEp h.modChan)))) (safe_ite (.freshEp (.modEp (safe_ite h.modChan.modEp h.modChan))) (safe_ite h.modChan.modEp h.modChan))))
  · refine safe_ite ?_ ?_
    · exact .freshEp (.modEp (safe_ite (.freshEp (.modEp (safe_ite h.modChan.modEp h.modChan))) (safe_ite h.modChan.modEp h.modChan)))
    · exact safe_ite (.freshEp (.modEp (safe_ite h.modChan.modEp h.modChan))) (safe_ite h.modChan.modEp h.modChan)
end Sys2Proof
end
section
/-! The operations of `Machine/Grants` keep a state safe -/
namespace Sys2Proof
open Machine
variable {s : State} (h : Safe s)
include h
theorem Safe.setWin {c : Nat} {n : Nat} {w : Win} : Safe (s.setWin c n w) := h.modCell
theorem Safe.filledCue {c : Nat} {n : Nat} {w : Win} : Safe (s.filledCue c n w) := h.modEp.modPort
theorem Safe.fillCheck {c : Nat} {n : Nat} : Safe (s.fillCheck c n) := by
  unfold State.fillCheck
  dsimp only
  split
  · exact safe_ite h.setWin.filledCue h
  · exact h
theorem Safe.remoteWrite {c : Nat} {w : RemWrite} : Safe (s.remoteWrite c w) := by
  unfold State.remoteWrite
  dsimp only
  split
  · split
    · exact h.writeWords
    · split
      · exact h.writeWords.setWin.fillCheck
      · exact h.writeWords
    · exact h.inc.set.set.cellFault
  · exact h
theorem Safe.grantRequest {c : Nat} {src : Nat} {r : Nat} : Safe (s.grantRequest c src r).2 := by
  unfold State.grantRequest
  dsimp only
  refine safe_ite_snd ?_ ?_
  · exact h.inc
  · split
    · exact h
    · refine safe_ite_snd ?_ ?_
      · exact h
      · split
        · exact safe_ite_snd h (safe_ite_snd h.setWin h.inc)
        · exact safe_ite_snd h h.setWin.fillCheck
        · exact safe_ite_snd h h.setWin
theorem Safe.grantItem {c : Nat} {types : List Nat} : Safe (s.grantItem c types) := by
  unfold State.grantItem
  dsimp only
  split
  · exact safe_ite h.modPort (safe_ite h.modPort.grantRequest.sendItem h)
  · exact h
theorem Safe.autoFree {c : Nat} : Safe (s.autoFree c) := h.modCell
theorem Safe.sweepFail {c : Nat} {k : Nat} {strip : Nat} {shadow : Bool} {f : MarchFail} : Safe (s.sweepFail c k strip shadow f) :=
  h.sets.inc
theorem Safe.marchRuns {c k strip : Nat} {shadow : Bool} {runs : List (List MarchFail)} : Safe (s.marchRuns c k strip shadow runs) := by
  induction runs generalizing s with
  | nil => exact h
  | cons run more ih =>
    cases run with
    | nil => exact h
    | cons f fs =>
      exact safe_ite (ih h.sweepFail.modBank.fieldRepairs.set.stageCairn)
        h.sweepFail.modBank.fieldRepairs.set.stageCairn.inc.fenceAbove.report
theorem Safe.copyStrip {c : Nat} {k : Nat} {strip : Nat} {bad : List EccEvent} : Safe (s.copyStrip c k strip bad) := by
  unfold State.copyStrip
  dsimp only
  exact h.foldl fun h => ⟨And.left h, And.right h.readWord⟩
theorem Safe.sweepStrip {c : Nat} {k : Nat} {runs : List (List MarchFail)} {bad : List EccEvent} : Safe (s.sweepStrip c k runs bad) :=
  safe_ite h.copyStrip.marchRuns.modBank (h.marchRuns.modBank.when fun h => h.wrap)
end Sys2Proof
end
section
/-! The operations of `Machine/Scenes` keep a state safe -/
namespace Sys2Proof
open Machine
variable {s : State} (h : Safe s)
include h
theorem Safe.refillSender {c : Nat} {n : Nat} : Safe (s.refillSender c n) := by
  unfold State.refillSender
  dsimp only
  refine h.foldl fun h => ?_
  split
  · exact safe_ite h (safe_ite h.congr (safe_ite h.modEp h))
  · exact h
theorem Safe.loadEp {c : Nat} {im : SceneImage} {n : Nat} : Safe (s.loadEp c im n) := by
  unfold State.loadEp
  exact safe_ite h (safe_ite h.modAux (safe_ite h.modEp.freshEp h.modEp.freshEp.refillSender))
theorem Safe.sceneLoad {c entry : Nat} : Safe (s.sceneLoad c entry) := by
  unfold State.sceneLoad
  dsimp only
  split
  · exact h.modScene
  · exact .modCell (.marks (.watch (h.foldl fun h => h.loadEp)))
theorem Safe.storeFault {c : Nat} : Safe (s.storeFault c) := h.stageCairn.fenceCell
theorem Safe.beatStart {c : Nat} : Safe (s.beatStart c) := h.autoFree.modCell
theorem Safe.dropLoadGrants : Safe s.dropLoadGrants := h.congr
theorem Safe.beatEnd {c : Nat} {ecc : List EccEvent} : Safe (s.beatEnd c ecc) := by
  unfold State.beatEnd
  dsimp only
  refine safe_ite ?_ ?_
  · split
    · exact safe_ite (safe_ite h.modCell.congr.readCue h.modCell.congr.readCue.takeCue.modScene) h.modCell.congr
    · exact h.modCell.congr
  · exact h.modCell.congr.modScene
theorem Safe.arrive {c : Nat} {obj : Nat} : Safe (s.arrive c obj) := h.modCell.sendItem
theorem Safe.barrierAt {c : Nat} {obj : Nat} : Safe (s.barrierAt c obj) := by
  unfold State.barrierAt
  dsimp only
  refine safe_ite ?_ ?_
  · exact h.inc
  · refine safe_ite ?_ ?_
    · exact .modCell (h.modCell.watch.foldl fun h => safe_ite h.chorusBarrier h)
    · exact h.modCell.watch.foldl fun h => safe_ite h.chorusBarrier h
end Sys2Proof
end
section
/-! The operations of `Machine/Mesh` keep a state safe -/
namespace Sys2Proof
open Machine
variable {s : State} (h : Safe s)
include h
theorem Safe.circuitFlit {unit : Nat} {fs : List Flit} {f : Flit} : Safe (s.circuitFlit unit fs f) := by
  unfold State.circuitFlit
  dsimp only
  refine h.foldl fun h => ?_
  split
  · exact safe_ite (safe_ite (safe_ite h.congr h) (safe_ite h.deliverMsg (safe_ite h.deliverMsg h))) h
  · exact h
theorem Safe.packetAt {c : Nat} {p : Packet} : Safe (s.packetAt c p) := safe_ite h.modTp h.modPort
theorem Safe.localFlit {c : Nat} {f : Flit} : Safe (s.localFlit c f) := by
  unfold State.localFlit
  dsimp only
  refine safe_ite ?_ ?_
  · exact h.inc
  · split
    · split
      · exact h
      · exact h.modPort.circuitFlit
    · exact h.modPort.foldl fun h => h.packetAt
    · exact h
theorem Safe.hubFlit {port : Nat} {f : Flit} : Safe (s.hubFlit port f) := by
  unfold State.hubFlit
  dsimp only
  split
  · split
    · exact h
    · exact h.congr.circuitFlit
  · exact h.congr.foldl fun h => h.modTp
  · exact h
theorem Safe.flitAt {b : Nat} {port : Nat} {f : Flit} : Safe (s.flitAt b port f) := by
  unfold State.flitAt
  split
  · exact h.modXr
  · exact h.pushFlits
  · exact h.modXr
theorem Safe.flitOut {b : Nat} {out : Nat} {f : Flit} : Safe (s.flitOut b out f) := by
  unfold State.flitOut
  refine safe_ite ?_ ?_
  · exact h.localFlit
  · refine safe_ite ?_ ?_
    · exact h.modWire
    · split
      · exact h.flitAt
      · exact h
theorem Safe.creditBack {b : Nat} {inPort : Nat} {vc1 : Bool} {stage : Nat} : Safe (s.creditBack b inPort vc1 stage) := safe_ite h.modWire h
theorem Safe.slotMove {b : Nat} {out : Nat} {key : Nat} {f : Flit} : Safe (s.slotMove b out key f) :=
  .flitOut (.modXr (safe_ite (.creditBack (safe_ite h.inc h)) (safe_ite h.inc h)))
theorem Safe.pktMove {b : Nat} {out : Nat} {inPort : Nat} : Safe (s.pktMove b out inPort) := by
  unfold State.pktMove
  dsimp only
  split
  · exact .flitOut (.modXr (safe_ite h.creditBack h))
  · exact h
theorem Safe.vc3Move {b : Nat} {out : Nat} {inPort : Nat} : Safe (s.vc3Move b out inPort) := by
  unfold State.vc3Move
  split
  · exact h.modXr.flitOut
  · exact h
theorem Safe.slotCarry {b : Nat} {out : Nat} {slot : Nat} {pick : Nat} : Safe (s.slotCarry b out slot pick) := by
  unfold State.slotCarry
  dsimp only
  split
  · exact h.slotMove
  · split
    · exact h.vc3Move
    · split
      · exact h.pktMove
      · exact h.vc3Move
      · exact h
theorem Safe.periodAt {b : Nat} : Safe (s.periodAt b) := h.modXr.inc
theorem Safe.modPkt {b : Nat} {port : Nat} {f : PktBuf → PktBuf} : Safe (s.modPkt b port f) := h.modXr
theorem Safe.dropPkt {b : Nat} {port : Nat} : Safe (s.dropPkt b port) := by
  unfold State.dropPkt
  dsimp only
  exact h.modXr.foldl fun h => h.creditBack
theorem Safe.routeHead {b : Nat} {port : Nat} {f : Flit} : Safe (s.routeHead b port f) :=
  safe_ite h.dropPkt.inc (safe_ite h.dropPkt.inc h.modPkt)
theorem Safe.keepCopy {src : Nat} {p : Packet} : Safe (s.keepCopy src p) := h.congr
theorem Safe.setDetours {set : List (Nat × List Word64)} : Safe (s.setDetours set) := by
  unfold State.setDetours
  exact h.foldl fun h => safe_ite h.modXr h
theorem Safe.publishDist : Safe s.publishDist := h.congr
theorem Safe.itemOut {b : Nat} {out : Nat} {it : Item} : Safe (s.itemOut b out it) := by
  unfold State.itemOut
  refine safe_ite ?_ ?_
  · exact h.modWire
  · split
    · exact h.pushItem
    · exact h
theorem Safe.itemAt {c : Nat} {it : Item} : Safe (s.itemAt c it) := safe_ite h.inc (safe_ite (safe_ite h.inc.giveCredit h.inc) h.modPort)
theorem Safe.itemHop {b : Nat} {port : Nat} {it : Item} {rest : List Item} : Safe (s.itemHop b port it rest) :=
  safe_ite h (safe_ite (safe_ite h.modXr.itemAt h) (safe_ite h.modXr.inc (safe_ite h.modXr.itemOut h)))
theorem Safe.treePush {b : Nat} {it : Item} : Safe (s.treePush b it) := h.modXr
theorem Safe.combineUp {b : Nat} {key : Nat} : Safe (s.combineUp b key) := by
  unfold State.combineUp
  dsimp only
  split
  · exact safe_ite (safe_ite h.modXr.treePush h.modXr.itemOut) h
  · exact h
theorem Safe.treeDrop {b : Nat} {port : Nat} : Safe (s.treeDrop b port) := safe_ite h.inc h
theorem Safe.sceneAtXr {b : Nat} {obj : Nat} : Safe (s.sceneAtXr b obj) := by
  unfold State.sceneAtXr
  dsimp only
  split
  · exact safe_ite h.modXr h
  · exact h
theorem Safe.downMesh {b : Nat} {mask : Nat} {it : Item} : Safe (s.downMesh b mask it) := by
  unfold State.downMesh
  exact h.foldl fun h => h.itemOut
theorem Safe.seamFail {key : Nat} : Safe (s.seamFail key) := h.modWire
theorem Safe.sbMove {i : Option Nat} : Safe (s.sbMove i) := by
  unfold State.sbMove
  dsimp only
  split
  · exact h.congr
  · exact h
theorem Safe.seamTime {b d : Nat} {flips : List Nat} : Safe (s.seamTime b d flips) := by
  unfold State.seamTime
  dsimp only
  refine safe_ite ?_ (.seamFail (.inc ?_))
  · split
    · refine safe_ite (safe_ite ?_ (.seamFail (.inc ?_))) (safe_ite (.modWire (.hubFlit (safe_ite ?_ (.seamFail (.inc ?_)))))
        (.flitAt (safe_ite ?_ (.seamFail (.inc ?_)))))
      all_goals
        split
        · exact safe_ite h.modWire.sbMove.congr h.modWire.sbMove.pushItem
        · exact h.modWire.sbMove
    · split
      · exact safe_ite h.modWire.sbMove.congr h.modWire.sbMove.pushItem
      · exact h.modWire.sbMove
  · split
    · exact safe_ite (.creditBack (safe_ite h.modWire h.modWire.inc)) (safe_ite h.modWire h.modWire.inc)
    · exact safe_ite h.modWire h.modWire.inc
theorem Safe.setLink {b : Nat} {d : Nat} {v : Nat} : Safe (s.setLink b d v) := by
  unfold State.setLink
  exact h.foldl fun h => h.set
theorem Safe.swapSpares {b : Nat} {dir : Nat} {ws : List Nat} : Safe (s.swapSpares b dir ws) := safe_ite h.modWire h.sets
end Sys2Proof
end
section
/-! The operations of `Machine/Rings` keep a state safe -/
namespace Sys2Proof
open Machine
variable {s : State} (h : Safe s)
include h
theorem Safe.modRing {i : Nat} {f : RingSt → RingSt} : Safe (s.modRing i f) := h.modHost
theorem Safe.writeBackRing {i : Nat} : Safe (s.writeBackRing i) := h.emit
theorem Safe.ringErr {i : Nat} {code : Nat} {seq : Nat} {stop : Bool} : Safe (s.ringErr i code seq stop) := h.modRing
theorem Safe.post {hd : Nat} {e : RingEntry} : Safe (s.post hd e) := by
  unfold State.post
  split
  · exact safe_ite h.modRing h
  · exact h
theorem Safe.putEntry {i : Nat} {ty : Nat} {n : Nat} {seq : Nat} {body : List Byte} : Safe (s.putEntry i ty n seq body) := h.emit.modRing
theorem Safe.signalRing {i : Nat} : Safe (s.signalRing i) :=
  safe_ite h.writeBackRing (safe_ite h.writeBackRing.emit h.writeBackRing.modRing)
theorem Safe.deliverEntry {i : Nat} : Safe (s.deliverEntry i) := by
  unfold State.deliverEntry
  dsimp only
  split
  · exact h
  · refine safe_ite ?_ ?_
    · exact .signalRing (.modRing (.putEntry (safe_ite h.putEntry h)))
    · exact safe_ite (.signalRing (safe_ite h.putEntry h)) (safe_ite h.putEntry h)
theorem Safe.passEntry {i : Nat} {n : Nat} {numbered : Bool} : Safe (s.passEntry i n numbered) := h.modRing.writeBackRing
theorem Safe.serveEntry {i ty : Nat} {e : List Byte} {f : State → List Byte → Option State} (hf : ∀ {s b}, Safe s → SafeOpt id (f s b)) :
    Safe (s.serveEntry i ty e f) := by
  unfold State.serveEntry
  dsimp only
  split
  · exact h
  · exact safe_ite h.ringErr.writeBackRing h
  · exact safe_ite h.ringErr.passEntry h
  · exact safe_ite h.passEntry h
  · refine safe_ite ?_ h
    split
    · next ht => exact (hf h _ ht).passEntry
    · exact h.ringErr.passEntry
theorem Safe.ringPosition {i : Nat} {pos : Nat} : Safe (s.ringPosition i pos) := safe_ite h (safe_ite h.ringErr.writeBackRing h.modRing)
theorem Safe.setStaged {rs : List TelRec} : Safe (s.setStaged rs) := h.congr.set
theorem Safe.telemGone {hd : Nat} : Safe (s.telemGone hd) := by
  unfold State.telemGone
  dsimp only
  refine safe_ite ?_ ?_
  · exact .sets (safe_ite (h.foldl fun h => h.inc.raise) (.setStaged (h.foldl fun h => h.inc.raise)))
  · exact safe_ite (h.foldl fun h => h.inc.raise) (.setStaged (h.foldl fun h => h.inc.raise))
theorem Safe.destroyRing {i : Nat} : Safe (s.destroyRing i) := h.telemGone.modRing
end Sys2Proof
end
section
/-! The operations of `Machine/HubMsg` keep a state safe -/
namespace Sys2Proof
open Machine
variable {s : State} (h : Safe s)
include h
theorem Safe.hubWrite {unit : Nat} {cls : Nat} {c : Nat} {o : Nat} {gs : List Gran} : Safe (s.hubWrite unit cls c o gs) := by
  unfold State.hubWrite
  exact h.foldIdx fun h => h.tpSend
theorem Safe.hubDeliver {unit : Nat} {cls : Nat} {c : Nat} {o : Nat} {gs : List Gran} : Safe (s.hubDeliver unit cls c o gs) := by
  unfold State.hubDeliver
  exact h.foldl fun h => h.hubWrite
theorem Safe.modHubEp {i : Nat} {f : HubEp → HubEp} : Safe (s.modHubEp i f) := h.modHub
theorem Safe.hubStall {i : Nat} {waits : Bool} : Safe (s.hubStall i waits) := h.modChan
theorem Safe.hubPump {i n : Nat} : Safe (s.hubPump i n) := by
  induction n generalizing s with
  | zero => exact h
  | succ n ih =>
    unfold State.hubPump
    dsimp only
    split
    · refine safe_ite (safe_ite (ih ?_) (safe_ite (ih ?_) h.hubStall)) h
      · exact h.modHubEp.foldl fun h => h.tpSend
      · exact h.hubStall.modChan.modHubEp.foldl fun h => h.tpSend
    · exact h
theorem Safe.hubSend {i : Nat} {gs : List Gran} : Safe (s.hubSend i gs) := h.modHubEp.hubPump
theorem Safe.hubCredits : Safe s.hubCredits := by
  unfold State.hubCredits
  dsimp only
  refine h.congr.foldl fun h => safe_ite h ?_
  split
  · exact h.modHubEp.hubPump
  · exact h
theorem Safe.hubReturn {ch : ChanSt} {n : Nat} : Safe (s.hubReturn ch n) := by
  unfold State.hubReturn
  split
  · exact safe_ite h.sendItem h
  · exact h
theorem Safe.hubTake {m : Msg} : Safe (s.hubTake m) := by
  unfold State.hubTake
  dsimp only
  refine safe_ite ?_ ?_
  · exact h
  · refine safe_ite ?_ ?_
    · exact h.hubReturn
    · split
      · exact .hubReturn (safe_ite h.modChan.post h.modChan)
      · exact h
theorem Safe.hubIntake : Safe s.hubIntake := by
  unfold State.hubIntake
  dsimp only
  exact h.congr.foldl fun h => safe_ite h.hubTake h.congr
end Sys2Proof
end
section
/-! The operations of `Machine/PorterQ` keep a state safe -/
namespace Sys2Proof
open Machine
variable {s : State} (h : Safe s)
include h
theorem Safe.modPorter {p : Nat} {f : PorterSt → PorterSt} : Safe (s.modPorter p f) := h.modHub
theorem Safe.queueDesc {p : Nat} {d : Desc} : Safe (s.queueDesc p d) := h.modPorter
theorem Safe.fwFeed : Safe s.fwFeed := by
  unfold State.fwFeed
  dsimp only
  exact h.modHub.foldl fun h => safe_ite h.queueDesc h.modHub
theorem Safe.fwSubmit {ds : List Desc} : Safe (s.fwSubmit ds) := h.modHub.fwFeed
end Sys2Proof
end
section
/-! The operations of `Machine/Rope` keep a state safe -/
namespace Sys2Proof
open Machine
variable {s : State} (h : Safe s)
include h
theorem Safe.modRope {f : RopeSt → RopeSt} : Safe (s.modRope f) := h.congr
theorem Safe.modPortR {p : Nat} {f : RopePortSt → RopePortSt} : Safe (s.modPortR p f) := h.modRope
theorem Safe.modRingR {i : Nat} {f : RopeRingSt → RopeRingSt} : Safe (s.modRingR i f) := h.modRope
theorem Safe.setRing {i : Nat} {st : Nat} : Safe (s.setRing i st) :=
  safe_ite (safe_ite h.sets h.sets.sets) (.raise (safe_ite h.sets h.sets.sets))
theorem Safe.resetLinks {i : Nat} : Safe (s.resetLinks i) := h.modPortR.modPortR
theorem Safe.endRing {i : Nat} {st : Nat} : Safe (s.endRing i st) := h.setRing.resetLinks.modRingR
theorem Safe.resetRope : Safe s.resetRope := by
  unfold State.resetRope
  exact .modRope (h.foldl fun h => h.endRing)
theorem Safe.ringDown {i : Nat} : Safe (s.ringDown i) := h.endRing
theorem Safe.ropePump {p n : Nat} : Safe (s.ropePump p n) := by
  induction n generalizing s with
  | zero => exact h
  | succ n ih =>
    unfold State.ropePump
    dsimp only
    split
    · exact h
    · exact safe_ite (ih h.modPortR.emit) h
theorem Safe.ropeSend {p : Nat} {f : RopeFrame} : Safe (s.ropeSend p f) := h.modPortR.request.ropePump
theorem Safe.ropeCtrlWith {p : Nat} {nak : Bool} {data : List Byte} : Safe (s.ropeCtrlWith p nak data) := h.modPortR.emit
theorem Safe.ropeCtrl {p : Nat} {nak : Bool} : Safe (s.ropeCtrl p nak) := h.ropeCtrlWith
theorem Safe.ropeAcked {p : Nat} {f : RopeFrame} : Safe (s.ropeAcked p f) :=
  .ropePump (safe_ite (.modPortR (safe_ite h.modPortR h)) (safe_ite h.modPortR h))
theorem Safe.ropeReplay {p : Nat} : Safe (s.ropeReplay p) := safe_ite h (safe_ite h.inc.modPortR h.inc.modPortR.emits)
theorem Safe.tagFail {p : Nat} : Safe (s.tagFail p) := safe_ite h.inc.modPortR.ringDown h.inc.modPortR
theorem Safe.ropeNak {p : Nat} : Safe (s.ropeNak p) := safe_ite h h.ropeCtrl
theorem Safe.ropeReceive {p : Nat} {f : RopeFrame} {tagged : Bool} : Safe (s.ropeReceive p f tagged).2 := by
  unfold State.ropeReceive
  dsimp only
  refine safe_ite_snd ?_ ?_
  · exact h.inc.ropeNak
  · exact safe_ite_snd h.tagFail.ropeNak (safe_ite_snd h.ropeNak (safe_ite h.modPortR.ropeAcked.request.ropeCtrl h.modPortR.ropeAcked.request))
theorem Safe.ropeForward {p : Nat} {f : RopeFrame} : Safe (s.ropeForward p f) := safe_ite h.inc (safe_ite h.ropeSend h)
theorem Safe.ropeTo {t : Team} {ty : Nat} {flags : Nat} {dst : Nat} {stream : Nat} {step : Nat} {count : Nat} {marks : Nat} {off : Nat} {gs
    : List Gran} :
    Safe (s.ropeTo t ty flags dst stream step count marks off gs) := by
  unfold State.ropeTo
  dsimp only
  exact h.foldl fun h => h.ropeSend
theorem Safe.modRed {sh : Nat} {k : Nat} {f : RedStep → RedStep} : Safe (s.modRed sh k f) := h.modRope
theorem Safe.notice {x : Shard} {kind : Nat} {r : RedStep} : Safe (s.notice x kind r) := by
  unfold State.notice
  dsimp only
  split
  · exact h.fwSubmit
  · exact h
theorem Safe.endStep {t : Team} {x : Shard} {k : Nat} {abandon : Bool} {dram : List DramErr} : Safe (s.endStep t x k abandon dram) := by
  unfold State.endStep
  dsimp only
  split
  · exact h
  · refine safe_ite ?_ ?_
    · exact h
    · refine safe_ite ?_ ?_
      · refine safe_ite ?_ ?_
        · exact .notice (.modRed (h.modRed.inc.foldl fun h => h.ropeTo))
        · exact safe_ite h.modRed.inc.notice h.modRed.inc.readDram.request.writeGrans.notice
      · exact .ropeTo (safe_ite_snd h.modRed.inc h.modRed.inc.request.readDram)
theorem Safe.redAdd {buf : Nat} {fmt : Nat} {off : Nat} {gs : List Gran} {dram : List DramErr} : Safe (s.redAdd buf fmt off gs dram) := by
  unfold State.redAdd
  dsimp only
  exact h.foldIdx fun h => h.readDram.writeGrans
theorem Safe.contribute {t : Team} {x : Shard} {k : Nat} {child : Option Nat} {fmt : Nat} {count : Nat} {off : Nat} {total : Nat} {gs : List
    Gran} {dram : List DramErr} :
    Safe (s.contribute t x k child fmt count off total gs dram) := by
  unfold State.contribute
  dsimp only
  split
  · exact h.inc
  · refine safe_ite ?_ ?_
    · exact safe_ite h h.modRed.inc
    · refine safe_ite ?_ ?_
      · exact h
      · split
        · exact safe_ite (.endStep (.modRed (safe_ite h.request.redAdd h))) (.modRed (safe_ite h.request.redAdd h))
        · exact .modRed (safe_ite h.request.redAdd h)
theorem Safe.paramsTo {t : Team} {x : Shard} {k : Nat} {off : Nat} {last : Bool} {marks : Nat} {gs : List Gran} {c : Nat} :
    Safe (s.paramsTo t x k off last marks gs c) := by
  unfold State.paramsTo
  dsimp only
  exact h.foldl fun h => h.ropeSend
theorem Safe.params {t : Team} {x : Shard} {k : Nat} {off : Nat} {last : Bool} {gs : List Gran} {dram : List DramErr} :
    Safe (s.params t x k off last gs dram) := by
  unfold State.params
  dsimp only
  refine safe_ite ?_ ?_
  · exact h.foldl fun h => h.paramsTo
  · refine safe_ite ?_ ?_
    · exact .notice (.modRed (.modRed (.writeGrans (.request (h.foldl fun h => h.paramsTo)))))
    · exact .modRed (.writeGrans (.request (h.foldl fun h => h.paramsTo)))
theorem Safe.ropeCopy {dst : Nat} {gs : List Gran} {dram : List DramErr} : Safe (s.ropeCopy dst gs dram).2 := by
  unfold State.ropeCopy
  dsimp only
  refine safe_ite_snd ?_ ?_
  · exact h
  · split
    · exact h
    · split
      · exact h.ropeTo
      · split
        · exact h.contribute
        · exact h
      · split
        · exact safe_ite_snd h.params h
        · exact h
end Sys2Proof
end
section
/-! The operations of `Machine/Porters` keep a state safe -/
namespace Sys2Proof
open Machine
variable {s : State} (h : Safe s)
include h
theorem Safe.porterRead {p : Nat} {d : Desc} {ev : PorterEv} : Safe (s.porterRead p d ev).2.2 := by
  unfold State.porterRead
  dsimp only
  refine safe_ite_snd_snd ?_ ?_
  · exact h.request
  · refine safe_ite_snd_snd ?_ ?_
    · exact h
    · refine safe_ite_snd_snd ?_ ?_
      · exact safe_ite_snd_snd h h.request
      · refine safe_ite_snd_snd ?_ ?_
        · exact h
        · split
          · exact h.readWords
          · exact h.request.readDram
theorem Safe.mcastWrite {p : Nat} {d : Desc} {gs : List Gran} : Safe (s.mcastWrite p d gs) := by
  unfold State.mcastWrite
  dsimp only
  split
  · exact h.foldIdx fun h => h.modWire.keepCopy.congr
  · exact h
theorem Safe.hostGrans {a : Nat} {gs : List Gran} : Safe (s.hostGrans a gs) := by
  unfold State.hostGrans
  exact h.foldIdx fun h => h.emit
theorem Safe.regPut {a : Nat} {gs : List Gran} : Safe (s.regPut a gs) := by
  unfold State.regPut
  dsimp only
  refine h.foldIdx fun h => ?_
  split
  · exact h.regWrite
  · exact h
theorem Safe.porterWrite {p : Nat} {d : Desc} {gs : List Gran} {ev : PorterEv} : Safe (s.porterWrite p d gs ev).2 := by
  unfold State.porterWrite
  dsimp only
  split
  · refine safe_ite_snd ?_ ?_
    · exact h.mcastWrite
    · refine safe_ite_snd ?_ ?_
      · exact h.regPut
      · split
        · exact safe_ite h.hubWrite h.hubDeliver
        · exact h.request.writeGrans
  · exact h.request.hostGrans
  · exact h.ropeCopy
theorem Safe.porterEnd {p : Nat} {st : Nat} {n : Nat} : Safe (s.porterEnd p st n) := h.modPorter
theorem Safe.holdItem {c : Nat} {pkt : Option Packet} {ticket : Option Nat} {porter : Option Nat} {gs : List Gran} :
    Safe (s.holdItem c pkt ticket porter gs) := h.congr.modCell
theorem Safe.porterPut {p : Nat} {d : Desc} {gs : List Gran} {readErr : Bool} {ev : PorterEv} : Safe (s.porterPut p d gs readErr ev) :=
  safe_ite h.porterWrite.porterEnd (safe_ite h.porterWrite.porterEnd h.porterWrite.porterEnd)
theorem Safe.porterMove {p : Nat} {d : Desc} {ev : PorterEv} : Safe (s.porterMove p d ev) := by
  unfold State.porterMove
  dsimp only
  split
  · exact h.inc.porterEnd
  · split
    · exact safe_ite h h.readWords.readWords.holdItem.holdItem
    · exact h.porterRead.porterPut
theorem Safe.acquire {p : Nat} {d : Desc} : Safe (s.acquire p d) := by
  unfold State.acquire
  exact h.modPorter.foldl fun h => h.sendItem
theorem Safe.answers {p : Nat} : Safe (s.answers p) := by
  unfold State.answers
  dsimp only
  refine h.congr.foldl fun h => safe_ite h ?_
  split
  · exact h.modPorter
  · exact h.modPorter
  · exact h.porterEnd
theorem Safe.porterStart {p : Nat} {d : Desc} {rest : List Desc} : Safe (s.porterStart p d rest) := h.modPorter
theorem Safe.porterHead {p : Nat} {mine : Desc → Bool} : Safe (s.porterHead p mine) := by
  unfold State.porterHead
  dsimp only
  split
  · exact safe_ite h.porterStart h
  · exact h
theorem Safe.porterGo {p : Nat} {d : Desc} {ev : PorterEv} : Safe (s.porterGo p d ev) := by
  unfold State.porterGo
  dsimp only
  split
  · exact safe_ite h.porterEnd (safe_ite h.porterEnd (safe_ite h.porterEnd (safe_ite h.modPorter.acquire h.modPorter.porterMove)))
  · exact safe_ite h.answers.porterMove h.answers
  · exact safe_ite h.answers.porterMove h.answers
  · exact h.porterMove
  · exact h
theorem Safe.modTicket {t : Nat} {f : Ticket → Ticket} : Safe (s.modTicket t f) := by
  unfold State.modTicket
  dsimp only
  split
  · exact h.congr
  · exact h
theorem Safe.porterNotify {d : Desc} {st : Nat} {n : Nat} : Safe (s.porterNotify d st n) := by
  unfold State.porterNotify
  dsimp only
  refine safe_ite ?_ ?_
  · exact safe_ite (.modHub (safe_ite h.modTicket h)) (safe_ite h.modTicket h)
  · refine safe_ite ?_ ?_
    · exact .post (safe_ite (.modHub (safe_ite h.modTicket h)) (safe_ite h.modTicket h))
    · split
      · exact .hubSend (safe_ite (.modHub (safe_ite h.modTicket h)) (safe_ite h.modTicket h))
      · exact safe_ite (.modHub (safe_ite h.modTicket h)) (safe_ite h.modTicket h)
theorem Safe.abortPorter {p : Nat} {x : PorterSt} : Safe (s.abortPorter p x) := by
  unfold State.abortPorter
  dsimp only
  refine .foldl ?_ fun h => safe_ite h.porterNotify h
  split
  · exact safe_ite (.porterNotify (safe_ite h h.set.wrap)) (safe_ite h h.set.wrap)
  · exact safe_ite h h.set.wrap
theorem Safe.abortPorters : Safe s.abortPorters := by
  unfold State.abortPorters
  dsimp only
  exact h.modHub.foldl fun h => h.abortPorter
end Sys2Proof
end
section
/-! The operations of `Machine/Acts` keep a state safe -/
namespace Sys2Proof
open Machine
variable {s : State} (h : Safe s)
include h
theorem Safe.modSlot {n : Nat} {f : SlotSt → SlotSt} : Safe (s.modSlot n f) := h.congr
theorem Safe.modKv {f : KvSt → KvSt} : Safe (s.modKv f) := h.congr
theorem Safe.modActs {f : ActsSt → ActsSt} : Safe (s.modActs f) := h.congr
theorem Safe.takePage : SafeOpt Prod.snd s.takePage := .ite (.some h.draw.modKv) .none
theorem Safe.takePages {n : Nat} : SafeOpt Prod.snd (s.takePages n) := by
  induction n generalizing s with
  | zero => exact .some h
  | succ n ih =>
    unfold State.takePages
    split
    · next hp => exact .map (g := Prod.snd) (ih (h.takePage _ hp)) fun _ hq => hq
    · exact .none
theorem Safe.givePages {ps : List Nat} {erase : Bool} : Safe (s.givePages ps erase) := by
  unfold State.givePages
  dsimp only
  exact h.foldl fun h => .modKv (safe_ite h.eraseArea h)
theorem Safe.dropStage {n : Nat} : Safe (s.dropStage n) := h.givePages.modSlot
theorem Safe.reservePrompt {n count : Nat} : SafeOpt id (s.reservePrompt n count) := .map h.takePages fun _ hq => hq.modSlot
theorem Safe.unreserve {n : Nat} {count : Nat} : Safe (s.unreserve n count) := h.givePages.modSlot
theorem Safe.putIds {n : Nat} {ids : List Nat} : Safe (s.putIds n ids) := by
  induction ids generalizing s with
  | nil => exact h
  | cons i is ih => exact ih h.writeDram.modSlot
theorem Safe.trimPrompt {n : Nat} : Safe (s.trimPrompt n) := h.givePages.modSlot
theorem Safe.slotEvent {n : Nat} {event : Nat} {reason : Nat} : Safe (s.slotEvent n event reason) := h.post
theorem Safe.postAct {a : Act} {recs : List (Nat × List Byte)} {rings : List Nat} {committed : Nat} {late : Nat} {dropped : Nat} {skipped : Bool} :
    Safe (s.postAct a recs rings committed late dropped skipped) := by
  unfold State.postAct
  dsimp only
  exact h.foldl fun h => .post (safe_ite h h.post)
theorem Safe.closeSlot {n : Nat} : Safe (s.closeSlot n) := h.modSlot.modKv
theorem Safe.doPrompt {n gen : Nat} {ids : List Nat} {last : Bool} : Safe (s.doPrompt n gen ids last) := by
  unfold State.doPrompt
  dsimp only
  refine safe_ite h.slotEvent (safe_ite h.slotEvent ?_)
  split
  · exact h.slotEvent
  · next hq => exact (h.takePages _ hq).modSlot.request.putIds.modSlot
theorem Safe.doEnrol {n : Nat} {gen : Nat} {resume : Bool} : Safe (s.doEnrol n gen resume) :=
  safe_ite h.slotEvent (safe_ite (safe_ite h.modSlot.slotEvent h) (safe_ite h (safe_ite h.modSlot h.slotEvent)))
theorem Safe.applyChange {x1 : Change} : Safe (s.applyChange x1) := by
  unfold State.applyChange
  dsimp only
  split
  · exact safe_ite h.doPrompt.unreserve h.doPrompt
  · exact h.doEnrol
  · exact safe_ite h.closeSlot h
theorem Safe.change {c : Change} : Safe (s.change c) := safe_ite h.applyChange h.modActs
theorem Safe.applyUpTo {n : Nat} : Safe (s.applyUpTo n) := by
  unfold State.applyUpTo
  dsimp only
  exact h.modActs.foldl fun h => h.applyChange
theorem Safe.commitSlot {e : RosterEnt} : Safe (s.commitSlot e) :=
  safe_ite (.slotEvent (safe_ite h.modSlot.trimPrompt h.modSlot)) (safe_ite h.modSlot.trimPrompt h.modSlot)
theorem Safe.dropSlot {e : RosterEnt} {aborted : Bool} : Safe (s.dropSlot e aborted) := safe_ite h.dropStage.modSlot.slotEvent h.dropStage
theorem Safe.abortTickets {num : Nat} : Safe (s.abortTickets num) := h.modKv
theorem Safe.retireAct {num : Nat} : Safe (s.retireAct num) := h.modKv
theorem Safe.abortAct : Safe s.abortAct := by
  unfold State.abortAct
  dsimp only
  split
  · exact safe_ite h (.modActs (.abortTickets (h.foldl fun h => h.dropStage)))
  · exact h
theorem Safe.fixNext : Safe s.fixNext := by
  unfold State.fixNext
  dsimp only
  split
  · exact h.modActs.modKv
  · exact h
theorem Safe.endAct {a : Act} : Safe (s.endAct a) := by
  unfold State.endAct
  dsimp only
  exact .fixNext (.applyUpTo (.modActs (.retireAct (.foldl (h.postAct.foldl fun h => h.commitSlot) fun h => h.dropSlot))))
theorem Safe.skipAct {num : Nat} {o : Nat} {cur : Nat} {kind : Nat} : Safe (s.skipAct num o cur kind) :=
  h.postAct.abortTickets.retireAct.modActs.applyUpTo.fixNext
theorem Safe.readPrompt {b : List Byte} : SafeOpt id (s.readPrompt b) := by
  unfold State.readPrompt
  refine .ite .none (.ite .none (.ite (.some h.slotEvent) (.ite (.some h.change) ?_)))
  split
  · next ht => exact .some (h.reservePrompt _ ht).change
  · exact .some h.slotEvent
theorem Safe.readEnrol {b : List Byte} : SafeOpt id (s.readEnrol b) := .ite .none (.ite (.some h.slotEvent) (.some h.change))
theorem Safe.refuseEntry {entry : List Byte} : Safe (s.refuseEntry entry) := safe_ite h.slotEvent h
theorem Safe.freeSlotPages {n : Nat} : Safe (s.freeSlotPages n) := h.givePages
end Sys2Proof
end
section
/-! The operations of `Machine/Doreana` keep a state safe -/
namespace Sys2Proof
open Machine
variable {s : State} (h : Safe s)
include h
theorem Safe.resetRegs {d : Domain} : Safe (s.resetRegs d) := h.congr
theorem Safe.modDor {f : DorSt → DorSt} : Safe (s.modDor f) := h.congr
theorem Safe.dorLog {ty : Nat} {digest : List Byte} {detail : List Byte} : Safe (s.dorLog ty digest detail) :=
  safe_ite h.modDor.set.set h.modDor.set
theorem Safe.newLog : Safe s.newLog := h.modDor.sets
theorem Safe.dropJobKey : Safe s.dropJobKey := h.modDor.modHost.set
theorem Safe.dropKem : Safe s.dropKem := h.modDor.set
theorem Safe.makeKem : Safe s.makeKem := h.modDor.set
theorem Safe.eraseSnapshot : Safe s.eraseSnapshot := h.eraseArea.set
end Sys2Proof
end
section
/-! The operations of `Machine/Engine` keep a state safe -/
namespace Sys2Proof
open Machine
variable {s : State} (h : Safe s)
include h
theorem Safe.engineAt {c : Nat} {pc : Nat} : Safe (s.engineAt c pc) := safe_ite h (safe_ite h.modEng h.modEng.programFault)
theorem Safe.engineWait {c : Nat} {w : WaitOn} : Safe (s.engineWait c w) := h.modEng
theorem Safe.waitRecv {c : Nat} {n : Nat} : Safe (s.waitRecv c n) := h.starve.engineWait
theorem Safe.readRun {c : Nat} {o : Nat} {k : Nat} {ecc : List EccEvent} : Safe (s.readRun c o k ecc).2 := h.readWords
theorem Safe.readSpan {c : Nat} {o : Nat} {n : Nat} {ecc : List EccEvent} : Safe (s.readSpan c o n ecc).2.2 := h.readWords
theorem Safe.readPart {c : Nat} {o : Nat} {ecc : List EccEvent} : Safe (s.readPart c o ecc).2.2 := h.readWord
end Sys2Proof
end
section
/-! The operations of `Machine/SCell` keep a state safe -/
namespace Sys2Proof
open Machine
variable {s : State} (h : Safe s)
include h
theorem Safe.sDone {c : Nat} {x : SSt} : Safe (s.sDone c x) := safe_ite h h.modCell.engineAt
theorem Safe.sJump {c : Nat} {t : ℤ} : Safe (s.sJump c t) := safe_ite h.programFault h.engineAt
theorem Safe.lockstepFault {c : Nat} {hd : LockHit} : Safe (s.lockstepFault c hd) := h.sets.stageCairn.fenceCell.modEng
theorem Safe.sAlu {c : Nat} {i : Nat} {f : Nat → Nat → Nat} : Safe (s.sAlu c i f) := h.sDone
theorem Safe.sUnary {c : Nat} {i : Nat} {f : Nat → Nat} : Safe (s.sUnary c i f) := h.sDone
theorem Safe.sLoad {c i n : Nat} {ecc : List EccEvent} : Safe (s.sLoad c i n ecc) := by
  refine safe_ite h.programFault ?_
  cases s.bankCause c (sAddress (s.sst c) i) n n
  · exact h.readPart.sDone
  · exact h.programFault
theorem Safe.sStore {c i n : Nat} {ecc : List EccEvent} : Safe (s.sStore c i n ecc) := by
  refine safe_ite h.programFault ?_
  cases s.bankCause c (sAddress (s.sst c) i) n n
  · exact h.writePart.sDone
  · exact h.programFault
end Sys2Proof
end
section
/-! The operations of `Machine/Stager` keep a state safe -/
namespace Sys2Proof
open Machine
variable {s : State} (h : Safe s)
include h
theorem Safe.newTicket : Safe s.newTicket.2 := h.draw
theorem Safe.retire {t : Nat} {k : Ticket} : Safe (s.retire t k) := h.modKv
theorem Safe.checkStage {act : Nat} {n : Nat} : Safe (s.checkStage act n) := by
  unfold State.checkStage
  dsimp only
  split
  · exact safe_ite h.modSlot h
  · exact h
theorem Safe.deliver {t : Nat} {k : Ticket} {src : Nat} {len : Nat} {q : Nat} {data : List Gran} : Safe (s.deliver t k src len q data) := by
  unfold State.deliver
  dsimp only
  split
  · exact h.modTicket
  · exact h.modKv.queueDesc.modTicket
theorem Safe.pagesOut {t : Nat} {more : Nat → Bool} {len : Nat → Nat} {n : Nat} : Safe (s.pagesOut t more len n) := by
  induction n generalizing s with
  | zero => exact h
  | succ n ih =>
    unfold State.pagesOut
    split
    · exact safe_ite (ih h.deliver.modTicket) h
    · exact h
theorem Safe.closeTicket {t : Nat} : Safe (s.closeTicket t) := h.modTicket
theorem Safe.clearStager : Safe s.clearStager := by
  unfold State.clearStager
  exact .modKv (h.foldl fun h => h.dropStage)
end Sys2Proof
end
section
/-! The operations of `Machine/Transport` keep a state safe -/
namespace Sys2Proof
open Machine
variable {s : State} (h : Safe s)
include h
theorem Safe.acked {b : Nat} {toHub : Bool} {seq : Nat} : Safe (s.acked b toHub seq) := by
  unfold State.acked
  dsimp only
  split
  · exact safe_ite h.modTp.pumpAll h
  · exact h
theorem Safe.credited {b : Nat} {toHub : Bool} {k : Nat} : Safe (s.credited b toHub k) := safe_ite h h.modTp.pumpAll
theorem Safe.goBack {b : Nat} {toHub : Bool} : Safe (s.goBack b toHub) :=
  safe_ite h (safe_ite h.stageCairn.fenceBlock.report h.modTp.pumpAll)
theorem Safe.hubDrop {unit : Nat} : Safe (s.hubDrop unit) := h.modHub
theorem Safe.hubAct {p : Packet} {dram : List DramErr} {ecc : List EccEvent} : Safe (s.hubAct p dram ecc) := by
  unfold State.hubAct
  dsimp only
  split
  · refine safe_ite ?_ ?_
    · exact h.request.writeGrans
    · split
      · exact safe_ite h.hubDeliver h.hubDrop.cellFault
      · exact h.hubDrop.cellFault
  · refine safe_ite ?_ ?_
    · exact h.request.readDram.tpSend
    · split
      · exact safe_ite h.hubDrop.inc (safe_ite h.readWords.tpSend h.hubDrop.cellFault)
      · exact h.hubDrop.cellFault
  · exact h.congr.hubIntake
  · exact h
theorem Safe.accepted {b : Nat} {toHub : Bool} {p : Packet} {dram : List DramErr} {ecc : List EccEvent} : Safe (s.accepted b toHub p dram ecc) :=
  safe_ite h.modPort (safe_ite h.owe.hubDrop (safe_ite h.holdItem h.owe.hubAct))
theorem Safe.rxHead {b : Nat} {toHub : Bool} {ctl : Nat} : SafeOpt Prod.snd (s.rxHead b toHub ctl) := by
  unfold State.rxHead
  split
  · exact .ite (.some h.modTp) .none
  · exact .none
theorem Safe.carriedBack {b : Nat} {toHub : Bool} {p : Packet} : Safe (s.carriedBack b toHub p) := .credited (safe_ite h.acked h)
theorem Safe.sendAck {b : Nat} {toHub : Bool} {ty : Nat} : Safe (s.sendAck b toHub ty) := h.tpControl.modTp
theorem Safe.rxDiscard {b : Nat} {toHub : Bool} {p : Packet} : Safe (s.rxDiscard b toHub p) :=
  safe_ite (.owe (safe_ite h.hubDrop h.inc)) (.modTp (.sendAck (.owe (safe_ite h.hubDrop h.inc))))
theorem Safe.pktDrop {c : Nat} : Safe (s.pktDrop c) := h.inc
theorem Safe.badWrite {c : Nat} {p : Packet} : Safe (s.badWrite c p) := safe_ite h.pktDrop.owe.cellFault h.pktDrop.owe
theorem Safe.cellWrite {c : Nat} {p : Packet} {gs : List Gran} : Safe (s.cellWrite c p gs) := by
  unfold State.cellWrite
  dsimp only
  split
  · exact safe_ite h.modPort h.badWrite
  · exact h.badWrite
theorem Safe.cellMessage {c : Nat} {p : Packet} {gs : List Gran} : Safe (s.cellMessage c p gs) := by
  unfold State.cellMessage
  split
  · exact safe_ite h.deliverMsg h.pktDrop
  · exact h.pktDrop
theorem Safe.mcastNak {c : Nat} {p : Packet} : Safe (s.mcastNak c p) := safe_ite h.launch h.sendPacket
theorem Safe.checkPacket {c : Nat} {p : Packet} : Safe (s.checkPacket c p).2 :=
  safe_ite_snd h.inc (safe_ite_snd h.pktDrop.mcastNak (safe_ite_snd h.pktDrop.cellFault (safe_ite_snd h.inc (safe_ite_snd h h))))
theorem Safe.actItem {x : HeldItem} {dram : List DramErr} {ecc : List EccEvent} : Safe (s.actItem x dram ecc) := by
  unfold State.actItem
  split
  · exact h.hubAct
  · exact h.modPorter
  · exact h
theorem Safe.oweItem {x : HeldItem} : Safe (s.oweItem x) := by
  unfold State.oweItem
  split
  · exact h.owe
  · exact h
theorem Safe.matchItems {a : HeldItem} {b : HeldItem} {dram : List DramErr} {ecc : List EccEvent} : Safe (s.matchItems a b dram ecc) := by
  unfold State.matchItems
  dsimp only
  refine safe_ite ?_ ?_
  · exact h.oweItem.oweItem.congr.actItem.actItem
  · refine .actItem ?_
    split
    · exact h.oweItem.oweItem.congr.modTicket
    · exact h.oweItem.oweItem.congr
end Sys2Proof
end
section
/-! The operations of `Machine/Rerig` keep a state safe -/
namespace Sys2Proof
open Machine
variable {s : State} (h : Safe s)
include h
theorem Safe.recount : Safe s.recount := safe_ite h.modMaps.raise h.modMaps
theorem Safe.zeroBanks {c : Nat} : Safe (s.zeroBanks c) := h.clearMem
theorem Safe.strikeCell {c : Nat} : Safe (s.strikeCell c) := h.zeroBanks.modCell
theorem Safe.strikeAll : Safe s.strikeAll := h.clearMem.congr
theorem Safe.strikeReturn {c : Nat} : Safe (s.strikeReturn c) := h.strikeCell.wrap.wrap
theorem Safe.planView : Safe s.planView := h.congr
theorem Safe.asRewrites {was : State} : Safe (s.asRewrites was) := h.congr
theorem Safe.modVariants {b : Nat} {vs : List Nat} {f : Variant → Variant} : Safe (s.modVariants b vs f) := h.modXr
theorem Safe.unrig {c : Circuit} {vs : List Nat} : Safe (s.unrig c vs) := by
  unfold State.unrig
  exact h.foldl fun h => h.modVariants
theorem Safe.putSlot {circ : List PathHop} {vs : List Nat} {hd : PathHop} {out : Nat} {entry : Nat} : Safe (s.putSlot circ vs hd out entry) := by
  unfold State.putSlot
  dsimp only
  refine safe_ite ?_ ?_
  · split
    · split
      · exact h.modVariants.modVariants
      · exact h.modVariants
    · exact h.modVariants
  · exact h.modVariants
theorem Safe.rigSlot {circ : List PathHop} {vs : List Nat} {hops : List (PathHop × Nat)} {arr : List (Nat × Nat × Bool)} {lat : Nat} :
    SafeOpt Prod.fst (State.rigSlot circ vs hops (s, arr, lat)) := by
  induction hops generalizing s arr lat with
  | nil => exact .some h
  | cons hop rest ih =>
    unfold State.rigSlot
    dsimp only
    split
    · exact .none
    · exact ih h.putSlot
theorem Safe.rig {c : Circuit} {src : Nat × Nat} {dsts : List (Nat × Nat)} : SafeOpt Prod.fst (s.rig c src dsts) := by
  unfold State.rig
  dsimp only
  refine .ite (.ite ?_ .none) .none
  split
  · exact .none
  · refine .map (g := Prod.fst) (List.foldlRecOn (motive := SafeOpt Prod.fst) _ _ (.some ?_) fun a ha _ _ => ?_) fun _ hr => hr
    · exact h.unrig.foldl fun h => h.modVariants
    · split
      · exact .none
      · exact (ha _ rfl : Safe _).rigSlot
theorem Safe.rigAll {hit : Circuit → Bool} {mv : Nat × Nat → Nat × Nat} {budget : Bool} : SafeOpt Prod.fst (s.rigAll hit mv budget) := by
  unfold State.rigAll
  split
  · exact .some h
  · refine .foldl (.some h) fun ha => ?_
    dsimp only
    split
    · exact .none
    · have h := ha _ rfl
      split
      · exact .some h
      · refine .ite ?_ (.some h)
        split
        · next ht => exact .ite (.some (Safe.congr (h.rig _ ht))) .none
        · exact .none
theorem Safe.rigMoved {old new : Nat} : SafeOpt Prod.fst (s.rigMoved old new) := h.rigAll
theorem Safe.rigBroken : SafeOpt id s.rigBroken := .map h.rigAll fun _ hr => hr
theorem Safe.treeDetach {key n b port : Nat} : Safe (State.treeDetach key n b port s) := by
  induction n generalizing s b port with
  | zero => exact h
  | succ n ih =>
    unfold State.treeDetach
    split
    · exact h
    · refine safe_ite ?_ h.modXr
      split
      · exact ih h.modXr
      · exact h.modXr
theorem Safe.treeAttach {key : Nat} {root : Nat × Nat} {n b port : Nat} : Safe (State.treeAttach key root n b port s) := by
  induction n generalizing s b port with
  | zero => exact h
  | succ n ih =>
    unfold State.treeAttach
    split
    · exact h.modXr
    · dsimp only
      split
      · exact ih h.modXr
      · exact h.modXr
theorem Safe.setGroup {b : Nat} {k : Nat} {m : Nat} : Safe (s.setGroup b k m) := h.modXr
theorem Safe.groupDetach {k n b port : Nat} : Safe (State.groupDetach k n b port s) := by
  induction n generalizing s b port with
  | zero => exact h
  | succ n ih =>
    unfold State.groupDetach
    dsimp only
    refine safe_ite h.setGroup ?_
    split
    · split
      · exact ih h.setGroup
      · exact h.setGroup
    · exact h.setGroup
theorem Safe.groupAttach {k : Nat} {home : Nat × Nat} {n b port : Nat} : Safe (State.groupAttach k home n b port s) := by
  induction n generalizing s b port with
  | zero => exact h
  | succ n ih =>
    unfold State.groupAttach
    dsimp only
    refine safe_ite h.setGroup ?_
    split
    · exact ih h.setGroup
    · exact h.setGroup
theorem Safe.moveTrees {old : Nat} {new : Nat} : Safe (s.moveTrees old new) := by
  unfold State.moveTrees
  dsimp only
  exact .foldl (h.foldl fun h => h.treeDetach.treeAttach) fun h => h.groupAttach.groupDetach
theorem Safe.moveChans {old : Nat} {new : Nat} : Safe (s.moveChans old new) := h.congr.modCell.modCell
theorem Safe.publishCast : Safe s.publishCast := h.congr
end Sys2Proof
end
section
/-! The operations of `Machine/Rehearse` keep a state safe -/
namespace Sys2Proof
open Machine
variable {s : State} (h : Safe s)
include h
theorem Safe.modArea {c : Nat} {f : RhArea → RhArea} : Safe (s.modArea c f) := h.modScene
theorem Safe.rhSave {c : Nat} {k : Nat} {seed : Nat} : Safe (s.rhSave c k seed) := h.modArea
theorem Safe.rhRestore {c : Nat} : Safe (s.rhRestore c) := by
  unfold State.rhRestore
  split
  · exact h.modCell
  · exact h.modCell
  · exact h.modCell
  · exact h
theorem Safe.rhJudge {c : Nat} {k : Nat} {seed : Nat} : Safe (s.rhJudge c k seed) :=
  safe_ite h.modCell.sets.wrap h.modCell.sets.wrap.stageCairn.inc.inc.fenceCell
theorem Safe.bankPattern {c : Nat} : Safe (s.bankPattern c) := h.zeroBanks.writeBytes
theorem Safe.dressRun {c : Nat} : Safe (s.dressRun c) := h.bankPattern.sets
theorem Safe.dressFence {c : Nat} : Safe (s.dressFence c) := h.inc.set.inc.fenceAbove.fieldFence
theorem Safe.dressFail {f : RehearsalFail} : Safe (s.dressFail f) := by
  unfold State.dressFail
  dsimp only
  split
  · exact h.stageCairn.dressFence
  · exact h.stageCairn.dressFence
  · exact safe_ite h.stageCairn.setLink.fieldAdd.publishDist h.stageCairn.fenceBlock.fieldAdd
theorem Safe.dress {cells : List Nat} {outs : List RehearsalFail} : Safe (s.dress cells outs).1 := by
  unfold State.dress
  dsimp only
  exact .foldl (h.foldl fun h => h.dressRun) fun h => h.dressFail
end Sys2Proof
end
section
/-! The operations of `Machine/Recover` keep a state safe -/
namespace Sys2Proof
open Machine
variable {s : State} (h : Safe s)
include h
theorem Safe.clearCompute {keepStore : Bool} : Safe (s.clearCompute keepStore) := h.clearStager.marks.resetRegs.abortPorters
theorem Safe.modRcv {f : RecSt → RecSt} : Safe (s.modRcv f) := h.congr
theorem Safe.showCounts : Safe s.showCounts := h.sets
theorem Safe.dropBelay : Safe s.dropBelay := by
  unfold State.dropBelay
  split
  · exact h.congr.respond
  · exact h
theorem Safe.dropChannels : Safe s.dropChannels := by
  unfold State.dropChannels
  dsimp only
  exact .congr (h.modHost.foldl fun h => h.settleDefer)
theorem Safe.dropSlots : Safe s.dropSlots := by
  unfold State.dropSlots
  dsimp only
  refine h.foldl fun h => .modSlot ?_
  split
  · exact h.settleDefer
  · exact h
theorem Safe.unload : Safe s.unload := by
  unfold State.unload
  dsimp only
  exact .dorLog (.set (.congr (h.dropBelay.dropChannels.dropSlots.clearCompute.strikeAll.abortPorters.foldl fun h => h.eraseArea)))
theorem Safe.startUnload {mb : Nat} {opcode : Nat} {ns : Nat} : Safe (s.startUnload mb opcode ns) := h.unload.modHost
theorem Safe.endRecovery : Safe s.endRecovery := h.sets.raise
theorem Safe.refuseRestart : Safe s.refuseRestart := h.unload.goto.endRecovery.modHost
theorem Safe.startRecovery {route : Nat} {cause : Nat} : Safe (s.startRecovery route cause) := by
  unfold State.startRecovery
  dsimp only
  refine safe_ite ?_ ?_
  · exact .showCounts (safe_ite h.abortAct.dropBelay.goto.sets.congr.modRcv.modRcv (safe_ite h.abortAct.dropBelay.goto.sets.congr.modRcv.modRcv
      h.abortAct.dropBelay.goto.sets.congr.modRcv))
  · exact h
theorem Safe.mergeRecovery : Safe s.mergeRecovery := safe_ite h.modRcv.set h.modRcv
theorem Safe.fenceRoute : Safe s.fenceRoute := safe_ite h.startRecovery (safe_ite h.mergeRecovery h)
theorem Safe.loseRegion {g : Nat} : Safe (s.loseRegion g) := h.set
theorem Safe.regionGone {g : Nat} : Safe (s.regionGone g) :=
  safe_ite (.fenceRoute (safe_ite h.loseRegion h)) (.publishDist (safe_ite h.loseRegion h))
theorem Safe.enterDark {cause : Nat} : Safe (s.enterDark cause) := h.stageCairn.congr.congr.resetRope.goto.sets.dropJobKey.modDor.emit
theorem Safe.strikeAgain : Safe s.strikeAgain := h.modHost
theorem Safe.playCell {l : Nat} {c : Nat} : Safe (s.playCell l c) := h.modScene
theorem Safe.moveCell {l : Nat} {new : Nat} {flags : Nat} : Safe (s.moveCell l new flags) :=
  h.moveTrees.strikeReturn.moveChans.congr.modScene.modCell.playCell.modRcv
theorem Safe.replaceCell {l : Nat} : SafeOpt id (s.replaceCell l) := by
  intro t ht
  obtain ⟨c, -, hc⟩ := List.exists_of_findSome?_eq_some ht
  refine SafeOpt.ite (g := id) ?_ .none t hc
  split
  · next hr => exact .ite (.some (h.rigMoved _ hr : Safe _).moveCell) .none
  · exact .none
theorem Safe.moveRegion {g : Nat} : SafeOpt id (s.moveRegion g) := by
  unfold State.moveRegion
  split
  · exact .none
  · dsimp only
    split
    · exact .none
    · exact .map (Safe.rigAll h.congr) fun _ hr => hr.foldl fun h => h.moveCell
theorem Safe.noUnderstudy {l : Nat} : Safe (s.noUnderstudy l) := h.stageCairn
theorem Safe.viaRegion {g l : Nat} :
    Safe (match (s.loseRegion g).moveRegion g with | some t => (t, true) | none => ((s.loseRegion g).noUnderstudy l, false)).1 := by
  split
  · next ht => exact h.loseRegion.moveRegion _ ht
  · exact h.loseRegion.noUnderstudy
theorem Safe.replaceOne {l : Nat} : Safe (s.replaceOne l).1 := by
  unfold State.replaceOne
  dsimp only
  split
  · exact h.viaRegion
  · split
    · next ht => exact h.replaceCell _ ht
    · split
      · exact h.viaRegion
      · exact h.noUnderstudy
theorem Safe.replaceAll {ls : List Nat} : Safe (s.replaceAll ls).1 := by
  induction ls generalizing s with
  | nil => exact h
  | cons l ls ih => exact safe_ite_fst (safe_ite_fst (ih h.replaceOne) h.replaceOne) (ih h)
theorem Safe.installLoad {y : Option Belay} : Safe (s.installLoad y) := by
  unfold State.installLoad
  dsimp only
  exact h.foldl fun h => h.modCell
theorem Safe.takeHalf {dram : List DramErr} : Safe (s.takeHalf dram) := by
  unfold State.takeHalf
  dsimp only
  split
  · exact h.modRcv
  · exact h.request.readDram.request.readDram.modRcv
theorem Safe.startGroups {entry : Nat → Nat} : Safe (s.startGroups entry) := by
  unfold State.startGroups
  dsimp only
  exact h.congr.foldl fun h => h.sceneLoad
theorem Safe.restartRun : Safe s.restartRun := by
  unfold State.restartRun
  dsimp only
  refine safe_ite ?_ ?_
  · exact h.dropLoadGrants.startGroups.goto.modActs.modRcv.endRecovery.modHost.startUnload
  · exact h.dropLoadGrants.startGroups.goto.modActs.modRcv.endRecovery
theorem Safe.restartBelay {dram : List DramErr} : Safe (s.restartBelay dram) := by
  unfold State.restartBelay
  dsimp only
  split
  · exact h.takeHalf.installLoad.fwSubmit.modRcv
  · exact safe_ite h h.fwSubmit.modRcv
  · exact safe_ite h (safe_ite h.stageCairn.refuseRestart (safe_ite h.restartRun h))
theorem Safe.startCopy {y : Belay} : Safe (s.startCopy y) := h.request.writeDram.fwSubmit
theorem Safe.writeBelay {y : Belay} {hd : Nat} {seq : Nat} {dram : List DramErr} : Safe (s.writeBelay y hd seq dram) :=
  h.request.writeDram.writeDram
end Sys2Proof
end
section
/-! The operations of `Machine/VCell` keep a state safe -/
namespace Sys2Proof
open Machine
variable {s : State} (h : Safe s)
include h
theorem Safe.vDone {c : Nat} {x : VSt} : Safe (s.vDone c x) := safe_ite h h.modCell.engineAt
theorem Safe.vJump {c : Nat} {x : VSt} {target : ℤ} : Safe (s.vJump c x target) := safe_ite h (safe_ite h.programFault h.modCell.engineAt)
theorem Safe.vectorFault {c : Nat} : Safe (s.vectorFault c) := h.inc.stageCairn.fenceCell.modEng
theorem Safe.shadowRecord {c : Nat} {i : Nat} {hd : ShadowHit} : Safe (s.shadowRecord c i hd) := h.sets
theorem Safe.vMismatch {c : Nat} {i : Nat} {hd : ShadowHit} {done : State → State} (hf : ∀ {s}, Safe s → Safe (done s)) :
    Safe (s.vMismatch c i hd done) :=
  safe_ite h.shadowRecord.vectorFault (safe_ite h.shadowRecord.modEng.inc.vectorFault (hf h.shadowRecord.modEng.inc))
theorem Safe.vChecked {c : Nat} {i : Nat} {hw : VHw} {wide : Option Bool} {seen : List (Nat × Bool)} {done : State → State} (hf : ∀ {s}, Safe s →
    Safe (done s)) :
    Safe (s.vChecked c i hw wide seen done) := by
  unfold State.vChecked
  dsimp only
  split
  · exact hf (safe_ite h.inc.modCell.set h.inc.modCell)
  · exact .vMismatch (safe_ite h.inc.modCell.set h.inc.modCell) fun h => hf h
theorem Safe.vResidue {c : Nat} {i : Nat} {hw : VHw} {done : State → State} (hf : ∀ {s}, Safe s → Safe (done s)) : Safe (s.vResidue c i hw done) := by
  unfold State.vResidue
  split
  · exact h.vMismatch fun h => hf h
  · exact hf h
theorem Safe.vLanes {c : Nat} {i : Nat} {hw : VHw} {srcs : List Nat} {f : Nat → List Nat → Nat} {wide : Option Bool} :
    Safe (s.vLanes c i hw srcs f wide) := h.vChecked fun h => h.vDone
theorem Safe.vQuant {c : Nat} {i : Nat} {hw : VHw} {k : Nat} {q : List Nat → Nat × List Nat} {tPoison : Bool} : Safe (s.vQuant c i hw k q tPoison) :=
  h.vChecked fun h => h.vDone
theorem Safe.vFn {c : Nat} {i : Nat} {hw : VHw} {f : FFmt → Nat → Nat} : Safe (s.vFn c i hw f) := h.vLanes
theorem Safe.vReduce {c : Nat} {i : Nat} {hw : VHw} {half : List (Nat × Bool) → Nat} {f : List (Nat × Bool) → Nat} {wide : Option Bool} :
    Safe (s.vReduce c i hw half f wide) := h.vChecked fun h => h.vDone
theorem Safe.vMove {c : Nat} {i : Nat} {hw : VHw} {place : Nat → Nat} {dep : Nat → Bool} : Safe (s.vMove c i hw place dep) :=
  h.vChecked fun h => h.vDone
theorem Safe.vStoreGran {c : Nat} {o : Nat} {g : Nat} {v : Nat} {pois : Nat → Bool} {act : Nat → Bool} {ecc : List EccEvent} :
    Safe (s.vStoreGran c o g v pois act ecc) := safe_ite h.writeWord (safe_ite (safe_ite h.readWord.writeWord h.readWord.writeWord) h)
theorem Safe.read32 {c : Nat} {o : Nat} {ecc : List EccEvent} : Safe (s.read32 c o ecc).2.2 := h.readPart
end Sys2Proof
end
section
/-! The operations of `Machine/Views` keep a state safe -/
namespace Sys2Proof
open Machine
variable {s : State} (h : Safe s)
include h
theorem Safe.snapStrips {ecc : List EccEvent} : Safe (s.snapStrips ecc).2 := by
  unfold State.snapStrips
  refine h.foldl_snd fun h => safe_ite_snd h ?_
  dsimp only
  exact h.readWords
theorem Safe.writeSnapshot {ecc : List EccEvent} : Safe (s.writeSnapshot ecc) := by
  unfold State.writeSnapshot
  dsimp only
  split
  · exact h.modRcv.request.writeDram
  · exact .set (.foldIdx h.modRcv.snapStrips.request.writeDram fun h => h.writeDram)
end Sys2Proof
end
section
/-! The operations of `Machine/Detect` keep a state safe -/
namespace Sys2Proof
open Machine
variable {s : State} (h : Safe s)
include h
theorem Safe.gateFault {c : Nat} {n : Nat} : Safe (s.gateFault c n) := h.modAux.cellFault.abortAct
theorem Safe.gatePassed {c : Nat} {n : Nat} : Safe (s.gatePassed c n) := h.modAux.watch
theorem Safe.gateWaits {c : Nat} {n : Nat} {data : Bool} : Safe (s.gateWaits c n data) := h.modAux
theorem Safe.gateQuiet {c : Nat} {n : Nat} : Safe (s.gateQuiet c n) := h.modAux
theorem Safe.gateCue {c : Nat} {n : Nat} {cue : Nat} {ecc : List EccEvent} {go : State → State} (hf : ∀ {s}, Safe s → Safe (go s)) :
    Safe (s.gateCue c n cue ecc go) := safe_ite h.readCue (safe_ite h.readCue.gateFault (.gatePassed (.takeCue (hf h.readCue))))
theorem Safe.gateMove {c : Nat} {n : Nat} {cue : Nat} {src : Nat} {dst : Nat} {ecc : List EccEvent} : Safe (s.gateMove c n cue src dst ecc) :=
  safe_ite (safe_ite h.readHead (h.readHead.gateCue fun h => h.epSend.consume)) h.epSend.gateQuiet
theorem Safe.gateStep {c : Nat} {n : Nat} {ecc : List EccEvent} : Safe (s.gateStep c n ecc) := by
  unfold State.gateStep
  dsimp only
  refine safe_ite ?_ ?_
  · exact safe_ite h.gateFault (safe_ite h.gateWaits (safe_ite h.gateFault (safe_ite (h.gateCue fun h => h.consume) h.gateMove)))
  · exact safe_ite h.gateWaits h.gateQuiet
theorem Safe.idlePeriod : Safe s.idlePeriod := safe_ite h.modRcv h
theorem Safe.curtainCount {took : Bool} {yes : Bool} : Safe (s.curtainCount took yes) :=
  safe_ite (safe_ite h.modRcv.startRecovery h.modRcv) h
theorem Safe.unfence {c : Nat} : Safe (s.unfence c) := safe_ite (.strikeReturn (safe_ite h.set.set.set.set h.set.set)) h
theorem Safe.unfenceBlock {b : Nat} : Safe (s.unfenceBlock b) := by
  unfold State.unfenceBlock
  dsimp only
  exact h.set.set.foldl fun h => h.unfence
theorem Safe.refillStore {c : Nat} : Safe (s.refillStore c) := by
  unfold State.refillStore
  dsimp only
  split
  · exact h.readWords.modScene
  · exact h.request.modScene
theorem Safe.pairMismatch {l : Nat} {detail : Nat} : Safe (s.pairMismatch l detail) := safe_ite h.inc.stageCairn.startRecovery.modRcv h
theorem Safe.sampleTally {c : Nat} : Safe (s.sampleTally c) := h.modCell.congr
end Sys2Proof
end
section
/-! The operations of `Machine/Nymak` keep a state safe -/
namespace Sys2Proof
open Machine
variable {s : State} (h : Safe s)
include h
theorem Safe.serve {mb : Nat} {r : NyReq} {f : State → List Byte → Ans} (hf : ∀ {s b}, Safe s → SafeAns (f s b)) : Safe (s.serve mb r f) := by
  refine safe_ite h.respond (safe_ite h.respond (safe_ite h.respond ?_))
  have ht := hf (b := r.arg) h
  split
  · next e => rw [e] at ht; exact Safe.respond ht
  · next e => rw [e] at ht; exact ht
theorem Safe.houseAnswer {mb : Nat} : Safe (s.houseAnswer mb) := .emit (.sets (safe_ite h.sets h.sets))
theorem Safe.nymakGo {mb : Nat} {r : NyReq} {f : State → List Byte → Ans} (hf : ∀ {s y}, Safe s → SafeAns (f s y)) : Safe (s.nymakGo mb r f) :=
  safe_ite h (safe_ite (.houseAnswer (safe_ite h h.putRequest)) (safe_ite h.inc (h.putRequest.set.modMb.serve fun h => hf h)))
theorem Safe.defer {mb : Nat} {res : List Byte} {f : State → Nat → State} (hf : ∀ {s y}, Safe s → Safe (f s y)) : SafeAns (s.defer mb res f) := by
  unfold State.defer
  split
  · exact .putDefer (hf h)
  · exact h
theorem Safe.closeSession {mb : Nat} : Safe (s.closeSession mb) := safe_ite h.modMb.set.dropJobKey h.modMb.set
theorem Safe.hello {mb : Nat} {b : List Byte} : SafeAns (s.hello mb b) :=
  safeAns_ite h (safeAns_ite h.closeSession h.closeSession.draw.modMb.set)
theorem Safe.endStrike : Safe s.endStrike := by
  unfold State.endStrike
  dsimp only
  split
  · refine safe_ite ?_ ?_
    · refine safe_ite ?_ ?_
      · exact .respond (safe_ite (.goto (safe_ite (h.modHost.strikeAll.foldl fun h => h.eraseArea) h.modHost)) (safe_ite
          (h.modHost.strikeAll.foldl fun h => h.eraseArea) h.modHost))
      · refine safe_ite ?_ ?_
        · exact .goto (safe_ite (h.modHost.strikeAll.foldl fun h => h.eraseArea) h.modHost)
        · exact safe_ite (h.modHost.strikeAll.foldl fun h => h.eraseArea) h.modHost
    · exact h
  · exact h
theorem Safe.tableOut {dest : Nat} {bs : List Byte} : Safe (s.tableOut dest bs) := h.request.request.emit
theorem Safe.startDrain {i : Nat} : Safe (s.startDrain i) := by
  unfold State.startDrain
  dsimp only
  split
  · refine safe_ite ?_ ?_
    · refine .modAux (.modEp ?_)
      split
      · exact safe_ite h.modChan.modAux h.modChan
      · exact h.modChan
    · split
      · exact safe_ite h.modChan.modAux h.modChan
      · exact h.modChan
  · split
    · exact safe_ite h.modChan.modAux h.modChan
    · exact h.modChan
theorem Safe.makeChan {mb i ty : Nat} {a b : ChanEnd} {res : List Byte} : SafeAns (s.makeChan mb i ty a b res) := by
  unfold State.makeChan
  dsimp only
  split
  · exact h.modChan.chanUp
  · exact h.defer fun _ => h.modChan.modChan.modHost
theorem Safe.joinEp {mb : Nat} {b : List Byte} : SafeAns (s.joinEp mb b) := by
  unfold State.joinEp
  dsimp only
  refine safeAns_ite ?_ ?_
  · exact h
  · refine safeAns_ite ?_ ?_
    · exact h
    · refine safeAns_ite ?_ ?_
      · exact h
      · refine safeAns_ite ?_ ?_
        · exact h
        · refine safeAns_ite ?_ ?_
          · exact h
          · split
            · exact h
            · split <;> exact h.makeChan
theorem Safe.makeRing {mb : Nat} {b : List Byte} : SafeAns (s.makeRing mb b) := by
  unfold State.makeRing
  dsimp only
  refine safeAns_ite ?_ ?_
  · exact h
  · refine safeAns_ite ?_ ?_
    · exact h
    · refine safeAns_ite ?_ ?_
      · exact h
      · split
        · exact h
        · exact h
        · refine safeAns_ite ?_ ?_
          · refine h.defer fun h => .modRing (safe_ite ?_ h)
            split
            · exact h.modChan.chanUp
            · exact h.modChan.modChan
          · refine .modRing (safe_ite ?_ h)
            split
            · exact h.modChan.chanUp
            · exact h.modChan.modChan
theorem Safe.cancelChan {i : Nat} : Safe (s.cancelChan i) := by
  unfold State.cancelChan
  dsimp only
  split
  · exact h.modChan.modHost.settleDefer
  · exact h.modChan
theorem Safe.destroyChan {i : Nat} : Safe (s.destroyChan i) := safe_ite h.cancelChan h.startDrain
end Sys2Proof
end
section
/-! The operations of `Machine/MCell` keep a state safe -/
namespace Sys2Proof
open Machine
variable {s : State} (h : Safe s)
include h
theorem Safe.modM {c : Nat} {f : MSt → MSt} : Safe (s.modM c f) := h.modCell
theorem Safe.mProgress {c : Nat} : Safe (s.mProgress c) := safe_ite h h.modEng
theorem Safe.loadInit {c : Nat} {d : Nat} {m : Nat} {n : Nat} {rows : List Nat} {ecc : List EccEvent} : Safe (s.loadInit c d m n rows ecc) := by
  unfold State.loadInit
  dsimp only
  exact h.foldl fun h => h.readWords.foldl fun h => h.modM
theorem Safe.startBlock {c : Nat} {d : Nat} {m : Nat} {n : Nat} : Safe (s.startBlock c d m n) := h.modM
theorem Safe.postCues {c : Nat} : Safe (s.postCues c) := by
  unfold State.postCues
  dsimp only
  split
  · exact safe_ite h.draw.cueSend.modM h.draw.cueSend
  · exact h
theorem Safe.bankRow {c : Nat} {fmt : Nat} {ftz : Bool} {o : Nat} {so : Nat} {k0 : Nat} {n : Nat} {ecc : List EccEvent} :
    Safe (s.bankRow c fmt ftz o so k0 n ecc).2 := safe_ite_snd h.readSpan h.readSpan.readSpan
theorem Safe.queueRow {c : Nat} {d : Nat} {r : Nat} {k0 : Nat} {n : Nat} {ecc : List EccEvent} : Safe (s.queueRow c d r k0 n ecc).2 :=
  h.bankRow
theorem Safe.aRow {c : Nat} {d : Nat} {r : Nat} {k0 : Nat} {n : Nat} {ecc : List EccEvent} : Safe (s.aRow c d r k0 n ecc).2 :=
  safe_ite_snd h.queueRow h.bankRow
theorem Safe.bRow {c : Nat} {d : Nat} {col : Nat} {k0 : Nat} {n : Nat} {ecc : List EccEvent} : Safe (s.bRow c d col k0 n ecc).2 := h.bankRow
theorem Safe.gather {f : State → Nat → (List FV × Bool) × State} {rs : List Nat} (hf : ∀ {s r}, Safe s → Safe (f s r).2) :
    Safe (gather f rs s).2 := by
  induction rs generalizing s with
  | nil => exact h
  | cons r rs ih => exact ih (hf h)
theorem Safe.readOps {c : Nat} {d : Nat} {rows : List Nat} {ecc : List EccEvent} : Safe (s.readOps c d rows ecc).2 :=
  .gather (h.gather fun h => h.aRow) fun h => h.bRow
theorem Safe.kStep {c : Nat} {d : Nat} {hw : MHw} : Safe (s.kStep c d hw) := by
  unfold State.kStep
  dsimp only
  refine safe_ite ?_ ?_
  · exact .readOps (.modM (safe_ite h.loadInit h))
  · exact .mProgress (.modM (safe_ite (.set (.congr (.readOps (.modM (safe_ite h.loadInit h))))) (.readOps (.modM (safe_ite h.loadInit h)))))
theorem Safe.marginRecord {c : Nat} {g : GroupCheck} {again : Bool} : Safe (s.marginRecord c g again) := h.sets
theorem Safe.checksumFault {c : Nat} : Safe (s.checksumFault c) := h.inc.stageCairn.fenceCell
theorem Safe.releaseRows {c : Nat} {d : Nat} : Safe (s.releaseRows c d) := by
  unfold State.releaseRows
  exact h.foldl fun h => h.consume
theorem Safe.writeBack {c : Nat} {d : Nat} : Safe (s.writeBack c d) := h.modM
theorem Safe.kDone {c : Nat} {d : Nat} : Safe (s.kDone c d) := by
  unfold State.kDone
  dsimp only
  refine safe_ite ?_ ?_
  · exact h.modM.mProgress
  · refine safe_ite ?_ ?_
    · exact h.modM.mProgress
    · refine .mProgress ?_
      split
      · exact .startBlock (safe_ite (.modM (safe_ite h.releaseRows h)) (.writeBack (safe_ite h.releaseRows h)))
      · exact .modM (safe_ite (.modM (safe_ite h.releaseRows h)) (.writeBack (safe_ite h.releaseRows h)))
theorem Safe.runChecks {c d : Nat} {gs : List Nat} : Safe (s.runChecks c d gs) := by
  induction gs generalizing s with
  | nil => exact h.kDone
  | cons g gs ih =>
    unfold State.runChecks
    dsimp only
    refine safe_ite ?_ (ih (.inc (.congr h)))
    split
    · exact .modM (.marginRecord (.inc (.congr h)))
    · exact ih (.inc (.marginRecord (.inc (.congr h))))
    · exact .checksumFault (.marginRecord (.inc (.congr h)))
theorem Safe.replay {c : Nat} {d : Nat} {hw : MHw} : Safe (s.replay c d hw) := by
  unfold State.replay
  dsimp only
  refine safe_ite ?_ ?_
  · exact h.modM.readOps
  · refine safe_ite ?_ ?_
    · exact h.modM.readOps.modM.congr.inc.marginRecord.checksumFault
    · exact safe_ite h.modM.readOps.modM.congr.inc.modEng.inc.checksumFault h.modM.readOps.modM.congr.inc.modEng.inc.modM.mProgress
theorem Safe.drainBank {c : Nat} {d : Nat} {r : DrainRow} {ecc : List EccEvent} : Safe (s.drainBank c d r ecc) := by
  unfold State.drainBank
  dsimp only
  exact h.foldIdx fun h => safe_ite h.writeWord h.writePart
theorem Safe.rowGone {c : Nat} {d : Nat} {r : DrainRow} : Safe (s.rowGone c d r) := h.modM.postCues.mProgress
theorem Safe.chainEnd {c : Nat} {ecc : List EccEvent} : Safe (s.chainEnd c ecc) := safe_ite h.beatEnd h
end Sys2Proof
end
section
/-! The operations of `Machine/Load` keep a state safe -/
namespace Sys2Proof
open Machine
variable {s : State} (h : Safe s)
include h
theorem Safe.packageChans {p : Package} : Safe (s.packageChans p).1 := by
  refine h.foldl_fst fun h => ?_
  split
  · exact h
  · exact h.modChan
theorem Safe.writeRigging {p : Package} : Safe (s.writeRigging p) := by
  unfold State.writeRigging
  dsimp only
  exact .foldl (.foldl (h.foldl fun h => h.modXr) fun h => h.modXr) fun h => h.modXr
theorem Safe.loadPackage {b : List Byte} {p : Package} {reserve : List Nat} : Safe (s.loadPackage b p reserve) := by
  unfold State.loadPackage
  dsimp only
  exact .goto (.startGroups (safe_ite (.dorLog (.showCounts (.congr (.modHost (.publishCast (.fwSubmit (.installLoad (.foldl (.congr
      (.packageChans (.writeRigging (h.eraseSnapshot.request.writeDram.congr.set.foldl fun h => h.set)))) fun h => h.playCell)))))))) (.emit
      (.dorLog (.showCounts (.congr (.modHost (.publishCast (.fwSubmit (.installLoad (.foldl (.congr (.packageChans (.writeRigging
      (h.eraseSnapshot.request.writeDram.congr.set.foldl fun h => h.set)))) fun h => h.playCell)))))))))))
theorem Safe.judgeLoad {b : List Byte} {q : Package} : Safe (s.judgeLoad b q).2 := by
  unfold State.judgeLoad
  dsimp only
  refine safe_ite_snd ?_ ?_
  · exact h
  · refine safe_ite_snd ?_ ?_
    · exact h
    · refine safe_ite_snd ?_ ?_
      · exact h
      · refine safe_ite_snd ?_ ?_
        · exact h
        · refine safe_ite_snd ?_ ?_
          · exact h
          · split
            · exact h
            · exact h.loadPackage
end Sys2Proof
end
section
/-! The operations of `Machine/RopeCmd` keep a state safe -/
namespace Sys2Proof
open Machine
variable {s : State} (h : Safe s)
include h
theorem Safe.spareLane {p : Nat} {l : Nat} {who : Nat} {failed : Nat} : Safe (s.spareLane p l who failed) :=
  safe_ite h (safe_ite h.sets (safe_ite h.sets (safe_ite h.ringDown (safe_ite h h.inc.set.modPortR))))
theorem Safe.spareLanes {p : Nat} {ls : List Nat} : Safe (s.spareLanes p ls) := by
  unfold State.spareLanes
  dsimp only
  exact h.foldIdx fun h => h.spareLane
theorem Safe.ropeCtrlData {p : Nat} {data : List Byte} : Safe (s.ropeCtrlData p data) := h.ropeCtrlWith
theorem Safe.askSpare {p : Nat} {l : Nat} {who : Nat} : Safe (s.askSpare p l who) := safe_ite h.modPortR.ropeCtrlData h.modPortR
theorem Safe.ropeMessage {p : Nat} {ty : Nat} {msg : List Byte} : Safe (s.ropeMessage p ty msg) := by
  unfold State.ropeMessage
  dsimp only
  exact h.modPortR.foldl fun h => h.ropeSend
theorem Safe.sendHello {p : Nat} {ty : Nat} : Safe (s.sendHello p ty) := h.drawBytes.draw.modPortR.ropeMessage
theorem Safe.ringOn {i : Nat} : Safe (s.ringOn i) := by
  unfold State.ringOn
  dsimp only
  refine safe_ite ?_ ?_
  · exact .modRingR (.setRing (safe_ite (safe_ite h.setRing.sendHello h.setRing) h))
  · exact safe_ite (safe_ite h.setRing.sendHello h.setRing) h
theorem Safe.openRing {i : Nat} {expected : Nat} : Safe (s.openRing i expected) := h.endRing.modRingR.ringOn
theorem Safe.sessionUp {p : Nat} {peer : Nat} {t : Nat} {keys : List Byte} : Safe (s.sessionUp p peer t keys) :=
  h.sets.inc.modPortR.modRingR.ringOn
theorem Safe.rekeyed {p : Nat} {keys : List Byte} : Safe (s.rekeyed p keys) := h.modPortR
theorem Safe.session {p : Nat} {peer : Nat} {t : Nat} {keys : List Byte} : Safe (s.session p peer t keys) := safe_ite h.rekeyed h.sessionUp
theorem Safe.authFail {p : Nat} : Safe (s.authFail p) := h.set
theorem Safe.answerHello {p : Nat} {m : List Byte} : Safe (s.answerHello p m) := by
  unfold State.answerHello
  dsimp only
  split
  · exact safe_ite h.drawBytes.ropeMessage.session h.authFail
  · exact h.authFail
theorem Safe.takeSession {p : Nat} {m : List Byte} : Safe (s.takeSession p m) := by
  unfold State.takeSession
  dsimp only
  split
  · exact safe_ite h.session h.authFail
  · exact h.authFail
theorem Safe.dropPart {p : Nat} : Safe (s.dropPart p) := h.modPortR
theorem Safe.collect {p : Nat} {len : Nat} {f : RopeFrame} : Safe (s.collect p len f).2 := by
  unfold State.collect
  dsimp only
  split
  · refine safe_ite_snd ?_ ?_
    · refine safe_ite_snd ?_ ?_
      · split
        · exact safe_ite h h.dropPart
        · exact h
      · refine .modPortR ?_
        split
        · exact safe_ite h h.dropPart
        · exact h
    · refine .dropPart ?_
      split
      · exact safe_ite h h.dropPart
      · exact h
  · refine safe_ite_snd ?_ ?_
    · refine .modPortR ?_
      split
      · exact safe_ite h h.dropPart
      · exact h
    · refine .modPortR ?_
      split
      · exact safe_ite h h.dropPart
      · exact h
theorem Safe.trainLanes {p : Nat} {bad : List Nat} : Safe (s.trainLanes p bad) := h.modPortR.set.spareLanes
theorem Safe.ringUp {i : Nat} : Safe (s.ringUp i) := safe_ite h.setRing h
theorem Safe.recheckPeers {old : List (List Byte)} {p : Nat} : Safe (s.recheckPeers old p) := by
  unfold State.recheckPeers
  dsimp only
  refine safe_ite ?_ ?_
  · exact h
  · split
    · exact h.set
    · exact h.endRing.set
end Sys2Proof
end
section
/-! The operations of `Machine/Bringup` keep a state safe -/
namespace Sys2Proof
open Machine
variable {s : State} (h : Safe s)
include h
theorem Safe.modSeq {f : SeqSt → SeqSt} : Safe (s.modSeq f) := h.congr
theorem Safe.fieldOff : Safe s.fieldOff := h.resetRope.erased
theorem Safe.dorStart {cold : Bool} : Safe (s.dorStart cold) :=
  safe_ite h.dropJobKey.modDor.makeKem.drawBytes.modDor.draw.sets h.dropJobKey.modDor.makeKem.set
theorem Safe.enterBringup {warm : Bool} : Safe (s.enterBringup warm) := by
  unfold State.enterBringup
  refine .goto (.set (.congr (.modSeq (.sets (.modRcv (.dorStart (safe_ite ?_ (.modRcv (.draw (.erased (.sets (.resetRegs ?_))))))))))))
  · exact .congr (.modHub (.sets (.resetRegs (.clearCompute (.congr h.resetRope.modHost)))))
  · exact .congr h.resetRope.modHost
theorem Safe.seqStart {warm : Bool} : Safe (s.seqStart warm) :=
  safe_ite h.inc.set (safe_ite h.set (safe_ite h.set (safe_ite h.unload.set.modSeq h.enterBringup.set)))
theorem Safe.finishStart : Safe s.finishStart := by
  unfold State.finishStart
  split
  · exact safe_ite (safe_ite h.enterBringup h.modSeq) h
  · exact h
theorem Safe.failStep {cause : Nat} {unit : Nat} : Safe (s.failStep cause unit) := .goto (.fieldOff (.modSeq (safe_ite h.sets.sets h.sets)))
theorem Safe.stepDone {skipped : Bool} : Safe (s.stepDone skipped) := h.sets.modSeq.raise
theorem Safe.seamStart : Safe s.seamStart := by
  unfold State.seamStart
  exact h.foldl fun h => h.foldl fun h => h.sets
theorem Safe.seqStep {code : Nat} {env : StepEnv} : Safe (s.seqStep code env) := by
  unfold State.seqStep
  dsimp only
  refine safe_ite ?_ ?_
  · exact h.set
  · refine safe_ite ?_ ?_
    · exact h.set
    · refine safe_ite ?_ ?_
      · exact h.set
      · refine safe_ite ?_ ?_
        · exact .stepDone (safe_ite (.seamStart (safe_ite h.sets.modSeq.modMaps h.sets.modSeq)) (safe_ite h.sets.modSeq.modMaps h.sets.modSeq))
        · refine safe_ite ?_ ?_
          · refine safe_ite ?_ ?_
            · exact safe_ite (.seamStart (safe_ite h.sets.modSeq.modMaps h.sets.modSeq)) (safe_ite h.sets.modSeq.modMaps h.sets.modSeq)
            · exact .failStep (safe_ite (.seamStart (safe_ite h.sets.modSeq.modMaps h.sets.modSeq)) (safe_ite h.sets.modSeq.modMaps h.sets.modSeq))
          · exact safe_ite (.seamStart (safe_ite h.sets.modSeq.modMaps h.sets.modSeq)) (safe_ite h.sets.modSeq.modMaps h.sets.modSeq)
theorem Safe.powerCheck : Safe s.powerCheck.1 := safe_ite_fst h h.sets.congr
theorem Safe.secureBoot {e : StepEnv} : Safe (s.secureBoot e).1 :=
  safe_ite_fst h h.drawBytes.drawBytes.drawBytes.newLog.dorLog.dorLog.dorLog
theorem Safe.fwLoad : Safe s.fwLoad.1 := h.sets.modRcv
theorem Safe.seamWires {g : Nat} {l : Nat} {wires : List Nat} {source : Nat} : Safe (s.seamWires g l wires source) := by
  unfold State.seamWires
  dsimp only
  split
  · exact h
  · exact safe_ite h.setLink.fieldAdd h.swapSpares
theorem Safe.seamTrain {e : StepEnv} : Safe (s.seamTrain e).1 := by
  unfold State.seamTrain
  dsimp only
  split
  · exact safe_ite_fst h (.foldl (h.foldl fun h => h.foldl fun h => h.sets) fun h => h.seamWires)
  · exact safe_ite_fst h (h.foldl fun h => h.foldl fun h => h.sets)
theorem Safe.dramTrain : Safe s.dramTrain.1 := by
  unfold State.dramTrain
  exact .sets (h.foldl fun h => h.set)
theorem Safe.ropeTrain {e : StepEnv} : Safe (s.ropeTrain e).1 := by
  unfold State.ropeTrain
  exact h.foldl fun h => safe_ite h.endRing h.openRing
theorem Safe.testFail {e : MapEnt} : Safe (s.testFail e) := h.modMaps
theorem Safe.bistRepair {e : MapEnt} : Safe (s.bistRepair e) := by
  unfold State.bistRepair
  dsimp only
  refine safe_ite ?_ ?_
  · exact h
  · split
    · exact h.modBank
    · exact h.testFail
theorem Safe.bistWord {w : Nat} : Safe (s.bistWord w) := by
  unfold State.bistWord
  dsimp only
  split
  · exact h.modMaps
  · exact h.testFail.fieldAdd
  · exact h.modMaps
  · exact safe_ite (safe_ite h.bistRepair h) (safe_ite h.seamWires.testFail h.testFail)
theorem Safe.bist {e : StepEnv} : Safe (s.bist e).1 := by
  unfold State.bist
  dsimp only
  split
  · exact h.modMaps.foldl fun h => h.bistWord
  · split <;> exact h.modMaps.foldl fun h => h.bistWord
theorem Safe.disagree {e : MapEnt} : Safe (s.disagree e) := h.stageCairn
theorem Safe.mergeUnit {e : MapEnt} : Safe (s.mergeUnit e) := by
  unfold State.mergeUnit
  dsimp only
  refine safe_ite ?_ ?_
  · split
    · exact h.disagree
    · exact h.disagree
    · exact h.writeField
    · exact h.writeField
    · exact safe_ite h.writeField h
    · exact h.writeField
    · exact h
  · refine .modMaps ?_
    split
    · exact h.disagree
    · exact h.disagree
    · exact h.writeField
    · exact h.writeField
    · exact safe_ite h.writeField h
    · exact h.writeField
    · exact h
theorem Safe.applyRepairs {es : List MapEnt} : Safe (s.applyRepairs es) := by
  unfold State.applyRepairs
  dsimp only
  refine h.foldl fun h => safe_ite h (safe_ite h ?_)
  split
  · exact h.modBank
  · exact h.testFail
theorem Safe.burnRepairs {bad : List Nat} : Safe (s.burnRepairs bad) := by
  unfold State.burnRepairs
  dsimp only
  exact h.foldl fun h => safe_ite h (safe_ite h.modMaps.writeField.modMaps.modBank h.modMaps.writeField)
theorem Safe.avoidBad {e : MapEnt} : Safe (s.avoidBad e) := by
  unfold State.avoidBad
  dsimp only
  split
  · exact h.setLink
  · exact safe_ite h h.seamWires
  · exact safe_ite h.spareLane h
  · exact h
theorem Safe.mapMerge {e : StepEnv} : Safe (s.mapMerge e).1 := by
  unfold State.mapMerge
  dsimp only
  refine safe_ite_fst ?_ ?_
  · exact h.modMaps
  · refine safe_ite_fst ?_ ?_
    · exact h.modMaps.applyRepairs
    · exact .set (safe_ite (.burnRepairs (.foldl (safe_ite (.stageCairn (safe_ite (.foldl (.foldl (h.modMaps.applyRepairs.modMaps.foldl fun h =>
        h.disagree) fun h => h.mergeUnit) fun h => h.avoidBad) (.writeField (.foldl (.foldl (h.modMaps.applyRepairs.modMaps.foldl fun h =>
        h.disagree) fun h => h.mergeUnit) fun h => h.avoidBad)))) (.foldl (.foldl (h.modMaps.applyRepairs.modMaps.foldl fun h => h.disagree)
        fun h => h.mergeUnit) fun h => h.avoidBad)) fun h => h.fieldRepairs)) (.foldl (safe_ite (.stageCairn (safe_ite (.foldl (.foldl
        (h.modMaps.applyRepairs.modMaps.foldl fun h => h.disagree) fun h => h.mergeUnit) fun h => h.avoidBad) (.writeField (.foldl (.foldl
        (h.modMaps.applyRepairs.modMaps.foldl fun h => h.disagree) fun h => h.mergeUnit) fun h => h.avoidBad)))) (.foldl (.foldl
        (h.modMaps.applyRepairs.modMaps.foldl fun h => h.disagree) fun h => h.mergeUnit) fun h => h.avoidBad)) fun h => h.fieldRepairs))
theorem Safe.partnerCheck {e : StepEnv} : Safe (s.partnerCheck e).1 := by
  unfold State.partnerCheck
  dsimp only
  exact safe_ite_fst h (.modMaps (.foldl (h.modMaps.foldl fun h => h.modMaps.mergeUnit) fun h => h.testFail.modMaps.mergeUnit))
theorem Safe.riggingBase {e : StepEnv} : Safe (s.riggingBase e).1 :=
  safe_ite_fst (safe_ite h (safe_ite h.setDetours h)) (.publishDist (.congr (safe_ite h (safe_ite h.setDetours h))))
theorem Safe.dressStep {e : StepEnv} : Safe (s.dressStep e).1 := h.dress
theorem Safe.strikeStep : Safe s.strikeStep.1 := h.strikeAll.eraseArea.eraseSnapshot
theorem Safe.burnSvn {f : RF} {ty : Nat} {fails : Bool} : Safe (s.burnSvn f ty fails) := safe_ite (safe_ite h.stageCairn h.set) h
theorem Safe.readyStep {e : StepEnv} : Safe (s.readyStep e) :=
  .recount (.goto (.stepDone (safe_ite (.burnSvn (.burnSvn (.modDor (.dorLog (.dorLog (.dorLog (.dorLog (safe_ite h h.modSeq)))))))) (.set
      (.burnSvn (.burnSvn (.modDor (.dorLog (.dorLog (.dorLog (.dorLog (safe_ite h h.modSeq))))))))))))
theorem Safe.stepWork {code : Nat} {e : StepEnv} : Safe (s.stepWork code e).1 := by
  unfold State.stepWork
  split
  · exact h.powerCheck
  · exact h.secureBoot
  · exact h.fwLoad
  · exact h.seamTrain
  · exact h.dramTrain
  · exact h.ropeTrain
  · exact h.bist
  · exact h.mapMerge
  · exact h.partnerCheck
  · exact h.riggingBase
  · exact h.dressStep
  · exact h.strikeStep
  · exact h
end Sys2Proof
end
section
/-! The operations of `Machine/Heart` keep a state safe -/
namespace Sys2Proof
open Machine
variable {s : State} (h : Safe s)
include h
theorem Safe.elapse {t : Nat} : Safe (s.elapse t) := h.congr.endStrike.finishStart
theorem Safe.idle : Safe s.idle := safe_ite h h.elapse
theorem Safe.loseCommand {mb : Nat} : Safe (s.loseCommand mb) := .respond (.set (.modDor (.modHost (.modHost (safe_ite h.congr h)))))
theorem Safe.showLead : Safe s.showLead := by
  unfold State.showLead
  exact h.foldl fun h => h.set
theorem Safe.leadLost : Safe s.leadLost := safe_ite h.startRecovery (safe_ite h.set.modRcv h)
theorem Safe.stepLoss : Safe s.stepLoss := safe_ite (safe_ite h.modSeq h.failStep) h
theorem Safe.recheckWires {g : Nat} {l : Nat} {wires : List Nat} : Safe (s.recheckWires g l wires) := by
  unfold State.recheckWires
  split
  · exact h
  · exact safe_ite h.setLink (h.swapSpares.foldl fun h => h.fieldPut)
theorem Safe.resetMailboxes : Safe s.resetMailboxes := h.dropJobKey.modHost.modDor.set.congr
theorem Safe.killRing {i : Nat} : Safe (s.killRing i) := by
  unfold State.killRing
  dsimp only
  exact .modRing (safe_ite (h.destroyRing.foldl fun h => h.destroyChan) h)
theorem Safe.resetConfig : Safe s.resetConfig := .modHost (safe_ite h h.set)
end Sys2Proof
end
section
/-! The operations of `Machine/Power` keep a state safe -/
namespace Sys2Proof
open Machine
variable {s : State} (h : Safe s)
include h
theorem Safe.modPower {f : PowerSt → PowerSt} : Safe (s.modPower f) := h.congr
theorem Safe.showInput : Safe s.showInput := safe_ite h.sets.raise h.sets
theorem Safe.setPowerStep {n : Nat} : Safe (s.setPowerStep n) := h.set.modPower
theorem Safe.fastCut : Safe s.fastCut := h.setPowerStep.modPower.inc.raise
end Sys2Proof
end
section
/-! The operations of `Machine/Thermal` keep a state safe -/
namespace Sys2Proof
open Machine
variable {s : State} (h : Safe s)
include h
theorem Safe.senseTemp {g : Nat} {t : ℤ} : Safe (s.senseTemp g t) := h.set.modTherm
theorem Safe.dim {g : Nat} : Safe (s.dim g) := h.set.inc
theorem Safe.showGhost {g : Nat} : Safe (s.showGhost g) := by
  unfold State.showGhost
  dsimp only
  exact h.foldl fun h => h.foldl fun h => h.set
theorem Safe.wentDark {g : Nat} : Safe (s.wentDark g) := safe_ite h.inc.raise.failStep h.inc.raise.report
theorem Safe.ghost {g : Nat} : Safe (s.ghost g) := h.clockMark.set.showGhost.wentDark
theorem Safe.cutLink {b : Nat} {d : Nat} : Safe (s.cutLink b d) := by
  unfold State.cutLink
  dsimp only
  split
  · exact h.setLink.modWire.modWire.modXr.inc
  · split
    · exact h.setLink.modWire.modWire
    · exact h.setLink.modWire
theorem Safe.cut {g : Nat} : Safe (s.cut g) := by
  unfold State.cut
  dsimp only
  exact .wentDark (.showGhost (.foldl (h.clockMark.set.foldl fun h => h.modXr) fun h => h.cutLink))
theorem Safe.restoreLinks {g : Nat} : Safe (s.restoreLinks g) := by
  unfold State.restoreLinks
  exact .publishDist (h.foldl fun h => safe_ite h (h.foldl fun h => h.set.inc))
theorem Safe.light {g : Nat} : Safe (s.light g) := by
  unfold State.light
  dsimp only
  exact .raise (.showGhost (.set (.clockMark (h.clockMark.dim.modTherm.foldl fun h => h.strikeReturn))))
theorem Safe.candidate {e : MapEnt} : SafeOpt id (s.candidate e) := .ite .none (.some h.writeField)
theorem Safe.requalUnits {b : List Byte} {n : Nat} : Safe (s.requalUnits b n).1 := by
  refine h.foldl_fst fun h => ?_
  dsimp only
  split
  · next ht => exact h.candidate _ ht
  · exact h
theorem Safe.requalEnds {q : Nat × Nat × Option Nat} {st : St} : Safe (s.requalEnds q st) := by
  unfold State.requalEnds
  dsimp only
  split
  · exact h.modHost.settleDefer
  · exact h.modHost.respond
theorem Safe.returnRegion {g : Nat} {fails : List RehearsalFail} : Safe (s.returnRegion g fails) := by
  unfold State.returnRegion
  dsimp only
  exact .recount (.dress (.restoreLinks (safe_ite h.modPower.modMaps.set.light (h.modPower.modMaps.set.foldl fun h => h.strikeReturn))))
end Sys2Proof
end
section
/-! The operations of `Machine/DorCmd` keep a state safe -/
namespace Sys2Proof
open Machine
variable {s : State} (h : Safe s)
include h
theorem Safe.enrol : Safe s.enrol := safe_ite h.set (safe_ite h.set (safe_ite h.set (safe_ite h.set h.set.modDor)))
theorem Safe.setPolicy : Safe s.setPolicy := safe_ite h.set (safe_ite h.set (safe_ite h.set h.set.modDor))
theorem Safe.setQueue {q : List EvReq} : Safe (s.setQueue q) := h.modDor.set
theorem Safe.unlock {scope : Nat} : Safe (s.unlock scope) :=
  h.dorLog.resetRope.strikeAll.eraseSnapshot.eraseArea.eraseArea.dropJobKey.modDor.set.sets
end Sys2Proof
end
section
/-! The operations of `Machine/Mgmt` keep a state safe -/
namespace Sys2Proof
open Machine
variable {s : State} (h : Safe s)
include h
theorem Safe.served {answer : List Byte} : Safe (s.served answer) := h.wrap.emit
theorem Safe.oobErr {answer : List Byte} : Safe (s.oobErr answer) := h.inc.emit
theorem Safe.stage {r : TelRec} : Safe (s.stage r) := safe_ite h.request.setStaged h.inc.raise
theorem Safe.stageKind {kind : Nat} {count : Nat} {die : Nat} {stamp : Nat} {items : List Byte} : Safe (s.stageKind kind count die stamp items) :=
  h.stage
theorem Safe.sampleChannels {t : Nat} : Safe (s.sampleChannels t) := by
  unfold State.sampleChannels
  dsimp only
  exact h.foldl fun h => h.stageKind
theorem Safe.sampleHub {t : Nat} : Safe (s.sampleHub t) := h.stageKind
theorem Safe.sampleRope {t : Nat} : Safe (s.sampleRope t) := h.stageKind
theorem Safe.sampleDrops {t : Nat} : Safe (s.sampleDrops t) := safe_ite h h.congr.stageKind
theorem Safe.sampleCairn {t : Nat} : Safe (s.sampleCairn t) := safe_ite h h.congr.stageKind
end Sys2Proof
end
section
/-! The operations of `Machine/Pins` keep a state safe -/
namespace Sys2Proof
open Machine
variable {s : State} (h : Safe s)
include h
theorem Safe.modPins {f : PinSt → PinSt} : Safe (s.modPins f) := h.congr
theorem Safe.offState : Safe s.offState := .sets h.erased
theorem Safe.goOff : Safe s.goOff := safe_ite h h.offState
end Sys2Proof
end
section
/-! The operations of `Machine/Bar` keep a state safe -/
namespace Sys2Proof
open Machine
variable {s : State} (h : Safe s)
include h
theorem Safe.barStore {off : Nat} {v : Nat} {m : Nat} : Safe (s.barStore off v m) := by
  unfold State.barStore
  dsimp only
  split
  · exact h.setReg
  · exact safe_ite h.inc h.setReg
  · exact h
  · exact safe_ite h.setReg h
  · exact safe_ite h h.regWrite
  · exact h.badAccess
theorem Safe.answer {a : BarAccess} {o : Out} : Safe (s.answer a o) := safe_ite h h.emit
theorem Safe.barAccess {a : BarAccess} : Safe (s.barAccess a) := by
  unfold State.barAccess
  dsimp only
  split
  · exact safe_ite h h.answer
  · exact safe_ite h.badAccess h.badAccess.answer
  · exact safe_ite h h.answer
  · exact safe_ite h.barStore h.answer
theorem Safe.hostWrite {off : Nat} {value : Word64} : Safe (s.hostWrite off value) := h.barAccess
end Sys2Proof
end
section
namespace Sys2Proof
open Machine
/-- What a command answers from `s`: on a unit of the panel (`ok`) a next state, a safe one when `s` is; else the stop that
names no unit. -/
def RunsSafely (ok : Bool) (s : State) (r : Res) : Prop :=
  (ok = true → ∃ t, r = .next t ∧ (Safe s → Safe t)) ∧ (ok = false → ∃ n, r = .fault (.noSuchUnit n))
variable {s : State}
theorem runs_next {t : State} (hf : Safe s → Safe t) : RunsSafely true s (.next t) := ⟨fun _ => ⟨t, rfl, hf⟩, nofun⟩
section
variable {n : Nat} {f : State → State}
theorem runs_onUnit {ok : Bool} (hf : ∀ {s}, Safe s → Safe (f s)) : RunsSafely ok s (onUnit ok n s f) := by
  cases ok
  · exact ⟨nofun, fun _ => ⟨n, rfl⟩⟩
  · exact runs_next hf
theorem runs_onUnit_and {b : Bool} {p : Prop} [Decidable p] (hf : ∀ {s}, Safe s → Safe (f s)) : RunsSafely (b && decide p) s (onUnit (decide (b =
    true ∧ p)) n s f) := by
  rw [Bool.decide_and, Bool.decide_eq_true]
  exact runs_onUnit hf
theorem runs_onUnit_both {p q : Prop} [Decidable p] [Decidable q] (hf : ∀ {s}, Safe s → Safe (f s)) :
    RunsSafely (decide p && decide q) s (onUnit (decide (p ∧ q)) n s f) := by
  rw [Bool.decide_and]
  exact runs_onUnit hf
theorem runs_onUnit_all {b : Bool} {p q : Prop} [Decidable p] [Decidable q] (hf : ∀ {s}, Safe s → Safe (f s)) :
    RunsSafely (b && decide p && decide q) s (onUnit (decide (b = true ∧ p ∧ q)) n s f) := by
  rw [Bool.decide_and, Bool.decide_and, Bool.decide_eq_true, ← Bool.and_assoc]
  exact runs_onUnit hf
theorem runs_onCell {c : CellAddr} (hf : ∀ {s}, Safe s → Safe (f s)) : RunsSafely (cellValid c.toNat) s (onCell c s f) := runs_onUnit hf
theorem runs_onBlk {b : Nat} (hf : ∀ {s}, Safe s → Safe (f s)) : RunsSafely (blkValid b) s (onBlk b s f) := runs_onUnit hf
theorem runs_onRegion {g : Nat} (hf : ∀ {s}, Safe s → Safe (f s)) : RunsSafely (regionValid g) s (onRegion g s f) := runs_onUnit hf
theorem runs_onPort {c : CellAddr} (hf : ∀ {s}, Safe s → Safe (f s)) : RunsSafely (cellValid c.toNat) s (onPort c s f) := runs_onCell fun h =>
    h.when hf
theorem runs_onM {c : CellAddr} (hf : ∀ {s}, Safe s → Safe (f s)) : RunsSafely (cellIs .m c) s (onM c s f) := runs_onUnit_and fun h => h.when hf
theorem runs_seqRow {code : Nat} {value : Word64} (hf : ∀ {s}, Safe s → Safe (f s)) : RunsSafely true s (seqRow code value s f) := runs_next
    fun h => safe_ite (hf h) h
end
theorem runs_porterRow {p : Nat} {mine : Desc → Bool} {ev : PorterEv} : RunsSafely (decide (p < 64)) s (porterRow p mine ev s) := by
  refine runs_onUnit fun h => safe_ite ?_ h
  dsimp only
  split
  · exact safe_ite h.porterHead.porterGo h.porterHead
  · exact h.porterHead
theorem runs_sRow {op : Nat} {c : CellAddr} {hw : SHw} {f : Nat → State → State} (hf : ∀ {x s}, Safe s → Safe (f x s)) :
    RunsSafely (cellIs .s c) s (sRow op c hw s f) := by
  unfold cellIs sRow
  dsimp only
  refine runs_onUnit_and fun h => ?_
  split
  · refine safe_ite (safe_ite h.storeFault ?_) h
    split
    · exact h.lockstepFault
    · exact safe_ite (hf h) h.sDone
  · exact h
theorem runs_vRow {op : Nat} {c : CellAddr} {hw : VHw} {f : Nat → State → State} (hf : ∀ {x s}, Safe s → Safe (f x s)) :
    RunsSafely (cellIs .v c) s (vRow op c hw s f) := by
  refine runs_onUnit_and fun h => ?_
  split
  · exact safe_ite (safe_ite h.storeFault (hf h)) h
  · exact h
theorem runs_stagerRow {t : Nat} {op : Nat} {f : Ticket → State → State} (hf : ∀ {x s}, Safe s → Safe (f x s)) :
    RunsSafely true s (stagerRow t op s f) := by
  refine runs_next fun h => ?_
  dsimp only
  split
  · exact h
  · refine safe_ite (hf h) ?_
    split
    · exact h.modTicket
    · exact safe_ite h.modTicket (hf h.modTicket.modKv)
theorem runs_packetRow {c : CellAddr} {mine : Nat → Bool} {f : Packet → List Gran → State → State}
    (hf : ∀ {x y s}, Safe s → Safe (f x y s)) : RunsSafely (cellValid c.toNat) s (packetRow c s mine f) := by
  refine runs_onPort fun h => ?_
  dsimp only
  split
  · refine safe_ite ?_ h
    split
    · exact hf (safe_ite h.modPort.checkPacket h.modPort.checkPacket.owe)
    · exact h.modPort.checkPacket.owe
  · exact h
theorem runs_nymakRow {mb : Nat} {r : NyReq} {mine : Bool} {f : State → List Byte → Ans} (hf : ∀ {s y}, Safe s → SafeAns (f s y)) :
    RunsSafely (decide (mb < 8)) s (nymakRow mb r mine s f) := runs_onUnit fun h => safe_ite (h.nymakGo fun h => hf h) h
theorem runs_ropeRow {op : Nat} {mb : Nat} {r : NyReq} {f : State → List Byte → Ans} (hf : ∀ {s y}, Safe s → SafeAns (f s y)) :
    RunsSafely (decide (mb < 8)) s (ropeRow op mb r s f) := runs_nymakRow fun h => safeAns_ite h (hf h)
theorem runs_registerWrite {a : BarAccess} : RunsSafely (decide (a.off < 0x4000000)) s (execRegisterWrite a s) := runs_onUnit fun h => h.barAccess
theorem runs_eventEnableWrite {value : Word64} : RunsSafely true s (execEventEnableWrite value s) := runs_next fun h => h.hostWrite
theorem runs_sweepCtrlWrite {g : Nat} {value : Word64} : RunsSafely (regionValid g) s (execSweepCtrlWrite g value s) := runs_onRegion fun h =>
    h.hostWrite
theorem runs_mcInjectArm {c : CellAddr} {value : Word64} : RunsSafely (cellIs .m c) s (execMcInjectArm c value s) := runs_onUnit_and fun h =>
    h.hostWrite
theorem runs_vcInjectArm {c : CellAddr} {value : Word64} : RunsSafely (cellIs .v c) s (execVcInjectArm c value s) := runs_onUnit_and fun h =>
    h.hostWrite
theorem runs_arbApply {value : Word64} : RunsSafely true s (execArbApply value s) := runs_next fun h => h.hostWrite
theorem runs_faultReportArrival {idx : Nat} : RunsSafely true s (execFaultReportArrival idx s) := by
  unfold execFaultReportArrival
  dsimp only
  split
  · exact runs_next fun h => h
  · refine runs_next fun h => safe_ite (safe_ite (.fenceRoute (safe_ite h.congr (safe_ite h.congr.fieldAdd.recount h.congr.fieldAdd.recount)))
      (safe_ite h.congr (safe_ite h.congr.fieldAdd.recount h.congr.fieldAdd.recount))) ?_
    split
    · refine safe_ite ?_ ?_
      · exact .fenceRoute (safe_ite h.congr (safe_ite h.congr.fieldAdd.recount h.congr.fieldAdd.recount))
      · exact .publishDist (safe_ite h.congr (safe_ite h.congr.fieldAdd.recount h.congr.fieldAdd.recount))
    · exact .regionGone (safe_ite h.congr (safe_ite h.congr.fieldAdd.recount h.congr.fieldAdd.recount))
    · refine safe_ite ?_ ?_
      · exact .regionGone (safe_ite h.congr (safe_ite h.congr.fieldAdd.recount h.congr.fieldAdd.recount))
      · exact safe_ite h.congr (safe_ite h.congr.fieldAdd.recount h.congr.fieldAdd.recount)
    · exact safe_ite h.congr (safe_ite h.congr.fieldAdd.recount h.congr.fieldAdd.recount)
    · refine safe_ite ?_ ?_
      · exact .startRecovery (safe_ite h.congr (safe_ite h.congr.fieldAdd.recount h.congr.fieldAdd.recount))
      · exact safe_ite h.congr (safe_ite h.congr.fieldAdd.recount h.congr.fieldAdd.recount)
theorem runs_fenceRemove {c : CellAddr} {block : Bool} : RunsSafely (cellValid c.toNat) s (execFenceRemove c block s) :=
  runs_onCell fun h => safe_ite h (safe_ite (safe_ite h.unfenceBlock h) (safe_ite h h.unfence))
theorem runs_mDescriptorDecode {c : DescRead} : RunsSafely (cellIs .m c.cell) s (execMDescriptorDecode c s) := by
  unfold execMDescriptorDecode
  dsimp only
  refine runs_onM fun h => ?_
  split
  · refine safe_ite ?_ ?_
    · exact h.postCues
    · refine safe_ite ?_ ?_
      · exact h.postCues.storeFault
      · refine safe_ite ?_ ?_
        · exact h.postCues.waitRecv
        · refine safe_ite ?_ ?_
          · exact safe_ite h.postCues.readCue.takeCue h.postCues
          · exact .mProgress (.startBlock (safe_ite h.postCues.readCue.takeCue h.postCues))
  · exact h.postCues
theorem runs_kStep {c : CellAddr} {hw : MHw} : RunsSafely (cellIs .m c) s (execKStep c hw s) := by
  unfold execKStep
  dsimp only
  refine runs_onM fun h => ?_
  split
  · refine safe_ite ?_ ?_
    · exact h
    · refine safe_ite ?_ ?_
      · exact h.waitRecv
      · refine safe_ite ?_ ?_
        · split
          · split
            · exact safe_ite h.sendWait.engineWait h
            · exact h
          · exact h
        · exact h.kStep
  · exact h
theorem runs_kStepCheck {c : CellAddr} : RunsSafely (cellIs .m c) s (execKStepCheck c s) := by
  unfold execKStepCheck
  dsimp only
  refine runs_onM fun h => ?_
  split
  · exact safe_ite h.runChecks h
  · exact h
theorem runs_replayDone {c : CellAddr} {hw : MHw} : RunsSafely (cellIs .m c) s (execReplayDone c hw s) := by
  unfold execReplayDone
  dsimp only
  refine runs_onM fun h => ?_
  split
  · exact safe_ite h.replay h
  · exact h
theorem runs_drainRow {c : CellRead} : RunsSafely (cellIs .m c.cell) s (execDrainRow c s) := by
  unfold execDrainRow
  dsimp only
  refine runs_onM fun h => ?_
  split
  · split
    · exact safe_ite (safe_ite h.epSend.rowGone.chainEnd h.epSend.engineWait) (safe_ite h.drainBank h.drainBank.rowGone.chainEnd)
    · exact h
  · exact h.postCues.chainEnd
theorem runs_beatStart {c : StoreRead} : RunsSafely (cellValid c.cell.toNat) s (execBeatStart c s) :=
  runs_onCell fun h => safe_ite (safe_ite (.storeFault (safe_ite h.dropLoadGrants h)) (safe_ite (.beatStart (safe_ite (.sceneLoad (safe_ite
      h.dropLoadGrants h)) (safe_ite h.dropLoadGrants h))) (safe_ite (.sceneLoad (safe_ite h.dropLoadGrants h)) (safe_ite h.dropLoadGrants h)))) h
theorem runs_vnop {c : CellAddr} {hw : VHw} : RunsSafely (cellIs .v c) s (execVnop c hw s) := runs_vRow fun h => h.vDone
theorem runs_vadd {c : CellAddr} {hw : VHw} : RunsSafely (cellIs .v c) s (execVadd c hw s) := runs_vRow fun h => h.vLanes
theorem runs_vsub {c : CellAddr} {hw : VHw} : RunsSafely (cellIs .v c) s (execVsub c hw s) := runs_vRow fun h => h.vLanes
theorem runs_vmul {c : CellAddr} {hw : VHw} : RunsSafely (cellIs .v c) s (execVmul c hw s) := runs_vRow fun h => h.vLanes
theorem runs_vfma {c : CellAddr} {hw : VHw} : RunsSafely (cellIs .v c) s (execVfma c hw s) := runs_vRow fun h => h.vLanes
theorem runs_vmax {c : CellAddr} {hw : VHw} : RunsSafely (cellIs .v c) s (execVmax c hw s) := runs_vRow fun h => h.vLanes
theorem runs_vmin {c : CellAddr} {hw : VHw} : RunsSafely (cellIs .v c) s (execVmin c hw s) := runs_vRow fun h => h.vLanes
theorem runs_vabs {c : CellAddr} {hw : VHw} : RunsSafely (cellIs .v c) s (execVabs c hw s) := runs_vRow fun h => h.vLanes
theorem runs_vneg {c : CellAddr} {hw : VHw} : RunsSafely (cellIs .v c) s (execVneg c hw s) := runs_vRow fun h => h.vLanes
theorem runs_vcmp {c : CellAddr} {hw : VHw} : RunsSafely (cellIs .v c) s (execVcmp c hw s) := runs_vRow fun h => h.vChecked fun h => h.vDone
theorem runs_vsel {c : CellAddr} {hw : VHw} : RunsSafely (cellIs .v c) s (execVsel c hw s) := runs_vRow fun h => h.vChecked fun h => h.vDone
theorem runs_vmov {c : CellAddr} {hw : VHw} : RunsSafely (cellIs .v c) s (execVmov c hw s) := runs_vRow fun h => h.vLanes
theorem runs_viadd {c : CellAddr} {hw : VHw} : RunsSafely (cellIs .v c) s (execViadd c hw s) := runs_vRow fun h => h.vLanes
theorem runs_visub {c : CellAddr} {hw : VHw} : RunsSafely (cellIs .v c) s (execVisub c hw s) := runs_vRow fun h => h.vLanes
theorem runs_vimul {c : CellAddr} {hw : VHw} : RunsSafely (cellIs .v c) s (execVimul c hw s) := runs_vRow fun h => h.vLanes
theorem runs_vand {c : CellAddr} {hw : VHw} : RunsSafely (cellIs .v c) s (execVand c hw s) := runs_vRow fun h => h.vLanes
theorem runs_vor {c : CellAddr} {hw : VHw} : RunsSafely (cellIs .v c) s (execVor c hw s) := runs_vRow fun h => h.vLanes
theorem runs_vxor {c : CellAddr} {hw : VHw} : RunsSafely (cellIs .v c) s (execVxor c hw s) := runs_vRow fun h => h.vLanes
theorem runs_vshl {c : CellAddr} {hw : VHw} : RunsSafely (cellIs .v c) s (execVshl c hw s) := runs_vRow fun h => h.vLanes
theorem runs_vshr {c : CellAddr} {hw : VHw} : RunsSafely (cellIs .v c) s (execVshr c hw s) := runs_vRow fun h => h.vLanes
theorem runs_vsar {c : CellAddr} {hw : VHw} : RunsSafely (cellIs .v c) s (execVsar c hw s) := runs_vRow fun h => h.vLanes
theorem runs_vcvt {c : CellAddr} {hw : VHw} : RunsSafely (cellIs .v c) s (execVcvt c hw s) := runs_vRow fun h => h.vChecked fun h => h.vDone
theorem runs_vcvtw {c : CellAddr} {hw : VHw} : RunsSafely (cellIs .v c) s (execVcvtw c hw s) := runs_vRow fun h => h.vChecked fun h => h.vDone
theorem runs_vqmx {c : CellAddr} {hw : VHw} : RunsSafely (cellIs .v c) s (execVqmx c hw s) := runs_vRow fun h => h.vQuant
theorem runs_vqb {c : CellAddr} {hw : VHw} : RunsSafely (cellIs .v c) s (execVqb c hw s) := runs_vRow fun h => h.vQuant
theorem runs_vdq {c : CellAddr} {hw : VHw} : RunsSafely (cellIs .v c) s (execVdq c hw s) := runs_vRow fun h => h.vChecked fun h => h.vDone
theorem runs_vitof {c : CellAddr} {hw : VHw} : RunsSafely (cellIs .v c) s (execVitof c hw s) := runs_vRow fun h => h.vLanes
theorem runs_vftoi {c : CellAddr} {hw : VHw} : RunsSafely (cellIs .v c) s (execVftoi c hw s) := runs_vRow fun h => h.vChecked fun h => h.vDone
theorem runs_vexp2 {c : CellAddr} {hw : VHw} : RunsSafely (cellIs .v c) s (execVexp2 c hw s) := runs_vRow fun h => h.vFn
theorem runs_vlog2 {c : CellAddr} {hw : VHw} : RunsSafely (cellIs .v c) s (execVlog2 c hw s) := runs_vRow fun h => h.vFn
theorem runs_vrcp {c : CellAddr} {hw : VHw} : RunsSafely (cellIs .v c) s (execVrcp c hw s) := runs_vRow fun h => h.vFn
theorem runs_vrsqrt {c : CellAddr} {hw : VHw} : RunsSafely (cellIs .v c) s (execVrsqrt c hw s) := runs_vRow fun h => h.vFn
theorem runs_vtanh {c : CellAddr} {hw : VHw} : RunsSafely (cellIs .v c) s (execVtanh c hw s) := runs_vRow fun h => h.vFn
theorem runs_vsigm {c : CellAddr} {hw : VHw} : RunsSafely (cellIs .v c) s (execVsigm c hw s) := runs_vRow fun h => h.vFn
theorem runs_vgelu {c : CellAddr} {hw : VHw} : RunsSafely (cellIs .v c) s (execVgelu c hw s) := runs_vRow fun h => h.vFn
theorem runs_vrsum {c : CellAddr} {hw : VHw} : RunsSafely (cellIs .v c) s (execVrsum c hw s) := runs_vRow fun h => h.vReduce
theorem runs_vrmax {c : CellAddr} {hw : VHw} : RunsSafely (cellIs .v c) s (execVrmax c hw s) := runs_vRow fun h => h.vReduce
theorem runs_vrmin {c : CellAddr} {hw : VHw} : RunsSafely (cellIs .v c) s (execVrmin c hw s) := runs_vRow fun h => h.vReduce
theorem runs_vrargmax {c : CellAddr} {hw : VHw} : RunsSafely (cellIs .v c) s (execVrargmax c hw s) := runs_vRow fun h => h.vReduce
theorem runs_vrisum {c : CellAddr} {hw : VHw} : RunsSafely (cellIs .v c) s (execVrisum c hw s) := runs_vRow fun h => h.vReduce
theorem runs_vperm {c : CellAddr} {hw : VHw} : RunsSafely (cellIs .v c) s (execVperm c hw s) := runs_vRow fun h => h.vMove
theorem runs_vrot {c : CellAddr} {hw : VHw} : RunsSafely (cellIs .v c) s (execVrot c hw s) := runs_vRow fun h => h.vMove
theorem runs_vbcast {c : CellAddr} {hw : VHw} : RunsSafely (cellIs .v c) s (execVbcast c hw s) := runs_vRow fun h => h.vMove
theorem runs_vsplat {c : CellAddr} {hw : VHw} : RunsSafely (cellIs .v c) s (execVsplat c hw s) := runs_vRow fun h => h.vChecked fun h => h.vDone
theorem runs_vext {c : CellAddr} {hw : VHw} : RunsSafely (cellIs .v c) s (execVext c hw s) := runs_vRow fun h => h.vChecked fun h => h.vDone
theorem runs_vmlog {c : CellAddr} {hw : VHw} : RunsSafely (cellIs .v c) s (execVmlog c hw s) := runs_vRow fun h => h.vDone
theorem runs_vld {c : CellAddr} {hw : VHw} : RunsSafely (cellIs .v c) s (execVld c hw s) := by
  refine runs_vRow fun {i s} h => safe_ite h.programFault ?_
  cases s.bankCause c.toNat (vAddress (s.vst c.toNat) i) 256 32
  · exact h.readRun.vDone
  · exact h.programFault
theorem runs_vst {c : CellAddr} {hw : VHw} : RunsSafely (cellIs .v c) s (execVst c hw s) := by
  refine runs_vRow fun {i s} h => safe_ite h.programFault ?_
  cases s.bankCause c.toNat (vAddress (s.vst c.toNat) i) 256 32
  · exact .vDone (h.foldl fun h => h.vStoreGran)
  · exact h.programFault
theorem runs_vgath {c : CellAddr} {hw : VHw} : RunsSafely (cellIs .v c) s (execVgath c hw s) := by
  refine runs_vRow fun h => ?_
  dsimp only
  split
  · exact h.programFault
  · refine .vResidue (h.foldl_snd fun h => ?_) fun h => h.vDone
    dsimp only
    exact h.read32
theorem runs_vscat {c : CellAddr} {hw : VHw} : RunsSafely (cellIs .v c) s (execVscat c hw s) := by
  unfold execVscat
  dsimp only
  refine runs_vRow fun h => ?_
  split
  · exact h.programFault
  · exact h.inc.vResidue fun h => .vDone (h.foldl fun h => h.writePart)
theorem runs_vrecv {c : CellAddr} {hw : VHw} : RunsSafely (cellIs .v c) s (execVrecv c hw s) := by
  unfold execVrecv
  dsimp only
  refine runs_vRow fun h => ?_
  split
  · exact h.programFault
  · exact safe_ite h.waitRecv (safe_ite h.programFault (safe_ite h.readHead h.readHead.consume.vDone))
theorem runs_vsend {c : CellAddr} {hw : VHw} : RunsSafely (cellIs .v c) s (execVsend c hw s) := by
  unfold execVsend
  dsimp only
  refine runs_vRow fun h => ?_
  split
  · exact h.programFault
  · exact safe_ite h.epSend.vDone h.epSend.engineWait
theorem runs_vcuew {c : CellAddr} {hw : VHw} : RunsSafely (cellIs .v c) s (execVcuew c hw s) := by
  unfold execVcuew
  dsimp only
  refine runs_vRow fun h => ?_
  split
  · exact h.programFault
  · exact safe_ite h.waitRecv (safe_ite h.readCue h.readCue.takeCue.vDone)
theorem runs_vcuep {c : CellAddr} {hw : VHw} : RunsSafely (cellIs .v c) s (execVcuep c hw s) := by
  unfold execVcuep
  dsimp only
  refine runs_vRow fun h => safe_ite h.programFault ?_
  split
  · exact h.programFault
  · exact safe_ite h.cueSend.vDone h.cueSend.engineWait
theorem runs_vamov {c : CellAddr} {hw : VHw} : RunsSafely (cellIs .v c) s (execVamov c hw s) := runs_vRow fun h => h.vResidue fun h => h.vDone
theorem runs_vaadd {c : CellAddr} {hw : VHw} : RunsSafely (cellIs .v c) s (execVaadd c hw s) := runs_vRow fun h => h.vResidue fun h => h.vDone
theorem runs_vloop {c : CellAddr} {hw : VHw} : RunsSafely (cellIs .v c) s (execVloop c hw s) :=
  runs_vRow fun h => safe_ite h.programFault (safe_ite h.modCell.engineAt (safe_ite h.programFault h.modCell.engineAt))
theorem runs_vbr {c : CellAddr} {hw : VHw} : RunsSafely (cellIs .v c) s (execVbr c hw s) := runs_vRow fun h => h.vJump
theorem runs_vbnz {c : CellAddr} {hw : VHw} : RunsSafely (cellIs .v c) s (execVbnz c hw s) :=
  runs_vRow fun h => safe_ite h.programFault (safe_ite h.vJump h.vDone)
theorem runs_vend {c : CellAddr} {hw : VHw} : RunsSafely (cellIs .v c) s (execVend c hw s) := runs_vRow fun h => h.modCell.beatEnd
theorem runs_sNop {c : CellAddr} {hw : SHw} : RunsSafely (cellIs .s c) s (execSNop c hw s) := runs_sRow fun h => h.sDone
theorem runs_sAdd {c : CellAddr} {hw : SHw} : RunsSafely (cellIs .s c) s (execSAdd c hw s) := runs_sRow fun h => h.sAlu
theorem runs_sSub {c : CellAddr} {hw : SHw} : RunsSafely (cellIs .s c) s (execSSub c hw s) := runs_sRow fun h => h.sAlu
theorem runs_sAnd {c : CellAddr} {hw : SHw} : RunsSafely (cellIs .s c) s (execSAnd c hw s) := runs_sRow fun h => h.sAlu
theorem runs_sOr {c : CellAddr} {hw : SHw} : RunsSafely (cellIs .s c) s (execSOr c hw s) := runs_sRow fun h => h.sAlu
theorem runs_sXor {c : CellAddr} {hw : SHw} : RunsSafely (cellIs .s c) s (execSXor c hw s) := runs_sRow fun h => h.sAlu
theorem runs_shl {c : CellAddr} {hw : SHw} : RunsSafely (cellIs .s c) s (execShl c hw s) := runs_sRow fun h => h.sAlu
theorem runs_shr {c : CellAddr} {hw : SHw} : RunsSafely (cellIs .s c) s (execShr c hw s) := runs_sRow fun h => h.sAlu
theorem runs_sar {c : CellAddr} {hw : SHw} : RunsSafely (cellIs .s c) s (execSar c hw s) := runs_sRow fun h => h.sAlu
theorem runs_sMul {c : CellAddr} {hw : SHw} : RunsSafely (cellIs .s c) s (execSMul c hw s) := runs_sRow fun h => h.sAlu
theorem runs_mulhu {c : CellAddr} {hw : SHw} : RunsSafely (cellIs .s c) s (execMulhu c hw s) := runs_sRow fun h => h.sAlu
theorem runs_sMin {c : CellAddr} {hw : SHw} : RunsSafely (cellIs .s c) s (execSMin c hw s) := runs_sRow fun h => h.sAlu
theorem runs_sMax {c : CellAddr} {hw : SHw} : RunsSafely (cellIs .s c) s (execSMax c hw s) := runs_sRow fun h => h.sAlu
theorem runs_minu {c : CellAddr} {hw : SHw} : RunsSafely (cellIs .s c) s (execMinu c hw s) := runs_sRow fun h => h.sAlu
theorem runs_maxu {c : CellAddr} {hw : SHw} : RunsSafely (cellIs .s c) s (execMaxu c hw s) := runs_sRow fun h => h.sAlu
theorem runs_addi {c : CellAddr} {hw : SHw} : RunsSafely (cellIs .s c) s (execAddi c hw s) := runs_sRow fun h => h.sUnary
theorem runs_andi {c : CellAddr} {hw : SHw} : RunsSafely (cellIs .s c) s (execAndi c hw s) := runs_sRow fun h => h.sUnary
theorem runs_ori {c : CellAddr} {hw : SHw} : RunsSafely (cellIs .s c) s (execOri c hw s) := runs_sRow fun h => h.sUnary
theorem runs_xori {c : CellAddr} {hw : SHw} : RunsSafely (cellIs .s c) s (execXori c hw s) := runs_sRow fun h => h.sUnary
theorem runs_shli {c : CellAddr} {hw : SHw} : RunsSafely (cellIs .s c) s (execShli c hw s) := runs_sRow fun h => h.sUnary
theorem runs_shri {c : CellAddr} {hw : SHw} : RunsSafely (cellIs .s c) s (execShri c hw s) := runs_sRow fun h => h.sUnary
theorem runs_sari {c : CellAddr} {hw : SHw} : RunsSafely (cellIs .s c) s (execSari c hw s) := runs_sRow fun h => h.sUnary
theorem runs_seti {c : CellAddr} {hw : SHw} : RunsSafely (cellIs .s c) s (execSeti c hw s) := runs_sRow fun h => h.sDone
theorem runs_appi {c : CellAddr} {hw : SHw} : RunsSafely (cellIs .s c) s (execAppi c hw s) := runs_sRow fun h => h.sDone
theorem runs_cmp {c : CellAddr} {hw : SHw} : RunsSafely (cellIs .s c) s (execCmp c hw s) := runs_sRow fun h => safe_ite h.programFault h.sDone
theorem runs_cmpi {c : CellAddr} {hw : SHw} : RunsSafely (cellIs .s c) s (execCmpi c hw s) := runs_sRow fun h => safe_ite h.programFault h.sDone
theorem runs_plog {c : CellAddr} {hw : SHw} : RunsSafely (cellIs .s c) s (execPlog c hw s) := runs_sRow fun h => h.sDone
theorem runs_sLd {c : CellAddr} {hw : SHw} : RunsSafely (cellIs .s c) s (execSLd c hw s) := runs_sRow fun h => h.sLoad
theorem runs_ldw {c : CellAddr} {hw : SHw} : RunsSafely (cellIs .s c) s (execLdw c hw s) := runs_sRow fun h => h.sLoad
theorem runs_sSt {c : CellAddr} {hw : SHw} : RunsSafely (cellIs .s c) s (execSSt c hw s) := runs_sRow fun h => h.sStore
theorem runs_stw {c : CellAddr} {hw : SHw} : RunsSafely (cellIs .s c) s (execStw c hw s) := runs_sRow fun h => h.sStore
theorem runs_fadd {c : CellAddr} {hw : SHw} : RunsSafely (cellIs .s c) s (execFadd c hw s) := runs_sRow fun h => h.sAlu
theorem runs_fmul {c : CellAddr} {hw : SHw} : RunsSafely (cellIs .s c) s (execFmul c hw s) := runs_sRow fun h => h.sAlu
theorem runs_fcmp {c : CellAddr} {hw : SHw} : RunsSafely (cellIs .s c) s (execFcmp c hw s) := runs_sRow fun h => safe_ite h.programFault h.sDone
theorem runs_fcvt {c : CellAddr} {hw : SHw} : RunsSafely (cellIs .s c) s (execFcvt c hw s) := runs_sRow fun h => h.sUnary
theorem runs_br {c : CellAddr} {hw : SHw} : RunsSafely (cellIs .s c) s (execBr c hw s) := runs_sRow fun h => h.sJump
theorem runs_brl {c : CellAddr} {hw : SHw} : RunsSafely (cellIs .s c) s (execBrl c hw s) := runs_sRow fun h => h.modCell.sJump
theorem runs_jr {c : CellAddr} {hw : SHw} : RunsSafely (cellIs .s c) s (execJr c hw s) :=
  runs_sRow fun h => safe_ite h.programFault (safe_ite h.programFault h.engineAt)
theorem runs_cue {c : CellAddr} {hw : SHw} : RunsSafely (cellIs .s c) s (execCue c hw s) := by
  unfold execCue
  dsimp only
  refine runs_sRow fun h => safe_ite h.programFault ?_
  split
  · exact h.programFault
  · exact safe_ite h.cueSend.sDone h.cueSend.engineWait
theorem runs_cuew {c : CellAddr} {hw : SHw} : RunsSafely (cellIs .s c) s (execCuew c hw s) := by
  unfold execCuew
  dsimp only
  refine runs_sRow fun h => ?_
  split
  · exact h.programFault
  · exact safe_ite h.waitRecv (safe_ite h.readCue h.readCue.takeCue.sDone)
theorem runs_sSend {c : CellAddr} {hw : SHw} : RunsSafely (cellIs .s c) s (execSSend c hw s) := by
  refine runs_sRow fun {i s} h => safe_ite h.programFault ?_
  cases s.sendCause c.toNat (sEp i) ((s.sst c.toNat).reg (sGd i))
  · cases s.bankCause c.toNat ((s.sst c.toNat).reg (sCa i)) (32 * (s.sst c.toNat).reg (sGd i)) 32
    · exact safe_ite (safe_ite h.readRun h.readRun.epSend.sDone) h.epSend.engineWait
    · exact h.programFault
  · exact h.programFault
theorem runs_sRecv {c : CellAddr} {hw : SHw} : RunsSafely (cellIs .s c) s (execSRecv c hw s) := by
  refine runs_sRow fun {i s} h => safe_ite h.programFault ?_
  cases s.recvCause c.toNat (sEp i) false
  · cases s.bankCause c.toNat ((s.sst c.toNat).reg (sCa i)) 0 32
    · refine safe_ite h.waitRecv ?_
      cases s.bankCause c.toNat ((s.sst c.toNat).reg (sCa i)) (32 * s.headLen c.toNat (sEp i)) 32
      · exact safe_ite h.readHead h.readHead.consume.writeWords.sDone
      · exact h.programFault
    · exact h.programFault
  · exact h.programFault
theorem runs_psel {c : CellAddr} {hw : SHw} : RunsSafely (cellIs .s c) s (execPsel c hw s) := by
  refine runs_sRow fun {i s} h => safe_ite h.programFault (safe_ite h.programFault ?_)
  cases s.recvCause c.toNat (sEp i) false
  · cases s.recvCause c.toNat (sEp i + 1) false
    · cases s.bankCause c.toNat ((s.sst c.toNat).reg (sCa i)) 0 32
      · simp only
        refine safe_ite h.waitRecv (safe_ite h.waitRecv ?_)
        cases s.bankCause c.toNat ((s.sst c.toNat).reg (sCa i)) (32 * s.headLen c.toNat
          (if (s.sst c.toNat).pred (bits (sFunc i) 0 3) != bitAt (sFunc i) 3 then sEp i else sEp i + 1)) 32
        · exact safe_ite h.readHead h.readHead.consume.writeWords.consume.sDone
        · exact h.programFault
      · exact h.programFault
    · exact h.programFault
  · exact h.programFault
theorem runs_post {c : CellAddr} {hw : SHw} : RunsSafely (cellIs .s c) s (execPost c hw s) := by
  refine runs_sRow fun {i s} h => safe_ite h.programFault ?_
  cases s.bankCause c.toNat ((s.sst c.toNat).reg (sGa i)) (32 * (sFunc i + 1)) 32
  · cases s.mapAddress ((s.sst c.toNat).reg (sGb i))
    · exact h.programFault
    · exact safe_ite h.programFault (safe_ite h.readRun h.readRun.sendPacket.sDone)
  · exact h.programFault
theorem runs_greq {c : CellAddr} {hw : SHw} : RunsSafely (cellIs .s c) s (execGreq c hw s) := by
  refine runs_sRow fun {i s} h => safe_ite ?_ (safe_ite h.programFault ?_)
  · split
    · exact h.sDone
    · exact h
  · cases s.bankCause c.toNat ((s.sst c.toNat).reg (sGa i)) 32 1
    · refine safe_ite h.readSpan.programFault ?_
      split
      · exact h.readSpan.sDone
      · exact safe_ite h.readSpan.sendItem.engineWait h
    · exact h.programFault
theorem runs_bara {c : CellAddr} {hw : SHw} : RunsSafely (cellIs .s c) s (execBara c hw s) := by
  unfold execBara
  dsimp only
  refine runs_sRow fun h => ?_
  split
  · exact h.programFault
  · exact safe_ite h.engineWait (safe_ite h h.arrive.sDone)
theorem runs_barw {c : CellAddr} {hw : SHw} : RunsSafely (cellIs .s c) s (execBarw c hw s) := by
  unfold execBarw
  dsimp only
  refine runs_sRow fun h => ?_
  split
  · exact h.programFault
  · exact safe_ite h.sDone h.engineWait
theorem runs_flago {c : CellAddr} {hw : SHw} : RunsSafely (cellIs .s c) s (execFlago c hw s) := by
  unfold execFlago
  dsimp only
  refine runs_sRow fun h => ?_
  split
  · exact h.programFault
  · exact safe_ite h.programFault (safe_ite h h.sendItem.sDone)
theorem runs_flagr {c : CellAddr} {hw : SHw} : RunsSafely (cellIs .s c) s (execFlagr c hw s) := by
  unfold execFlagr
  dsimp only
  refine runs_sRow fun h => ?_
  split
  · exact h.programFault
  · exact h.sDone
theorem runs_kvreq {c : CellAddr} {hw : SHw} : RunsSafely (cellIs .s c) s (execKvreq c hw s) := by
  refine runs_sRow fun {i s} h => safe_ite h.programFault ?_
  cases s.bankCause c.toNat (sAddress (s.sst c.toNat) i) 64 1
  · refine safe_ite h.engineWait (safe_ite h.readSpan.programFault ?_)
    refine .sDone (safe_ite (.holdItem ?_) h.readSpan.newTicket.modKv)
    split
    · exact h.readSpan.newTicket.modKv.readRun
    · exact h.readSpan.newTicket.modKv
  · exact h.programFault
theorem runs_kvpoll {c : CellAddr} {hw : SHw} : RunsSafely (cellIs .s c) s (execKvpoll c hw s) := by
  unfold execKvpoll
  dsimp only
  refine runs_sRow fun h => safe_ite h.programFault ?_
  split
  · exact h.sDone
  · exact .sDone (safe_ite h.retire h)
theorem runs_rand {c : CellAddr} {hw : SHw} : RunsSafely (cellIs .s c) s (execRand c hw s) := runs_sRow fun h => h.sAlu
theorem runs_ctr {c : CellAddr} {hw : SHw} : RunsSafely (cellIs .s c) s (execCtr c hw s) := runs_sRow fun h => h.sDone
theorem runs_sEnd {c : CellAddr} {hw : SHw} : RunsSafely (cellIs .s c) s (execSEnd c hw s) := runs_sRow fun h => h.beatEnd
theorem runs_correctedWriteBack {addr : Nat} : RunsSafely true s (execCorrectedWriteBack addr s) := runs_next fun h => h.marks
theorem runs_remoteWrite {c : CellAddr} : RunsSafely (cellValid c.toNat) s (execRemoteWrite c s) := by
  unfold execRemoteWrite
  dsimp only
  refine runs_onCell fun h => ?_
  split
  · exact safe_ite h (safe_ite (safe_ite h.modPort.owe (safe_ite h.modPort.owe.inc h.modPort.owe.remoteWrite)) h)
  · exact h
theorem runs_grantAcquire {c : CellAddr} : RunsSafely (cellValid c.toNat) s (execGrantAcquire c s) := runs_onPort fun h => h.grantItem
theorem runs_grantRelease {c : CellAddr} : RunsSafely (cellValid c.toNat) s (execGrantRelease c s) := runs_onPort fun h => h.grantItem
theorem runs_grantFree {c : CellAddr} : RunsSafely (cellValid c.toNat) s (execGrantFree c s) := runs_onPort fun h => h.grantItem
theorem runs_grantAnswer {c : CellAddr} : RunsSafely (cellValid c.toNat) s (execGrantAnswer c s) := by
  unfold execGrantAnswer
  dsimp only
  refine runs_onPort fun h => ?_
  split
  · exact safe_ite h.modCell h
  · exact h
theorem runs_sweepStrip {c : CellAddr} {bank : Nat} {runs : List (List MarchFail)} {bad : List EccEvent} :
    RunsSafely (cellValid c.toNat && decide (bank < bankCount c.toNat)) s (execSweepStrip c bank runs bad s) := by
  unfold execSweepStrip
  exact runs_onUnit_and fun h => h.when fun h => h.sweepStrip
theorem runs_seamFlitTime {blk : Nat} {dir : Nat} {flips : List Nat} : RunsSafely (seamEnd blk dir) s (execSeamFlitTime blk dir flips s) :=
  runs_onUnit fun h => h.when fun h => h.seamTime
theorem runs_seamErrorThreshold {blk : Nat} {dir : Nat} : RunsSafely (seamEnd blk dir) s (execSeamErrorThreshold blk dir s) :=
  runs_onUnit fun h => h.when fun h => h.modWire.setLink
theorem runs_seamWireTestDone {blk : Nat} {dir : Nat} {badWires : List Nat} {badClock : Bool} :
    RunsSafely (seamEnd blk dir) s (execSeamWireTestDone blk dir badWires badClock s) :=
  runs_onUnit fun h => h.when fun h => safe_ite h.setLink (safe_ite h.setLink h.swapSpares.inc.setLink)
theorem runs_seamRetrainDone {blk : Nat} {dir : Nat} {ok : Bool} : RunsSafely (seamEnd blk dir) s (execSeamRetrainDone blk dir ok s) :=
  runs_onUnit fun h => h.when fun h => safe_ite h.inc.setLink (safe_ite h.setLink.stageCairn.report.report h.setLink.stageCairn.report)
theorem runs_slotPeriodStart {g : Nat} : RunsSafely (regionValid g) s (execSlotPeriodStart g s) := by
  unfold execSlotPeriodStart
  exact runs_onRegion fun h => h.when fun h => h.foldl fun h => h.periodAt
theorem runs_circuitSlot {blk : Nat} {out : Nat} {slot : Nat} {pick : Nat} :
    RunsSafely (blkValid blk && decide (out ≤ 10) && decide (slot < slotCount blk out)) s (execCircuitSlot blk out slot pick s) :=
  runs_onUnit_all fun h => h.when fun h => h.slotCarry
theorem runs_riggingRewrite {edits : List RigEdit} : RunsSafely true s (execRiggingRewrite edits s) := by
  unfold execRiggingRewrite
  exact runs_next fun h => h.foldl fun h => safe_ite h.modXr h
theorem runs_packetHop {blk : Nat} {inPort : Nat} : RunsSafely (blkValid blk && decide (inPort ≤ 10)) s (execPacketHop blk inPort s) := by
  unfold execPacketHop
  dsimp only
  refine runs_onUnit_and fun h => ?_
  split
  · exact h.when fun h => h.routeHead
  · exact h
theorem runs_detourInstall {set : List (Nat × List Word64)} : RunsSafely true s (execDetourInstall set s) :=
  runs_next fun h => safe_ite h.setDetours.publishDist h
theorem runs_vc2ItemHop {blk : Nat} {inPort : Nat} : RunsSafely (blkValid blk && decide (inPort ≤ 10)) s (execVc2ItemHop blk inPort s) := by
  unfold execVc2ItemHop
  refine runs_onUnit_and fun h => ?_
  split
  · exact h.when fun h => h.itemHop
  · exact h
theorem runs_transportReceive {blk : BlkRead} {toHub : Bool} : RunsSafely (blkValid blk.blk) s (execTransportReceive blk toHub s) := by
  refine runs_onBlk fun h => ?_
  split
  · exact h
  · next hp =>
    have h := h.rxHead _ hp
    exact safe_ite h.carriedBack (safe_ite (safe_ite h.carriedBack.modTp.accepted.sendAck h.carriedBack.modTp.accepted)
      (safe_ite (.sendAck (.owe (safe_ite h.hubDrop h.inc))) h.rxDiscard))
theorem runs_transportNak {blk : Nat} {toHub : Bool} : RunsSafely (blkValid blk) s (execTransportNak blk toHub s) := by
  refine runs_onBlk fun h => ?_
  split
  · exact h
  · next hk =>
    have h := h.rxHead _ hk
    refine safe_ite ?_ h.carriedBack.goBack
    split
    · exact h.tpSend
    · exact h
theorem runs_transportResendTimeout {blk : Nat} {toHub : Bool} : RunsSafely (blkValid blk) s (execTransportResendTimeout blk toHub s) :=
  runs_onBlk fun h => h.when fun h => h.goBack
theorem runs_transportAckTimer {blk : Nat} {toHub : Bool} : RunsSafely (blkValid blk) s (execTransportAckTimer blk toHub s) :=
  runs_onBlk fun h => safe_ite (safe_ite h.sendAck (safe_ite h.sendAck h)) h
theorem runs_transportCredit {blk : Nat} {toHub : Bool} : RunsSafely (blkValid blk) s (execTransportCredit blk toHub s) := by
  refine runs_onBlk fun h => ?_
  split
  · exact h
  · next hp => exact (h.rxHead _ hp : Safe _).credited
theorem runs_packetDeliver {c : CellAddr} : RunsSafely (cellValid c.toNat) s (execPacketDeliver c s) := by
  unfold execPacketDeliver
  refine runs_packetRow fun h => ?_
  split
  · exact h.cellWrite
  · exact h.cellMessage
  · exact h.pktDrop
theorem runs_packetRead {c : CellAddr} {ecc : List EccEvent} : RunsSafely (cellValid c.toNat) s (execPacketRead c ecc s) := by
  unfold execPacketRead
  dsimp only
  refine runs_packetRow fun h => ?_
  split
  · exact safe_ite h.readWords.sendPacket h.pktDrop.cellFault
  · exact h.pktDrop.cellFault
theorem runs_readData {c : CellAddr} : RunsSafely (cellValid c.toNat) s (execReadData c s) := runs_packetRow fun h => h
theorem runs_multicastCopy {blk : Nat} {inPort : Nat} : RunsSafely (blkValid blk && decide (inPort ≤ 10)) s (execMulticastCopy blk inPort s) := by
  unfold execMulticastCopy
  dsimp only
  refine runs_onUnit_and fun h => ?_
  split
  · exact safe_ite (safe_ite (.inc (.dropPkt (safe_ite h.inc.keepCopy h.inc))) (.modPkt (safe_ite h.inc.keepCopy h.inc))) h
  · exact h
theorem runs_multicastNak {blk : Nat} : RunsSafely (blkValid blk) s (execMulticastNak blk s) := by
  unfold execMulticastNak
  dsimp only
  refine runs_onBlk fun h => ?_
  split
  · split
    · exact h.modPort.sendPacket
    · exact h.modPort
  · exact h
theorem runs_barrierArrival {blk : Nat} : RunsSafely (blkValid blk) s (execBarrierArrival blk s) := by
  unfold execBarrierArrival
  dsimp only
  refine runs_onBlk fun h => ?_
  split
  · refine safe_ite ?_ ?_
    · exact h.modXr.treeDrop
    · split
      · exact safe_ite h h.modXr.modXr.combineUp
      · exact h.modXr
  · exact h
theorem runs_barrierCompletion {blk : Nat} : RunsSafely (blkValid blk) s (execBarrierCompletion blk s) := by
  unfold execBarrierCompletion
  dsimp only
  refine runs_onBlk fun h => ?_
  split
  · split
    · exact safe_ite h (.combineUp (.sceneAtXr (h.modXr.downMesh.foldl fun h => h.barrierAt)))
    · exact h.modXr
  · exact h
theorem runs_flagUpdate {blk : Nat} : RunsSafely (blkValid blk) s (execFlagUpdate blk s) := by
  unfold execFlagUpdate
  dsimp only
  refine runs_onBlk fun h => ?_
  split
  · split
    · refine safe_ite ?_ ?_
      · exact safe_ite (.modXr (h.modXr.foldl fun h => h.treeDrop)) (.treePush (.modXr (h.modXr.foldl fun h => h.treeDrop)))
      · exact safe_ite (safe_ite (h.modXr.foldl fun h => h.treeDrop) (.itemOut (h.modXr.foldl fun h => h.treeDrop))) h
    · exact h.modXr.foldl fun h => h.treeDrop
  · exact h
theorem runs_flagValue {blk : Nat} : RunsSafely (blkValid blk) s (execFlagValue blk s) := by
  unfold execFlagValue
  dsimp only
  refine runs_onBlk fun h => ?_
  split
  · split
    · exact safe_ite h.modXr.downMesh h
    · exact h.modXr
  · exact h
theorem runs_channelDrainDone {idx : Nat} : RunsSafely (decide (idx < 65536)) s (execChannelDrainDone idx s) := by
  unfold execChannelDrainDone
  dsimp only
  refine runs_onUnit fun h => h.when fun h => .watch (.foldl (.congr (.modChan ?_)) fun h => ?_)
  · split
    · refine safe_ite ?_ ?_
      · refine .clearEp ?_
        split
        · exact safe_ite h.clearEp h
        · exact h
      · split
        · exact safe_ite h.clearEp h
        · exact h
    · split
      · exact safe_ite h.clearEp h
      · exact h
  · split
    · exact safe_ite h.chanUp h
    · exact h
theorem runs_messageArrival {c : CellAddr} {ep : Nat} : RunsSafely (cellValid c.toNat && decide (ep < 32)) s (execMessageArrival c ep s) := by
  unfold execMessageArrival
  dsimp only
  refine runs_onUnit_and fun h => h.when fun h => ?_
  split
  · exact h
  · refine safe_ite ?_ ?_
    · exact h.modPort
    · split
      · exact h.modPort.applyReject
      · exact h.modPort.landMsg
  · exact h
theorem runs_creditFlushTimer {c : CellAddr} {ep : Nat} : RunsSafely (cellValid c.toNat && decide (ep < 32)) s (execCreditFlushTimer c ep s) :=
  runs_onUnit_and fun h => h.when fun h => h.flushCredit
theorem runs_creditItem {c : CellAddr} : RunsSafely (cellValid c.toNat) s (execCreditItem c s) := by
  unfold execCreditItem
  dsimp only
  refine runs_onPort fun h => ?_
  split
  · exact safe_ite h.modPort.modEp.watch h
  · exact h
theorem runs_cueArrival {c : CellRead} : RunsSafely (cellValid c.cell.toNat) s (execCueArrival c s) := by
  unfold execCueArrival
  dsimp only
  refine runs_onPort fun h => ?_
  split
  · exact safe_ite (safe_ite h.modPort (safe_ite h.modPort.fed.writePart.modEp h.modPort.dropMsg)) h
  · exact h
theorem runs_chorusContribution {c : CellRead} {ep : Nat} :
    RunsSafely (cellValid c.cell.toNat && decide (ep < 32)) s (execChorusContribution c ep s) := by
  unfold execChorusContribution
  dsimp only
  refine runs_onUnit_and fun h => h.when fun h => ?_
  split
  · exact safe_ite h.modPort h.modPort.chorusFlit
  · exact h
theorem runs_chorusWindowItem {c : CellAddr} : RunsSafely (cellValid c.toNat) s (execChorusWindowItem c s) := by
  unfold execChorusWindowItem
  dsimp only
  refine runs_onPort fun h => ?_
  split
  · exact safe_ite h.modPort.modEp.watch h
  · exact h
theorem runs_gateStep {c : CellAddr} {ep : Nat} {ecc : List EccEvent} :
    RunsSafely (cellValid c.toNat && decide (ep < 32)) s (execGateStep c ep ecc s) :=
  runs_onUnit_and fun h => h.when fun h => h.gateStep
theorem runs_cueTimeout {c : CellAddr} {ep : Nat} : RunsSafely (cellValid c.toNat && decide (ep < 32)) s (execCueTimeout c ep s) := by
  unfold execCueTimeout
  refine runs_onUnit_and fun h => ?_
  split
  · exact h.when fun h => h.modAux.watch
  · exact h
theorem runs_wingMove {c : CellRead} {ep : Nat} : RunsSafely (cellValid c.cell.toNat && decide (ep < 32)) s (execWingMove c ep s) := by
  unfold execWingMove
  dsimp only
  refine runs_onUnit_and fun h => ?_
  split
  · exact safe_ite (safe_ite h.readWords h.readWords.writeWords.modEp) h
  · exact h
theorem runs_channelStall {c : CellAddr} {ep : Nat} : RunsSafely (cellValid c.toNat && decide (ep < 32)) s (execChannelStall c ep s) := by
  unfold execChannelStall
  refine runs_onUnit_and fun h => ?_
  split
  · exact h.when fun h => h.modEp.watch
  · exact h
theorem runs_barrierStall {c : CellAddr} : RunsSafely (cellValid c.toNat) s (execBarrierStall c s) := by
  unfold execBarrierStall
  dsimp only
  refine runs_onCell fun h => ?_
  split
  · exact h.when fun h => h.modEng.watch
  · exact h
theorem runs_hangDeclare : RunsSafely true s (execHangDeclare s) := runs_next fun h => safe_ite h.startRecovery.modRcv h
theorem runs_sceneBarrierArrival {c : CellAddr} : RunsSafely (cellValid c.toNat) s (execSceneBarrierArrival c s) :=
  runs_onCell fun h => h.when fun h => h.modCell.arrive
theorem runs_sceneRefillDone {c : CellAddr} {ecc : Bool} : RunsSafely (cellValid c.toNat) s (execSceneRefillDone c ecc s) :=
  runs_onCell fun h => h.when fun h => safe_ite h.storeFault h.refillStore
theorem runs_actOpen : RunsSafely true s (execActOpen s) := by
  unfold execActOpen
  dsimp only
  refine runs_next fun h => ?_
  split
  · exact h.when fun h => h.modActs.congr
  · exact h
theorem runs_curtainCommit : RunsSafely true s (execCurtainCommit s) := by
  unfold execCurtainCommit
  dsimp only
  refine runs_next fun h => ?_
  split
  · exact safe_ite h.endAct.curtainCount.idlePeriod h
  · split
    · exact safe_ite h.skipAct.idlePeriod h
    · exact h
theorem runs_watchdogPeriod : RunsSafely true s (execWatchdogPeriod s) := runs_next fun h => safe_ite (safe_ite h.modRcv.startRecovery h.modRcv) h
theorem runs_completionDelivery {ring : Nat} : RunsSafely (decide (ring < 16384)) s (execCompletionDelivery ring s) :=
  runs_onUnit fun h => h.hubIntake.when fun h => h.deliverEntry
theorem runs_roster {ticket : Nat} : RunsSafely true s (execRoster ticket s) := by
  unfold execRoster
  dsimp only
  refine runs_stagerRow fun h => safe_ite h ?_
  split
  · exact h
  · exact h.deliver.modTicket
theorem runs_append {ticket : Nat} {ecc : List EccEvent} : RunsSafely true s (execAppend ticket ecc s) := by
  refine runs_stagerRow fun h => safe_ite h ?_
  dsimp only
  split
  · exact h.modTicket
  · split
    · exact h.modTicket.modSlot
    · next hq =>
      refine safe_ite (h.takePages _ hq).modSlot.modTicket (.modTicket (.foldl (h.takePages _ hq).modSlot fun h => ?_))
      exact h.readWords.request.writeGrans
theorem runs_appendLanded {ticket : Nat} : RunsSafely true s (execAppendLanded ticket s) := by
  unfold execAppendLanded
  dsimp only
  refine runs_next fun h => ?_
  split
  · exact h.when fun h => h.modTicket.modSlot.checkStage
  · exact h
theorem runs_complete {ticket : Nat} : RunsSafely true s (execComplete ticket s) := runs_stagerRow fun h => h.modSlot.modTicket.checkStage
theorem runs_stream {ticket : Nat} : RunsSafely true s (execStream ticket s) := by
  unfold execStream
  dsimp only
  refine runs_stagerRow fun h => safe_ite h (safe_ite h.modTicket ?_)
  split
  · exact h.pagesOut.when fun h => h.closeTicket
  · exact h.pagesOut
theorem runs_fetch {ticket : Nat} : RunsSafely true s (execFetch ticket s) := by
  unfold execFetch
  dsimp only
  refine runs_stagerRow fun h => safe_ite h ?_
  split
  · exact h.pagesOut.when fun h => h.closeTicket
  · exact h.pagesOut
theorem runs_pageDelivery {porter : Nat} {ecc : List DramErr} : RunsSafely (decide (porter < 64)) s (execPageDelivery porter ecc s) := by
  unfold execPageDelivery
  dsimp only
  refine runs_onUnit fun h => safe_ite ?_ h
  split
  · refine safe_ite ?_ ?_
    · split
      · exact safe_ite h.porterHead.porterGo h.porterHead.porterEnd
      · exact h.porterHead.porterEnd
    · exact h.porterHead
  · exact h.porterHead
theorem runs_slotCloseDone {slot : Nat} : RunsSafely (decide (slot < 1024)) s (execSlotCloseDone slot s) := by
  unfold execSlotCloseDone
  dsimp only
  refine runs_onUnit fun h => safe_ite ?_ h
  split
  · exact h.freeSlotPages.slotEvent.modSlot
  · exact h.freeSlotPages.slotEvent.modSlot.settleDefer
theorem runs_prompt {ring : Nat} {entry : List Byte} : RunsSafely (decide (ring < 16384)) s (execPrompt ring entry s) := by
  unfold execPrompt
  dsimp only
  refine runs_onUnit fun h => ?_
  split
  · exact .serveEntry (safe_ite h.refuseEntry h) fun h => h.readPrompt
  · exact h.serveEntry fun h => h.readPrompt
theorem runs_enrol {ring : Nat} {entry : List Byte} : RunsSafely (decide (ring < 16384)) s (execEnrol ring entry s) := by
  unfold execEnrol
  dsimp only
  refine runs_onUnit fun h => ?_
  split
  · exact .serveEntry (safe_ite h.refuseEntry h) fun h => h.readEnrol
  · exact h.serveEntry fun h => h.readEnrol
theorem runs_arbiterPeriod {res : Nat} : RunsSafely (decide (res < resources)) s (execArbiterPeriod res s) := runs_onUnit fun h => h.when
    fun h => h.arbPeriod
theorem runs_arbiterGrant {res : Nat} : RunsSafely (decide (res < resources)) s (execArbiterGrant res s) := runs_onUnit fun h => h.when fun h =>
    h.arbGrant
theorem runs_dramRead {addr : Nat} {errs : List DramErr} : RunsSafely (isDram addr) s (execDramRead addr errs s) := runs_onUnit fun h => h.readUnit
theorem runs_dramWrite {addr : Nat} {data : List Byte} {errs : List DramErr} :
    RunsSafely (inDram addr data.length) s (execDramWrite addr data errs s) :=
  runs_onUnit fun h => h.writeDram
theorem runs_dramCorrectedRewrite {unit : Nat} : RunsSafely (isDram (64 * unit)) s (execDramCorrectedRewrite unit s) := runs_onUnit fun h => h.marks
theorem runs_bar4Access {off : Nat} {len : Nat} {write : Bool} {data : List Byte} {poison : Bool} {errs : List DramErr} :
    RunsSafely (decide (off + len ≤ 2 ^ 41) && decide (0 < len)) s (execBar4Access off len write data poison errs s) := runs_onUnit_both fun h =>
        h.when fun h => h.bar4
theorem runs_porterDesc {ring : Nat} {entry : List Byte} : RunsSafely (decide (ring < 16384)) s (execPorterDesc ring entry s) :=
  runs_onUnit fun h => safe_ite (h.serveEntry fun h => .some h.queueDesc) h
theorem runs_porterNop {p : Nat} : RunsSafely (decide (p < 64)) s (execPorterNop p s) := runs_porterRow
theorem runs_porterCopy {p : Nat} {ev : PorterEv} : RunsSafely (decide (p < 64)) s (execPorterCopy p ev s) := runs_porterRow
theorem runs_porterFill {p : Nat} {ev : PorterEv} : RunsSafely (decide (p < 64)) s (execPorterFill p ev s) := runs_porterRow
theorem runs_porterFence {p : Nat} : RunsSafely (decide (p < 64)) s (execPorterFence p s) := by
  unfold execPorterFence
  dsimp only
  refine runs_onUnit fun h => ?_
  split
  · exact h.when fun h => h.porterStart
  · exact h
theorem runs_porterDone {p : Nat} : RunsSafely (decide (p < 64)) s (execPorterDone p s) := by
  unfold execPorterDone
  dsimp only
  refine runs_onUnit fun h => ?_
  split
  · refine safe_ite ?_ ?_
    · exact .fwFeed (.modPorter (safe_ite h.modPorter.set.wrap.porterNotify (safe_ite h.hubCredits h)))
    · exact safe_ite h.modPorter.set.wrap.porterNotify (safe_ite h.hubCredits h)
  · exact h
theorem runs_porterSteal {p : Nat} : RunsSafely (decide (p < 64)) s (execPorterSteal p s) := by
  unfold execPorterSteal
  dsimp only
  refine runs_onUnit fun h => safe_ite ?_ h
  split
  · exact .wrap (.wrap (.modPorter (h.modPorter.foldl fun h => h.queueDesc)))
  · exact h.modPorter
theorem runs_porterGrantRetry {p : Nat} : RunsSafely (decide (p < 64)) s (execPorterGrantRetry p s) := by
  unfold execPorterGrantRetry
  dsimp only
  refine runs_onUnit fun h => ?_
  split
  · exact h.answers.when fun h => h.acquire
  · exact h.answers
theorem runs_spotRehearsal {c : CellAddr} {outs : List OutWord} {ecc : Bool} {cut : Bool} :
    RunsSafely (cellValid c.toNat) s (execSpotRehearsal c outs ecc cut s) :=
  runs_onCell fun h => h.when fun h => safe_ite h.rhSave.storeFault (safe_ite h.rhSave h.rhSave.modArea.rhRestore.rhJudge)
theorem runs_dressRehearsalDone {fails : List RehearsalFail} : RunsSafely true s (execDressRehearsalDone fails s) := by
  unfold execDressRehearsalDone
  dsimp only
  exact runs_next fun h => safe_ite (safe_ite (.set (.recount (.modRcv (safe_ite (h.dress.modRcv.foldl fun h => h.fenceAbove.fieldFence)
      h.dress.modRcv)))) (safe_ite h.dress.enterDark h.dress.recount.set)) h
theorem runs_pairedItemCompare {c : PairRead} : RunsSafely (cellValid c.cell.toNat) s (execPairedItemCompare c s) := by
  unfold execPairedItemCompare
  dsimp only
  refine runs_onCell fun h => h.when fun h => ?_
  split
  · exact safe_ite h.matchItems h.pairMismatch
  · exact h
theorem runs_pairedItemTimeout {c : CellAddr} : RunsSafely (cellValid c.toNat) s (execPairedItemTimeout c s) := by
  unfold execPairedItemTimeout
  dsimp only
  refine runs_onCell fun h => ?_
  split
  · exact h.pairMismatch
  · exact h
theorem runs_tallySample {c : CellAddr} : RunsSafely (cellValid c.toNat) s (execTallySample c s) := runs_onCell fun h => h.when fun h => h.sampleTally
theorem runs_tallyCompare {c : CellAddr} : RunsSafely (cellValid c.toNat) s (execTallyCompare c s) := by
  unfold execTallyCompare
  dsimp only
  refine runs_onCell fun h => h.when fun h => ?_
  split
  · exact safe_ite h.congr h.congr.pairMismatch
  · exact h
theorem runs_tallyTimeout {c : CellAddr} : RunsSafely (cellValid c.toNat) s (execTallyTimeout c s) := by
  unfold execTallyTimeout
  dsimp only
  refine runs_onCell fun h => ?_
  split
  · exact h.congr.pairMismatch
  · exact h
theorem runs_cairnFlush : RunsSafely true s (execCairnFlush s) := by
  unfold execCairnFlush
  dsimp only
  refine runs_next fun h => ?_
  split
  · exact h.congr
  · exact h
theorem runs_progressStuck {c : CellAddr} : RunsSafely (cellValid c.toNat) s (execProgressStuck c s) := runs_onCell fun h => h.when fun h =>
    h.fenceCell
theorem runs_quiesceDone : RunsSafely true s (execQuiesceDone s) :=
  runs_next fun h => safe_ite (safe_ite h.clearCompute.stageCairn.refuseRestart h.clearCompute.set) h
theorem runs_quiesceTimeout : RunsSafely true s (execQuiesceTimeout s) := runs_next fun h => safe_ite h.sets.modRcv h
theorem runs_heartbeatTick {n : Nat} : RunsSafely (decide (n < 8)) s (execHeartbeatTick n s) := runs_onUnit fun h => h.when fun h => h.modRcv
theorem runs_heartbeatLoss {n : Nat} : RunsSafely (decide (n < 8)) s (execHeartbeatLoss n s) := by
  unfold execHeartbeatLoss
  dsimp only
  refine runs_onUnit fun h => h.when fun h => .stepLoss (.showLead ?_)
  split
  · exact safe_ite (.leadLost (.set (h.set.inc.modRcv.foldl fun h => h.loseCommand))) (h.set.inc.modRcv.foldl fun h => h.loseCommand)
  · exact h.set.inc.modRcv.foldl fun h => h.loseCommand
theorem runs_coreRejoin {n : Nat} {verified : Bool} : RunsSafely (decide (n < 8)) s (execCoreRejoin n verified s) := by
  unfold execCoreRejoin
  dsimp only
  exact runs_onUnit fun h => h.when fun h => safe_ite (.leadLost (.showLead (h.sets.modRcv.foldl fun h => h.dorLog))) h.set.modRcv.dorLog.showLead
theorem runs_snapshotDone {ecc : List EccEvent} : RunsSafely true s (execSnapshotDone ecc s) :=
  runs_next fun h => safe_ite h.writeSnapshot.set.modRcv h
theorem runs_computeResetDone : RunsSafely true s (execComputeResetDone s) :=
  runs_next fun h => safe_ite (safe_ite (.refuseRestart (safe_ite h.clearCompute.strikeAgain.stageCairn.modRcv h.clearCompute.strikeAgain)) (.set
      (safe_ite h.clearCompute.strikeAgain.stageCairn.modRcv h.clearCompute.strikeAgain))) h
theorem runs_computeResetTimeout : RunsSafely true s (execComputeResetTimeout s) := runs_next fun h => safe_ite h.enterDark h
theorem runs_restartFromBelay {dram : List DramErr} : RunsSafely true s (execRestartFromBelay dram s) := by
  refine runs_next fun h => safe_ite ?_ h
  split
  · refine safe_ite ?_ h.planView.replaceAll.refuseRestart
    split
    · next ht =>
      have h := h.planView.replaceAll.rigBroken _ ht
      exact .set (safe_ite h.asRewrites.publishCast h.asRewrites.publishCast.publishDist)
    · exact h.planView.replaceAll.stageCairn.refuseRestart
  · exact h.restartBelay
  · exact h
theorem runs_belayHold {group : Nat} : RunsSafely true s (execBelayHold group s) := by
  unfold execBelayHold
  dsimp only
  refine runs_next fun h => ?_
  split
  · exact safe_ite (safe_ite h.congr (safe_ite h.congr.congr.startCopy h.congr.dropBelay)) h
  · exact h
theorem runs_belayCopyDone {dram : List DramErr} : RunsSafely true s (execBelayCopyDone dram s) := by
  unfold execBelayCopyDone
  dsimp only
  refine runs_next fun h => ?_
  split
  · exact safe_ite h.writeBelay.modRcv.congr.respond h
  · exact h
theorem runs_pcieLinkTrain {rate : Nat} {width : Nat} {flit : Bool} {degraded : Bool} :
    RunsSafely true s (execPcieLinkTrain rate width flit degraded s) :=
  runs_next fun h => safe_ite h h.sets.inc
theorem runs_pcieReset (kind : PcieReset) : RunsSafely true s (execPcieReset kind s) := by
  unfold execPcieReset
  dsimp only
  exact runs_next fun h => safe_ite h (safe_ite (h.resetConfig.inc.modHost.foldl fun h => h.set) (safe_ite (.endStrike (.startUnload
      (h.resetConfig.inc.resetMailboxes.foldl fun h => h.killRing))) (safe_ite (.modHost (h.resetConfig.inc.resetMailboxes.foldl fun h =>
      h.killRing)) (h.resetConfig.inc.resetMailboxes.foldl fun h => h.killRing))))
theorem runs_bar4Resize {size : Nat} : RunsSafely true s (execBar4Resize size s) := runs_next fun h => safe_ite h.modHost.set h
theorem runs_hello {mb : Nat} {req : NyReq} : RunsSafely (decide (mb < 8)) s (execHello mb req s) := runs_nymakRow fun h => h.hello
theorem runs_packageLoad {mb : Nat} {req : NyReq} {pkg : Package} : RunsSafely (decide (mb < 8)) s (execPackageLoad mb req pkg s) :=
  runs_nymakRow fun h => safeAns_ite (safeAns_ite h (h.defer fun h => h.modHost)) h.judgeLoad
theorem runs_packageLoadProceed : RunsSafely true s (execPackageLoadProceed s) := by
  unfold execPackageLoadProceed
  dsimp only
  refine runs_next fun h => ?_
  split
  · exact safe_ite (.settleDefer (safe_ite h.modHost.judgeLoad.setReg h.modHost.judgeLoad)) h
  · exact h
theorem runs_packageUnload {mb : Nat} {req : NyReq} {ns : Nat} : RunsSafely (decide (mb < 8)) s (execPackageUnload mb req ns s) := by
  unfold execPackageUnload
  refine runs_nymakRow fun h => ?_
  split
  · exact h.modHost.settleDefer
  · exact safeAns_ite h (safeAns_ite h h.startUnload.endStrike)
theorem runs_channelCreate {mb : Nat} {req : NyReq} : RunsSafely (decide (mb < 8)) s (execChannelCreate mb req s) := by
  unfold execChannelCreate
  refine runs_nymakRow fun h => ?_
  split
  · exact h.joinEp
  · exact h.makeRing
  · exact h
theorem runs_channelDestroy {mb : Nat} {req : NyReq} : RunsSafely (decide (mb < 8)) s (execChannelDestroy mb req s) := by
  unfold execChannelDestroy
  dsimp only
  refine runs_nymakRow fun h => safeAns_ite h (safeAns_ite ?_ ?_)
  · split
    · exact h.destroyRing.foldl fun h => h.destroyChan
    · exact .settleDefer (.modRing (h.foldl fun h => h.destroyChan))
    · exact h
  · split
    · exact h
    · exact safeAns_ite h h.destroyChan
theorem runs_actSchedule {mb : Nat} {req : NyReq} : RunsSafely (decide (mb < 8)) s (execActSchedule mb req s) :=
  runs_nymakRow fun h => safeAns_ite h (safeAns_ite h (safeAns_ite h (safeAns_ite h h.modActs)))
theorem runs_actStop {mb : Nat} {req : NyReq} : RunsSafely (decide (mb < 8)) s (execActStop mb req s) := by
  unfold execActStop
  dsimp only
  exact runs_nymakRow fun h => safeAns_ite h (.idlePeriod (safe_ite (.abortAct (h.modActs.foldl fun h => h.applyChange)) (h.modActs.foldl
      fun h => h.applyChange)))
theorem runs_slotOpen {mb : Nat} {req : NyReq} : RunsSafely (decide (mb < 8)) s (execSlotOpen mb req s) := by
  unfold execSlotOpen
  dsimp only
  refine runs_nymakRow fun h => safeAns_ite h ?_
  split
  · exact h
  · exact safeAns_ite h (safeAns_ite h (safeAns_ite h (safeAns_ite (safeAns_ite h (h.defer fun h => h.modSlot)) h.modSlot)))
theorem runs_slotClose {mb : Nat} {req : NyReq} : RunsSafely (decide (mb < 8)) s (execSlotClose mb req s) := by
  unfold execSlotClose
  dsimp only
  refine runs_nymakRow fun h => safeAns_ite h (safeAns_ite h.change ?_)
  split
  · exact safeAns_ite h.modSlot.settleDefer h
  · exact h
theorem runs_belaySet {mb : Nat} {req : NyReq} : RunsSafely (decide (mb < 8)) s (execBelaySet mb req s) := by
  unfold execBelaySet
  dsimp only
  refine runs_nymakRow fun h => ?_
  split
  · exact h
  · exact safeAns_ite h (safeAns_ite h (safeAns_ite h h.congr))
theorem runs_restart {mb : Nat} {req : NyReq} : RunsSafely (decide (mb < 8)) s (execRestart mb req s) := runs_nymakRow fun h => safeAns_ite
    h.startRecovery h
theorem runs_strike {mb : Nat} {req : NyReq} {ns : Nat} : RunsSafely (decide (mb < 8)) s (execStrike mb req ns s) :=
  runs_nymakRow fun h => safeAns_ite h (safeAns_ite h (safeAns_ite h h.modHost.endStrike))
theorem runs_fenceQuery {mb : Nat} {req : NyReq} : RunsSafely (decide (mb < 8)) s (execFenceQuery mb req s) :=
  runs_nymakRow fun h => safeAns_ite h (safe_ite (.tableOut (safe_ite h.tableOut h)) (safe_ite h.tableOut h))
theorem runs_requalify {mb : Nat} {req : NyReq} : RunsSafely (decide (mb < 8)) s (execRequalify mb req s) :=
  runs_nymakRow fun h => safeAns_ite h (safeAns_ite (safeAns_ite h h.requalUnits) (safeAns_ite h (safeAns_ite h (safeAns_ite h (safeAns_ite
      (h.defer fun h => h.modHost) h.modHost)))))
theorem runs_regionReturnDone {g : Nat} {reached : Bool} {fails : List RehearsalFail} :
    RunsSafely (regionValid g) s (execRegionReturnDone g reached fails s) := by
  unfold execRegionReturnDone
  refine runs_onRegion fun h => ?_
  split
  · exact safe_ite h (safe_ite h.returnRegion.requalEnds h.requalEnds)
  · exact h
theorem runs_attest {mb : Nat} {req : NyReq} : RunsSafely (decide (mb < 8)) s (execAttest mb req s) :=
  runs_nymakRow fun h => safeAns_ite h (safeAns_ite h (safeAns_ite h.emit (safeAns_ite h h.setQueue)))
theorem runs_evidenceSign : RunsSafely true s (execEvidenceSign s) := by
  unfold execEvidenceSign
  dsimp only
  refine runs_next fun h => ?_
  split
  · exact safe_ite (safe_ite h.setQueue.inc.emit h.setQueue.inc.emit.respond) h
  · exact h
theorem runs_keyImport {mb : Nat} {req : NyReq} : RunsSafely (decide (mb < 8)) s (execKeyImport mb req s) := by
  unfold execKeyImport
  dsimp only
  refine runs_nymakRow fun h => safeAns_ite h (safeAns_ite h (safeAns_ite h ?_))
  split
  · exact h.dropKem
  · exact h.dropKem.modDor.set.eraseSnapshot.dorLog.modHost
theorem runs_kemKeyMake : RunsSafely true s (execKemKeyMake s) := runs_next fun h => safe_ite h.makeKem h
theorem runs_ropeEnable {mb : Nat} {req : NyReq} : RunsSafely (decide (mb < 8)) s (execRopeEnable mb req s) :=
  runs_ropeRow fun h => safeAns_ite h (safeAns_ite (safeAns_ite h (h.defer fun h => h.modRingR)) (safeAns_ite h h.openRing))
theorem runs_ropeDisable {mb : Nat} {req : NyReq} : RunsSafely (decide (mb < 8)) s (execRopeDisable mb req s) := by
  unfold execRopeDisable
  dsimp only
  refine runs_ropeRow fun h => safeAns_ite h ?_
  split
  · exact h.modRingR.settleDefer
  · exact safeAns_ite h.setRing.modPortR.modPortR.modRingR (safeAns_ite h h.endRing)
theorem runs_ropePeers {mb : Nat} {req : NyReq} : RunsSafely (decide (mb < 8)) s (execRopePeers mb req s) := by
  unfold execRopePeers
  dsimp only
  exact runs_ropeRow fun h => safeAns_ite h (h.modRope.dorLog.foldl fun h => h.recheckPeers)
theorem runs_ropeConfigSpare {mb : Nat} {req : NyReq} : RunsSafely (decide (mb < 8)) s (execRopeConfigSpare mb req s) :=
  runs_ropeRow fun h => safeAns_ite h h.askSpare
theorem runs_ropeLanding {mb : Nat} {req : NyReq} : RunsSafely (decide (mb < 8)) s (execRopeLanding mb req s) :=
  runs_ropeRow fun h => safeAns_ite h (safeAns_ite h h.modRope)
theorem runs_ropeLandingClose {mb : Nat} {req : NyReq} : RunsSafely (decide (mb < 8)) s (execRopeLandingClose mb req s) := runs_ropeRow fun h =>
    h.modRope
theorem runs_reduceConfig {mb : Nat} {req : NyReq} : RunsSafely (decide (mb < 8)) s (execReduceConfig mb req s) :=
  runs_nymakRow fun h => safeAns_ite h (safeAns_ite h h.modRope)
theorem runs_telemetryConfig {mb : Nat} {req : NyReq} : RunsSafely (decide (mb < 8)) s (execTelemetryConfig mb req s) := by
  unfold execTelemetryConfig
  dsimp only
  refine runs_nymakRow fun h => safeAns_ite h (safeAns_ite h.sets ?_)
  split
  · exact h
  · exact safeAns_ite h h.sets.congr
theorem runs_cairnRead {mb : Nat} {req : NyReq} : RunsSafely (decide (mb < 8)) s (execCairnRead mb req s) :=
  runs_nymakRow fun h => safeAns_ite h (safe_ite h h.request.emit)
theorem runs_modeSet {mb : Nat} {req : NyReq} : RunsSafely (decide (mb < 8)) s (execModeSet mb req s) :=
  runs_nymakRow fun h => safeAns_ite h (safeAns_ite h.set h)
theorem runs_snapshotRead {mb : Nat} {req : NyReq} : RunsSafely (decide (mb < 8)) s (execSnapshotRead mb req s) :=
  runs_nymakRow fun h => safeAns_ite h (safeAns_ite h (safeAns_ite h h.request.request.readDram.emit))
theorem runs_deferralFinal {mb : Nat} {entry : Nat} : RunsSafely (decide (mb < 8) && decide (entry < 64)) s (execDeferralFinal mb entry s) := by
  unfold execDeferralFinal
  dsimp only
  refine runs_onUnit_both fun h => ?_
  split
  · exact h.modHost.finalDefer
  · exact h
theorem runs_ringDoorbell {off : Nat} {width : Nat} {write : Bool} {data : Word64} :
    RunsSafely (decide (off < 0x100000)) s (execRingDoorbell off width write data s) :=
  runs_onUnit fun h => safe_ite (safe_ite h h.emit) (safe_ite (safe_ite h.badAccess h.badAccess.emit) (safe_ite (h.when fun h => h.ringPosition)
      h.emit))
theorem runs_padEntry {ring : Nat} {entry : List Byte} : RunsSafely (decide (ring < 16384)) s (execPadEntry ring entry s) :=
  runs_onUnit fun h => safe_ite (h.serveEntry fun h => .some h) h
theorem runs_messageEntry {ring : Nat} {entry : List Byte} : RunsSafely (decide (ring < 16384)) s (execMessageEntry ring entry s) :=
  runs_onUnit fun h => h.hubCredits.serveEntry fun h => .ite .none (.some h.hubSend)
theorem runs_ringIrqTimer {ring : Nat} : RunsSafely (decide (ring < 16384)) s (execRingIrqTimer ring s) := by
  unfold execRingIrqTimer
  dsimp only
  refine runs_onUnit fun h => ?_
  split
  · exact h.when fun h => h.modRing.emit
  · exact h
theorem runs_ringShutdownDone {ring : Nat} : RunsSafely (decide (ring < 16384)) s (execRingShutdownDone ring s) := by
  unfold execRingShutdownDone
  dsimp only
  refine runs_onUnit fun h => ?_
  split
  · exact h
  · split
    · exact h.modRing
    · exact h.modRing.settleDefer
theorem runs_startCold {value : Word64} : RunsSafely true s (execStartCold value s) := runs_seqRow fun h => h.seqStart
theorem runs_startWarm {value : Word64} : RunsSafely true s (execStartWarm value s) := runs_seqRow fun h => h.seqStart
theorem runs_powerCheck {value : Word64} {env : StepEnv} : RunsSafely true s (execPowerCheck value env s) := runs_seqRow fun h => h.seqStep
theorem runs_secureBoot {value : Word64} {env : StepEnv} : RunsSafely true s (execSecureBoot value env s) := runs_seqRow fun h => h.seqStep
theorem runs_fwLoad {value : Word64} {env : StepEnv} : RunsSafely true s (execFwLoad value env s) := runs_seqRow fun h => h.seqStep
theorem runs_seamTrain {value : Word64} {env : StepEnv} : RunsSafely true s (execSeamTrain value env s) := runs_seqRow fun h => h.seqStep
theorem runs_dramTrain {value : Word64} {env : StepEnv} : RunsSafely true s (execDramTrain value env s) := runs_seqRow fun h => h.seqStep
theorem runs_ropeTrain {value : Word64} {env : StepEnv} : RunsSafely true s (execRopeTrain value env s) := runs_seqRow fun h => h.seqStep
theorem runs_bist {value : Word64} {env : StepEnv} : RunsSafely true s (execBist value env s) := runs_seqRow fun h => h.seqStep
theorem runs_mapMerge {value : Word64} {env : StepEnv} : RunsSafely true s (execMapMerge value env s) := runs_seqRow fun h => h.seqStep
theorem runs_partnerCheck {value : Word64} {env : StepEnv} : RunsSafely true s (execPartnerCheck value env s) := runs_seqRow fun h => h.seqStep
theorem runs_riggingBase {value : Word64} {env : StepEnv} : RunsSafely true s (execRiggingBase value env s) := runs_seqRow fun h => h.seqStep
theorem runs_dressRehearsal {value : Word64} {env : StepEnv} : RunsSafely true s (execDressRehearsal value env s) := runs_seqRow fun h => h.seqStep
theorem runs_strikeStep {value : Word64} {env : StepEnv} : RunsSafely true s (execStrikeStep value env s) := runs_seqRow fun h => h.seqStep
theorem runs_readyStep {value : Word64} {env : StepEnv} : RunsSafely true s (execReadyStep value env s) := runs_seqRow fun h => h.seqStep
theorem runs_stepComplete : RunsSafely true s (execStepComplete s) := by
  refine runs_next fun h => ?_
  split
  · refine safe_ite h (safe_ite h.failStep (safe_ite (.failStep (safe_ite h.set h)) (safe_ite h.readyStep ?_)))
    next e _ =>
    have ht : Safe (s.stepWork s.seq.next e).1 := h.stepWork
    split
    · next hw => rw [hw] at ht; exact ht.stepDone
    · next hw => rw [hw] at ht; exact ht.failStep
  · exact h
theorem runs_stepTimeout : RunsSafely true s (execStepTimeout s) := by
  unfold execStepTimeout
  refine runs_next fun h => ?_
  split
  · exact safe_ite h.failStep h
  · exact h
theorem runs_loadRecheck : RunsSafely true s (execLoadRecheck s) := runs_next fun h => safe_ite h.set.modSeq h
theorem runs_loadRecheckDone {env : StepEnv} : RunsSafely true s (execLoadRecheckDone env s) := by
  unfold execLoadRecheckDone
  dsimp only
  exact runs_next fun h => safe_ite (.modSeq (.foldl (h.foldl fun h => h.recheckWires) fun h => safe_ite h.spareLane.fieldAdd h)) h
theorem runs_powerBandLight : RunsSafely true s (execPowerBandLight s) := by
  unfold execPowerBandLight
  refine runs_next fun h => ?_
  split
  · exact safe_ite h.set.modSeq h
  · exact h
theorem runs_streamFrame {port : Nat} {frame : FrameRead} : RunsSafely (decide (port < 6)) s (execStreamFrame port frame s) := by
  unfold execStreamFrame
  dsimp only
  refine runs_onUnit fun h => safe_ite (safe_ite h.ropeReceive (safe_ite h.ropeReceive.ropeForward ?_)) h
  split
  · exact safe_ite h.ropeReceive.request.writeGrans h.ropeReceive.inc
  · exact h.ropeReceive.inc
theorem runs_partialFrame {port : Nat} {frame : FrameRead} : RunsSafely (decide (port < 6)) s (execPartialFrame port frame s) := by
  unfold execPartialFrame
  dsimp only
  refine runs_onUnit fun h => safe_ite (safe_ite h.ropeReceive ?_) h
  split
  · refine safe_ite ?_ ?_
    · exact h.ropeReceive.ropeForward
    · split
      · exact safe_ite h.ropeReceive.contribute h.ropeReceive.contribute
      · exact h.ropeReceive.inc
  · exact safe_ite h.ropeReceive.inc h.ropeReceive.ropeForward
theorem runs_paramFrame {port : Nat} {frame : FrameRead} : RunsSafely (decide (port < 6)) s (execParamFrame port frame s) := by
  unfold execParamFrame
  dsimp only
  refine runs_onUnit fun h => safe_ite (safe_ite h.ropeReceive ?_) h
  split
  · refine safe_ite ?_ ?_
    · exact h.ropeReceive.ropeForward
    · split
      · exact .params (safe_ite (.modRed (safe_ite (.inc (safe_ite (.inc (safe_ite h.ropeReceive.modRope h.ropeReceive)) (safe_ite
          h.ropeReceive.modRope h.ropeReceive))) (safe_ite (.inc (safe_ite h.ropeReceive.modRope h.ropeReceive)) (safe_ite h.ropeReceive.modRope
          h.ropeReceive)))) (safe_ite h.ropeReceive.modRope h.ropeReceive))
      · exact h.ropeReceive.inc
  · exact safe_ite h.ropeReceive.inc h.ropeReceive.ropeForward
theorem runs_ctrlFrame {port : Nat} {frame : RopeFrame} : RunsSafely (decide (port < 6)) s (execCtrlFrame port frame s) :=
  runs_onUnit fun h => safe_ite h (safe_ite h.inc (safe_ite h.tagFail (safe_ite (safe_ite h.ropeAcked.ropeReplay h.ropeAcked) (safe_ite (safe_ite
      (.modPortR (safe_ite h.ropeAcked.ropeReplay h.ropeAcked)) (safe_ite h.ropeAcked.ropeReplay h.ropeAcked)) (safe_ite (.ropeCtrlData (safe_ite
      h.ropeAcked.ropeReplay h.ropeAcked)) (safe_ite h.ropeAcked.ropeReplay h.ropeAcked))))))
theorem runs_ropeHelloFrame {port : Nat} {frame : RopeFrame} : RunsSafely (decide (port < 6)) s (execRopeHelloFrame port frame s) := by
  unfold execRopeHelloFrame
  dsimp only
  refine runs_onUnit fun h => safe_ite (safe_ite h.ropeReceive ?_) h
  split
  · exact safe_ite h.ropeReceive.collect.answerHello h.ropeReceive.collect
  · exact h.ropeReceive.collect
theorem runs_sessionFrame {port : Nat} {frame : RopeFrame} : RunsSafely (decide (port < 6)) s (execSessionFrame port frame s) := by
  unfold execSessionFrame
  dsimp only
  refine runs_onUnit fun h => safe_ite (safe_ite h.ropeReceive ?_) h
  split
  · exact safe_ite (safe_ite h.ropeReceive.collect.answerHello h.ropeReceive.collect) h.ropeReceive.collect.takeSession
  · exact h.ropeReceive.collect
theorem runs_reassemblyTimeout {port : Nat} : RunsSafely (decide (port < 6)) s (execReassemblyTimeout port s) := by
  unfold execReassemblyTimeout
  refine runs_onUnit fun h => ?_
  split
  · exact h.when fun h => h.dropPart
  · exact h
theorem runs_ropeReplayTimeout {port : Nat} : RunsSafely (decide (port < 6)) s (execRopeReplayTimeout port s) := runs_onUnit fun h => h.when
    fun h => h.ropeReplay
theorem runs_ropeAckTimer {port : Nat} : RunsSafely (decide (port < 6)) s (execRopeAckTimer port s) := runs_onUnit fun h => h.when fun h => h.ropeCtrl
theorem runs_fecThreshold {port : Nat} {lane : Nat} : RunsSafely (decide (port < 6) && decide (lane < 16)) s (execFecThreshold port lane s) :=
  runs_onUnit_both fun h => h.when fun h => h.askSpare
theorem runs_spareSwap {port : Nat} {lane : Nat} : RunsSafely (decide (port < 6) && decide (lane < 16)) s (execSpareSwap port lane s) := by
  unfold execSpareSwap
  refine runs_onUnit_both fun h => ?_
  split
  · exact h.when fun h => h.modPortR.spareLane
  · exact h
theorem runs_bypassOpen {ring : Nat} : RunsSafely (decide (ring < 3)) s (execBypassOpen ring s) :=
  runs_onUnit fun h => h.when fun h => h.sets.modPortR.modPortR.ringUp
theorem runs_ropeRekey {port : Nat} : RunsSafely (decide (port < 6)) s (execRopeRekey port s) := runs_onUnit fun h => h.when fun h => h.sendHello
theorem runs_reductionStepOpen {k : Nat} : RunsSafely true s (execReductionStepOpen k s) := by
  unfold execReductionStepOpen
  dsimp only
  refine runs_next fun h => ?_
  split
  · exact h.when fun h => h.foldl fun h => h.modRope.request.writeGrans
  · exact h
theorem runs_reductionCutoff {shard : ShardRead} {k : Nat} : RunsSafely true s (execReductionCutoff shard k s) := by
  unfold execReductionCutoff
  refine runs_next fun h => ?_
  split
  · split
    · exact h.when fun h => h.endStep
    · exact h
  · exact h
theorem runs_reductionAbandon {shard : ShardRead} {k : Nat} : RunsSafely true s (execReductionAbandon shard k s) := by
  unfold execReductionAbandon
  refine runs_next fun h => ?_
  split
  · split
    · exact h.when fun h => h.endStep
    · exact h
  · exact h
theorem runs_inputVoltageChange {mv : Nat} : RunsSafely true s (execInputVoltageChange mv s) :=
  runs_next fun h => safe_ite h.congr.modPower (safe_ite h.congr.modPower.showInput.failStep h.congr.modPower.showInput)
theorem runs_converterFail {n : Nat} : RunsSafely (decide (n < 16)) s (execConverterFail n s) := runs_onUnit fun h => h.when fun h =>
    h.modPower.showInput.raise
theorem runs_regulatorFault {g : Nat} : RunsSafely (regionValid g) s (execRegulatorFault g s) :=
  runs_onRegion fun h => h.when fun h => safe_ite h.modPower.cut h.modPower
theorem runs_powerSample {watts : Nat} : RunsSafely true s (execPowerSample watts s) :=
  runs_next fun h => safe_ite h (safe_ite (safe_ite h.modPower.showInput.set.modSeq.modPower h.modPower.showInput.set.modSeq) (safe_ite
      h.modPower.showInput.set.modSeq.fastCut h.modPower.showInput.set.modSeq.modPower))
theorem runs_powerStepRaise : RunsSafely true s (execPowerStepRaise s) := runs_next fun h => safe_ite h.setPowerStep h
theorem runs_powerStepLower : RunsSafely true s (execPowerStepLower s) := runs_next fun h => safe_ite h.setPowerStep h
theorem runs_fastCutHoldEnd : RunsSafely true s (execFastCutHoldEnd s) := by
  unfold execFastCutHoldEnd
  refine runs_next fun h => ?_
  split
  · exact safe_ite h.modPower h
  · exact h
theorem runs_frequencyChange {g : Nat} : RunsSafely (regionValid g) s (execFrequencyChange g s) := runs_onRegion fun h => h.when fun h =>
    h.clockMark.set
theorem runs_refclkLost : RunsSafely true s (execRefclkLost s) := runs_next fun h => safe_ite h h.sets.congr.raise
theorem runs_refclkReturn : RunsSafely true s (execRefclkReturn s) := runs_next fun h => safe_ite h h.set.congr
theorem runs_houseClockBeacon {t : Nat} : RunsSafely true s (execHouseClockBeacon t s) := runs_next fun h => safe_ite h h.elapse
theorem runs_hcSyncExchange {t2 : Nat} {t3 : Nat} {t4 : Nat} {locked : Bool} {depth : Nat} :
    RunsSafely true s (execHcSyncExchange t2 t3 t4 locked depth s) :=
  runs_next fun h => safe_ite h (safe_ite h.ropeCtrlWith.congr.set (.elapse (.congr (safe_ite h.ropeCtrlWith.sets.inc h.ropeCtrlWith.sets))))
theorem runs_thermalStepUp {g : Nat} {temp : ℤ} : RunsSafely (regionValid g) s (execThermalStepUp g temp s) :=
  runs_onRegion fun h => safe_ite (safe_ite (safe_ite h.senseTemp.modTherm.dim h.senseTemp.modTherm) h.senseTemp) h
theorem runs_thermalStepDown {g : Nat} {temp : ℤ} : RunsSafely (regionValid g) s (execThermalStepDown g temp s) :=
  runs_onRegion fun h => safe_ite (safe_ite (safe_ite h.senseTemp.modTherm.set h.senseTemp.modTherm) h.senseTemp) h
theorem runs_ghostEntry {g : Nat} {temp : ℤ} {working : Nat} : RunsSafely (regionValid g) s (execGhostEntry g temp working s) :=
  runs_onRegion fun h => safe_ite (safe_ite h.set.ghost (safe_ite h.set.senseTemp.cut (safe_ite h.set.senseTemp.ghost h.set.senseTemp))) h
theorem runs_cutEntry {g : Nat} {temp : ℤ} : RunsSafely (regionValid g) s (execCutEntry g temp s) :=
  runs_onRegion fun h => safe_ite (safe_ite h.senseTemp.cut h.senseTemp) h
theorem runs_cutExit {g : Nat} {temp : ℤ} : RunsSafely (regionValid g) s (execCutExit g temp s) :=
  runs_onRegion fun h => safe_ite (safe_ite h.senseTemp.set.inc.restoreLinks.showGhost.raise h.senseTemp) h
theorem runs_ghostExit {g : Nat} {temp : ℤ} : RunsSafely (regionValid g) s (execGhostExit g temp s) :=
  runs_onRegion fun h => safe_ite (safe_ite h.senseTemp.light h.senseTemp) h
theorem runs_dorEnrol {value : Word64} : RunsSafely true s (execDorEnrol value s) := runs_next fun h => safe_ite (safe_ite h.enrol.set h.enrol) h
theorem runs_dorPolicy {value : Word64} : RunsSafely true s (execDorPolicy value s) := runs_next fun h => safe_ite h.setPolicy h
theorem runs_dorUnlock {value : Word64} : RunsSafely true s (execDorUnlock value s) :=
  runs_next fun h => safe_ite (.set (.draw (safe_ite h.unlock h.inc))) h
theorem runs_jtagInstruction {ir : Nat} : RunsSafely true s (execJtagInstruction ir s) := runs_next fun h => safe_ite h h.emit
theorem runs_doeAttest {obj : List Byte} : RunsSafely true s (execDoeAttest obj s) :=
  runs_next fun h => safe_ite h (safe_ite h.emit (safe_ite h.emit (safe_ite h.emit h.setQueue)))
theorem runs_setEndpointId {eid : Nat} : RunsSafely true s (execSetEndpointId eid s) := runs_next fun h => safe_ite h (safe_ite h.oobErr h.set.served)
theorem runs_dynamicAddressAssign {addr : Nat} : RunsSafely true s (execDynamicAddressAssign addr s) := runs_next fun h => safe_ite h h.sets
theorem runs_pldmSensorRead {sensor : Nat} : RunsSafely true s (execPldmSensorRead sensor s) := by
  unfold execPldmSensorRead
  dsimp only
  refine runs_next fun h => safe_ite h ?_
  split
  · exact h.oobErr
  · exact safe_ite h.served h.served
theorem runs_sensorRefresh {values : List (Nat × ℤ)} : RunsSafely true s (execSensorRefresh values s) := by
  unfold execSensorRefresh
  dsimp only
  refine runs_next fun h => safe_ite h ?_
  split
  · exact safe_ite (.failStep (.congr (h.foldl fun h => safe_ite h.senseTemp h))) (.congr (h.foldl fun h => safe_ite h.senseTemp h))
  · exact .congr (h.foldl fun h => safe_ite h.senseTemp h)
theorem runs_limitEffecter {watts : Nat} : RunsSafely true s (execLimitEffecter watts s) :=
  runs_next fun h => safe_ite h (safe_ite h.oobErr h.set.served)
theorem runs_stateCmd : RunsSafely true s (execStateCmd s) := runs_next fun h => safe_ite h h.served
theorem runs_cairnGet {seq : Nat} : RunsSafely true s (execCairnGet seq s) := by
  unfold execCairnGet
  refine runs_next fun h => safe_ite h ?_
  split <;> exact h.served
theorem runs_ropeSpare {port : Nat} {lane : Nat} : RunsSafely true s (execRopeSpare port lane s) :=
  runs_next fun h => safe_ite h (safe_ite h.oobErr (safe_ite h.oobErr h.askSpare.served))
theorem runs_depthSample : RunsSafely true s (execDepthSample s) := by
  unfold execDepthSample
  dsimp only
  exact runs_next fun h => safe_ite (safe_ite (h.congr.foldl fun h => h.stageKind) h.congr) h
theorem runs_counterSample : RunsSafely true s (execCounterSample s) :=
  runs_next fun h => safe_ite (safe_ite (.sampleCairn (.sampleDrops (safe_ite (.sampleRope (safe_ite (.sampleHub (safe_ite h.congr.sampleChannels
      h.congr)) (safe_ite h.congr.sampleChannels h.congr))) (safe_ite (.sampleHub (safe_ite h.congr.sampleChannels h.congr)) (safe_ite
      h.congr.sampleChannels h.congr))))) (.sampleDrops (safe_ite (.sampleRope (safe_ite (.sampleHub (safe_ite h.congr.sampleChannels h.congr))
      (safe_ite h.congr.sampleChannels h.congr))) (safe_ite (.sampleHub (safe_ite h.congr.sampleChannels h.congr)) (safe_ite
      h.congr.sampleChannels h.congr))))) h
theorem runs_telemetryWrite : RunsSafely true s (execTelemetryWrite s) := by
  unfold execTelemetryWrite
  dsimp only
  refine runs_next fun h => ?_
  split
  · split
    · exact safe_ite (safe_ite h.post.deliverEntry.setStaged h) h
    · exact h
  · exact h
theorem runs_powerQualified : RunsSafely true s (execPowerQualified s) := runs_next fun h => safe_ite h.modPins h
theorem runs_standbyEntry : RunsSafely true s (execStandbyEntry s) := runs_next fun h => safe_ite h.congr.modPins.draw.sets.showInput h
theorem runs_pwrOkLow : RunsSafely true s (execPwrOkLow s) := runs_next fun h => h.goOff.modPins
theorem runs_panelReset : RunsSafely true s (execPanelReset s) := runs_next fun h => h.goOff.modPins
theorem runs_powerLoss : RunsSafely true s (execPowerLoss s) := by
  unfold execPowerLoss
  refine runs_next fun h => ?_
  split
  · exact safe_ite h.goOff.modPins h
  · exact h
theorem runs_thermtrip : RunsSafely true s (execThermtrip s) := runs_next fun h => safe_ite h.modPins h
theorem runs_ropeTrainingDone {port : Nat} {ok : Bool} {badLanes : List Nat} :
    RunsSafely (decide (port < 6)) s (execRopeTrainingDone port ok badLanes s) :=
  runs_onUnit fun h => safe_ite h (safe_ite (safe_ite h (safe_ite h.modPortR.ringOn h.ringDown)) (safe_ite (safe_ite h (safe_ite h.ringDown
      h.trainLanes.ringUp)) (safe_ite (safe_ite h.ringDown (safe_ite h.trainLanes.sendHello h.trainLanes)) h)))
theorem runs_ropeLinkLost {port : Nat} : RunsSafely (decide (port < 6)) s (execRopeLinkLost port s) := runs_onUnit fun h => h.when fun h =>
    h.modPortR.inc.modRingR
theorem runs_ropeDisableDrainEnd {ring : Nat} : RunsSafely (decide (ring < 3)) s (execRopeDisableDrainEnd ring s) := by
  unfold execRopeDisableDrainEnd
  dsimp only
  refine runs_onUnit fun h => h.when fun h => ?_
  split
  · exact h.endRing.modRingR.openRing.settleDefer
  · exact h.endRing.modRingR
theorem runs_ropeHelloRetry {port : Nat} : RunsSafely (decide (port < 6)) s (execRopeHelloRetry port s) := runs_onUnit fun h => h.when fun h =>
    h.sendHello
theorem runs_hostAccessError {ring : Nat} : RunsSafely (decide (ring < 16384)) s (execHostAccessError ring s) := runs_onUnit fun h => h.when
    fun h => h.ringErr
theorem runs_busMasterEnableChange {enable : Bool} : RunsSafely true s (execBusMasterEnableChange enable s) := runs_next fun h => safe_ite h h.modHost
theorem runs_mbDoorbellGo {mb : Nat} {req : NyReq} : RunsSafely (decide (mb < 8)) s (execMbDoorbellGo mb req s) := runs_nymakRow fun h => h
theorem runs_regionControllerUnreachable {g : Nat} : RunsSafely (regionValid g) s (execRegionControllerUnreachable g s) :=
  runs_onRegion fun h => h.when fun h => safe_ite (.fenceRoute (safe_ite h.modMaps.loseRegion h.modMaps)) (safe_ite h.modMaps.loseRegion h.modMaps)
theorem runs_oobUnsupportedMessage {ty : Nat} : RunsSafely true s (execOobUnsupportedMessage ty s) := runs_next fun h => safe_ite h h.oobErr
/-- Every command runs on a unit of the panel, and keeps a state safe. -/
theorem exec_runsSafely (i : Instr) (s : State) : RunsSafely i.unitOk s (exec i s) := by
  cases i
  exacts [runs_registerWrite, runs_eventEnableWrite, runs_sweepCtrlWrite, runs_mcInjectArm, runs_vcInjectArm, runs_arbApply,
      runs_faultReportArrival, runs_fenceRemove, runs_mDescriptorDecode, runs_kStep, runs_kStepCheck, runs_replayDone, runs_drainRow,
      runs_beatStart, runs_vnop, runs_vadd, runs_vsub, runs_vmul, runs_vfma, runs_vmax, runs_vmin, runs_vabs, runs_vneg, runs_vcmp, runs_vsel,
      runs_vmov, runs_viadd, runs_visub, runs_vimul, runs_vand, runs_vor, runs_vxor, runs_vshl, runs_vshr, runs_vsar, runs_vcvt, runs_vcvtw,
      runs_vqmx, runs_vqb, runs_vdq, runs_vitof, runs_vftoi, runs_vexp2, runs_vlog2, runs_vrcp, runs_vrsqrt, runs_vtanh, runs_vsigm, runs_vgelu,
      runs_vrsum, runs_vrmax, runs_vrmin, runs_vrargmax, runs_vrisum, runs_vperm, runs_vrot, runs_vbcast, runs_vsplat, runs_vext, runs_vmlog,
      runs_vld, runs_vst, runs_vgath, runs_vscat, runs_vrecv, runs_vsend, runs_vcuew, runs_vcuep, runs_vamov, runs_vaadd, runs_vloop, runs_vbr,
      runs_vbnz, runs_vend, runs_sNop, runs_sAdd, runs_sSub, runs_sAnd, runs_sOr, runs_sXor, runs_shl, runs_shr, runs_sar, runs_sMul, runs_mulhu,
      runs_sMin, runs_sMax, runs_minu, runs_maxu, runs_addi, runs_andi, runs_ori, runs_xori, runs_shli, runs_shri, runs_sari, runs_seti,
      runs_appi, runs_cmp, runs_cmpi, runs_plog, runs_sLd, runs_ldw, runs_sSt, runs_stw, runs_fadd, runs_fmul, runs_fcmp, runs_fcvt, runs_br,
      runs_brl, runs_jr, runs_cue, runs_cuew, runs_sSend, runs_sRecv, runs_psel, runs_post, runs_greq, runs_bara, runs_barw, runs_flago,
      runs_flagr, runs_kvreq, runs_kvpoll, runs_rand, runs_ctr, runs_sEnd, runs_correctedWriteBack, runs_remoteWrite, runs_grantAcquire,
      runs_grantRelease, runs_grantFree, runs_grantAnswer, runs_sweepStrip, runs_seamFlitTime, runs_seamErrorThreshold, runs_seamWireTestDone,
      runs_seamRetrainDone, runs_slotPeriodStart, runs_circuitSlot, runs_riggingRewrite, runs_packetHop, runs_detourInstall, runs_vc2ItemHop,
      runs_transportReceive, runs_transportNak, runs_transportResendTimeout, runs_transportAckTimer, runs_transportCredit, runs_packetDeliver,
      runs_packetRead, runs_readData, runs_multicastCopy, runs_multicastNak, runs_barrierArrival, runs_barrierCompletion, runs_flagUpdate,
      runs_flagValue, runs_channelDrainDone, runs_messageArrival, runs_creditFlushTimer, runs_creditItem, runs_cueArrival,
      runs_chorusContribution, runs_chorusWindowItem, runs_gateStep, runs_cueTimeout, runs_wingMove, runs_channelStall, runs_barrierStall,
      runs_hangDeclare, runs_sceneBarrierArrival, runs_sceneRefillDone, runs_actOpen, runs_curtainCommit, runs_watchdogPeriod,
      runs_completionDelivery, runs_roster, runs_append, runs_appendLanded, runs_complete, runs_stream, runs_fetch, runs_pageDelivery,
      runs_slotCloseDone, runs_prompt, runs_enrol, runs_arbiterPeriod, runs_arbiterGrant, runs_dramRead, runs_dramWrite,
      runs_dramCorrectedRewrite, runs_bar4Access, runs_porterDesc, runs_porterNop, runs_porterCopy, runs_porterFill, runs_porterFence,
      runs_porterDone, runs_porterSteal, runs_porterGrantRetry, runs_spotRehearsal, runs_dressRehearsalDone, runs_pairedItemCompare,
      runs_pairedItemTimeout, runs_tallySample, runs_tallyCompare, runs_tallyTimeout, runs_cairnFlush, runs_progressStuck, runs_quiesceDone,
      runs_quiesceTimeout, runs_heartbeatTick, runs_heartbeatLoss, runs_coreRejoin, runs_snapshotDone, runs_computeResetDone,
      runs_computeResetTimeout, runs_restartFromBelay, runs_belayHold, runs_belayCopyDone, runs_pcieLinkTrain, runs_pcieReset ‹_›,
      runs_bar4Resize, runs_hello, runs_packageLoad, runs_packageLoadProceed, runs_packageUnload, runs_channelCreate, runs_channelDestroy,
      runs_actSchedule, runs_actStop, runs_slotOpen, runs_slotClose, runs_belaySet, runs_restart, runs_strike, runs_fenceQuery, runs_requalify,
      runs_regionReturnDone, runs_attest, runs_evidenceSign, runs_keyImport, runs_kemKeyMake, runs_ropeEnable, runs_ropeDisable, runs_ropePeers,
      runs_ropeConfigSpare, runs_ropeLanding, runs_ropeLandingClose, runs_reduceConfig, runs_telemetryConfig, runs_cairnRead, runs_modeSet,
      runs_snapshotRead, runs_deferralFinal, runs_ringDoorbell, runs_padEntry, runs_messageEntry, runs_ringIrqTimer, runs_ringShutdownDone,
      runs_startCold, runs_startWarm, runs_powerCheck, runs_secureBoot, runs_fwLoad, runs_seamTrain, runs_dramTrain, runs_ropeTrain, runs_bist,
      runs_mapMerge, runs_partnerCheck, runs_riggingBase, runs_dressRehearsal, runs_strikeStep, runs_readyStep, runs_stepComplete,
      runs_stepTimeout, runs_loadRecheck, runs_loadRecheckDone, runs_powerBandLight, runs_streamFrame, runs_partialFrame, runs_paramFrame,
      runs_ctrlFrame, runs_ropeHelloFrame, runs_sessionFrame, runs_reassemblyTimeout, runs_ropeReplayTimeout, runs_ropeAckTimer,
      runs_fecThreshold, runs_spareSwap, runs_bypassOpen, runs_ropeRekey, runs_reductionStepOpen, runs_reductionCutoff, runs_reductionAbandon,
      runs_inputVoltageChange, runs_converterFail, runs_regulatorFault, runs_powerSample, runs_powerStepRaise, runs_powerStepLower,
      runs_fastCutHoldEnd, runs_frequencyChange, runs_refclkLost, runs_refclkReturn, runs_houseClockBeacon, runs_hcSyncExchange,
      runs_thermalStepUp, runs_thermalStepDown, runs_ghostEntry, runs_cutEntry, runs_cutExit, runs_ghostExit, runs_dorEnrol, runs_dorPolicy,
      runs_dorUnlock, runs_jtagInstruction, runs_doeAttest, runs_setEndpointId, runs_dynamicAddressAssign, runs_pldmSensorRead,
      runs_sensorRefresh, runs_limitEffecter, runs_stateCmd, runs_cairnGet, runs_ropeSpare, runs_depthSample, runs_counterSample,
      runs_telemetryWrite, runs_powerQualified, runs_standbyEntry, runs_pwrOkLow, runs_panelReset, runs_powerLoss, runs_thermtrip,
      runs_ropeTrainingDone, runs_ropeLinkLost, runs_ropeDisableDrainEnd, runs_ropeHelloRetry, runs_hostAccessError, runs_busMasterEnableChange,
      runs_mbDoorbellGo, runs_regionControllerUnreachable, runs_oobUnsupportedMessage]
end Sys2Proof
end
section
namespace Sys2Proof
open Machine
/-- Settles O2: what every command answers, taken apart by whether its unit is there. -/
theorem commandsOnUnitsRun : Obligations.CommandsOnUnitsRun := by
  intro i s
  obtain ⟨hok, hno⟩ := exec_runsSafely i s
  refine ⟨fun h => (hok h).imp fun _ ht => ht.1, hno, fun r hr => ?_⟩
  cases hu : i.unitOk
  · obtain ⟨n, hn⟩ := hno hu
    rw [hn] at hr
    cases hr
  · obtain ⟨t, ht, -⟩ := hok hu
    rw [ht] at hr
    cases hr
/-- A safe state with a command at the front of its queue answers a safe state. -/
theorem Safe.exec_pending {s : State} {c : Instr} {rest : List Instr} (h : Safe s) (hq : s.pending = c :: rest) :
    ∃ t, exec c { s with pending := rest } = .next t ∧ Safe t := by
  obtain ⟨hm, hp⟩ := h
  rw [hq, List.forall_mem_cons] at hp
  obtain ⟨hc, hr⟩ := hp
  obtain ⟨t, ht, hs⟩ := (exec_runsSafely c { s with pending := rest }).1 (Bool.and_eq_true_iff.1 hc).1
  exact ⟨t, ht, hs ⟨hm, hr⟩⟩
/-- Settles O3: each command keeps a safe state safe, and so does the house clock that goes on. -/
theorem stepKeepsSafe : Obligations.StepKeepsSafe := by
  intro s h
  suffices hs : ∃ t, step s = .next t ∧ Safe t by
    obtain ⟨t, ht, hsafe⟩ := hs
    refine ⟨⟨t, ht⟩, fun u hu => ?_⟩
    cases ht.symm.trans hu
    exact hsafe
  unfold step
  split
  · next hq => exact h.exec_pending hq
  · exact ⟨_, rfl, h.idle⟩
end Sys2Proof
end

section
/-! PROOFS. The machine as a whole and the register files (O1, O4, O5, O8, O14). -/

namespace Sys2Proof.Machine

/-- Settles O1: both clauses are the two equations of `step`. -/
theorem stepRunsFrontCommand : Obligations.StepRunsFrontCommand :=
  ⟨fun _ _ => rfl, fun s h => by rw [step, h]⟩

/-- Settles O4: the reset state lists nothing, so each clause is a look-up in an empty list. -/
theorem resetState : Obligations.ResetState := by
  have hreg : ∀ o, State.reset.reg o = resetWord o := fun _ => rfl
  have hget : ∀ f : RF, State.reset.get f = bits (resetWord f.off) f.lo f.w := fun _ => rfl
  refine ⟨⟨rfl, nofun⟩, ?_, rfl, hreg, fun _ => rfl, rfl, rfl, rfl, rfl, ?_, ?_, ?_, ?_⟩
  · rw [State.isIn, State.pst, hget]
    decide +kernel
  all_goals
    rw [hget]
    decide +kernel

/-- Settles O5. -/
theorem registersAndMemory : Obligations.RegistersAndMemory := by
  refine ⟨fun s f v h => ⟨s.get_set_self f v h, fun o ho => s.reg_set_ne f v ho, ?_, rfl⟩, fun s a bs => ⟨?_, ?_, s.wf_writeBytes a bs⟩,
    fun s lo hi => ⟨?_, fun x => s.byte_clearMem_out lo hi x, s.wf_clearMem lo hi⟩⟩
  · exact fun g hg h64 hd => s.get_set_disjoint v hg h64 hd
  · exact fun k hk => s.byte_writeBytes_in a k bs hk
  · exact fun x hx => s.byte_writeBytes_out bs hx
  · exact fun x hl hh => s.byte_clearMem_in lo hi x ⟨hl, hh⟩

/-- A bit that stands alone. -/
theorem testBit_setBits_one (x k n : Nat) (p : Bool) :
    (setBits x k 1 (b2n p)).testBit n = if n = k then p else x.testBit n := by
  rw [testBit_setBits]
  by_cases h : n = k
  · subst h
    cases p <;> simp [b2n]
  · rw [if_neg (by omega), if_neg h]

/-- Settles O14: register 0 is read and written by an equation of its own, the others through the list and the bit masks. -/
theorem scalarRegisters : Obligations.ScalarRegisters := by
  intro x k v p
  refine ⟨rfl, rfl, rfl, rfl, rfl, fun hk => ?_, fun j hj => ?_⟩
  · simp [SSt.setReg, SSt.setPred, SSt.reg, SSt.poison, SSt.pred, hk, bitAt, testBit_setBits_one]
  · by_cases hk : k = 0
    · simp [SSt.setReg, SSt.setPred, hk]
    · simp [SSt.setReg, SSt.setPred, SSt.reg, SSt.poison, SSt.pred, hk, bitAt, testBit_setBits_one, hj, SMap.getD_put_ne]

/-! ### Packed fields -/

/-- The first field stands below the others. -/
theorem packBits_succ (n w : Nat) (f : Nat → Nat) :
    packBits (n + 1) w f = f 0 % 2 ^ w + packBits n w (fun i => f (i + 1)) <<< w := by
  simp [packBits, List.range_succ_eq_map, List.foldr_map]

@[simp] theorem bits_packBits (n w i : Nat) (f : Nat → Nat) (h : i < n) : bits (packBits n w f) (i * w) w = f i % 2 ^ w := by
  induction n generalizing i f with
  | zero => omega
  | succ n ih =>
    have hlt : f 0 % 2 ^ w < 2 ^ w := Nat.mod_lt _ (Nat.two_pow_pos w)
    rw [packBits_succ, Nat.shiftLeft_eq]
    cases i with
    | zero => simp [bits]
    | succ i =>
      have hdiv : (f 0 % 2 ^ w + packBits n w (fun i => f (i + 1)) * 2 ^ w) >>> w = packBits n w fun i => f (i + 1) := by
        rw [Nat.shiftRight_eq_div_pow, Nat.add_mul_div_right _ _ (Nat.two_pow_pos w), Nat.div_eq_of_lt hlt, Nat.zero_add]
      rw [← ih i (fun i => f (i + 1)) (by omega), bits, bits, Nat.succ_mul, Nat.add_comm (i * w), Nat.shiftRight_add, hdiv]

/-- A flag of a packed set. -/
@[simp] theorem bitAt_packFlags (n i : Nat) (p : Nat → Bool) (h : i < n) : bitAt (packFlags n p) i = p i := by
  have hb := bits_packBits n 1 i (fun i => b2n (p i)) h
  have ht := testBit_bits (packFlags n p) i 1 0
  rw [Nat.mul_one] at hb
  rw [packFlags, hb] at ht
  cases hp : p i <;> simp_all [bitAt, packFlags, b2n]

/-- A part of a replaced field. -/
theorem bits_setBits_within (x lo w v k w' : Nat) (h : k + w' ≤ w) : bits (setBits x lo w v) (lo + k) w' = bits v k w' := by
  apply Nat.eq_of_testBit_eq
  intro n
  rw [testBit_bits, testBit_setBits, testBit_bits]
  by_cases hn : n < w'
  · simp [hn, show lo ≤ lo + k + n ∧ lo + k + n < lo + w by omega, show lo + k + n - lo = k + n by omega]
  · simp [hn]

/-! ### Vector registers (R87) -/

/-- What a write leaves in its register: the packed elements between the other bits. -/
theorem VSt.vec_write_self (x : VSt) (vd off w n m : Nat) (val : Nat → Nat) (pois : Nat → Bool) :
    (x.write vd off w n m val pois).vec vd =
      setBits (x.vec vd) off (n * w) (packBits n w fun e => if vactive m off w e then val e else bits (x.vec vd) (off + e * w) w) := by
  simp [VSt.write, VSt.vec]

/-- At 32 bits the element in a slot is the slot's own. -/
theorem indices_inSlot_32 (e : Nat) (h : e < 64) : indices 64 (fun k => inSlot 0 32 k e) = [e] := by
  have hs : ∀ k, inSlot 0 32 k e = decide (k = e) := fun k => by
    rw [inSlot, ← Bool.decide_and, decide_eq_decide]
    omega
  simp only [indices, hs]
  clear hs
  revert e
  decide +kernel

/-- Settles O8. -/
theorem vectorRegisters : Obligations.VectorRegisters := by
  refine ⟨fun x vd m val pois e he => ?_, fun x vd off w n m val pois hw => ⟨fun e he => ?_, fun b hb => ?_, fun r hr => ?_, rfl, rfl⟩⟩
  · simp only [VSt.write, VSt.vpoison, SMap.getD_put_self]
    rw [bitAt_packFlags _ _ _ he, indices_inSlot_32 e he]
    simp
  · have hle : e * w + w ≤ n * w := by
      rw [← Nat.succ_mul]
      exact Nat.mul_le_mul_right w he
    rw [VSt.vec_write_self, bits_setBits_within _ _ _ _ _ _ hle, bits_packBits _ _ _ _ he]
    split
    · rfl
    · exact Nat.mod_eq_of_lt (bits_lt _ _ _)
  · rw [VSt.vec_write_self, bitAt, testBit_setBits, if_neg (by omega), bitAt]
  · simp [VSt.write, VSt.vec, VSt.vpoison, SMap.getD_put_ne _ _ _ hr]
end Sys2Proof.Machine
end

section
/-! PROOFS. S-cells: what the row of an instruction does, and the statements on arithmetic, control and memory (O15-O17). -/

namespace Sys2Proof.Machine
open Sys2Proof.Says

/-! ### The next instruction -/

@[simp] theorem State.fenced_modCell (s : State) (c : Nat) (f : CellSt → CellSt) (d : Nat) : (s.modCell c f).fenced d = s.fenced d := rfl
@[simp] theorem State.fenced_modEng (s : State) (c : Nat) (f : EngSt → EngSt) (d : Nat) : (s.modEng c f).fenced d = s.fenced d := rfl

/-- The length of a program is that of the current scene's image. -/
theorem State.progLen_congr {s t : State} {c : Nat} (h : (t.cell c).scene.cur = (s.cell c).scene.cur) : t.progLen c = s.progLen c := by
  rw [State.progLen, h, State.progLen]

/-- An unfenced engine goes on at a place within its program. -/
theorem State.engineAt_within {s : State} {c pc : Nat} (hf : s.fenced c = false) (hp : pc < s.progLen c) :
    s.engineAt c pc = s.modEng c fun e => goesOn e pc s.now := by
  have hl : (s.modEng c fun e => goesOn e pc s.now).progLen c = s.progLen c := State.progLen_congr (by simp [State.modEng])
  rw [State.engineAt, if_neg (by simp [hf])]
  exact if_pos (hl ▸ hp)

/-- A jump to a place within the program. -/
theorem State.sJump_within {s : State} {c t : Nat} (hf : s.fenced c = false) (ht : t < s.progLen c) :
    s.sJump c t = s.modEng c fun e => goesOn e t s.now := by
  rw [State.sJump, if_neg (by omega), Int.toNat_natCast, State.engineAt_within hf ht]

/-- New registers, and the engine at a place within its program. -/
theorem State.engineAt_modCell {s : State} {c pc : Nat} (x : SSt) (hf : s.fenced c = false) (hp : pc < s.progLen c) :
    (s.modCell c fun y => { y with sc := x }).engineAt c pc = sNext s c x pc := by
  have hl : (s.modCell c fun y => { y with sc := x }).progLen c = s.progLen c := State.progLen_congr (by simp)
  exact State.engineAt_within hf (hl ▸ hp)

/-! ### The row of an instruction -/

section
variable {c : CellAddr} {i op : Nat} {hw : SHw} {s : State} {f : Nat → State → State}

/-- The S-cell stands at the instruction of the row, fetched without an uncorrectable word. -/
theorem sRow_at (hc : cellIs .s c = true) (hi : s.insAt c.toNat = some i) (hop : sOp i = op) :
    sRow op c hw s f = .next (if hw.store then s.storeFault c.toNat
      else match hw.lock.filter (·.point < 6) with
        | some h => s.lockstepFault c.toNat h
        | none => if sGuard (s.sst c.toNat) i then f i s else s.sDone c.toNat (s.sst c.toNat)) := by
  have hu : decide (cellValid c.toNat = true ∧ engineOf c.toNat = .s) = true := by
    simpa [cellIs] using hc
  simp only [sRow, hu, onUnit, hi, hop]
  rfl

/-- An instruction that nothing stops has its effect. -/
theorem sRow_there (h : SThere c i hw s) (hop : sOp i = op) : sRow op c hw s f = .next (f i s) := by
  obtain ⟨hc, hi, -, -, hl, hs, hg⟩ := h
  rw [sRow_at hc hi hop]
  simp [hl, hs, hg]

theorem State.sDone_ready (h : SReady c i hw s) (x : SSt) : s.sDone c.toNat x = sNext s c.toNat x ((s.cell c.toNat).eng.pc + 1) := by
  obtain ⟨⟨-, -, hf, -⟩, hp⟩ := h
  rw [State.sDone, if_neg (by simp [hf]), State.engineAt_modCell x hf hp]
end

/-- What `SRun` says of one row. -/
def SRowRuns (r : SOp) : Prop := ∀ (c : CellAddr) (i : Nat) (hw : SHw) (s : State), SReady c i hw s → sOp i = r.op →
  exec (r.ins c hw) s = .next (sNext s c.toNat (r.res s c.toNat i) ((s.cell c.toNat).eng.pc + 1))

/-- An instruction whose command writes registers and is done. -/
theorem sRowRuns_of_done {r : SOp}
    (he : ∀ c hw s, exec (r.ins c hw) s = sRow r.op c hw s fun i s => s.sDone c.toNat (r.res s c.toNat i)) : SRowRuns r := by
  intro c i hw s h hop
  rw [he, sRow_there h.1 hop, State.sDone_ready h]

/-- Settles O15: every row's command is done with the registers of the row. -/
theorem sArithmetic : Obligations.SArithmetic := by
  change ∀ r ∈ _, SRowRuns r
  simp only [List.cons_append, List.nil_append, List.forall_mem_cons]
  refine ⟨?_, ?_, ?_, ?_, ?_, ?_, ?_, ?_, ?_, ?_, ?_, ?_, ?_, ?_, ?_, ?_, ?_, ?_, ?_, ?_, ?_, ?_, ?_, ?_, ?_, ?_, ?_, ?_, nofun⟩
  all_goals exact sRowRuns_of_done fun _ _ _ => rfl

/-- A jump that writes registers first. -/
theorem State.sJump_modCell {s : State} {c t : Nat} (x : SSt) (hf : s.fenced c = false) (ht : t < s.progLen c) :
    (s.modCell c fun y => { y with sc := x }).sJump c t = sNext s c x t := by
  rw [State.sJump, if_neg (by omega), Int.toNat_natCast, State.engineAt_modCell x hf ht]

/-- A comparison of operands that are not both clean stops the program. -/
theorem poison_or {x : SSt} {j k : Nat} (h : x.poison j = true) : (x.poison j || x.poison k) = true := by rw [h, Bool.true_or]

/-! ### Tables and cells written twice -/

theorem SMap.del_of_get?_none {α : Type} (m : SMap α) (a : Nat) (h : SMap.get? m a = none) : SMap.del m a = m := by
  induction m with
  | nil => rfl
  | cons p m ih =>
    have hp : p.1 ≠ a := by
      intro e
      simp [SMap.get?, e] at h
    have hm : SMap.get? m a = none := by simpa [SMap.get?, hp] using h
    simp [SMap.del, hp, ih hm]

theorem SMap.del_ins {α : Type} (m : SMap α) (a : Nat) (x : α) (h : SMap.get? m a = none) : SMap.del (SMap.ins m a x) a = m := by
  induction m with
  | nil => simp [SMap.ins, SMap.del]
  | cons p m ih =>
    have hp : p.1 ≠ a := by
      intro e
      simp [SMap.get?, e] at h
    have hm : SMap.get? m a = none := by simpa [SMap.get?, hp] using h
    by_cases hlt : p.1 < a
    · simp [SMap.ins, SMap.del, hlt, hp, ih hm]
    · simp [SMap.ins, SMap.del, hlt, hp, SMap.del_of_get?_none m a hm]

/-- The later of two puts at a key counts. -/
@[simp] theorem SMap.put_put {α : Type} (m : SMap α) (a : Nat) (x y : α) : SMap.put (SMap.put m a x) a y = SMap.put m a y := by
  rw [SMap.put, SMap.put, SMap.del_ins _ _ _ (SMap.get?_del_self m a), SMap.put]

/-- Two changes of a cell are one. -/
@[simp] theorem State.modCell_modCell (s : State) (c : Nat) (f g : CellSt → CellSt) :
    (s.modCell c f).modCell c g = s.modCell c fun x => g (f x) := by
  simp [State.modCell, State.setCell, State.cell]

/-- Registers that stay. -/
theorem sNext_same (s : State) (c pc : Nat) : sNext s c (s.sst c) pc = s.modEng c fun e => goesOn e pc s.now := by
  rw [sNext, State.modEng, State.modCell_modCell]
  rfl

/-- Settles O16: the row of each instruction, then the branch that the operands choose. -/
theorem sControl : Obligations.SControl := by
  refine ⟨fun c i hw s h => ⟨fun ha hb => ⟨fun hop => ?_, fun hop => ?_⟩, fun ha hop => ?_, fun hop => ?_,
      fun ha => ⟨fun hop => ?_, fun hop => ?_, fun hop => ?_⟩⟩,
    fun c i hw s h => ⟨fun t ht hl => ⟨fun hop => ?_, fun hop => ?_⟩, fun hop ha hl => ?_, fun hop ha hl => ?_,
      fun hop hl => ⟨fun hk => ?_, fun hk => ?_, fun hk => ?_, fun hk => ?_⟩, fun hop => ?_⟩⟩
  · change execCmp c hw s = _
    rw [execCmp, sRow_there h.1 hop]
    simp [ha, hb, State.sDone_ready h]
  · have hab : ¬((s.sst c.toNat).poison (sGa i) || (s.sst c.toNat).poison (sGb i)) = true := by simp [ha, hb]
    change execFcmp c hw s = _
    rw [execFcmp, sRow_there h.1 hop]
    dsimp only
    rw [if_neg hab, State.sDone_ready h]
    rfl
  · change execCmpi c hw s = _
    rw [execCmpi, sRow_there h.1 hop]
    simp [ha, State.sDone_ready h, sImm64]
  · change execPlog c hw s = _
    rw [execPlog, sRow_there h.1 hop]
    exact congrArg _ (State.sDone_ready h _)
  · change execCmp c hw s = _
    rw [execCmp, sRow_there h.1 hop]
    exact congrArg _ (if_pos (poison_or ha))
  · change execCmpi c hw s = _
    rw [execCmpi, sRow_there h.1 hop]
    exact congrArg _ (if_pos ha)
  · change execFcmp c hw s = _
    rw [execFcmp, sRow_there h.1 hop]
    exact congrArg _ (if_pos (poison_or ha))
  · change execBr c hw s = _
    rw [execBr, sRow_there h hop, ← ht, State.sJump_within h.2.2.1 hl]
  · change execBrl c hw s = _
    rw [execBrl, sRow_there h hop]
    dsimp only
    rw [← ht]
    exact congrArg _ (State.sJump_modCell _ h.2.2.1 hl)
  · change execJr c hw s = _
    rw [execJr, sRow_there h hop]
    simp [ha, Nat.not_le.2 hl, State.engineAt_within h.2.2.1 hl]
  · change execJr c hw s = _
    rw [execJr, sRow_there h hop]
    simp [ha, hl]
  iterate 4
    change execCtr c hw s = _
    rw [execCtr, sRow_there h hop]
    simp [hk, State.sDone_ready ⟨h, hl⟩]
  · change execSEnd c hw s = _
    rw [execSEnd, sRow_there h hop, h.2.2.2.1]

/-! ### Runs of bytes and words of a scratchpad -/

@[simp] theorem State.bytes_length (s : State) (a n : Nat) : (s.bytes a n).length = n := by
  induction n generalizing a with
  | zero => rfl
  | succ n ih => simp [State.bytes, ih]

@[simp] theorem State.getElem_bytes (s : State) (a n k : Nat) (h : k < (s.bytes a n).length) : (s.bytes a n)[k] = s.byte (a + k) := by
  induction n generalizing a k with
  | zero => simp [State.bytes] at h
  | succ n ih =>
    cases k with
    | zero => rfl
    | succ k => simp [State.bytes, ih, Nat.add_assoc, Nat.add_comm 1 k]

/-- A list of bytes that stand in memory. -/
theorem State.bytes_eq (s : State) (a : Nat) (bs : List Byte) (h : ∀ k (hk : k < bs.length), s.byte (a + k) = bs[k]) :
    s.bytes a bs.length = bs :=
  List.ext_getElem (by simp) fun k _ hk => by rw [State.getElem_bytes, h k hk]

/-- A part of a run. -/
theorem State.take_drop_bytes (s : State) (a : Nat) {n k m : Nat} (h : k + m ≤ n) : ((s.bytes a n).drop k).take m = s.bytes (a + k) m :=
  List.ext_getElem (by simp; omega) fun j _ _ => by simp [Nat.add_assoc]

theorem eccAt_nil (w : Nat) : eccAt [] w = none := rfl

/-- A word without poison and without a code event. -/
theorem State.readWord_clean {s : State} {c o m : Nat} (h : s.mem.spPoison.contains (spWord c o) = false) :
    s.readWord c o m [] = (⟨s.bytes (spWord c o * 32) 32, false⟩, s) := by
  rw [State.readWord, eccAt_nil]
  simp only [h, Bool.false_eq_true, if_false]

/-- The word under an offset starts at the multiple of 32 below. -/
theorem spWord_base (c o : Nat) : spWord c (o / 32 * 32) * 32 + o % 32 = spAddr c o := by
  simp only [spWord, spAddr, Nat.shiftLeft_eq]
  omega

theorem State.readPart_clean {s : State} {c o n : Nat} (h : s.mem.spPoison.contains (spWord c (o / 32 * 32)) = false) (hn : o % 32 + n ≤ 32) :
    (s.readPart c o []).1.take n = s.bytes (spAddr c o) n ∧ (s.readPart c o []).2 = (false, s) := by
  rw [State.readPart, State.readWord_clean h]
  exact ⟨by rw [State.take_drop_bytes _ _ hn, spWord_base], rfl⟩

/-- An aligned access of 4 or 8 bytes stays within its word. -/
theorem aligned_within {o n : Nat} (hn : n = 4 ∨ n = 8) (h : o % n = 0) : o % 32 + n ≤ 32 := by
  obtain rfl | rfl := hn <;> omega

/-- An allowed bank access is aligned. -/
theorem State.aligned_of_bankCause {s : State} {c o n al : Nat} (h : s.bankCause c o n al = none) : o % al = 0 := by
  by_contra hne
  simp [State.bankCause, hne] at h

/-- A list with the elements from a place on replaced. -/
def splice {α : Type} (old bs : List α) (p : Nat) : List α := old.take p ++ bs ++ old.drop (p + bs.length)

section
variable {α : Type} {old bs : List α} {p : Nat}

theorem splice_length (h : p + bs.length ≤ old.length) : (splice old bs p).length = old.length := by
  simp [splice]
  omega

theorem getElem_splice_in {k : Nat} (h : p + bs.length ≤ old.length) (hk : k < bs.length)
    (hj : p + k < (splice old bs p).length) : (splice old bs p)[p + k] = bs[k] := by
  have hp : (old.take p).length = p := List.length_take_of_le (by omega)
  simp only [splice]
  rw [List.getElem_append_left (by simp; omega), List.getElem_append_right (by omega)]
  simp only [hp, Nat.add_sub_cancel_left]

theorem getElem_splice_out {j : Nat} (h : p + bs.length ≤ old.length) (hj : j < (splice old bs p).length)
    (hout : j < p ∨ p + bs.length ≤ j) : (splice old bs p)[j] = old[j]'(splice_length h ▸ hj) := by
  have hp : (old.take p).length = p := List.length_take_of_le (by omega)
  simp only [splice]
  rcases hout with hlt | hge
  · rw [List.getElem_append_left (by simp; omega), List.getElem_append_left (by omega), List.getElem_take]
  · rw [List.getElem_append_right (by simp; omega), List.getElem_drop]
    congr 1
    simp
    omega
end

/-- A store of part of a clean word leaves the new bytes, and nothing else of memory changes. -/
theorem State.byte_writePart {s : State} {c o : Nat} {bs : List Byte} (h : s.mem.spPoison.contains (spWord c (o / 32 * 32)) = false)
    (hn : o % 32 + bs.length ≤ 32) :
    (∀ k (hk : k < bs.length), (s.writePart c o bs false []).byte (spAddr c o + k) = bs[k]) ∧
      ∀ p, p < spAddr c o ∨ spAddr c o + bs.length ≤ p → (s.writePart c o bs false []).byte p = s.byte p := by
  have hb := spWord_base c o
  generalize hW : spWord c (o / 32 * 32) * 32 = W at hb
  have hfit : o % 32 + bs.length ≤ (s.bytes W 32).length := by rwa [State.bytes_length]
  have hL : (splice (s.bytes W 32) bs (o % 32)).length = 32 := by rw [splice_length hfit, State.bytes_length]
  have hw : ∀ p, (s.writePart c o bs false []).byte p = (s.writeBytes W (splice (s.bytes W 32) bs (o % 32))).byte p := fun p => by
    rw [State.writePart, State.readWord_clean h, hW]
    simp only [State.writeWord, hW, Bool.or_self, Bool.false_eq_true, if_false]
    rw [← splice, List.take_of_length_le (Nat.le_of_eq hL)]
    rfl
  refine ⟨fun k hk => ?_, fun p hp => ?_⟩
  · rw [hw, ← hb, Nat.add_assoc, State.byte_writeBytes_in _ _ _ _ (by omega), getElem_splice_in hfit hk]
  · rw [hw]
    by_cases hout : p < W ∨ W + 32 ≤ p
    · exact State.byte_writeBytes_out _ _ (hL.symm ▸ hout)
    · obtain ⟨k, rfl⟩ : ∃ k, p = W + k := ⟨p - W, by omega⟩
      rw [State.byte_writeBytes_in _ _ _ _ (by omega), getElem_splice_out hfit _ (by omega), State.getElem_bytes]

/-- It changes nothing but the memory. -/
theorem State.writePart_eq {s : State} {c o : Nat} (bs : List Byte) (h : s.mem.spPoison.contains (spWord c (o / 32 * 32)) = false) :
    s.writePart c o bs false [] = { s with mem := (s.writePart c o bs false []).mem } := by
  rw [State.writePart, State.readWord_clean h]
  rfl

section
variable {c : CellAddr} {i n : Nat} {hw : SHw} {s : State} (h : SReady c i hw s) (hg : (s.sst c.toNat).poison (sGa i) = false)
  (hp : ∀ k, s.mem.spPoison.contains (spWord c.toNat k) = false) (hn : n = 4 ∨ n = 8)
  (hb : s.bankCause c.toNat (sAddress (s.sst c.toNat) i) n n = none)
include h hg hp hn hb

/-- An allowed load of clean words. -/
theorem State.sLoad_clean : s.sLoad c.toNat i n hw.ecc = sNext s c.toNat
    ((s.sst c.toNat).setReg (sGd i) (ofLE (s.bytes (spAddr c.toNat (sAddress (s.sst c.toNat) i)) n)) false) ((s.cell c.toNat).eng.pc + 1) := by
  have hw32 := aligned_within hn (State.aligned_of_bankCause hb)
  obtain ⟨hd, hr⟩ := State.readPart_clean (hp _) hw32
  rw [State.sLoad]
  simp only [hg, Bool.false_eq_true, if_false, hb, h.1.2.2.2.1, hd, hr]
  exact State.sDone_ready h _

/-- An allowed store of a clean register into clean words. -/
theorem State.sStore_clean (hd : (s.sst c.toNat).poison (sGd i) = false) (t : State) (ht : s.sStore c.toNat i n hw.ecc = t) :
    t.bytes (spAddr c.toNat (sAddress (s.sst c.toNat) i)) n = toLE n ((s.sst c.toNat).reg (sGd i)) ∧
    (∀ p, p < spAddr c.toNat (sAddress (s.sst c.toNat) i) ∨ spAddr c.toNat (sAddress (s.sst c.toNat) i) + n ≤ p → t.byte p = s.byte p) ∧
    t.cells = (s.modEng c.toNat fun e => goesOn e ((s.cell c.toNat).eng.pc + 1) s.now).cells ∧ t.regs = s.regs := by
  have hfit : sAddress (s.sst c.toNat) i % 32 + (toLE n ((s.sst c.toNat).reg (sGd i))).length ≤ 32 := by
    rw [toLE_length]
    exact aligned_within hn (State.aligned_of_bankCause hb)
  obtain ⟨u, hu⟩ : ∃ u, s.writePart c.toNat (sAddress (s.sst c.toNat) i) (toLE n ((s.sst c.toNat).reg (sGd i))) false [] = u := ⟨_, rfl⟩
  have hm := State.writePart_eq (toLE n ((s.sst c.toNat).reg (sGd i))) (hp (sAddress (s.sst c.toNat) i / 32 * 32))
  obtain ⟨hin, hout⟩ := State.byte_writePart (hp _) hfit
  rw [hu] at hm hin hout
  have hr : SReady c i hw u := by
    rw [hm]
    exact h
  have hst : t = u.modEng c.toNat fun e => goesOn e ((u.cell c.toNat).eng.pc + 1) u.now := by
    rw [← ht, State.sStore]
    simp only [hg, Bool.false_eq_true, if_false, hb, h.1.2.2.2.1, hd, hu]
    rw [State.sDone_ready hr, sNext_same]
  have hbyte : ∀ p, t.byte p = u.byte p := fun p => by rw [hst]; rfl
  refine ⟨?_, fun p hout' => ?_, ?_, ?_⟩
  · have := State.bytes_eq t (spAddr c.toNat (sAddress (s.sst c.toNat) i)) (toLE n ((s.sst c.toNat).reg (sGd i)))
      fun k hk => (hbyte _).trans (hin k hk)
    rwa [toLE_length] at this
  · rw [hbyte]
    exact hout p (by rwa [toLE_length])
  · rw [hst, hm]
    rfl
  · rw [hst, hm]
    rfl
end

/-- Settles O17. -/
theorem sMemory : Obligations.SMemory := by
  intro c i hw s h a x o pc loads stores hg hp
  refine ⟨fun hop hb => ?_, fun hop hb => ?_, fun hd => ⟨fun hop hb => ?_, fun hop hb => ?_⟩⟩
  · change execSLd c hw s = _
    rw [execSLd, sRow_there h.1 hop, State.sLoad_clean h hg hp (.inr rfl) hb]
  · change execLdw c hw s = _
    rw [execLdw, sRow_there h.1 hop, State.sLoad_clean h hg hp (.inl rfl) hb]
  · exact ⟨_, (sRow_there h.1 hop : execSSt c hw s = _), State.sStore_clean h hg hp (.inr rfl) hb hd _ rfl⟩
  · exact ⟨_, (sRow_there h.1 hop : execStw c hw s = _), State.sStore_clean h hg hp (.inl rfl) hb hd _ rfl⟩
end Sys2Proof.Machine
end

section
/-! PROOFS. S-cells: queues, remote writes, barriers, flags, tickets and guards (O18-O21). -/

namespace Sys2Proof.Machine
open Sys2Proof.Says

/-- What is allowed for a run of bytes is allowed for none. -/
theorem State.bankCause_zero {s : State} {c o n al : Nat} (h : s.bankCause c o n al = none) : s.bankCause c o 0 al = none := by
  unfold State.bankCause at h ⊢
  split at h
  · cases h
  · rw [if_neg (by omega)]
    exact h

/-- Settles O18: the row of each instruction, then the branch that the endpoint's checks choose. -/
theorem sQueues : Obligations.SQueues := by
  intro c i hw s h
  refine ⟨fun hop hp hc hr => ?_, fun hop hc hm hq => ?_, fun hop hd hp hc hb hs hf => ?_, fun hop hp hc hm hb hf => ?_,
    fun hop hp hpair hn hc hc' hm hm' hb hf => ?_, fun hop hc hm => ?_⟩
  · change execCue c hw s = _
    rw [execCue, sRow_there h.1 hop]
    simp only [hp, hc, hr, Bool.false_eq_true, if_false, if_true]
  · change execCuew c hw s = _
    rw [execCuew, sRow_there h.1 hop, h.1.2.2.2.1]
    simp only [hc, hm, hq, Bool.not_true, Bool.false_eq_true, if_false]
  · change execSSend c hw s = _
    rw [execSSend, sRow_there h.1 hop]
    refine congrArg _ ((if_neg (by simp [hd, hp])).trans ?_)
    rw [hc, hb]
    exact (if_pos hs).trans (if_neg (ne_true_of_eq_false hf))
  · change execSRecv c hw s = _
    rw [execSRecv, sRow_there h.1 hop]
    simp only [hp, hc, hm, hb, hf, State.bankCause_zero hb, Bool.not_true, Bool.false_eq_true, if_false]
  · have hodd : ¬((!epPair (s.ep c.toNat (sEp i)).cfg) = true ∨ sEp i % 2 = 1) := by simp [hpair, hn]
    change execPsel c hw s = _
    rw [execPsel, sRow_there h.1 hop]
    simp only [hodd, hp, hc, hc', hm, hm', hb, hf, State.bankCause_zero hb, Bool.not_true, Bool.false_eq_true, if_false]
  · change execCuew c hw s = _
    rw [execCuew, sRow_there h.1 hop]
    simp only [hc, hm, Bool.not_false, if_true]

/-- Settles O19: the row of each instruction, then the branch that its operands choose. -/
theorem sMesh : Obligations.SMesh := by
  intro c i hw s h
  refine ⟨fun hop ha hb hc hd p po hm hpo hf => ?_, fun hop hw' v hv => ?_, fun hop hw' ha hc hf hr p hp hl => ?_,
    fun hop ho => ⟨fun hd hl => ?_, fun hd => ?_⟩, fun hop ho => ⟨fun hd => ?_, fun hd => ?_⟩, fun hop ho hd hl => ?_, fun hop ho => ?_⟩
  · change execPost c hw s = _
    rw [execPost, sRow_there h.1 hop]
    refine congrArg _ ((if_neg (by simp [ha, hb])).trans ?_)
    rw [hc, hm]
    exact (if_neg (by omega)).trans (if_neg (ne_true_of_eq_false hf))
  · change execGreq c hw s = _
    rw [execGreq, sRow_there h.1 hop]
    refine congrArg _ ((if_pos hw').trans ?_)
    rw [hv]
  · change execGreq c hw s = _
    rw [execGreq, sRow_there h.1 hop]
    refine congrArg _ ((if_neg hw').trans ((if_neg (by simp [ha])).trans ?_))
    rw [hc]
    refine (if_neg (ne_true_of_eq_false hr)).trans ?_
    rw [hp]
    exact if_pos hl
  · change execBara c hw s = _
    rw [execBara, sRow_there h.1 hop]
    dsimp only
    rw [ho]
    exact congrArg _ ((if_neg (by simp [hd])).trans (if_neg (by omega)))
  · change execBara c hw s = _
    rw [execBara, sRow_there h.1 hop]
    dsimp only
    rw [ho]
    exact congrArg _ (if_pos (by simp [hd]))
  · change execBarw c hw s = _
    rw [execBarw, sRow_there h.1 hop]
    dsimp only
    rw [ho]
    exact congrArg _ ((if_pos hd).trans (State.sDone_ready h _))
  · change execBarw c hw s = _
    rw [execBarw, sRow_there h.1 hop]
    dsimp only
    rw [ho]
    exact congrArg _ (if_neg (by simp [hd]))
  · change execFlago c hw s = _
    rw [execFlago, sRow_there h.1 hop]
    dsimp only
    rw [ho]
    exact congrArg _ ((if_neg (by simp [hd])).trans (if_neg (by omega)))
  · change execFlagr c hw s = _
    rw [execFlagr, sRow_there h.1 hop]
    dsimp only
    rw [ho]
    exact congrArg _ (State.sDone_ready h _)

/-- Words read without a code event, none of them poisoned, leave the state as it was. -/
theorem State.readWords_clean {s : State} {c o m n : Nat} (h : (s.readWords c o m [] n).1.any (·.poison) = false) :
    (s.readWords c o m [] n).2 = s := by
  induction n generalizing o with
  | zero => rfl
  | succ n ih =>
    have hw : s.readWord c o m [] = (⟨s.bytes (spWord c o * 32) 32, false⟩, s) := by
      cases hp : s.mem.spPoison.contains (spWord c o)
      · exact State.readWord_clean hp
      · exfalso
        have h1 : (s.readWord c o m []).1.poison = true := by
          rw [State.readWord, eccAt_nil]
          exact hp
        rw [State.readWords] at h
        simp only [List.any_cons, h1, Bool.true_or] at h
        cases h
    rw [State.readWords, hw] at h ⊢
    simp only [List.any_cons, Bool.false_or] at h
    exact ih h

theorem State.readSpan_clean {s : State} {c o n : Nat} (h : (s.readSpan c o n []).2.1 = false) : (s.readSpan c o n []).2.2 = s :=
  State.readWords_clean h

/-- Settles O20: outside Paired service a request is a ticket and nothing more. -/
theorem sTickets : Obligations.STickets := by
  intro c i hw s h
  refine fun ha => ⟨fun hop hp hc => ⟨fun hl => ?_, fun hl hf hg => ?_⟩, fun hop => ⟨fun hn => ?_, fun k hk => ?_⟩⟩
  · change execKvreq c hw s = _
    rw [execKvreq, sRow_there h.1 hop]
    refine congrArg _ ((if_neg (ne_true_of_eq_false ha)).trans ?_)
    rw [hc]
    exact if_pos hl
  · rw [h.1.2.2.2.1] at hg
    have hs := State.readSpan_clean hg
    change execKvreq c hw s = _
    rw [execKvreq, sRow_there h.1 hop, h.1.2.2.2.1]
    refine congrArg _ ((if_neg (ne_true_of_eq_false ha)).trans ?_)
    rw [hc]
    refine (if_neg (by omega)).trans ((if_neg (ne_true_of_eq_false hg)).trans ?_)
    refine congrArg (fun u : State => u.sDone c.toNat ((u.sst c.toNat).setReg (sGd i) _ false)) (if_neg fun hpair => ?_)
    have hp' : (s.readSpan c.toNat (sAddress (s.sst c.toNat) i) 64 []).2.2.paired = false := by rw [hs, hp]
    exact ne_true_of_eq_false hp' hpair.1
  · change execKvpoll c hw s = _
    rw [execKvpoll, sRow_there h.1 hop]
    refine congrArg _ ((if_neg (ne_true_of_eq_false ha)).trans ?_)
    rw [hn]
    exact State.sDone_ready h _
  · change execKvpoll c hw s = _
    rw [execKvpoll, sRow_there h.1 hop]
    refine congrArg _ ((if_neg (ne_true_of_eq_false ha)).trans ?_)
    rw [hk]
end Sys2Proof.Machine
end

section
namespace Sys2Proof.Machine
open Sys2Proof.Says

/-! ### Guards -/

/-- A command that is a row of the S-cell's instruction table: `sRow` with its opcode. -/
def IsSRow (r : (CellAddr → SHw → Instr) × Nat) : Prop :=
  ∃ f : CellAddr → SHw → Nat → State → State, ∀ c hw s, exec (r.1 c hw) s = sRow r.2 c hw s (f c hw)

/-! What a fence leaves of memory: all of it. -/

@[simp] theorem State.report_mem (s : State) (c cause kind : Nat) : (s.report c cause kind).mem = s.mem := rfl

@[simp] theorem State.markFenced_mem (s : State) (c cause : Nat) : (s.markFenced c cause).mem = s.mem := by
  unfold State.markFenced
  split <;> rfl

@[simp] theorem State.reserveLoss_mem (s : State) (c : Nat) : (s.reserveLoss c).mem = s.mem := by
  unfold State.reserveLoss
  split
  · split
    · rw [State.stageCairn_mem]
    · rfl
  · rfl

@[simp] theorem State.fenceBlock_mem (s : State) (b cause : Nat) : (s.fenceBlock b cause).mem = s.mem := by
  unfold State.fenceBlock
  exact List.foldlRecOn (motive := fun t : State => t.mem = s.mem) _ _ rfl fun t ht c _ => by rw [State.reserveLoss_mem, State.markFenced_mem, ht]

@[simp] theorem State.fenceCell_mem (s : State) (c cause : Nat) : (s.fenceCell c cause).mem = s.mem := by
  unfold State.fenceCell
  dsimp only
  split
  · rfl
  · split
    · simp
    · simp

/-- A mismatch changes no byte of memory. -/
theorem State.lockstepFault_mem (s : State) (c : Nat) (h : LockHit) : (s.lockstepFault c h).mem = s.mem := by
  simp [State.lockstepFault, State.modEng]

/-- With its guard false an instruction passes. -/
theorem State.sDone_passes {s : State} {c : Nat} (hf : s.fenced c = false) (hp : (s.cell c).eng.pc + 1 < s.progLen c) :
    s.sDone c (s.sst c) = s.modEng c fun e => goesOn e (e.pc + 1) s.now := by
  rw [State.sDone, if_neg (ne_true_of_eq_false hf), State.engineAt_modCell _ hf hp, sNext_same]
  rfl

end Sys2Proof.Machine

namespace Sys2Proof
open Machine

/-- Settles O21: what the row does before its instruction is the same for every instruction. -/
theorem sGuard : Obligations.SGuard := by
  intro r hr
  have hrow : IsSRow r := by
    revert r
    simp only [List.forall_mem_cons]
    refine ⟨?_, ?_, ?_, ?_, ?_, ?_, ?_, ?_, ?_, ?_, ?_, ?_, ?_, ?_, ?_, ?_, ?_, ?_, ?_, ?_, ?_, ?_, ?_, ?_, ?_, ?_, ?_, ?_, ?_, ?_, ?_,
      ?_, ?_, ?_, ?_, ?_, ?_, ?_, ?_, ?_, ?_, ?_, ?_, ?_, ?_, ?_, ?_, ?_, ?_, ?_, ?_, ?_, ?_, ?_, nofun⟩
    all_goals exact ⟨_, fun _ _ _ => rfl⟩
  obtain ⟨f, hf⟩ := hrow
  intro c i hw s hc hi hop
  refine ⟨fun hs => ?_, fun hs hl hg hfen hp => ?_, fun h hs hl hp => ⟨_, ?_, rfl, s.lockstepFault_mem _ _⟩⟩
  · rw [hf, sRow_at hc hi hop, hs]
    rfl
  · rw [hf, sRow_at hc hi hop, hs, hl]
    simp only [Bool.false_eq_true, if_false, Option.filter_none, hg]
    rw [State.sDone_passes hfen hp]
  · rw [hf, sRow_at hc hi hop, hs, hl]
    simp only [Bool.false_eq_true, if_false, Option.filter_some, hp, decide_true, if_true]
end Sys2Proof
end

section
/-! PROOFS. V-cells: what the row of an instruction does, and the statements on arithmetic and moves (O9, O10). -/

namespace Sys2Proof.Machine
open Sys2Proof.Says

/-! ### Registers of a cell do not overlap -/

theorem bOf_lt (c : Nat) : bOf c < 8 := bits_lt c 5 3
theorem cOf_lt (c : Nat) : cOf c < 8 := bits_lt c 0 3

theorem skip_count_ne_fenced (c : Nat) : (Reg.CELL_EPOCH_fenced c).off ≠ (Reg.VC_CK_COUNTS_skip_count c).off := by
  have := bOf_lt c
  have := cOf_lt c
  simp only [Reg.CELL_EPOCH_fenced, Reg.VC_CK_COUNTS_skip_count]
  omega

/-! ### The row of an instruction -/

section
variable {c : CellAddr} {i op : Nat} {hw : VHw} {s : State} {f : Nat → State → State}

/-- An instruction that nothing stops has its effect. -/
theorem vRow_there (h : VThere c i hw s) (hop : vOp i = op) : vRow op c hw s f = .next (f i s) := by
  obtain ⟨hc, hi, -, -, -, hs, -⟩ := h
  have hu : decide (cellValid c.toNat = true ∧ engineOf c.toNat = .v) = true := by
    simpa [cellIs] using hc
  simp only [vRow, hu, onUnit, hi, hop]
  simp [hs]

end

/-- The state with one more instruction that the shadow units have checked, and `k` more slots that they have skipped. -/
def State.vCounted (s : State) (c k : Nat) : State :=
  (s.inc (Reg.VC_CK_COUNTS_skip_count c) k).modCell c fun y => { y with v := { y.v with checked := y.v.checked + 1 } }

@[simp] theorem State.vst_vCounted (s : State) (c k : Nat) : (s.vCounted c k).vst c = { s.vst c with checked := (s.vst c).checked + 1 } := by
  rw [State.vst, State.vCounted, State.cell_modCell_self]
  rfl

/-- Counting does not touch the injection's flag. -/
theorem State.flag_inject_vCounted (s : State) (c k : Nat) :
    (s.vCounted c k).flag (Reg.VC_CK_CTRL_inject c) = s.flag (Reg.VC_CK_CTRL_inject c) := by
  have hne : (Reg.VC_CK_CTRL_inject c).off ≠ (Reg.VC_CK_COUNTS_skip_count c).off := by
    simp only [Reg.VC_CK_CTRL_inject, Reg.VC_CK_COUNTS_skip_count]
    omega
  exact congrArg (· != 0) (s.get_set_ne _ hne)

/-- With no armed injection and no mismatch a checked instruction is counted and has its effect. -/
theorem State.vChecked_calm {s : State} {c i : Nat} {hw : VHw} (hs : hw.shadow = none) (hi : s.flag (Reg.VC_CK_CTRL_inject c) = false)
    (wide : Option Bool) (slots : List (Nat × Bool)) (done : State → State) :
    s.vChecked c i hw wide slots done = done (s.vCounted c (slots.filter (·.2)).length) := by
  have hf := (s.flag_inject_vCounted c (slots.filter (·.2)).length).trans hi
  rw [State.vCounted] at hf ⊢
  rw [State.vChecked]
  simp [hs, hf]

/-- An instruction that is done, in a state that differs from the first in this cell's vector registers and in the count of skipped slots. -/
theorem vLeaves_vDone {c : CellAddr} {i : Nat} {hw : VHw} {s t : State} {y : VSt} (h : VReady c i hw s)
    (ht : ∃ C R, t = { s with cells := C, regs := R }) (hc : ∃ v, t.cell c.toNat = { s.cell c.toNat with v := v }) (ho : OnlyCell c.toNat s t)
    (hr : ∀ o, o ≠ (Reg.VC_CK_COUNTS_skip_count c.toNat).off → t.reg o = s.reg o) (hy : y.loops = (s.vst c.toNat).loops) :
    VLeaves c s (t.vDone c.toNat y) y := by
  obtain ⟨⟨-, -, hf, -⟩, hp⟩ := h
  obtain ⟨C, R, rfl⟩ := ht
  obtain ⟨v, hv⟩ := hc
  have hft : State.fenced { s with cells := C, regs := R } c.toNat = false := by
    rw [← hf, State.fenced, State.fenced, State.flag, State.flag, State.get, State.get, hr _ (skip_count_ne_fenced _)]
  have heng : (State.cell { s with cells := C, regs := R } c.toNat).eng = (s.cell c.toNat).eng := by rw [hv]
  rw [State.vDone_next _ _ _ hft, heng, hy]
  rw [State.engineAt_within (by exact hft) (by
    rw [State.progLen_congr (s := s)]
    · exact hp
    · rw [State.cell_modCell_self, hv])]
  refine ⟨?_, fun d hd => ?_, hr, rfl⟩
  · rw [State.modEng, State.cell_modCell_self, State.cell_modCell_self, hv]
    rfl
  · rw [State.modEng, State.cell_modCell_ne _ _ hd, State.cell_modCell_ne _ _ hd]
    exact ho d hd

theorem vLeaves_vDone_same {c : CellAddr} {i : Nat} {hw : VHw} {s : State} {y : VSt} (h : VReady c i hw s) (hy : y.loops = (s.vst c.toNat).loops) :
    VLeaves c s (s.vDone c.toNat y) y :=
  vLeaves_vDone h ⟨_, _, rfl⟩ ⟨_, rfl⟩ (fun _ _ => rfl) (fun _ _ => rfl) hy

/-- A checked instruction whose effect, in a state with the counted registers, is to be done with registers `y`. -/
theorem vLeaves_vChecked {c : CellAddr} {i : Nat} {hw : VHw} {s : State} {wide : Option Bool} {slots : List (Nat × Bool)} {done : State → State}
    {y : VSt} (h : VReady c i hw s)
    (hd : ∀ t : State, t.vst c.toNat = { s.vst c.toNat with checked := (s.vst c.toNat).checked + 1 } → done t = t.vDone c.toNat y)
    (hy : y.loops = (s.vst c.toNat).loops) : VLeaves c s (s.vChecked c.toNat i hw wide slots done) y := by
  have hcalm := h.1.2.2.2.2
  rw [State.vChecked_calm hcalm.1 hcalm.2.2, hd _ (s.vst_vCounted _ _)]
  refine vLeaves_vDone h ⟨_, _, rfl⟩ ⟨_, State.cell_modCell_self _ _ _⟩ (fun d hd => State.cell_modCell_ne _ _ hd) (fun o ho => ?_) hy
  exact State.reg_setReg_ne _ _ ho

/-- What `VRun` says of one row. -/
def VRowRuns (r : VOp) : Prop := ∀ (c : CellAddr) (i : Nat) (hw : VHw) (s : State), VReady c i hw s → vOp i = r.op →
  ∃ t, exec (r.ins c hw) s = .next t ∧ VLeaves c s t (r.res s c.toNat i)

theorem vRowRuns {r : VOp} {f : CellAddr → VHw → Nat → State → State} (he : ∀ c hw s, exec (r.ins c hw) s = vRow r.op c hw s (f c hw))
    (hf : ∀ c hw i s, VReady c i hw s → VLeaves c s (f c hw i s) (r.res s c.toNat i)) : VRowRuns r :=
  fun c i hw s h hop => ⟨_, (he c hw s).trans (vRow_there h.1 hop), hf c hw i s h⟩

/-- Elements of the format, in a row whose result is the instruction's elementwise function. -/
theorem vLeaves_vLanes {c : CellAddr} {i : Nat} {hw : VHw} {s : State} {srcs : List Nat} {f : Nat → List Nat → Nat} {wide : Option Bool}
    (h : VReady c i hw s) : VLeaves c s (s.vLanes c.toNat i hw srcs f wide) (lanes srcs f s c.toNat i) :=
  vLeaves_vChecked h (fun t ht => by simp only [ht]; rfl) rfl

/-- A result that the format's kind chooses. -/
theorem lanes_ite {p : Prop} [Decidable p] (srcs : List Nat) (f g : Nat → List Nat → Nat) (s : State) (a i : Nat) :
    lanes srcs (fun e xs => if p then f e xs else g e xs) s a i = if p then lanes srcs f s a i else lanes srcs g s a i := by
  split <;> rfl

theorem vRowRuns_lanes {r : VOp} {srcs : Nat → List Nat} {g : Nat → Nat → List Nat → Nat} {wide : Option Bool}
    (he : ∀ c hw s, exec (r.ins c hw) s = vRow r.op c hw s fun i s => s.vLanes c.toNat i hw (srcs i) (g i) wide)
    (hr : ∀ s a i, r.res s a i = lanes (srcs i) (g i) s a i) : VRowRuns r :=
  vRowRuns he fun c _ i s h => hr s c.toNat i ▸ vLeaves_vLanes h

/-- Settles O9: the elementwise rows are lanes of their sources, the conversions write what their row writes. -/
theorem vArithmetic : Obligations.VArithmetic := by
  change ∀ r ∈ _, VRowRuns r
  simp only [List.cons_append, List.nil_append, List.forall_mem_cons]
  refine ⟨?_, ?_, ?_, ?_, ?_, ?_, ?_, ?_, ?_, ?_, ?_, ?_, ?_, ?_, ?_, ?_, ?_, ?_, ?_, ?_, ?_, ?_, ?_, ?_, ?_, ?_, ?_, ?_, ?_, ?_, ?_, ?_, nofun⟩
  case refine_5 | refine_6 | refine_7 | refine_8 => exact vRowRuns_lanes (fun _ _ _ => rfl) fun _ _ _ => (lanes_ite _ _ _ _ _ _).symm
  case refine_19 | refine_20 | refine_22 | refine_23 | refine_24 | refine_25 =>
    exact vRowRuns (fun _ _ _ => rfl) fun _ _ _ _ h => vLeaves_vChecked h (fun t ht => by simp only [ht]; rfl) rfl
  all_goals exact vRowRuns_lanes (fun _ _ _ => rfl) fun _ _ _ => rfl

theorem vLeaves_vReduce {c : CellAddr} {i : Nat} {hw : VHw} {s : State} {half f : List (Nat × Bool) → Nat} {wide : Option Bool}
    (h : VReady c i hw s) : VLeaves c s (s.vReduce c.toNat i hw half f wide) (reduced (fun _ => f) s c.toNat i) :=
  vLeaves_vChecked h (fun t ht => by simp only [ht]; rfl) rfl

/-- VRARGMAX gives the place of the largest active element. -/
theorem execVrargmax_eq (c : CellAddr) (hw : VHw) (s : State) : execVrargmax c hw s =
    vRow 0x43 c hw s fun i s => s.vReduce c.toNat i hw (redPick i true) fun es => (argBest i es).getD (2 ^ 32 - 1) := by
  refine congrArg (vRow _ c hw s) (funext₂ fun i s => congrArg (fun f => s.vReduce c.toNat i hw (redPick i true) f) (funext fun es => ?_))
  split
  · next h => exact (congrArg (fun o => (Option.map Prod.fst o).getD (2 ^ 32 - 1)) h).symm
  · next h => exact (congrArg (fun o => (Option.map Prod.fst o).getD (2 ^ 32 - 1)) h).symm

/-- Settles O10: VRARGMAX alone names its result otherwise than its row does. -/
theorem vMoves : Obligations.VMoves := by
  change ∀ r ∈ _, VRowRuns r
  simp only [List.cons_append, List.nil_append, List.forall_mem_cons]
  refine ⟨?_, ?_, ?_, ?_, ?_, ?_, ?_, ?_, ?_, ?_, ?_, nofun⟩
  case refine_4 => exact vRowRuns execVrargmax_eq fun _ _ _ _ h => vLeaves_vReduce h
  all_goals exact vRowRuns (fun _ _ _ => rfl) fun _ _ _ _ h => vLeaves_vChecked h (fun t ht => by simp only [ht]; rfl) rfl
end Sys2Proof.Machine
end

section
/-! PROOFS. V-cells: masks, addresses, loops and branches, queues (O11, O13). -/

namespace Sys2Proof.Machine
open Sys2Proof.Says

/-- New registers, and a V-cell's engine at a place within its program. -/
theorem State.engineAt_modCell_v {s : State} {c pc : Nat} (f : VSt → VSt) (hf : s.fenced c = false) (hp : pc < s.progLen c) :
    (s.modCell c fun y => { y with v := f y.v }).engineAt c pc =
      (s.modCell c fun y => { y with v := f y.v }).modEng c fun e => goesOn e pc s.now := by
  have hl : (s.modCell c fun y => { y with v := f y.v }).progLen c = s.progLen c := State.progLen_congr (by simp)
  exact State.engineAt_within hf (hl ▸ hp)

/-- A branch to a place within the program. -/
theorem State.vJump_within {s : State} {c t : Nat} (x : VSt) (hf : s.fenced c = false) (ht : t < s.progLen c) :
    s.vJump c x t = (s.modCell c fun y => { y with v := { x with loops := x.loops.dropWhile fun l => !(l.1 ≤ t && t ≤ l.2.1) } }).modEng c
      fun e => goesOn e t s.now := by
  rw [State.vJump, if_neg (ne_true_of_eq_false hf), if_neg (by omega), Int.toNat_natCast]
  exact State.engineAt_modCell_v (fun _ => _) hf ht

/-- With no mismatch an instruction checked by residue has its effect. -/
theorem State.vResidue_calm {s : State} {c i : Nat} {hw : VHw} (hs : hw.shadow = none) (done : State → State) :
    s.vResidue c i hw done = done s := by
  rw [State.vResidue, hs]

@[simp] theorem VSt.setMask_loops (x : VSt) (k v : Nat) : (x.setMask k v).loops = x.loops := by
  unfold VSt.setMask
  split <;> rfl

theorem seen_setMask (x : VSt) (k v : Nat) : ({ x with checked := x.checked + 1 } : VSt).setMask k v = seen (x.setMask k v) := by
  unfold VSt.setMask seen
  split <;> rfl

/-- Settles O11: each instruction is a row of its own, then the branch that its count or its target chooses. -/
theorem vControl : Obligations.VControl := by
  refine ⟨?_, fun c i hw s h => ⟨fun t ht hl => ⟨fun hop => ?_, fun hop hp hz => ?_⟩, fun hop hp hz hl => ?_, fun hop hp hz hlen hd hl => ?_,
    fun hop hp hz hl => ?_, fun hop => ?_⟩⟩
  · change ∀ r ∈ _, VRowRuns r
    simp only [List.forall_mem_cons]
    refine ⟨?_, ?_, ?_, ?_, ?_, nofun⟩
    · exact vRowRuns (fun _ _ _ => rfl) fun _ _ _ _ h => vLeaves_vDone_same h rfl
    · refine vRowRuns (fun _ _ _ => rfl) fun c _ _ s h =>
        vLeaves_vChecked h (fun t ht => ?_) ((VSt.setMask_loops _ _ _ : (seen _).loops = (s.vst c.toNat).loops))
      simp only [ht]
      rw [seen_setMask]
      rfl
    · exact vRowRuns (fun _ _ _ => rfl) fun _ _ _ _ h => vLeaves_vDone_same h (VSt.setMask_loops _ _ _)
    · refine vRowRuns (fun _ _ _ => rfl) fun _ _ _ _ h => ?_
      rw [State.vResidue_calm h.1.2.2.2.2.1]
      exact vLeaves_vDone_same h rfl
    · refine vRowRuns (fun _ _ _ => rfl) fun _ _ _ _ h => ?_
      rw [State.vResidue_calm h.1.2.2.2.2.1]
      exact vLeaves_vDone_same h rfl
  · change execVbr c hw s = _
    rw [execVbr, vRow_there h hop]
    exact congrArg _ ((congrArg (s.vJump c.toNat _) ht.symm).trans (State.vJump_within _ h.2.2.1 hl))
  · change execVbnz c hw s = _
    rw [execVbnz, vRow_there h hop]
    exact congrArg _ ((if_neg (ne_true_of_eq_false hp)).trans ((if_pos hz).trans
      ((congrArg (s.vJump c.toNat _) ht.symm).trans (State.vJump_within _ h.2.2.1 hl))))
  · refine ⟨_, ?_, vLeaves_vDone_same ⟨h, hl⟩ rfl⟩
    change execVbnz c hw s = _
    rw [execVbnz, vRow_there h hop]
    exact congrArg _ ((if_neg (ne_true_of_eq_false hp)).trans (if_neg (not_not.2 hz)))
  · change execVloop c hw s = _
    rw [execVloop, vRow_there h hop]
    refine congrArg _ ((if_neg (ne_true_of_eq_false hp)).trans ((if_neg (not_or.2 ⟨hz, hlen⟩)).trans ((if_neg (by omega)).trans ?_)))
    exact State.engineAt_modCell_v (fun v => { v with loops := _ :: v.loops }) h.2.2.1 hl
  · change execVloop c hw s = _
    rw [execVloop, vRow_there h hop]
    refine congrArg _ ((if_neg (ne_true_of_eq_false hp)).trans ((if_pos (.inl hz)).trans ?_))
    exact State.engineAt_modCell_v (fun v => { v with loops := _ }) h.2.2.1 hl
  · change execVend c hw s = _
    rw [execVend, vRow_there h hop, h.2.2.2.1]

/-- Settles O13: the row of each instruction, then the branch that the endpoint's checks choose. -/
theorem vQueues : Obligations.VQueues := by
  intro c i hw s h
  have hep : vEp i = vImm i % 32 := rfl
  refine ⟨fun hop hc hm hl hf => ?_, fun hop hc hm hf => ?_, fun hop hc hr => ?_, fun hop hp hc hr => ?_,
    fun hm => ⟨fun hop hc => ?_, fun hop hc => ?_⟩⟩
  · change execVrecv c hw s = _
    rw [execVrecv, vRow_there h.1 hop]
    dsimp only
    rw [hep, hc]
    exact congrArg _ ((if_neg (by simp [hm])).trans ((if_neg (by omega)).trans (if_neg (ne_true_of_eq_false hf))))
  · change execVcuew c hw s = _
    rw [execVcuew, vRow_there h.1 hop, h.1.2.2.2.1]
    dsimp only
    rw [hep, hc]
    exact congrArg _ ((if_neg (by simp [hm])).trans (if_neg (ne_true_of_eq_false hf)))
  · change execVsend c hw s = _
    rw [execVsend, vRow_there h.1 hop]
    dsimp only
    rw [hep, hc]
    exact congrArg _ (if_pos hr)
  · change execVcuep c hw s = _
    rw [execVcuep, vRow_there h.1 hop]
    refine congrArg _ ((if_neg (ne_true_of_eq_false hp)).trans ?_)
    rw [hep, hc]
    exact if_pos hr
  · change execVrecv c hw s = _
    rw [execVrecv, vRow_there h.1 hop]
    dsimp only
    rw [hep, hc]
    exact congrArg _ (if_pos (by simp [hm]))
  · change execVcuew c hw s = _
    rw [execVcuew, vRow_there h.1 hop]
    dsimp only
    rw [hep, hc]
    exact congrArg _ (if_pos (by simp [hm]))
end Sys2Proof.Machine
end

section
/-! PROOFS. V-cells: loads, stores, gathers and scatters (O12). -/

namespace Sys2Proof.Machine
open Sys2Proof.Says

/-! ### Runs of words -/

theorem State.bytes_append (s : State) (a n m : Nat) : s.bytes a (n + m) = s.bytes a n ++ s.bytes (a + n) m := by
  induction n generalizing a with
  | zero => simp [State.bytes]
  | succ n ih => rw [Nat.succ_add, State.bytes, ih, State.bytes, List.cons_append, Nat.add_assoc, Nat.add_comm 1 n]

/-- The word at an aligned offset starts there. -/
theorem spWord_aligned {c o : Nat} (h : o % 32 = 0) : spWord c o * 32 = spAddr c o := by
  simp only [spWord, spAddr, Nat.shiftLeft_eq]
  omega

theorem spAddr_add (c o k : Nat) : spAddr c (o + k) = spAddr c o + k := by
  simp only [spAddr, Nat.add_assoc]

/-- Clean words read as their bytes, and reading leaves the state as it is. -/
theorem State.readWords_of_clean {s : State} {c o m n : Nat} (ho : o % 32 = 0) (hp : ∀ k, s.mem.spPoison.contains (spWord c k) = false) :
    gransBytes (s.readWords c o m [] n).1 = s.bytes (spAddr c o) (32 * n) ∧ (∀ g ∈ (s.readWords c o m [] n).1, g.poison = false) ∧
      (s.readWords c o m [] n).2 = s := by
  induction n generalizing o with
  | zero => exact ⟨rfl, nofun, rfl⟩
  | succ n ih =>
    obtain ⟨hb, hg, hs⟩ := @ih (o + 32) (by omega)
    rw [State.readWords, State.readWord_clean (hp o)]
    refine ⟨?_, List.forall_mem_cons.2 ⟨rfl, hg⟩, hs⟩
    rw [show 32 * (n + 1) = 32 + 32 * n by omega, State.bytes_append, ← spAddr_add, ← hb, ← spWord_aligned ho]
    rfl

theorem granSlots_clean {gs : List Gran} (h : ∀ g ∈ gs, g.poison = false) (sl : Nat) : granSlots gs sl = false := by
  unfold granSlots nth
  rw [List.getD_eq_getElem?_getD]
  cases hg : gs[sl / 8]? with
  | none => rfl
  | some g => exact h g (List.mem_of_getElem? hg)

/-- A load of clean words. -/
theorem vLeaves_vld {c : CellAddr} {i : Nat} {hw : VHw} {s : State} (h : VReady c i hw s) (hop : vOp i = 0x50)
    (ha : (s.vst c.toNat).apoison (vVa i) = false) (hp : ∀ k, s.mem.spPoison.contains (spWord c.toNat k) = false)
    (hb : s.bankCause c.toNat (vAddress (s.vst c.toNat) i) 256 32 = none) :
    ∃ t, exec (.vld c hw) s = .next t ∧ VLeaves c s t ((s.vst c.toNat).write (vVd i) 0 (fmtBits (vFmt i)) (vcount (fmtBits (vFmt i)))
      ((s.vst c.toNat).mask (vMask i))
      (fun e => velem (ofLE (s.bytes (spAddr c.toNat (vAddress (s.vst c.toNat) i)) 256)) (fmtBits (vFmt i)) e) fun _ => false) := by
  obtain ⟨hbytes, hclean, hs⟩ := @State.readWords_of_clean s c.toNat _ 0 8 (State.aligned_of_bankCause hb) hp
  refine ⟨_, ?_, vLeaves_vDone_same h rfl⟩
  change execVld c hw s = _
  rw [execVld, vRow_there h.1 hop, h.1.2.2.2.1]
  refine congrArg _ ((if_neg (ne_true_of_eq_false ha)).trans ?_)
  rw [hb]
  dsimp only [State.readRun]
  rw [hs, hbytes]
  simp only [granSlots_clean hclean, Bool.or_self]

/-! ### Stores of whole words -/

theorem State.byte_writeWord {s : State} {c o : Nat} {d : List Byte} {p : Bool} (ho : o % 32 = 0) (hd : d.length = 32) :
    (∀ k (hk : k < d.length), (s.writeWord c o ⟨d, p⟩).byte (spAddr c o + k) = d[k]) ∧
      ∀ a, a < spAddr c o ∨ spAddr c o + 32 ≤ a → (s.writeWord c o ⟨d, p⟩).byte a = s.byte a := by
  have hw : ∀ a, (s.writeWord c o ⟨d, p⟩).byte a = (s.writeBytes (spAddr c o) d).byte a := fun a => by
    rw [State.writeWord, spWord_aligned ho, List.take_of_length_le (Nat.le_of_eq hd)]
    rfl
  exact ⟨fun k hk => by rw [hw, State.byte_writeBytes_in _ _ _ _ hk], fun a ha => by rw [hw, State.byte_writeBytes_out _ _ (hd ▸ ha)]⟩

theorem NSet.contains_del {m : List Nat} {a b : Nat} (h : m.contains b = false) : (NSet.del m a).contains b = false := by
  simp only [List.contains_eq_mem, decide_eq_false_iff_not, NSet.del, List.mem_filter, not_and] at h ⊢
  exact fun hm => absurd hm h

/-- A store without poison leaves clean words clean, and changes nothing but the memory. -/
theorem State.writeWord_clean {s : State} {c o : Nat} {d : List Byte} :
    s.writeWord c o ⟨d, false⟩ = { s with mem := (s.writeWord c o ⟨d, false⟩).mem } ∧
      ∀ k, s.mem.spPoison.contains k = false → (s.writeWord c o ⟨d, false⟩).mem.spPoison.contains k = false :=
  ⟨rfl, fun _ hk => NSet.contains_del hk⟩

theorem foldIdx_snoc {α β : Type} (f : Nat → α → β) (xs : List α) (n : Nat) (acc : List β) :
    foldIdx (fun k acc x => acc ++ [f k x]) n acc xs = acc ++ (xs.zipIdx n).map fun p => f p.2 p.1 := by
  induction xs generalizing n acc with
  | nil => simp [foldIdx]
  | cons x xs ih => simp [foldIdx, ih, List.zipIdx_cons]

/-- `t` is `s` with the active bytes of granules `lo` up to `hi` of a vector `v` stored at offset `o` of a cell, clean words left clean. -/
structure GransStored (c o v lo hi : Nat) (act : Nat → Bool) (s t : State) : Prop where
  stored : ∀ b, 32 * lo ≤ b → b < 32 * hi →
    t.byte (spAddr c o + b) = if act b then BitVec.ofNat 8 (bits v (8 * b) 8) else s.byte (spAddr c o + b)
  kept : ∀ a, a < spAddr c o + 32 * lo ∨ spAddr c o + 32 * hi ≤ a → t.byte a = s.byte a
  memory : t = { s with mem := t.mem }
  clean : (∀ k, s.mem.spPoison.contains (spWord c k) = false) → ∀ k, t.mem.spPoison.contains (spWord c k) = false

section
variable {s : State} {c o g v : Nat} {act : Nat → Bool}

theorem gransStored_writeWord {d : List Byte} (ho : o % 32 = 0) (hd : d.length = 32)
    (hget : ∀ b (hb : b < d.length), d[b] =
      if act (32 * g + b) then BitVec.ofNat 8 (bits v (8 * (32 * g + b)) 8) else s.byte (spAddr c o + (32 * g + b))) :
    GransStored c o v g (g + 1) act s (s.writeWord c (o + 32 * g) ⟨d, false⟩) := by
  obtain ⟨hin, hout⟩ := @State.byte_writeWord s c (o + 32 * g) d false (by omega) hd
  obtain ⟨heq, hcl⟩ := @State.writeWord_clean s c (o + 32 * g) d
  rw [spAddr_add] at hin hout
  refine ⟨fun b hlo hhi => ?_, fun a ha => hout a (by omega), heq, fun hp k => hcl _ (hp k)⟩
  obtain ⟨k, rfl⟩ : ∃ k, b = 32 * g + k := ⟨b - 32 * g, by omega⟩
  rw [← Nat.add_assoc, hin k (by omega), hget k (by omega), Nat.add_assoc]

/-- What a store of part of a vector leaves of one granule. -/
theorem State.gransStored_vStoreGran {pois : Nat → Bool} (ho : o % 32 = 0) (hv : ∀ k, pois k = false)
    (hp : ∀ k, s.mem.spPoison.contains (spWord c k) = false) : GransStored c o v g (g + 1) act s (s.vStoreGran c o g v pois act []) := by
  have hbad : ((List.range 8).any fun k => pois (8 * g + k) && (List.range 4).any fun b => act (32 * g + 4 * k + b)) = false := by
    simp [hv]
  have ho' : (o + 32 * g) % 32 = 0 := by omega
  simp only [State.vStoreGran, hbad, State.readWord_clean (hp _), spWord_aligned ho', spAddr_add]
  split
  · next hall =>
    refine gransStored_writeWord ho (by simp) fun b hb => ?_
    have hact : act (32 * g + b) = true := by
      simp at hall hb
      exact hall b hb
    simp [hact]
  · split
    · rw [if_neg (by simp)]
      refine gransStored_writeWord ho (by simp [foldIdx_snoc]) fun b hb => ?_
      simp only [foldIdx_snoc]
      simp [nth]
      have hb32 : b < 32 := by simpa [foldIdx_snoc] using hb
      rw [List.getElem?_eq_getElem (by simpa using hb32), Option.getD_some, State.getElem_bytes, Nat.add_assoc]
    · next hany =>
      refine ⟨fun b hlo hhi => ?_, fun _ _ => rfl, rfl, id⟩
      obtain ⟨k, rfl⟩ : ∃ k, b = 32 * g + k := ⟨b - 32 * g, by omega⟩
      have hact : act (32 * g + k) = false := by
        simp at hany
        exact hany k (by omega)
      simp [hact]

/-- The granules of two runs that meet. -/
theorem GransStored.trans {lo mid hi : Nat} {t u : State} (h : GransStored c o v lo mid act s t) (k : GransStored c o v mid hi act t u)
    (hlo : lo ≤ mid) (hhi : mid ≤ hi) : GransStored c o v lo hi act s u := by
  refine ⟨fun b hl hh => ?_, fun a ha => ?_, ?_, fun hp => k.clean (h.clean hp)⟩
  · by_cases hm : b < 32 * mid
    · rw [k.kept _ (by omega), h.stored b hl hm]
    · rw [k.stored b (by omega) hh, h.kept _ (by omega)]
  · rw [k.kept a (by omega), h.kept a (by omega)]
  · have hk := k.memory
    rw [h.memory] at hk
    exact hk

/-- Storing every granule of a vector. -/
theorem gransStored_foldl {pois : Nat → Bool} (n : Nat) (ho : o % 32 = 0) (hv : ∀ k, pois k = false)
    (hp : ∀ k, s.mem.spPoison.contains (spWord c k) = false) :
    GransStored c o v 0 n act s ((List.range n).foldl (fun s g => s.vStoreGran c o g v pois act []) s) := by
  induction n with
  | zero => exact ⟨fun _ _ h => by omega, fun _ _ => rfl, rfl, id⟩
  | succ n ih =>
    rw [List.range_succ, List.foldl_append]
    exact ih.trans (State.gransStored_vStoreGran ho hv (ih.clean hp)) (by omega) (by omega)
end

/-- The state with the active bytes of the vector that VST names stored. -/
def State.vStored (s : State) (c i : Nat) : State :=
  (List.range 8).foldl (fun t g => t.vStoreGran c (vAddress (s.vst c) i) g ((s.vst c).vec (vVd i)) (bitAt ((s.vst c).vpoison (vVd i)))
    (fun b => vactive ((s.vst c).mask (vMask i)) 0 (fmtBits (vFmt i)) (8 * b / max (fmtBits (vFmt i)) 1)) []) s

/-- What an instruction leaves whose only effects are on the memory and on a register that does not fence its cell. -/
theorem State.vDone_stored {c : CellAddr} {i : Nat} {hw : VHw} {s t : State} (h : VReady c i hw s) (ht : t = { s with mem := t.mem, regs := t.regs })
    (hf : t.fenced c.toNat = false) :
    (∀ p, (t.vDone c.toNat (t.vst c.toNat)).byte p = t.byte p) ∧ (t.vDone c.toNat (t.vst c.toNat)).regs = t.regs ∧
      ((t.vDone c.toNat (t.vst c.toNat)).cell c.toNat).eng =
        goesOn (s.cell c.toNat).eng (loopNext (s.cell c.toNat).eng.pc (s.vst c.toNat).loops).1 s.now ∧
      OnlyCell c.toNat s (t.vDone c.toNat (t.vst c.toNat)) := by
  have hcell : ∀ d, t.cell d = s.cell d := fun d => by rw [ht]; rfl
  have hx : t.vst c.toNat = s.vst c.toNat := congrArg CellSt.v (hcell _)
  have hnow : t.now = s.now := by rw [ht]
  have hlen : t.progLen c.toNat = s.progLen c.toNat := by rw [ht]; rfl
  rw [State.vDone_next _ _ _ hf, hx, hcell, ← hnow, State.engineAt_modCell_v
    (fun _ => { s.vst c.toNat with loops := (loopNext (s.cell c.toNat).eng.pc (s.vst c.toNat).loops).2 }) hf (hlen ▸ h.2)]
  refine ⟨fun _ => rfl, rfl, ?_, fun d hd => ?_⟩
  · simp [State.modEng, hcell]
  · simp [State.modEng, State.cell_modCell_ne _ _ hd, hcell]

section
variable {c : CellAddr} {i : Nat} {hw : VHw} {s : State} (h : VReady c i hw s) (hp : ∀ k, s.mem.spPoison.contains (spWord c.toNat k) = false)
include h hp

/-- A store of a clean vector into clean words. -/
theorem exec_vst_clean (hop : vOp i = 0x51) (ha : (s.vst c.toNat).apoison (vVa i) = false) (hv : (s.vst c.toNat).vpoison (vVd i) = 0)
    (hb : s.bankCause c.toNat (vAddress (s.vst c.toNat) i) 256 32 = none) (hw0 : 0 < fmtBits (vFmt i)) :
    ∃ t, exec (.vst c hw) s = .next t ∧
      (∀ b, b < 256 → (t.byte (spAddr c.toNat (vAddress (s.vst c.toNat) i) + b)).toNat =
        if vactive ((s.vst c.toNat).mask (vMask i)) 0 (fmtBits (vFmt i)) (8 * b / fmtBits (vFmt i)) then bits ((s.vst c.toNat).vec (vVd i)) (8 * b) 8
        else (s.byte (spAddr c.toNat (vAddress (s.vst c.toNat) i) + b)).toNat) ∧
      (∀ p, p < spAddr c.toNat (vAddress (s.vst c.toNat) i) ∨ spAddr c.toNat (vAddress (s.vst c.toNat) i) + 256 ≤ p → t.byte p = s.byte p) ∧
      (t.cell c.toNat).eng = goesOn (s.cell c.toNat).eng (loopNext (s.cell c.toNat).eng.pc (s.vst c.toNat).loops).1 s.now ∧
      OnlyCell c.toNat s t ∧ t.regs = s.regs := by
  obtain ⟨hstored, hkept, hmem, -⟩ : GransStored c.toNat (vAddress (s.vst c.toNat) i) _ 0 8 _ s (s.vStored c.toNat i) :=
    gransStored_foldl 8 (State.aligned_of_bankCause hb) (fun k => by rw [hv]; exact Nat.zero_testBit k) hp
  have hex : exec (.vst c hw) s = .next ((s.vStored c.toNat i).vDone c.toNat ((s.vStored c.toNat i).vst c.toNat)) := by
    change execVst c hw s = _
    rw [execVst, vRow_there h.1 hop, h.1.2.2.2.1]
    refine congrArg _ ((if_neg (ne_true_of_eq_false ha)).trans ?_)
    rw [hb]
    rfl
  generalize s.vStored c.toNat i = u at hstored hkept hmem hex
  obtain ⟨hbyte, hregs, heng, honly⟩ := State.vDone_stored (t := u) h (by rw [hmem]) (by rw [hmem]; exact h.1.2.2.1)
  refine ⟨_, hex, fun b hlt => ?_, fun p hlt => ?_, heng, honly, hregs.trans (by rw [hmem])⟩
  · rw [hbyte, hstored b (by omega) (by omega), max_eq_left hw0]
    split
    · rw [BitVec.toNat_ofNat, Nat.mod_eq_of_lt (bits_lt _ _ _)]
    · rfl
  · rw [hbyte, hkept p (by omega)]
end

/-! ### Gathers and scatters -/

theorem packBits_congr {n w : Nat} {f g : Nat → Nat} (h : ∀ e, e < n → f e = g e) : packBits n w f = packBits n w g :=
  List.foldr_ext _ _ _ fun e he b => by rw [h e (List.mem_range.1 he)]

theorem mem_indices {n e : Nat} {p : Nat → Bool} : e ∈ indices n p ↔ e < n ∧ p e = true := by
  simp [indices]

/-- A write depends on the values and marks of the active elements only. -/
theorem VSt.write_congr {x : VSt} {vd off w n m : Nat} {val val' : Nat → Nat} {pois pois' : Nat → Bool}
    (hv : ∀ e, e < n → vactive m off w e = true → val e = val' e) (hp : ∀ e, e < n → vactive m off w e = true → pois e = pois' e) :
    x.write vd off w n m val pois = x.write vd off w n m val' pois' := by
  have hb : ∀ e, e < n → (if vactive m off w e then val e else bits (x.vec vd) (off + e * w) w) =
      if vactive m off w e then val' e else bits (x.vec vd) (off + e * w) w := fun e he => by
    split
    · next ha => exact hv e he ha
    · rfl
  have hs : ∀ sl, ((indices n fun e => inSlot off w e sl).any fun e => if vactive m off w e then pois e else bitAt (x.vpoison vd) sl) =
      (indices n fun e => inSlot off w e sl).any fun e => if vactive m off w e then pois' e else bitAt (x.vpoison vd) sl := fun sl => by
    rw [Bool.eq_iff_iff, List.any_eq_true, List.any_eq_true]
    refine exists_congr fun e => and_congr_right fun he => ?_
    split
    · next ha => rw [hp e (mem_indices.1 he).1 ha]
    · rfl
  simp only [VSt.write, packBits_congr hb, hs]

section
variable {c : CellAddr} {i : Nat} {hw : VHw} {s : State} (hc : s.laneCause c.toNat (s.vst c.toNat) i = none)
include hc

theorem State.apoison_of_laneCause : (s.vst c.toNat).apoison (vVa i) = false := by
  unfold State.laneCause at hc
  split at hc
  · cases hc
  · next ha => exact eq_false_of_ne_true ha

/-- Every lane that acts has an aligned address. -/
theorem State.aligned_of_laneCause {e : Nat} (he : e ∈ gatherLanes (s.vst c.toNat) i) : laneAddress (s.vst c.toNat) i e % 4 = 0 := by
  rw [State.laneCause, if_neg (ne_true_of_eq_false (State.apoison_of_laneCause hc)), List.findSome?_eq_none_iff] at hc
  exact State.aligned_of_bankCause (hc e he)
end

/-- With no poisoned offset the lanes that act are the active ones. -/
theorem mem_gatherLanes {x : VSt} {i e : Nat} (h : x.vpoison (vVb i) = 0) :
    e ∈ gatherLanes x i ↔ e < 64 ∧ vactive (x.mask (vMask i)) 0 32 e = true := by
  simp [gatherLanes, mem_indices, h, bitAt]

theorem State.read32_clean {s : State} {c o : Nat} (hp : ∀ k, s.mem.spPoison.contains (spWord c k) = false) (ho : o % 4 = 0) :
    s.read32 c o [] = (ofLE (s.bytes (spAddr c o) 4), false, s) := by
  obtain ⟨hb, hs⟩ := State.readPart_clean (n := 4) (hp (o / 32 * 32)) (by omega)
  rw [State.read32, hb, hs]

/-- Reading lanes one after the other in a state that reading leaves as it is. -/
theorem foldl_gather {s : State} {f : State → Nat → Nat × Bool × State} {val : Nat → Nat} (ls : List Nat) (acc : SMap (Nat × Bool))
    (hf : ∀ e ∈ ls, f s e = (val e, false, s)) :
    let r := ls.foldl (fun (acc : SMap (Nat × Bool) × State) sl =>
      let q := f acc.2 sl
      (SMap.put acc.1 sl (q.1, q.2.1), q.2.2)) (acc, s)
    r.2 = s ∧ ∀ e d, SMap.getD r.1 e d = if e ∈ ls then (val e, false) else SMap.getD acc e d := by
  induction ls generalizing acc with
  | nil => exact ⟨rfl, fun _ _ => rfl⟩
  | cons l ls ih =>
    obtain ⟨hs, hg⟩ := ih (SMap.put acc l (val l, false)) fun e he => hf e (List.mem_cons_of_mem _ he)
    simp only [List.foldl_cons, hf l List.mem_cons_self]
    refine ⟨hs, fun e d => (hg e d).trans ?_⟩
    by_cases he : e ∈ ls
    · simp [he]
    · by_cases hl : e = l
      · simp [hl]
      · simp [he, hl, SMap.getD_put_ne]

/-- A gather of clean words. -/
theorem vLeaves_vgath {c : CellAddr} {i : Nat} {hw : VHw} {s : State} (h : VReady c i hw s) (hop : vOp i = 0x52)
    (hp : ∀ k, s.mem.spPoison.contains (spWord c.toNat k) = false) (hc : s.laneCause c.toNat (s.vst c.toNat) i = none)
    (hv : (s.vst c.toNat).vpoison (vVb i) = 0) :
    ∃ t, exec (.vgath c hw) s = .next t ∧ VLeaves c s t ((s.vst c.toNat).write (vVd i) 0 32 64 ((s.vst c.toNat).mask (vMask i))
      (fun e => ofLE (s.bytes (spAddr c.toNat (laneAddress (s.vst c.toNat) i e)) 4)) fun _ => false) := by
  obtain ⟨hs, hg⟩ := foldl_gather (f := fun t e => t.read32 c.toNat (laneAddress (s.vst c.toNat) i e) []) (gatherLanes (s.vst c.toNat) i) []
    fun e he => State.read32_clean hp (State.aligned_of_laneCause hc he)
  refine ⟨_, ?_, vLeaves_vDone_same h rfl⟩
  change execVgath c hw s = _
  rw [execVgath, vRow_there h.1 hop, h.1.2.2.2.1]
  dsimp only
  rw [hc]
  dsimp only
  rw [hs, State.vResidue_calm h.1.2.2.2.2.1]
  refine congrArg _ (congrArg (s.vDone c.toNat) (VSt.write_congr (fun e he ha => ?_) fun e he ha => ?_))
  all_goals rw [hg, if_pos ((mem_gatherLanes hv).2 ⟨he, ha⟩)]

section
variable {c : Nat} {addr val : Nat → Nat}

/-- Storing words lane by lane: a lane's word lands unless a later lane has its address, and no other byte changes. -/
theorem foldl_scatter (ls : List Nat) (s : State) (hl : ls.Pairwise (· < ·)) (ha : ∀ e ∈ ls, addr e % 4 = 0)
    (hp : ∀ k, s.mem.spPoison.contains (spWord c k) = false) :
    let t := ls.foldl (fun s e => s.writePart c (addr e) (toLE 4 (val e)) false []) s
    (∀ p, (∀ e ∈ ls, p < spAddr c (addr e) ∨ spAddr c (addr e) + 4 ≤ p) → t.byte p = s.byte p) ∧ t = { s with mem := t.mem } ∧
      ∀ e ∈ ls, (∀ e' ∈ ls, e < e' → addr e' ≠ addr e) → t.bytes (spAddr c (addr e)) 4 = toLE 4 (val e) := by
  induction ls generalizing s with
  | nil => exact ⟨fun _ _ => rfl, rfl, nofun⟩
  | cons l ls ih =>
    obtain ⟨hlt, hl⟩ := List.pairwise_cons.1 hl
    obtain ⟨hal, hals⟩ := List.forall_mem_cons.1 ha
    have hlen : (toLE 4 (val l)).length = 4 := toLE_length _ _
    obtain ⟨hin, hout⟩ := State.byte_writePart (bs := toLE 4 (val l)) (hp (addr l / 32 * 32)) (by omega)
    have hcl : ∀ k, (s.writePart c (addr l) (toLE 4 (val l)) false []).mem.spPoison.contains (spWord c k) = false := fun k => by
      rw [State.writePart, State.readWord_clean (hp _)]
      exact NSet.contains_del (hp k)
    obtain ⟨hkept, hmem, hstored⟩ := ih _ hl hals hcl
    refine ⟨fun p h => ?_, ?_, fun e he hlast => ?_⟩
    · obtain ⟨hpl, hps⟩ := List.forall_mem_cons.1 h
      exact (hkept p hps).trans (hout p (hlen ▸ hpl))
    · refine hmem.trans ?_
      rw [List.foldl_cons]
      generalize List.foldl _ _ ls = u
      rw [State.writePart_eq _ (hp _)]
    · obtain rfl | he := List.mem_cons.1 he
      · refine hlen ▸ State.bytes_eq _ _ _ fun k hk => (hkept _ fun e' he' => ?_).trans (hin k hk)
        have hne := hlast e' (List.mem_cons_of_mem _ he') (hlt e' he')
        have := hals e' he'
        simp only [spAddr]
        omega
      · exact hstored e he fun e' he' => hlast e' (List.mem_cons_of_mem _ he')
end

/-- The state with the words of the lanes that VSCAT names stored. -/
def State.vScattered (s : State) (c i : Nat) : State :=
  (gatherLanes (s.vst c) i).foldl (fun t e => t.writePart c (laneAddress (s.vst c) i e) (toLE 4 (velem ((s.vst c).vec (vVc i)) 32 e)) false []) s

theorem gatherLanes_sorted (x : VSt) (i : Nat) : (gatherLanes x i).Pairwise (· < ·) := List.pairwise_lt_range.filter _

/-- What scattering leaves in memory. -/
theorem State.vScattered_lands {s : State} {c i : Nat} (ha : ∀ e ∈ gatherLanes (s.vst c) i, laneAddress (s.vst c) i e % 4 = 0)
    (hp : ∀ k, s.mem.spPoison.contains (spWord c k) = false) :
    (∀ p, (∀ e ∈ gatherLanes (s.vst c) i, p < spAddr c (laneAddress (s.vst c) i e) ∨ spAddr c (laneAddress (s.vst c) i e) + 4 ≤ p) →
      (s.vScattered c i).byte p = s.byte p) ∧ s.vScattered c i = { s with mem := (s.vScattered c i).mem } ∧
      ∀ e ∈ gatherLanes (s.vst c) i, (∀ e' ∈ gatherLanes (s.vst c) i, e < e' → laneAddress (s.vst c) i e' ≠ laneAddress (s.vst c) i e) →
        (s.vScattered c i).bytes (spAddr c (laneAddress (s.vst c) i e)) 4 = toLE 4 (velem ((s.vst c).vec (vVc i)) 32 e) :=
  foldl_scatter (addr := laneAddress (s.vst c) i) (val := velem ((s.vst c).vec (vVc i)) 32) _ _ (gatherLanes_sorted _ _) ha hp

theorem State.bytes_congr {s t : State} (h : ∀ p, s.byte p = t.byte p) (a n : Nat) : s.bytes a n = t.bytes a n :=
  List.ext_getElem (by simp) fun k _ _ => by simp [h]

section
variable {c : CellAddr} {i : Nat} {hw : VHw} {s : State} (h : VReady c i hw s) (hop : vOp i = 0x53)
  (hc : s.laneCause c.toNat (s.vst c.toNat) i = none) (hvb : (s.vst c.toNat).vpoison (vVb i) = 0)
include h hop hc hvb

theorem exec_vscat_clean (hvc : (s.vst c.toNat).vpoison (vVc i) = 0) :
    exec (.vscat c hw) s = .next (((s.inc (Reg.VC_CK_COUNTS_skip_count c.toNat) 0).vScattered c.toNat i).vDone c.toNat
      (((s.inc (Reg.VC_CK_COUNTS_skip_count c.toNat) 0).vScattered c.toNat i).vst c.toNat)) := by
  have hskip : (indices 64 fun sl => vactive ((s.vst c.toNat).mask (vMask i)) 0 32 sl && bitAt ((s.vst c.toNat).vpoison (vVb i)) sl).length = 0 := by
    simp [indices, hvb, bitAt]
  have hclean : ∀ sl, bitAt ((s.vst c.toNat).vpoison (vVc i)) sl = false := fun sl => by rw [hvc]; exact Nat.zero_testBit sl
  change execVscat c hw s = _
  rw [execVscat, vRow_there h.1 hop, h.1.2.2.2.1]
  dsimp only
  rw [hc]
  dsimp only
  simp only [hskip, hclean, State.vResidue_calm h.1.2.2.2.2.1]
  rfl

/-- A scatter of a clean vector into clean words. -/
theorem vscat_lands (hvc : (s.vst c.toNat).vpoison (vVc i) = 0) (hp : ∀ k, s.mem.spPoison.contains (spWord c.toNat k) = false) :
    ∃ t, exec (.vscat c hw) s = .next t ∧
      (∀ e, e < 64 → vactive ((s.vst c.toNat).mask (vMask i)) 0 32 e = true →
        (∀ e', e < e' → e' < 64 → vactive ((s.vst c.toNat).mask (vMask i)) 0 32 e' = true →
          laneAddress (s.vst c.toNat) i e' ≠ laneAddress (s.vst c.toNat) i e) →
        t.bytes (spAddr c.toNat (laneAddress (s.vst c.toNat) i e)) 4 = toLE 4 (velem ((s.vst c.toNat).vec (vVc i)) 32 e)) ∧
      (∀ p, (∀ e, e < 64 → vactive ((s.vst c.toNat).mask (vMask i)) 0 32 e = true →
          p < spAddr c.toNat (laneAddress (s.vst c.toNat) i e) ∨ spAddr c.toNat (laneAddress (s.vst c.toNat) i e) + 4 ≤ p) → t.byte p = s.byte p) ∧
      (t.cell c.toNat).eng = goesOn (s.cell c.toNat).eng (loopNext (s.cell c.toNat).eng.pc (s.vst c.toNat).loops).1 s.now ∧
      OnlyCell c.toNat s t := by
  have hact : ∀ e, e ∈ gatherLanes (s.vst c.toNat) i ↔ e < 64 ∧ vactive ((s.vst c.toNat).mask (vMask i)) 0 32 e = true :=
    fun e => mem_gatherLanes hvb
  obtain ⟨hkept, hmem, hstored⟩ := @State.vScattered_lands (s.inc (Reg.VC_CK_COUNTS_skip_count c.toNat) 0) c.toNat i
    (fun e he => State.aligned_of_laneCause hc he) hp
  have hex := exec_vscat_clean h hop hc hvb hvc
  generalize State.vScattered _ c.toNat i = u at hkept hmem hstored hex
  have hf : u.fenced c.toNat = false := by
    have hr : ∀ o, o ≠ (Reg.VC_CK_COUNTS_skip_count c.toNat).off → u.reg o = s.reg o := fun o ho => by
      rw [hmem]
      exact State.reg_set_ne _ _ _ ho
    rw [← h.1.2.2.1, State.fenced, State.fenced, State.flag, State.flag, State.get, State.get, hr _ (skip_count_ne_fenced _)]
  obtain ⟨hbyte, -, heng, honly⟩ := State.vDone_stored (t := u) h (by rw [hmem]; rfl) hf
  refine ⟨_, hex, fun e he ha hlast => ?_, fun p hout => ?_, heng, honly⟩
  · rw [State.bytes_congr hbyte]
    exact hstored e ((hact e).2 ⟨he, ha⟩) fun e' he' hlt => hlast e' hlt ((hact e').1 he').1 ((hact e').1 he').2
  · rw [hbyte]
    exact hkept p fun e he => hout e ((hact e).1 he).1 ((hact e).1 he).2
end

/-- Settles O12. -/
theorem vMemory : Obligations.VMemory := fun _ _ _ _ h ha hp => ⟨fun hop hb => vLeaves_vld h hop ha hp hb,
  fun hop hb hv hw0 => exec_vst_clean h hp hop ha hv hb hw0, fun hop hc hv => vLeaves_vgath h hop hp hc hv,
  fun hop hc hvb hvc => vscat_lands h hop hc hvb hvc hp⟩

end Sys2Proof.Machine
end

section
/-! PROOFS. M-cells: the checksum margin (O23, O24). -/

namespace Sys2Proof.Machine
open Sys2Proof.Says

/-! ### What a K-step leaves in the accumulators -/

theorem accKey_ne {r n r' n' : Nat} (hn : n < 32) (hn' : n' < 32) (h : r ≠ r' ∨ n ≠ n') : accKey r n ≠ accKey r' n' := by
  simp only [accKey]
  omega

section
variable (int : Bool) (o : KOps) (j r : Nat) (x : MSt)

/-- What a K-step without injection or fault makes of the accumulator of row `r` (operands at place `j`) and column `n`. -/
def stepped (old : SMap Nat) (n : Nat) : Nat :=
  if (nth o.rows j ([], false)).2 || (nth o.cols n ([], false)).2 then SMap.getD old (accKey r n) 0
  else accStep int (SMap.getD old (accKey r n) 0) (products (nth o.rows j ([], false)).1 (nth o.cols n ([], false)).1) noExtra

/-- ... and of the state of the M-cell. -/
def MSt.stepCell (n : Nat) : MSt :=
  { x with acc := SMap.put x.acc (accKey r n) (stepped int o j r x.old n)
           accPoison := if (nth o.rows j ([], false)).2 || (nth o.cols n ([], false)).2 then NSet.add x.accPoison (accKey r n) else x.accPoison }

/-- A row of a K-step, up to column `m`. -/
def MSt.stepRow (m : Nat) : MSt := (List.range m).foldl (fun x n => x.stepCell int o j r n) x

variable {int o j r x}

theorem MSt.step_calm (rows : List Nat) :
    x.step int o rows none [] = foldIdx (fun j x r => MSt.stepRow int o j r x o.cols.length) 0 x rows := rfl

theorem MSt.stepRow_succ (m : Nat) : MSt.stepRow int o j r x (m + 1) = (MSt.stepRow int o j r x m).stepCell int o j r m := by
  simp [MSt.stepRow, List.range_succ]

/-- `y` is `x` with other accumulators and other poison of them. -/
def SameButAcc (x y : MSt) : Prop := y = { x with acc := y.acc, accPoison := y.accPoison }

theorem SameButAcc.trans {y z : MSt} (h : SameButAcc x y) (k : SameButAcc y z) : SameButAcc x z := by
  unfold SameButAcc at h k ⊢
  rw [h] at k
  exact k

theorem SameButAcc.old {y : MSt} (h : SameButAcc x y) : y.old = x.old := by
  rw [h]

theorem MSt.sameButAcc_stepRow (m : Nat) : SameButAcc x (MSt.stepRow int o j r x m) := by
  induction m with
  | zero => rfl
  | succ m ih =>
    rw [MSt.stepRow_succ]
    exact ih.trans rfl

theorem MSt.getD_stepRow {m : Nat} (hm : m ≤ 32) :
    (∀ n, n < m → SMap.getD (MSt.stepRow int o j r x m).acc (accKey r n) 0 = stepped int o j r x.old n) ∧
      ∀ k, (∀ n, n < m → k ≠ accKey r n) → SMap.getD (MSt.stepRow int o j r x m).acc k 0 = SMap.getD x.acc k 0 := by
  induction m with
  | zero => exact ⟨nofun, fun _ _ => rfl⟩
  | succ m ih =>
    obtain ⟨htook, hkept⟩ := ih (by omega)
    rw [MSt.stepRow_succ]
    refine ⟨fun n hn => ?_, fun k hk => ?_⟩
    · by_cases he : n = m
      · rw [he, MSt.stepCell, SMap.getD_put_self, (MSt.sameButAcc_stepRow m).old]
      · rw [MSt.stepCell, SMap.getD_put_ne _ _ _ (accKey_ne (by omega) (by omega) (.inr he)), htook n (by omega)]
    · rw [MSt.stepCell, SMap.getD_put_ne _ _ _ (hk m (by omega)), hkept k fun n hn => hk n (by omega)]

end

/-- The accumulators after a K-step of rows whose operands stand from place `j` on. -/
theorem MSt.getD_foldIdx_stepRow {int : Bool} {o : KOps} (ho : o.cols.length ≤ 32) (rows : List Nat) (hnd : rows.Nodup) (j : Nat) (x : MSt) :
    let y := foldIdx (fun j x r => MSt.stepRow int o j r x o.cols.length) j x rows
    SameButAcc x y ∧
      (∀ k r n, rows[k]? = some r → n < o.cols.length → SMap.getD y.acc (accKey r n) 0 = stepped int o (j + k) r x.old n) ∧
      ∀ k, (∀ r n, r ∈ rows → n < o.cols.length → k ≠ accKey r n) → SMap.getD y.acc k 0 = SMap.getD x.acc k 0 := by
  induction rows generalizing j x with
  | nil => exact ⟨rfl, nofun, fun _ _ => rfl⟩
  | cons r rs ih =>
    obtain ⟨hr, hnd⟩ := List.nodup_cons.1 hnd
    obtain ⟨hsame, htook, hkept⟩ := ih hnd (j + 1) (MSt.stepRow int o j r x o.cols.length)
    have hrow : SameButAcc x (MSt.stepRow int o j r x o.cols.length) := MSt.sameButAcc_stepRow _
    obtain ⟨htook1, hkept1⟩ := MSt.getD_stepRow (int := int) (o := o) (j := j) (r := r) (x := x) ho
    refine ⟨hrow.trans hsame, fun k r' n hk hn => ?_, fun k hk => ?_⟩
    · cases k with
      | zero =>
        obtain rfl : r = r' := Option.some.inj hk
        exact (hkept _ fun r' n' hr' hn' => accKey_ne (by omega) (by omega) (.inl fun (h : r = r') => hr (h ▸ hr'))).trans (htook1 n hn)
      | succ k => rw [foldIdx, htook k r' n hk hn, hrow.old, Nat.add_right_comm, Nat.add_assoc]
    · exact (hkept k fun r' n hr' hn => hk r' n (List.mem_cons_of_mem _ hr') hn).trans (hkept1 k fun n hn => hk r n List.mem_cons_self hn)

/-- The accumulators after a K-step without injection or fault. -/
theorem MSt.getD_step {int : Bool} {o : KOps} (ho : o.cols.length ≤ 32) {rows : List Nat} (hnd : rows.Nodup) (x : MSt) :
    SameButAcc x (x.step int o rows none []) ∧
      (∀ k r n, rows[k]? = some r → n < o.cols.length →
        SMap.getD (x.step int o rows none []).acc (accKey r n) 0 = stepped int o k r x.old n) ∧
      ∀ k, (∀ r n, r ∈ rows → n < o.cols.length → k ≠ accKey r n) → SMap.getD (x.step int o rows none []).acc k 0 = SMap.getD x.acc k 0 := by
  rw [MSt.step_calm]
  obtain ⟨hsame, htook, hkept⟩ := MSt.getD_foldIdx_stepRow (int := int) ho rows hnd 0 x
  exact ⟨hsame, fun k r n hk hn => (htook k r n hk hn).trans (by rw [Nat.zero_add]), hkept⟩

/-! ### The checks of a clean K-step of integers (O23) -/

theorem sum_flatMap_toIntRne {α : Type} (F : α → List FV) (xs : List α) :
    ((xs.flatMap F).map FV.toIntRne).sum = (xs.map fun a => ((F a).map FV.toIntRne).sum).sum := by
  induction xs with
  | nil => rfl
  | cons a xs ih => simp [ih]

/-- The sum over a list, taken place by place; places beyond its end add nothing. -/
theorem sum_eq_sum_range {α : Type} (g : α → Int) (d : α) (hd : g d = 0) (xs : List α) (m : Nat) (hm : xs.length ≤ m) :
    (xs.map g).sum = ((List.range m).map fun n => g (nth xs n d)).sum := by
  induction xs generalizing m with
  | nil =>
    have : ∀ n, g (nth ([] : List α) n d) = 0 := fun n => by simpa [nth] using hd
    simp [this]
  | cons a xs ih =>
    obtain ⟨m, rfl⟩ : ∃ k, m = k + 1 := ⟨m - 1, by simp at hm; omega⟩
    rw [List.range_succ_eq_map, List.map_cons, List.map_cons, List.map_map, List.sum_cons, List.sum_cons, ih m (by simpa using hm)]
    rfl

theorem sum_sub_sub_emod {α : Type} {m : Int} {f g h : α → Int} (xs : List α) (hx : ∀ a ∈ xs, (f a - g a - h a) % m = 0) :
    ((xs.map f).sum - (xs.map g).sum - (xs.map h).sum) % m = 0 := by
  induction xs with
  | nil => simp
  | cons a xs ih =>
    obtain ⟨ha, hxs⟩ := List.forall_mem_cons.1 hx
    have := ih hxs
    simp only [List.map_cons, List.sum_cons]
    rw [show f a + (xs.map f).sum - (g a + (xs.map g).sum) - (h a + (xs.map h).sum) =
      (f a - g a - h a) + ((xs.map f).sum - (xs.map g).sum - (xs.map h).sum) by ring]
    exact Int.emod_eq_zero_of_dvd (dvd_add (Int.dvd_of_emod_eq_zero ha) (Int.dvd_of_emod_eq_zero this))

theorem toSigned_ofSigned_emod (z : Int) : (toSigned 32 (ofSigned 32 z) - z) % 2 ^ 32 = 0 := by
  unfold toSigned ofSigned
  dsimp only
  split_ifs <;> omega

/-- An integer unit does not mismatch when its outputs changed by its products. -/
theorem Unit.check_ne_bad {u : Unit}
    (h : u.poison = false → ((u.news.map (toSigned 32)).sum - (u.olds.map (toSigned 32)).sum - (u.ps.map FV.toIntRne).sum) % 2 ^ 32 = 0) :
    u.check true ≠ .bad := by
  unfold Unit.check
  split
  · nofun
  · next hp =>
    rw [if_pos rfl, if_pos (h (eq_false_of_ne_true hp))]
    nofun

/-- An unpoisoned accumulator of a clean K-step of integers changed by its products; one of a padded column did not. -/
theorem stepped_change {x : MSt} {o : KOps} {rows r n : Nat} (hx : x.acc = x.old) (ho : o.cols.length ≤ 32) (hr : r < rows) (hn : n < 32)
    (ha : (nth o.rows r ([], false)).2 = false) (hb : (nth o.cols n ([], false)).2 = false) :
    (toSigned 32 (SMap.getD (x.step true o (List.range rows) none []).acc (accKey r n) 0) - toSigned 32 (SMap.getD x.old (accKey r n) 0) -
      ((products (nth o.rows r ([], false)).1 (nth o.cols n ([], false)).1).map FV.toIntRne).sum) % 2 ^ 32 = 0 := by
  obtain ⟨-, htook, hkept⟩ := MSt.getD_step (int := true) ho (List.nodup_range (n := rows)) x
  by_cases hc : n < o.cols.length
  · rw [htook r r n (by simp [hr]) hc, stepped, ha, hb]
    have := toSigned_ofSigned_emod (toSigned 32 (SMap.getD x.old (accKey r n) 0) +
      ((products (nth o.rows r ([], false)).1 (nth o.cols n ([], false)).1).map FV.toIntRne).sum + noExtra.toIntRne)
    rw [show noExtra.toIntRne = 0 by decide, add_zero, ← sub_sub] at this
    simpa [accStep, show noExtra.toIntRne = 0 by decide] using this
  · rw [hkept _ fun r' n' _ hn' => accKey_ne hn (by omega) (.inr (by omega)), hx]
    have hd : nth o.cols n ([], false) = ([], false) := List.getD_eq_default _ _ (Nat.le_of_not_lt hc)
    simp [hd, products]

theorem nth_clean {cols : List (List FV × Bool)} (h : ∀ b ∈ cols, b.2 = false) (n : Nat) : (nth cols n ([], false)).2 = false := by
  by_cases hn : n < cols.length
  · exact (congrArg Prod.snd (List.getD_eq_getElem cols _ hn)).trans (h _ (List.getElem_mem hn))
  · exact congrArg Prod.snd (List.getD_eq_default cols _ (Nat.le_of_not_lt hn))

/-- Settles O23: each new accumulator changed by its products, and a unit adds up such changes. -/
theorem cleanIntegerStepPasses : Obligations.CleanIntegerStepPasses := by
  intro x o rows hx ho
  have hold : (x.step true o (List.range rows) none []).old = x.old := (MSt.getD_step ho List.nodup_range x).1.old
  refine ⟨fun r hr => Unit.check_ne_bad fun hp => ?_, fun rs n hrs hn => Unit.check_ne_bad fun hp => ?_⟩
  · obtain ⟨⟨ha, hb⟩, -⟩ : ((nth o.rows r ([], false)).2 = false ∧ ∀ b ∈ o.cols, b.2 = false) ∧ _ := by
      simpa [rowUnit, Bool.or_eq_false_iff] using hp
    have hsum := sum_sub_sub_emod (List.range 32) fun n hn => stepped_change hx ho hr (List.mem_range.1 hn) ha (nth_clean hb n)
    rw [← sum_eq_sum_range (fun b : List FV × Bool => ((products (nth o.rows r ([], false)).1 b.1).map FV.toIntRne).sum) _ (by simp [products]) _ _ ho]
      at hsum
    simpa [rowUnit, accVals, hold, rowProducts, sum_flatMap_toIntRne, Function.comp_def] using hsum
  · obtain ⟨⟨hb, ha⟩, -⟩ : ((nth o.cols n ([], false)).2 = false ∧ ∀ r ∈ rs, (nth o.rows r ([], false)).2 = false) ∧ _ := by
      simpa [colUnit, Bool.or_eq_false_iff] using hp
    have hsum := sum_sub_sub_emod rs fun r hr => stepped_change hx ho (hrs r hr) hn (ha r hr) hb
    simpa [colUnit, accVals, hold, sum_flatMap_toIntRne, Function.comp_def] using hsum

/-! ### A check that reads the wrong row of operands (O24) -/

/-- A descriptor of INT8 operands in output-stationary flow, with 64 rows, one column and one block. -/
def osDesc : Nat := 1 + 0x0A <<< 16 + 0x0A <<< 24 + (64 + 1 <<< 10 + 64 <<< 16 + 1 <<< 32 + 1 <<< 48) <<< 448

/-- Its second sub-block after a K-step: every accumulator has taken the one product 1 of its row and column. -/
def osSub1 (x : MSt) : MSt :=
  { x with phase := .check, sub := 1, acc := (List.range 32).map fun r => (accKey (32 + r) 0, 1)
           ops := ⟨List.replicate 32 ([.fin false 1 0], false), [([.fin false 1 0], false)]⟩ }

/-- D(0,0) B0 C0 in RUNNING, in a beat of that descriptor, at the check of that K-step. -/
def osChecks : State := (State.reset.goto .running).modCell 0 fun x =>
  { x with scene := { x.scene with playing := true, phase := .inBeat, cur := some ⟨[], [osDesc]⟩ }, m := osSub1 x.m }

/-- Refutes O24: in output-stationary flow the operands of a sub-block's rows stand at places from 0 on (R65), so row 32 of a 64-row block is
checked with the operands at place 0 and passes; the statement's unit takes those at place 32, of which there are none. -/
theorem not_matrixCheck : ¬ Obligations.MatrixCheck := by
  intro h
  have hr : MReady 0 osDesc osChecks ∧ (osChecks.mst (0 : CellAddr).toNat).phase = .check ∧
      groupsFrom osDesc (osChecks.mst 0).sub (osChecks.mst 0).group = [1] := by decide +kernel
  have hpass : (checkGroup (dInt osDesc) (osChecks.mst 0) (groupPlaces osDesc 1) (Config.freeValue osChecks.freeIdx).toNat).hit = false := by
    decide +kernel
  have hbad : 32 ∈ groupRows osDesc 1 ∧ (rowUnit (osChecks.mst 0) 32 32).check (dInt osDesc) = .bad := by decide +kernel
  obtain ⟨-, hg⟩ := h 0 osDesc osChecks hr.1 hr.2.1
  obtain ⟨hiff, -⟩ := hg 1 [] hr.2.2
  exact absurd (hiff.2 (.inl ⟨32, hbad⟩)) (ne_true_of_eq_false hpass)
end Sys2Proof.Machine
end

section
/-! PROOFS. M-cells: one K-step (O22). -/

namespace Sys2Proof.Machine
open Sys2Proof.Says

/-! ### Reading without a code event -/

/-- `t` is `s` but for registers. -/
def SameButRegs (s t : State) : Prop := t = { s with regs := t.regs }

theorem SameButRegs.trans {s t u : State} (h : SameButRegs s t) (k : SameButRegs t u) : SameButRegs s u := by
  unfold SameButRegs at h k ⊢
  rw [h] at k
  exact k

theorem sameButRegs_readWord (s : State) (c o m : Nat) : SameButRegs s (s.readWord c o m []).2 := by
  rw [State.readWord, eccAt_nil]
  dsimp only
  split <;> rfl

theorem sameButRegs_readWords (s : State) (c o m n : Nat) : SameButRegs s (s.readWords c o m [] n).2 := by
  induction n generalizing s o with
  | zero => rfl
  | succ n ih => exact (sameButRegs_readWord s c o m).trans (ih _ _)

theorem sameButRegs_bankRow (s : State) (c fmt : Nat) (ftz : Bool) (o so k n : Nat) : SameButRegs s (s.bankRow c fmt ftz o so k n []).2 := by
  unfold State.bankRow
  dsimp only [State.readSpan]
  split
  · exact sameButRegs_readWords _ _ _ _ _
  · exact (sameButRegs_readWords _ _ _ _ _).trans (sameButRegs_readWords _ _ _ _ _)

theorem sameButRegs_aRow (s : State) (c d r k n : Nat) : SameButRegs s (s.aRow c d r k n []).2 := by
  unfold State.aRow State.queueRow
  split <;> exact sameButRegs_bankRow _ _ _ _ _ _ _ _

theorem sameButRegs_bRow (s : State) (c d col k n : Nat) : SameButRegs s (s.bRow c d col k n []).2 :=
  sameButRegs_bankRow _ _ _ _ _ _ _ _

theorem sameButRegs_gather {f : State → Nat → (List FV × Bool) × State} (hf : ∀ s r, SameButRegs s (f s r).2) (rows : List Nat) (s : State) :
    SameButRegs s (gather f rows s).2 := by
  induction rows generalizing s with
  | nil => rfl
  | cons r rs ih => exact (hf s r).trans (ih _)

theorem gather_length (f : State → Nat → (List FV × Bool) × State) (rows : List Nat) (s : State) : (gather f rows s).1.length = rows.length := by
  induction rows generalizing s with
  | nil => rfl
  | cons r rs ih => exact congrArg (· + 1) (ih _)

/-- Operands are read for every row and column asked for. -/
theorem State.readOps_length (s : State) (c d : Nat) (rows : List Nat) (ecc : List EccEvent) :
    (s.readOps c d rows ecc).1.rows.length = rows.length ∧ (s.readOps c d rows ecc).1.cols.length = dCols d :=
  ⟨gather_length _ _ _, (gather_length _ _ _).trans List.length_range⟩

theorem sameButRegs_readOps (s : State) (c d : Nat) (rows : List Nat) : SameButRegs s (s.readOps c d rows []).2 :=
  (sameButRegs_gather (fun t r => sameButRegs_aRow t c d r _ _) rows s).trans
    (sameButRegs_gather (fun t n => sameButRegs_bRow t c d n _ _) (List.range (dCols d)) _)

/-! ### The command -/

theorem stepRows_nodup (d sub : Nat) : (stepRows d sub).Nodup := by
  unfold stepRows groupRows
  split
  · exact ((List.nodup_range.map fun a b h => by simpa using h).filter _)
  · exact List.nodup_range

/-- A command on an M-cell that works at descriptor `d`. -/
theorem onM_ready {c : CellAddr} {d : Nat} {s : State} (h : MReady c d s) (f : State → State) : onM c s f = .next (f s) := by
  obtain ⟨hc, hr, -⟩ := h
  have hu : decide (cellValid c.toNat = true ∧ engineOf c.toNat = .m) = true := by
    simpa [cellIs] using hc
  simp only [onM, hu, onUnit, when, hr, if_true]

/-- Progress after a change of the M-cell's registers. -/
theorem State.mProgress_modM {s : State} {c : Nat} (f : MSt → MSt) (hf : s.fenced c = false) :
    (s.modM c f).mProgress c = s.modCell c fun x => { x with
      m := f x.m, eng := { x.eng with run := 1, wait := .none, progress := x.eng.progress + 1, progressAt := s.now } } := by
  rw [State.mProgress, State.modM, State.fenced_modCell, if_neg (ne_true_of_eq_false hf), State.modEng, State.modCell_modCell]
  rfl

section
variable {c : CellAddr} {d : Nat} {hw : MHw} {s : State} (h : MReady c d s) (hph : (s.mst c.toNat).phase = .stream)
  (ha : s.aReady c.toNat d = true)
  (hk : ¬((s.mst c.toNat).kIdx = 0 ∧ (dInit d = 1 ∨ (s.mst c.toNat).sub = 0 ∧ 2 ≤ (s.mst c.toNat).waitingBlocks)))
include h hph ha hk

theorem exec_kStep_clean {q : KOps × State} (hq : (s.modM c.toNat fun x => { x with old := x.acc, oldPoison := x.accPoison }).readOps c.toNat d (stepRows d (s.mst c.toNat).sub) hw.ecc = q)
    (hf : q.2.fenced c.toNat = false) (harm : q.2.armed c.toNat d = none) :
    exec (.kStep c hw) s = .next ((q.2.modM c.toNat fun x =>
      { (x.step (dInt d) q.1 (stepRows d (s.mst c.toNat).sub) none hw.wrong) with ops := q.1, phase := .check, group := 0 }).mProgress c.toNat) := by
  change execKStep c hw s = _
  rw [execKStep, onM_ready h]
  dsimp only
  rw [h.2.2]
  refine congrArg _ ((if_neg (not_not.2 hph)).trans ((if_neg (by simp [ha])).trans ((if_neg fun hw => hk ⟨hw.1, .inr hw.2⟩).trans ?_)))
  rw [State.kStep]
  dsimp only
  have hinit : (if (s.mst c.toNat).kIdx = 0 ∧ dInit d = 1 then s.loadInit c.toNat d (s.mst c.toNat).mIdx (s.mst c.toNat).nIdx
      (stepRows d (s.mst c.toNat).sub) hw.ecc else s) = s := if_neg fun hi => hk ⟨hi.1, .inl hi.2⟩
  rw [hinit]
  rw [hq]
  refine (if_neg (ne_true_of_eq_false hf)).trans ?_
  rw [harm]
  rfl
end

/-- Settles O22: the accumulators are those of a clean step, whose columns are those that were read. -/
theorem matrixStep : Obligations.MatrixStep := by
  refine ⟨fun s a d rows ecc => ⟨(s.readOps_length a d rows ecc).1, (s.readOps_length a d rows ecc).2, fun he => he ▸ sameButRegs_readOps s a d rows⟩,
    fun c d hw s h hph ha hk hwr hcols hf harm => ⟨_, exec_kStep_clean h hph ha hk rfl hf harm, ?_⟩⟩
  have hlen := ((s.modM c.toNat fun x => { x with old := x.acc, oldPoison := x.accPoison }).readOps_length c.toNat d (stepRows d (s.mst c.toNat).sub) hw.ecc).2
  rw [hwr]
  generalize State.readOps (s.modM c.toNat _) c.toNat d (stepRows d (s.mst c.toNat).sub) hw.ecc = q at hlen hf ⊢
  obtain ⟨hsame, htook, hkept⟩ := MSt.getD_step (int := dInt d) (hlen ▸ hcols) (stepRows_nodup d (s.mst c.toNat).sub) (q.2.mst c.toNat)
  rw [State.mProgress_modM _ hf]
  simp only [State.mst, State.cell_modCell_self, true_and] at hsame htook hkept ⊢
  refine ⟨fun k hk => State.cell_modCell_ne _ _ hk, rfl, hsame.old, fun j r n hj hn => ?_, fun k hk => ?_⟩
  · rw [htook j r n hj (hlen ▸ hn), stepped]
    simp only [Bool.or_eq_true]
  · exact hkept k fun r n hr hn => hk r n hr (hlen ▸ hn)
end Sys2Proof.Machine
end

section
/-! PROOFS. M-cells: descriptors, the end of a K-step, replays and drains (O25). -/

namespace Sys2Proof.Machine
open Sys2Proof.Says

/-! ### Credit that goes back changes no register -/

theorem State.fenced_of_regs {s t : State} (h : t.regs = s.regs) (c : Nat) : t.fenced c = s.fenced c := by
  simp only [State.fenced, State.flag, State.get, State.reg, h]

theorem State.regs_ite {p : Prop} [Decidable p] {s t u : State} (ht : t.regs = s.regs) (hu : u.regs = s.regs) :
    (if p then t else u).regs = s.regs := by
  split
  · exact ht
  · exact hu

@[simp] theorem State.regs_sendItem (s : State) (it : Item) : (s.sendItem it).regs = s.regs := by
  exact State.regs_ite rfl (State.regs_ite rfl rfl)

@[simp] theorem State.regs_flushCredit (s : State) (c n : Nat) : (s.flushCredit c n).regs = s.regs := by
  have hfold : ∀ (ps : List (Option ChanEnd)) (f : ChanEnd → Item) (t : State),
      (ps.foldl (fun t x => match x with | some x => t.sendItem (f x) | none => t) t).regs = t.regs := fun ps f t =>
    List.foldlRecOn (motive := fun u : State => u.regs = t.regs) ps _ rfl fun u hu x _ => by
      cases x with
      | none => exact hu
      | some x => exact (u.regs_sendItem _).trans hu
  unfold State.flushCredit
  dsimp only
  split
  · exact hfold _ _ _
  · split
    · exact s.regs_sendItem _
    · rfl

@[simp] theorem State.regs_giveCredit (s : State) (c n k : Nat) : (s.giveCredit c n k).regs = s.regs := by
  exact State.regs_ite ((State.regs_flushCredit _ _ _).trans rfl) rfl

@[simp] theorem State.regs_takeCue (s : State) (c n : Nat) : (s.takeCue c n).regs = s.regs := by
  unfold State.takeCue
  exact (State.regs_giveCredit _ _ _ _).trans rfl

/-! ### Descriptors -/

theorem State.fenced_of_mRuns {s : State} {c : Nat} (h : s.mRuns c = true) : s.fenced c = false := by
  simp only [State.mRuns, State.mayRun, Bool.and_eq_true, Bool.not_eq_true'] at h
  exact h.1.1.1.2

/-- With no cue owed none is posted. -/
theorem State.postCues_nil {s : State} {c : Nat} (h : (s.mst c).cues = []) : s.postCues c = s := by
  rw [State.postCues, h]

section
variable {c : CellAddr} {d : Nat} {s : State} (h : MReady c d s)
include h

section
variable (hph : (s.mst c.toNat).phase = .idle) (hcues : (s.mst c.toNat).cues = [])
include hph hcues

/-- A descriptor at an M-cell that is idle and owes no cue. -/
theorem exec_mDescriptorDecode_idle (ecc : List EccEvent) (store : Bool) :
    exec (.mDescriptorDecode ⟨c, ecc, store⟩) s = .next (
      if store then s.storeFault c.toNat
      else if dWaitCue d = true ∧ (!s.hasMsg c.toNat (dCueEp d)) = true then s.waitRecv c.toNat (dCueEp d)
      else
        let t := if dWaitCue d then (s.readCue c.toNat (dCueEp d) ecc).2.takeCue c.toNat (dCueEp d) else s
        if t.fenced c.toNat then t else (t.startBlock c.toNat d 0 0).mProgress c.toNat) := by
  change execMDescriptorDecode ⟨c, ecc, store⟩ s = _
  rw [execMDescriptorDecode]
  dsimp only
  rw [onM_ready h, State.postCues_nil hcues, h.2.2]
  exact congrArg _ (if_neg (not_not.2 hph))

theorem exec_mDescriptorDecode_store (ecc : List EccEvent) : exec (.mDescriptorDecode ⟨c, ecc, true⟩) s = .next (s.storeFault c.toNat) := by
  rw [exec_mDescriptorDecode_idle h hph hcues, if_pos rfl]

theorem exec_mDescriptorDecode_plain (hw : dWaitCue d = false) (ecc : List EccEvent) :
    exec (.mDescriptorDecode ⟨c, ecc, false⟩) s = .next ((s.startBlock c.toNat d 0 0).mProgress c.toNat) := by
  rw [exec_mDescriptorDecode_idle h hph hcues, if_neg Bool.false_ne_true, hw, if_neg (by simp), if_neg Bool.false_ne_true]
  dsimp only
  rw [if_neg (ne_true_of_eq_false (State.fenced_of_mRuns h.2.1))]

theorem exec_mDescriptorDecode_cue (hw : dWaitCue d = true) (hm : s.hasMsg c.toNat (dCueEp d) = true) (ecc : List EccEvent)
    (hf : (s.readCue c.toNat (dCueEp d) ecc).2.fenced c.toNat = false) :
    exec (.mDescriptorDecode ⟨c, ecc, false⟩) s =
      .next ((((s.readCue c.toNat (dCueEp d) ecc).2.takeCue c.toNat (dCueEp d)).startBlock c.toNat d 0 0).mProgress c.toNat) := by
  rw [exec_mDescriptorDecode_idle h hph hcues, if_neg Bool.false_ne_true, if_neg (by simp [hm]), if_pos hw]
  dsimp only
  rw [State.fenced_of_regs (State.regs_takeCue _ _ _), if_neg (ne_true_of_eq_false hf)]

theorem exec_mDescriptorDecode_wait (hw : dWaitCue d = true) (hm : s.hasMsg c.toNat (dCueEp d) = false) (ecc : List EccEvent) :
    exec (.mDescriptorDecode ⟨c, ecc, false⟩) s = .next (s.waitRecv c.toNat (dCueEp d)) := by
  rw [exec_mDescriptorDecode_idle h hph hcues, if_neg Bool.false_ne_true, if_pos ⟨hw, by simp [hm]⟩]

end

/-! ### The end of a K-step, replays and drains -/

theorem exec_kStepCheck_groups (hph : (s.mst c.toNat).phase = .check) :
    exec (.kStepCheck c) s = .next (s.runChecks c.toNat d (groupsFrom d (s.mst c.toNat).sub (s.mst c.toNat).group)) := by
  change execKStepCheck c s = _
  rw [execKStepCheck, onM_ready h]
  dsimp only
  rw [h.2.2]
  exact congrArg _ (if_pos hph)

/-- With no check group left the K-step is followed by the next. -/
theorem exec_kStepCheck_next (hph : (s.mst c.toNat).phase = .check)
    (hg : groupsFrom d (s.mst c.toNat).sub (s.mst c.toNat).group = []) (hk : (s.mst c.toNat).kIdx + 1 < dSteps d) :
    exec (.kStepCheck c) s = .next ((s.modM c.toNat fun x => { x with kIdx := x.kIdx + 1, phase := .stream }).mProgress c.toNat) := by
  rw [exec_kStepCheck_groups h hph, hg, State.runChecks, State.kDone]
  exact congrArg _ (if_pos hk)

theorem exec_replayDone_replay (hph : (s.mst c.toNat).phase = .replay) (hw : MHw) : exec (.replayDone c hw) s = .next (s.replay c.toNat d hw) := by
  change execReplayDone c hw s = _
  rw [execReplayDone, onM_ready h]
  dsimp only
  rw [h.2.2]
  exact congrArg _ (if_pos hph)

theorem exec_drainRow_first {r : DrainRow} {rs : List DrainRow} {e : Nat} (hd : (s.mst c.toNat).drain = r :: rs)
    (he : s.descAt c.toNat r.desc = some e) (ecc : List EccEvent) :
    exec (.drainRow ⟨c, ecc⟩) s = .next (
      if dOqueue e then
        let t := s.epSend c.toNat (dOep e) (drainGrans e r)
        if t.1 then (t.2.rowGone c.toNat e r).chainEnd c.toNat ecc else t.2.engineWait c.toNat (.queue (dOep e))
      else
        let t := s.drainBank c.toNat e r ecc
        if t.fenced c.toNat then t else (t.rowGone c.toNat e r).chainEnd c.toNat ecc) := by
  change execDrainRow ⟨c, ecc⟩ s = _
  rw [execDrainRow]
  dsimp only
  rw [onM_ready h, hd]
  dsimp only
  rw [he]

end

/-- Settles O25: each command at the M-cell's phase, then the branch that its outcome chooses. -/
theorem matrixChain : Obligations.MatrixChain := by
  refine fun c d hw s h => ⟨fun hph hcues => ⟨fun ecc => exec_mDescriptorDecode_store h hph hcues ecc,
      fun hwc ecc => exec_mDescriptorDecode_plain h hph hcues hwc ecc, fun hwc hm ecc hf => exec_mDescriptorDecode_cue h hph hcues hwc hm ecc hf,
      fun hwc hm ecc => exec_mDescriptorDecode_wait h hph hcues hwc hm ecc⟩,
    fun hph hg hf hk => ⟨_, exec_kStepCheck_next h hph hg hk, ?_⟩, fun hph => ?_, fun r rs e hd he => ?_⟩
  · rw [State.mProgress_modM _ hf]
    exact ⟨fun k hk => State.cell_modCell_ne _ _ hk, rfl, by simp [State.mst]⟩
  · rw [exec_replayDone_replay h hph, State.replay]
    refine ⟨fun hf => congrArg _ (if_pos hf), fun hf => ⟨fun hh => ?_, fun hh => ⟨fun hc => ?_, fun hc => ?_⟩⟩⟩
    all_goals refine congrArg _ ((if_neg (ne_true_of_eq_false hf)).trans ?_)
    · exact if_pos hh
    · exact (if_neg (ne_true_of_eq_false hh)).trans (if_pos hc)
    · exact (if_neg (ne_true_of_eq_false hh)).trans (if_neg (ne_true_of_eq_false hc))
  · refine ⟨fun hq ecc => ⟨fun hf => ?_, fun hf => ?_⟩, fun hq ecc => ⟨fun ht => ?_, fun ht => ?_⟩⟩
    all_goals rw [exec_drainRow_first h hd he, hq]
    · exact congrArg _ (if_neg (ne_true_of_eq_false hf))
    · exact congrArg _ (if_pos hf)
    · exact congrArg _ (if_pos ht)
    · exact congrArg _ (if_neg (ne_true_of_eq_false ht))

end Sys2Proof.Machine
end

section
/-! PROOFS. Beats and scene changes (O26). -/

namespace Sys2Proof.Machine
open Sys2Proof.Says

/-! ### Load grants removed -/

@[simp] theorem State.cell_dropLoadGrants (s : State) (a : Nat) :
    s.dropLoadGrants.cell a = { s.cell a with grants := { (s.cell a).grants with load := [] } } := by
  simp only [State.cell, State.dropLoadGrants, SMap.getD, SMap.get?_mapVal]
  cases SMap.get? s.cells a <;> rfl

/-- Firmware's first act at a beat: the load grants go when the package is loaded. -/
def State.loaded (s : State) : State := if s.pkg.any (·.loading) then s.dropLoadGrants else s

theorem State.cell_loaded (s : State) (a : Nat) : ∃ l, s.loaded.cell a = { s.cell a with grants := { (s.cell a).grants with load := l } } := by
  unfold State.loaded
  split
  · exact ⟨_, s.cell_dropLoadGrants a⟩
  · exact ⟨_, rfl⟩

theorem State.scene_loaded (s : State) {a : Nat} : (s.loaded.cell a).scene = (s.cell a).scene := by
  obtain ⟨l, h⟩ := s.cell_loaded a
  rw [h]

theorem State.loaded_frame (s : State) : s.loaded.regs = s.regs ∧ s.loaded.mem = s.mem ∧ s.loaded.chans = s.chans ∧ s.loaded.now = s.now := by
  unfold State.loaded
  split <;> exact ⟨rfl, rfl, rfl, rfl⟩

/-! ### The endpoints of a new image -/

/-- `t` is `s` but for the cells and the hub's endpoints. -/
def SameButEnds (s t : State) : Prop := ∃ C H, t = { s with cells := C, hub := H }

theorem SameButEnds.ite {p : Prop} [Decidable p] {s t u : State} (ht : SameButEnds s t) (hu : SameButEnds s u) :
    SameButEnds s (if p then t else u) := by
  split
  · exact ht
  · exact hu

theorem SameButEnds.trans {s t u : State} (h : SameButEnds s t) (k : SameButEnds t u) : SameButEnds s u := by
  obtain ⟨C, H, rfl⟩ := h
  obtain ⟨C', H', rfl⟩ := k
  exact ⟨C', H', rfl⟩

theorem SameButEnds.foldl {α : Type} {f : State → α → State} (hf : ∀ s a, SameButEnds s (f s a)) (s : State) (l : List α) : SameButEnds s (l.foldl f s) :=
  List.foldlRecOn (motive := fun t : State => SameButEnds s t) l f ⟨_, _, rfl⟩ fun t ht a _ => ht.trans (hf t a)

theorem sameButEnds_refillSender (s : State) (c n : Nat) : SameButEnds s (s.refillSender c n) := by
  refine SameButEnds.foldl (fun s p => ?_) s s.chans
  split
  · exact .ite ⟨_, _, rfl⟩ (.ite ⟨_, _, rfl⟩ (.ite ⟨_, _, rfl⟩ ⟨_, _, rfl⟩))
  · exact ⟨_, _, rfl⟩

theorem sameButEnds_loadEp (s : State) (c : Nat) (im : SceneImage) (n : Nat) : SameButEnds s (s.loadEp c im n) := by
  unfold State.loadEp
  dsimp only
  refine .ite ⟨_, _, rfl⟩ (.ite ⟨_, _, rfl⟩ (.ite ⟨_, _, rfl⟩ (.trans ?_ (sameButEnds_refillSender _ _ _))))
  exact ⟨_, _, rfl⟩

/-- What taking a scene's image leaves: registers, channels and the bytes of memory stay, the engine starts afresh. -/
theorem State.sceneLoad_some {s : State} {c entry : Nat} {im : SceneImage}
    (h : ((s.cell c).scene.store.find? fun im => im.sceneNo == seScene ((s.cell c).scene.entryWord entry)) = some im) :
    let t := s.sceneLoad c entry
    let w := (s.cell c).scene.entryWord entry
    t.regs = s.regs ∧ t.mem.cells = s.mem.cells ∧ t.chans = s.chans ∧ (t.cell c).v = .init ∧ (t.cell c).sc = .init ∧ (t.cell c).m = .init ∧
      (t.cell c).eng.pc = 0 ∧ (t.cell c).eng.beats = 0 ∧ (t.cell c).eng.cause = 0 ∧ (t.cell c).scene.cur = some im ∧
      (t.cell c).scene.entry = entry ∧ (t.cell c).scene.beatsLeft = seBeats w ∧ (t.cell c).scene.entryDone = false ∧
      (t.cell c).scene.phase = if seActGate w then .gated else .ready := by
  rw [State.sceneLoad]
  dsimp only
  rw [h]
  dsimp only
  obtain ⟨C, H, hu⟩ := SameButEnds.foldl (fun s n => sameButEnds_loadEp s c im n) s (List.range 32)
  rw [hu, State.cell_modCell_self]
  exact ⟨rfl, rfl, rfl, rfl, rfl, rfl, rfl, rfl, rfl, rfl, rfl, rfl, rfl, rfl⟩

theorem State.sceneLoad_none {s : State} {c entry : Nat}
    (h : ((s.cell c).scene.store.find? fun im => im.sceneNo == seScene ((s.cell c).scene.entryWord entry)) = none) :
    s.sceneLoad c entry = s.modScene c fun x => { x with phase := .refill, entry := entry } := by
  rw [State.sceneLoad]
  dsimp only
  rw [h]

/-! ### BEAT_START -/

/-- What the start of a beat leaves of its cell. -/
theorem State.cell_beatStart (s : State) (a : Nat) : (s.beatStart a).cell a = { s.cell a with
    eng := { (s.cell a).eng with pc := 0, run := 1, wait := .none, progressAt := s.now }
    m := { (s.cell a).m with desc := 0, phase := .idle }
    scene := { (s.cell a).scene with phase := .inBeat }
    grants := { (s.cell a).grants with wins := SMap.mapVal (fun _ w =>
      if w.st = .filled ∧ winAutoFree w.decl then { w with st := .free } else w) (s.cell a).grants.wins } } := by
  simp [State.beatStart, State.autoFree]

section
variable {c : CellAddr} {s : State} (hc : cellValid c.toNat = true) (hr : s.mayRun c.toNat = true)
include hc

theorem exec_beatStart_loading (hl : s.loading = true) (store : Bool) : exec (.beatStart ⟨c, store⟩) s = .next s := by
  change execBeatStart ⟨c, store⟩ s = _
  rw [execBeatStart]
  dsimp only
  rw [onCell_of_valid hc]
  exact congrArg _ (if_neg (by simp [hl]))

include hr

theorem exec_beatStart_loaded (hl : s.loading = false) (store : Bool) :
    exec (.beatStart ⟨c, store⟩) s = .next (
      if (s.cell c.toNat).scene.phase = .changing ∧ store = true then s.loaded.storeFault c.toNat
      else
        let t := if (s.cell c.toNat).scene.phase = .changing then
            s.loaded.sceneLoad c.toNat (seNext ((s.cell c.toNat).scene.entryWord (s.cell c.toNat).scene.entry)) else s.loaded
        if (t.cell c.toNat).scene.phase = .ready ∧ (!(t.cell c.toNat).scene.entryDone) = true then t.beatStart c.toNat else t) := by
  change execBeatStart ⟨c, store⟩ s = _
  rw [execBeatStart]
  dsimp only
  rw [onCell_of_valid hc, ← s.scene_loaded]
  exact congrArg _ (if_pos ⟨hr, by simp [hl]⟩)

theorem exec_beatStart_store (hl : s.loading = false) (hph : (s.cell c.toNat).scene.phase = .changing) :
    exec (.beatStart ⟨c, true⟩) s = .next (s.loaded.storeFault c.toNat) := by
  rw [exec_beatStart_loaded hc hr hl, if_pos ⟨hph, rfl⟩]

theorem exec_beatStart_ready (hl : s.loading = false) (hph : (s.cell c.toNat).scene.phase = .ready)
    (hdone : (s.cell c.toNat).scene.entryDone = false) (store : Bool) : exec (.beatStart ⟨c, store⟩) s = .next (s.loaded.beatStart c.toNat) := by
  have hn : ¬(s.cell c.toNat).scene.phase = .changing := by simp [hph]
  rw [exec_beatStart_loaded hc hr hl, if_neg fun h => hn h.1, if_neg hn]
  dsimp only
  rw [s.scene_loaded, if_pos ⟨hph, by rw [hdone]; rfl⟩]

section
variable (hl : s.loading = false) (hph : (s.cell c.toNat).scene.phase = .changing) {e : Nat}
  (he : seNext ((s.cell c.toNat).scene.entryWord (s.cell c.toNat).scene.entry) = e)
include hl hph he

theorem exec_beatStart_changing : exec (.beatStart ⟨c, false⟩) s = .next (
    let t := s.loaded.sceneLoad c.toNat e
    if (t.cell c.toNat).scene.phase = .ready ∧ (!(t.cell c.toNat).scene.entryDone) = true then t.beatStart c.toNat else t) := by
  rw [exec_beatStart_loaded hc hr hl, if_neg (by simp), if_pos hph, he]

/-- A cell between scenes whose next image is not in its store waits for a refill. -/
theorem exec_beatStart_refill
    (h : ((s.cell c.toNat).scene.store.find? fun im => im.sceneNo == seScene ((s.cell c.toNat).scene.entryWord e)) = none) :
    exec (.beatStart ⟨c, false⟩) s = .next (s.loaded.modScene c.toNat fun y => { y with phase := .refill, entry := e }) := by
  rw [exec_beatStart_changing hc hr hl hph he, State.sceneLoad_none (by rw [s.scene_loaded]; exact h)]
  dsimp only
  rw [if_neg]
  simp [State.modScene]

/-- A cell between scenes with its next image in its store takes it, and starts a beat unless the entry is act-gated. -/
theorem exec_beatStart_scene {im : SceneImage}
    (h : ((s.cell c.toNat).scene.store.find? fun im => im.sceneNo == seScene ((s.cell c.toNat).scene.entryWord e)) = some im) :
    ∃ t, exec (.beatStart ⟨c, false⟩) s = .next t ∧ t.regs = s.regs ∧ t.mem.cells = s.mem.cells ∧ t.chans = s.chans ∧
      (t.cell c.toNat).v = .init ∧ (t.cell c.toNat).sc = .init ∧ (t.cell c.toNat).m = .init ∧
      (t.cell c.toNat).eng.pc = 0 ∧ (t.cell c.toNat).eng.beats = 0 ∧ (t.cell c.toNat).eng.cause = 0 ∧
      (t.cell c.toNat).scene.cur = some im ∧ (t.cell c.toNat).scene.entry = e ∧
      (t.cell c.toNat).scene.beatsLeft = seBeats ((s.cell c.toNat).scene.entryWord e) ∧
      (t.cell c.toNat).scene.phase = if seActGate ((s.cell c.toNat).scene.entryWord e) then .gated else .inBeat := by
  obtain ⟨hregs, hmem, hchans, -⟩ := s.loaded_frame
  rw [exec_beatStart_changing hc hr hl hph he]
  have hload := State.sceneLoad_some (s := s.loaded) (c := c.toNat) (entry := e) (im := im) (by rw [s.scene_loaded]; exact h)
  rw [s.scene_loaded, hregs, hmem, hchans] at hload
  generalize s.loaded.sceneLoad c.toNat e = t at hload ⊢
  obtain ⟨htr, htm, htc, hv, hsc, hm, hpc, hbeats, hcause, hcur, hentry, hleft, hdone, hphase⟩ := hload
  by_cases hg : seActGate ((s.cell c.toNat).scene.entryWord e) = true
  · rw [if_pos hg] at hphase ⊢
    exact ⟨t, congrArg _ (if_neg (by simp [hphase])), htr, htm, htc, hv, hsc, hm, hpc, hbeats, hcause, hcur, hentry, hleft, hphase⟩
  · rw [if_neg hg] at hphase ⊢
    refine ⟨t.beatStart c.toNat, congrArg _ (if_pos ⟨hphase, by rw [hdone]; rfl⟩), htr, htm, htc, ?_⟩
    rw [State.cell_beatStart]
    exact ⟨hv, hsc, by rw [hm]; rfl, rfl, hbeats, hcause, hcur, hentry, hleft, rfl⟩
end
end

/-- Settles O26: the load grants go, then the branch that the cell's phase chooses. -/
theorem beats : Obligations.Beats := by
  refine fun c s hc hr => ⟨fun hl store => exec_beatStart_loading hc hl store, fun hl hph hdone store =>
      ⟨_, exec_beatStart_ready hc hr hl hph hdone store, fun d hd => (State.cell_modCell_ne _ _ hd).trans (State.cell_modCell_ne _ _ hd), rfl, ?_⟩,
    fun hl hph => ⟨fun im him => exec_beatStart_scene hc hr hl hph rfl him, fun hnone => exec_beatStart_refill hc hr hl hph rfl hnone,
      exec_beatStart_store hc hr hl hph⟩, fun hph hdone => ?_⟩
  · obtain ⟨l, hcell⟩ := s.cell_loaded c.toNat
    obtain ⟨-, -, -, hnow⟩ := s.loaded_frame
    rw [State.cell_beatStart, hnow]
    change _ ∧ _ ∧ _ = (s.loaded.cell c.toNat).grants.load ∧ _
    rw [hcell]
    refine ⟨rfl, rfl, rfl, fun n => ?_⟩
    dsimp only
    rw [SMap.get?_mapVal]
  · change execSceneBarrierArrival c s = _
    rw [execSceneBarrierArrival, onCell_of_valid hc]
    simp only [hr, hph, hdone]
    rfl
end Sys2Proof.Machine
end

section
/-! PROOFS. Stalls and fences (O27, O28). -/

namespace Sys2Proof.Machine
open Sys2Proof.Says

theorem State.cell_of_cells {s t : State} (h : t.cells = s.cells) (a : Nat) : t.cell a = s.cell a := by
  simp only [State.cell, h]

/-! ### Stalls and refills -/

section
variable {c : CellAddr} {s : State} (hc : cellValid c.toNat = true)
include hc

theorem exec_barrierStall_long {obj : Nat} (hw : (s.cell c.toNat).eng.wait = .barrier obj) (hr : s.isIn .running = true)
    (ht : (s.cell c.toNat).eng.waitAt + s.stallNs ≤ s.now) :
    exec (.barrierStall c) s = .next (s.modEng c.toNat fun e => { e with barStall := some (e.barStall.getD s.now) }).watch := by
  change execBarrierStall c s = _
  rw [execBarrierStall]
  dsimp only
  rw [onCell_of_valid hc, hw]
  dsimp only
  rw [when, if_pos (by simp [hr, ht])]

theorem exec_progressStuck_long (hr : s.mayRun c.toNat = true) (hph : (s.cell c.toNat).scene.phase = .inBeat)
    (hw : (s.cell c.toNat).eng.wait = .none) (ht : (s.cell c.toNat).eng.progressAt + s.stallNs ≤ s.now)
    (hother : ∃ p ∈ s.cells, p.1 ≠ c.toNat ∧ p.2.scene.playing = true ∧ p.2.scene.group = (s.cell c.toNat).scene.group ∧
      (s.cell c.toNat).eng.progressAt < p.2.eng.beatAt) : exec (.progressStuck c) s = .next (s.fenceCell c.toNat 0x08) := by
  have hany : (s.cells.any fun p => p.1 != c.toNat && p.2.scene.playing && p.2.scene.group == (s.cell c.toNat).scene.group &&
      (s.cell c.toNat).eng.progressAt < p.2.eng.beatAt) = true := by
    obtain ⟨p, hp, hne, hplay, hgroup, hlt⟩ := hother
    exact List.any_eq_true.2 ⟨p, hp, by simp [hne, hplay, hgroup, hlt]⟩
  change execProgressStuck c s = _
  rw [execProgressStuck]
  dsimp only
  rw [onCell_of_valid hc, when, if_pos]
  simp [hr, hph, hw, ht, hany]

theorem exec_sceneRefillDone_due (hr : s.isIn .recovering = true) (hp : s.get Reg.RECOVERY_STATUS_phase = 6) (hl : s.rcv.loadStep = 2)
    (hf : s.fwBusy = false) (hplay : (s.cell c.toNat).scene.playing = true) (hs : (s.cell c.toNat).scene.store = [])
    (hfen : s.fenced c.toNat = false) (ecc : Bool) :
    exec (.sceneRefillDone c ecc) s = .next (if ecc then s.storeFault c.toNat else s.refillStore c.toNat) := by
  change execSceneRefillDone c ecc s = _
  rw [execSceneRefillDone]
  dsimp only
  rw [onCell_of_valid hc, when, if_pos]
  simp [hr, hp, hl, hf, hplay, hs, hfen]
end

/-- A store filled from the package's images. -/
theorem State.refillStore_images {s : State} {a : Nat} (h : s.reserveOf (s.cell a).scene.logical = none) :
    OnlyCell a s (s.refillStore a) ∧
      (s.refillStore a).cell a =
        { s.cell a with scene := { (s.cell a).scene with store := s.imagesOf (s.cell a).scene.logical } } ∧
      (s.refillStore a).mem = s.mem ∧ (s.refillStore a).regs = s.regs := by
  rw [State.refillStore]
  dsimp only
  rw [h]
  refine ⟨fun d hd => ?_, ?_, State.request_mem _ _ _ _ _, State.request_regs _ _ _ _ _⟩
  · exact (State.cell_modCell_ne _ _ hd).trans (State.cell_of_cells (State.request_cells _ _ _ _ _) d)
  · rw [State.modScene, State.cell_modCell_self, State.cell_of_cells (State.request_cells _ _ _ _ _)]

/-- Settles O27. -/
theorem stalls : Obligations.Stalls := by
  refine fun c s hc => ⟨fun obj hw hr ht => exec_barrierStall_long hc hw hr ht,
    fun hr hph hw ht hother => exec_progressStuck_long hc hr hph hw ht hother, fun hr hp hl hf hplay hs hfen => ?_⟩
  have hex := exec_sceneRefillDone_due hc hr hp hl hf hplay hs hfen
  refine ⟨fun hres => ⟨_, hex false, State.refillStore_images hres⟩, fun r o bs hres => ?_, hex true⟩
  rw [hex false, if_neg Bool.false_ne_true, State.refillStore]
  dsimp only
  rw [hres]
end Sys2Proof.Machine
end

section
/-! PROOFS. Fence conditions and their removal (O28). -/

namespace Sys2Proof.Machine
open Sys2Proof.Says

/-! ### Registers of the region windows -/

theorem bkB_lt (b : Nat) : bkB b < 8 := bits_lt _ _ _

theorem cellEpoch_ne_blkStatus (c b : Nat) : (Reg.CELL_EPOCH_fenced c).off ≠ (Reg.BLK_STATUS_block_fenced b).off := by
  have := bOf_lt c
  have := cOf_lt c
  have := bkB_lt b
  simp only [Reg.CELL_EPOCH_fenced, Reg.BLK_STATUS_block_fenced, winBase]
  obtain h | h | h := Nat.lt_trichotomy (gOf c) (bkG b) <;> omega

theorem blkStatus_ne_regionId (b g : Nat) : (Reg.BLK_STATUS_block_fenced b).off ≠ (Reg.REGION_ID_blocks_fenced g).off := by
  have := bkB_lt b
  simp only [Reg.REGION_ID_blocks_fenced, Reg.BLK_STATUS_block_fenced, winBase]
  omega

theorem cellEpoch_ne_regionId (c g : Nat) : (Reg.CELL_EPOCH_fenced c).off ≠ (Reg.REGION_ID_blocks_fenced g).off := by
  have := bOf_lt c
  have := cOf_lt c
  simp only [Reg.CELL_EPOCH_fenced, Reg.REGION_ID_blocks_fenced, winBase]
  omega

/-- A register of a region window: no register of the panel's own (Table 18.1). -/
def inWindow (o : Nat) : Prop := 0x2000000 ≤ o

theorem inWindow_cellEpoch (c : Nat) : inWindow (Reg.CELL_EPOCH_fenced c).off := by
  simp only [inWindow, Reg.CELL_EPOCH_fenced, winBase]
  omega

theorem inWindow_blkStatus (b : Nat) : inWindow (Reg.BLK_STATUS_block_fenced b).off := by
  simp only [inWindow, Reg.BLK_STATUS_block_fenced, winBase]
  omega

section
variable {s : State} {o : Nat}

theorem State.reg_raise_ne (e : Ev) (h : o ≠ Reg.EVENT_STATUS_events.off) : (s.raise e).reg o = s.reg o := by
  unfold State.raise
  dsimp only
  split
  · rfl
  · split <;> exact State.reg_set_ne _ _ _ h

theorem State.reg_stageCairn (r : Cairn) (h : inWindow o) : (s.stageCairn r).reg o = s.reg o := by
  have hev : o ≠ Reg.EVENT_STATUS_events.off := by simp only [inWindow, Reg.EVENT_STATUS_events] at h ⊢; omega
  have hsv : o ≠ Reg.SERVICE_MODE_cairn_drop_count.off := by simp only [inWindow, Reg.SERVICE_MODE_cairn_drop_count] at h ⊢; omega
  unfold State.stageCairn
  dsimp only
  split
  · rw [State.reg_raise_ne _ hev]
    simp only [State.reg, State.request_regs]
  · exact State.reg_set_ne _ _ _ hsv

theorem State.reg_reserveLoss (c : Nat) (h : inWindow o) : (s.reserveLoss c).reg o = s.reg o := by
  unfold State.reserveLoss
  split
  · split
    · exact State.reg_stageCairn _ h
    · rfl
  · rfl

end

theorem State.reserveLoss_frame (s : State) (c : Nat) : (s.reserveLoss c).cells = s.cells ∧ (s.reserveLoss c).mesh = s.mesh := by
  unfold State.reserveLoss
  split
  · split
    · exact ⟨State.stageCairn_cells _ _, State.stageCairn_mesh _ _⟩
    · exact ⟨rfl, rfl⟩
  · exact ⟨rfl, rfl⟩

/-! ### One cell fenced -/

/-- A cell is fenced, its reserve place lost. -/
def State.fenceOne (s : State) (c cause : Nat) : State := (s.markFenced c cause).reserveLoss c

section
variable {s : State} {c cause : Nat}

theorem State.get_of_reg {s t : State} {g : RF} (h : t.reg g.off = s.reg g.off) : t.get g = s.get g := by
  simp only [State.get, h]

theorem State.fenced_of_off {s : State} {c d : Nat} (h : (Reg.CELL_EPOCH_fenced d).off = (Reg.CELL_EPOCH_fenced c).off) : s.fenced d = s.fenced c := by
  change (bits (s.reg (Reg.CELL_EPOCH_fenced d).off) 56 1 != 0) = (bits (s.reg (Reg.CELL_EPOCH_fenced c).off) 56 1 != 0)
  rw [h]

theorem State.reg_fenceOne_ne {o : Nat} (hw : inWindow o) (h : o ≠ (Reg.CELL_EPOCH_fenced c).off) : (s.fenceOne c cause).reg o = s.reg o := by
  rw [State.fenceOne, State.reg_reserveLoss _ hw, State.markFenced]
  split
  · rfl
  · change ((s.set (Reg.CELL_EPOCH_fenced c) 1).set (Reg.CELL_EPOCH_fence_cause c) cause).reg o = _
    rw [State.reg_set_ne _ (Reg.CELL_EPOCH_fence_cause c) _ h, State.reg_set_ne _ (Reg.CELL_EPOCH_fenced c) _ h]

theorem State.get_fenceOne {g : RF} (hg : g.off = (Reg.CELL_EPOCH_fenced c).off) : (s.fenceOne c cause).get g = (s.markFenced c cause).get g :=
  State.get_of_reg (State.reg_reserveLoss _ (hg ▸ inWindow_cellEpoch c))

theorem State.get_markFenced {g : RF} (h : s.fenced c = false) :
    (s.markFenced c cause).get g = ((s.set (Reg.CELL_EPOCH_fenced c) 1).set (Reg.CELL_EPOCH_fence_cause c) cause).get g := by
  rw [State.markFenced, if_neg (ne_true_of_eq_false h)]
  rfl

theorem State.fenced_fenceOne_self : (s.fenceOne c cause).fenced c = true := by
  rw [State.fenced, State.flag, State.get_fenceOne rfl]
  cases h : s.fenced c with
  | true =>
    rw [State.markFenced, if_pos h]
    exact h
  | false =>
    rw [State.get_markFenced h, State.get_set_disjoint (f := Reg.CELL_EPOCH_fence_cause c) (g := Reg.CELL_EPOCH_fenced c) _ _ rfl (by simp [Reg.CELL_EPOCH_fenced])
      (by simp [Reg.CELL_EPOCH_fenced, Reg.CELL_EPOCH_fence_cause]), State.get_set_self _ _ _ (by simp [Reg.CELL_EPOCH_fenced])]
    rfl

theorem State.fenced_fenceOne {d : Nat} (h : s.fenced d = true) : (s.fenceOne c cause).fenced d = true := by
  by_cases ho : (Reg.CELL_EPOCH_fenced d).off = (Reg.CELL_EPOCH_fenced c).off
  · rw [State.fenced_of_off ho, State.fenced_fenceOne_self]
  · rw [← h, State.fenced, State.fenced, State.flag, State.flag, State.get_of_reg (State.reg_fenceOne_ne (inWindow_cellEpoch d) ho)]

theorem State.cause_fenceOne (h : s.fenced c = false) : (s.fenceOne c cause).get (Reg.CELL_EPOCH_fence_cause c) = cause % 256 := by
  rw [State.get_fenceOne (g := Reg.CELL_EPOCH_fence_cause c) rfl, State.get_markFenced h]
  exact State.get_set_self _ _ _ (by simp [Reg.CELL_EPOCH_fence_cause])

theorem State.fenceOne_frame (s : State) (c cause : Nat) : (s.fenceOne c cause).mem = s.mem ∧ (s.fenceOne c cause).mesh = s.mesh := by
  rw [State.fenceOne, State.reserveLoss_mem, State.markFenced_mem, (State.reserveLoss_frame _ c).2]
  refine ⟨rfl, ?_⟩
  rw [State.markFenced]
  split <;> rfl

/-- The engine of a cell that is fenced stops and loses its registers; no other cell changes. -/
theorem State.cell_fenceOne (h : s.fenced c = false) :
    ((s.fenceOne c cause).cell c).eng.run = 6 ∧ ((s.fenceOne c cause).cell c).v = .init ∧ ((s.fenceOne c cause).cell c).sc = .init ∧
      ((s.fenceOne c cause).cell c).m = .init ∧ OnlyCell c s (s.fenceOne c cause) := by
  have hcell : ∀ d, (s.fenceOne c cause).cell d = (State.stopEngine s c).cell d := fun d => by
    rw [State.fenceOne, State.cell_of_cells (State.reserveLoss_frame _ c).1, State.markFenced, if_neg (ne_true_of_eq_false h)]
    rfl
  simp only [OnlyCell, hcell]
  rw [State.stopEngine, State.cell_modCell_self]
  exact ⟨rfl, rfl, rfl, rfl, fun d hd => State.cell_modCell_ne _ _ hd⟩

end

/-! ### A block fenced -/

/-- The epoch registers of some cells are all different. -/
def OwnEpochs (l : List Nat) : Prop := l.Pairwise fun c d => (Reg.CELL_EPOCH_fenced c).off ≠ (Reg.CELL_EPOCH_fenced d).off

theorem ownEpochs_blockCells (b : Nat) : OwnEpochs (blockCells b) := by
  refine List.pairwise_map.2 (List.pairwise_lt_range.imp_of_mem fun {i j} hi hj hij => ?_)
  have hi := List.mem_range.1 hi
  have hj := List.mem_range.1 hj
  have hg : gOf (b * 32 + i) = gOf (b * 32 + j) := by simp only [gOf, bits, Nat.shiftRight_eq_div_pow]; omega
  have hb : bOf (b * 32 + i) = bOf (b * 32 + j) := by simp only [bOf, bits, Nat.shiftRight_eq_div_pow]; omega
  have hc : cOf (b * 32 + i) = i ∧ cOf (b * 32 + j) = j := by simp only [cOf, bits, Nat.shiftRight_eq_div_pow]; omega
  simp only [Reg.CELL_EPOCH_fenced, hg, hb, hc.1, hc.2]
  omega

theorem mem_blockCells {a : Nat} (h : cellValid a = true) : a ∈ blockCells (a / 32) := by
  simp only [cellValid, Bool.and_eq_true, beq_iff_eq, decide_eq_true_eq, cOf, bits, Nat.shiftRight_eq_div_pow] at h
  exact List.mem_map.2 ⟨a % 32, List.mem_range.2 (by omega), by omega⟩

section
variable {l : List Nat} {cause : Nat}

theorem State.fenced_foldl_fenceOne {s : State} {c : Nat} (h : s.fenced c = true) :
    (l.foldl (fun s c => s.fenceOne c cause) s).fenced c = true :=
  List.foldlRecOn (motive := fun t : State => t.fenced c = true) l _ h fun _ ht _ _ => State.fenced_fenceOne ht

theorem State.fenced_of_mem_foldl_fenceOne (s : State) : ∀ k ∈ l, (l.foldl (fun s c => s.fenceOne c cause) s).fenced k = true := by
  induction l generalizing s with
  | nil => nofun
  | cons c l ih =>
    rw [List.foldl_cons]
    exact List.forall_mem_cons.2 ⟨State.fenced_foldl_fenceOne (s := s.fenceOne c cause) State.fenced_fenceOne_self, ih _⟩

theorem State.reg_foldl_fenceOne {s : State} {o : Nat} (hw : inWindow o) (h : ∀ c ∈ l, o ≠ (Reg.CELL_EPOCH_fenced c).off) :
    (l.foldl (fun s c => s.fenceOne c cause) s).reg o = s.reg o :=
  List.foldlRecOn (motive := fun t : State => t.reg o = s.reg o) l _ rfl fun _ ht c hc => (State.reg_fenceOne_ne hw (h c hc)).trans ht

theorem State.cause_foldl_fenceOne {s : State} {a : Nat} (hl : OwnEpochs l) (ha : a ∈ l) (h : s.fenced a = false) :
    (l.foldl (fun s c => s.fenceOne c cause) s).get (Reg.CELL_EPOCH_fence_cause a) = cause % 256 := by
  induction l generalizing s with
  | nil => cases ha
  | cons c l ih =>
    obtain ⟨hc, hl⟩ := List.pairwise_cons.1 hl
    obtain rfl | ha := List.mem_cons.1 ha
    · rw [List.foldl_cons, State.get_of_reg (g := Reg.CELL_EPOCH_fence_cause a) (State.reg_foldl_fenceOne (inWindow_cellEpoch a) hc),
        State.cause_fenceOne h]
    · refine ih hl ha ?_
      rw [← h, State.fenced, State.fenced, State.flag, State.flag,
        State.get_of_reg (State.reg_fenceOne_ne (inWindow_cellEpoch a) (hc a ha).symm)]

theorem State.foldl_fenceOne_frame (s : State) :
    (l.foldl (fun s c => s.fenceOne c cause) s).mem = s.mem ∧ (l.foldl (fun s c => s.fenceOne c cause) s).mesh = s.mesh :=
  List.foldlRecOn (motive := fun t : State => t.mem = s.mem ∧ t.mesh = s.mesh) l _ ⟨rfl, rfl⟩ fun t ht c _ =>
    ⟨(t.fenceOne_frame c cause).1.trans ht.1, (t.fenceOne_frame c cause).2.trans ht.2⟩

end

/-! ### A fence condition -/

section
variable {s : State} {c cause : Nat} {f g : RF}

/-- A register of a block controller written fences and frees no cell. -/
theorem State.fenced_set_blk (f : RF) {b v : Nat} (h : f.off = (Reg.BLK_STATUS_block_fenced b).off) : (s.set f v).fenced c = s.fenced c := by
  rw [State.fenced, State.fenced, State.flag, State.flag, State.get_set_ne _ _ (h ▸ cellEpoch_ne_blkStatus c b)]

theorem State.get_fenceOne_blk {b : Nat} (h : g.off = (Reg.BLK_STATUS_block_fenced b).off) : (s.fenceOne c cause).get g = s.get g :=
  State.get_of_reg (State.reg_fenceOne_ne (h ▸ inWindow_blkStatus b) (h ▸ (cellEpoch_ne_blkStatus c b).symm))

theorem State.fenced_counted {b : Nat} : (s.inc (Reg.BLK_STATUS_cell_fault_count b)).fenced c = s.fenced c :=
  State.fenced_set_blk (Reg.BLK_STATUS_cell_fault_count b) rfl

/-- The first fence of its block: the controller names the cell. -/
def State.named (s : State) (c : Nat) : State :=
  ((s.inc (Reg.BLK_STATUS_cell_fault_count (c / 32))).set (Reg.BLK_STATUS_cell_fence_valid (c / 32)) 1).set (Reg.BLK_STATUS_fenced_cell (c / 32)) (cOf c)

theorem State.fenced_named : (s.named c).fenced c = s.fenced c := by
  rw [State.named, State.fenced_set_blk (Reg.BLK_STATUS_fenced_cell (c / 32)) rfl, State.fenced_set_blk (Reg.BLK_STATUS_cell_fence_valid (c / 32)) rfl,
    State.fenced_counted]

theorem State.flag_valid_named : (s.named c).flag (Reg.BLK_STATUS_cell_fence_valid (c / 32)) = true := by
  rw [State.flag, State.named, State.get_set_disjoint (f := Reg.BLK_STATUS_fenced_cell (c / 32)) (g := Reg.BLK_STATUS_cell_fence_valid (c / 32)) _ _ rfl
    (by simp [Reg.BLK_STATUS_cell_fence_valid]) (by simp [Reg.BLK_STATUS_cell_fence_valid, Reg.BLK_STATUS_fenced_cell]),
    State.get_set_self _ _ _ (by simp [Reg.BLK_STATUS_cell_fence_valid])]
  rfl

theorem State.fenced_cell_named : (s.named c).get (Reg.BLK_STATUS_fenced_cell (c / 32)) = cOf c := by
  rw [State.named, State.get_set_self _ _ _ (by simp [Reg.BLK_STATUS_fenced_cell])]
  exact Nat.mod_eq_of_lt (cOf_lt c)

/-- The count of faults stands beside the controller's other fields. -/
theorem State.flag_valid_counted : (s.inc (Reg.BLK_STATUS_cell_fault_count (c / 32))).flag (Reg.BLK_STATUS_cell_fence_valid (c / 32)) =
    s.flag (Reg.BLK_STATUS_cell_fence_valid (c / 32)) := by
  rw [State.flag, State.flag, State.inc, State.get_set_disjoint (f := Reg.BLK_STATUS_cell_fault_count (c / 32))
    (g := Reg.BLK_STATUS_cell_fence_valid (c / 32)) _ _ rfl (by simp [Reg.BLK_STATUS_cell_fence_valid])
    (by simp [Reg.BLK_STATUS_cell_fence_valid, Reg.BLK_STATUS_cell_fault_count])]

theorem State.fenceCell_first (hf : s.fenced c = false) (hv : s.flag (Reg.BLK_STATUS_cell_fence_valid (c / 32)) = false) :
    s.fenceCell c cause = ((s.named c).fenceOne c cause).report c cause 0 := by
  rw [State.fenceCell]
  dsimp only
  rw [State.fenced_counted, if_neg (ne_true_of_eq_false hf), State.flag_valid_counted,
    if_neg (ne_true_of_eq_false hv)]
  rfl

/-- The second: the block's fence replaces the cell's. -/
def State.blocked (s : State) (b : Nat) : State :=
  let t := ((s.inc (Reg.BLK_STATUS_cell_fault_count b)).set (Reg.BLK_STATUS_block_fenced b) 1).set (Reg.BLK_STATUS_cell_fence_valid b) 0
  t.set (Reg.REGION_ID_blocks_fenced (bkG b)) (t.get (Reg.REGION_ID_blocks_fenced (bkG b)) ||| 2 ^ bkB b)

theorem State.fenceCell_second (hf : s.fenced c = false) (hv : s.flag (Reg.BLK_STATUS_cell_fence_valid (c / 32)) = true) :
    s.fenceCell c cause = ((blockCells (c / 32)).foldl (fun s k => s.fenceOne k 9) (s.blocked (c / 32))).report c 9 0 := by
  rw [State.fenceCell]
  dsimp only
  rw [State.fenced_counted, if_neg (ne_true_of_eq_false hf), State.flag_valid_counted, if_pos hv]
  rfl

theorem State.fenced_blocked {b : Nat} : (s.blocked b).fenced c = s.fenced c := by
  rw [State.blocked, State.fenced, State.flag, State.get_set_ne _ _ (cellEpoch_ne_regionId c (bkG b)), ← State.flag, ← State.fenced,
    State.fenced_set_blk (Reg.BLK_STATUS_cell_fence_valid b) rfl, State.fenced_set_blk (Reg.BLK_STATUS_block_fenced b) rfl, State.fenced_counted]

theorem State.get_blocked {b : Nat} (h : g.off = (Reg.BLK_STATUS_block_fenced b).off) : (s.blocked b).get g =
    (((s.inc (Reg.BLK_STATUS_cell_fault_count b)).set (Reg.BLK_STATUS_block_fenced b) 1).set (Reg.BLK_STATUS_cell_fence_valid b) 0).get g := by
  rw [State.blocked, State.get_set_ne _ _ (h ▸ blkStatus_ne_regionId b (bkG b))]

theorem State.flags_blocked {b : Nat} : (s.blocked b).flag (Reg.BLK_STATUS_block_fenced b) = true ∧
    (s.blocked b).flag (Reg.BLK_STATUS_cell_fence_valid b) = false := by
  rw [State.flag, State.flag, State.get_blocked (g := Reg.BLK_STATUS_block_fenced b) rfl, State.get_blocked (g := Reg.BLK_STATUS_cell_fence_valid b) rfl, State.get_set_self _ _ _ (by simp [Reg.BLK_STATUS_cell_fence_valid]),
    State.get_set_disjoint (f := Reg.BLK_STATUS_cell_fence_valid b) (g := Reg.BLK_STATUS_block_fenced b) _ _ rfl
      (by simp [Reg.BLK_STATUS_block_fenced]) (by simp [Reg.BLK_STATUS_block_fenced, Reg.BLK_STATUS_cell_fence_valid]),
    State.get_set_self _ _ _ (by simp [Reg.BLK_STATUS_block_fenced])]
  exact ⟨rfl, rfl⟩

/-! ### A fence removed -/

/-- A fence that the block controller holds goes with the cell's. -/
def State.unnamed (s : State) (c : Nat) : State :=
  if s.flag (Reg.BLK_STATUS_cell_fence_valid (c / 32)) ∧ s.get (Reg.BLK_STATUS_fenced_cell (c / 32)) = cOf c then
    (s.set (Reg.BLK_STATUS_cell_fence_valid (c / 32)) 0).set (Reg.BLK_STATUS_fenced_cell (c / 32)) 0 else s

theorem State.get_unnamed (h : g.off = (Reg.CELL_EPOCH_fenced c).off) : (s.unnamed c).get g = s.get g := by
  have hne := h ▸ cellEpoch_ne_blkStatus c (c / 32)
  unfold State.unnamed
  split
  · rw [State.get_set_ne (f := Reg.BLK_STATUS_fenced_cell (c / 32)) _ _ hne, State.get_set_ne (f := Reg.BLK_STATUS_cell_fence_valid (c / 32)) _ _ hne]
  · rfl

/-- The epoch and the count of returns rise beside the other fields of a cell's register. -/
theorem State.get_strikeReturn (h : g.off = (Reg.CELL_EPOCH_fenced c).off) (hlo : 48 ≤ g.lo) (h64 : g.lo + g.w ≤ 64) :
    (s.strikeReturn c).get g = s.get g := by
  rw [State.strikeReturn, State.wrap, State.get_set_disjoint (f := Reg.CELL_EPOCH_return_count c) _ _ h h64
    (.inr (by simp only [Reg.CELL_EPOCH_return_count]; omega)), State.wrap, State.get_set_disjoint (f := Reg.CELL_EPOCH_epoch c) _ _ h h64
    (.inr (by simp only [Reg.CELL_EPOCH_epoch]; omega))]
  rfl

theorem State.unfence_fenced (hf : s.fenced c = true) :
    (s.unfence c).fenced c = false ∧ (s.unfence c).get (Reg.CELL_EPOCH_fence_cause c) = 0 := by
  have hu : ∀ g : RF, g.off = (Reg.CELL_EPOCH_fenced c).off → 48 ≤ g.lo → g.lo + g.w ≤ 64 →
      (s.unfence c).get g = ((s.set (Reg.CELL_EPOCH_fenced c) 0).set (Reg.CELL_EPOCH_fence_cause c) 0).get g := fun g h hlo h64 => by
    rw [State.unfence, if_pos hf]
    dsimp only
    rw [State.get_strikeReturn h hlo h64]
    exact State.get_unnamed h
  rw [State.fenced, State.flag, hu _ rfl (by simp [Reg.CELL_EPOCH_fenced]) (by simp [Reg.CELL_EPOCH_fenced]),
    hu (Reg.CELL_EPOCH_fence_cause c) rfl (by simp [Reg.CELL_EPOCH_fence_cause]) (by simp [Reg.CELL_EPOCH_fence_cause]),
    State.get_set_self _ _ _ (by simp [Reg.CELL_EPOCH_fence_cause]),
    State.get_set_disjoint (f := Reg.CELL_EPOCH_fence_cause c) (g := Reg.CELL_EPOCH_fenced c) _ _ rfl (by simp [Reg.CELL_EPOCH_fenced])
      (by simp [Reg.CELL_EPOCH_fenced, Reg.CELL_EPOCH_fence_cause]), State.get_set_self _ _ _ (by simp [Reg.CELL_EPOCH_fenced])]
  exact ⟨rfl, rfl⟩
end

theorem exec_fenceRemove_firmware {c : CellAddr} {s : State} (hc : cellValid c.toNat = true) (hw : s.firmware = true) (block : Bool) :
    exec (.fenceRemove c block) s = .next (
      if s.flag (Reg.BLK_STATUS_block_fenced (c.toNat / 32)) then (if block then s.unfenceBlock (c.toNat / 32) else s)
      else if block then s else s.unfence c.toNat) := by
  change execFenceRemove c block s = _
  rw [execFenceRemove, onCell_of_valid hc, if_neg (by simp [hw])]

/-- What the first fence of a block leaves. -/
theorem State.fenceCell_first_leaves {s : State} {c cause : Nat} (hf : s.fenced c = false)
    (hv : s.flag (Reg.BLK_STATUS_cell_fence_valid (c / 32)) = false) (hcause : cause < 32) :
    let t := s.fenceCell c cause
    t.fenced c = true ∧ t.get (Reg.CELL_EPOCH_fence_cause c) = cause ∧ t.flag (Reg.BLK_STATUS_cell_fence_valid (c / 32)) = true ∧
      t.get (Reg.BLK_STATUS_fenced_cell (c / 32)) = cOf c ∧ (t.cell c).eng.run = 6 ∧ (t.cell c).v = .init ∧ (t.cell c).sc = .init ∧
      (t.cell c).m = .init ∧ OnlyCell c s t ∧ t.mem = s.mem ∧ t.mesh.reports = s.mesh.reports ++ [⟨c, cause, 0, faultWay 12 (gOf c)⟩] := by
  have hn : (s.named c).fenced c = false := State.fenced_named.trans hf
  rw [State.fenceCell_first hf hv]
  have hfen : ((s.named c).fenceOne c cause).fenced c = true := State.fenced_fenceOne_self
  have hcau : ((s.named c).fenceOne c cause).get (Reg.CELL_EPOCH_fence_cause c) = cause :=
    (State.cause_fenceOne hn).trans (Nat.mod_eq_of_lt (by omega))
  have hval : ((s.named c).fenceOne c cause).flag (Reg.BLK_STATUS_cell_fence_valid (c / 32)) = true := by
    rw [State.flag, State.get_fenceOne_blk (g := Reg.BLK_STATUS_cell_fence_valid (c / 32)) rfl]
    exact State.flag_valid_named
  have hnam : ((s.named c).fenceOne c cause).get (Reg.BLK_STATUS_fenced_cell (c / 32)) = cOf c := by
    rw [State.get_fenceOne_blk (g := Reg.BLK_STATUS_fenced_cell (c / 32)) rfl, State.fenced_cell_named]
  obtain ⟨hrun, hvi, hsc, hm, honly⟩ := State.cell_fenceOne (cause := cause) hn
  obtain ⟨hmem, hmesh⟩ := State.fenceOne_frame (s.named c) c cause
  generalize State.fenceOne (s.named c) c cause = u at *
  exact ⟨hfen, hcau, hval, hnam, hrun, hvi, hsc, hm, honly, hmem, by rw [State.report, hmesh]; rfl⟩

/-- What a second fence in a block leaves. -/
theorem State.fenceCell_second_leaves {s : State} {c cause : Nat} (hc : cellValid c = true) (hf : s.fenced c = false)
    (hv : s.flag (Reg.BLK_STATUS_cell_fence_valid (c / 32)) = true) :
    let t := s.fenceCell c cause
    t.flag (Reg.BLK_STATUS_block_fenced (c / 32)) = true ∧ t.flag (Reg.BLK_STATUS_cell_fence_valid (c / 32)) = false ∧
      (∀ k ∈ blockCells (c / 32), t.fenced k = true) ∧ t.get (Reg.CELL_EPOCH_fence_cause c) = 9 ∧ t.mem = s.mem ∧
      t.mesh.reports = s.mesh.reports ++ [⟨c, 9, 0, faultWay 12 (gOf c)⟩] := by
  rw [State.fenceCell_second hf hv]
  have hall := State.fenced_of_mem_foldl_fenceOne (l := blockCells (c / 32)) (cause := 9) (s.blocked (c / 32))
  have hcau := State.cause_foldl_fenceOne (s := s.blocked (c / 32)) (cause := 9) (ownEpochs_blockCells (c / 32)) (mem_blockCells hc)
    (State.fenced_blocked.trans hf)
  have hblk : ∀ g : RF, g.off = (Reg.BLK_STATUS_block_fenced (c / 32)).off →
      ((blockCells (c / 32)).foldl (fun s k => s.fenceOne k 9) (s.blocked (c / 32))).get g = (s.blocked (c / 32)).get g := fun g h =>
    State.get_of_reg (State.reg_foldl_fenceOne (h ▸ inWindow_blkStatus _) fun k _ => h ▸ (cellEpoch_ne_blkStatus k _).symm)
  have hbf := (congrArg (· != 0) (hblk (Reg.BLK_STATUS_block_fenced (c / 32)) rfl)).trans State.flags_blocked.1
  have hvf := (congrArg (· != 0) (hblk (Reg.BLK_STATUS_cell_fence_valid (c / 32)) rfl)).trans State.flags_blocked.2
  obtain ⟨hmem, hmesh⟩ := State.foldl_fenceOne_frame (l := blockCells (c / 32)) (cause := 9) (s.blocked (c / 32))
  generalize List.foldl _ (s.blocked (c / 32)) _ = u at *
  exact ⟨hbf, hvf, hall, hcau, hmem, by rw [State.report, hmesh]; rfl⟩

/-- Settles O28: the fields of the cell's and the controller's registers are written once, and what follows leaves them. -/
theorem fences : Obligations.Fences := by
  refine ⟨fun c s hc hw => ⟨fun hb => ?_, fun hb hf => ⟨_, ?_, rfl, State.unfence_fenced hf⟩⟩, fun c cause s hc hf hcause =>
    ⟨fun hv => State.fenceCell_first_leaves hf hv hcause, fun hv => State.fenceCell_second_leaves hc hf hv⟩⟩
  · rw [exec_fenceRemove_firmware hc hw, exec_fenceRemove_firmware hc hw, if_pos hb, if_pos hb]
    exact ⟨rfl, rfl⟩
  · rw [exec_fenceRemove_firmware hc hw, if_neg (ne_true_of_eq_false hb), if_neg Bool.false_ne_true]
end Sys2Proof.Machine
end

section
/-! PROOFS. Remote writes (O29). -/

namespace Sys2Proof.Machine
open Sys2Proof.Says

/-! ### Granules written one after the other -/

theorem NSet.mem_add {m : List Nat} {a b : Nat} : b ∈ NSet.add m a ↔ b = a ∨ b ∈ m := by
  induction m with
  | nil => simp [NSet.add]
  | cons k m ih =>
    unfold NSet.add
    split
    · rw [List.mem_cons, ih, List.mem_cons, or_left_comm]
    · split
      · next h => simp [h]
      · exact List.mem_cons

/-- The poison mark of a word after a mark is set or removed. -/
theorem NSet.contains_mark (m : List Nat) (p : Bool) (a b : Nat) :
    (if p then NSet.add m a else NSet.del m a).contains b = if b = a then p else m.contains b := by
  cases p <;> by_cases h : b = a <;> simp [NSet.del, NSet.mem_add, h]

theorem State.poison_writeWord (s : State) (c o : Nat) (g : Gran) (k : Nat) :
    (s.writeWord c o g).mem.spPoison.contains k = if k = spWord c o then g.poison else s.mem.spPoison.contains k :=
  NSet.contains_mark _ _ _ _

/-- `t` is `s` with granules stored at an aligned offset of a cell. -/
structure WordsStored (c o : Nat) (gs : List Gran) (s t : State) : Prop where
  frame : t = { s with mem := t.mem }
  bytes : t.bytes (spAddr c o) (32 * gs.length) = gs.flatMap (·.data)
  kept : ∀ x, x < spAddr c o ∨ spAddr c o + 32 * gs.length ≤ x → t.byte x = s.byte x
  poison : ∀ k, k < gs.length → t.mem.spPoison.contains (spWord c o + k) = (nth gs k ⟨[], false⟩).poison
  clean : ∀ k, k < spWord c o → t.mem.spPoison.contains k = s.mem.spPoison.contains k

theorem wordsStored_writeWords (c : Nat) (gs : List Gran) {o : Nat} (s : State) (ho : o % 32 = 0) (hg : ∀ g ∈ gs, g.data.length = 32) :
    WordsStored c o gs s (s.writeWords c o gs) := by
  induction gs generalizing s o with
  | nil => exact ⟨rfl, rfl, fun _ _ => rfl, nofun, fun _ _ => rfl⟩
  | cons g gs ih =>
    obtain ⟨hlen, hg⟩ := List.forall_mem_cons.1 hg
    obtain ⟨hframe, hbytes, hkept, hpoison, hclean⟩ := ih (o := o + 32) (s.writeWord c o g) (by omega) hg
    obtain ⟨hin, hout⟩ := @State.byte_writeWord s c o g.data g.poison ho hlen
    have hword : spWord c (o + 32) = spWord c o + 1 := by
      simp only [spWord, spAddr]
      omega
    rw [spAddr_add] at hbytes hkept
    rw [hword] at hpoison hclean
    rw [State.writeWords]
    generalize (s.writeWord c o g).writeWords c (o + 32) gs = t at *
    refine ⟨hframe, ?_, fun x hx => ?_, fun k hk => ?_, fun k hk => ?_⟩
    · have hfirst : t.bytes (spAddr c o) 32 = g.data := hlen ▸ State.bytes_eq _ _ _ fun k hk => (hkept _ (.inl (by omega))).trans (hin k hk)
      rw [List.length_cons, Nat.mul_succ, Nat.add_comm, State.bytes_append, hfirst, hbytes, List.flatMap_cons]
    · rw [List.length_cons] at hx
      exact (hkept x (by omega)).trans (hout x (by omega))
    · cases k with
      | zero => exact (hclean _ (by omega)).trans ((State.poison_writeWord _ _ _ _ _).trans (if_pos rfl))
      | succ k =>
        rw [List.length_cons] at hk
        rw [show spWord c o + (k + 1) = spWord c o + 1 + k by omega, hpoison k (by omega)]
        rfl
    · exact (hclean k (by omega)).trans ((State.poison_writeWord _ _ _ _ _).trans (if_neg (by omega)))

theorem State.writeWords_frame (s : State) (c o : Nat) (gs : List Gran) : s.writeWords c o gs = { s with mem := (s.writeWords c o gs).mem } := by
  induction gs generalizing s o with
  | nil => rfl
  | cons g gs ih => exact ih (s.writeWord c o g) (o + 32)

/-! ### A remote write at its cell -/

/-- The state with the first write of a cell's port taken, and its credit owed back. -/
def State.portTaken (s : State) (a : Nat) (w : RemWrite) (ws : List RemWrite) : State :=
  (s.modPort a fun p => { p with writes := ws }).owe (a / 32) false w.owed

section
variable {s : State} {a : Nat} {w : RemWrite} {ws : List RemWrite}

theorem State.portTaken_frame : (s.portTaken a w ws).regs = s.regs ∧ (s.portTaken a w ws).mem = s.mem ∧ (s.portTaken a w ws).host = s.host ∧
    (s.portTaken a w ws).now = s.now ∧ (s.portTaken a w ws).mesh.reports = s.mesh.reports := by
  unfold State.portTaken State.owe
  split <;> exact ⟨rfl, rfl, rfl, rfl, rfl⟩

theorem State.fenced_portTaken : (s.portTaken a w ws).fenced a = s.fenced a := State.fenced_of_regs State.portTaken_frame.1 a

theorem State.striking_portTaken : (s.portTaken a w ws).striking = s.striking := by
  obtain ⟨-, -, hhost, hnow, -⟩ := State.portTaken_frame (s := s) (a := a) (w := w) (ws := ws)
  simp only [State.striking, hhost, hnow]

end

section
variable {c : CellAddr} {w : RemWrite} {ws : List RemWrite} {s : State} (hc : cellValid c.toNat = true)
  (hw : (s.cell c.toNat).port.writes = w :: ws)
include hc hw

theorem exec_remoteWrite_first : exec (.remoteWrite c) s = .next (
    if s.gated c.toNat then s
    else if s.striking ∨ s.fenced c.toNat ∨ (s.cell c.toNat).scene.phase ≠ .changing then
      if s.striking then s.portTaken c.toNat w ws
      else if s.fenced c.toNat then (s.portTaken c.toNat w ws).inc (Reg.BLK_STATUS_fenced_drop_count (c.toNat / 32))
      else (s.portTaken c.toNat w ws).remoteWrite c.toNat w
    else s) := by
  change execRemoteWrite c s = _
  rw [execRemoteWrite, onCell_of_valid hc, hw]
  dsimp only
  rw [← State.portTaken, State.striking_portTaken, State.fenced_portTaken]

theorem exec_remoteWrite_lands (hs : s.striking = false) (hg : s.gated c.toNat = false) (hf : s.fenced c.toNat = false)
    (hp : (s.cell c.toNat).scene.phase ≠ .changing) :
    exec (.remoteWrite c) s = .next ((s.portTaken c.toNat w ws).remoteWrite c.toNat w) := by
  rw [exec_remoteWrite_first hc hw, if_neg (ne_true_of_eq_false hg), if_pos (.inr (.inr hp)), if_neg (ne_true_of_eq_false hs),
    if_neg (ne_true_of_eq_false hf)]
end

theorem State.gated_of_fenced {s : State} {a : Nat} (h : s.fenced a = true) : s.gated a = false := by
  simp [State.gated, h]

theorem grantCounts_ne_blkStatus (c b : Nat) : (Reg.SP_GRANT_COUNTS_refused_count c).off ≠ (Reg.BLK_STATUS_block_fenced b).off := by
  have := bOf_lt c
  have := cOf_lt c
  have := bkB_lt b
  simp only [Reg.SP_GRANT_COUNTS_refused_count, Reg.BLK_STATUS_block_fenced, winBase]
  obtain h | h | h := Nat.lt_trichotomy (gOf c) (bkG b) <;> omega

/-- What a refusal leaves: its count, its writer and its reason, a cell fault and its report. -/
def State.refuse (s : State) (a writer r : Nat) : State :=
  (((s.inc (Reg.SP_GRANT_COUNTS_refused_count a)).set (Reg.SP_GRANT_COUNTS_last_writer a) writer).set
    (Reg.SP_GRANT_COUNTS_last_reason a) r).cellFault a 2

theorem State.get_report (s : State) (c cause kind : Nat) (g : RF) : (s.report c cause kind).get g = s.get g := rfl

theorem State.get_refuse (s : State) (a writer r : Nat) {g : RF} (hg : g.off = (Reg.SP_GRANT_COUNTS_refused_count a).off) :
    (s.refuse a writer r).get g = (((s.inc (Reg.SP_GRANT_COUNTS_refused_count a)).set (Reg.SP_GRANT_COUNTS_last_writer a) writer).set
      (Reg.SP_GRANT_COUNTS_last_reason a) r).get g := by
  rw [State.refuse, State.cellFault, State.get_report, State.inc,
    State.get_set_ne _ (f := Reg.BLK_STATUS_cell_fault_count (a / 32)) _ (hg ▸ grantCounts_ne_blkStatus a (a / 32))]

theorem State.refuse_leaves (s : State) (a writer r : Nat) :
    (s.refuse a writer r).mem = s.mem ∧ (s.refuse a writer r).cells = s.cells ∧
      (s.refuse a writer r).get (Reg.SP_GRANT_COUNTS_last_writer a) = writer % 2 ^ (Reg.SP_GRANT_COUNTS_last_writer a).w ∧
      (s.refuse a writer r).get (Reg.SP_GRANT_COUNTS_last_reason a) = r % 2 ^ (Reg.SP_GRANT_COUNTS_last_reason a).w ∧
      (s.refuse a writer r).mesh.reports = s.mesh.reports ++ [⟨a, 0, 2, faultWay 12 (gOf a)⟩] := by
  rw [State.get_refuse _ _ _ _ (g := Reg.SP_GRANT_COUNTS_last_writer a) rfl, State.get_refuse _ _ _ _ (g := Reg.SP_GRANT_COUNTS_last_reason a) rfl,
    State.get_set_self _ _ _ (by simp [Reg.SP_GRANT_COUNTS_last_reason]),
    State.get_set_disjoint (f := Reg.SP_GRANT_COUNTS_last_reason a) (g := Reg.SP_GRANT_COUNTS_last_writer a) _ _ rfl
      (by simp [Reg.SP_GRANT_COUNTS_last_writer]) (by simp [Reg.SP_GRANT_COUNTS_last_writer, Reg.SP_GRANT_COUNTS_last_reason]),
    State.get_set_self _ _ _ (by simp [Reg.SP_GRANT_COUNTS_last_writer])]
  exact ⟨rfl, rfl, rfl, rfl, rfl⟩

/-- Settles O29: the checks in their order, then what the verdict on the write says. -/
theorem remoteWrites : Obligations.RemoteWrites := by
  refine ⟨fun p s => rfl, fun c w ws d o s hc hw hdec => ⟨fun hg => ?_, fun hg hs => ?_, fun hs hf => ?_, fun hs hf hp => ?_,
    fun hs hg hf hp => ⟨fun hj ho hlen => ?_, fun k v hj hv => ?_, fun r hj => ?_⟩⟩⟩
  · rw [exec_remoteWrite_first hc hw, if_pos hg]
  · rw [exec_remoteWrite_first hc hw, if_neg (ne_true_of_eq_false hg), if_pos (.inl hs), if_pos hs]
    rfl
  · rw [exec_remoteWrite_first hc hw, if_neg (ne_true_of_eq_false (State.gated_of_fenced hf)), if_pos (.inr (.inl hf)),
      if_neg (ne_true_of_eq_false hs), if_pos hf]
    rfl
  · rw [exec_remoteWrite_first hc hw, if_neg (c := s.striking = true ∨ _) (by simp [hs, hf, hp]), ite_self]
  all_goals
    have hex := exec_remoteWrite_lands hc hw hs hg hf hp
    rw [State.remoteWrite, hdec] at hex
    dsimp only at hex
    obtain ⟨hregs, hmem, -, -, hreports⟩ := State.portTaken_frame (s := s) (a := c.toNat) (w := w) (ws := ws)
    rw [← State.portTaken] at hj
    rw [hj] at hex
    dsimp only at hex
  · obtain ⟨hframe, hbytes, hkept, hpoison, -⟩ := wordsStored_writeWords c.toNat w.grans (s.portTaken c.toNat w ws) ho hlen
    refine ⟨_, hex, hbytes, fun x hx => ?_, ?_, ?_, hpoison⟩
    · rw [hkept x hx, State.byte, State.byte, hmem]
    · rw [hframe]
      exact hregs
    · rw [hframe]
      rfl
  · rw [← State.portTaken] at hv
    have hwin : ((s.portTaken c.toNat w ws).writeWords c.toNat o w.grans).win c.toNat k = some v := by
      rw [State.writeWords_frame]
      exact hv
    rw [hwin] at hex
    exact hex
  · obtain ⟨hm, hcells, hwriter, hreason, hrep⟩ := State.refuse_leaves (s.portTaken c.toNat w ws) c.toNat w.writer r
    exact ⟨_, hex, hm.trans hmem, hcells, hwriter, hreason, hrep.trans (by rw [hreports])⟩

end Sys2Proof.Machine
end

section
/-! PROOFS. Space grants (O30). -/

namespace Sys2Proof.Machine
open Sys2Proof.Says

/-- A command at the port of a cell whose clock runs. -/
theorem onPort_of_running {c : CellAddr} {s : State} (hc : cellValid c.toNat = true) (hg : s.gated c.toNat = false) (f : State → State) :
    onPort c s f = .next (f s) := by
  rw [onPort, onCell_of_valid hc, hg]
  rfl

/-- The state with the first item of a cell's inbox taken. -/
def State.inboxTaken (s : State) (a : Nat) (rest : List Item) : State := s.modPort a fun p => { p with inbox := rest }

/-- The answer to a grant request. -/
def State.grantReply (s : State) (a src code : Nat) : State := s.sendItem ⟨9, 0, src, 0, a, 0, 0, code, 0⟩

section
variable {s : State} {a : Nat} {it : Item} {rest : List Item} {types : List Nat}

theorem State.cell_inboxTaken : ∃ p, (s.inboxTaken a rest).cell a = { s.cell a with port := p } := by
  exact ⟨_, State.cell_modCell_self _ _ _⟩

theorem State.win_inboxTaken (n : Nat) : (s.inboxTaken a rest).win a n = s.win a n := by
  obtain ⟨p, hp⟩ := State.cell_inboxTaken (s := s) (a := a) (rest := rest)
  rw [State.win, hp, State.win]

theorem State.phase_inboxTaken : ((s.inboxTaken a rest).cell a).scene.phase = (s.cell a).scene.phase := by
  obtain ⟨p, hp⟩ := State.cell_inboxTaken (s := s) (a := a) (rest := rest)
  rw [hp]

section
variable (hi : (s.cell a).port.inbox = it :: rest) (hty : it.ty = 8) (ht : types.contains (grType it.w1) = true)
include hi hty ht

theorem State.grantItem_striking (hs : s.striking = true) : s.grantItem a types = s.inboxTaken a rest := by
  rw [State.grantItem, hi]
  exact if_pos ⟨hty, ht, hs⟩

/-- A request is served when no strike runs. -/
theorem State.grantItem_served (hs : s.striking = false) {code : Nat} {t : State}
    (hr : (s.inboxTaken a rest).grantRequest a it.src it.w1 = (code, t)) : s.grantItem a types = t.grantReply a it.src code := by
  rw [State.grantItem, hi]
  refine (if_neg (by simp [hs])).trans ((if_pos ⟨hty, ht⟩).trans ?_)
  rw [State.inboxTaken] at hr
  dsimp only
  rw [hr]
  rfl
end

section
variable {src r : Nat} (hp : (s.cell a).scene.phase ≠ .changing)
include hp

theorem State.grantRequest_none (hw : s.win a (grWindow r) = none) : s.grantRequest a src r = (3, s) := by
  rw [State.grantRequest, if_neg hp, hw]

variable {w : Win} (hw : s.win a (grWindow r) = some w) (hcl : grClean r = true)
include hw hcl

theorem State.grantRequest_acquire (ht : grType r = 0) (ha : writerAllowed w.decl src = true) (hk : countOk w.decl (grCount r) = true) :
    s.grantRequest a src r = if w.st = .free then (0, s.setWin a (grWindow r) { w with st := .granted, writer := src, count := grCount r, landed := 0 })
      else (1, s.inc (Reg.SP_GRANT_COUNTS_busy_count a)) := by
  rw [State.grantRequest, if_neg hp, hw]
  dsimp only
  rw [hcl, if_neg (by simp), ht]
  exact if_neg (by simp [ha, hk])

theorem State.grantRequest_unfit (ht : grType r = 0) (h : (writerAllowed w.decl src && countOk w.decl (grCount r)) = false) :
    s.grantRequest a src r = (2, s) := by
  rw [State.grantRequest, if_neg hp, hw]
  dsimp only
  rw [hcl, if_neg (by simp), ht]
  exact if_pos (by rwa [Bool.and_eq_false_iff, ← Bool.not_eq_true', ← Bool.not_eq_true' (countOk _ _), ← Bool.or_eq_true] at h)

theorem State.grantRequest_release (ht : grType r = 1) (ha : writerAllowed w.decl src = true) (hk : countOk w.decl (grCount r) = true)
    (hsrc : w.writer = src) (hst : w.st = .granted) :
    s.grantRequest a src r = (0, (s.setWin a (grWindow r) { w with count := min w.count (grCount r) }).fillCheck a (grWindow r)) := by
  rw [State.grantRequest, if_neg hp, hw]
  dsimp only
  rw [hcl, if_neg (by simp), ht]
  exact if_neg (by simp [ha, hk, hsrc, hst])

theorem State.grantRequest_free (ht : grType r = 2) (hk : grCount r = 0) (hst : w.st = .filled) (hblk : src / 32 = a / 32) (hc : cOf src = 6)
    (hsrc : src < 0xF000) : s.grantRequest a src r = (0, s.setWin a (grWindow r) { w with st := .free }) := by
  rw [State.grantRequest, if_neg hp, hw]
  dsimp only
  rw [hcl, if_neg (by simp), ht]
  exact if_neg (by simp [hk, hst, hblk, hc, hsrc])
end
end

/-- The three commands that serve requests. -/
theorem exec_grant {c : CellAddr} {s : State} (hc : cellValid c.toNat = true) (hg : s.gated c.toNat = false) :
    exec (.grantAcquire c) s = .next (s.grantItem c.toNat [0, 3]) ∧ exec (.grantRelease c) s = .next (s.grantItem c.toNat [1]) ∧
      exec (.grantFree c) s = .next (s.grantItem c.toNat [2]) :=
  ⟨onPort_of_running hc hg _, onPort_of_running hc hg _, onPort_of_running hc hg _⟩

/-- Settles O30: a request is served by its type, its window's state and its fitness. -/
theorem grants : Obligations.Grants := by
  intro c it rest s hc hi hg
  obtain ⟨hacq, hrel, hfree⟩ := exec_grant hc hg
  refine ⟨fun w hty hs hp hw hcl => ?_, fun hty hs hp hw => ?_, fun hty hs => ?_, fun hty => ?_⟩
  · have hp' := fun h => hp (State.phase_inboxTaken (s := s) (rest := rest) ▸ h)
    have hw' := (State.win_inboxTaken (rest := rest) _).trans hw
    refine ⟨fun ht ha hk => ⟨fun hst => ?_, fun hst => ?_⟩, fun ht h => ?_, fun ht ha hk hsrc hst => ?_, fun ht hk hst hblk hco hsrc => ?_⟩
    · rw [hacq, State.grantItem_served hi hty (by simp [ht]) hs ((State.grantRequest_acquire hp' hw' hcl ht ha hk).trans (if_pos hst))]
      rfl
    · rw [hacq, State.grantItem_served hi hty (by simp [ht]) hs ((State.grantRequest_acquire hp' hw' hcl ht ha hk).trans (if_neg hst))]
      rfl
    · rw [hacq, State.grantItem_served hi hty (by simp [ht]) hs (State.grantRequest_unfit hp' hw' hcl ht h)]
      rfl
    · rw [hrel, State.grantItem_served hi hty (by simp [ht]) hs (State.grantRequest_release hp' hw' hcl ht ha hk hsrc hst)]
      rfl
    · rw [hfree, State.grantItem_served hi hty (by simp [ht]) hs (State.grantRequest_free hp' hw' hcl ht hk hst hblk hco hsrc)]
      rfl
  · have hr := State.grantRequest_none (src := it.src) (fun h => hp (State.phase_inboxTaken (s := s) (rest := rest) ▸ h))
      ((State.win_inboxTaken (rest := rest) _).trans hw)
    refine ⟨fun ht => ?_, fun ht => ?_, fun ht => ?_⟩
    · rw [hacq, State.grantItem_served hi hty (by simp [ht]) hs hr]
      rfl
    · rw [hrel, State.grantItem_served hi hty (by simp [ht]) hs hr]
      rfl
    · rw [hfree, State.grantItem_served hi hty (by simp [ht]) hs hr]
      rfl
  · refine ⟨fun ht => ?_, fun ht => ?_, fun ht => ?_⟩
    · rw [hacq, State.grantItem_striking hi hty (by simp [ht]) hs]
      rfl
    · rw [hrel, State.grantItem_striking hi hty (by simp [ht]) hs]
      rfl
    · rw [hfree, State.grantItem_striking hi hty (by simp [ht]) hs]
      rfl
  · change execGrantAnswer c s = _
    rw [execGrantAnswer, onPort_of_running hc hg, hi]
    exact congrArg _ (if_pos hty)

end Sys2Proof.Machine
end

section
/-! PROOFS. The background sweep (O31). -/

namespace Sys2Proof.Machine
open Sys2Proof.Says

/-! ### What counts, records and fences leave of the banks -/

/-- The bytes of memory, the banks' sweep and the house clock are those of `s`. -/
structure KeepsBanks (s t : State) : Prop where
  cells : t.mem.cells = s.mem.cells
  banks : t.banks = s.banks
  now : t.now = s.now

theorem KeepsBanks.trans {s t u : State} (h : KeepsBanks s t) (k : KeepsBanks t u) : KeepsBanks s u :=
  ⟨k.cells.trans h.cells, k.banks.trans h.banks, k.now.trans h.now⟩

theorem KeepsBanks.refl (s : State) : KeepsBanks s s := ⟨rfl, rfl, rfl⟩

section
variable {s t : State} (h : KeepsBanks s t)
include h

theorem KeepsBanks.sets (fs : List (RF × Nat)) : KeepsBanks s (t.sets fs) :=
  h.trans (by rw [State.sets_eq]; exact ⟨rfl, rfl, rfl⟩)

theorem KeepsBanks.stageCairn (r : Cairn) : KeepsBanks s (t.stageCairn r) :=
  h.trans ⟨by rw [State.stageCairn_mem], State.stageCairn_banks _ _, State.stageCairn_now _ _⟩

theorem KeepsBanks.ite {p : Prop} [Decidable p] {u : State} (k : KeepsBanks s u) : KeepsBanks s (if p then t else u) := by
  split
  · exact h
  · exact k

theorem KeepsBanks.set (f : RF) (v : Nat) : KeepsBanks s (t.set f v) := ⟨h.cells, h.banks, h.now⟩

theorem KeepsBanks.inc (f : RF) (k : Nat := 1) : KeepsBanks s (t.inc f k) := h.set _ _

theorem KeepsBanks.report (c cause kind : Nat) : KeepsBanks s (t.report c cause kind) := ⟨h.cells, h.banks, h.now⟩

theorem KeepsBanks.markFenced (c cause : Nat) : KeepsBanks s (t.markFenced c cause) :=
  .ite h ⟨h.cells, h.banks, h.now⟩

theorem KeepsBanks.reserveLoss (c : Nat) : KeepsBanks s (t.reserveLoss c) := by
  unfold State.reserveLoss
  split
  · next p _ =>
    have hp : KeepsBanks s { t with pkg := some { p with reserve := NSet.del p.reserve c } } := ⟨h.cells, h.banks, h.now⟩
    exact .ite (hp.stageCairn _) h
  · exact h

theorem KeepsBanks.foldl {α : Type} {f : State → α → State} (hf : ∀ t a, KeepsBanks s t → KeepsBanks s (f t a)) (l : List α) :
    KeepsBanks s (l.foldl f t) :=
  List.foldlRecOn (motive := fun t : State => KeepsBanks s t) l f h fun t ht a _ => hf t a ht

theorem KeepsBanks.fenceBlock (b cause : Nat) : KeepsBanks s (t.fenceBlock b cause) := by
  unfold State.fenceBlock
  exact .foldl (((h.set _ _).set _ _).set _ _) (fun _ _ ht => (ht.markFenced _ _).reserveLoss _) (blockCells b)

theorem KeepsBanks.fenceCell (c cause : Nat) : KeepsBanks s (t.fenceCell c cause) := by
  unfold State.fenceCell
  exact .ite ((h.inc _).report _ _ _) (.ite (((h.inc _).fenceBlock _ _).report _ _ _)
    ((((((h.inc _).set _ _).set _ _).markFenced _ _).reserveLoss _).report _ _ _))

theorem KeepsBanks.fenceAbove (c cause : Nat) : KeepsBanks s (t.fenceAbove c cause) := by
  unfold State.fenceAbove
  exact .ite h (.ite (h.fenceBlock _ _) ((h.markFenced _ _).reserveLoss _))

theorem KeepsBanks.fieldRepairs (c k : Nat) (rs : List Repair) : KeepsBanks s (t.fieldRepairs c k rs) := by
  unfold State.fieldRepairs
  refine .foldl h (fun t r ht => ?_) rs
  exact .ite ht ⟨ht.cells, ht.banks, ht.now⟩
end

theorem keepsBanks_eccLast (s : State) (f : RF) (c o m : Nat) (e : EccEvent) : KeepsBanks s ((s.inc f).eccLast c o m e) :=
  .sets (.inc ⟨rfl, rfl, rfl⟩ _) _

theorem keepsBanks_correctedRead (s : State) (c o m : Nat) (e : EccEvent) : KeepsBanks s (s.correctedRead c o m e) := by
  obtain ⟨hc, hb, hn⟩ := keepsBanks_eccLast s (Reg.SP_ECC_COUNTS_corrected_count c (o / 0x100000)) c o m e
  unfold State.correctedRead
  dsimp only
  exact ⟨hc, hb, hn⟩

/-- A read of a word leaves the banks, whatever its code finds. -/
theorem keepsBanks_readWord (s : State) (c o m : Nat) (ecc : List EccEvent) : KeepsBanks s (s.readWord c o m ecc).2 := by
  have hstored : KeepsBanks s (if s.mem.spPoison.contains (spWord c o) then s.inc (Reg.SP_ECC_COUNTS_poison_read_count c (o / 0x100000)) else s) :=
    .ite (.inc ⟨rfl, rfl, rfl⟩ _) ⟨rfl, rfl, rfl⟩
  unfold State.readWord
  dsimp only
  split
  · split
    · exact ((keepsBanks_eccLast s _ _ _ _ _).stageCairn _).fenceCell _ _
    · split
      · exact .inc ⟨rfl, rfl, rfl⟩ _
      · exact keepsBanks_correctedRead s _ _ _ _
  · exact hstored

theorem keepsBanks_copyStrip (s : State) (c k strip : Nat) (bad : List EccEvent) : KeepsBanks s (s.copyStrip c k strip bad) := by
  refine .foldl ⟨rfl, rfl, rfl⟩ (fun t i ht => ?_) (List.range 128)
  obtain ⟨-, hb, hn⟩ := keepsBanks_readWord t c (k * 0x100000 + strip * 4096 + 32 * i) 3 bad
  exact ht.trans ⟨rfl, hb, hn⟩

/-! ### March runs -/

/-- The repairs that a failing run leads to, and whether the spares last. -/
def State.marchSpares (s : State) (c k strip : Nat) (shadow : Bool) (fs : List MarchFail) : List Repair × Bool :=
  assignSpares (s.bank c k).repairs (repairTargets (if shadow then 0 else strip) fs)

/-- The state with a failing run recorded and its repairs in force. -/
def State.marched (s : State) (c k strip : Nat) (shadow : Bool) (f : MarchFail) (fs : List MarchFail) : State :=
  ((s.sweepFail c k strip shadow f).modBank c k fun b => { b with repairs := (s.marchSpares c k strip shadow (f :: fs)).1 }).fieldRepairs c k
    ((s.marchSpares c k strip shadow (f :: fs)).1.drop (s.bank c k).repairs.length)

/-- Whether the run after a repair passes. -/
def nextPasses : List (List MarchFail) → Bool
  | [] => true
  | [] :: _ => true
  | _ => false

section
variable {s : State} {c k strip : Nat} {shadow : Bool} {f : MarchFail} {fs : List MarchFail}

theorem keepsBanks_sweepFail : KeepsBanks s (s.sweepFail c k strip shadow f) := by
  unfold State.sweepFail
  exact ((KeepsBanks.refl s).sets _).inc _

theorem State.bank_of_banks {s t : State} (h : t.banks = s.banks) (c k : Nat) : t.bank c k = s.bank c k := by
  simp only [State.bank, h]

theorem State.bank_sweepFail : (s.sweepFail c k strip shadow f).bank c k = s.bank c k :=
  State.bank_of_banks (keepsBanks_sweepFail (s := s) (f := f) (c := c) (k := k) (strip := strip) (shadow := shadow)).banks c k

theorem State.marchRuns_repaired (more : List (List MarchFail)) (h : (s.marchSpares c k strip shadow (f :: fs)).2 = true) :
    ∃ r, s.marchRuns c k strip shadow ((f :: fs) :: more) =
      ((((s.marched c k strip shadow f fs).set (Reg.SP_SWEEP_FAIL_repaired (gOf c)) (b2n (nextPasses more))).stageCairn r).marchRuns c k strip
        shadow more) := by
  generalize hm : s.marchRuns c k strip shadow ((f :: fs) :: more) = m
  unfold State.marchRuns at hm
  dsimp only at hm
  rw [State.bank_sweepFail, ← State.marchSpares, if_pos h] at hm
  exact ⟨_, hm.symm⟩

theorem State.marchRuns_spent (more : List (List MarchFail)) (h : (s.marchSpares c k strip shadow (f :: fs)).2 = false) :
    ∃ r cause, s.marchRuns c k strip shadow ((f :: fs) :: more) =
      (((((s.marched c k strip shadow f fs).set (Reg.SP_SWEEP_FAIL_unrepairable (gOf c)) 1).stageCairn r).inc
        (Reg.BLK_STATUS_cell_fault_count (c / 32))).fenceAbove c 0x05).report c cause 0 := by
  generalize hm : s.marchRuns c k strip shadow ((f :: fs) :: more) = m
  unfold State.marchRuns at hm
  dsimp only at hm
  rw [State.bank_sweepFail, ← State.marchSpares, if_neg (ne_true_of_eq_false h)] at hm
  exact ⟨_, _, hm.symm⟩

theorem State.marched_frame : (s.marched c k strip shadow f fs).mem.cells = s.mem.cells ∧
    ((s.marched c k strip shadow f fs).bank c k).repairs = (s.marchSpares c k strip shadow (f :: fs)).1 ∧
    ((s.marched c k strip shadow f fs).bank c k).strip = (s.bank c k).strip := by
  have hk := KeepsBanks.fieldRepairs (t := (s.sweepFail c k strip shadow f).modBank c k fun b =>
    { b with repairs := (s.marchSpares c k strip shadow (f :: fs)).1 }) (KeepsBanks.refl _) c k
      ((s.marchSpares c k strip shadow (f :: fs)).1.drop (s.bank c k).repairs.length)
  rw [State.marched, hk.cells, State.bank_of_banks hk.banks, State.bank_modBank_self, State.modBank_mem, State.bank_sweepFail]
  exact ⟨(keepsBanks_sweepFail (s := s) (f := f) (c := c) (k := k) (strip := strip) (shadow := shadow)).cells, rfl, rfl⟩

end

/-- A run that passes ends the runs. -/
theorem State.marchRuns_pass (s : State) (c k strip : Nat) (shadow : Bool) : s.marchRuns c k strip shadow [[]] = s := by
  unfold State.marchRuns
  rfl

/-- March runs change no byte of memory. -/
theorem State.marchRuns_cells {c k strip : Nat} {shadow : Bool} (runs : List (List MarchFail)) (s : State) :
    (s.marchRuns c k strip shadow runs).mem.cells = s.mem.cells := by
  induction runs generalizing s with
  | nil => rfl
  | cons run more ih =>
    cases run with
    | nil => rfl
    | cons f fs =>
      cases h : (s.marchSpares c k strip shadow (f :: fs)).2 with
      | true =>
        obtain ⟨r, hr⟩ := State.marchRuns_repaired more h
        rw [hr, ih, State.stageCairn_mem]
        exact State.marched_frame.1
      | false =>
        obtain ⟨r, cause, hr⟩ := State.marchRuns_spent more h
        rw [hr]
        refine (((((((KeepsBanks.refl (s.marched c k strip shadow f fs)).set _ _).stageCairn _).inc _).fenceAbove _ _).report _ _ _).cells).trans ?_
        exact State.marched_frame.1

/-! ### A fence set from above -/

/-- A register of a region window that no fence writes. -/
structure BesideFences (o : Nat) : Prop where
  window : inWindow o
  cell : ∀ c, o ≠ (Reg.CELL_EPOCH_fenced c).off
  block : ∀ b, o ≠ (Reg.BLK_STATUS_block_fenced b).off
  region : ∀ g, o ≠ (Reg.REGION_ID_blocks_fenced g).off

theorem besideFences_sweepFail (g : Nat) : BesideFences (Reg.SP_SWEEP_FAIL_valid g).off := by
  refine ⟨?_, fun c => ?_, fun b => ?_, fun r => ?_⟩
  · simp only [inWindow, Reg.SP_SWEEP_FAIL_valid, winBase]
    omega
  · have := bOf_lt c
    have := cOf_lt c
    simp only [Reg.SP_SWEEP_FAIL_valid, Reg.CELL_EPOCH_fenced, winBase]
    obtain h | h | h := Nat.lt_trichotomy g (gOf c) <;> omega
  · have := bkB_lt b
    simp only [Reg.SP_SWEEP_FAIL_valid, Reg.BLK_STATUS_block_fenced, winBase]
    obtain h | h | h := Nat.lt_trichotomy g (bkG b) <;> omega
  · simp only [Reg.SP_SWEEP_FAIL_valid, Reg.REGION_ID_blocks_fenced, winBase]
    omega

/-- A block's fence before its cells'. -/
def State.blockMarked (s : State) (b : Nat) : State :=
  let s := (s.set (Reg.BLK_STATUS_block_fenced b) 1).set (Reg.BLK_STATUS_cell_fence_valid b) 0
  s.set (Reg.REGION_ID_blocks_fenced (bkG b)) (s.get (Reg.REGION_ID_blocks_fenced (bkG b)) ||| 2 ^ bkB b)

theorem State.fenceBlock_eq (s : State) (b cause : Nat) :
    s.fenceBlock b cause = (blockCells b).foldl (fun s k => s.fenceOne k cause) (s.blockMarked b) := rfl

theorem State.reg_fenceAbove {s : State} {c cause o : Nat} (h : BesideFences o) : (s.fenceAbove c cause).reg o = s.reg o := by
  unfold State.fenceAbove
  split
  · rfl
  · split
    · rw [State.fenceBlock_eq, State.reg_foldl_fenceOne h.window fun k _ => h.cell k, State.blockMarked]
      rw [State.reg_set_ne _ _ _ (h.region _), State.reg_set_ne _ (Reg.BLK_STATUS_cell_fence_valid (c / 32)) _ (h.block _),
        State.reg_set_ne _ _ _ (h.block _)]
    · exact State.reg_fenceOne_ne h.window (h.cell c)

theorem State.fenced_fenceAbove {s : State} {c cause : Nat} (hc : cellValid c = true) : (s.fenceAbove c cause).fenced c = true := by
  unfold State.fenceAbove
  split
  · next h => exact h
  · split
    · rw [State.fenceBlock_eq]
      exact State.fenced_of_mem_foldl_fenceOne _ c (mem_blockCells hc)
    · exact State.fenced_fenceOne_self

/-! ### SWEEP_STRIP -/

theorem State.get_modBank (s : State) (c k : Nat) (f : BankSt → BankSt) (g : RF) : (s.modBank c k f).get g = s.get g := rfl

section
variable {c : CellAddr} {k : Nat} {s : State} (hc : cellValid c.toNat = true) (hk : k < bankCount c.toNat)
  (hst : s.isIn .ready = true ∨ s.isIn .running = true) (hen : s.flag (Reg.SP_SWEEP_CTRL_enable (gOf c.toNat)) = true)
  (hf : s.fenced c.toNat = false) (ht : s.get (Reg.REGION_THERMAL_tstate (gOf c.toNat)) < 2)
  (hdue : (s.bank c.toNat k).strip = 256 ∨ (s.bank c.toNat k).atT + s.sweepPeriod (gOf c.toNat) * 1000000000 / 256 ≤ s.now)
include hc hk hst hen hf ht hdue

theorem exec_sweepStrip_due (runs : List (List MarchFail)) (bad : List EccEvent) :
    exec (.sweepStrip c k runs bad) s = .next (s.sweepStrip c.toNat k runs bad) := by
  change execSweepStrip c k runs bad s = _
  have hu : decide (cellValid c.toNat = true ∧ k < bankCount c.toNat) = true := by simp [hc, hk]
  have hgo : ((s.isIn .ready || s.isIn .running) && s.flag (Reg.SP_SWEEP_CTRL_enable (gOf c.toNat)) && !s.fenced c.toNat
      && decide (s.get (Reg.REGION_THERMAL_tstate (gOf c.toNat)) < 2) && ((s.bank c.toNat k).strip == 256 ||
        decide ((s.bank c.toNat k).atT + s.sweepPeriod (gOf c.toNat) * 1000000000 / 256 ≤ s.now))) = true := by
    simp only [Bool.and_eq_true, Bool.or_eq_true, hst, hen, hf, ht, hdue, decide_eq_true_eq, beq_iff_eq, Bool.not_false, and_self]
  rw [execSweepStrip]
  dsimp only
  rw [hu, onUnit_true, when, if_pos hgo]
end

section
variable {s : State} {a k : Nat}

/-- A strip within the bank: its copy, its March runs, and the next strip to come. -/
theorem State.sweepStrip_strip (h : (s.bank a k).strip < 256) (runs : List (List MarchFail)) (bad : List EccEvent) :
    s.sweepStrip a k runs bad = ((s.copyStrip a k (s.bank a k).strip bad).marchRuns a k (s.bank a k).strip false runs).modBank a k
      fun x => { x with strip := (s.bank a k).strip + 1, atT := s.now } := by
  unfold State.sweepStrip
  dsimp only
  rw [if_pos h, (keepsBanks_copyStrip s a k (s.bank a k).strip bad).now]

theorem State.sweepStrip_shadow (h : (s.bank a k).strip = 256) (runs : List (List MarchFail)) (bad : List EccEvent) :
    (s.sweepStrip a k runs bad).mem = (s.marchRuns a k 0 true runs).mem ∧
      (s.sweepStrip a k runs bad).cells = (s.marchRuns a k 0 true runs).cells ∧
      (s.sweepStrip a k runs bad).bank a k =
        { (s.marchRuns a k 0 true runs).bank a k with strip := 0, passes := (s.bank a k).passes + 1 } := by
  obtain ⟨R, hR⟩ : ∃ R, s.sweepStrip a k runs bad = { (s.marchRuns a k 0 true runs).modBank a k
      fun x => { x with strip := 0, passes := (s.bank a k).passes + 1 } with regs := R } := by
    unfold State.sweepStrip
    dsimp only
    rw [if_neg (by omega), when]
    split <;> exact ⟨_, rfl⟩
  rw [hR]
  exact ⟨rfl, rfl, State.bank_modBank_self (s.marchRuns a k 0 true runs) a k fun x => { x with strip := 0, passes := (s.bank a k).passes + 1 }⟩

/-- A failing run with spares left: the repairs are in force and the field says so. -/
theorem State.sweepStrip_repaired (h : (s.bank a k).strip < 256) (f : MarchFail) (fs : List MarchFail)
    (hr : (assignSpares (s.bank a k).repairs (repairTargets (s.bank a k).strip (f :: fs))).2 = true) :
    let t := s.sweepStrip a k [f :: fs, []] []
    (t.bank a k).repairs = (assignSpares (s.bank a k).repairs (repairTargets (s.bank a k).strip (f :: fs))).1 ∧
      (t.bank a k).strip = (s.bank a k).strip + 1 ∧ t.flag (Reg.SP_SWEEP_FAIL_repaired (gOf a)) = true := by
  rw [State.sweepStrip_strip h]
  have hu := keepsBanks_copyStrip s a k (s.bank a k).strip []
  generalize s.copyStrip a k (s.bank a k).strip [] = u at hu
  have hspares : u.marchSpares a k (s.bank a k).strip false (f :: fs) =
      assignSpares (s.bank a k).repairs (repairTargets (s.bank a k).strip (f :: fs)) := by
    rw [State.marchSpares, State.bank_of_banks hu.banks, if_neg Bool.false_ne_true]
  obtain ⟨r, hm⟩ := State.marchRuns_repaired (s := u) [[]] (hspares ▸ hr)
  obtain ⟨-, hrep, -⟩ := State.marched_frame (s := u) (c := a) (k := k) (strip := (s.bank a k).strip) (shadow := false) (f := f) (fs := fs)
  rw [hm, State.marchRuns_pass]
  refine ⟨?_, by rw [State.bank_modBank_self], ?_⟩
  · rw [State.bank_modBank_self]
    dsimp only
    rw [State.bank_of_banks (State.stageCairn_banks _ r), ← hspares, ← hrep]
    rfl
  · rw [State.flag, State.get_modBank, State.get_of_reg (g := Reg.SP_SWEEP_FAIL_repaired (gOf a))
      (State.reg_stageCairn r (besideFences_sweepFail (gOf a)).window), State.get_set_self _ _ _ (by simp [Reg.SP_SWEEP_FAIL_repaired])]
    rfl

/-- A failing run with no spare left: the cell is fenced and the field says why. -/
theorem State.sweepStrip_spent (hc : cellValid a = true) (h : (s.bank a k).strip < 256) (f : MarchFail) (fs : List MarchFail)
    (hr : (assignSpares (s.bank a k).repairs (repairTargets (s.bank a k).strip (f :: fs))).2 = false) :
    let t := s.sweepStrip a k [f :: fs] []
    t.fenced a = true ∧ t.flag (Reg.SP_SWEEP_FAIL_unrepairable (gOf a)) = true := by
  rw [State.sweepStrip_strip h]
  have hu := keepsBanks_copyStrip s a k (s.bank a k).strip []
  generalize s.copyStrip a k (s.bank a k).strip [] = u at hu
  have hspares : u.marchSpares a k (s.bank a k).strip false (f :: fs) =
      assignSpares (s.bank a k).repairs (repairTargets (s.bank a k).strip (f :: fs)) := by
    rw [State.marchSpares, State.bank_of_banks hu.banks, if_neg Bool.false_ne_true]
  obtain ⟨r, cause, hm⟩ := State.marchRuns_spent (s := u) [] (hspares ▸ hr)
  rw [hm]
  refine ⟨State.fenced_fenceAbove hc, ?_⟩
  rw [State.flag, State.get_modBank, State.get_report, State.get_of_reg (g := Reg.SP_SWEEP_FAIL_unrepairable (gOf a))
    (State.reg_fenceAbove (besideFences_sweepFail (gOf a))), State.inc,
    State.get_set_ne (g := Reg.SP_SWEEP_FAIL_unrepairable (gOf a)) (f := Reg.BLK_STATUS_cell_fault_count (a / 32)) _ _ ((besideFences_sweepFail (gOf a)).block (a / 32)), State.get_of_reg (g := Reg.SP_SWEEP_FAIL_unrepairable (gOf a))
      (State.reg_stageCairn r (besideFences_sweepFail (gOf a)).window), State.get_set_self _ _ _ (by simp [Reg.SP_SWEEP_FAIL_unrepairable])]
  rfl

end

/-- Settles O31: the copy and the March runs of a strip leave the bytes, the bank's place moves on. -/
theorem sweep : Obligations.Sweep := by
  intro c k s hc hk a g b hst hen hf ht
  refine ⟨fun hb hdue => ?_, fun hb => ?_⟩
  · have hex := exec_sweepStrip_due hc hk hst hen hf ht (.inr hdue)
    have hcells : ∀ runs bad, (s.sweepStrip a k runs bad).mem.cells = s.mem.cells := fun runs bad => by
      rw [State.sweepStrip_strip hb, State.modBank_mem, State.marchRuns_cells, (keepsBanks_copyStrip s a k _ bad).cells]
    refine ⟨fun bad => ?_, fun runs bad => ⟨_, hex runs bad, hcells _ _, ?_⟩, fun f fs hr => ⟨_, hex _ _, hcells _ _, State.sweepStrip_repaired hb f fs hr⟩,
      fun f fs hr => ⟨_, hex _ _, hcells _ _, State.sweepStrip_spent hc hb f fs hr⟩⟩
    · rw [hex, State.sweepStrip_strip hb, State.marchRuns_pass]
    · rw [State.sweepStrip_strip hb, State.bank_modBank_self]
      exact ⟨rfl, rfl⟩
  · have hex := exec_sweepStrip_due hc hk hst hen hf ht (.inl hb)
    refine ⟨fun bad => ⟨_, hex _ _, ?_⟩, fun runs bad => ⟨_, hex _ _, ?_⟩⟩
    · have hs := State.sweepStrip_shadow hb [[]] bad
      rw [State.marchRuns_pass] at hs
      exact ⟨hs.1, hs.2.2, hs.2.1⟩
    · obtain ⟨hmem, -, hbank⟩ := State.sweepStrip_shadow hb runs bad
      rw [hmem, hbank]
      exact ⟨State.marchRuns_cells runs s, rfl, rfl⟩

end Sys2Proof.Machine
end

section
/-! PROOFS. Slots, rigging rewrites and detours (O32). -/

namespace Sys2Proof.Machine
open Sys2Proof.Says

/-! ### What an output carries in a slot -/

section
variable {b out slot : Nat} {s : State} (hb : blkValid b = true) (ho : out ≤ 10) (hs : slot < slotCount b out)
include hb ho hs

theorem exec_circuitSlot (pick : Nat) : exec (.circuitSlot b out slot pick) s = .next (when (s.slotRuns b) (fun s => s.slotCarry b out slot pick) s) := by
  change execCircuitSlot b out slot pick s = _
  have hu : decide (blkValid b = true ∧ out ≤ 10 ∧ slot < slotCount b out) = true := decide_eq_true ⟨hb, ho, hs⟩
  rw [execCircuitSlot, hu, onUnit_true]
end

section
variable {b out slot pick : Nat} {s : State}

theorem State.slotCarry_circuit {key : Nat} {f : Flit} (h : s.slotFlit b out slot = some (key, f)) :
    s.slotCarry b out slot pick = s.slotMove b out key f := by
  unfold State.slotCarry
  rw [h]

/-- Without a circuit's flit: a virtual-channel-3 flit goes before packets where none has gone for long. -/
theorem State.slotCarry_vc3 (h : s.slotFlit b out slot = none) {p : Nat} (hp : (if s.vc3Room b out then (s.xr b).vc3Pick b out else none) = some p)
    (hl : SMap.getD (s.xr b).lastVc3 out 0 = 0 ∨ SMap.getD (s.xr b).lastVc3 out 0 + 511 ≤ s.now) :
    s.slotCarry b out slot pick = s.vc3Move b out p := by
  have hl' : (SMap.getD (s.xr b).lastVc3 out 0 == 0 || decide (SMap.getD (s.xr b).lastVc3 out 0 + 511 ≤ s.now)) = true := by simpa using hl
  unfold State.slotCarry
  rw [h]
  dsimp only
  rw [hp, hl']

/-- Otherwise packets go first. -/
theorem State.slotCarry_pkt (h : s.slotFlit b out slot = none) {p : Nat} (hk : s.pktNext b out pick = some p)
    (hl : (if s.vc3Room b out then (s.xr b).vc3Pick b out else none) = none ∨
      SMap.getD (s.xr b).lastVc3 out 0 ≠ 0 ∧ s.now < SMap.getD (s.xr b).lastVc3 out 0 + 511) :
    s.slotCarry b out slot pick = s.pktMove b out p := by
  unfold State.slotCarry
  rw [h]
  dsimp only
  obtain hv | ⟨hne, hlt⟩ := hl
  · rw [hv, hk]
  · have hl' : (SMap.getD (s.xr b).lastVc3 out 0 == 0 || decide (SMap.getD (s.xr b).lastVc3 out 0 + 511 ≤ s.now)) = false := by
      simp [hne, hlt]
    rw [hl', hk]
    cases if s.vc3Room b out then (s.xr b).vc3Pick b out else none <;> rfl

/-- With no packet, any virtual-channel-3 flit goes. -/
theorem State.slotCarry_last (h : s.slotFlit b out slot = none) {p : Nat} (hk : s.pktNext b out pick = none)
    (hp : (if s.vc3Room b out then (s.xr b).vc3Pick b out else none) = some p) :
    s.slotCarry b out slot pick = s.vc3Move b out p := by
  unfold State.slotCarry
  rw [h]
  dsimp only
  rw [hp, hk]
  cases SMap.getD (s.xr b).lastVc3 out 0 == 0 || decide (SMap.getD (s.xr b).lastVc3 out 0 + 511 ≤ s.now) <;> rfl

theorem State.slotCarry_idle (h : s.slotFlit b out slot = none) (hk : s.pktNext b out pick = none)
    (hp : (if s.vc3Room b out then (s.xr b).vc3Pick b out else none) = none) :
    s.slotCarry b out slot pick = s := by
  unfold State.slotCarry
  rw [h]
  dsimp only
  rw [hp, hk]
end

/-! ### Rigging changes -/

/-- Rewrites wait at their crossings. -/
theorem State.xr_rewrites (edits : List RigEdit) (s : State) :
    let t := edits.foldl (fun s e => if blkValid e.blk then s.modXr e.blk fun x => { x with rewrites := x.rewrites ++ [e] } else s) s
    t = { s with mesh := t.mesh } ∧
      ∀ b, blkValid b = true → t.xr b = { s.xr b with rewrites := (s.xr b).rewrites ++ edits.filter fun e => e.blk == b } := by
  induction edits generalizing s with
  | nil => exact ⟨rfl, fun b _ => by simp⟩
  | cons e es ih =>
    obtain ⟨hframe, hxr⟩ := ih (if blkValid e.blk then s.modXr e.blk fun x => { x with rewrites := x.rewrites ++ [e] } else s)
    rw [List.foldl_cons]
    generalize List.foldl _ _ es = t at *
    refine ⟨?_, fun b hb => ?_⟩
    · refine hframe.trans ?_
      split <;> rfl
    · rw [hxr b hb]
      by_cases he : e.blk = b
      · rw [he, if_pos hb, State.xr_modXr_self, List.filter_cons_of_pos (by simp [he])]
        simp
      · rw [List.filter_cons_of_neg (by simpa using he)]
        split
        · rw [State.xr_modXr_ne _ _ (Ne.symm he)]
        · rfl

/-- A counter takes its saturated sum. -/
theorem State.get_inc_self (s : State) (f : RF) (k : Nat) (h : f.lo + f.w ≤ 64) : (s.inc f k).get f = satAdd f.w (s.get f) k := by
  rw [State.inc, State.get_set_self s f _ h, Nat.mod_eq_of_lt]
  have := Nat.two_pow_pos f.w
  unfold satAdd
  omega

theorem State.xr_inc (s : State) (f : RF) (k b : Nat) : (s.inc f k).xr b = s.xr b := rfl

theorem State.get_inc_ne (s : State) {f g : RF} (k : Nat) (h : g.off ≠ f.off) : (s.inc f k).get g = s.get g := State.get_set_ne s _ h

/-- Crossings of other places in their region count rigging discards in other registers. -/
theorem rig_discard_off_ne {b d : Nat} (h : bkB d ≠ bkB b) : (Reg.XR_COUNTS_rig_discard_count d).off ≠ (Reg.XR_COUNTS_rig_discard_count b).off := by
  have := bkB_lt b
  have := bkB_lt d
  simp only [Reg.XR_COUNTS_rig_discard_count, winBase]
  omega

theorem regionBlocks_bkB (g : Nat) : (regionBlocks g).map bkB = List.range 8 := by
  rw [regionBlocks, List.map_map]
  refine (List.map_congr_left fun b hb => ?_).trans (List.map_id _)
  have := List.mem_range.1 hb
  simp only [Function.comp_apply, bkB, bits, Nat.shiftLeft_eq, Nat.shiftRight_zero, id]
  omega

theorem XrSt.changeVariant_rewrites (x : XrSt) : x.changeVariant.1.rewrites = x.rewrites := by
  unfold XrSt.changeVariant
  split <;> rfl

theorem XrSt.changeVariant_nextVariant (x : XrSt) : x.changeVariant.1.nextVariant = none := by
  unfold XrSt.changeVariant
  split
  · assumption
  · rfl

theorem XrSt.changeVariant_variant {x : XrSt} {n : Nat} (h : x.nextVariant = some n) : x.changeVariant.1.variant = n := by
  unfold XrSt.changeVariant
  rw [h]

/-- A period starts at crossings of different places in their region: each takes its rewrites and its variant by itself. -/
theorem State.foldl_periodAt (l : List Nat) (hn : (l.map bkB).Nodup) (s : State) :
    (l.foldl State.periodAt s).cells = s.cells ∧ (l.foldl State.periodAt s).mem = s.mem ∧
      (∀ b ∈ l, (l.foldl State.periodAt s).xr b = { ((s.xr b).applyEdits).changeVariant.1 with periodAt := s.now / 32 } ∧
        (l.foldl State.periodAt s).get (Reg.XR_COUNTS_rig_discard_count b) =
          satAdd (Reg.XR_COUNTS_rig_discard_count b).w (s.get (Reg.XR_COUNTS_rig_discard_count b)) ((s.xr b).applyEdits).changeVariant.2) ∧
      (∀ b, b ∉ l → (l.foldl State.periodAt s).xr b = s.xr b) ∧
      ∀ b, bkB b ∉ l.map bkB → (l.foldl State.periodAt s).get (Reg.XR_COUNTS_rig_discard_count b) = s.get (Reg.XR_COUNTS_rig_discard_count b) := by
  induction l generalizing s with
  | nil => exact ⟨rfl, rfl, by simp, fun _ _ => rfl, fun _ _ => rfl⟩
  | cons d l ih =>
    rw [List.map_cons, List.nodup_cons] at hn
    obtain ⟨hcells, hmem, hin, hout, hreg⟩ := ih hn.2 (s.periodAt d)
    have hd : d ∉ l := fun h => hn.1 (List.mem_map_of_mem h)
    have hxr : ∀ b, b ≠ d → (s.periodAt d).xr b = s.xr b := fun b hb => by
      unfold State.periodAt
      rw [State.xr_inc, State.xr_modXr_ne _ _ hb]
    have hself : (s.periodAt d).xr d = { ((s.xr d).applyEdits).changeVariant.1 with periodAt := s.now / 32 } := by
      unfold State.periodAt
      rw [State.xr_inc, State.xr_modXr_self]
    have hget : ∀ b, bkB b ≠ bkB d → (s.periodAt d).get (Reg.XR_COUNTS_rig_discard_count b) = s.get (Reg.XR_COUNTS_rig_discard_count b) :=
      fun b hb => State.get_inc_ne (s.modXr d _) _ (rig_discard_off_ne hb)
    have hcount : (s.periodAt d).get (Reg.XR_COUNTS_rig_discard_count d) =
        satAdd (Reg.XR_COUNTS_rig_discard_count d).w (s.get (Reg.XR_COUNTS_rig_discard_count d)) ((s.xr d).applyEdits).changeVariant.2 :=
      State.get_inc_self (s.modXr d _) _ _ (by simp [Reg.XR_COUNTS_rig_discard_count])
    have hc : (s.periodAt d).cells = s.cells := rfl
    have hm : (s.periodAt d).mem = s.mem := rfl
    have hnow : (s.periodAt d).now = s.now := rfl
    rw [List.foldl_cons]
    generalize s.periodAt d = u at *
    refine ⟨hcells.trans hc, hmem.trans hm, fun b hb => ?_, fun b hb => ?_, fun b hb => ?_⟩
    · obtain rfl | hb := List.mem_cons.1 hb
      · rw [hout b hd, hreg b hn.1]
        exact ⟨hself, hcount⟩
      · have hne : bkB b ≠ bkB d := fun h => hn.1 (h ▸ List.mem_map_of_mem hb)
        obtain ⟨hx, hg⟩ := hin b hb
        rw [hx, hg, hxr b (fun h => hne (h ▸ rfl)), hget b hne, hnow]
        exact ⟨rfl, rfl⟩
    · obtain ⟨hne, hl⟩ := List.ne_and_not_mem_of_not_mem_cons hb
      rw [hout b hl, hxr b hne]
    · rw [List.map_cons] at hb
      obtain ⟨hne, hl⟩ := List.ne_and_not_mem_of_not_mem_cons hb
      rw [hreg b hl, hget b hne]

/-- Detours of a crossing after all of a set that names it agrees. -/
theorem State.xr_setDetours (b : Nat) (v : List Word64) (set : List (Nat × List Word64)) (s : State) (hb : blkValid b = true)
    (h : ∀ p ∈ set, p.1 = b → p.2.take 16 = v) (h0 : (∀ p ∈ set, p.1 ≠ b) → (s.xr b).detours = v) :
    ((s.setDetours set).xr b).detours = v := by
  induction set generalizing s with
  | nil => exact h0 (by simp)
  | cons p ps ih =>
    refine ih _ (fun q hq => h q (.tail _ hq)) fun hps => ?_
    dsimp only
    by_cases hp : p.1 = b
    · rw [hp, if_pos hb, State.xr_modXr_self]
      exact h p (.head _) hp
    · have hs : (s.xr b).detours = v := h0 (List.forall_mem_cons.2 ⟨hp, hps⟩)
      split
      · rw [State.xr_modXr_ne _ _ (Ne.symm hp)]
        exact hs
      · exact hs

theorem State.detoursAfter_of_unnamed {s : State} {set : List (Nat × List Word64)} {b : Nat} (h : ∀ p ∈ set, p.1 ≠ b) :
    s.detoursAfter set b = (s.xr b).detours := by
  rw [State.detoursAfter, List.find?_eq_none.2 (by simpa using h)]

/-- A slot period of a region that has not had it yet. -/
theorem exec_slotPeriodStart {g : Nat} {s : State} (hg : regionValid g = true) (h : ∃ b ∈ regionBlocks g, (s.xr b).periodAt < s.now / 32) :
    exec (.slotPeriodStart g) s = .next ((regionBlocks g).foldl State.periodAt s) := by
  have hany : ((regionBlocks g).any fun b => (s.xr b).periodAt < s.now / 32) = true := by simpa using h
  change execSlotPeriodStart g s = _
  rw [execSlotPeriodStart, onRegion_of_valid hg, hany, when_true]

/-- Settles O32: by what a slot carries, rewrites as they gather, periods block by block of a region, and the last detours that name a crossing. -/
theorem slotsAndRigging : Obligations.SlotsAndRigging := by
  refine ⟨fun b out slot pick s hb ho hs hr => ?_, fun b out slot pick s hb ho hs hr => ?_, fun edits s => ?_, fun g s hg h => ?_, fun set s => ⟨fun h => ⟨?_, fun b hb hp => ?_⟩, fun h => ?_⟩⟩
  · have hx := exec_circuitSlot hb ho hs (s := s) pick
    rw [hr, when_true] at hx
    refine ⟨fun key f h => ?_, fun h => ⟨fun p hp hl => ?_, fun p hk hl => ?_, fun p hk hp => ?_, fun hk hp => ?_⟩⟩
    · rw [hx, State.slotCarry_circuit h, State.slotMove]
    · rw [hx, State.slotCarry_vc3 h hp hl]
    · rw [hx, State.slotCarry_pkt h hk hl]
    · rw [hx, State.slotCarry_last h hk hp]
    · rw [hx, State.slotCarry_idle h hk hp]
  · rw [exec_circuitSlot hb ho hs, hr, when_false]
  · exact ⟨_, rfl, State.xr_rewrites edits s⟩
  · obtain ⟨hcells, hmem, hin, hout, -⟩ := State.foldl_periodAt (regionBlocks g) (by rw [regionBlocks_bkB]; exact List.nodup_range) s
    refine ⟨_, exec_slotPeriodStart hg h, hcells, hmem, fun b hb => ?_, hout⟩
    obtain ⟨hx, hc⟩ := hin b hb
    refine ⟨hx, ?_, ?_, fun n hn => ?_, hc⟩
    · rw [hx]
      exact XrSt.changeVariant_rewrites _
    · rw [hx]
      exact XrSt.changeVariant_nextVariant _
    · rw [hx]
      exact XrSt.changeVariant_variant hn
  · change execDetourInstall set s = _
    rw [execDetourInstall, if_pos h]
  · exact State.xr_setDetours b _ set s hb hp fun hn => (State.detoursAfter_of_unnamed hn).symm
  · change execDetourInstall set s = _
    rw [execDetourInstall, if_neg (by simp [h])]

end Sys2Proof.Machine
end

section
/-! PROOFS. Packets at a crossing (O33) and the side lane with its trees (O34). -/

namespace Sys2Proof.Machine
open Sys2Proof.Says

/-! ### Packets -/

section
variable {b p : Nat} {f : Flit} {fs : List Flit} {s : State} (hb : blkValid b = true) (hp : p ≤ 10)
  (hq : (SMap.getD (s.xr b).vc1 p .init).flits = f :: fs) (hr : (SMap.getD (s.xr b).vc1 p .init).route = 0) (hf : f.head = true)
include hb hp hq hr hf

/-- A head flit that is not multicast is routed. -/
theorem exec_packetHop (hm : (headerOf f).mcast = false) : exec (.packetHop b p) s = .next (s.routeHead b p f) := by
  change execPacketHop b p s = _
  have hu : decide (blkValid b = true ∧ p ≤ 10) = true := decide_eq_true ⟨hb, hp⟩
  rw [execPacketHop, hu, onUnit_true]
  dsimp only
  rw [hq]
  dsimp only
  rw [hr, hf, hm]
  rfl

/-- A multicast packet with no fenced cell at its crossing takes the outputs of its group. -/
theorem exec_multicastCopy (hm : (headerOf f).mcast = true) (hc : ∀ k, k < 7 → s.fenced (b * 32 + k) = false)
    (hg : SMap.getD (s.xr b).groups (headerOf f).group 0 % 2048 ≠ 0) :
    exec (.multicastCopy b p) s = .next (State.modPkt
      (if 4 ≤ p then (s.inc (Reg.BLK_STATUS_fenced_drop_count b) 0).keepCopy (headerOf f).src
          (headPacket ((SMap.getD (s.xr b).vc1 p .init).flits ++ SMap.getD (s.xr b).injPkts p []))
        else s.inc (Reg.BLK_STATUS_fenced_drop_count b) 0) b p
      fun q => { q with route := SMap.getD (s.xr b).groups (headerOf f).group 0 % 2048, taken := 0 }) := by
  change execMulticastCopy b p s = _
  have hu : decide (blkValid b = true ∧ p ≤ 10) = true := decide_eq_true ⟨hb, hp⟩
  have hcut : (indices 7 fun k => bitAt (SMap.getD (s.xr b).groups (headerOf f).group 0 % 2048) (4 + k) && s.fenced (b * 32 + k)) = [] := by
    refine List.eq_nil_iff_forall_not_mem.2 fun k hk => ?_
    obtain ⟨hk7, hbit⟩ := mem_indices.1 hk
    rw [hc k hk7, Bool.and_false] at hbit
    exact Bool.false_ne_true hbit
  rw [execMulticastCopy, hu, onUnit_true]
  dsimp only
  rw [hq]
  dsimp only
  rw [if_pos ⟨hr, hf, hm⟩, hcut, List.foldl_nil, if_neg hg]
  rfl
end

/-- Settles O33: each command follows the branch that its conditions name. -/
theorem packetRouting : Obligations.PacketRouting := by
  refine ⟨fun b p f fs s hb hp => fun hq hr hf => ⟨fun hm => ?_, fun hm hc hg => ?_⟩, fun b c d k p s hb hn hk => ?_⟩
  · have hx := exec_packetHop hb hp hq hr hf hm
    unfold State.routeHead at hx
    refine ⟨fun hcut => ?_, fun hcut hdead => ?_, fun hcut hdead => ?_⟩
    · have hc : 4 ≤ route (s.xr b) b (headerOf f).dst (bits ((headerOf f).w 2) 33 5) ∧ route (s.xr b) b (headerOf f).dst (bits ((headerOf f).w 2) 33 5) ≤ 10 ∧
          s.fenced (b * 32 + (route (s.xr b) b (headerOf f).dst (bits ((headerOf f).w 2) 33 5) - 4)) = true ∧ (!f.control) = true := by
        simpa [and_assoc] using hcut
      exact hx.trans (congrArg _ (if_pos hc))
    · have hc : ¬(4 ≤ route (s.xr b) b (headerOf f).dst (bits ((headerOf f).w 2) 33 5) ∧ route (s.xr b) b (headerOf f).dst (bits ((headerOf f).w 2) 33 5) ≤ 10 ∧
          s.fenced (b * 32 + (route (s.xr b) b (headerOf f).dst (bits ((headerOf f).w 2) 33 5) - 4)) = true ∧ (!f.control) = true) := by
        simpa [and_assoc] using hcut
      exact hx.trans (congrArg _ ((if_neg hc).trans (if_pos hdead)))
    · have hc : ¬(4 ≤ route (s.xr b) b (headerOf f).dst (bits ((headerOf f).w 2) 33 5) ∧ route (s.xr b) b (headerOf f).dst (bits ((headerOf f).w 2) 33 5) ≤ 10 ∧
          s.fenced (b * 32 + (route (s.xr b) b (headerOf f).dst (bits ((headerOf f).w 2) 33 5) - 4)) = true ∧ (!f.control) = true) := by
        simpa [and_assoc] using hcut
      exact hx.trans (congrArg _ ((if_neg hc).trans (if_neg (by rw [hdead]; exact Bool.false_ne_true))))
  · refine ⟨_, exec_multicastCopy hb hp hq hr hf hm hc hg, ?_, ?_, ?_, ?_⟩
    all_goals split <;> rfl
  · change execMulticastNak b s = _
    rw [execMulticastNak, onBlk_of_valid hb, hn]
    dsimp only
    have hk' : (s.modPort c fun q => { q with pkts := q.pkts.drop 1 }).mcastCopy c k.tag = some (d, p) := hk
    rw [hk']

/-! ### The side lane -/

section
variable {b : Nat} {s : State} (hb : blkValid b = true)
include hb

theorem exec_vc2ItemHop {p : Nat} {it : Item} {rest : List Item} (hp : p ≤ 10) (hq : SMap.getD (s.xr b).vc2 p [] = it :: rest)
    (hr : s.slotRuns b = true) : exec (.vc2ItemHop b p) s = .next (s.itemHop b p it rest) := by
  change execVc2ItemHop b p s = _
  have hu : decide (blkValid b = true ∧ p ≤ 10) = true := decide_eq_true ⟨hb, hp⟩
  rw [execVc2ItemHop, hu, onUnit_true]
  rw [hq]
  dsimp only
  rw [hr, when_true]

end

/-- Settles O34: each command follows the branch that its conditions name. -/
theorem sideLane : Obligations.SideLane := by
  refine ⟨fun b key e s h => ⟨fun hm => ?_, fun hm => ?_⟩, fun b s hb => ⟨fun p it rest hp hq hr => ?_, fun port it h => ?_, fun port it e h hk hpar hd hup => ?_, fun port it e h hk => ?_, fun port it e h hk hd => ?_⟩⟩
  · unfold State.combineUp
    rw [h]
    exact if_neg (by simpa using hm)
  · unfold State.combineUp
    rw [h]
    refine (if_pos (by simpa using hm)).trans ?_
    rw [Nat.shiftLeft_eq]
  · have hx := exec_vc2ItemHop hb hp hq hr
    unfold State.itemHop at hx
    refine ⟨fun h4 h7 => hx.trans (congrArg _ (if_pos ⟨h4, h7⟩)), fun hty => ?_⟩
    have hx := hx.trans (congrArg _ (if_neg (by omega)))
    refine ⟨fun h4 h10 => hx.trans (congrArg _ (if_pos ⟨h4, h10⟩)), fun ho hdead => ?_, fun ho hdead => ?_⟩
    · exact hx.trans (congrArg _ ((if_neg (by omega)).trans (if_pos hdead)))
    · exact hx.trans (congrArg _ ((if_neg (by omega)).trans (if_neg (by rw [hdead]; exact Bool.false_ne_true))))
  · refine ⟨fun hst => ?_, fun hst hk => ?_, fun e hst hk hup => ?_⟩
    all_goals
      change execBarrierArrival b s = _
      rw [execBarrierArrival, onBlk_of_valid hb, h]
      dsimp only
    · exact congrArg _ (if_pos hst)
    · rw [if_neg (by rw [hst]; exact Bool.false_ne_true), hk]
    · rw [if_neg (by rw [hst]; exact Bool.false_ne_true), hk]
      refine congrArg _ (if_neg fun hno => ?_)
      obtain ⟨hne, hroom⟩ := hno
      obtain hup | hup := hup
      · exact hne hup
      · rw [hup] at hroom
        exact Bool.false_ne_true hroom
  · change execBarrierCompletion b s = _
    rw [execBarrierCompletion, onBlk_of_valid hb, h]
    dsimp only
    rw [hk]
    refine congrArg _ (if_neg ?_)
    rintro (⟨hp, hbar⟩ | hdown | ⟨hne, hroom⟩)
    · rw [hpar hp] at hbar
      exact Bool.false_ne_true hbar
    · rw [hd] at hdown
      exact Bool.false_ne_true hdown
    · rw [hup.resolve_left hne] at hroom
      exact Bool.false_ne_true hroom
  · refine ⟨fun hroot hsame => ?_, fun hroot hnew => ?_, fun hroot hroom hlive => ?_⟩
    all_goals
      change execFlagUpdate b s = _
      rw [execFlagUpdate, onBlk_of_valid hb, h]
      dsimp only
      rw [hk]
    · exact congrArg _ ((if_pos hroot).trans (if_pos hsame))
    · exact congrArg _ ((if_pos hroot).trans (if_neg hnew))
    · exact congrArg _ ((if_neg hroot).trans ((if_pos hroom).trans (if_neg (by simpa using hlive))))
  · change execFlagValue b s = _
    rw [execFlagValue, onBlk_of_valid hb, h]
    dsimp only
    rw [hk]
    exact congrArg _ (if_pos hd)

end Sys2Proof.Machine
end

section
/-! PROOFS. Seams (O35). -/

namespace Sys2Proof.Machine
open Sys2Proof.Says

/-! ### Check words of a flit time -/

/-- One bit of a CRC keeps it within its width. -/
theorem crcMsbBit_lt {w poly : Nat} (hp : poly < 2 ^ w) (c : Nat) (x : Bool) : crcMsbBit w poly c x < 2 ^ w := by
  unfold crcMsbBit
  dsimp only
  split
  · exact Nat.xor_lt_two_pow (Nat.mod_lt _ (Nat.two_pow_pos w)) hp
  · exact Nat.mod_lt _ (Nat.two_pow_pos w)

theorem foldl_crcMsbByte_lt {w poly : Nat} (hp : poly < 2 ^ w) (xs : List Byte) {c : Nat} (hc : c < 2 ^ w) :
    xs.foldl (crcMsbByte w poly) c < 2 ^ w :=
  List.foldlRecOn (motive := fun c => c < 2 ^ w) xs _ hc fun _ _ _ _ => crcMsbBit_lt hp _ _

theorem crc16_lt (xs : List Byte) : crc16 xs < 2 ^ 16 := foldl_crcMsbByte_lt (by decide) xs (by decide)

theorem crc8_lt (xs : List Byte) : crc8 xs < 2 ^ 8 := foldl_crcMsbByte_lt (by decide) xs (by decide)

/-- Bytes of a number are those of its low part. -/
theorem toLE_add_mul (n x y : Nat) : toLE n (x + y * 2 ^ (8 * n)) = toLE n x := by
  induction n generalizing x with
  | zero => rfl
  | succ n ih =>
    have hpow : y * 2 ^ (8 * (n + 1)) = (y * 2 ^ (8 * n)) * 2 ^ 8 := by rw [Nat.mul_assoc, ← Nat.pow_add]; rfl
    rw [toLE, toLE, hpow]
    congr 1
    · refine BitVec.eq_of_toNat_eq ?_
      rw [BitVec.toNat_ofNat, BitVec.toNat_ofNat, Nat.add_mul_mod_self_right]
    · rw [Nat.shiftRight_eq_div_pow, Nat.add_mul_div_right _ _ (by decide), ih, Nat.shiftRight_eq_div_pow]

/-- The sideband's fields as a sum, and its check word above them. -/
theorem sideband_eq {f : Flit} {credit fault frag pos : Nat} (hcr : credit < 256) (hfa : fault < 256) (hvc : f.vc < 4) (hst : f.stage < 16)
    (hep : f.epoch < 16) (hpo : f.poison < 256) (hfr : frag < 2 ^ 64) (hps : pos < 4) :
    ∃ w0 k, w0 < 2 ^ 120 ∧ k = crc8 (toLE 13 (w0 / 2 ^ 16)) ∧ sideband (some f) credit fault frag pos = w0 + k * 2 ^ 120 ∧
      w0 = crc16 f.data + f.poison * 2 ^ 16 + 2 ^ 24 + f.vc * 2 ^ 25 + f.stage * 2 ^ 27 + b2n f.head * 2 ^ 31 + b2n f.tail * 2 ^ 32 +
        b2n f.linkErr * 2 ^ 33 + f.epoch * 2 ^ 34 + credit * 2 ^ 38 + fault * 2 ^ 46 + frag * 2 ^ 54 + pos * 2 ^ 118 := by
  have hcrc := crc16_lt f.data
  have hb : ∀ x : Bool, b2n x < 2 := fun x => by cases x <;> decide
  have h1 := hb f.head
  have h2 := hb f.tail
  have h3 := hb f.linkErr
  refine ⟨_, _, ?_, rfl, ?_, rfl⟩
  · omega
  · unfold sideband
    dsimp only
    rw [Nat.mod_eq_of_lt hcr, Nat.mod_eq_of_lt hfa, Nat.mod_eq_of_lt hvc, Nat.mod_eq_of_lt hst, Nat.mod_eq_of_lt hep, Nat.mod_eq_of_lt hpo,
      Nat.mod_eq_of_lt hfr, Nat.mod_eq_of_lt hps]
    simp only [Nat.shiftLeft_eq, Nat.one_mul, Nat.shiftRight_eq_div_pow]

/-- A flit time with no bit changed arrives as it was sent. -/
theorem sideband_arrives {f : Flit} {credit fault frag pos now : Nat} (hcr : credit < 256) (hfa : fault < 256) (hvc : f.vc < 4) (hst : f.stage < 16)
    (hep : f.epoch < 16) (hpo : f.poison < 256) (hfr : frag < 2 ^ 64) (hps : pos < 4) :
    let w := sideband (some f) credit fault frag pos
    ctrlOk w = true ∧ seamFlit f w f.data now = ({ f with atT := now }, true) ∧ bits w 24 1 = 1 ∧ bits w 38 8 = credit ∧
      bits w 46 8 = fault ∧ bits w 54 64 = frag ∧ bits w 118 2 = pos := by
  obtain ⟨w0, k, hw0, hk, hw, hsum⟩ := sideband_eq hcr hfa hvc hst hep hpo hfr hps
  have hk8 : k < 2 ^ 8 := hk ▸ crc8_lt _
  have hcrc := crc16_lt f.data
  have hb : ∀ x : Bool, b2n x < 2 := fun x => by cases x <;> decide
  have h1 := hb f.head
  have h2 := hb f.tail
  have h3 := hb f.linkErr
  have hbit : ∀ x : Bool, decide (b2n x = 1) = x := fun x => by cases x <;> rfl
  have hcheck : bits (w0 + k * 2 ^ 120) 120 8 = k := by
    rw [bits, Nat.shiftRight_eq_div_pow]
    omega
  have hlow : toLE 13 ((w0 + k * 2 ^ 120) >>> 16) = toLE 13 (w0 / 2 ^ 16) := by
    rw [Nat.shiftRight_eq_div_pow, show (w0 + k * 2 ^ 120) / 2 ^ 16 = w0 / 2 ^ 16 + k * 2 ^ (8 * 13) by omega, toLE_add_mul]
  rw [hw]
  refine ⟨?_, ?_, ?_, ?_, ?_, ?_, ?_⟩
  · rw [ctrlOk, hlow, hcheck, ← hk, beq_self_eq_true]
  · have hcrcOk : bits (w0 + k * 2 ^ 120) 0 16 = crc16 f.data := by
      rw [bits, Nat.shiftRight_eq_div_pow]
      omega
    have hpoison : bits (w0 + k * 2 ^ 120) 16 8 = f.poison := by
      rw [bits, Nat.shiftRight_eq_div_pow]
      omega
    have hvcs : bits (w0 + k * 2 ^ 120) 25 2 = f.vc := by
      rw [bits, Nat.shiftRight_eq_div_pow]
      omega
    have hstage : bits (w0 + k * 2 ^ 120) 27 4 = f.stage := by
      rw [bits, Nat.shiftRight_eq_div_pow]
      omega
    have hepoch : bits (w0 + k * 2 ^ 120) 34 4 = f.epoch := by
      rw [bits, Nat.shiftRight_eq_div_pow]
      omega
    have hhead : bitAt (w0 + k * 2 ^ 120) 31 = f.head := by
      rw [bitAt, Nat.testBit_eq_decide_div_mod_eq, show (w0 + k * 2 ^ 120) / 2 ^ 31 % 2 = b2n f.head by omega]
      exact hbit _
    have htail : bitAt (w0 + k * 2 ^ 120) 32 = f.tail := by
      rw [bitAt, Nat.testBit_eq_decide_div_mod_eq, show (w0 + k * 2 ^ 120) / 2 ^ 32 % 2 = b2n f.tail by omega]
      exact hbit _
    have hlink : bitAt (w0 + k * 2 ^ 120) 33 = f.linkErr := by
      rw [bitAt, Nat.testBit_eq_decide_div_mod_eq, show (w0 + k * 2 ^ 120) / 2 ^ 33 % 2 = b2n f.linkErr by omega]
      exact hbit _
    rw [seamFlit, hcrcOk, hpoison, hvcs, hstage, hepoch, hhead, htail, hlink]
    simp
  all_goals
    rw [bits, Nat.shiftRight_eq_div_pow]
    omega

/-! ### The state of a link -/

/-- After a state is set at both ends, an end named shows it. -/
theorem State.get_foldl_setLink {rs : List (Nat × Nat)} {r : Nat × Nat} {v : Nat} (hv : v < 8) (s : State) (h : r ∈ rs ∨ s.get (Reg.SEAM_STATUS_state r.1 r.2) = v) :
    (rs.foldl (fun s r => s.set (Reg.SEAM_STATUS_state r.1 r.2) v) s).get (Reg.SEAM_STATUS_state r.1 r.2) = v := by
  have hself : ∀ (t : State) (q : Nat × Nat), (t.set (Reg.SEAM_STATUS_state q.1 q.2) v).get (Reg.SEAM_STATUS_state q.1 q.2) = v := fun t q => by
    rw [State.get_set_self _ _ _ (by simp [Reg.SEAM_STATUS_state])]
    exact Nat.mod_eq_of_lt hv
  induction rs generalizing s with
  | nil => exact h.resolve_left (by simp)
  | cons q qs ih =>
    refine ih _ ?_
    obtain h | h := h
    · obtain rfl | h := List.mem_cons.1 h
      · exact .inr (hself s r)
      · exact .inl h
    · refine .inr ?_
      by_cases hoff : (Reg.SEAM_STATUS_state r.1 r.2).off = (Reg.SEAM_STATUS_state q.1 q.2).off
      · have hsame : Reg.SEAM_STATUS_state r.1 r.2 = Reg.SEAM_STATUS_state q.1 q.2 := by
          simpa [Reg.SEAM_STATUS_state] using hoff
        rw [hsame]
        exact hself s q
      · rw [State.get_set_ne _ _ hoff]
        exact h

theorem State.linkState_setLink {b d v : Nat} (hv : v < 8) (s : State) : (s.setLink b d v).linkState b d = v :=
  State.get_foldl_setLink (r := (bkG b, seamLink b d)) hv s (.inl (.head _))

theorem State.setLink_frame (s : State) (b d v : Nat) :
    (s.setLink b d v).cells = s.cells ∧ (s.setLink b d v).mem = s.mem ∧ (s.setLink b d v).mesh = s.mesh :=
  List.foldlRecOn (motive := fun t : State => t.cells = s.cells ∧ t.mem = s.mem ∧ t.mesh = s.mesh) (seamRegs b d) _ ⟨rfl, rfl, rfl⟩
    fun _ ht _ _ => ht

section
variable {b d : Nat} {s : State} (he : seamEnd b d = true)
include he

theorem isSeam_of_seamEnd : isSeam b (d % 4) = true := by
  simp only [seamEnd, Bool.and_eq_true] at he
  exact he.1.2

theorem exec_seamWireTestDone (bad : List Nat) (clock : Bool) (h : s.linkState b (d % 4) = 3) :
    exec (.seamWireTestDone b d bad clock) s = .next (
      if clock ∨ s.spareCount b d < bad.length then s.setLink b (d % 4) 4
      else if bad.isEmpty then s.setLink b (d % 4) 2
      else ((s.swapSpares b d (bad.map (· % 68))).inc (Reg.SEAM_STATUS_retrain_count (bkG b) (seamLink b (d % 4)))).setLink b (d % 4) 2) := by
  change execSeamWireTestDone b d bad clock s = _
  rw [execSeamWireTestDone, he, onUnit_true]
  dsimp only
  rw [h]
  rfl

theorem exec_seamRetrainDone (ok : Bool) (h : s.linkState b (d % 4) = 4) :
    exec (.seamRetrainDone b d ok) s = .next (
      if ok then (s.inc (Reg.SEAM_STATUS_retrain_count (bkG b) (seamLink b (d % 4)))).setLink b (d % 4) 2
      else
        let s := s.setLink b (d % 4) 5
        let s := (s.stageCairn { Cairn.blank 0x08 2 (seamLink b (d % 4)) (b * 32 / 256 * 256) 0xFFFF 0 with
          regs := s.regWords [(Reg.SEAM_STATUS_state (bkG b) (seamLink b (d % 4))).off] }).report (b * 32) 0 7
        if (regionLinks (bkG b)).all fun p => s.linkState p.1 p.2 == 5 then s.report (b * 32) 0 8 else s) := by
  change execSeamRetrainDone b d ok s = _
  rw [execSeamRetrainDone, he, onUnit_true]
  dsimp only
  rw [h]
  rfl

end

theorem State.reported_of_lastLink {b d : Nat} {r : Report} {u : State} (hl : u.linkState b d = 5) (hr : r ∈ u.mesh.reports) :
    (if (regionLinks (bkG b)).all fun p => u.linkState p.1 p.2 == 5 then u.report (b * 32) 0 8 else u).linkState b d = 5 ∧
      r ∈ (if (regionLinks (bkG b)).all fun p => u.linkState p.1 p.2 == 5 then u.report (b * 32) 0 8 else u).mesh.reports := by
  split
  · exact ⟨(State.get_report u _ _ _ (Reg.SEAM_STATUS_state (bkG b) (seamLink b d))).trans hl, List.mem_append_left _ hr⟩
  · exact ⟨hl, hr⟩

/-- A failed training takes the link down and is reported. -/
theorem seamRetrainDone_fails {b d : Nat} {s : State} (he : seamEnd b d = true) (h : s.linkState b (d % 4) = 4) :
    ∃ t, exec (.seamRetrainDone b d false) s = .next t ∧ t.linkState b (d % 4) = 5 ∧
      (⟨b * 32, 0, 7, faultWay 12 (gOf (b * 32))⟩ : Report) ∈ t.mesh.reports := by
  refine ⟨_, (exec_seamRetrainDone he false h).trans (congrArg _ (if_neg Bool.false_ne_true)), ?_⟩
  dsimp only
  have hlink : ∀ r, (((s.setLink b (d % 4) 5).stageCairn r).report (b * 32) 0 7).linkState b (d % 4) = 5 := fun r => by
    have hreg : ((s.setLink b (d % 4) 5).stageCairn r).linkState b (d % 4) = (s.setLink b (d % 4) 5).linkState b (d % 4) :=
      State.get_of_reg (g := Reg.SEAM_STATUS_state (bkG b) (seamLink b (d % 4))) (State.reg_stageCairn r ?_)
    · rw [State.linkState, State.get_report, ← State.linkState, hreg, State.linkState_setLink (by decide)]
    · simp only [inWindow, Reg.SEAM_STATUS_state, winBase]
      omega
  have hrep : ∀ t : State, (⟨b * 32, 0, 7, faultWay 12 (gOf (b * 32))⟩ : Report) ∈ (t.report (b * 32) 0 7).mesh.reports := fun t =>
    List.mem_append_right _ (.head _)
  exact State.reported_of_lastLink (hlink _) (hrep _)

/-- Settles O35: each bridge follows the branch that its link's state and its test name; a flit time unchanged gives back its fields. -/
theorem seams : Obligations.Seams := by
  refine ⟨fun b d s he => ⟨fun flips hup => ?_, fun hup hf => ?_, fun h bad => ⟨fun hbad => ?_, fun hbad hlen => ?_, fun hlen => ?_, ?_⟩, fun h => ⟨?_, seamRetrainDone_fails he h⟩⟩,
    fun f credit fault frag pos now hcr hfa hvc hst hep hpo hfr hps => sideband_arrives hcr hfa hvc hst hep hpo hfr hps⟩
  · change execSeamFlitTime b d flips s = _
    rw [execSeamFlitTime, he, onUnit_true]
    rw [hup, when_true]
  · refine ⟨(s.modWire (wireInto b d) fun w => { w with fails := [], held := true }).setLink b (d % 4) 3, ?_,
      State.linkState_setLink (by decide) _, ?_, ?_, ?_, ?_⟩
    · change execSeamErrorThreshold b d s = _
      rw [execSeamErrorThreshold, he, onUnit_true]
      dsimp only
      rw [hup, decide_eq_true hf]
      rfl
    · have hst := State.linkState_setLink (b := b) (d := d % 4) (v := 3) (by decide) (s.modWire (wireInto b d) fun w => { w with fails := [], held := true })
      unfold State.linkState at hst
      rw [State.linkUp, isSeam_of_seamEnd he, hst]
      rfl
    all_goals obtain ⟨hcells, hmem, hmesh⟩ := State.setLink_frame (s.modWire (wireInto b d) fun w => { w with fails := [], held := true }) b (d % 4) 3
    · rw [State.wire, hmesh]
      exact State.wire_modWire_self s (wireInto b d) _
    · exact hcells
    · exact hmem
  · rw [exec_seamWireTestDone he _ _ h, hbad]
    exact congrArg _ ((if_neg (by simp)).trans (if_pos rfl))
  · rw [exec_seamWireTestDone he _ _ h]
    exact congrArg _ ((if_neg (by simpa using hlen)).trans (if_neg (by simpa using hbad)))
  · rw [exec_seamWireTestDone he _ _ h]
    exact congrArg _ (if_pos (.inr hlen))
  · rw [exec_seamWireTestDone he _ _ h]
    exact congrArg _ (if_pos (.inl rfl))
  · rw [exec_seamRetrainDone he _ h]
    exact congrArg _ (if_pos rfl)

end Sys2Proof.Machine
end

section
/-! PROOFS. The base-camp transport (O36). -/

namespace Sys2Proof.Machine
open Sys2Proof.Says

/-- A block fenced whole shows it, and its memory stays. -/
theorem State.fenceBlock_leaves (s : State) (b cause : Nat) :
    (s.fenceBlock b cause).flag (Reg.BLK_STATUS_block_fenced b) = true ∧ (s.fenceBlock b cause).mem = s.mem := by
  have hset : (((s.set (Reg.BLK_STATUS_block_fenced b) 1).set (Reg.BLK_STATUS_cell_fence_valid b) 0).get (Reg.BLK_STATUS_block_fenced b)) = 1 := by
    rw [State.get_set_disjoint (f := Reg.BLK_STATUS_cell_fence_valid b) (g := Reg.BLK_STATUS_block_fenced b) _ _ rfl
      (by simp [Reg.BLK_STATUS_block_fenced]) (by simp [Reg.BLK_STATUS_block_fenced, Reg.BLK_STATUS_cell_fence_valid]),
      State.get_set_self _ _ _ (by simp [Reg.BLK_STATUS_block_fenced])]
    rfl
  have hmem : ((s.set (Reg.BLK_STATUS_block_fenced b) 1).set (Reg.BLK_STATUS_cell_fence_valid b) 0).mem = s.mem := rfl
  unfold State.fenceBlock
  dsimp only
  generalize (s.set (Reg.BLK_STATUS_block_fenced b) 1).set (Reg.BLK_STATUS_cell_fence_valid b) 0 = t at *
  generalize t.get (Reg.REGION_ID_blocks_fenced (bkG b)) ||| 2 ^ bkB b = v
  refine ⟨?_, (State.foldl_fenceOne_frame (l := blockCells b) (cause := cause) _).1.trans hmem⟩
  have hget := State.get_of_reg (g := Reg.BLK_STATUS_block_fenced b) (State.reg_foldl_fenceOne (l := blockCells b) (cause := cause)
    (s := t.set (Reg.REGION_ID_blocks_fenced (bkG b)) v) (inWindow_blkStatus b) fun k _ => (cellEpoch_ne_blkStatus k b).symm)
  rw [State.get_set_ne _ _ (blkStatus_ne_regionId b (bkG b)), hset] at hget
  exact congrArg (· != 0) hget

/-! ### The first packet of a receiver -/

section
variable {b : Nat} {hub : Bool} {s : State} {p : Packet} {rest : List Packet} (hq : (s.tp b hub).inq = p :: rest)
include hq

/-- A packet that is no sound control packet is served by TRANSPORT_RECEIVE. -/
theorem State.rxHead_data (h : (p.hOk && !p.linkErr) = false ∨ p.ty < 6) :
    s.rxHead b hub 0 = some (p, s.modTp b hub fun t => { t with inq := rest }) := by
  have hkind : ¬(p.hOk = true ∧ (!p.linkErr) = true ∧ (p.ty = 6 ∨ p.ty = 7)) := by
    rintro ⟨hok, hlink, hty⟩
    obtain h | h := h
    · rw [hok, hlink] at h
      exact Bool.false_ne_true h.symm
    · omega
  unfold State.rxHead
  rw [hq]
  dsimp only
  rw [if_neg hkind, if_pos rfl]

/-- A sound control packet is served by the command of its kind. -/
theorem State.rxHead_control (hg : (p.hOk && !p.linkErr) = true) (hty : p.ty = 6 ∨ p.ty = 7) :
    s.rxHead b hub p.ty = some (p, s.modTp b hub fun t => { t with inq := rest }) := by
  have hkind : p.hOk = true ∧ (!p.linkErr) = true ∧ (p.ty = 6 ∨ p.ty = 7) := by
    rw [Bool.and_eq_true] at hg
    exact ⟨hg.1, hg.2, hty⟩
  unfold State.rxHead
  rw [hq]
  dsimp only
  rw [if_pos hkind, if_pos rfl]
end

/-- The first packet of a receiver that TRANSPORT_RECEIVE serves. -/
theorem exec_transportReceive {b : Nat} {hub : Bool} {s : State} {p : Packet} {rest : List Packet} (hb : blkValid b = true)
    (hq : (s.tp b hub).inq = p :: rest) (h : (p.hOk && !p.linkErr) = false ∨ p.ty < 6) (dram : List DramErr) (ecc : List EccEvent) :
    exec (.transportReceive ⟨b, dram, ecc⟩ hub) s = .next (
      let t := s.tp b hub
      let good := p.hOk && !p.linkErr
      let s := s.modTp b hub fun t => { t with inq := rest }
      if good && p.ty == 5 then s.carriedBack b hub p
      else if good && p.pOk && p.seq == t.expect then
        let s := s.carriedBack b hub p
        let s := s.modTp b hub fun t =>
          { t with expect := (t.expect + 1) % 2 ^ 16, nakSent := false, accepted := t.accepted + 1
                   ackAt := if t.accepted = 0 ∧ t.owed = 0 then s.now else t.ackAt }
        let s := s.accepted b hub p dram ecc
        if 16 ≤ (s.tp b hub).accepted then s.sendAck b hub 5 else s
      else if good && p.pOk && (t.expect + 2 ^ 16 - p.seq) % 2 ^ 16 ≤ 64 then
        (((if hub then s.hubDrop p.dst else s.inc (Reg.XR_COUNTS_pkt_drop_count b))).owe b hub p.cost).sendAck b hub 5
      else s.rxDiscard b hub p) := by
  change execTransportReceive ⟨b, dram, ecc⟩ hub s = _
  rw [execTransportReceive, onBlk_of_valid hb]
  dsimp only
  rw [State.rxHead_data hq h]
  dsimp only
  rw [State.tp_modTp_self]

/-- Settles O36: each command follows the branch that its conditions name. -/
theorem transport : Obligations.Transport := by
  refine fun b hub s hb => ⟨fun p rest hq => ?_, fun hu hp => ?_, fun ha => ?_⟩
  · refine ⟨fun dram ecc => ?_, fun hg hty => ?_, fun hg hty hd => ?_, fun x q hg hty hh hd hk => ?_⟩
    · refine ⟨fun hg hty => ?_, fun hg hok hty hseq => ?_, fun hg hok hty hseq hold => ?_, fun hg hok hty hnew hseq => ?_, fun hbad => ?_⟩
      · rw [exec_transportReceive hb hq (.inr (by omega))]
        exact congrArg _ (if_pos (by rw [hg, hty]; rfl))
      · rw [exec_transportReceive hb hq (.inr (by omega))]
        exact congrArg _ ((if_neg (by simp only [beq_iff_eq, Bool.and_eq_true]; omega)).trans (if_pos (by rw [hg, hok, hseq]; simp)))
      · rw [exec_transportReceive hb hq (.inr (by omega))]
        exact congrArg _ ((if_neg (by simp only [beq_iff_eq, Bool.and_eq_true]; omega)).trans
          ((if_neg (by simp [hseq])).trans (if_pos (by rw [hg, hok, decide_eq_true hold]; rfl))))
      · rw [exec_transportReceive hb hq (.inr (by omega))]
        exact congrArg _ ((if_neg (by simp only [beq_iff_eq, Bool.and_eq_true]; omega)).trans
          ((if_neg (by simp [hseq])).trans (if_neg (by rw [hg, hok, decide_eq_false (Nat.not_le.2 hnew)]; exact Bool.false_ne_true))))
      · rw [exec_transportReceive hb hq (hbad.imp_right fun h => by omega)]
        have hno : (p.hOk && !p.linkErr && p.ty == 5) = false ∧ (p.hOk && !p.linkErr && p.pOk) = false := by
          obtain hg | ⟨hok, hty⟩ := hbad
          · rw [hg]
            exact ⟨rfl, rfl⟩
          · rw [hok, Bool.and_false, beq_eq_false_iff_ne.2 (by omega), Bool.and_false]
            exact ⟨rfl, rfl⟩
        dsimp only
        rw [hno.1, hno.2]
        rfl
    · change execTransportCredit b hub s = _
      rw [execTransportCredit, onBlk_of_valid hb, ← hty, State.rxHead_control hq hg (.inr hty)]
    · change execTransportNak b hub s = _
      rw [execTransportNak, onBlk_of_valid hb, ← hty, State.rxHead_control hq hg (.inl hty)]
      refine congrArg _ (if_neg ?_)
      rintro ⟨hh, hne⟩
      exact hd.elim (fun h => by rw [h] at hh; exact Bool.false_ne_true hh) hne
    · change execTransportNak b hub s = _
      rw [execTransportNak, onBlk_of_valid hb, ← hty, State.rxHead_control hq hg (.inl hty)]
      refine congrArg _ ((if_pos ⟨hh, hd⟩).trans ?_)
      have hk' : (s.modTp b hub fun t => { t with inq := rest }).mcastCopy p.dst p.tag = some (x, q) := hk
      rw [hk']
  · have hx : exec (.transportResendTimeout b hub) s = .next (s.goBack b hub) := by
      change execTransportResendTimeout b hub s = _
      rw [execTransportResendTimeout, onBlk_of_valid hb]
      dsimp only
      rw [List.isEmpty_eq_false_iff.2 hu, decide_eq_true hp]
      rfl
    unfold State.goBack at hx
    have hx := hx.trans (congrArg _ (if_neg (by simpa using hu)))
    refine ⟨fun hr => hx.trans (congrArg _ (if_neg (by omega))), fun hr => ⟨_, hx.trans (congrArg _ (if_pos hr)), ?_, ?_, ?_⟩⟩
    · rw [State.flag, State.get_report]
      exact (State.fenceBlock_leaves _ b 0x0A).1
    · exact (State.fenceBlock_leaves _ b 0x0A).2.trans (State.stageCairn_mem _ _)
    · exact List.mem_append_right _ (.head _)
  · change execTransportAckTimer b hub s = _
    rw [execTransportAckTimer, onBlk_of_valid hb]
    exact congrArg _ (if_pos ha)

end Sys2Proof.Machine
end

section
/-! PROOFS. What a packet does at its cell (O37). -/

namespace Sys2Proof.Machine
open Sys2Proof.Says

/-- Granules made with every one poisoned. -/
theorem poison_of_mem_toGrans {bs : List Byte} {g : Gran} (h : g ∈ toGrans (fun _ => true) bs) : g.poison = true := by
  have key : ∀ (cs : List (List Byte)) (i : Nat) (acc : List Gran), (∀ g ∈ acc, g.poison = true) →
      ∀ g ∈ foldIdx (fun _ (a : List Gran) (c : List Byte) => a ++ [⟨c ++ List.replicate (32 - c.length) 0, true⟩]) i acc cs, g.poison = true := by
    intro cs
    induction cs with
    | nil => exact fun _ _ hacc => hacc
    | cons c cs ih =>
      refine fun i acc hacc => ih _ _ fun g hg => ?_
      obtain hg | hg := List.mem_append.1 hg
      · exact hacc g hg
      · rw [List.mem_singleton.1 hg]
  exact key _ 0 [] (by simp) g h

/-! ### The tests of a packet -/

section
variable {a : Nat} {p : Packet} {s : State}

theorem State.checkPacket_fenced (hf : s.fenced a = true) :
    s.checkPacket a p = (none, s.inc (Reg.BLK_STATUS_fenced_drop_count (a / 32))) := by
  rw [State.checkPacket, if_pos hf]

section
variable (hf : s.fenced a = false) (hm : p.mcast = false)
include hf hm

theorem State.checkPacket_badHeader (hh : p.hOk = false) : s.checkPacket a p = (none, (s.pktDrop a).cellFault a 4) := by
  rw [State.checkPacket, if_neg (by simp [hf]), if_neg (by simp [hm]), if_pos (by simp [hh])]

variable (hh : p.hOk = true)
include hh

theorem State.checkPacket_stale (h : ¬(0xF000 ≤ p.src ∨ p.epoch = s.epoch4 p.src)) :
    s.checkPacket a p = (none, s.inc (Reg.CELL_EPOCH_epoch_drop_count a)) := by
  rw [State.checkPacket, if_neg (by simp [hf]), if_neg (by simp [hm]), if_neg (by simp [hh]), if_pos (by omega)]

variable (h : 0xF000 ≤ p.src ∨ p.epoch = s.epoch4 p.src)
include h

theorem State.checkPacket_sound (hp : p.pOk = true) (hl : p.linkErr = false) : s.checkPacket a p = (some p.payload, s) := by
  rw [State.checkPacket, if_neg (by simp [hf]), if_neg (by simp [hm]), if_neg (by simp [hh]), if_neg (by omega), if_neg (by simp [hp, hl])]

/-- A payload that fails its check is kept with every granule poisoned. -/
theorem State.checkPacket_poisoned (hp : p.pOk = false) : ∃ gs, s.checkPacket a p = (some gs, s) ∧ ∀ g ∈ gs, g.poison = true := by
  rw [State.checkPacket, if_neg (by simp [hf]), if_neg (by simp [hm]), if_neg (by simp [hh]), if_neg (by omega), if_pos (by simp [hp])]
  exact ⟨_, rfl, fun g hg => poison_of_mem_toGrans hg⟩
end
end

/-! ### The row that serves a packet's type -/

section
variable {c : CellAddr} {s : State} {p : Packet} {rest : List Packet} {mine : Nat → Bool} {f : Packet → List Gran → State → State}
  (hc : cellValid c.toNat = true) (hg : s.gated c.toNat = false) (hq : (s.cell c.toNat).port.pkts = p :: rest) (hty : mine p.ty = true)
include hc hg hq hty

theorem packetRow_dropped {t : State} (h : (s.modPort c.toNat fun q => { q with pkts := rest }).checkPacket c.toNat p = (none, t)) :
    packetRow c s mine f = .next (t.owe (c.toNat / 32) false p.fromHub) := by
  rw [packetRow, onPort_of_running hc hg]
  dsimp only
  rw [hq]
  refine congrArg _ ((if_pos hty).trans ?_)
  rw [h]

theorem packetRow_taken {gs : List Gran} {t : State} (h : (s.modPort c.toNat fun q => { q with pkts := rest }).checkPacket c.toNat p = (some gs, t)) :
    packetRow c s mine f = .next (f p gs (if p.ty = 1 then t else t.owe (c.toNat / 32) false p.fromHub)) := by
  rw [packetRow, onPort_of_running hc hg]
  dsimp only
  rw [hq]
  refine congrArg _ ((if_pos hty).trans ?_)
  rw [h]
end

theorem State.owe_cells (s : State) (b : Nat) (toHub : Bool) (k : Nat) : (s.owe b toHub k).cells = s.cells := by
  unfold State.owe
  split <;> rfl

theorem State.owe_chans (s : State) (b : Nat) (toHub : Bool) (k : Nat) : (s.owe b toHub k).chans = s.chans := by
  unfold State.owe
  split <;> rfl

/-- A write to no word of its cell leaves no write at any port. -/
theorem State.badWrite_cells (s : State) (a : Nat) (p : Packet) : (s.badWrite a p).cells = s.cells := by
  have h : ((s.pktDrop a).owe (a / 32) false p.fromHub).cells = s.cells := State.owe_cells _ _ _ _
  unfold State.badWrite
  dsimp only
  split
  · exact h
  · exact h

/-- The writes that a WRITE adds at its port carry its granules. -/
theorem State.cellWrite_writes {s : State} {a o : Nat} {p : Packet} {gs : List Gran} (hm : p.mcast = false) (h : spDecode p.addr = some (a, o)) :
    ∀ w ∈ ((s.cellWrite a p gs).cell a).port.writes, w ∉ (s.cell a).port.writes → w.grans = gs := by
  intro w hw hno
  unfold State.cellWrite at hw
  rw [hm, if_neg Bool.false_ne_true] at hw
  dsimp only at hw
  rw [h] at hw
  dsimp only at hw
  split at hw
  · rw [State.modPort, State.cell_modCell_self] at hw
    obtain hw | hw := List.mem_append.1 hw
    · exact absurd hw hno
    · rw [List.mem_singleton.1 hw]
  · rw [State.cell_of_cells (State.badWrite_cells s a p)] at hw
    exact absurd hw hno

theorem State.cellWrite_of_inside {s : State} {a o : Nat} {p : Packet} {gs : List Gran} (hm : p.mcast = false) (h : spDecode p.addr = some (a, o))
    (hb : o + 32 * gs.length ≤ bankCount a * 0x100000) :
    s.cellWrite a p gs = s.modPort a fun q => { q with writes := q.writes ++ [⟨p.src, p.addr, gs, p.fromHub⟩] } := by
  unfold State.cellWrite
  rw [hm, if_neg Bool.false_ne_true]
  dsimp only
  rw [h]
  dsimp only
  rw [if_pos ⟨rfl, hb⟩]

/-- A WRITE that passes its tests reaches its cell. -/
theorem exec_packetDeliver_write {c : CellAddr} {s t : State} {p : Packet} {rest : List Packet} {gs : List Gran} (hc : cellValid c.toNat = true)
    (hg : s.gated c.toNat = false) (hq : (s.cell c.toNat).port.pkts = p :: rest) (hty : p.ty = 1)
    (h : (s.modPort c.toNat fun q => { q with pkts := rest }).checkPacket c.toNat p = (some gs, t)) :
    exec (.packetDeliver c) s = .next (t.cellWrite c.toNat p gs) := by
  change execPacketDeliver c s = _
  rw [execPacketDeliver, packetRow_taken hc hg hq (by simp [hty]) h, hty, if_pos rfl]
  rfl

theorem exec_packetDeliver_dropped {c : CellAddr} {s t : State} {p : Packet} {rest : List Packet} (hc : cellValid c.toNat = true)
    (hg : s.gated c.toNat = false) (hq : (s.cell c.toNat).port.pkts = p :: rest) (h2 : p.ty ≠ 2) (h3 : p.ty ≠ 3) (h6 : p.ty ≠ 6)
    (h : (s.modPort c.toNat fun q => { q with pkts := rest }).checkPacket c.toNat p = (none, t)) :
    exec (.packetDeliver c) s = .next (t.owe (c.toNat / 32) false p.fromHub) := by
  change execPacketDeliver c s = _
  rw [execPacketDeliver, packetRow_dropped hc hg hq (by simp [h2, h3, h6]) h]

/-- Settles O37: the row of a packet's type serves it when its tests pass, and drops it by the first that fails. -/
theorem cellPackets : Obligations.CellPackets := by
  refine fun c p rest s hc hq hg => ⟨fun hf h2 h3 h6 => ?_, fun hf hm hh h2 h3 h6 => ?_, fun hf hm hh hfr h2 h3 h6 => ?_,
    fun hf hm hh hfr => ⟨fun hty hp hl o ho hb => ?_, fun hty hp o ho => ?_, fun hty hp hl e he hu => ?_, fun hty hp hl o ecc ho hal hb => ?_, fun hty hp hl => ?_⟩⟩
  · exact exec_packetDeliver_dropped hc hg hq h2 h3 h6 (State.checkPacket_fenced hf)
  · exact exec_packetDeliver_dropped hc hg hq h2 h3 h6 (State.checkPacket_badHeader hf hm hh)
  · exact exec_packetDeliver_dropped hc hg hq h2 h3 h6 (State.checkPacket_stale hf hm hh hfr)
  · exact (exec_packetDeliver_write hc hg hq hty (State.checkPacket_sound hf hm hh hfr hp hl)).trans
      (congrArg _ (State.cellWrite_of_inside hm ho hb))
  · obtain ⟨gs, hgs, hpoison⟩ := State.checkPacket_poisoned (s := s.modPort c.toNat fun q => { q with pkts := rest }) hf hm hh hfr hp
    refine ⟨_, exec_packetDeliver_write hc hg hq hty hgs, fun w hw hno => ?_⟩
    have hport : ((s.modPort c.toNat fun q => { q with pkts := rest }).cell c.toNat).port.writes = (s.cell c.toNat).port.writes := by
      rw [State.modPort, State.cell_modCell_self]
    rw [State.cellWrite_writes hm ho w hw (by rw [hport]; exact hno)]
    exact hpoison
  · change execPacketDeliver c s = _
    rw [execPacketDeliver, packetRow_taken hc hg hq (by simp [hty]) (State.checkPacket_sound hf hm hh hfr hp hl), hty, if_neg (by decide)]
    have hrecv : (((s.modPort c.toNat fun q => { q with pkts := rest }).owe (c.toNat / 32) false p.fromHub).chan (hIndex p.tag)).recv = some e := by
      rw [State.chan, State.owe_chans]
      exact he
    dsimp only
    rw [State.cellMessage, hrecv]
    exact congrArg _ (if_pos (.inl hu))
  · change execPacketRead c ecc s = _
    rw [execPacketRead, packetRow_taken hc hg hq (by rw [hty]; rfl) (State.checkPacket_sound hf hm hh hfr hp hl), hty, if_neg (by decide)]
    dsimp only
    rw [ho]
    exact congrArg _ (if_pos ⟨rfl, hal, hb⟩)
  · change execReadData c s = _
    rw [execReadData, packetRow_taken hc hg hq (by rw [hty]; rfl) (State.checkPacket_sound hf hm hh hfr hp hl), hty, if_neg (by decide)]

end Sys2Proof.Machine
end

section
/-! PROOFS. Arrivals at queue endpoints, chorus queues and gates (O38). -/

namespace Sys2Proof.Machine
open Sys2Proof.Says

/-! ### Endpoints beside the local port -/

section
variable (s : State) (a n : Nat) (f : PortSt → PortSt)

theorem State.ep_modPort (b : Nat) : (s.modPort a f).ep b n = s.ep b n := by
  unfold State.ep State.modPort
  by_cases h : b = a
  · rw [h, State.cell_modCell_self]
  · rw [State.cell_modCell_ne _ _ h]

theorem State.aux_modPort : (s.modPort a f).aux a n = s.aux a n := by
  unfold State.aux State.modPort
  rw [State.cell_modCell_self]

theorem State.fed_ep : (s.fed a n).ep a n = { (if (s.ep a n).starveAt.isSome then (s.ep a n).starveTo (s.cellClk a) else s.ep a n) with starveAt := none } := by
  unfold State.fed
  rw [State.ep_modEp_self]

theorem State.fed_modPort_ep : ((s.modPort a f).fed a n).ep a n = (s.fed a n).ep a n := by
  rw [State.fed_ep, State.fed_ep, State.ep_modPort]
  rfl

theorem State.onlyCell_modPort : OnlyCell a s (s.modPort a f) := fun _ hd => State.cell_modCell_ne _ _ hd

/-- What a consumer waits for changes its count of starve cycles only. -/
theorem State.fed_rtail : ((s.fed a n).ep a n).rtail = (s.ep a n).rtail := by
  rw [State.fed_ep]
  dsimp only
  split <;> rfl

end

/-! ### A message that lands -/

/-- A message lands whole at the tail of a queue without wings. -/
theorem State.landMsg_stored {s : State} {a n : Nat} {m : Msg} (hpad : m.pad = 0) (hw : epWings (s.ep a n).cfg = 0)
    (hsize : epStorage (s.ep a n).cfg ≠ 0) :
    s.landMsg a n m = ((s.fed a n).writeWords a (epBase (s.ep a n).cfg + 32 * (s.ep a n).rtail) m.grans).modEp a n fun e =>
      { e with recs := e.recs ++ [⟨false, e.rtail, m.grans.length, m.num⟩]
               rtail := (e.rtail + m.grans.length) % epStorage (s.ep a n).cfg } := by
  unfold State.landMsg
  dsimp only
  rw [if_neg (not_not_intro hpad), if_pos hw, if_pos hpad]
  simp only [if_neg hsize]

section
variable {c : CellAddr} {n : Nat} {m : Msg} {ms : List Msg} {s : State} (hc : cellValid c.toNat = true) (hn : n < 32)
  (hq : SMap.getD (s.cell c.toNat).port.msgs n [] = m :: ms) (hg : s.gated c.toNat = false)
include hc hn hq hg

/-- The first message that waits for an endpoint that is no chorus queue. -/
theorem exec_messageArrival (hk : epKind (s.ep c.toNat n).cfg ≠ 2) :
    exec (.messageArrival c n) s = .next (
      let s := s.modPort c.toNat fun p => { p with msgs := SMap.put p.msgs n ms }
      if s.striking then s
      else match s.rejectMsg c.toNat n m with
      | some r => s.applyReject c.toNat n m r
      | none => s.landMsg c.toNat n m) := by
  change execMessageArrival c n s = _
  have hu : decide (cellValid c.toNat = true ∧ n < 32) = true := decide_eq_true ⟨hc, hn⟩
  rw [execMessageArrival, hu, onUnit_true, hg, Bool.not_false, when_true]
  dsimp only
  rw [hq]
  generalize epKind (s.ep c.toNat n).cfg = k at hk
  split
  · exact absurd rfl hk
  · next heq h =>
    obtain ⟨rfl, rfl⟩ := List.cons.inj heq
    rfl
  · next heq h => exact nomatch heq

/-- The first flit that waits for a chorus queue. -/
theorem exec_chorusContribution (hk : epKind (s.ep c.toNat n).cfg = 2) (ecc : List EccEvent) :
    exec (.chorusContribution ⟨c, ecc⟩ n) s = .next (
      let s := s.modPort c.toNat fun p => { p with msgs := SMap.put p.msgs n ms }
      if s.striking then s else s.chorusFlit c.toNat n m ecc) := by
  change execChorusContribution ⟨c, ecc⟩ n s = _
  have hu : decide (cellValid c.toNat = true ∧ n < 32) = true := decide_eq_true ⟨hc, hn⟩
  rw [execChorusContribution, hu, onUnit_true, hg, Bool.not_false, when_true]
  dsimp only
  rw [hq, hk]
  rfl
end

/-- What a message leaves when it lands: its bytes at the tail, its record in the queue, and nothing else. -/
theorem State.landMsg_leaves {s : State} {a n : Nat} {m : Msg} {ms : List Msg} (hpad : m.pad = 0) (hw : epWings (s.ep a n).cfg = 0)
    (hsize : epStorage (s.ep a n).cfg ≠ 0) (hbase : epBase (s.ep a n).cfg % 32 = 0) (hlen : ∀ g ∈ m.grans, g.data.length = 32) :
    let e := (s.fed a n).ep a n
    let o := spAddr a (epBase (s.ep a n).cfg + 32 * e.rtail)
    let t := (s.modPort a fun p => { p with msgs := SMap.put p.msgs n ms }).landMsg a n m
    t.bytes o (32 * m.grans.length) = m.grans.flatMap (·.data) ∧
      (∀ x, x < o ∨ o + 32 * m.grans.length ≤ x → t.byte x = s.byte x) ∧
      t.ep a n = { e with recs := e.recs ++ [⟨false, e.rtail, m.grans.length, m.num⟩], rtail := (e.rtail + m.grans.length) % epStorage (s.ep a n).cfg } ∧
      t.regs = s.regs ∧ t.chans = s.chans ∧ OnlyCell a s t := by
  have hep := State.ep_modPort s a n (fun p => { p with msgs := SMap.put p.msgs n ms }) a
  have hfed := State.fed_modPort_ep s a n (fun p => { p with msgs := SMap.put p.msgs n ms })
  have honly := State.onlyCell_modPort s a (fun p => { p with msgs := SMap.put p.msgs n ms })
  have hby : ∀ x, (s.modPort a fun p => { p with msgs := SMap.put p.msgs n ms }).byte x = s.byte x := fun _ => rfl
  have hregs : (s.modPort a fun p => { p with msgs := SMap.put p.msgs n ms }).regs = s.regs := rfl
  have hchans : (s.modPort a fun p => { p with msgs := SMap.put p.msgs n ms }).chans = s.chans := rfl
  generalize s.modPort a (fun p => { p with msgs := SMap.put p.msgs n ms }) = u at *
  have honlyFed : OnlyCell a u (u.fed a n) := fun d hd => State.cell_modCell_ne _ _ hd
  dsimp only
  rw [State.landMsg_stored hpad (by rw [hep]; exact hw) (by rw [hep]; exact hsize), hep, ← hfed, State.fed_rtail]
  obtain ⟨hframe, hbytes, hkept, -, -⟩ := wordsStored_writeWords a m.grans (u.fed a n) (o := epBase (s.ep a n).cfg + 32 * (u.ep a n).rtail) (by omega) hlen
  rw [hep] at hframe hbytes hkept
  have hrt := State.fed_rtail u a n
  rw [hep] at hrt
  have hkept' : ∀ x, (u.fed a n).byte x = u.byte x := fun _ => rfl
  have hr' : (u.fed a n).regs = u.regs := rfl
  have hc' : (u.fed a n).chans = u.chans := rfl
  rw [hep]
  generalize (u.fed a n).writeWords a (epBase (s.ep a n).cfg + 32 * (s.ep a n).rtail) m.grans = t at *
  have hcells : t.cells = (u.fed a n).cells := by rw [hframe]
  have hept : t.ep a n = (u.fed a n).ep a n := by rw [State.ep, State.ep, State.cell_of_cells hcells]
  refine ⟨(State.bytes_congr (s := t.modEp a n _) (t := t) (fun _ => rfl) _ _).trans hbytes, fun x hx => (hkept x hx).trans ((hkept' x).trans (hby x)), ?_, ?_, ?_, fun d hd => ?_⟩
  · rw [State.ep_modEp_self, hept, hrt]
  · rw [State.modEp, State.modCell_regs, hframe]
    exact hr'.trans hregs
  · rw [State.modEp, State.modCell_chans, hframe]
    exact hc'.trans hchans
  · rw [State.modEp, State.cell_modCell_ne _ _ hd, State.cell_of_cells hcells]
    exact (honlyFed d hd).trans (honly d hd)

/-! ### Contributions -/

section
variable {s : State} {a n : Nat} {m : Msg} {ecc : List EccEvent}

/-- A flit of a contribution that is being discarded. -/
theorem State.chorusFlit_skipped (h : (decide (m.start ≠ 0) && (s.aux a n).skip.contains (hIndex m.handle)) = true) :
    s.chorusFlit a n m ecc = s.chorusSkip a n m true := by
  rw [Bool.and_eq_true, decide_eq_true_eq] at h
  unfold State.chorusFlit
  exact if_pos h

section
variable (h : (decide (m.start ≠ 0) && (s.aux a n).skip.contains (hIndex m.handle)) = false)
include h

theorem State.chorusFlit_rejected {j : Reject} (hj : s.rejectMsg a n m = some j) :
    s.chorusFlit a n m ecc = (s.applyReject a n m j).chorusSkip a n m true := by
  have h' : ¬(m.start ≠ 0 ∧ (s.aux a n).skip.contains (hIndex m.handle) = true) := by
    rw [← decide_eq_true_eq (p := m.start ≠ 0), ← Bool.and_eq_true, h]
    exact Bool.false_ne_true
  unfold State.chorusFlit
  refine (if_neg h').trans ?_
  rw [hj]

variable (hj : s.rejectMsg a n m = none) {fits : Bool}
  (hfits : (decide ((epItem (s.ep a n).cfg m.num + 2 ^ 32 - (s.aux a n).base) % 2 ^ 32 < epSlots (s.ep a n).cfg) &&
    !(SMap.getD (s.aux a n).slots (epItem (s.ep a n).cfg m.num) ⟨epItem (s.ep a n).cfg m.num, 0, false⟩).released &&
    decide (m.start + m.grans.length ≤ epContrib (s.ep a n).cfg) &&
    (!m.final || m.start + m.grans.length == epContrib (s.ep a n).cfg)) = fits)
include hj hfits

/-- A sound flit is added where it fits, and its contribution dropped with a fault where it does not. -/
theorem State.chorusFlit_sound : s.chorusFlit a n m ecc =
    if fits then (s.chorusTake a n (epItem (s.ep a n).cfg m.num) m ecc).chorusSkip a n m false
    else ((s.dropMsg a n).cellFault a 3).chorusSkip a n m true := by
  have h' : ¬(m.start ≠ 0 ∧ (s.aux a n).skip.contains (hIndex m.handle) = true) := by
    rw [← decide_eq_true_eq (p := m.start ≠ 0), ← Bool.and_eq_true, h]
    exact Bool.false_ne_true
  unfold State.chorusFlit
  refine (if_neg h').trans ?_
  rw [hj]
  dsimp only
  have hnot : ∀ b c d e : Bool, (!b || c || d || e) = !(b && !c && !d && !e) := by decide
  have hle : ∀ x y : Nat, decide (x ≤ y) = !decide (y < x) := fun x y => by
    rw [← decide_not, decide_eq_decide, Nat.not_lt]
  have hfin : ∀ b c : Bool, (!b || c) = !(b && !c) := by decide
  rw [hle, hfin] at hfits
  rw [hnot]
  change (if (!(_ && _ && _ && !(m.final && !(m.start + m.grans.length == epContrib (s.ep a n).cfg)))) = true then _ else _) = _
  rw [hfits]
  cases fits <;> rfl
end
end

/-! ### Items of the side lane -/

theorem exec_cueArrival {c : CellAddr} {s : State} {it : Item} {rest : List Item} (hc : cellValid c.toNat = true)
    (hq : (s.cell c.toNat).port.inbox = it :: rest) (hg : s.gated c.toNat = false) (hty : it.ty = 1) (ecc : List EccEvent) :
    exec (.cueArrival ⟨c, ecc⟩) s = .next (
      let a := c.toNat
      let s := s.modPort a fun p => { p with inbox := rest }
      let e := s.ep a it.dstEp
      if s.striking then s
      else if epKind e.cfg = 3 ∧ !epSends e.cfg ∧ !(s.aux a it.dstEp).draining then
        let o := epBase e.cfg + 8 * e.rtail
        let v := it.w1 % 2 ^ 32 + (it.tag % 256) <<< 32
        ((s.fed a it.dstEp).writePart a o (toLE 8 v) false ecc).modEp a it.dstEp fun e =>
          { e with recs := e.recs ++ [⟨false, e.rtail, 1, it.tag⟩], rtail := (e.rtail + 1) % epStorage e.cfg }
      else s.dropMsg a it.dstEp) := by
  change execCueArrival ⟨c, ecc⟩ s = _
  rw [execCueArrival, onPort_of_running hc hg]
  dsimp only
  rw [hq]
  exact congrArg _ (if_pos hty)

/-- Settles O38: an arrival is judged by its endpoint, and what it leaves follows from the branch it takes. -/
theorem channelArrivals : Obligations.ChannelArrivals := by
  refine ⟨fun c n m ms s hc hn hq hg => ⟨fun hs hk => ?_, fun hs hk ecc => ?_, fun hs hk hrej hpad hw hsize hbase hlen => ?_, fun hs hk j hj => ?_,
      fun hs hk ecc => ⟨fun hskip => ?_, fun hskip j hj => ?_, fun hskip hj => ⟨fun hfits => ?_, fun hfits => ?_⟩⟩⟩,
    fun c it rest s hc hq hg => ⟨fun hty hs ecc => ?_, fun hty hs hk hsend hdr ecc => ?_, fun hty => ?_, fun hty => ?_⟩,
    fun c n s hc hn hf hg => ⟨fun hu ht => ?_, fun w ws ecc hwing hroom => ?_⟩⟩
  · exact (exec_messageArrival hc hn hq hg hk).trans (congrArg _ (if_pos hs))
  · exact (exec_chorusContribution hc hn hq hg hk ecc).trans (congrArg _ (if_pos hs))
  · obtain ⟨hbytes, hkept, hep, hregs, hchans, honly⟩ := State.landMsg_leaves (ms := ms) hpad hw hsize hbase hlen
    refine ⟨_, (exec_messageArrival hc hn hq hg hk).trans (congrArg _ ((if_neg (ne_true_of_eq_false hs)).trans ?_)),
      hbytes, hkept, hep, hregs, hchans, honly⟩
    rw [hrej]
  · refine (exec_messageArrival hc hn hq hg hk).trans (congrArg _ ((if_neg (ne_true_of_eq_false hs)).trans ?_))
    rw [hj]
  · exact (exec_chorusContribution hc hn hq hg hk ecc).trans (congrArg _ ((if_neg (ne_true_of_eq_false hs)).trans
      (State.chorusFlit_skipped (by rw [State.aux_modPort]; exact hskip))))
  · exact (exec_chorusContribution hc hn hq hg hk ecc).trans (congrArg _ ((if_neg (ne_true_of_eq_false hs)).trans
      (State.chorusFlit_rejected (by rw [State.aux_modPort]; exact hskip) hj)))
  · refine (exec_chorusContribution hc hn hq hg hk ecc).trans (congrArg _ ((if_neg (ne_true_of_eq_false hs)).trans
      ((State.chorusFlit_sound (fits := true) (by rw [State.aux_modPort]; exact hskip) hj ?_).trans ?_)))
    · rw [State.aux_modPort, State.ep_modPort]
      exact hfits
    · rw [if_pos rfl, State.ep_modPort]
  · refine (exec_chorusContribution hc hn hq hg hk ecc).trans (congrArg _ ((if_neg (ne_true_of_eq_false hs)).trans
      (State.chorusFlit_sound (fits := false) (by rw [State.aux_modPort]; exact hskip) hj ?_)))
    rw [State.aux_modPort, State.ep_modPort]
    exact hfits
  · exact (exec_cueArrival hc hq hg hty ecc).trans (congrArg _ (if_pos hs))
  · refine (exec_cueArrival hc hq hg hty ecc).trans (congrArg _ ((if_neg (ne_true_of_eq_false hs)).trans ((if_pos ?_).trans ?_)))
    · rw [State.ep_modPort, State.aux_modPort, hsend, hdr]
      exact ⟨hk, rfl, rfl⟩
    · rw [State.ep_modPort, Nat.shiftLeft_eq]
  · change execCreditItem c s = _
    rw [execCreditItem, onPort_of_running hc hg, hq]
    exact congrArg _ (if_pos hty)
  · change execChorusWindowItem c s = _
    rw [execChorusWindowItem, onPort_of_running hc hg, hq]
    exact congrArg _ (if_pos hty)
  · change execCreditFlushTimer c n s = _
    have hv : decide (cellValid c.toNat = true ∧ n < 32) = true := decide_eq_true ⟨hc, hn⟩
    have hwhen : decide ((!s.fenced c.toNat) = true ∧ (!s.gated c.toNat) = true ∧ (s.ep c.toNat n).unsent ≠ 0 ∧ (s.ep c.toNat n).unsentSince + 1000 ≤ s.now) = true :=
      decide_eq_true ⟨by rw [hf]; rfl, by rw [hg]; rfl, hu, ht⟩
    rw [execCreditFlushTimer, hv, onUnit_true]
    dsimp only
    rw [hwhen, when_true]
  · refine fun hkeep => ?_
    change execWingMove ⟨c, ecc⟩ n s = _
    have hv : decide (cellValid c.toNat = true ∧ n < 32) = true := decide_eq_true ⟨hc, hn⟩
    rw [execWingMove, hv, onUnit_true]
    dsimp only
    rw [hwing]
    exact congrArg _ ((if_pos ⟨by rw [hf]; rfl, by rw [hg]; rfl, hroom⟩).trans (if_neg (ne_true_of_eq_false hkeep)))
end Sys2Proof.Machine
end

section
/-! PROOFS. Gates, stalls and the end of channels (O39). -/

namespace Sys2Proof.Machine
open Sys2Proof.Says

/-! ### A gate's step -/

section
variable {s : State} {a n : Nat} {ecc : List EccEvent}

theorem State.gateStep_data (hcue : s.hasMsg a (epGateCue (s.ep a n).cfg) = false) (hm : epMerge (s.ep a n).cfg = false) (hd : s.hasMsg a n = true) :
    s.gateStep a n ecc = s.gateWaits a n true := by
  unfold State.gateStep
  dsimp only
  rw [hcue, hm, hd]
  rfl

section
variable (hcue : s.hasMsg a (epGateCue (s.ep a n).cfg) = true)
include hcue

theorem State.gateStep_mismatch (h : (s.headCue a (epGateCue (s.ep a n).cfg)).2 ≠ (s.aux a n).gateTag ∨
    epGateN (s.ep a n).cfg < (s.headCue a (epGateCue (s.ep a n).cfg)).1 % 4) : s.gateStep a n ecc = s.gateFault a n := by
  unfold State.gateStep
  exact (if_pos hcue).trans (if_pos h)

variable {v tag src dst : Nat} (hv : (s.headCue a (epGateCue (s.ep a n).cfg)).1 = v) (htag : (s.headCue a (epGateCue (s.ep a n).cfg)).2 = tag)
  (hsrc : (if epMerge (s.ep a n).cfg then epGatePort (s.ep a n).cfg (v % 4) else n) = src)
  (hdst : (if epMerge (s.ep a n).cfg then n else epGatePort (s.ep a n).cfg (v % 4)) = dst)
  (ht : tag = (s.aux a n).gateTag) (hp : v % 4 ≤ epGateN (s.ep a n).cfg)
include hv htag hsrc hdst ht hp

/-- With its cue as expected, a gate acts by its data and by the cue's value. -/
theorem State.gateStep_cue : s.gateStep a n ecc =
    if !s.hasMsg a src then s.gateWaits a n false
    else if !epMerge (s.ep a n).cfg ∧ (s.headRec a n).num % 256 ≠ tag then s.gateFault a n
    else if bitAt v 2 then s.gateCue a n (epGateCue (s.ep a n).cfg) ecc fun s => s.consume a src (s.peekHead a src)
    else s.gateMove a n (epGateCue (s.ep a n).cfg) src dst ecc := by
  unfold State.gateStep
  refine (if_pos hcue).trans ?_
  rw [hv, htag]
  refine (if_neg (by omega)).trans ?_
  dsimp only
  rw [hsrc, hdst]
end

theorem State.gateCue_passes {cue : Nat} {go : State → State} (hf : (s.readCue a cue ecc).2.fenced a = false) (hp : (s.readCue a cue ecc).1 = false) :
    s.gateCue a n cue ecc go = ((go (s.readCue a cue ecc).2).takeCue a cue).gatePassed a n := by
  unfold State.gateCue
  exact (if_neg (ne_true_of_eq_false hf)).trans (if_neg (ne_true_of_eq_false hp))

theorem exec_gateStep {c : CellAddr} (hc : cellValid c.toNat = true) (hn : n < 32) (hr : s.mayRun c.toNat = true)
    (hg : epGate (s.ep c.toNat n).cfg = true) (hs : (s.aux c.toNat n).gateStopped = false) :
    exec (.gateStep c n ecc) s = .next (s.gateStep c.toNat n ecc) := by
  change execGateStep c n ecc s = _
  have hv : decide (cellValid c.toNat = true ∧ n < 32) = true := decide_eq_true ⟨hc, hn⟩
  rw [execGateStep, hv, onUnit_true, hr, hg, hs]
  rfl
end

/-! ### The end of a channel -/

theorem SMap.mem_put {α : Type} {m : SMap α} {k : Nat} {v : α} {p : Nat × α} (h : p ∈ SMap.put m k v) : p = (k, v) ∨ p ∈ m :=
  ((SMap.mem_ins _ _ _ _).1 h).imp_right fun h => (SMap.del_sublist m k).subset h

theorem State.clearEp_self (s : State) (a n : Nat) : (s.clearEp a n).ep a n = { EpSt.init with cfg := (s.ep a n).cfg } := by
  unfold State.clearEp
  rw [State.ep, State.modAux, State.cell_modCell_self]
  exact State.ep_modEp_self s a n _

theorem State.clearEp_ne (s : State) {a n b m : Nat} (h : ¬(b = a ∧ m = n)) : (s.clearEp a n).ep b m = s.ep b m := by
  unfold State.clearEp
  by_cases hb : b = a
  · rw [hb, State.ep, State.modAux, State.cell_modCell_self]
    exact State.ep_modEp_ne s _ fun hm => h ⟨hb, hm⟩
  · rw [State.ep, State.modAux, State.cell_modCell_ne _ _ hb, State.modEp, State.cell_modCell_ne _ _ hb]
    rfl

/-- Both ends of a channel cleared, in the cells, and its index freed. -/
def State.chanGone (s : State) (k : Nat) (x y : ChanEnd) : State :=
  let s := (s.clearEp x.unit x.ep).clearEp y.unit y.ep
  let s := s.modChan k fun c => { ChanSt.init with gen := nextGen c.gen }
  { s with hub := { s.hub with eps := SMap.del s.hub.eps k } }

theorem exec_channelDrainDone {s : State} {k : Nat} {x y : ChanEnd} (hk : k < 65536) (hd : (s.chan k).draining = true) (hl : s.chanLeft k = false)
    (hx : (s.chan k).send = some x) (hy : (s.chan k).recv = some y) (hxu : x.unit < 0xF000) (hyu : y.unit < 0xF000)
    (hnext : ∀ p ∈ s.chans, p.2.next = none) : exec (.channelDrainDone k) s = .next (s.chanGone k x y).watch := by
  change execChannelDrainDone k s = _
  rw [execChannelDrainDone, decide_eq_true hk, onUnit_true]
  dsimp only
  rw [hd, hl, hx, hy]
  refine congrArg _ ((if_pos rfl).trans (congrArg State.watch ?_))
  dsimp only
  rw [if_pos hxu, if_pos hyu]
  refine List.foldlRecOn (motive := fun t : State => t = s.chanGone k x y) _ _ rfl fun t ht p hp => ?_
  have hn : p.2.next = none := (SMap.mem_put hp).elim (fun h => h ▸ rfl) fun h => hnext p h
  rw [hn]
  exact ht

/-- What the end of a channel leaves. -/
theorem State.chanGone_leaves (s : State) (k : Nat) (x y : ChanEnd) :
    (s.chanGone k x y).chan k = { ChanSt.init with gen := nextGen (s.chan k).gen } ∧
      (∀ j, j ≠ k → (s.chanGone k x y).chan j = s.chan j) ∧
      (s.chanGone k x y).ep x.unit x.ep = { EpSt.init with cfg := (s.ep x.unit x.ep).cfg } ∧
      (s.chanGone k x y).ep y.unit y.ep = { EpSt.init with cfg := (s.ep y.unit y.ep).cfg } ∧
      (s.chanGone k x y).regs = s.regs ∧ (s.chanGone k x y).mem = s.mem := by
  have hep : ∀ b m, (s.chanGone k x y).ep b m = ((s.clearEp x.unit x.ep).clearEp y.unit y.ep).ep b m := fun _ _ => rfl
  have hch : ∀ j, (s.chanGone k x y).chan j =
      (((s.clearEp x.unit x.ep).clearEp y.unit y.ep).modChan k fun c => { ChanSt.init with gen := nextGen c.gen }).chan j := fun _ => rfl
  have hsame : ∀ j, ((s.clearEp x.unit x.ep).clearEp y.unit y.ep).chan j = s.chan j := fun j => by
    simp only [State.chan, State.clearEp, State.modAux, State.modEp, State.modCell_chans]
  refine ⟨?_, fun j hj => ?_, ?_, ?_, ?_, ?_⟩
  · rw [hch, State.chan_modChan_self, hsame]
  · rw [hch, State.chan_modChan_ne _ _ hj, hsame]
  · rw [hep]
    by_cases hxy : x.unit = y.unit ∧ x.ep = y.ep
    · rw [hxy.1, hxy.2, State.clearEp_self, State.clearEp_self]
    · rw [State.clearEp_ne _ hxy, State.clearEp_self]
  · rw [hep, State.clearEp_self]
    by_cases hyx : y.unit = x.unit ∧ y.ep = x.ep
    · rw [hyx.1, hyx.2, State.clearEp_self]
    · rw [State.clearEp_ne _ hyx]
  · simp only [State.chanGone, State.clearEp, State.modAux, State.modEp, State.modCell_regs, State.modChan]
  · simp only [State.chanGone, State.clearEp, State.modAux, State.modEp, State.modCell_mem, State.modChan]

/-- Settles O39: a gate's step goes by its cue and its data; the other commands follow the branch that their conditions name. -/
theorem channelControl : Obligations.ChannelControl := by
  refine ⟨fun c n ecc s hc hn => ⟨fun hr hg hs => ?_, fun t ht hrun hlim => ?_, fun t ht hrun hg hlim => ?_⟩,
    fun k x y s hk hd hl hx hy hxu hyu hnext => ?_, fun s hrun hh => ?_⟩
  · have hex := exec_gateStep (ecc := ecc) hc hn hr hg hs
    refine ⟨fun hcue hm hd => ?_, fun hcue h => ?_, fun hcue ht hp => ?_⟩
    · rw [hex, State.gateStep_data hcue hm hd]
    · rw [hex, State.gateStep_mismatch hcue h]
    · have hgate := hex.trans (congrArg _ (State.gateStep_cue hcue rfl rfl rfl rfl ht hp))
      refine ⟨fun hsrc => ?_, fun hsrc hm hnum => ?_, fun hsrc hmn => ⟨fun hdis => ?_, fun hdis => ⟨fun hno => ?_, fun hyes => ?_⟩⟩⟩
      · exact hgate.trans (congrArg _ (if_pos (by rw [hsrc]; rfl)))
      · exact hgate.trans (congrArg _ ((if_neg (by rw [hsrc]; exact Bool.false_ne_true)).trans (if_pos ⟨by rw [hm]; rfl, hnum⟩)))
      all_goals
        have hok : ¬((!epMerge (s.ep c.toNat n).cfg) = true ∧
            (s.headRec c.toNat n).num % 256 ≠ (s.headCue c.toNat (epGateCue (s.ep c.toNat n).cfg)).2) := by
          rintro ⟨hm, hnum⟩
          obtain h | h := hmn
          · rw [h] at hm
            exact Bool.false_ne_true hm
          · exact hnum h
        have hgate := hgate.trans (congrArg _ ((if_neg (by rw [hsrc]; exact Bool.false_ne_true)).trans (if_neg hok)))
      · exact fun hf hp => hgate.trans (congrArg _ ((if_pos hdis).trans (State.gateCue_passes hf hp)))
      · have hgate := hgate.trans (congrArg _ (if_neg (ne_true_of_eq_false hdis)))
        unfold State.gateMove at hgate
        exact hgate.trans (congrArg _ (if_neg (ne_true_of_eq_false hno)))
      · have hgate := hgate.trans (congrArg _ (if_neg (ne_true_of_eq_false hdis)))
        unfold State.gateMove at hgate
        exact fun hf hf' hp => hgate.trans (congrArg _ ((if_pos hyes).trans ((if_neg (ne_true_of_eq_false hf)).trans (State.gateCue_passes hf' hp))))
  · change execChannelStall c n s = _
    have hv : decide (cellValid c.toNat = true ∧ n < 32) = true := decide_eq_true ⟨hc, hn⟩
    rw [execChannelStall, hv, onUnit_true, ht]
    dsimp only
    rw [decide_eq_true ⟨hrun, hlim⟩, when_true]
  · change execCueTimeout c n s = _
    have hv : decide (cellValid c.toNat = true ∧ n < 32) = true := decide_eq_true ⟨hc, hn⟩
    rw [execCueTimeout, hv, onUnit_true, ht]
    dsimp only
    rw [decide_eq_true ⟨hrun, hg, hlim⟩, when_true]
  · exact ⟨_, exec_channelDrainDone hk hd hl hx hy hxu hyu hnext, State.chanGone_leaves s k x y⟩
  · change execHangDeclare s = _
    rw [execHangDeclare, hrun, hh]
    rfl

end Sys2Proof.Machine
end

section
/-! PROOFS. Acts, curtains, prompts and tokens (O40). -/

namespace Sys2Proof.Machine
open Sys2Proof.Says

theorem SMap.getD_mapVal {α β : Type} (f : Nat → α → β) (m : SMap α) (a : Nat) (d : α) (e : β) (h : f a d = e) :
    SMap.getD (SMap.mapVal f m) a e = f a (SMap.getD m a d) := by
  simp only [SMap.getD, SMap.get?_mapVal]
  cases SMap.get? m a with
  | none => exact h.symm
  | some x => rfl

/-- An act-gated cell is released. -/
def CellSt.released (x : CellSt) : CellSt := if x.scene.phase = .gated then { x with scene := { x.scene with phase := .ready } } else x

/-- The next act opens, in the state `s`. -/
def State.opened (s : State) (num o cur kind : Nat) : State :=
  let s := s.modActs fun a => { a with queue := takeAct a.queue, cur := some ⟨num, o, cur, kind, s.acts.restart, false, s.acts.fixed.getD (s.rosterOf kind)⟩
                                       fixed := none, restart := false }
  { s with cells := SMap.mapVal (fun _ x => x.released) s.cells }

section
variable {s : State} {num o cur kind : Nat}

theorem State.cell_opened (c : Nat) : (s.opened num o cur kind).cell c = (s.cell c).released :=
  SMap.getD_mapVal (fun _ x => CellSt.released x) s.cells c .init .init rfl

theorem exec_actOpen (hc : s.acts.cur = none) (hn : s.nextAct = some (num, o, cur, kind)) (hr : s.isIn .running = true) (ho : o ≤ s.now)
    (hcur : s.now < cur) : exec .actOpen s = .next (s.opened num o cur kind) := by
  change execActOpen s = _
  rw [execActOpen, hc, hn]
  dsimp only
  rw [hr, decide_eq_true ho, decide_eq_true hcur]
  rfl
end

/-- An entry of a ring that its reader takes is passed. -/
theorem State.serveEntry_taken {s t : State} {i ty seq n : Nat} {e body : List Byte} {f : State → List Byte → Option State}
    (hr : s.readRing i e = .entry seq n body) (hty : ofLE (e.take 1) = ty) (hf : f s body = some t) :
    s.serveEntry i ty e f = t.passEntry i n true := by
  unfold State.serveEntry
  rw [hr]
  dsimp only
  rw [hf, hty, beq_self_eq_true, if_pos rfl]

/-- Settles O40: each command follows the branch that its conditions name. -/
theorem acts : Obligations.Acts := by
  refine ⟨fun s num o cur kind hc hn => ⟨fun hr ho hcur => ⟨_, exec_actOpen hc hn hr ho hcur, rfl, rfl, rfl, rfl, State.cell_opened, rfl, rfl, rfl⟩, fun hcur => ?_⟩,
    fun s a ha hcur => ?_, fun s hr hc hq hp => ?_, fun k s hk hst => ⟨fun hre => ?_, fun mb e b hre => ?_⟩, fun r n seq entry body s t hr hread => ⟨fun hty ht => ?_, fun hty ht => ?_⟩⟩
  · change execCurtainCommit s = _
    rw [execCurtainCommit, hc, hn]
    exact congrArg _ (if_pos hcur)
  · change execCurtainCommit s = _
    rw [execCurtainCommit, ha]
    exact congrArg _ (if_pos hcur)
  · change execWatchdogPeriod s = _
    rw [execWatchdogPeriod, hr, hc, hq, decide_eq_true hp]
    rfl
  · change execSlotCloseDone k s = _
    rw [execSlotCloseDone, decide_eq_true hk, onUnit_true]
    refine congrArg _ ((if_pos hst).trans ?_)
    rw [hre]
  · change execSlotCloseDone k s = _
    rw [execSlotCloseDone, decide_eq_true hk, onUnit_true]
    refine congrArg _ ((if_pos hst).trans ?_)
    rw [hre]
  · change execPrompt r entry s = _
    rw [execPrompt, decide_eq_true hr, onUnit_true, hread]
    dsimp only
    rw [if_neg (by simp [ht]), State.serveEntry_taken hread hty ht]
  · change execEnrol r entry s = _
    rw [execEnrol, decide_eq_true hr, onUnit_true, hread]
    dsimp only
    rw [if_neg (by simp [ht]), State.serveEntry_taken hread hty ht]

end Sys2Proof.Machine
end

section
/-! PROOFS. The KV stager and KV pages (O41). -/

namespace Sys2Proof.Machine
open Sys2Proof.Says

/-! ### Bytes as granules -/

/-- A run cut into granules and joined again starts with the run's first granule. -/
theorem gransBytes_foldIdx (p : Nat → Bool) (cs : List (List Byte)) (i : Nat) (acc : List Gran) :
    gransBytes (foldIdx (fun i (a : List Gran) (c : List Byte) => a ++ [⟨c ++ List.replicate (32 - c.length) 0, p i⟩]) i acc cs) =
      gransBytes acc ++ cs.flatMap fun c => c ++ List.replicate (32 - c.length) 0 := by
  induction cs generalizing i acc with
  | nil => simp [foldIdx]
  | cons c cs ih =>
    rw [foldIdx, ih, List.flatMap_cons]
    simp [gransBytes]

/-- The first bytes of a run stand in its first granule. -/
theorem take_gransBytes_toGrans (p : Nat → Bool) {bs : List Byte} {n : Nat} (hn : n ≤ 32) (hb : n ≤ bs.length) :
    (gransBytes (toGrans p bs)).take n = bs.take n := by
  have h : gransBytes (toGrans p bs) = (chunks 32 bs.length bs).flatMap fun c => c ++ List.replicate (32 - c.length) 0 :=
    (gransBytes_foldIdx p _ 0 []).trans (List.nil_append _)
  rw [h]
  cases bs with
  | nil => rw [Nat.le_zero.1 hb]; rfl
  | cons b bs =>
    rw [List.length_cons, chunks, if_neg (by simp), List.flatMap_cons, List.append_assoc,
      List.take_append_of_le_length (by rw [List.length_take]; omega), List.take_take, Nat.min_eq_left hn]

theorem length_toLE (n x : Nat) : (toLE n x).length = n := by
  induction n generalizing x with
  | zero => rfl
  | succ n ih => rw [toLE, List.length_cons, ih]

/-! ### Accepted requests -/

theorem stagerRow_judged {t op : Nat} {s : State} {f : Ticket → State → State} {k : Ticket} (hw : s.workable t op = some k) (hj : k.judged = true) :
    stagerRow t op s f = .next (f k s) := by
  rw [stagerRow, hw]
  exact congrArg _ (if_pos hj)

/-- An accepted APPEND whose rows have not gone out. -/
theorem exec_append {t : Nat} {k : Ticket} {s : State} {ecc : List EccEvent} (hw : s.workable t 2 = some k) (hj : k.judged = true) (ho : k.out = 0) :
    exec (.append t ecc) s = .next (
      match s.appendRows k with
      | none => s.modTicket t fun k => { k with status := 0x14 }
      | some (c, o, _) =>
        match s.takePages ((s.slot k.slot).newPages k).length with
        | none => (s.modTicket t fun k => { k with status := 0x03 }).modSlot k.slot fun x => { x with stage := { x.stage with noPages := true } }
        | some q =>
          let s := q.2.modSlot k.slot fun x => { x with stage := { x.stage with
            pages := (((s.slot k.slot).newPages k).zip q.1).foldl (fun m p => SMap.put m p.1 p.2) x.stage.pages
            toks := x.stage.toks ++ (List.range k.count).map fun i => (k.layer, k.first + i)
            landing := x.stage.landing + 1 } }
          if s.fenced c then s.modTicket t fun k => { k with status := 0x15 }
          else
            let x := s.slot k.slot
            let s := (List.range k.count).foldl (fun s i =>
              let g := s.readWords c (o + i * x.row) 2 ecc (x.row / 32)
              (g.2.request 0 0 0 x.row).writeGrans (x.rowAddr k.layer (x.len + k.first + i)) g.1 []) s
            s.modTicket t fun k => { k with out := 1 }) := by
  change execAppend t ecc s = _
  rw [execAppend, stagerRow_judged hw hj, if_neg (not_not_intro ho)] <;> rfl

/-- A descriptor of the stager under way at a porter. -/
theorem exec_pageDelivery {p : Nat} {d : Desc} {k : Ticket} {s : State} (hp : p < 64) (hr : s.portersRun = true) (hd : (s.porter p).run = some d)
    (ho : d.owner = 1) (hph : (s.porter p).phase ≠ .moved) (hk : SMap.get? s.kv.tickets d.ticket = some k) (dram : List DramErr) :
    exec (.pageDelivery p dram) s = .next (if k.status = 0 then s.porterGo p d ⟨[], dram, false, [], 0⟩ else s.porterEnd p 6 0) := by
  have hhead : s.porterHead p (fun d => d.owner == 1) = s := by
    unfold State.porterHead
    dsimp only
    rw [hd]
  change execPageDelivery p dram s = _
  rw [execPageDelivery, decide_eq_true hp, onUnit_true]
  refine congrArg _ ((if_pos hr).trans ?_)
  dsimp only
  rw [hhead, hd]
  refine (if_pos ⟨ho, hph⟩).trans ?_
  rw [hk]

/-- ROSTER delivers its entries in the range, after the act's number. -/
theorem exec_roster {t : Nat} {k : Ticket} {s : State} {r : List RosterEnt} (hw : s.workable t 1 = some k) (hj : k.judged = true) (hcl : k.closed = false)
    (hroom : s.porterRoom k.porter = true) (hr : s.rosterIn k.act = some r) :
    ∃ u data, exec (.roster t) s = .next u ∧ (gransBytes data).take 8 = toLE 8 k.act ∧ u = (s.deliver t k 0 (32 * data.length)
      (r.filter fun e => decide (k.first ≤ e.slot) && decide (e.slot < k.first + k.count)).length data).modTicket t fun k => { k with closed := true } := by
  have hno : ¬(k.closed = true ∨ (!s.porterRoom k.porter) = true) := by simp [hcl, hroom]
  change ∃ u data, execRoster t s = .next u ∧ _
  rw [execRoster, stagerRow_judged hw hj, if_neg hno, hr]
  refine ⟨_, _, rfl, ?_, rfl⟩
  rw [take_gransBytes_toGrans _ (by decide) (by simp only [List.length_append, length_toLE]; omega)]
  simp only [List.append_assoc]
  rw [List.take_append_of_le_length (by rw [length_toLE]), List.take_of_length_le (by rw [length_toLE])]

/-- Settles O41: an accepted request goes to its own work, branch by branch. -/
theorem stager : Obligations.Stager := by
  refine ⟨fun t k s => ⟨fun hw hj => ?_, fun hw hj hout => ⟨fun ecc hno => ?_, fun c o m ecc ho => ⟨fun hp => ?_, fun ps u hp => ⟨fun hf => ?_, fun hf => ?_⟩⟩⟩,
    fun hw hout => ?_, fun hw hj hcl q hq => ?_, fun hw hj hcl hro q hq => ?_, fun hw hj hcl hroom r hr => exec_roster hw hj hcl hroom hr⟩,
    fun p d k s hp hr hd ho hph hk dram => ⟨fun hst => ?_, fun hst => ?_⟩⟩
  · change execComplete t s = _
    rw [execComplete, stagerRow_judged hw hj]
  · rw [exec_append hw hj hout, hno]
  · rw [exec_append hw hj hout, ho]
    dsimp only
    rw [hp]
  · rw [exec_append hw hj hout, ho]
    dsimp only
    rw [hp]
    exact congrArg _ (if_pos hf)
  · rw [exec_append hw hj hout, ho]
    dsimp only
    rw [hp]
    exact congrArg _ (if_neg (ne_true_of_eq_false hf))
  · change execAppendLanded t s = _
    rw [execAppendLanded, hw]
    dsimp only
    rw [hout]
    rfl
  · change execFetch t s = _
    rw [execFetch, stagerRow_judged hw hj, if_neg (ne_true_of_eq_false hcl)]
    dsimp only
    rw [hq]
    simp only [when, decide_eq_true_eq]
  · change execStream t s = _
    rw [execStream, stagerRow_judged hw hj, if_neg (ne_true_of_eq_false hcl), hro]
    dsimp only
    rw [hq]
    simp only [when, Bool.not_true, Bool.false_eq_true, if_false, Option.isSome_none, Bool.and_false, Bool.false_and, Bool.false_or,
      Bool.and_eq_true, bne_iff_ne, ne_eq, decide_eq_true_eq]
  · rw [exec_pageDelivery hp hr hd ho hph hk, if_pos hst]
  · rw [exec_pageDelivery hp hr hd ho hph hk, if_neg hst]

end Sys2Proof.Machine
end

section
/-! PROOFS. DRAM and the hub arbiter (O42). -/

namespace Sys2Proof.Machine
open Sys2Proof.Says

/-! ### Bytes stored in DRAM -/

/-- `t` is `s` with bytes stored, where no unit becomes poison. -/
structure Stored (a : Nat) (bs : List Byte) (s t : State) : Prop where
  frame : t = { s with mem := t.mem }
  stored : ∀ k (h : k < bs.length), t.byte (a + k) = bs[k]
  kept : ∀ x, x < a ∨ a + bs.length ≤ x → t.byte x = s.byte x
  clean : ∀ u, s.mem.dramPoison.contains u = false → t.mem.dramPoison.contains u = false

theorem Stored.nil {a : Nat} (s : State) : Stored a [] s s := ⟨rfl, nofun, fun _ _ => rfl, fun _ h => h⟩

/-- Two runs one after the other are one run. -/
theorem Stored.append {a : Nat} {bs cs : List Byte} {s t u : State} (h : Stored a bs s t) (h' : Stored (a + bs.length) cs t u) :
    Stored a (bs ++ cs) s u where
  frame := by rw [h'.frame, h.frame]
  stored k hk := by
    rw [List.length_append] at hk
    by_cases hb : k < bs.length
    · rw [h'.kept _ (.inl (by omega)), h.stored k hb, List.getElem_append_left hb]
    · have hcs := h'.stored (k - bs.length) (by omega)
      rw [show a + bs.length + (k - bs.length) = a + k by omega] at hcs
      rw [hcs, List.getElem_append_right (by omega)]
  kept x hx := by
    rw [List.length_append] at hx
    rw [h'.kept x (by omega), h.kept x (by omega)]
  clean u hu := h'.clean u (h.clean u hu)

/-- The stored run as a whole. -/
theorem Stored.bytes {a : Nat} {bs : List Byte} {s t : State} (h : Stored a bs s t) : t.bytes a bs.length = bs :=
  State.bytes_eq t a bs h.stored

theorem State.fillGranule_eq (s : State) (a : Nat) :
    s.fillGranule a = { s with mem := { s.mem with granules := (s.fillGranule a).mem.granules } } := by
  unfold State.fillGranule
  split <;> rfl

/-- A unit that is not poison reads without an event. -/
theorem State.readUnit_clean {s : State} {u : Nat} (h : s.mem.dramPoison.contains u = false) : s.readUnit u [] = ((s.bytes (64 * u) 64, false), s) := by
  unfold State.readUnit
  dsimp only
  rw [List.find?_nil, h]
  dsimp only
  split <;> rfl

/-- A write within a unit that is not poison. -/
theorem stored_writeUnit {s : State} {a : Nat} {bs : List Byte} (h : s.mem.dramPoison.contains (a / 64) = false) :
    Stored a bs s (s.writeUnit a bs false []) := by
  have hpoison : (s.fillGranule a).mem.dramPoison = s.mem.dramPoison := by rw [State.fillGranule_eq]
  have hframe : s.fillGranule a = { s with mem := (s.fillGranule a).mem } := by rw [State.fillGranule_eq]
  have hbyte : ∀ x, (s.fillGranule a).byte x = s.byte x := fun x => by rw [State.fillGranule_eq]; rfl
  have hw : s.writeUnit a bs false [] = { (s.fillGranule a).writeBytes a bs with mem := { ((s.fillGranule a).writeBytes a bs).mem with
      dramPoison := NSet.del s.mem.dramPoison (a / 64), rewrite := NSet.del (s.fillGranule a).mem.rewrite (a / 64) } } := by
    unfold State.writeUnit
    dsimp only
    rw [State.readUnit_clean (by rw [hpoison]; exact h), ← hpoison]
    split <;> rfl
  generalize s.fillGranule a = v at *
  rw [hw]
  refine ⟨by rw [hframe]; rfl, fun k hk => State.byte_writeBytes_in v a k bs hk, fun x hx => (State.byte_writeBytes_out v bs hx).trans (hbyte x), fun u hu => ?_⟩
  have hm := NSet.contains_mark s.mem.dramPoison false (a / 64) u
  rw [if_neg Bool.false_ne_true] at hm
  change (NSet.del s.mem.dramPoison (a / 64)).contains u = false
  rw [hm, hu]
  split <;> rfl

/-- A write unit by unit, where no unit is poison. -/
theorem stored_writeDram (n : Nat) {s : State} {a : Nat} {bs : List Byte} (hn : (a % 64 + bs.length + 63) / 64 ≤ n)
    (h : ∀ u, a / 64 ≤ u → u ≤ (a + bs.length - 1) / 64 → s.mem.dramPoison.contains u = false) :
    Stored a bs s (s.writeDram a bs false [] n) := by
  induction n generalizing s a bs with
  | zero =>
    have hbs : bs = [] := List.length_eq_zero_iff.1 (by omega)
    rw [hbs]
    exact Stored.nil s
  | succ n ih =>
    rw [State.writeDram]
    by_cases hbs : bs = []
    · rw [hbs]
      exact Stored.nil s
    · have hlen := List.length_pos_iff.2 hbs
      rw [if_neg (by simpa using hbs)]
      dsimp only
      have hunit := stored_writeUnit (s := s) (a := a) (bs := bs.take (64 - a % 64)) (h _ (Nat.le_refl _) (by omega))
      generalize s.writeUnit a (bs.take (64 - a % 64)) false [] = t at *
      by_cases hmore : 64 - a % 64 < bs.length
      · have hall := hunit.append (cs := bs.drop (64 - a % 64)) (u := t.writeDram (a + (64 - a % 64)) (bs.drop (64 - a % 64)) false [] n) ?_
        · rw [List.take_append_drop] at hall
          exact hall
        · rw [List.length_take, Nat.min_eq_left (by omega)]
          refine ih (by rw [List.length_drop]; omega) fun u hlo hhi => hunit.clean u (h u (by omega) ?_)
          rw [List.length_drop] at hhi
          omega
      · have hdrop : bs.drop (64 - a % 64) = [] := List.drop_eq_nil_of_le (by omega)
        rw [List.take_of_length_le (by omega)] at hunit
        rw [hdrop]
        cases n with
        | zero => exact hunit
        | succ n => exact hunit

/-! ### Reads and their events -/

/-- A cairn record that is staged changes no register beside the events and the count of records lost. -/
theorem State.reg_stageCairn_ne {s : State} {o : Nat} (r : Cairn) (he : o ≠ Reg.EVENT_STATUS_events.off) (hs : o ≠ Reg.SERVICE_MODE_cairn_drop_count.off) :
    (s.stageCairn r).reg o = s.reg o := by
  unfold State.stageCairn
  dsimp only
  split
  · rw [State.reg_raise_ne _ he]
    simp only [State.reg, State.request_regs]
  · exact State.reg_set_ne _ _ _ hs

theorem State.dramLast_eq (s : State) (u : Nat) (e : DramErr) : s.dramLast u e = { s with regs := (s.dramLast u e).regs } := by
  unfold State.dramLast
  exact State.sets_eq _ _

/-- The record of the last event of a channel stands beside its counts. -/
theorem State.get_dramLast {s : State} {u : Nat} {e : DramErr} {g : RF} {c : Nat} (h : g.off = (Reg.DRAM_CH_STATUS_ue_count c).off) :
    (s.dramLast u e).get g = s.get g := by
  refine State.get_of_reg (State.reg_sets_ne _ _ fun p hp => ?_)
  rw [h]
  simp only [List.mem_cons, List.not_mem_nil, or_false] at hp
  obtain rfl | rfl | rfl | rfl | rfl | rfl := hp <;>
    simp only [Reg.DRAM_CH_STATUS_ue_count, Reg.DRAM_ECC_LAST_overrun, Reg.DRAM_ECC_LAST_valid, Reg.DRAM_ECC_LAST_uncorrectable,
      Reg.DRAM_ECC_LAST_sub, Reg.DRAM_ECC_LAST_device, Reg.DRAM_ECC_LAST_unit] <;> omega

section
variable {s : State} {u : Nat} {errs : List DramErr}

theorem State.readUnit_erased (h : (s.granule (64 * u)).erased = true) : (s.readUnit u errs).2 = s := by
  unfold State.readUnit
  dsimp only
  rw [if_pos h]

section
variable (hg : (s.granule (64 * u)).erased = false)
include hg

/-- An uncorrectable error is counted and recorded. -/
theorem State.readUnit_uncorrectable {e : DramErr} (h : (errs.find? fun e => e.unit == u && !e.corrected) = some e) :
    let c := dramChan (64 * u)
    (s.readUnit u errs).2.get (Reg.DRAM_CH_STATUS_ue_count c) = satAdd (Reg.DRAM_CH_STATUS_ue_count c).w (s.get (Reg.DRAM_CH_STATUS_ue_count c)) 1 ∧
      (s.readUnit u errs).2.mem = s.mem ∧ (s.readUnit u errs).2.cells = s.cells := by
  have hx : (s.readUnit u errs).2 = ((s.inc (Reg.DRAM_CH_STATUS_ue_count (dramChan (64 * u)))).dramLast u e).stageCairn
      { Cairn.blank 0x0A 3 (dramChan (64 * u)) 0 0xFFFF (dramLocal (64 * u) / 64) with
        regs := ((s.inc (Reg.DRAM_CH_STATUS_ue_count (dramChan (64 * u)))).dramLast u e).regWords [(Reg.DRAM_ECC_LAST_valid (dramChan (64 * u))).off] } := by
    unfold State.readUnit
    dsimp only
    rw [if_neg (ne_true_of_eq_false hg), h]
  dsimp only
  rw [hx]
  refine ⟨?_, ?_, ?_⟩
  · rw [State.get_of_reg (State.reg_stageCairn_ne _ (by simp only [Reg.DRAM_CH_STATUS_ue_count, Reg.EVENT_STATUS_events]; omega)
      (by simp only [Reg.DRAM_CH_STATUS_ue_count, Reg.SERVICE_MODE_cairn_drop_count]; omega)), State.get_dramLast rfl,
      State.get_inc_self _ _ _ (by simp [Reg.DRAM_CH_STATUS_ue_count])]
  · rw [State.stageCairn_mem, State.dramLast_eq]
    rfl
  · rw [State.stageCairn_cells, State.dramLast_eq]
    rfl

/-- A corrected error is counted, and its unit is to be written again. -/
theorem State.readUnit_corrected {e : DramErr} (hn : (errs.find? fun e => e.unit == u && !e.corrected) = none)
    (hp : s.mem.dramPoison.contains u = false) (h : (errs.find? fun e => e.unit == u) = some e) :
    let c := dramChan (64 * u)
    (s.readUnit u errs).2.get (Reg.DRAM_CH_STATUS_corrected_count c) =
        satAdd (Reg.DRAM_CH_STATUS_corrected_count c).w (s.get (Reg.DRAM_CH_STATUS_corrected_count c)) 1 ∧
      (s.readUnit u errs).2.mem = { s.mem with rewrite := NSet.add s.mem.rewrite u } ∧ (s.readUnit u errs).2.cells = s.cells := by
  have hmem : ((s.inc (Reg.DRAM_CH_STATUS_corrected_count (dramChan (64 * u)))).dramLast u e).mem = s.mem := by rw [State.dramLast_eq]; rfl
  have hcells : ((s.inc (Reg.DRAM_CH_STATUS_corrected_count (dramChan (64 * u)))).dramLast u e).cells = s.cells := by rw [State.dramLast_eq]; rfl
  have hget : ((s.inc (Reg.DRAM_CH_STATUS_corrected_count (dramChan (64 * u)))).dramLast u e).get (Reg.DRAM_CH_STATUS_corrected_count (dramChan (64 * u))) =
      satAdd (Reg.DRAM_CH_STATUS_corrected_count (dramChan (64 * u))).w (s.get (Reg.DRAM_CH_STATUS_corrected_count (dramChan (64 * u)))) 1 := by
    rw [State.get_dramLast (g := Reg.DRAM_CH_STATUS_corrected_count (dramChan (64 * u))) (c := dramChan (64 * u)) rfl, State.get_inc_self _ _ _ (by simp [Reg.DRAM_CH_STATUS_corrected_count])]
  have hx : (s.readUnit u errs).2 =
      let t := ((s.inc (Reg.DRAM_CH_STATUS_corrected_count (dramChan (64 * u)))).dramLast u e).hubReport (dramChan (64 * u)) 10
      { t with mem := { t.mem with rewrite := NSet.add t.mem.rewrite u } } := by
    unfold State.readUnit
    dsimp only
    rw [if_neg (ne_true_of_eq_false hg), hn]
    dsimp only
    rw [if_neg (ne_true_of_eq_false hp), h]
  dsimp only
  rw [hx]
  generalize (s.inc (Reg.DRAM_CH_STATUS_corrected_count (dramChan (64 * u)))).dramLast u e = t at *
  exact ⟨hget, by rw [← hmem]; rfl, hcells⟩

theorem State.readUnit_poison (hp : s.mem.dramPoison.contains u = true) :
    (s.readUnit u []).2 = s.inc (Reg.DRAM_CH_STATUS_poison_read_count (dramChan (64 * u))) := by
  unfold State.readUnit
  dsimp only
  rw [if_neg (ne_true_of_eq_false hg), List.find?_nil]
  dsimp only
  rw [if_pos hp]
end
end

theorem exec_dramRead {a : Nat} {s : State} (h : isDram a = true) (errs : List DramErr) : exec (.dramRead a errs) s = .next (s.readUnit (a / 64) errs).2 := by
  change execDramRead a errs s = _
  rw [execDramRead, h, onUnit_true]

theorem exec_dramWrite {a : Nat} {data : List Byte} {s : State} (h : inDram a data.length = true) (errs : List DramErr) :
    exec (.dramWrite a data errs) s = .next (s.writeDram a data false errs (data.length / 64 + 2)) := by
  change execDramWrite a data errs s = _
  rw [execDramWrite, h, onUnit_true]

theorem exec_bar4Access {off len : Nat} {w poison : Bool} {data : List Byte} {errs : List DramErr} {s : State} (hl : 0 < len)
    (hb : off + len ≤ s.host.bar4) (h41 : off + len ≤ 2 ^ 41) : exec (.bar4Access off len w data poison errs) s = .next (s.bar4 off len w data poison errs) := by
  change execBar4Access off len w data poison errs s = _
  have hv : decide (off + len ≤ 2 ^ 41 ∧ 0 < len) = true := decide_eq_true ⟨h41, hl⟩
  rw [execBar4Access, hv, onUnit_true, decide_eq_true hb, when_true]

/-! ### The arbiter -/

theorem exec_arbiterGrant {r : Nat} {s : State} (hr : r < resources) (hl : (s.res r).left ≠ 0) : exec (.arbiterGrant r) s = .next (s.arbGrant r) := by
  change execArbiterGrant r s = _
  have hv : ((s.res r).left != 0) = true := by simpa using hl
  rw [execArbiterGrant, decide_eq_true hr, onUnit_true, hv, when_true]

/-- A period starts with the table it has while no apply is pending. -/
theorem State.arbPeriod_same {s : State} {r : Nat} (hp : s.flag Reg.ARB_CTRL_apply = false) (ht : (s.res r).table ≠ []) :
    s.arbPeriod r = s.modRes r fun x => { x with left := 256, credit := x.table.map (·.1), taken := List.replicate 16 0, changed := false } := by
  have hne : (s.res r).table.isEmpty = false := List.isEmpty_eq_false_iff.2 ht
  unfold State.arbPeriod
  rw [hp]
  dsimp only
  rw [if_neg Bool.false_ne_true, hne, if_neg Bool.false_ne_true]
  exact if_neg fun h => Bool.false_ne_true h.1

/-- Settles O42: writes go unit by unit, a read follows the outcome of its code, and the arbiter its two round-robin orders. -/
theorem baseCamp : Obligations.BaseCamp := by
  refine ⟨fun a data s hin hne hclean => ?_, fun a data errs s hin => exec_dramWrite hin errs,
    fun a s ha => ⟨fun hg errs => ?_, fun hg errs => ⟨fun e he => ⟨_, exec_dramRead ha errs, State.readUnit_uncorrectable hg he⟩,
      fun hn hp e he => ⟨_, exec_dramRead ha errs, State.readUnit_corrected hg hn hp he⟩⟩, fun hp => ?_, fun hp hg => ?_⟩,
    fun u s hu => ?_, fun off len w poison data errs s hl hb h41 => ⟨fun hno => ?_, fun hyes hlink hpan => ?_, fun hyes hlink hpan hin => ⟨fun hw => ?_, fun hw => ?_⟩⟩,
    fun r s hr => ⟨fun hl hp ht => ?_, fun hl => ⟨fun c hc => ?_, fun c hn hc => ?_, fun hn hn' => ?_⟩⟩⟩
  · obtain ⟨hframe, hst, hkept, -⟩ := stored_writeDram (data.length / 64 + 2) (by omega) hclean
    exact ⟨_, exec_dramWrite hin [], hst, hkept, by rw [hframe]⟩
  · rw [exec_dramRead ha, State.readUnit_erased hg]
  · rw [exec_dramRead ha, State.readUnit_clean hp]
  · rw [exec_dramRead ha, State.readUnit_poison (by rw [Nat.mul_comm]; exact hg) hp, Nat.mul_comm]
  · change execDramCorrectedRewrite u s = _
    rw [execDramCorrectedRewrite, hu, onUnit_true]
  · rw [exec_bar4Access hl hb h41, State.bar4, hno]
    rfl
  · rw [exec_bar4Access hl hb h41, State.bar4, hyes, hlink, hpan]
    rfl
  · rw [exec_bar4Access hl hb h41, State.bar4, hyes, hlink, hpan, hin, hw]
    rfl
  · rw [exec_bar4Access hl hb h41, State.bar4, hyes, hlink, hpan, hin, hw]
    rfl
  · change execArbiterPeriod r s = _
    rw [execArbiterPeriod, decide_eq_true hr, onUnit_true, hl]
    exact congrArg _ (State.arbPeriod_same hp ht)
  · rw [exec_arbiterGrant hr hl, State.arbGrant, hc]
    rfl
  · rw [exec_arbiterGrant hr hl, State.arbGrant, hn]
    dsimp only
    rw [hc]
  · rw [exec_arbiterGrant hr hl, State.arbGrant, hn]
    dsimp only
    rw [hn']

end Sys2Proof.Machine
end

section
/-! PROOFS. Granules in DRAM, for the moves of porters (O43). -/

namespace Sys2Proof.Machine
open Sys2Proof.Says

/-! ### Granules read from and written to DRAM -/

theorem flatten_chunks {α : Type} {n : Nat} (hn : 0 < n) (k : Nat) {xs : List α} (h : xs.length ≤ k) : (chunks n k xs).flatten = xs := by
  induction k generalizing xs with
  | zero =>
    rw [List.length_eq_zero_iff.1 (Nat.le_zero.1 h)]
    rfl
  | succ k ih =>
    unfold chunks
    split
    · next he => rw [List.isEmpty_iff.1 he, List.flatten_nil]
    · rw [List.flatten_cons, ih (by rw [List.length_drop]; omega), List.take_append_drop]

/-- Parts of granules written one after the other, each within a unit that is not poison. -/
theorem stored_parts (parts : List (List Gran)) {a : Nat} {s : State} (hp : ∀ c ∈ parts, c.any (·.poison) = false)
    (h : ∀ u, a / 64 ≤ u → u ≤ (a + (parts.flatMap fun c => c.flatMap (·.data)).length - 1) / 64 → s.mem.dramPoison.contains u = false) :
    Stored a (parts.flatMap fun c => c.flatMap (·.data)) s
      (parts.foldl (fun (p : Nat × State) (c : List Gran) =>
        let bs := c.flatMap (·.data)
        (p.1 + bs.length, if bs.isEmpty then p.2 else p.2.writeUnit p.1 bs (c.any (·.poison)) [])) (a, s)).2 := by
  induction parts generalizing a s with
  | nil => exact Stored.nil s
  | cons c cs ih =>
    rw [List.flatMap_cons, List.length_append] at h
    rw [List.flatMap_cons, List.foldl_cons]
    dsimp only
    rw [hp c (.head _)]
    generalize c.flatMap (·.data) = bs at *
    by_cases hbs : bs = []
    · rw [hbs]
      exact ih (fun d hd => hp d (.tail _ hd)) fun u hlo hhi => h u hlo (by rw [hbs]; simpa using hhi)
    · have hlen := List.length_pos_iff.2 hbs
      rw [if_neg (by simpa using hbs)]
      have hunit := stored_writeUnit (s := s) (a := a) (bs := bs) (h _ (Nat.le_refl _) (by omega))
      refine hunit.append (ih (fun d hd => hp d (.tail _ hd)) fun u hlo hhi => hunit.clean u (h u (by omega) ?_))
      omega

/-- Granules written to DRAM, none of them and no unit poison. -/
theorem stored_writeGrans {s : State} {a : Nat} {gs : List Gran} (hp : ∀ g ∈ gs, g.poison = false)
    (h : ∀ u, a / 64 ≤ u → u ≤ (a + (gs.flatMap (·.data)).length - 1) / 64 → s.mem.dramPoison.contains u = false) :
    Stored a (gs.flatMap (·.data)) s (s.writeGrans a gs []) := by
  have key : ∀ parts : List (List Gran), parts.flatten = gs → (parts.flatMap fun c => c.flatMap (·.data)) = gs.flatMap (·.data) ∧
      ∀ c ∈ parts, c.any (·.poison) = false := fun parts hparts => by
    refine ⟨by rw [← hparts, ← List.flatMap_id, List.flatMap_assoc]; rfl, fun c hc => List.any_eq_false.2 fun g hg => ?_⟩
    rw [hp g (hparts ▸ List.mem_flatten_of_mem hc hg)]
    exact Bool.false_ne_true
  unfold State.writeGrans
  dsimp only
  have hflat : (if a % 64 = 0 then chunks 2 gs.length gs else [gs.take 1] ++ chunks 2 gs.length (gs.drop 1)).flatten = gs := by
    split
    · exact flatten_chunks (by decide) _ (Nat.le_refl _)
    · rw [List.singleton_append, List.flatten_cons, flatten_chunks (by decide) _ (by rw [List.length_drop]; omega), List.take_append_drop]
  obtain ⟨hdata, hpois⟩ := key _ hflat
  have hst := stored_parts _ (a := a) (s := s) hpois (by rw [hdata]; exact h)
  rw [hdata] at hst
  exact hst

/-- Consecutive units that are not poison read without an event. -/
theorem State.readUnits_clean (n : Nat) {s : State} {u : Nat} (h : ∀ v, u ≤ v → v < u + n → s.mem.dramPoison.contains v = false) :
    (s.readUnits [] u n).2 = s ∧ ((s.readUnits [] u n).1.flatMap (·.1)) = s.bytes (64 * u) (64 * n) ∧ ∀ x ∈ (s.readUnits [] u n).1, x.2 = false := by
  induction n generalizing u with
  | zero => exact ⟨rfl, rfl, nofun⟩
  | succ n ih =>
    obtain ⟨hs, hb, hp⟩ := ih (u := u + 1) fun v hlo hhi => h v (by omega) (by omega)
    rw [State.readUnits, State.readUnit_clean (h u (Nat.le_refl _) (by omega))]
    dsimp only
    refine ⟨hs, ?_, List.forall_mem_cons.2 ⟨rfl, hp⟩⟩
    rw [List.flatMap_cons, hb, show 64 * (n + 1) = 64 + 64 * n by omega, State.bytes_append, Nat.mul_add]

theorem State.length_bytes (s : State) (a n : Nat) : (s.bytes a n).length = n := by simp

/-- Granules cut from a run without poison hold its bytes. -/
theorem foldIdx_granules (f : Nat → Bool) (hf : ∀ i, f i = false) (cs : List (List Byte)) (i : Nat) (acc : List Gran) (hacc : ∀ g ∈ acc, g.poison = false) :
    ((foldIdx (fun i (acc : List Gran) c => acc ++ [⟨c, f i⟩]) i acc cs).flatMap (·.data)) = acc.flatMap (·.data) ++ cs.flatten ∧
      (∀ g ∈ foldIdx (fun i (acc : List Gran) c => acc ++ [⟨c, f i⟩]) i acc cs, g.poison = false) ∧
      (foldIdx (fun i (acc : List Gran) c => acc ++ [⟨c, f i⟩]) i acc cs).length = acc.length + cs.length := by
  induction cs generalizing i acc with
  | nil => exact ⟨by simp [foldIdx], hacc, by simp [foldIdx]⟩
  | cons c cs ih =>
    obtain ⟨hd, hp, hl⟩ := ih (i + 1) (acc ++ [⟨c, f i⟩]) fun g hg => by
      obtain hg | hg := List.mem_append.1 hg
      · exact hacc g hg
      · rw [List.mem_singleton.1 hg]
        exact hf i
    rw [foldIdx]
    refine ⟨hd.trans (by simp), hp, hl.trans (by simp; omega)⟩

/-- A read of DRAM where no unit is poison: its bytes, none of them poison, and no event. -/
theorem State.readDram_clean {s : State} {a n : Nat} (hn : 0 < n) (h : ∀ u, a / 64 ≤ u → u ≤ (a + n - 1) / 64 → s.mem.dramPoison.contains u = false) :
    (s.readDram a n []).2 = s ∧ ((s.readDram a n []).1.flatMap (·.data)) = s.bytes a n ∧ (∀ g ∈ (s.readDram a n []).1, g.poison = false) ∧
      (s.readDram a n []).1.length = (chunks 32 n (s.bytes a n)).length := by
  obtain ⟨hs, hb, hp⟩ := State.readUnits_clean ((a + n - 1) / 64 - a / 64 + 1) (s := s) (u := a / 64) fun v hlo hhi => h v hlo (by omega)
  have hrun : ((s.bytes (64 * (a / 64)) (64 * ((a + n - 1) / 64 - a / 64 + 1))).drop (a % 64)).take n = s.bytes a n := by
    have hsplit : 64 * ((a + n - 1) / 64 - a / 64 + 1) = a % 64 + (n + (64 * ((a + n - 1) / 64 - a / 64 + 1) - a % 64 - n)) := by omega
    rw [hsplit, State.bytes_append, show 64 * (a / 64) + a % 64 = a by omega, State.bytes_append,
      List.drop_left' (State.length_bytes _ _ _), List.take_left' (State.length_bytes _ _ _)]
  have hf : ∀ i, (fun i => (nth (s.readUnits [] (a / 64) ((a + n - 1) / 64 - a / 64 + 1)).1 ((a % 64 + 32 * i) / 64) ([], false)).2) i = false := fun i => by
    dsimp only
    rw [nth, List.getD_eq_getElem?_getD]
    cases hx : (s.readUnits [] (a / 64) ((a + n - 1) / 64 - a / 64 + 1)).1[(a % 64 + 32 * i) / 64]? with
    | none => rfl
    | some x => exact hp x (List.mem_of_getElem? hx)
  unfold State.readDram
  rw [if_neg (by omega)]
  dsimp only
  rw [hb, hrun, State.length_bytes]
  obtain ⟨hd, hpo, hl⟩ := foldIdx_granules _ hf (chunks 32 n (s.bytes a n)) 0 [] nofun
  refine ⟨hs, ?_, hpo, ?_⟩
  · rw [hd, flatten_chunks (by decide) _ (Nat.le_of_eq (State.length_bytes _ _ _))]
    rfl
  · rw [hl]
    simp

end Sys2Proof.Machine
end

section
/-! PROOFS. Porters (O43). -/

namespace Sys2Proof.Machine
open Sys2Proof.Says

/-! ### Moves within DRAM -/

section
variable {a n : Nat} (hn : 0 < n) (h : inDram a n = true)
include hn h

theorem isDram_of_inDram : isDram a = true := by
  simp only [inDram, decide_eq_true_eq] at h
  simp only [isDram, decide_eq_true_eq]
  omega

theorem inRegs_of_inDram (m : Nat) : inRegs a m = false := by
  simp only [inDram, decide_eq_true_eq] at h
  rw [inRegs, regBase, decide_eq_false (by omega), Bool.false_and]

theorem spDecode_of_inDram : spDecode a = none := by
  simp only [inDram, decide_eq_true_eq] at h
  rw [spDecode, if_pos (by omega)]
end

/-- A request to the arbiter leaves what porters run. -/
theorem State.request_porter (s : State) (r c o n p : Nat) : (s.request r c o n).porter p = s.porter p := by
  unfold State.request
  split <;> rfl

theorem State.porterWrite_dram {s : State} {p : Nat} {d : Desc} {gs : List Gran} {ev : PorterEv} (hsp : d.dstSpace = 0) (hm : d.mcast = false)
    (hl : 0 < d.len) (hin : inDram d.dstAddr d.len = true) :
    s.porterWrite p d gs ev = (0, (s.request 0 d.cls (porterOwner p) (32 * gs.length)).writeGrans d.dstAddr gs ev.dram) := by
  unfold State.porterWrite
  rw [hsp, hm]
  dsimp only
  rw [inRegs_of_inDram hl hin, spDecode_of_inDram hl hin]
  rfl

/-- Granules without poison that a descriptor writes to DRAM: the bytes and the porter's outcome. -/
theorem State.porterPut_dram {s : State} {p : Nat} {d : Desc} {gs : List Gran} {ev : PorterEv} (hsp : d.dstSpace = 0) (hm : d.mcast = false)
    (hl : 0 < d.len) (hin : inDram d.dstAddr d.len = true) (hev : ev.dram = []) (hgs : 32 * gs.length = d.len)
    (hlen : (gs.flatMap (·.data)).length = d.len) (hp : ∀ g ∈ gs, g.poison = false)
    (hclean : ∀ u, d.dstAddr / 64 ≤ u → u ≤ (d.dstAddr + d.len - 1) / 64 → s.mem.dramPoison.contains u = false) :
    let t := s.porterPut p d gs false ev
    t.bytes d.dstAddr d.len = gs.flatMap (·.data) ∧ (∀ x, x < d.dstAddr ∨ d.dstAddr + d.len ≤ x → t.byte x = s.byte x) ∧
      t.porter p = { s.porter p with phase := .moved, status := 0, moved := d.len, atT := s.now } ∧ t.cells = s.cells := by
  have hany : gs.any (·.poison) = false := List.any_eq_false.2 fun g hg => by rw [hp g hg]; exact Bool.false_ne_true
  have hput : s.porterPut p d gs false ev =
      ((s.request 0 d.cls (porterOwner p) d.len).writeGrans d.dstAddr gs []).porterEnd p 0 d.len := by
    have hland : s.landing d gs ev = gs := if_pos (by rw [hsp]; decide)
    unfold State.porterPut
    rw [if_neg Bool.false_ne_true]
    dsimp only
    rw [hland, State.porterWrite_dram hsp hm hl hin, hgs, hev, hany]
    rfl
  have hst := stored_writeGrans (s := s.request 0 d.cls (porterOwner p) d.len) (a := d.dstAddr) hp (by rw [hlen, State.request_mem]; exact hclean)
  have hbytes := hst.bytes
  rw [hlen] at hbytes
  obtain ⟨hframe, -, hkept, -⟩ := hst
  rw [hlen] at hkept
  dsimp only
  rw [hput]
  have hporter := State.request_porter s 0 d.cls (porterOwner p) d.len p
  have hnow := State.request_now s 0 d.cls (porterOwner p) d.len
  have hcells := State.request_cells s 0 d.cls (porterOwner p) d.len
  have hby : ∀ x, (s.request 0 d.cls (porterOwner p) d.len).byte x = s.byte x := fun x => State.byte_congr (State.request_mem ..) x
  generalize s.request 0 d.cls (porterOwner p) d.len = v at *
  generalize v.writeGrans d.dstAddr gs [] = t at *
  have hpt : t.porter p = v.porter p := by rw [hframe]; rfl
  have hnt : t.now = v.now := by rw [hframe]
  refine ⟨?_, fun x hx => ?_, ?_, ?_⟩
  · exact (State.bytes_congr (s := t.porterEnd p 0 d.len) (t := t) (fun _ => rfl) _ _).trans hbytes
  · exact (hkept x hx).trans (hby x)
  · rw [State.porterEnd, State.porter_modPorter_self, hpt, hporter, hnt, hnow]
  · exact (show t.cells = v.cells by rw [hframe]).trans hcells

/-- How many chunks a run of whole chunks has. -/
theorem length_chunks {α : Type} {n : Nat} (hn : 0 < n) (k : Nat) {xs : List α} (hk : xs.length ≤ k) (hx : xs.length % n = 0) :
    n * (chunks n k xs).length = xs.length := by
  induction k generalizing xs with
  | zero =>
    rw [Nat.le_zero.1 hk]
    rfl
  | succ k ih =>
    unfold chunks
    split
    · next he => rw [List.isEmpty_iff.1 he]; rfl
    · next he =>
      have hpos : 0 < xs.length := List.length_pos_iff.2 (by simpa using he)
      have hle : n ≤ xs.length := Nat.le_of_dvd hpos (Nat.dvd_of_mod_eq_zero hx)
      rw [List.length_cons, Nat.mul_succ, ih (by rw [List.length_drop]; omega) (by rw [List.length_drop, ← Nat.mod_eq_sub_mod hle, hx]), List.length_drop]
      omega

/-! ### Running descriptors -/

/-- A porter's row carries on a descriptor of its kind. -/
theorem porterRow_running {p : Nat} {d : Desc} {mine : Desc → Bool} {ev : PorterEv} {s : State} (hp : p < 64) (hr : s.portersRun = true)
    (hd : (s.porter p).run = some d) (hm : mine d = true) : porterRow p mine ev s = .next (s.porterGo p d ev) := by
  have hhead : s.porterHead p mine = s := by
    unfold State.porterHead
    dsimp only
    rw [hd]
  rw [porterRow, decide_eq_true hp, onUnit_true]
  refine congrArg _ ((if_pos hr).trans ?_)
  dsimp only
  rw [hhead, hd]
  exact if_pos hm

/-- A NOP moves nothing; a reserved operation is malformed. -/
theorem State.porterGo_nop {s : State} {p : Nat} {d : Desc} {ev : PorterEv} (h1 : d.op ≠ 1) (h2 : d.op ≠ 2) (hs : (s.porter p).phase = .started) :
    s.porterGo p d ev = s.porterEnd p (if d.bad then 2 else 0) 0 := by
  unfold State.porterGo
  rw [hs]
  dsimp only
  by_cases hb : d.bad = true
  · rw [if_pos hb, if_pos hb]
  · have hop : d.op = 0 := by
      have hle : ¬2 < d.op := fun h => hb (by simp only [Desc.bad]; rw [decide_eq_true h]; rfl)
      omega
    rw [if_neg hb, if_pos hop, if_neg hb]

theorem State.porterGo_granted {s : State} {p : Nat} {d : Desc} {ev : PorterEv} (hs : (s.porter p).phase = .granted) : s.porterGo p d ev = s.porterMove p d ev := by
  unfold State.porterGo
  rw [hs]

/-- A move that reads no scratchpad reads and writes at once. -/
theorem State.porterMove_direct {s : State} {p : Nat} {d : Desc} {ev : PorterEv} (hpair : s.copyPair d = none) (hsrc : d.source = none) :
    s.porterMove p d ev = (s.porterRead p d ev).2.2.porterPut p d (s.porterRead p d ev).1 (s.porterRead p d ev).2.1 ev := by
  unfold State.porterMove
  rw [hpair, hsrc]
  rfl

section
variable {s : State} {p : Nat} {d : Desc} {ev : PorterEv} (hph : (s.porter p).phase = .granted) (hdata : d.data = []) (hm : d.mcast = false)
  (hsp : d.dstSpace = 0) (hl : 0 < d.len) (hl32 : d.len % 32 = 0) (hin : inDram d.dstAddr d.len = true)
  (hclean : ∀ u, d.dstAddr / 64 ≤ u → u ≤ (d.dstAddr + d.len - 1) / 64 → s.mem.dramPoison.contains u = false) (hev : ev.dram = [])
include hph hdata hm hsp hl hl32 hin hclean hev

theorem State.fill_moves (hop : d.op = 2) :
    let t := s.porterGo p d ev
    t.bytes d.dstAddr d.len = (List.replicate (d.len / 8) (toLE 8 (d.w 5))).flatten ∧
      (∀ x, x < d.dstAddr ∨ d.dstAddr + d.len ≤ x → t.byte x = s.byte x) ∧
      t.porter p = { s.porter p with phase := .moved, status := 0, moved := d.len, atT := s.now } ∧ t.cells = s.cells := by
  have hpair : s.copyPair d = none := by
    unfold State.copyPair
    rw [hop]
    cases spDecode d.srcAddr <;> rfl
  have hsrc : d.source = none := if_neg (by omega)
  have hread : s.porterRead p d ev = (List.replicate (d.len / 32) ⟨(List.replicate 4 (toLE 8 (d.w 5))).flatten, false⟩, false, s) := by
    unfold State.porterRead
    rw [hdata]
    exact if_pos hop
  have hflat : ((List.replicate (d.len / 32) (⟨(List.replicate 4 (toLE 8 (d.w 5))).flatten, false⟩ : Gran)).flatMap (·.data)) =
      (List.replicate (d.len / 8) (toLE 8 (d.w 5))).flatten := by
    rw [show d.len / 8 = d.len / 32 * 4 by omega]
    generalize d.len / 32 = n
    induction n with
    | zero => rfl
    | succ n ih => rw [List.replicate_succ, List.flatMap_cons, ih, show (n + 1) * 4 = 4 + n * 4 by omega, List.replicate_add, List.flatten_append]
  rw [State.porterGo_granted hph, State.porterMove_direct hpair hsrc, hread]
  dsimp only
  rw [← hflat]
  refine State.porterPut_dram hsp hm hl hin hev (by rw [List.length_replicate]; omega) ?_ (fun g hg => by rw [List.eq_of_mem_replicate hg]) hclean
  rw [hflat]
  simp only [List.length_flatten, List.map_replicate, length_toLE, List.sum_replicate, smul_eq_mul]
  omega

theorem State.copy_moves (hop : d.op = 1) (hss : d.srcSpace = 0) (hsin : inDram d.srcAddr d.len = true)
    (hsclean : ∀ u, d.srcAddr / 64 ≤ u → u ≤ (d.srcAddr + d.len - 1) / 64 → s.mem.dramPoison.contains u = false) :
    let t := s.porterGo p d ev
    t.bytes d.dstAddr d.len = s.bytes d.srcAddr d.len ∧
      (∀ x, x < d.dstAddr ∨ d.dstAddr + d.len ≤ x → t.byte x = s.byte x) ∧
      t.porter p = { s.porter p with phase := .moved, status := 0, moved := d.len, atT := s.now } ∧ t.cells = s.cells := by
  have hpair : s.copyPair d = none := by
    unfold State.copyPair
    rw [hop, spDecode_of_inDram hl hsin]
    rfl
  have hsrc : d.source = none := if_neg (by rw [isDram_of_inDram hl hsin]; exact fun h => Bool.false_ne_true h.2.2.2)
  have hread : s.porterRead p d ev = (((s.request 0 d.cls (porterOwner p) d.len).readDram d.srcAddr d.len []).1, false,
      ((s.request 0 d.cls (porterOwner p) d.len).readDram d.srcAddr d.len []).2) := by
    unfold State.porterRead
    rw [hdata, hop, hss, inRegs_of_inDram hl hsin, hsrc, hev]
    rfl
  obtain ⟨hst, hd, hp, hlen⟩ := State.readDram_clean (s := s.request 0 d.cls (porterOwner p) d.len) hl (by rw [State.request_mem]; exact hsclean)
  have hporter := State.request_porter s 0 d.cls (porterOwner p) d.len p
  have hnow := State.request_now s 0 d.cls (porterOwner p) d.len
  have hcells := State.request_cells s 0 d.cls (porterOwner p) d.len
  have hmem := State.request_mem s 0 d.cls (porterOwner p) d.len
  have hby : ∀ x, (s.request 0 d.cls (porterOwner p) d.len).byte x = s.byte x := fun x => State.byte_congr hmem x
  have hbs := State.bytes_congr hby d.srcAddr d.len
  rw [State.porterGo_granted hph, State.porterMove_direct hpair hsrc, hread]
  dsimp only
  rw [hst]
  generalize s.request 0 d.cls (porterOwner p) d.len = v at *
  rw [hbs] at hd
  have hput := State.porterPut_dram (s := v) (p := p) (ev := ev) hsp hm hl hin hev (gs := (v.readDram d.srcAddr d.len []).1) ?_ (by rw [hd, State.length_bytes]) hp
    (by rw [hmem]; exact hclean)
  · rw [hd] at hput
    obtain ⟨hb, hk, hpo, hc⟩ := hput
    exact ⟨hb, fun x hx => (hk x hx).trans (hby x), by rw [hpo, hporter, hnow], hc.trans hcells⟩
  · rw [hlen, length_chunks (by decide) d.len (by rw [State.length_bytes]) (by rw [State.length_bytes]; exact hl32), State.length_bytes]
end

/-! ### The end of a descriptor -/

/-- A descriptor that has sent its report ends. -/
def State.ended (s : State) (p : Nat) (d : Desc) : State :=
  if (s.porter p).phase = .sending ∧ s.doneWaits d = false then
    (s.modPorter p fun x => { x with run := none, phase := .idle, atT := s.now }).fwFeed
  else s

theorem exec_porterDone {p : Nat} {d : Desc} {s : State} (hp : p < 64) (hd : (s.porter p).run = some d) :
    exec (.porterDone p) s = .next (State.ended
      (if (s.porter p).phase = .moved ∧ s.granted (porterOwner p) then
        let st := if (s.porter p).status ≤ 1 ∧ (s.porterCells d).any s.fenced then 6 else (s.porter p).status
        (((s.modPorter p fun x => { x with phase := .sending }).set (Reg.PORTER_STATUS_last_status p) st).wrap
          (Reg.PORTER_BYTES_bytes p) (s.porter p).moved).porterNotify d st (s.porter p).moved
      else if (s.porter p).phase = .sending then s.hubCredits else s) p d) := by
  change execPorterDone p s = _
  rw [execPorterDone, decide_eq_true hp, onUnit_true]
  dsimp only
  rw [hd]
  dsimp only
  unfold State.ended
  simp only [Bool.not_eq_true']

/-! ### Stealing -/

theorem State.porter_modPorter_ne (s : State) {p q : Nat} (f : PorterSt → PorterSt) (h : q ≠ p) : (s.modPorter p f).porter q = s.porter q := by
  simp [State.porter, State.modPorter, SMap.getD_put_ne _ _ _ h]

/-- Descriptors that join a queue one after the other. -/
theorem State.foldl_queueDesc (ds : List Desc) (s : State) (p : Nat) :
    let t := ds.foldl (fun s d => s.queueDesc p d) s
    (t.porter p).queue.length = (s.porter p).queue.length + ds.length ∧
      (∀ d ∈ (t.porter p).queue, d ∈ (s.porter p).queue ∨ ∃ e ∈ ds, d = { e with trail := d.trail }) ∧
      (∀ q, q ≠ p → t.porter q = s.porter q) ∧ t.mem = s.mem ∧ t.cells = s.cells := by
  induction ds generalizing s with
  | nil => exact ⟨rfl, fun d hd => .inl hd, fun _ _ => rfl, rfl, rfl⟩
  | cons e es ih =>
    obtain ⟨hlen, hmem, hne, hm, hc⟩ := ih (s.queueDesc p e)
    rw [List.foldl_cons]
    have hq : ((s.queueDesc p e).porter p).queue = (s.porter p).queue ++ [{ e with trail := e.trail ++ [(p, (s.porter p).subs)] }] := by
      rw [State.queueDesc, State.porter_modPorter_self]
    have hqne : ∀ q, q ≠ p → (s.queueDesc p e).porter q = s.porter q := fun q h => State.porter_modPorter_ne s _ h
    rw [hq] at hlen hmem
    refine ⟨?_, fun d hd => ?_, fun q h => (hne q h).trans (hqne q h), hm, hc⟩
    · rw [hlen, List.length_append, List.length_cons, List.length_cons, List.length_nil]
      omega
    · obtain hd | ⟨f, hf, hdf⟩ := hmem d hd
      · obtain hd | hd := List.mem_append.1 hd
        · exact .inl hd
        · refine .inr ⟨e, .head _, ?_⟩
          rw [List.mem_singleton.1 hd]
      · exact .inr ⟨f, .tail _ hf, hdf⟩

theorem eligible_sublist (x : PorterSt) : (eligible x).length ≤ x.queue.length ∧ ∀ d ∈ eligible x, d.fence = false ∧ d ∈ x.queue := by
  unfold eligible
  split
  · exact ⟨Nat.zero_le _, nofun⟩
  · exact ⟨(List.takeWhile_sublist _).length_le, fun d hd => ⟨by simpa using List.mem_takeWhile_imp hd, (List.takeWhile_sublist _).subset hd⟩⟩

/-- What is left of a victim's queue, and what the thief takes of it. -/
def State.stolen (s : State) (p v : Nat) : State :=
  let e := eligible (s.porter v)
  let s' := s.modPorter v fun y => { y with queue := e.take (e.length - e.length / 2) ++ (s.porter v).queue.drop e.length }
  ((e.drop (e.length - e.length / 2)).foldl (fun s d => s.queueDesc p d) s').modPorter p fun y => { y with atT := s.now }

theorem State.stolen_leaves {s : State} {p v : Nat} (hpv : v ≠ p) (hq : (s.porter p).queue = []) :
    let t := s.stolen p v
    (t.porter p).queue.length = (eligible (s.porter v)).length / 2 ∧
      (t.porter v).queue.length + (t.porter p).queue.length = (s.porter v).queue.length ∧
      (∀ d ∈ (t.porter p).queue, d.fence = false ∧ ∃ e ∈ (s.porter v).queue, d = { e with trail := d.trail }) ∧
      (∀ q, q ≠ p → q ≠ v → t.porter q = s.porter q) ∧ t.mem = s.mem ∧ t.cells = s.cells := by
  obtain ⟨hle, hel⟩ := eligible_sublist (s.porter v)
  unfold State.stolen
  generalize eligible (s.porter v) = e at *
  have hv : (s.modPorter v fun y => { y with queue := e.take (e.length - e.length / 2) ++ (s.porter v).queue.drop e.length }).porter v =
    { s.porter v with queue := e.take (e.length - e.length / 2) ++ (s.porter v).queue.drop e.length } := State.porter_modPorter_self s v _
  have hother : ∀ q, q ≠ v → (s.modPorter v fun y => { y with queue := e.take (e.length - e.length / 2) ++ (s.porter v).queue.drop e.length }).porter q = s.porter q :=
    fun q h => State.porter_modPorter_ne s _ h
  have hmem : (s.modPorter v fun y => { y with queue := e.take (e.length - e.length / 2) ++ (s.porter v).queue.drop e.length }).mem = s.mem := rfl
  have hcells : (s.modPorter v fun y => { y with queue := e.take (e.length - e.length / 2) ++ (s.porter v).queue.drop e.length }).cells = s.cells := rfl
  dsimp only
  generalize State.modPorter s v _ = u at *
  obtain ⟨hlen, hin, hne, hm, hc⟩ := State.foldl_queueDesc (e.drop (e.length - e.length / 2)) u p
  generalize List.foldl (fun s d => State.queueDesc s p d) u (e.drop (e.length - e.length / 2)) = w at *
  rw [hother p (Ne.symm hpv), hq] at hlen hin
  rw [List.length_nil, List.length_drop] at hlen
  have hwv : (w.modPorter p fun y => { y with atT := s.now }).porter v = w.porter v := State.porter_modPorter_ne w _ hpv
  have hwp : (w.modPorter p fun y => { y with atT := s.now }).porter p = { w.porter p with atT := s.now } := State.porter_modPorter_self w p _
  rw [hwp, hwv]
  refine ⟨by dsimp only; omega, ?_, fun d hd => ?_, fun q h h' => ?_, hm.trans hmem, hc.trans hcells⟩
  · rw [hne v hpv, hv]
    dsimp only
    rw [hlen, List.length_append, List.length_take, List.length_drop]
    omega
  · obtain hd | ⟨f, hf, hdf⟩ := hin d hd
    · exact nomatch hd
    · obtain ⟨hfen, hfq⟩ := hel f (List.drop_subset _ _ hf)
      exact ⟨by rw [hdf]; exact hfen, f, hfq, hdf⟩
  · rw [State.porter_modPorter_ne w _ h, hne q h, hother q h']

/-- An idle porter takes half of what the first victim may give. -/
theorem exec_porterSteal {p v : Nat} {s : State} (hp : p < 64) (hr : s.portersRun = true) (hrun : (s.porter p).run = none) (hq : (s.porter p).queue = [])
    (ht : (s.porter p).atT + 200 ≤ s.now)
    (hv : (((List.range 63).map fun i => (p + 1 + i) % 64).find? fun v =>
      decide (4 ≤ (s.porter v).queue.length) && decide (2 ≤ (eligible (s.porter v)).length)) = some v) :
    exec (.porterSteal p) s = .next (((s.stolen p v).wrap (Reg.PORTER_STATUS_stolen_out v) ((eligible (s.porter v)).length / 2)).wrap
      (Reg.PORTER_STATUS_stolen_in p) ((eligible (s.porter v)).length / 2)) := by
  change execPorterSteal p s = _
  rw [execPorterSteal, decide_eq_true hp, onUnit_true]
  refine congrArg _ ((if_pos ⟨hr, by rw [hrun]; rfl, by rw [hq]; rfl, ht⟩).trans ?_)
  rw [hv]
  rfl

/-- A victim is another porter. -/
theorem victim_ne {p v : Nat} {f : Nat → Bool} (hv : (((List.range 63).map fun i => (p + 1 + i) % 64).find? f) = some v) : v ≠ p := by
  obtain ⟨i, hi, rfl⟩ := List.mem_map.1 (List.mem_of_find?_eq_some hv)
  have := List.mem_range.1 hi
  omega

/-- Settles O43: a running descriptor goes on by its phase, a move within DRAM reads and writes clean units, and a steal moves the tail of a queue. -/
theorem porters : Obligations.Porters := by
  refine ⟨fun p d ev s hp hr hd => ⟨fun hop => ?_, fun hop hs => ?_, fun hop ho => ?_, fun hop => ?_, fun hph hdata hm hsp hal hl hl32 hin hclean hev =>
      ⟨fun hop => ⟨_, ?_, State.fill_moves hph hdata hm hsp hl hl32 hin hclean hev hop⟩,
        fun hop ho hss hsin hsclean => ⟨_, ?_, State.copy_moves hph hdata hm hsp hl hl32 hin hclean hev hop hss hsin hsclean⟩⟩⟩,
    fun p d rest s hp hrun hq hr hf ha => ?_, fun p d s hp hd hph ht => ?_, fun p d s hp hd => ⟨fun hph hg => ?_, fun hph => ?_⟩,
    fun p v s hp hr hrun hq ht hv => ⟨_, exec_porterSteal hp hr hrun hq ht hv, State.stolen_leaves (victim_ne hv) hq⟩,
    fun r n seq entry body s hr hread hty hroom => ?_⟩
  · exact porterRow_running hp hr hd (by simp [hop])
  · refine Eq.trans (porterRow_running hp hr hd (by simp [hop])) ?_
    rw [State.porterGo_nop hop.1 hop.2 hs]
  · exact porterRow_running hp hr hd (by simp [hop, ho])
  · exact porterRow_running hp hr hd (by simp [hop])
  · exact porterRow_running hp hr hd (by simp [hop])
  · exact porterRow_running hp hr hd (by simp [hop, ho])
  · change execPorterFence p s = _
    rw [execPorterFence, decide_eq_true hp, onUnit_true]
    dsimp only
    rw [hrun, hq]
    dsimp only
    rw [hr, hf, ha]
    rfl
  · change execPorterGrantRetry p s = _
    rw [execPorterGrantRetry, decide_eq_true hp, onUnit_true]
    dsimp only
    rw [hd]
    dsimp only
    rw [hph, decide_eq_true ht]
    rfl
  · rw [exec_porterDone hp hd, if_pos ⟨hph, hg⟩]
    rfl
  · rw [exec_porterDone hp hd, if_neg (by rw [hph]; exact fun h => nomatch h.1), if_pos hph]
    rfl
  · change ∃ d t, execPorterDesc r entry s = .next t ∧ _
    rw [execPorterDesc, decide_eq_true hr, onUnit_true, if_pos hroom]
    exact ⟨_, _, congrArg _ (State.serveEntry_taken hread hty rfl), rfl, rfl⟩

end Sys2Proof.Machine
end

section
/-! PROOFS. Checked and Paired service, cairn records (O44). -/

namespace Sys2Proof.Machine
open Sys2Proof.Says

/-! ### A rehearsal's registers -/

theorem besideFences_rhStatus (a : Nat) : BesideFences (Reg.RH_STATUS_kernel a).off := by
  have := bOf_lt a
  have := cOf_lt a
  refine ⟨?_, fun c => ?_, fun b => ?_, fun r => ?_⟩
  · simp only [inWindow, Reg.RH_STATUS_kernel, winBase]
    omega
  · have := bOf_lt c
    have := cOf_lt c
    simp only [Reg.RH_STATUS_kernel, Reg.CELL_EPOCH_fenced, winBase]
    obtain h | h | h := Nat.lt_trichotomy (gOf a) (gOf c) <;> omega
  · have := bkB_lt b
    simp only [Reg.RH_STATUS_kernel, Reg.BLK_STATUS_block_fenced, winBase]
    obtain h | h | h := Nat.lt_trichotomy (gOf a) (bkG b) <;> omega
  · simp only [Reg.RH_STATUS_kernel, Reg.REGION_ID_blocks_fenced, winBase]
    omega

/-- A fence condition leaves the registers beside the fences. -/
theorem State.reg_fenceCell {s : State} {c cause o : Nat} (h : BesideFences o) : (s.fenceCell c cause).reg o = s.reg o := by
  have hinc : (s.inc (Reg.BLK_STATUS_cell_fault_count (c / 32))).reg o = s.reg o := State.reg_set_ne _ _ _ (h.block (c / 32))
  by_cases hf : s.fenced c = true
  · have hx : s.fenceCell c cause = (s.inc (Reg.BLK_STATUS_cell_fault_count (c / 32))).report c cause 0 := by
      unfold State.fenceCell
      exact if_pos (State.fenced_counted.trans hf)
    rw [hx]
    exact hinc
  · have hf : s.fenced c = false := by simpa using hf
    cases hv : s.flag (Reg.BLK_STATUS_cell_fence_valid (c / 32)) with
    | false =>
      rw [State.fenceCell_first hf hv]
      refine (State.reg_fenceOne_ne h.window (h.cell c)).trans ?_
      unfold State.named
      rw [State.reg_set_ne _ (Reg.BLK_STATUS_fenced_cell (c / 32)) _ (h.block _), State.reg_set_ne _ (Reg.BLK_STATUS_cell_fence_valid (c / 32)) _ (h.block _), hinc]
    | true =>
      rw [State.fenceCell_second hf hv]
      refine (State.reg_foldl_fenceOne h.window fun k _ => h.cell k).trans ?_
      unfold State.blocked
      dsimp only
      rw [State.reg_set_ne _ _ _ (h.region _), State.reg_set_ne _ (Reg.BLK_STATUS_cell_fence_valid (c / 32)) _ (h.block _),
        State.reg_set_ne _ _ _ (h.block _), hinc]

/-- A cell not fenced before is fenced by its condition, and the panel's memory stays. -/
theorem State.fenceCell_fences {s : State} {c cause : Nat} (hc : cellValid c = true) (hf : s.fenced c = false) (hcause : cause < 32) :
    (s.fenceCell c cause).fenced c = true ∧ (s.fenceCell c cause).mem = s.mem := by
  cases hv : s.flag (Reg.BLK_STATUS_cell_fence_valid (c / 32)) with
  | false =>
    obtain ⟨hfen, -, -, -, -, -, -, -, -, hmem, -⟩ := State.fenceCell_first_leaves hf hv hcause
    exact ⟨hfen, hmem⟩
  | true =>
    obtain ⟨-, -, hall, -, hmem, -⟩ := State.fenceCell_second_leaves (cause := cause) hc hf hv
    exact ⟨hall c (mem_blockCells hc), hmem⟩

/-! ### A rehearsal at its cell -/

/-- A kernel has run: its outputs are in the area, and the engine's state is as before. -/
def State.rhRun (s : State) (a k seed : Nat) (outs : List OutWord) : State :=
  ((s.rhSave a k seed).modArea a fun r => { r with outs := outs }).rhRestore a

theorem State.rhSave_cell (s : State) (a k seed : Nat) : ∃ A : RhArea, A.operands = rhOperands a k 0 seed ∧ A.expected = expectedSig a k seed 0 ∧
    (A.saved = RhSaved.m (s.cell a).m ∨ A.saved = RhSaved.v (s.cell a).v ∨ A.saved = RhSaved.s (s.cell a).sc (s.cell a).sc) ∧
    s.rhSave a k seed = s.modCell a fun x => { x with scene := { x.scene with area := A } } := by
  refine ⟨_, ?_, ?_, ?_, rfl⟩
  · rfl
  · rfl
  · cases engineOf a with
    | m => exact .inl rfl
    | v => exact .inr (.inl rfl)
    | s => exact .inr (.inr rfl)

theorem State.rhRun_cell (s : State) (a k seed : Nat) (outs : List OutWord) :
    ((s.rhRun a k seed outs).cell a).scene.area.operands = rhOperands a k 0 seed ∧
      ((s.rhRun a k seed outs).cell a).scene.area.expected = expectedSig a k seed 0 ∧
      ((s.rhRun a k seed outs).cell a).scene.area.outs = outs ∧
      (s.rhRun a k seed outs).cell a = { s.cell a with scene := { (s.cell a).scene with area := ((s.rhRun a k seed outs).cell a).scene.area } } ∧
      s.rhRun a k seed outs = { s with cells := (s.rhRun a k seed outs).cells } ∧ OnlyCell a s (s.rhRun a k seed outs) := by
  obtain ⟨A, hop, hexp, hsaved, hx⟩ := State.rhSave_cell s a k seed
  have hcell : ((s.rhSave a k seed).modArea a fun r => { r with outs := outs }).cell a =
      { s.cell a with scene := { (s.cell a).scene with area := { A with outs := outs } } } := by
    rw [hx, State.modArea, State.modScene, State.cell_modCell_self, State.cell_modCell_self]
  have hother : OnlyCell a s ((s.rhSave a k seed).modArea a fun r => { r with outs := outs }) := fun d hd => by
    rw [hx, State.modArea, State.modScene, State.cell_modCell_ne _ _ hd, State.cell_modCell_ne _ _ hd]
  have hframe : ((s.rhSave a k seed).modArea a fun r => { r with outs := outs }) =
      { s with cells := ((s.rhSave a k seed).modArea a fun r => { r with outs := outs }).cells } := by
    rw [hx]
    rfl
  unfold State.rhRun State.rhRestore
  generalize (s.rhSave a k seed).modArea a (fun r => { r with outs := outs }) = t at *
  rw [hcell]
  dsimp only
  obtain h | h | h := hsaved
  all_goals
    rw [h]
    dsimp only
    rw [State.cell_modCell_self, hcell]
    refine ⟨hop, hexp, rfl, rfl, ?_, fun d hd => (State.cell_modCell_ne _ _ hd).trans (hother d hd)⟩
    rw [hframe]
    rfl

/-- A rehearsal's outcome as its registers show it. -/
def State.rhShown (s : State) (a k seed : Nat) (pass : Bool) : State :=
  ((s.modCell a fun x => { x with rh := { x.rh with spot := x.rh.spot + 1, spotAt := s.now } }).sets [(Reg.RH_STATUS_kernel a, k), (Reg.RH_STATUS_seed a, seed),
    (Reg.RH_STATUS_pass a, b2n pass), (Reg.RH_STATUS_dress a, 0)]).wrap (Reg.RH_STATUS_spot_count a)

theorem State.rhShown_fields (s : State) (a k seed : Nat) (pass : Bool) (hk : k < 256) (hs : seed < 16) :
    (s.rhShown a k seed pass).get (Reg.RH_STATUS_kernel a) = k ∧ (s.rhShown a k seed pass).get (Reg.RH_STATUS_seed a) = seed ∧
      (s.rhShown a k seed pass).flag (Reg.RH_STATUS_pass a) = pass := by
  have hsets : ∀ t : State, t.sets [(Reg.RH_STATUS_kernel a, k), (Reg.RH_STATUS_seed a, seed), (Reg.RH_STATUS_pass a, b2n pass), (Reg.RH_STATUS_dress a, 0)] =
      (((t.set (Reg.RH_STATUS_kernel a) k).set (Reg.RH_STATUS_seed a) seed).set (Reg.RH_STATUS_pass a) (b2n pass)).set (Reg.RH_STATUS_dress a) 0 := fun _ => rfl
  unfold State.rhShown
  rw [hsets, State.wrap]
  generalize State.modCell s a _ = t
  generalize State.get _ (Reg.RH_STATUS_spot_count a) + 1 = v
  refine ⟨?_, ?_, ?_⟩
  · rw [State.get_set_disjoint (f := Reg.RH_STATUS_spot_count a) (g := Reg.RH_STATUS_kernel a) _ _ rfl (by simp [Reg.RH_STATUS_kernel]) (by simp [Reg.RH_STATUS_kernel, Reg.RH_STATUS_spot_count]),
      State.get_set_disjoint (f := Reg.RH_STATUS_dress a) (g := Reg.RH_STATUS_kernel a) _ _ rfl (by simp [Reg.RH_STATUS_kernel]) (by simp [Reg.RH_STATUS_kernel, Reg.RH_STATUS_dress]),
      State.get_set_disjoint (f := Reg.RH_STATUS_pass a) (g := Reg.RH_STATUS_kernel a) _ _ rfl (by simp [Reg.RH_STATUS_kernel]) (by simp [Reg.RH_STATUS_kernel, Reg.RH_STATUS_pass]),
      State.get_set_disjoint (f := Reg.RH_STATUS_seed a) (g := Reg.RH_STATUS_kernel a) _ _ rfl (by simp [Reg.RH_STATUS_kernel]) (by simp [Reg.RH_STATUS_kernel, Reg.RH_STATUS_seed]),
      State.get_set_self _ _ _ (by simp [Reg.RH_STATUS_kernel])]
    exact Nat.mod_eq_of_lt hk
  · rw [State.get_set_disjoint (f := Reg.RH_STATUS_spot_count a) (g := Reg.RH_STATUS_seed a) _ _ rfl (by simp [Reg.RH_STATUS_seed]) (by simp [Reg.RH_STATUS_seed, Reg.RH_STATUS_spot_count]),
      State.get_set_disjoint (f := Reg.RH_STATUS_dress a) (g := Reg.RH_STATUS_seed a) _ _ rfl (by simp [Reg.RH_STATUS_seed]) (by simp [Reg.RH_STATUS_seed, Reg.RH_STATUS_dress]),
      State.get_set_disjoint (f := Reg.RH_STATUS_pass a) (g := Reg.RH_STATUS_seed a) _ _ rfl (by simp [Reg.RH_STATUS_seed]) (by simp [Reg.RH_STATUS_seed, Reg.RH_STATUS_pass]),
      State.get_set_self _ _ _ (by simp [Reg.RH_STATUS_seed])]
    exact Nat.mod_eq_of_lt hs
  · rw [State.flag, State.get_set_disjoint (f := Reg.RH_STATUS_spot_count a) (g := Reg.RH_STATUS_pass a) _ _ rfl (by simp [Reg.RH_STATUS_pass]) (by simp [Reg.RH_STATUS_pass, Reg.RH_STATUS_spot_count]),
      State.get_set_disjoint (f := Reg.RH_STATUS_dress a) (g := Reg.RH_STATUS_pass a) _ _ rfl (by simp [Reg.RH_STATUS_pass]) (by simp [Reg.RH_STATUS_pass, Reg.RH_STATUS_dress]),
      State.get_set_self _ _ _ (by simp [Reg.RH_STATUS_pass])]
    cases pass <;> rfl

theorem State.rhShown_frame (s : State) (a k seed : Nat) (pass : Bool) :
    (s.rhShown a k seed pass).mem = s.mem ∧ (s.rhShown a k seed pass).mesh = s.mesh ∧
      (s.rhShown a k seed pass).cell a = { s.cell a with rh := { (s.cell a).rh with spot := (s.cell a).rh.spot + 1, spotAt := s.now } } ∧
      OnlyCell a s (s.rhShown a k seed pass) ∧ ∀ o, o ≠ (Reg.RH_STATUS_kernel a).off → (s.rhShown a k seed pass).reg o = s.reg o := by
  have hcells : (s.rhShown a k seed pass).cells = (s.modCell a fun x => { x with rh := { x.rh with spot := x.rh.spot + 1, spotAt := s.now } }).cells :=
    State.sets_cells _ _
  refine ⟨State.sets_mem _ _, State.sets_mesh _ _, ?_, fun d hd => ?_, fun o ho => ?_⟩
  · rw [State.cell_of_cells hcells, State.cell_modCell_self]
  · rw [State.cell_of_cells hcells, State.cell_modCell_ne _ _ hd]
  · unfold State.rhShown
    rw [State.wrap, State.reg_set_ne _ (Reg.RH_STATUS_spot_count a) _ ho, State.reg_sets_ne _ _ fun p hp => ?_]
    · rfl
    · simp only [List.mem_cons, List.not_mem_nil, or_false] at hp
      obtain rfl | rfl | rfl | rfl := hp <;> exact ho

/-- The verdict: equal signatures pass; others are recorded and are a fence condition. -/
theorem State.rhJudge_eq (s : State) (a k seed : Nat) : ∃ r, s.rhJudge a k seed =
    (let area := (s.cell a).scene.area
     let t := s.rhShown a k seed (signature area.outs == area.expected)
     if signature area.outs = area.expected then t
     else (((t.stageCairn r).inc Reg.SERVICE_MODE_spot_fail_count).inc (Reg.RH_STATUS_fail_count a)).fenceCell a 6) := ⟨_, rfl⟩

theorem lastKernel_lt (a : Nat) : lastKernel a < 8 := by
  unfold lastKernel rhKernels
  cases engineOf a <;> decide

theorem State.fenced_of_serviceable {s : State} {a : Nat} (h : s.serviceable a = true) : s.fenced a = false := by
  simp only [State.serviceable, Bool.and_eq_true, Bool.not_eq_true'] at h
  exact h.1.2

section
variable {c : CellAddr} {s : State} (hc : cellValid c.toNat = true) (hs : s.serviceable c.toNat = true) (hd : s.spotDue c.toNat = true)
include hc hs hd

theorem exec_spotRehearsal (outs : List OutWord) (ecc cut : Bool) : exec (.spotRehearsal c outs ecc cut) s = .next (
    let n := (s.cell c.toNat).rh.spot
    let k := n % (lastKernel c.toNat + 1)
    if ecc then (s.rhSave c.toNat k (n % 11)).storeFault c.toNat
    else if cut then s.rhSave c.toNat k (n % 11)
    else (s.rhRun c.toNat k (n % 11) outs).rhJudge c.toNat k (n % 11)) := by
  change execSpotRehearsal c outs ecc cut s = _
  rw [execSpotRehearsal, onCell_of_valid hc, hs, hd]
  rfl
end

/-- A kernel that runs to its end with the signature expected. -/
theorem State.rhJudge_passes {s : State} {a k seed : Nat} {outs : List OutWord} (hk : k < 256) (hseed : seed < 16)
    (h : signature outs = expectedSig a k seed 0) :
    let t := (s.rhRun a k seed outs).rhJudge a k seed
    t.cell a = { s.cell a with
      rh := { (s.cell a).rh with spot := (s.cell a).rh.spot + 1, spotAt := s.now }
      scene := { (s.cell a).scene with area := (t.cell a).scene.area } } ∧
    (t.cell a).scene.area.operands = rhOperands a k 0 seed ∧ (t.cell a).scene.area.outs = outs ∧
    t.get (Reg.RH_STATUS_kernel a) = k ∧ t.get (Reg.RH_STATUS_seed a) = seed ∧
    t.flag (Reg.RH_STATUS_pass a) = true ∧ OnlyCell a s t ∧ t.mem = s.mem ∧ t.mesh = s.mesh := by
  obtain ⟨hop, hexp, houts, hcell, hframe, honly⟩ := State.rhRun_cell s a k seed outs
  have hnow : (s.rhRun a k seed outs).now = s.now := by rw [hframe]
  have hmem : (s.rhRun a k seed outs).mem = s.mem := by rw [hframe]
  have hmesh : (s.rhRun a k seed outs).mesh = s.mesh := by rw [hframe]
  generalize s.rhRun a k seed outs = u at *
  obtain ⟨r, hj⟩ := State.rhJudge_eq u a k seed
  dsimp only at hj
  rw [houts, hexp] at hj
  have hj := hj.trans (if_pos h)
  rw [beq_iff_eq.2 h] at hj
  obtain ⟨hkernel, hsd, hpass⟩ := State.rhShown_fields u a k seed true hk hseed
  obtain ⟨hm, hme, hce, hon, -⟩ := State.rhShown_frame u a k seed true
  dsimp only
  rw [hj]
  refine ⟨?_, ?_, ?_, hkernel, hsd, hpass, fun d hd => (hon d hd).trans (honly d hd), hm.trans hmem, hme.trans hmesh⟩
  · rw [hce, hcell, hnow]
  · rw [hce]
    exact hop
  · rw [hce]
    exact houts

/-- A kernel whose signature differs fences its cell. -/
theorem State.rhJudge_fails {s : State} {a k seed : Nat} {outs : List OutWord} (hc : cellValid a = true) (hf : s.fenced a = false) (hk : k < 256) (hseed : seed < 16)
    (h : signature outs ≠ expectedSig a k seed 0) :
    let t := (s.rhRun a k seed outs).rhJudge a k seed
    t.fenced a = true ∧ t.flag (Reg.RH_STATUS_pass a) = false ∧ t.mem = s.mem ∧
      (s.flag (Reg.BLK_STATUS_cell_fence_valid (a / 32)) = false → t.get (Reg.CELL_EPOCH_fence_cause a) = 6) := by
  obtain ⟨-, hexp, houts, -, hframe, -⟩ := State.rhRun_cell s a k seed outs
  have hmem : (s.rhRun a k seed outs).mem = s.mem := by rw [hframe]
  have hreg : ∀ o, (s.rhRun a k seed outs).reg o = s.reg o := fun o => by rw [hframe]; rfl
  generalize s.rhRun a k seed outs = u at *
  obtain ⟨r, hj⟩ := State.rhJudge_eq u a k seed
  dsimp only at hj
  rw [houts, hexp] at hj
  have hj := hj.trans (if_neg h)
  rw [beq_eq_false_iff_ne.2 h] at hj
  obtain ⟨-, -, hpass⟩ := State.rhShown_fields u a k seed false hk hseed
  obtain ⟨hm, -, -, -, hregs⟩ := State.rhShown_frame u a k seed false
  have hbeside := besideFences_rhStatus a
  generalize u.rhShown a k seed false = v at *
  -- what is counted and recorded on the way stands beside the fences and beside the verdict
  have hw : ∀ o, inWindow o → o ≠ (Reg.RH_STATUS_kernel a).off →
      (((v.stageCairn r).inc Reg.SERVICE_MODE_spot_fail_count).inc (Reg.RH_STATUS_fail_count a)).reg o = s.reg o := fun o ho hne => by
    rw [State.inc, State.reg_set_ne _ (Reg.RH_STATUS_fail_count a) _ hne, State.inc,
      State.reg_set_ne _ Reg.SERVICE_MODE_spot_fail_count _ (by simp only [inWindow, Reg.SERVICE_MODE_spot_fail_count] at ho ⊢; omega),
      State.reg_stageCairn _ ho, hregs o hne, hreg]
  have hpass' : (((v.stageCairn r).inc Reg.SERVICE_MODE_spot_fail_count).inc (Reg.RH_STATUS_fail_count a)).get (Reg.RH_STATUS_pass a) = v.get (Reg.RH_STATUS_pass a) := by
    rw [State.inc, State.get_set_disjoint (f := Reg.RH_STATUS_fail_count a) (g := Reg.RH_STATUS_pass a) _ _ rfl (by simp [Reg.RH_STATUS_pass])
      (by simp [Reg.RH_STATUS_pass, Reg.RH_STATUS_fail_count]), State.inc]
    refine State.get_of_reg ((State.reg_set_ne _ Reg.SERVICE_MODE_spot_fail_count _ ?_).trans (State.reg_stageCairn _ hbeside.window))
    have := hbeside.window
    simp only [inWindow, Reg.RH_STATUS_kernel] at this
    simp only [Reg.RH_STATUS_pass, Reg.SERVICE_MODE_spot_fail_count]
    omega
  have hmem' : (((v.stageCairn r).inc Reg.SERVICE_MODE_spot_fail_count).inc (Reg.RH_STATUS_fail_count a)).mem = v.mem := State.stageCairn_mem v r
  generalize ((v.stageCairn r).inc Reg.SERVICE_MODE_spot_fail_count).inc (Reg.RH_STATUS_fail_count a) = w at *
  have hwf : w.fenced a = false := by
    rw [State.fenced, State.flag, State.get_of_reg (hw _ (inWindow_cellEpoch a) (hbeside.cell a).symm)]
    exact hf
  obtain ⟨hfen, hmw⟩ := State.fenceCell_fences (cause := 6) hc hwf (by decide)
  dsimp only
  rw [hj]
  refine ⟨hfen, ?_, hmw.trans (hmem'.trans (hm.trans hmem)), fun hv => ?_⟩
  · rw [State.flag, State.get_of_reg (g := Reg.RH_STATUS_pass a) (State.reg_fenceCell hbeside), hpass']
    exact hpass
  · have hwv : w.flag (Reg.BLK_STATUS_cell_fence_valid (a / 32)) = false := by
      rw [State.flag, State.get_of_reg (g := Reg.BLK_STATUS_cell_fence_valid (a / 32)) (hw _ (inWindow_blkStatus (a / 32)) (hbeside.block (a / 32)).symm)]
      exact hv
    exact (State.fenceCell_first_leaves hwf hwv (by decide)).2.1

theorem rhKernel_lt (c n : Nat) : n % (lastKernel c + 1) < 256 := by
  have hmod : n % (lastKernel c + 1) < lastKernel c + 1 := Nat.mod_lt _ (Nat.succ_pos _)
  have := lastKernel_lt c
  omega

/-- Settles O44: a rehearsal leaves its outcome in its registers, and the pair's items and tallies follow the branch that their comparison names. -/
theorem silentErrors : Obligations.SilentErrors := by
  refine ⟨fun c outs s hc hs hd => ⟨fun h => ⟨_, exec_spotRehearsal hc hs hd outs false false, State.rhJudge_passes ?_ ?_ h⟩, fun h => ?_,
      fun cut => exec_spotRehearsal hc hs hd outs true cut, exec_spotRehearsal hc hs hd outs false true⟩,
    fun c s hc => ⟨fun hp x y dram ecc hxy => ?_, fun x hx => ?_, fun hp hr hph hfresh => ?_, fun hp x y hxy => ?_, fun x hx => ?_⟩, fun r rest s hst hfl => ?_⟩
  · exact rhKernel_lt _ _
  · omega
  · obtain ⟨hfen, hpass, hmem, hcause⟩ := State.rhJudge_fails hc (State.fenced_of_serviceable hs) (rhKernel_lt _ _) (by omega) h
    exact ⟨_, exec_spotRehearsal hc hs hd outs false false, hfen, hpass, hmem, fun _ => hcause⟩
  · change execPairedItemCompare ⟨c, dram, ecc⟩ s = _
    rw [execPairedItemCompare, onCell_of_valid hc, hp, when_true]
    dsimp only
    rw [hxy]
  · change execPairedItemTimeout c s = _
    rw [execPairedItemTimeout, onCell_of_valid hc]
    dsimp only
    rw [hx]
  · change execTallySample c s = _
    have hall : ((s.cell c.toNat).rh.tallies.all fun t => t.2.1 != (s.cell c.toNat).eng.beats) = true :=
      List.all_eq_true.2 fun t ht => by simpa using hfresh t ht
    rw [execTallySample, onCell_of_valid hc]
    dsimp only
    rw [hall, hp, hr, hph]
    rfl
  · change execTallyCompare c s = _
    rw [execTallyCompare, onCell_of_valid hc, hp, when_true]
    dsimp only
    rw [hxy]
    dsimp only
    rw [Nat.shiftLeft_eq]
  · change execTallyTimeout c s = _
    rw [execTallyTimeout, onCell_of_valid hc]
    dsimp only
    rw [hx]
    dsimp only
    rw [Nat.shiftLeft_eq]
  · change ∃ t, execCairnFlush s = .next t ∧ _
    rw [execCairnFlush, hst]
    refine ⟨_, rfl, rfl, ?_, ?_, fun hlt => ?_, rfl, rfl, rfl⟩
    · dsimp only
      rw [List.drop_append_of_le_length (by rw [List.length_append, List.length_singleton]; omega), List.getLast?_append, List.getLast?_singleton]
      rfl
    · dsimp only
      rw [List.length_drop]
      omega
    · dsimp only
      rw [List.length_append, List.length_singleton, Nat.sub_eq_zero_of_le (by omega), List.drop_zero]

end Sys2Proof.Machine
end

section
/-! PROOFS. Recovery, belays and heartbeats (O45). -/

namespace Sys2Proof.Machine
open Sys2Proof.Says

/-! ### Registers below the mailboxes -/

theorem State.reg_putArea {s : State} {o off : Nat} (h : o < off) (bs : List Byte) : (s.putArea off bs).reg o = s.reg o := by
  rw [State.putArea]
  generalize chunks 8 bs.length bs = cs
  generalize 0 = i
  induction cs generalizing s i with
  | nil => rfl
  | cons c cs ih => exact (ih (i + 1)).trans (State.reg_setReg_ne _ _ (by omega))

theorem State.reg_emit (s : State) (x : Out) (o : Nat) : (s.emit x).reg o = s.reg o := rfl

theorem State.reg_modMb (s : State) (mb : Nat) (f : MbSt → MbSt) (o : Nat) : (s.modMb mb f).reg o = s.reg o := rfl

/-- A command's answer touches nothing below the mailboxes. -/
theorem State.reg_respond {s : State} {o : Nat} (h : o < 0x1000000) (mb status : Nat) (res : List Byte) :
    (s.respond mb status res).reg o = s.reg o := by
  rw [State.respond]
  split
  · rfl
  · dsimp only
    rw [State.reg_emit, State.reg_sets_ne _ _ (fun p hp => ?_), State.reg_modMb, State.reg_putArea (by simp only [mbBase]; omega)]
    simp only [List.mem_cons, List.not_mem_nil, or_false] at hp
    obtain rfl | rfl | rfl | rfl := hp <;> simp only [Reg.MB_STATUS_busy, Reg.MB_STATUS_done, Reg.MB_STATUS_last_status, Reg.MB_STATUS_last_opcode] <;> omega

theorem State.reg_goto {s : State} {o : Nat} (hp : o ≠ Reg.PANEL_STATE_state.off) (he : o ≠ Reg.EVENT_STATUS_events.off) (p : PState) :
    (s.goto p).reg o = s.reg o := by
  rw [State.goto, State.reg_raise_ne _ he, State.reg_set_ne _ Reg.PANEL_STATE_state_changed _ hp, State.wrap,
    State.reg_set_ne _ Reg.PANEL_STATE_transition_count _ hp, State.reg_set_ne _ Reg.PANEL_STATE_state _ hp,
    State.reg_set_ne _ Reg.PANEL_STATE_prev_state _ hp]

theorem State.isIn_of_reg {s t : State} (h : t.reg Reg.PANEL_STATE_state.off = s.reg Reg.PANEL_STATE_state.off) (p : PState) : t.isIn p = s.isIn p := by
  rw [State.isIn, State.isIn, State.pst, State.pst, State.get_of_reg h]

theorem State.reg_dorLog {s : State} {o : Nat} (h : o ≠ Reg.DOR_STATUS_log_entries.off) (ty : Nat) (digest detail : List Byte) :
    (s.dorLog ty digest detail).reg o = s.reg o := by
  rw [State.dorLog]
  split
  · rw [State.reg_set_ne _ Reg.DOR_STATUS_log_folded _ h, State.reg_set_ne _ Reg.DOR_STATUS_log_entries _ h]
    rfl
  · rw [State.reg_set_ne _ Reg.DOR_STATUS_log_entries _ h]
    rfl

theorem State.rcv_dorLog (s : State) (ty : Nat) (digest detail : List Byte) : (s.dorLog ty digest detail).rcv = s.rcv := by
  rw [State.dorLog]
  split <;> rfl

/-! ### A recovery starts -/

theorem State.givePages_regs (s : State) (ps : List Nat) : (s.givePages ps false).regs = s.regs := by
  rw [State.givePages]
  induction ps generalizing s with
  | nil => rfl
  | cons a ps ih => exact ih _

theorem State.givePages_rcv (s : State) (ps : List Nat) : (s.givePages ps false).rcv = s.rcv := by
  rw [State.givePages]
  induction ps generalizing s with
  | nil => rfl
  | cons a ps ih => exact ih _

/-- Aborting an act touches neither registers nor the recovery's own state. -/
theorem State.abortAct_frame (s : State) : s.abortAct.regs = s.regs ∧ s.abortAct.rcv = s.rcv := by
  have hdrop : ∀ (l : List RosterEnt) (t : State), (l.foldl (fun s e => s.dropStage e.slot) t).regs = t.regs ∧
      (l.foldl (fun s e => s.dropStage e.slot) t).rcv = t.rcv := fun l => by
    induction l with
    | nil => exact fun t => ⟨rfl, rfl⟩
    | cons e l ih =>
      exact fun t => ⟨(ih _).1.trans (State.givePages_regs t _), (ih _).2.trans (State.givePages_rcv t _)⟩
  rw [State.abortAct]
  split
  · split
    · exact ⟨rfl, rfl⟩
    · exact hdrop _ s
  · exact ⟨rfl, rfl⟩

theorem State.reg_dropBelay {s : State} {o : Nat} (h : o < 0x1000000) : s.dropBelay.reg o = s.reg o := by
  rw [State.dropBelay]
  split
  · exact State.reg_respond h _ _ _
  · rfl

theorem State.dropBelay_rcv (s : State) : s.dropBelay.rcv = s.rcv := by
  rw [State.dropBelay]
  split
  · exact State.respond_rcv _ _ _ _
  · rfl

/-- What a starting recovery leaves: the registers of other units, and which cores are lost. -/
theorem State.startRecovery_leaves {s : State} {o : Nat} (h : o < 0x1000000) (hp : o ≠ Reg.PANEL_STATE_state.off) (he : o ≠ Reg.EVENT_STATUS_events.off)
    (hr : o ≠ Reg.RECOVERY_STATUS_phase.off) (route cause : Nat) :
    (s.startRecovery route cause).reg o = s.reg o ∧ (s.startRecovery route cause).rcv.lost = s.rcv.lost := by
  have hshow : ∀ t : State, t.showCounts.reg o = t.reg o := fun t => by
    rw [State.showCounts]
    refine State.reg_sets_ne _ _ fun p hp => ?_
    simp only [List.mem_cons, List.not_mem_nil, or_false] at hp
    obtain rfl | rfl := hp <;> exact hr
  have hsets : ∀ t : State, (t.sets [(Reg.RECOVERY_STATUS_phase, route), (Reg.RECOVERY_STATUS_cause, cause)]).reg o = t.reg o := fun t =>
    State.reg_sets_ne _ _ fun p hp => by
      simp only [List.mem_cons, List.not_mem_nil, or_false] at hp
      obtain rfl | rfl := hp <;> exact hr
  have hbase : (((s.abortAct).dropBelay).goto .recovering).reg o = s.reg o := by
    rw [State.reg_goto hp he, State.reg_dropBelay h, State.reg, State.abortAct_frame s |>.1]
    rfl
  have hlost : (((s.abortAct).dropBelay).goto .recovering).rcv.lost = s.rcv.lost := by
    rw [State.goto_rcv, State.dropBelay_rcv, (State.abortAct_frame s).2]
  rw [State.startRecovery]
  split
  · dsimp only
    generalize ((s.abortAct).dropBelay).goto .recovering = u at hbase hlost
    refine ⟨(hshow _).trans (Eq.trans ?_ ((hsets u).trans hbase)), ?_⟩
    · split
      · rfl
      · split <;> rfl
    · refine Eq.trans ?_ hlost
      rw [State.showCounts]
      split
      · rfl
      · split <;> rfl
  · exact ⟨rfl, rfl⟩

/-! ### Stage cores -/

theorem State.reg_showLead {s : State} {o : Nat} (h : o < 0x1000000) : s.showLead.reg o = s.reg o := by
  rw [State.showLead]
  generalize List.range 8 = l
  induction l generalizing s with
  | nil => rfl
  | cons m l ih => exact ih.trans (State.reg_set_ne _ (Reg.MB_STATUS_by_lead m) _ (by simp only [Reg.MB_STATUS_by_lead]; omega))

theorem State.showLead_eq (s : State) : s.showLead = { s with regs := s.showLead.regs } := by
  rw [State.showLead]
  generalize List.range 8 = l
  induction l generalizing s with
  | nil => rfl
  | cons m l ih =>
    rw [List.foldl_cons, ih]
    rfl

theorem State.showLead_rcv (s : State) : s.showLead.rcv = s.rcv := by rw [State.showLead_eq]
theorem State.showLead_mem (s : State) : s.showLead.mem = s.mem := by rw [State.showLead_eq]

theorem State.loseCommand_leaves {s : State} {o : Nat} (h : o < 0x1000000) (hd : o ≠ Reg.DOR_STATUS_attest_queue.off) (mb : Nat) :
    (s.loseCommand mb).reg o = s.reg o ∧ (s.loseCommand mb).rcv = s.rcv ∧ (s.loseCommand mb).mem = s.mem := by
  have key : ∀ t : State, t.regs = s.regs ∧ t.rcv = s.rcv ∧ t.mem = s.mem →
      ((t.set Reg.DOR_STATUS_attest_queue t.dor.queue.length).respond mb St.busy.code []).reg o = s.reg o ∧
      ((t.set Reg.DOR_STATUS_attest_queue t.dor.queue.length).respond mb St.busy.code []).rcv = s.rcv ∧
      ((t.set Reg.DOR_STATUS_attest_queue t.dor.queue.length).respond mb St.busy.code []).mem = s.mem := fun t ht => by
    refine ⟨?_, (State.respond_rcv _ _ _ _).trans ht.2.1, (State.respond_mem _ _ _ _).trans ht.2.2⟩
    rw [State.reg_respond h, State.reg_set_ne _ Reg.DOR_STATUS_attest_queue _ hd, State.reg, State.reg, ht.1]
  rw [State.loseCommand]
  refine key _ ?_
  split <;> exact ⟨rfl, rfl, rfl⟩

theorem State.foldl_loseCommand_leaves {o : Nat} (h : o < 0x1000000) (hd : o ≠ Reg.DOR_STATUS_attest_queue.off) (l : List Nat) (s : State) :
    (l.foldl State.loseCommand s).reg o = s.reg o ∧ (l.foldl State.loseCommand s).rcv = s.rcv ∧ (l.foldl State.loseCommand s).mem = s.mem := by
  induction l generalizing s with
  | nil => exact ⟨rfl, rfl, rfl⟩
  | cons mb l ih =>
    obtain ⟨hreg, hrcv, hmem⟩ := State.loseCommand_leaves (s := s) h hd mb
    obtain ⟨hreg', hrcv', hmem'⟩ := ih (s.loseCommand mb)
    exact ⟨hreg'.trans hreg, hrcv'.trans hrcv, hmem'.trans hmem⟩

/-- Outside a bring-up step the loss of a stage core ends no step. -/
theorem State.stepLoss_of_ready {s : State} (h : s.isIn .ready = true) : s.stepLoss = s := by
  rw [State.stepLoss, if_neg]
  rintro ⟨hb, -⟩
  simp only [State.isIn, beq_iff_eq] at h hb
  rw [h] at hb
  exact absurd hb (by decide)

theorem State.heartbeatLoss_ready {s : State} {n : Nat} (hn : n < 8) (hl : s.coreLive n = true) (hlate : nth s.rcv.coreAt n 0 + 1000000 ≤ s.now)
    (hr : s.isIn .ready = true) (hlead : s.get Reg.HEARTBEAT_lead ≠ n) :
    ∃ t, exec (.heartbeatLoss n) s = .next t ∧ t.get Reg.HEARTBEAT_live = s.get Reg.HEARTBEAT_live - 2 ^ n ∧
      t.rcv.lost = NSet.add s.rcv.lost n ∧ t.get Reg.HEARTBEAT_lead = s.get Reg.HEARTBEAT_lead ∧ t.mem = s.mem := by
  have hv : decide (n < 8) = true := decide_eq_true hn
  change ∃ t, execHeartbeatLoss n s = .next t ∧ _
  rw [execHeartbeatLoss, hv, onUnit_true, hl, decide_eq_true hlate, Bool.and_self, when_true]
  dsimp only
  have hlive : s.get Reg.HEARTBEAT_live < 2 ^ 8 := bits_lt _ _ _
  generalize hu : (s.set Reg.HEARTBEAT_live (s.get Reg.HEARTBEAT_live - 2 ^ n)).inc Reg.HEARTBEAT_core_restarts = u
  have hulive : u.get Reg.HEARTBEAT_live = s.get Reg.HEARTBEAT_live - 2 ^ n := by
    rw [← hu, State.inc, State.get_set_disjoint (f := Reg.HEARTBEAT_core_restarts) (g := Reg.HEARTBEAT_live) _ _ rfl (by decide) (by decide),
      State.get_set_self (f := Reg.HEARTBEAT_live) _ _ (by decide)]
    exact Nat.mod_eq_of_lt (lt_of_le_of_lt (Nat.sub_le _ _) hlive)
  have hulead : u.get Reg.HEARTBEAT_lead = s.get Reg.HEARTBEAT_lead := by
    rw [← hu, State.inc, State.get_set_disjoint (f := Reg.HEARTBEAT_core_restarts) (g := Reg.HEARTBEAT_lead) _ _ rfl (by decide) (by decide),
      State.get_set_disjoint (f := Reg.HEARTBEAT_live) (g := Reg.HEARTBEAT_lead) _ _ rfl (by decide) (by decide)]
  have huin : u.isIn .ready = true := by
    rw [← hu, ← hr]
    refine State.isIn_of_reg ?_ _
    rw [State.inc, State.reg_set_ne _ Reg.HEARTBEAT_core_restarts _ (by decide), State.reg_set_ne _ Reg.HEARTBEAT_live _ (by decide)]
  have hurcv : u.rcv = s.rcv := by rw [← hu]; rfl
  have humem : u.mem = s.mem := by rw [← hu]; rfl
  generalize (List.range 8).filter (fun m => s.server m == n) = mine
  have hfold := fun {o} (h : o < 0x1000000) hd => State.foldl_loseCommand_leaves (o := o) h hd mine (u.modRcv fun r => { r with lost := NSet.add r.lost n })
  generalize mine.foldl State.loseCommand (u.modRcv fun r => { r with lost := NSet.add r.lost n }) = w at hfold
  obtain ⟨hwreg, hwrcv, hwmem⟩ := hfold (o := 0x38) (by decide) (by decide)
  have hwin : w.isIn .ready = true := (State.isIn_of_reg (hfold (o := 0x10) (by decide) (by decide)).1 _).trans huin
  refine ⟨w.showLead, ?_, ?_, ?_, ?_, ?_⟩
  · have hstay : (w.showLead).stepLoss = w.showLead := State.stepLoss_of_ready ((State.isIn_of_reg (State.reg_showLead (by decide)) _).trans hwin)
    cases (List.range 8).find? fun i => bitAt (s.get Reg.HEARTBEAT_live - 2 ^ n) i with
    | none => exact congrArg _ hstay
    | some l =>
      dsimp only
      rw [if_neg hlead]
      exact congrArg _ hstay
  · exact ((State.get_of_reg (g := Reg.HEARTBEAT_live) (State.reg_showLead (by decide))).trans (State.get_of_reg (g := Reg.HEARTBEAT_live) hwreg)).trans hulive
  · rw [State.showLead_rcv, hwrcv]
    exact congrArg (fun r : RecSt => NSet.add r.lost n) hurcv
  · exact ((State.get_of_reg (g := Reg.HEARTBEAT_lead) (State.reg_showLead (by decide))).trans (State.get_of_reg (g := Reg.HEARTBEAT_lead) hwreg)).trans hulead
  · rw [State.showLead_mem, hwmem]
    exact humem

theorem nth_setNth_eq {α : Type} (l : List α) (i : Nat) (v d : α) : nth (setNth l i v) i d = if i < l.length then v else d := by
  induction l generalizing i with
  | nil => rfl
  | cons x xs ih =>
    cases i with
    | zero => rfl
    | succ i =>
      refine (ih i).trans ?_
      rw [List.length_cons]
      exact if_congr (by omega) rfl rfl

/-- What a verified stage core's return does; every entry of the log carries the digest of the firmware it runs. -/
theorem exec_coreRejoin {s : State} {n : Nat} (hn : n < 8) (hl : s.rcv.lost.contains n = true) : ∃ digest, exec (.coreRejoin n true) s = .next
    (if s.get Reg.HEARTBEAT_live = 0 then
      let u := s.sets [(Reg.HEARTBEAT_live, 0xFF), (Reg.HEARTBEAT_lead, 0)]
      let v := u.modRcv fun r => { r with lost := [], coreAt := List.replicate 8 u.now }
      (((List.range 8).foldl (fun s _ => s.dorLog 0x0C digest []) v).showLead).leadLost
    else
      let u := s.set Reg.HEARTBEAT_live (s.get Reg.HEARTBEAT_live ||| 2 ^ n)
      let v := u.modRcv fun r => { r with lost := NSet.del r.lost n, coreAt := setNth r.coreAt n u.now }
      (v.dorLog 0x0C digest []).showLead) := by
  have hv : decide (n < 8) = true := decide_eq_true hn
  change ∃ digest, execCoreRejoin n true s = _
  rw [execCoreRejoin, hv, onUnit_true, hl, Bool.and_self, when_true]
  exact ⟨_, rfl⟩

/-- A stage core that rejoins beside live ones takes its place among them. -/
theorem State.coreRejoin_beside {s : State} {n : Nat} (hn : n < 8) (hl : s.rcv.lost.contains n = true) (h0 : s.get Reg.HEARTBEAT_live ≠ 0) :
    ∃ t, exec (.coreRejoin n true) s = .next t ∧ t.get Reg.HEARTBEAT_live = (s.get Reg.HEARTBEAT_live) ||| 2 ^ n ∧
      t.rcv.lost = NSet.del s.rcv.lost n ∧ nth t.rcv.coreAt n 0 = (if n < s.rcv.coreAt.length then s.now else 0) := by
  obtain ⟨digest, hx⟩ := exec_coreRejoin hn hl
  dsimp only at hx
  rw [hx, if_neg h0]
  generalize hu : s.set Reg.HEARTBEAT_live (s.get Reg.HEARTBEAT_live ||| 2 ^ n) = u
  have hlive : u.get Reg.HEARTBEAT_live = (s.get Reg.HEARTBEAT_live) ||| 2 ^ n := by
    rw [← hu, State.get_set_self (f := Reg.HEARTBEAT_live) _ _ (by decide)]
    exact Nat.mod_eq_of_lt (Nat.or_lt_two_pow (bits_lt _ _ _) (Nat.pow_lt_pow_right (by decide) hn))
  have hrcv : u.rcv = s.rcv := by rw [← hu]; rfl
  generalize hv : u.modRcv (fun r => { r with lost := NSet.del r.lost n, coreAt := setNth r.coreAt n u.now }) = v
  have hvreg : v.reg 0x38 = u.reg 0x38 := by rw [← hv]; rfl
  have hnow : u.now = s.now := by rw [← hu]; rfl
  have hvrcv : v.rcv = { s.rcv with lost := NSet.del s.rcv.lost n, coreAt := setNth s.rcv.coreAt n s.now } := by rw [← hv, State.modRcv, hrcv, hnow]
  have hreg : (v.dorLog 0x0C digest []).showLead.reg 0x38 = u.reg 0x38 :=
    ((State.reg_showLead (by decide)).trans (State.reg_dorLog (by decide) _ _ _)).trans hvreg
  have hsrcv : (v.dorLog 0x0C digest []).showLead.rcv = v.rcv := by
    rw [State.showLead_rcv, State.rcv_dorLog]
  refine ⟨_, rfl, (State.get_of_reg (g := Reg.HEARTBEAT_live) hreg).trans hlive, ?_, ?_⟩
  · rw [hsrcv, hvrcv]
  · rw [hsrcv, hvrcv]
    exact nth_setNth_eq _ _ _ _

theorem State.foldl_dorLog_leaves {o : Nat} (h : o ≠ Reg.DOR_STATUS_log_entries.off) (digest : List Byte) (l : List Nat) (s : State) :
    (l.foldl (fun s _ => s.dorLog 0x0C digest []) s).reg o = s.reg o ∧ (l.foldl (fun s _ => s.dorLog 0x0C digest []) s).rcv = s.rcv := by
  induction l generalizing s with
  | nil => exact ⟨rfl, rfl⟩
  | cons _ l ih => exact ⟨(ih _).1.trans (State.reg_dorLog h _ _ _), (ih _).2.trans (State.rcv_dorLog _ _ _ _)⟩

/-- A lost lead leaves which cores are live and lost. -/
theorem State.leadLost_leaves (s : State) : s.leadLost.reg 0x38 = s.reg 0x38 ∧ s.leadLost.rcv.lost = s.rcv.lost := by
  rw [State.leadLost]
  split
  · exact State.startRecovery_leaves (by decide) (by decide) (by decide) (by decide) _ _
  · split
    · exact ⟨State.reg_set_ne _ Reg.RECOVERY_STATUS_phase _ (by decide), rfl⟩
    · exact ⟨rfl, rfl⟩

/-- The first stage core to rejoin brings all of them back, core 0 at their lead. -/
theorem State.coreRejoin_first {s : State} {n : Nat} (hn : n < 8) (hl : s.rcv.lost.contains n = true) (h0 : s.get Reg.HEARTBEAT_live = 0) :
    ∃ t, exec (.coreRejoin n true) s = .next t ∧ t.get Reg.HEARTBEAT_live = 0xFF ∧ t.get Reg.HEARTBEAT_lead = 0 ∧ t.rcv.lost = [] := by
  obtain ⟨digest, hx⟩ := exec_coreRejoin hn hl
  dsimp only at hx
  rw [hx, if_pos h0]
  generalize hu : s.sets [(Reg.HEARTBEAT_live, 0xFF), (Reg.HEARTBEAT_lead, 0)] = u
  have hlive : u.get Reg.HEARTBEAT_live = 0xFF := by
    rw [← hu]
    exact (State.get_set_disjoint (f := Reg.HEARTBEAT_lead) (g := Reg.HEARTBEAT_live) _ _ rfl (by decide) (by decide)).trans
      (State.get_set_self s Reg.HEARTBEAT_live 0xFF (by decide))
  have hlead : u.get Reg.HEARTBEAT_lead = 0 := by
    rw [← hu]
    exact State.get_set_self (s.set Reg.HEARTBEAT_live 0xFF) Reg.HEARTBEAT_lead 0 (by decide)
  have hlog := State.foldl_dorLog_leaves (o := 0x38) (by decide) digest (List.range 8)
    (u.modRcv fun r => { r with lost := [], coreAt := List.replicate 8 u.now })
  generalize (List.range 8).foldl (fun s _ => s.dorLog 0x0C digest []) (u.modRcv fun r => { r with lost := [], coreAt := List.replicate 8 u.now }) = w
    at hlog
  obtain ⟨hreg, hlost⟩ := State.leadLost_leaves w.showLead
  have hreg' : w.showLead.leadLost.reg 0x38 = u.reg 0x38 := (hreg.trans (State.reg_showLead (by decide))).trans hlog.1
  refine ⟨_, rfl, (State.get_of_reg (g := Reg.HEARTBEAT_live) hreg').trans hlive, (State.get_of_reg (g := Reg.HEARTBEAT_lead) hreg').trans hlead, ?_⟩
  rw [hlost, State.showLead_rcv, hlog.2]
  rfl

/-! ### Restart from a belay -/

theorem State.rcv_fwSubmit (s : State) (ds : List Desc) : (s.fwSubmit ds).rcv = s.rcv := by
  have hfold : ∀ (l : List Desc) (t : State), (l.foldl (fun s d =>
      let p := s.idlest
      if s.porterRoom p then s.queueDesc p d else s.modHub fun h => { h with fw := h.fw ++ [d] }) t).rcv = t.rcv := fun l => by
    induction l with
    | nil => exact fun t => rfl
    | cons d l ih =>
      refine fun t => (ih _).trans ?_
      dsimp only
      split <;> rfl
  exact hfold _ _

theorem State.rcv_installLoad (s : State) (y : Option Belay) : (s.installLoad y).rcv = s.rcv := by
  rw [State.installLoad]
  generalize s.placed = l
  have hfold : ∀ (l : List (Nat × Nat)) (t : State), (l.foldl (fun s q => s.modCell (bits q.2 0 16) fun x =>
      { x with grants := { x.grants with load := s.loadAreas y q.1 } }) t).rcv = t.rcv := fun l => by
    induction l with
    | nil => exact fun t => rfl
    | cons q l ih => exact fun t => ih _
  exact hfold l s

/-- With no complete half of the last belay, the restart takes none. -/
theorem State.takeHalf_none {s : State} {y : Belay} (hy : s.rcv.lastBelay = some y) (h0 : s.belaySeq y 0 = none) (h1 : s.belaySeq y 1 = none)
    (dram : List DramErr) : (s.takeHalf dram).rcv.half = none := by
  rw [State.takeHalf, hy]
  dsimp only
  rw [h0, h1, ite_self, ite_self]
  rfl

theorem State.restartBelay_noHalf {s : State} {y : Belay} (hstep : s.rcv.loadStep = 0) (hy : s.rcv.lastBelay = some y)
    (h0 : s.belaySeq y 0 = none) (h1 : s.belaySeq y 1 = none) (dram : List DramErr) :
    (s.restartBelay dram).rcv.half = none ∧ (s.restartBelay dram).rcv.loadStep = 1 := by
  rw [State.restartBelay, hstep]
  refine ⟨?_, rfl⟩
  refine Eq.trans ?_ (State.takeHalf_none hy h0 h1 dram)
  change RecSt.half (State.rcv (State.fwSubmit (State.installLoad _ _) _)) = _
  generalize s.takeHalf dram = t
  generalize t.belayNow.map (·.1) = y
  generalize t.loadCopies _ = ls
  exact congrArg RecSt.half ((State.rcv_fwSubmit (t.installLoad y) ls).trans (State.rcv_installLoad t y))

/-- Once the package's copies are in, the restart goes on or is refused. -/
theorem State.restartBelay_later {s : State} {dram : List DramErr} (hstep : 2 ≤ s.rcv.loadStep) (hbusy : s.fwBusy = false) :
    s.restartBelay dram = if s.hub.fwPoison then (s.stageCairn (Cairn.blank 0x0A 6 0 0 0xFFFF 0)).refuseRestart
      else if s.storesFull then s.restartRun else s := by
  rw [State.restartBelay]
  split
  · omega
  · omega
  · exact if_neg (ne_true_of_eq_false hbusy)

/-! ### The statement -/

theorem exec_restartFromBelay {s : State} (hr : s.isIn .recovering = true) (dram : List DramErr) : exec (.restartFromBelay dram) s =
    .next (match s.get Reg.RECOVERY_STATUS_phase with
      | 5 =>
        let r := s.planView.replaceAll s.toMove
        if r.2 then
          match r.1.rigBroken with
          | some t =>
            let t := (t.asRewrites s).publishCast
            (if s.toMove.isEmpty ∧ s.rcv.route ≠ 2 then t else t.publishDist).set Reg.RECOVERY_STATUS_phase 6
          | none => (r.1.stageCairn (Cairn.blank 0x0C 6 0 0 0xFFFF 0)).refuseRestart
        else r.1.refuseRestart
      | 6 => s.restartBelay dram
      | _ => s) := congrArg _ (if_pos hr)

/-- Settles O45: each report, phase and heartbeat takes the branch that its conditions select. -/
theorem recovery : Obligations.Recovery := by
  refine ⟨⟨fun r k s hk => ⟨fun h0 h9 h10 => ?_, fun h0 h7 => ?_⟩, fun s hr => ⟨fun hp hf => ?_, fun hp hf => ?_, fun hp hl => ?_, fun hp ecc => ?_,
      fun hp hl => ?_, fun hp hf => ⟨fun hc => ?_, fun hc => ?_⟩, fun hp hn fails => ?_, fun hp h3 fails => ?_, fun hp => ⟨fun h2 dram => ?_, fun h2 hb dram => ?_, fun h2 t ht dram => ?_⟩,
      fun hp dram => ?_, fun hp hstep y hy hb0 hb1 dram => ?_, fun hp hstep hbusy => ⟨fun hpo dram => ?_, fun hpo hfull dram => ?_⟩⟩,
      fun y p s hy hp hr => ⟨fun g hg hc hh hgh => ⟨fun hlt => ?_, fun hle => ?_⟩, fun hc hbusy dram => ?_⟩⟩,
    fun n s hn => ⟨fun hl => ?_, fun hl hlate hr hlead _ => State.heartbeatLoss_ready hn hl hlate hr hlead, State.coreRejoin_beside hn, State.coreRejoin_first hn, ?_⟩⟩
  · change execFaultReportArrival k s = _
    rw [execFaultReportArrival, hk]
    dsimp only
    rw [if_neg h0, if_neg (not_or.2 ⟨h9, h10⟩), if_pos h0, if_neg (not_or.2 ⟨h9, h10⟩), List.any_cons, List.any_nil, Bool.or_false]
  · change execFaultReportArrival k s = _
    rw [execFaultReportArrival, hk]
    dsimp only
    rw [if_pos h0, if_neg (not_not_intro h0)]
    split
    · omega
    · omega
    · omega
    · omega
    · rfl
  · change execQuiesceDone s = _
    rw [execQuiesceDone, hr, hp]
    exact congrArg _ (if_neg (ne_true_of_eq_false hf))
  · change execQuiesceDone s = _
    rw [execQuiesceDone, hr, hp]
    exact congrArg _ (if_pos hf)
  · change execQuiesceTimeout s = _
    rw [execQuiesceTimeout, hr, hp, decide_eq_true hl]
    rfl
  · change execSnapshotDone ecc s = _
    rw [execSnapshotDone, hr, hp]
    rfl
  · change execComputeResetTimeout s = _
    rw [execComputeResetTimeout, hr, hp, decide_eq_true hl]
    rfl
  · change execComputeResetDone s = _
    rw [execComputeResetDone, hr, hp]
    dsimp only
    rw [hf, beq_false_of_ne hc]
    exact congrArg _ (if_neg (ne_true_of_eq_false hf))
  · change execComputeResetDone s = _
    rw [execComputeResetDone, hr, hp]
    dsimp only
    rw [hf, hc]
    generalize (s.clearCompute false).strikeAgain = t at hf
    change Host.Outcome.next (if (State.modRcv (State.stageCairn _ _) _).rcv.refuse = true then _ else _) = _
    exact congrArg _ (if_neg (ne_true_of_eq_false ((congrArg RecSt.refuse (State.stageCairn_rcv t _)).trans hf)))
  · change execDressRehearsalDone fails s = _
    rw [execDressRehearsalDone, hr, hp]
    exact congrArg _ (if_neg hn)
  · change ∃ t, execDressRehearsalDone fails s = .next t ∧ _
    rw [execDressRehearsalDone, hr, hp]
    refine ⟨_, congrArg _ (if_pos h3), ?_⟩
    exact State.get_set_self _ Reg.RECOVERY_STATUS_phase 5 (by decide)
  · rw [exec_restartFromBelay hr, hp]
    exact congrArg _ (if_neg (ne_true_of_eq_false h2))
  · rw [exec_restartFromBelay hr, hp]
    dsimp only
    rw [if_pos h2, hb] <;> rfl
  · rw [exec_restartFromBelay hr, hp]
    dsimp only
    rw [if_pos h2, ht] <;> rfl
  · rw [exec_restartFromBelay hr, hp] <;> rfl
  · rw [exec_restartFromBelay hr, hp]
    exact ⟨_, rfl, State.restartBelay_noHalf hstep hy hb0 hb1 dram⟩
  · rw [exec_restartFromBelay hr, hp]
    change Host.Outcome.next (s.restartBelay dram) = _
    rw [State.restartBelay_later hstep hbusy, if_pos hpo]
  · rw [exec_restartFromBelay hr, hp]
    change Host.Outcome.next (s.restartBelay dram) = _
    rw [State.restartBelay_later hstep hbusy, if_neg (ne_true_of_eq_false hpo), if_pos hfull]
  · change execBelayHold g s = _
    rw [execBelayHold, hy, hp]
    dsimp only
    rw [if_pos ⟨hr, hg, by rw [hc]; rfl, by simpa using hh, hgh⟩]
    exact congrArg _ (if_pos hlt)
  · change execBelayHold g s = _
    rw [execBelayHold, hy, hp]
    dsimp only
    rw [if_pos ⟨hr, hg, by rw [hc]; rfl, by simpa using hh, hgh⟩]
    exact congrArg _ (if_neg (Nat.not_lt.2 hle))
  · change ∃ t seq, execBelayCopyDone dram s = .next t ∧ _
    rw [execBelayCopyDone, hy]
    dsimp only
    rw [if_pos ⟨hr, hc, by rw [hbusy]; rfl⟩]
    cases s.belayLast y with
    | none => exact ⟨_, _, rfl, State.respond_belay _ _ _ _, rfl, rfl⟩
    | some last => exact ⟨_, _, rfl, State.respond_belay _ _ _ _, rfl, rfl⟩
  · have hv : decide (n < 8) = true := decide_eq_true hn
    change execHeartbeatTick n s = _
    rw [execHeartbeatTick, hv, onUnit_true, hl, when_true]
  · have hv : decide (n < 8) = true := decide_eq_true hn
    change execCoreRejoin n false s = _
    rw [execCoreRejoin, hv, onUnit_true, Bool.and_false, when_false]

end Sys2Proof.Machine
end

section
/-! PROOFS. BAR0, the configuration space and the PCIe link (O46). -/

namespace Sys2Proof.Machine
open Sys2Proof.Says

/-! ### Fields of a register row (R9) -/

/-- Writing fields beside a field leaves it. -/
theorem bits_foldl_setBits_beside {f : FieldSpec} (g : FieldSpec → Nat) (l : List FieldSpec)
    (h : ∀ x ∈ l, f.lo + f.w ≤ x.lo ∨ x.lo + x.w ≤ f.lo) (w : Nat) :
    bits (l.foldl (fun w x => setBits w x.lo x.w (g x)) w) f.lo f.w = bits w f.lo f.w := by
  induction l generalizing w with
  | nil => rfl
  | cons x l ih =>
    rw [List.foldl_cons, ih (fun y hy => h y (List.mem_cons_of_mem _ hy)), bits_setBits_disjoint _ _ _ _ _ _ (h x List.mem_cons_self)]

/-- Fields that lie apart each take their own value. -/
theorem bits_foldl_setBits {f : FieldSpec} (g : FieldSpec → Nat) {l : List FieldSpec} (hf : f ∈ l)
    (hl : l.Pairwise fun x y => x.lo + x.w ≤ y.lo ∨ y.lo + y.w ≤ x.lo) (w : Nat) :
    bits (l.foldl (fun w x => setBits w x.lo x.w (g x)) w) f.lo f.w = g f % 2 ^ f.w := by
  induction l generalizing w with
  | nil => exact absurd hf List.not_mem_nil
  | cons x l ih =>
    obtain ⟨hx, hl⟩ := List.pairwise_cons.1 hl
    obtain rfl | hf := List.mem_cons.1 hf
    · rw [List.foldl_cons, bits_foldl_setBits_beside g l hx, bits_setBits_self]
    · exact ih hf hl _

theorem regRows_apart : ∀ r ∈ regRows, r.fields.Pairwise fun x y => x.lo + x.w ≤ y.lo ∨ y.lo + y.w ≤ x.lo := by decide +kernel

/-- Every field of every register takes what its access code gives it. -/
theorem RegRow.after_field {r : RegRow} (hr : r ∈ regRows) {f : FieldSpec} (hf : f ∈ r.fields) (locked : Bool) (old v m : Nat) :
    bits (r.after locked old v m) f.lo f.w = f.after locked old v m % 2 ^ f.w :=
  bits_foldl_setBits (fun x => x.after locked old v m) hf (regRows_apart r hr) old

/-- A write of the whole word puts its bits in a field that takes what is written. -/
theorem put_all (o x w : Nat) (hx : x < 2 ^ w) : (o &&& (2 ^ w - 1 - (2 ^ w - 1))) ||| (x &&& (2 ^ w - 1)) = x := by
  rw [Nat.sub_self, Nat.and_zero, Nat.zero_or, Nat.and_two_pow_sub_one_eq_mod, Nat.mod_eq_of_lt hx]

/-! ### Accesses (R8, R444) -/

theorem State.barAccess_silent {s : State} {a : BarAccess} (h : s.judgeBar a = .silent) :
    s.barAccess a = if a.write then s else s.answer a (.barOnes a.off) := by rw [State.barAccess, h]

theorem State.barAccess_bad {s : State} {a : BarAccess} {k : Nat} (h : s.judgeBar a = .bad k) (hw : a.write = true) :
    s.barAccess a = s.badAccess a.off true k false := by
  rw [State.barAccess, h]
  dsimp only
  rw [if_pos hw, hw]

theorem State.barAccess_read {s : State} {a : BarAccess} (h : s.judgeBar a = .pass) (hw : a.write = false) :
    s.barAccess a = s.answer a (.barRead a.off (s.barLoad (a.off / 8 * 8) >>> (8 * (a.off % 8)) % 2 ^ (8 * a.width))) := by
  rw [State.barAccess, h]
  exact if_neg (ne_true_of_eq_false hw)

/-- An access that reaches its register lies on a multiple of its width. -/
theorem State.aligned_of_pass {s : State} {a : BarAccess} (h : s.judgeBar a = .pass) (hw : a.width = 8) : a.off % 8 = 0 := by
  rw [State.judgeBar] at h
  split at h
  · exact absurd h (by simp)
  · split at h
    · exact absurd h (by simp)
    · next hal => simpa [hw] using hal

/-- A write of a whole word to a register. -/
theorem State.barAccess_write {s : State} {a : BarAccess} {r : RegRow} (h : s.judgeBar a = .pass) (hw : a.write = true) (h8 : a.width = 8)
    (hp : barPlace a.off = .reg r) (ho : ownRow a.off = false) : s.barAccess a = s.regWrite r a.off a.data.toNat (2 ^ 64 - 1) := by
  have hal : a.off % 8 = 0 := State.aligned_of_pass h h8
  have hbase : a.off / 8 * 8 = a.off := by omega
  have hdata : a.data.toNat <<< (8 * (a.off % 8)) % 2 ^ 64 = a.data.toNat := by
    rw [hal, Nat.mul_zero, Nat.shiftLeft_zero, Nat.mod_eq_of_lt a.data.isLt]
  have hmask : (2 ^ (8 * a.width) - 1) <<< (8 * (a.off % 8)) = 2 ^ 64 - 1 := by
    rw [hal, h8]
    rfl
  rw [State.barAccess, h]
  dsimp only
  rw [if_pos hw, hbase, hdata, hmask, State.barStore, hp]
  exact if_neg (ne_true_of_eq_false ho)

/-- A bad access is recorded with its place and reason, and changes nothing else but registers. -/
theorem State.badAccess_records {s : State} {off k : Nat} (ho : off < 0x4000000) :
    (s.badAccess off true k false).get Reg.BAD_ACCESS_INFO_offset = off ∧
    (s.badAccess off true k false).get Reg.BAD_ACCESS_INFO_reason = k % 2 ^ Reg.BAD_ACCESS_INFO_reason.w ∧
    (s.badAccess off true k false).mem = s.mem ∧ (s.badAccess off true k false).cells = s.cells := by
  have hget : ∀ g : RF, g.off = 0x10010 → g.lo + g.w ≤ 32 → (s.badAccess off true k false).get g =
      ((((s.set Reg.BAD_ACCESS_INFO_offset off).set Reg.BAD_ACCESS_INFO_write (b2n true)).set Reg.BAD_ACCESS_INFO_reason k).set Reg.BAD_ACCESS_INFO_bar2 (b2n false)).get g :=
    fun g hg hlo => by
      rw [State.badAccess, State.get_of_reg (State.reg_raise_ne _ (by rw [hg]; decide)), State.inc,
        State.get_set_disjoint (f := Reg.BAD_ACCESS_INFO_count) (g := g) _ _ hg (by omega) (Or.inl hlo)]
      rfl
  refine ⟨?_, ?_, State.raise_mem _ _, State.raise_cells _ _⟩
  · rw [hget Reg.BAD_ACCESS_INFO_offset rfl (by decide),
      State.get_set_disjoint (f := Reg.BAD_ACCESS_INFO_bar2) (g := Reg.BAD_ACCESS_INFO_offset) _ _ rfl (by decide) (by decide),
      State.get_set_disjoint (f := Reg.BAD_ACCESS_INFO_reason) (g := Reg.BAD_ACCESS_INFO_offset) _ _ rfl (by decide) (by decide),
      State.get_set_disjoint (f := Reg.BAD_ACCESS_INFO_write) (g := Reg.BAD_ACCESS_INFO_offset) _ _ rfl (by decide) (by decide),
      State.get_set_self (f := Reg.BAD_ACCESS_INFO_offset) _ _ (by decide)]
    exact Nat.mod_eq_of_lt ho
  · rw [hget Reg.BAD_ACCESS_INFO_reason rfl (by decide),
      State.get_set_disjoint (f := Reg.BAD_ACCESS_INFO_bar2) (g := Reg.BAD_ACCESS_INFO_reason) _ _ rfl (by decide) (by decide),
      State.get_set_self (f := Reg.BAD_ACCESS_INFO_reason) _ _ (by decide)]

/-- A register without rules of its own takes the word that its row gives. -/
theorem State.regWrite_plain {s : State} {r : RegRow} {off v m : Nat} (ho : overrunBit off = none) (ha : ∀ w v, s.adjust off w v = w)
    (he : off ≠ 0x10008) (hb : off ≠ 0x20000) (hl : s.locked off = false) :
    s.regWrite r off v m = s.setReg off (r.after false (s.reg off) v m) := by
  rw [State.regWrite, ho, hl]
  dsimp only
  rw [ha, if_neg he, if_neg fun h => hb h.1]
  rfl

/-! ### Registers of the host -/

/-- A write of the host to a register outside the windows that answers. -/
theorem State.hostWrite_bar {s : State} {off : Nat} {v : Word64} {r : RegRow} (ha : s.barAnswers off false = true) (h8 : off % 8 = 0)
    (hlow : off < 0x2000000) (hp : barPlace off = .reg r) (ho : ownRow off = false) : s.hostWrite off v = s.regWrite r off v.toNat (2 ^ 64 - 1) := by
  refine State.barAccess_write ?_ rfl rfl hp ho
  have hbase : off / 8 * 8 = off := by omega
  have hwin : decide (0x2000000 ≤ off) = false := decide_eq_false (by omega)
  rw [State.judgeBar]
  dsimp only
  rw [ha, h8, hbase, hp, hwin, lacksBank, hwin]
  rfl

theorem decode_eventEnable : barPlace 0x10008 = .reg ⟨false, 0x10008, 0x0, 1, .warm, [⟨0, 9, .rw, 0x1ff⟩]⟩ := by decide +kernel
theorem decode_arbCtrl : barPlace 0x20000 = .reg ⟨false, 0x20000, 0x0, 1, .warm, [⟨0, 1, .w1s, 0x0⟩, ⟨1, 1, .w1c, 0x0⟩]⟩ := by decide +kernel

/-- The offset of a register of a window names a row of the windows. -/
theorem barPlace_window {g k : Nat} {r : RegRow} (hg : g < 144) (hk : k < 0xA000) (h : regRows.find? (fun r => r.win && r.holds k) = some r) :
    barPlace (winBase g + k) = .reg r := by
  have hlo : 0x2000000 ≤ winBase g + k := by simp only [winBase]; omega
  have hhi : winBase g + k < 0x2900000 := by simp only [winBase]; omega
  have hoff : (winBase g + k - 0x2000000) % 0x10000 = k := by simp only [winBase]; omega
  rw [barPlace]
  rw [if_neg (by omega), if_neg (by omega), if_neg (by omega), if_neg (by omega), regRowAt]
  rw [if_pos ⟨hlo, hhi⟩, hoff, if_neg (by omega), h]

/-- A write of the host to a register of a window that answers. -/
theorem State.hostWrite_window {s : State} {g k : Nat} {v : Word64} {r : RegRow} (hg : regionValid g = true) (ha : s.reached 4 = true)
    (hoff : s.isIn .off = false) (hlink : s.linkServes = true) (hcut : s.regionCut g = false) (hun : s.maps.unreached.contains g = false)
    (hk : k < 0xA000) (h8 : k % 8 = 0) (h : regRows.find? (fun r => r.win && r.holds k) = some r) :
    s.hostWrite (winBase g + k) v = s.regWrite r (winBase g + k) v.toNat (2 ^ 64 - 1) := by
  have hg' : g < 144 := by
    rw [regionValid, Bool.and_eq_true, decide_eq_true_eq] at hg
    exact hg.1
  have hlo : decide (0x2000000 ≤ winBase g + k) = true := decide_eq_true (by simp only [winBase]; omega)
  have hhi : decide (winBase g + k < 0x2900000) = true := decide_eq_true (by simp only [winBase]; omega)
  have hal : (winBase g + k) % 8 = 0 := by simp only [winBase]; omega
  have hbase : (winBase g + k) / 8 * 8 = winBase g + k := by omega
  have hidx : (winBase g + k - 0x2000000) / 0x10000 = g := by simp only [winBase]; omega
  have hlow : decide (0xA000 ≤ (winBase g + k) % 0x10000) = false := decide_eq_false (by simp only [winBase]; omega)
  have hans : s.barAnswers (winBase g + k) false = true := by
    rw [State.barAnswers, hoff, hlink]
    have hge : 0x2000000 ≤ winBase g + k := by simp only [winBase]; omega
    have hlt : winBase g + k < 0x2900000 := by simp only [winBase]; omega
    rw [if_neg (by decide), if_neg (by omega), if_neg (by decide), if_neg (by omega), if_neg (by omega), if_neg (by omega), if_neg (by omega),
      if_neg (by omega), if_neg (by omega), if_pos ⟨hge, hlt⟩]
    exact ha
  have hown : ownRow (winBase g + k) = false := by
    have hge : 0x2000000 ≤ winBase g + k := by simp only [winBase]; omega
    have hne : ∀ n, n < 0x2000000 → (winBase g + k == n) = false := fun n hn => beq_eq_false_iff_ne.2 (by omega)
    rw [ownRow, hne _ (by decide), hne _ (by decide), hne _ (by decide), decide_eq_false (by omega : ¬winBase g + k < 0x1080000), Bool.and_false]
    rfl
  refine State.barAccess_write ?_ rfl rfl (barPlace_window hg' hk h) hown
  rw [State.judgeBar, hans, hal, hidx, hg, hcut, hun, hbase, barPlace_window hg' hk h, lacksBank, hlow, hlo, hhi]
  rfl

/-- What a write of the whole word to a register without an overrun bit leaves: its word, and a count where a locked field was written. -/
theorem State.regWrite_leaves {s : State} {r : RegRow} {off v : Nat} (ho : overrunBit off = none) (he : off ≠ 0x10008) (hb : off ≠ 0x20000)
    (hc : off ≠ 0x108) :
    (s.regWrite r off v (2 ^ 64 - 1)).reg off = s.adjust off (r.after (s.locked off) (s.reg off) v (2 ^ 64 - 1)) v % 2 ^ 64 ∧
    (s.regWrite r off v (2 ^ 64 - 1)).mem = s.mem ∧ (s.regWrite r off v (2 ^ 64 - 1)).cells = s.cells := by
  rw [State.regWrite, ho]
  dsimp only
  rw [if_neg he, if_neg fun h => hb h.1]
  split
  · exact ⟨(State.reg_set_ne _ Reg.SEQ_STATUS_locked_write_count _ hc).trans (State.reg_setReg_self _ _ _), rfl, rfl⟩
  · exact ⟨State.reg_setReg_self _ _ _, rfl, rfl⟩

theorem State.get_of_word {s : State} {f : RF} {w : Nat} (h : s.reg f.off = w % 2 ^ 64) (hf : f.lo + f.w ≤ 64) : s.get f = bits w f.lo f.w := by
  rw [State.get, h, bits_mod_64 _ _ _ hf]

/-- The enables of events take what is written; vector 0 is raised where one of them is set (R448). -/
theorem State.regWrite_eventEnable (s : State) (v : Word64) :
    let t := s.regWrite ⟨false, 0x10008, 0x0, 1, .warm, [⟨0, 9, .rw, 0x1ff⟩]⟩ 0x10008 v.toNat (2 ^ 64 - 1)
    t.get Reg.EVENT_ENABLE_enable = v.toNat % 2 ^ 9 ∧
      t.out = (if v.toNat &&& s.get Reg.EVENT_STATUS_events = 0 then s.out else s.out ++ [.msix 0]) ∧
      (∀ o, o ≠ 0x10008 → t.reg o = s.reg o) ∧ t.mem = s.mem ∧ t.cells = s.cells := by
  have hall : v.toNat &&& (2 ^ 64 - 1) = v.toNat := by rw [Nat.and_two_pow_sub_one_eq_mod, Nat.mod_eq_of_lt v.isLt]
  have hlocked : ∀ l : Bool, (l && RegRow.touchesLocked ⟨false, 0x10008, 0x0, 1, .warm, [⟨0, 9, .rw, 0x1ff⟩]⟩ (2 ^ 64 - 1)) = false := fun l => Bool.and_false l
  dsimp only
  rw [State.regWrite, show overrunBit 0x10008 = none from rfl, hlocked]
  generalize hw : s.adjust 0x10008 _ v.toNat = w
  have hword : bits w 0 9 = v.toNat % 2 ^ 9 := by
    rw [← hw]
    refine (RegRow.after_field (f := ⟨0, 9, .rw, 0x1ff⟩) (r := ⟨false, 0x10008, 0x0, 1, .warm, [⟨0, 9, .rw, 0x1ff⟩]⟩) (by decide) (by decide) _ _ _ _).trans ?_
    exact (congrArg (· % 2 ^ 9) (put_all _ _ 9 (bits_lt v.toNat 0 9))).trans (Nat.mod_eq_of_lt (bits_lt v.toNat 0 9))
  dsimp only
  rw [if_neg Bool.false_ne_true, if_pos rfl, hall, State.get_of_reg (g := Reg.EVENT_STATUS_events) (State.reg_setReg_ne s w (o := 0x10008) (by decide))]
  have hget : (s.setReg 0x10008 w).get Reg.EVENT_ENABLE_enable = v.toNat % 2 ^ 9 :=
    (State.get_of_word (f := Reg.EVENT_ENABLE_enable) (State.reg_setReg_self s _ w) (by decide)).trans hword
  split
  · exact ⟨hget, rfl, fun o ho => State.reg_setReg_ne _ _ ho, rfl, rfl⟩
  · exact ⟨hget, rfl, fun o ho => State.reg_setReg_ne _ _ ho, rfl, rfl⟩

/-- The shares staged in the registers do not change with `ARB_CTRL`. -/
theorem State.shares_setReg (s : State) (w i : Nat) : (s.setReg 0x20000 w).get (Reg.ARB_CLASS_share i) = s.get (Reg.ARB_CLASS_share i) :=
  State.get_of_reg (State.reg_setReg_ne _ _ (by simp only [Reg.ARB_CLASS_share]; omega))

theorem State.stagedTable_setReg (s : State) (w : Nat) : (s.setReg 0x20000 w).stagedTable = s.stagedTable := by
  have hreg : ∀ o, 0x20000 < o → (s.setReg 0x20000 w).reg o = s.reg o := fun o ho => State.reg_setReg_ne _ _ (by omega)
  refine List.map_congr_left fun i _ => ?_
  rw [State.get_of_reg (g := Reg.ARB_CLASS_share i) (hreg _ (by simp only [Reg.ARB_CLASS_share]; omega)), State.flag, State.flag,
    State.get_of_reg (g := Reg.ARB_CLASS_borrow i) (hreg _ (by simp only [Reg.ARB_CLASS_borrow]; omega)),
    State.get_of_reg (g := Reg.ARB_CLASS_cap i) (hreg _ (by simp only [Reg.ARB_CLASS_cap]; omega))]

theorem b2n_bitAt_zero (x : Nat) : b2n (bitAt x 0) = bits x 0 1 := by
  rw [bitAt, Nat.testBit_zero, bits, Nat.shiftRight_zero, Nat.pow_one]
  obtain h | h := Nat.mod_two_eq_zero_or_one x <;> rw [h] <;> rfl

/-- A write of `apply`: refused and shown where the shares exceed 256, else the staged table waits to take effect (R251). -/
theorem State.regWrite_arbCtrl {s : State} {v : Word64} (hv : v.toNat % 2 = 1) :
    let t := s.regWrite ⟨false, 0x20000, 0x0, 1, .warm, [⟨0, 1, .w1s, 0x0⟩, ⟨1, 1, .w1c, 0x0⟩]⟩ 0x20000 v.toNat (2 ^ 64 - 1)
    t.mem = s.mem ∧ t.cells = s.cells ∧
      (256 < ((List.range 16).map fun i => s.get (Reg.ARB_CLASS_share i)).sum →
        t.flag Reg.ARB_CTRL_bad_sum = true ∧ t.flag Reg.ARB_CTRL_apply = s.flag Reg.ARB_CTRL_apply ∧ t.hub = s.hub) ∧
      (((List.range 16).map fun i => s.get (Reg.ARB_CLASS_share i)).sum ≤ 256 → t.flag Reg.ARB_CTRL_apply = true ∧ t.hub.applying = s.stagedTable) := by
  have hlocked : ∀ l : Bool, (l && RegRow.touchesLocked ⟨false, 0x20000, 0x0, 1, .warm, [⟨0, 1, .w1s, 0x0⟩, ⟨1, 1, .w1c, 0x0⟩]⟩ (2 ^ 64 - 1)) = false :=
    fun l => Bool.and_false l
  have hbit : bitAt v.toNat 0 = true := by
    rw [bitAt, Nat.testBit_zero, hv]
    rfl
  dsimp only
  rw [State.regWrite, show overrunBit 0x20000 = none from rfl, hlocked]
  generalize hw : s.adjust 0x20000 _ v.toNat = w
  have hword : bits w 0 1 = 1 := by
    rw [← hw]
    refine (RegRow.after_field (f := ⟨0, 1, .w1s, 0⟩) (r := ⟨false, 0x20000, 0x0, 1, .warm, [⟨0, 1, .w1s, 0x0⟩, ⟨1, 1, .w1c, 0x0⟩]⟩) (by decide) (by decide) _ _ _ _).trans ?_
    change (bits _ 0 1 ||| (bits v.toNat 0 1 &&& 1)) % 2 = 1
    rw [show bits v.toNat 0 1 = 1 from hv]
    exact Nat.or_mod_two_eq_one.2 (Or.inr rfl)
  dsimp only
  rw [if_neg Bool.false_ne_true, if_neg (by decide), if_pos ⟨rfl, hbit, by decide⟩, State.arbApply]
  simp only [State.shares_setReg, State.stagedTable_setReg]
  split
  · next hsum =>
    refine ⟨rfl, rfl, fun _ => ⟨?_, ?_, rfl⟩, fun hle => absurd hsum (Nat.not_lt.2 hle)⟩
    · rw [State.flag]
      change (State.get (State.set _ Reg.ARB_CTRL_bad_sum 1) Reg.ARB_CTRL_bad_sum != 0) = true
      rw [State.get_set_self (f := Reg.ARB_CTRL_bad_sum) _ _ (by decide)]
      rfl
    · rw [State.flag]
      change (State.get (State.set (State.set _ Reg.ARB_CTRL_apply _) Reg.ARB_CTRL_bad_sum 1) Reg.ARB_CTRL_apply != 0) = _
      rw [State.get_set_disjoint (f := Reg.ARB_CTRL_bad_sum) (g := Reg.ARB_CTRL_apply) _ _ rfl (by decide) (by decide),
        State.get_set_self (f := Reg.ARB_CTRL_apply) _ _ (by decide), b2n_bitAt_zero]
      exact congrArg (· != 0) (Nat.mod_eq_of_lt (bits_lt _ _ _))
  · next hsum =>
    refine ⟨rfl, rfl, fun h => absurd h hsum, fun _ => ⟨?_, rfl⟩⟩
    have hget : (s.setReg 0x20000 w).get Reg.ARB_CTRL_apply = 1 :=
      (State.get_of_word (f := Reg.ARB_CTRL_apply) (State.reg_setReg_self s _ w) (by decide)).trans hword
    exact congrArg (· != 0) hget

/-- The sweep's controls take what is written, the period within its bounds (R143). -/
theorem State.regWrite_sweepCtrl {s : State} {g : Nat} {r : RegRow} (hr : r ∈ regRows) (hp : ⟨1, 12, .rws, 0x258⟩ ∈ r.fields)
    (he : ⟨0, 1, .rws, 0x1⟩ ∈ r.fields) (v : Word64) :
    let t := s.regWrite r (winBase g + 0x9010) v.toNat (2 ^ 64 - 1)
    t.get (Reg.SP_SWEEP_CTRL_period g) = min 3600 (max 1 (bits v.toNat 1 12)) ∧
      t.get (Reg.SP_SWEEP_CTRL_enable g) = v.toNat % 2 ∧ t.mem = s.mem ∧ t.cells = s.cells := by
  have hmod : (winBase g + 0x9010) % 0x10000 = 0x9010 := by simp only [winBase]; omega
  have hge : 0x2000000 ≤ winBase g + 0x9010 := by simp only [winBase]; omega
  have hover : overrunBit (winBase g + 0x9010) = none := by
    rw [overrunBit, hmod, if_pos hge]
    rfl
  have hadj : ∀ w v, s.adjust (winBase g + 0x9010) w v = setBits w 1 12 (min 3600 (max 1 (bits w 1 12))) := fun w v => by
    rw [State.adjust, hmod]
    dsimp only
    rw [if_neg (by omega), if_neg (by omega), if_neg (by omega), if_neg (by omega), if_neg (by omega), if_neg (by omega), if_pos ⟨hge, rfl⟩]
  obtain ⟨hreg, hmem, hcells⟩ := State.regWrite_leaves (s := s) (r := r) (v := v.toNat) hover (by omega) (by omega) (by omega)
  rw [hadj] at hreg
  have hperiod : bits (r.after (s.locked (winBase g + 0x9010)) (s.reg (winBase g + 0x9010)) v.toNat (2 ^ 64 - 1)) 1 12 = bits v.toNat 1 12 := by
    refine (RegRow.after_field hr hp _ _ _ _).trans ?_
    refine (congrArg (· % 2 ^ 12) (put_all _ _ 12 (bits_lt _ _ _))).trans (Nat.mod_eq_of_lt (bits_lt _ _ _))
  have henable : bits (r.after (s.locked (winBase g + 0x9010)) (s.reg (winBase g + 0x9010)) v.toNat (2 ^ 64 - 1)) 0 1 = v.toNat % 2 := by
    refine (RegRow.after_field hr he _ _ _ _).trans ?_
    refine (congrArg (· % 2 ^ 1) (put_all _ _ 1 (bits_lt v.toNat 0 1))).trans (Nat.mod_eq_of_lt (bits_lt v.toNat 0 1))
  rw [hperiod] at hreg
  refine ⟨?_, ?_, hmem, hcells⟩
  · refine (State.get_of_word (f := Reg.SP_SWEEP_CTRL_period g) hreg (by simp [Reg.SP_SWEEP_CTRL_period])).trans ?_
    refine (bits_setBits_self _ 1 12 _).trans (Nat.mod_eq_of_lt ?_)
    omega
  · refine (State.get_of_word (f := Reg.SP_SWEEP_CTRL_enable g) hreg (by simp [Reg.SP_SWEEP_CTRL_enable])).trans ?_
    exact (bits_setBits_disjoint _ 1 12 _ 0 1 (by omega)).trans henable

/-- A written 1 arms an injection (R83, R101). -/
theorem State.regWrite_arms {s : State} {r : RegRow} {f : RF} (hr : r ∈ regRows) (hf : ⟨0, 1, .w1s, 0⟩ ∈ r.fields) {v : Word64} (hv : v.toNat % 2 = 1)
    (hlo : f.lo = 0) (hw : f.w = 1) (hge : 0x2000000 ≤ f.off) (hover : overrunBit f.off = none) (hrep : f.off % 0x10000 ≠ 0x6008) (hsw : f.off % 0x10000 ≠ 0x9010) :
    (s.regWrite r f.off v.toNat (2 ^ 64 - 1)).flag f = true ∧ (s.regWrite r f.off v.toNat (2 ^ 64 - 1)).cells = s.cells ∧
      (s.regWrite r f.off v.toNat (2 ^ 64 - 1)).mem = s.mem := by
  have hadj : ∀ w v, s.adjust f.off w v = w := fun w v => by
    rw [State.adjust]
    dsimp only
    rw [if_neg (by omega), if_neg (by omega), if_neg (by omega), if_neg (by omega), if_neg (by omega), if_neg (by omega), if_neg (by omega)]
  obtain ⟨hreg, hmem, hcells⟩ := State.regWrite_leaves (s := s) (r := r) (v := v.toNat) hover (by omega) (by omega) (by omega)
  rw [hadj] at hreg
  refine ⟨?_, hcells, hmem⟩
  have hone : bits v.toNat 0 1 = 1 := hv
  have hget : (s.regWrite r f.off v.toNat (2 ^ 64 - 1)).get f = 1 := by
    rw [State.get_of_word hreg (by omega), hlo, hw]
    refine (RegRow.after_field hr hf _ _ _ _).trans ?_
    change (bits _ 0 1 ||| (bits v.toNat 0 1 &&& 1)) % 2 = 1
    rw [hone]
    exact Nat.or_mod_two_eq_one.2 (Or.inr rfl)
  rw [State.flag, hget]
  rfl

/-! ### Injections and the sweep at their windows -/

theorem regionValid_gOf {c : Nat} (hc : cellValid c = true) : regionValid (gOf c) = true := by
  simp only [cellValid, Bool.and_eq_true, decide_eq_true_eq] at hc
  obtain ⟨⟨⟨⟨⟨-, hrow⟩, hcol⟩, hdie⟩, -⟩, -⟩ := hc
  have hmod : gOf c % 12 = bits c 8 4 := by simp only [gOf]; omega
  have hdiv : gOf c / 12 = c >>> 12 := by simp only [gOf]; omega
  rw [regionValid, hmod, hdiv, hdie, decide_eq_true (by simp only [gOf]; omega)] <;> rfl

theorem decode_sweepCtrl : regRows.find? (fun r => r.win && r.holds 0x9010) =
    some ⟨true, 0x9010, 0x0, 1, .warm, [⟨0, 1, .rws, 0x1⟩, ⟨1, 12, .rws, 0x258⟩, ⟨16, 16, .ro, 0x0⟩, ⟨32, 16, .ro, 0x0⟩]⟩ := by decide +kernel

theorem decode_mcCkCtrl : ∀ i < 32, regRows.find? (fun r => r.win && r.holds (0x8010 + i * 0x40)) =
    some ⟨true, 0x8010, 0x40, 32, .compute, [⟨0, 1, .w1s, 0x0⟩, ⟨1, 5, .rw, 0x0⟩, ⟨6, 5, .rw, 0x0⟩]⟩ := by decide +kernel

theorem decode_vcCkCtrl : ∀ i < 16, regRows.find? (fun r => r.win && r.holds (0x8810 + i * 0x40)) =
    some ⟨true, 0x8810, 0x40, 16, .compute, [⟨0, 1, .w1s, 0x0⟩, ⟨1, 6, .rw, 0x0⟩, ⟨7, 5, .rw, 0x0⟩]⟩ := by decide +kernel

/-- A register of a window at a place whose word has no overrun bit of its own. -/
theorem overrunBit_window {g k : Nat} (hk : k < 0x9000) (h : k % 0x40 = 0x10) : overrunBit (winBase g + k) = none := by
  have hmod : (winBase g + k) % 0x10000 = k := by simp only [winBase]; omega
  rw [overrunBit, hmod, if_pos (by simp only [winBase]; omega)]
  rw [if_neg (by omega), if_neg (by omega), if_neg (by omega), if_neg (by omega), if_neg (by omega)]

theorem State.mcInjectArm_arms {s : State} {c : CellAddr} {v : Word64} (hoff : s.isIn .off = false) (hlink : s.linkServes = true)
    (hr : s.reached 4 = true) (hcut : s.regionCut (gOf c.toNat) = false) (hun : s.maps.unreached.contains (gOf c.toNat) = false)
    (hv : v.toNat % 2 = 1) (hc : cellIs .m c = true) :
    ∃ t, exec (.mcInjectArm c v) s = .next t ∧ t.flag (Reg.MC_CK_CTRL_inject c.toNat) = true ∧ t.cells = s.cells ∧ t.mem = s.mem := by
  rw [cellIs, Bool.and_eq_true, decide_eq_true_eq] at hc
  obtain ⟨hcv, hm⟩ := hc
  have hb := bOf_lt c.toNat
  have hk : cOf c.toNat < 4 := by
    simp only [engineOf] at hm
    split at hm
    · assumption
    · split at hm <;> exact absurd hm (by decide)
  have hrow := decode_mcCkCtrl (bOf c.toNat * 4 + cOf c.toNat) (by omega)
  have hoffs : (Reg.MC_CK_CTRL_inject c.toNat).off = winBase (gOf c.toNat) + (0x8010 + (bOf c.toNat * 4 + cOf c.toNat) * 0x40) := by
    simp only [Reg.MC_CK_CTRL_inject]
    omega
  have hmod : (winBase (gOf c.toNat) + (0x8010 + (bOf c.toNat * 4 + cOf c.toNat) * 0x40)) % 0x10000 = 0x8010 + (bOf c.toNat * 4 + cOf c.toNat) * 0x40 := by
    simp only [winBase]
    omega
  have hw := State.hostWrite_window (v := v) (regionValid_gOf hcv) hr hoff hlink hcut hun (by omega) (by omega) hrow
  rw [← hoffs] at hw hmod
  obtain ⟨hflag, hcells, hmem⟩ := State.regWrite_arms (s := s) (f := Reg.MC_CK_CTRL_inject c.toNat) (List.mem_of_find?_eq_some hrow) (by decide) hv rfl rfl
    (by rw [hoffs]; simp only [winBase]; omega) (by rw [hoffs]; exact overrunBit_window (by omega) (by omega)) (by omega) (by omega)
  have hu : decide (cellValid c.toNat = true ∧ engineOf c.toNat = .m) = true := decide_eq_true ⟨hcv, hm⟩
  refine ⟨s.hostWrite (Reg.MC_CK_CTRL_inject c.toNat).off v, ?_, by rw [hw]; exact hflag, by rw [hw]; exact hcells, by rw [hw]; exact hmem⟩
  change execMcInjectArm c v s = _
  rw [execMcInjectArm, hu, onUnit_true]

theorem State.vcInjectArm_arms {s : State} {c : CellAddr} {v : Word64} (hoff : s.isIn .off = false) (hlink : s.linkServes = true)
    (hr : s.reached 4 = true) (hcut : s.regionCut (gOf c.toNat) = false) (hun : s.maps.unreached.contains (gOf c.toNat) = false)
    (hv : v.toNat % 2 = 1) (hc : cellIs .v c = true) :
    ∃ t, exec (.vcInjectArm c v) s = .next t ∧ t.flag (Reg.VC_CK_CTRL_inject c.toNat) = true ∧ t.cells = s.cells ∧ t.mem = s.mem := by
  rw [cellIs, Bool.and_eq_true, decide_eq_true_eq] at hc
  obtain ⟨hcv, hm⟩ := hc
  have hb := bOf_lt c.toNat
  have hk : 4 ≤ cOf c.toNat ∧ cOf c.toNat < 6 := by
    simp only [engineOf] at hm
    split at hm
    · exact absurd hm (by decide)
    · split at hm
      · omega
      · exact absurd hm (by decide)
  have hrow := decode_vcCkCtrl (bOf c.toNat * 2 + cOf c.toNat - 4) (by omega)
  have hoffs : (Reg.VC_CK_CTRL_inject c.toNat).off = winBase (gOf c.toNat) + (0x8810 + (bOf c.toNat * 2 + cOf c.toNat - 4) * 0x40) := by
    simp only [Reg.VC_CK_CTRL_inject]
    omega
  have hmod : (winBase (gOf c.toNat) + (0x8810 + (bOf c.toNat * 2 + cOf c.toNat - 4) * 0x40)) % 0x10000 = 0x8810 + (bOf c.toNat * 2 + cOf c.toNat - 4) * 0x40 := by
    simp only [winBase]
    omega
  have hw := State.hostWrite_window (v := v) (regionValid_gOf hcv) hr hoff hlink hcut hun (by omega) (by omega) hrow
  rw [← hoffs] at hw hmod
  obtain ⟨hflag, hcells, hmem⟩ := State.regWrite_arms (s := s) (f := Reg.VC_CK_CTRL_inject c.toNat) (List.mem_of_find?_eq_some hrow) (by decide) hv rfl rfl
    (by rw [hoffs]; simp only [winBase]; omega) (by rw [hoffs]; exact overrunBit_window (by omega) (by omega)) (by omega) (by omega)
  have hu : decide (cellValid c.toNat = true ∧ engineOf c.toNat = .v) = true := decide_eq_true ⟨hcv, hm⟩
  refine ⟨s.hostWrite (Reg.VC_CK_CTRL_inject c.toNat).off v, ?_, by rw [hw]; exact hflag, by rw [hw]; exact hcells, by rw [hw]; exact hmem⟩
  change execVcInjectArm c v s = _
  rw [execVcInjectArm, hu, onUnit_true]

/-! ### The link and its configuration space -/

/-- The mode at which the link has settled (R316). -/
theorem State.linkTrain_shows (s : State) (rate width flit deg : Nat) :
    let t := (s.sets [(Reg.PCIE_LINK_rate, rate), (Reg.PCIE_LINK_width, width), (Reg.PCIE_LINK_flit, flit), (Reg.PCIE_LINK_degraded, deg)]).inc Reg.PCIE_LINK_retrain_count
    t.get Reg.PCIE_LINK_rate = rate % 2 ^ Reg.PCIE_LINK_rate.w ∧ t.get Reg.PCIE_LINK_width = width % 2 ^ Reg.PCIE_LINK_width.w ∧
      t.get Reg.PCIE_LINK_degraded = deg % 2 ∧ t.mem = s.mem := by
  have hget : ∀ g : RF, g.off = 0x48 → g.lo + g.w ≤ 16 →
      ((s.sets [(Reg.PCIE_LINK_rate, rate), (Reg.PCIE_LINK_width, width), (Reg.PCIE_LINK_flit, flit), (Reg.PCIE_LINK_degraded, deg)]).inc Reg.PCIE_LINK_retrain_count).get g =
      ((((s.set Reg.PCIE_LINK_rate rate).set Reg.PCIE_LINK_width width).set Reg.PCIE_LINK_flit flit).set Reg.PCIE_LINK_degraded deg).get g := fun g hg hlo => by
    rw [State.inc, State.get_set_disjoint (f := Reg.PCIE_LINK_retrain_count) (g := g) _ _ hg (by omega) (Or.inl hlo)]
    rfl
  dsimp only
  rw [hget Reg.PCIE_LINK_rate rfl (by decide), hget Reg.PCIE_LINK_width rfl (by decide), hget Reg.PCIE_LINK_degraded rfl (by decide)]
  refine ⟨?_, ?_, State.get_set_self _ Reg.PCIE_LINK_degraded deg (by decide), rfl⟩
  · rw [State.get_set_disjoint (f := Reg.PCIE_LINK_degraded) (g := Reg.PCIE_LINK_rate) _ _ rfl (by decide) (by decide),
      State.get_set_disjoint (f := Reg.PCIE_LINK_flit) (g := Reg.PCIE_LINK_rate) _ _ rfl (by decide) (by decide),
      State.get_set_disjoint (f := Reg.PCIE_LINK_width) (g := Reg.PCIE_LINK_rate) _ _ rfl (by decide) (by decide),
      State.get_set_self (f := Reg.PCIE_LINK_rate) _ _ (by decide)]
  · rw [State.get_set_disjoint (f := Reg.PCIE_LINK_degraded) (g := Reg.PCIE_LINK_width) _ _ rfl (by decide) (by decide),
      State.get_set_disjoint (f := Reg.PCIE_LINK_flit) (g := Reg.PCIE_LINK_width) _ _ rfl (by decide) (by decide),
      State.get_set_self (f := Reg.PCIE_LINK_width) _ _ (by decide)]

/-- A reset of the link does not change the panel's state. -/
theorem State.isIn_resetConfig (s : State) (p : PState) : (s.resetConfig.inc Reg.PCIE_LINK_flr_count).isIn p = s.isIn p := by
  refine State.isIn_of_reg ?_ p
  rw [State.inc, State.reg_set_ne _ Reg.PCIE_LINK_flr_count _ (by decide), State.resetConfig]
  change (if _ then _ else _ : State).reg _ = _
  split
  · rfl
  · exact State.reg_set_ne _ Reg.APERTURE_BASE_base _ (by decide)

theorem State.rings_resetConfig (s : State) : (s.resetConfig.inc Reg.PCIE_LINK_flr_count).host.rings = s.host.rings := by
  change (if _ then _ else _ : State).host.rings = _
  split <;> rfl

/-- A ready panel is in no other state. -/
theorem State.isIn_unique {s : State} {p q : PState} (h : s.isIn p = true) (hne : p.code ≠ q.code) : s.isIn q = false := by
  simp only [State.isIn, beq_iff_eq] at h
  rw [State.isIn, h]
  exact beq_false_of_ne hne

/-- Settles O46: an access takes the branch of its judgement, and each register the word that its row and its own rule give. -/
theorem registerAccess : Obligations.RegisterAccess := by
  refine ⟨fun r hr f hf locked old v m => RegRow.after_field hr hf locked old v m, fun a s ha => ?_, fun v s hoff hdark hlink =>
    ⟨?_, fun hr hv => ?_, fun g hg hr hcut hun => ?_, fun c hr hcut hun hv => ⟨State.mcInjectArm_arms hoff hlink hr hcut hun hv,
      State.vcInjectArm_arms hoff hlink hr hcut hun hv⟩⟩, fun s hoff => ⟨fun rate width flit deg => ?_, fun n hlo hhi => ?_, fun k hk => ?_, fun b => ?_, fun k hdark => ?_⟩⟩
  · have hx : exec (.registerWrite a) s = .next (s.barAccess a) := by
      change execRegisterWrite a s = _
      rw [execRegisterWrite, decide_eq_true ha, onUnit_true]
    rw [hx]
    refine ⟨fun h hw => ?_, fun h hw hf => ?_, fun k h hw => ⟨_, rfl, State.barAccess_bad h hw, ?_⟩, fun h hw hf => ?_, fun r h hw h8 hp ho hover hadj he hb hl => ?_⟩
    · rw [State.barAccess_silent h, if_pos hw]
    · rw [State.barAccess_silent h, if_neg (ne_true_of_eq_false hw), State.answer, if_neg (ne_true_of_eq_false hf)]
    · rw [State.barAccess_bad h hw]
      exact State.badAccess_records ha
    · rw [State.barAccess_read h hw, State.answer, if_neg (ne_true_of_eq_false hf)]
    · rw [State.barAccess_write h hw h8 hp ho, State.regWrite_plain hover hadj he hb hl]
  · refine ⟨s.hostWrite 0x10008 v, rfl, ?_⟩
    have hans : s.barAnswers 0x10008 false = true := by
      rw [State.barAnswers, hoff, hlink, hdark]
      rfl
    rw [State.hostWrite_bar hans rfl (by decide) decode_eventEnable rfl]
    exact State.regWrite_eventEnable s v
  · refine ⟨s.hostWrite 0x20000 v, rfl, ?_⟩
    have hans : s.barAnswers 0x20000 false = true := by
      rw [State.barAnswers, hoff, hlink, hr]
      rfl
    rw [State.hostWrite_bar hans rfl (by decide) decode_arbCtrl rfl]
    exact State.regWrite_arbCtrl hv
  · refine ⟨s.hostWrite (Reg.SP_SWEEP_CTRL_enable g).off v, ?_, ?_⟩
    · change execSweepCtrlWrite g v s = _
      rw [execSweepCtrlWrite, onRegion_of_valid hg]
    · rw [show (Reg.SP_SWEEP_CTRL_enable g).off = winBase g + 0x9010 from rfl,
        State.hostWrite_window hg hr hoff hlink hcut hun (by decide) (by decide) decode_sweepCtrl]
      exact State.regWrite_sweepCtrl (List.mem_of_find?_eq_some decode_sweepCtrl) (by decide) (by decide) v
  · obtain ⟨hrate, hwidth, hdeg, hmem⟩ := State.linkTrain_shows s rate width (b2n flit) (b2n (deg || rate == 0 || decide (width < 4)))
    change ∃ t, execPcieLinkTrain rate width flit deg s = .next t ∧ _
    rw [execPcieLinkTrain, if_neg (ne_true_of_eq_false hoff)]
    refine ⟨_, rfl, hrate, hwidth, ?_, hmem⟩
    rw [State.flag, hdeg]
    cases (deg || rate == 0 || decide (width < 4)) <;> rfl
  · refine congrArg Host.Outcome.next (if_pos ⟨Nat.pow_le_pow_right (by decide) hlo, Nat.pow_le_pow_right (by decide) hhi, by rw [Nat.log2_two_pow], by rw [hoff]; rfl⟩)
  · refine congrArg Host.Outcome.next (if_neg ?_)
    rintro ⟨hlo, hhi, hpow, -⟩
    refine hk (Nat.log2 k) ?_ ?_ hpow
    · exact (Nat.pow_le_pow_iff_right (by decide)).1 (hpow ▸ hlo)
    · exact (Nat.pow_le_pow_iff_right (by decide)).1 (hpow ▸ hhi)
  · exact congrArg Host.Outcome.next (if_neg (ne_true_of_eq_false hoff))
  · have hx : exec (.pcieReset k) s = .next
        (let u := (SMap.keys s.host.rings).foldl State.killRing ((s.resetConfig.inc Reg.PCIE_LINK_flr_count).resetMailboxes)
        if u.isIn .running ∧ u.pkg.isSome then (u.startUnload 8 0x11 0).endStrike
        else if u.isIn .recovering then u.modHost fun h => { h with unloadAfter := u.pkg.isSome } else u) := by
      change execPcieReset k s = _
      rw [execPcieReset, if_neg (ne_true_of_eq_false hoff)]
      dsimp only
      rw [State.isIn_resetConfig, if_neg (ne_true_of_eq_false hdark), State.rings_resetConfig]
    refine ⟨fun hready => ?_, fun hrun hpkg => ?_⟩
    · rw [hx]
      dsimp only
      rw [if_neg fun h => absurd h.1 (ne_true_of_eq_false (State.isIn_unique hready (by decide))),
        if_neg (ne_true_of_eq_false (State.isIn_unique hready (by decide)))]
    · rw [hx]
      exact congrArg _ (if_pos ⟨hrun, hpkg⟩)

end Sys2Proof.Machine
end

section
/-! PROOFS. The mailbox protocol (O47). -/

namespace Sys2Proof.Machine
open Sys2Proof.Says

/-! ### Bytes in a mailbox area -/

theorem bits_ofLE (c : List Byte) (m : Nat) (h : m < c.length) : bits (ofLE c) (m * 8) 8 = (nth c m (0 : Byte)).toNat := by
  induction c generalizing m with
  | nil => exact absurd h (Nat.not_lt_zero _)
  | cons b c ih =>
    have hb := b.isLt
    cases m with
    | zero =>
      simp only [bits, ofLE, Nat.zero_mul, Nat.shiftRight_zero, Nat.shiftLeft_eq, nth, List.getD_cons_zero]
      omega
    | succ m =>
      have hrest := ih m (Nat.lt_of_succ_lt_succ h)
      simp only [bits, Nat.shiftRight_eq_div_pow] at hrest ⊢
      rw [ofLE, Nat.shiftLeft_eq, show (m + 1) * 8 = 8 + m * 8 by omega, Nat.pow_add, ← Nat.div_div_eq_div_mul,
        show (b.toNat + ofLE c * 2 ^ 8) / 2 ^ 8 = ofLE c by omega]
      exact hrest

/-- Word j of a list cut into eights. -/
theorem chunks_at {α : Type} (j k : Nat) (xs : List α) (hk : xs.length ≤ k) (hj : 8 * j < xs.length) :
    ∃ h : j < (chunks 8 k xs).length, (chunks 8 k xs)[j] = (xs.drop (8 * j)).take 8 := by
  induction j generalizing k xs with
  | zero =>
    cases k with
    | zero => omega
    | succ k =>
      have hne : xs.isEmpty = false := List.isEmpty_eq_false_iff.2 (List.ne_nil_of_length_pos (by omega))
      simp [chunks, hne]
  | succ j ih =>
    cases k with
    | zero => omega
    | succ k =>
      have hne : xs.isEmpty = false := List.isEmpty_eq_false_iff.2 (List.ne_nil_of_length_pos (by omega))
      obtain ⟨hlt, hat⟩ := ih k (xs.drop 8) (by rw [List.length_drop]; omega) (by rw [List.length_drop]; omega)
      have hcons : chunks 8 (k + 1) xs = xs.take 8 :: chunks 8 k (xs.drop 8) := by rw [chunks, if_neg (ne_true_of_eq_false hne)]
      refine ⟨by rw [hcons, List.length_cons]; omega, ?_⟩
      simp only [hcons, List.getElem_cons_succ, hat, List.drop_drop]
      rw [show 8 + 8 * j = 8 * (j + 1) by omega]

/-- Words written one after the other leave those before them. -/
theorem State.reg_words_before {off o : Nat} (cs : List (List Byte)) (i : Nat) (s : State) (h : o < off + 8 * i) :
    (foldIdx (fun i s c => s.setReg (off + 8 * i) (ofLE c)) i s cs).reg o = s.reg o := by
  induction cs generalizing i s with
  | nil => rfl
  | cons c cs ih => exact (ih (i + 1) _ (by omega)).trans (State.reg_setReg_ne _ _ (by omega))

theorem State.reg_words_at {off : Nat} (cs : List (List Byte)) (i : Nat) (s : State) (j : Nat) (h : j < cs.length) :
    (foldIdx (fun i s c => s.setReg (off + 8 * i) (ofLE c)) i s cs).reg (off + 8 * (i + j)) = ofLE cs[j] % 2 ^ 64 := by
  induction cs generalizing i s j with
  | nil => exact absurd h (Nat.not_lt_zero _)
  | cons c cs ih =>
    cases j with
    | zero =>
      rw [Nat.add_zero, foldIdx, State.reg_words_before cs (i + 1) _ (by omega), State.reg_setReg_self]
      rfl
    | succ j =>
      rw [foldIdx, show i + (j + 1) = i + 1 + j by omega]
      exact ih (i + 1) _ j (Nat.lt_of_succ_lt_succ h)

/-- Bytes put in an area read back. -/
theorem State.byte_putArea {s : State} {off : Nat} {bs : List Byte} {i : Nat} (h : i < bs.length) :
    bits ((s.putArea off bs).reg (off + i / 8 * 8)) (i % 8 * 8) 8 = (nth bs i (0 : Byte)).toNat := by
  obtain ⟨hlt, hat⟩ := chunks_at (i / 8) bs.length bs (Nat.le_refl _) (by omega)
  have hword := State.reg_words_at (off := off) (chunks 8 bs.length bs) 0 s (i / 8) hlt
  rw [Nat.zero_add, hat] at hword
  rw [State.putArea, show i / 8 * 8 = 8 * (i / 8) by omega, hword, bits_mod_64 _ _ _ (by omega),
    bits_ofLE _ _ (by rw [List.length_take, List.length_drop]; omega)]
  simp only [nth, List.getD_eq_getElem?_getD, List.getElem?_take, List.getElem?_drop]
  rw [if_pos (by omega), show 8 * (i / 8) + i % 8 = i by omega]

/-- An area leaves the registers beyond its bytes. -/
theorem State.reg_putArea_beyond {s : State} {off o : Nat} {bs : List Byte} (h : off + bs.length + 8 ≤ o) : (s.putArea off bs).reg o = s.reg o := by
  have hlen : ∀ (k : Nat) (xs : List Byte), 8 * (chunks 8 k xs).length < xs.length + 8 := fun k => by
    induction k with
    | zero => exact fun xs => by simp [chunks]
    | succ k ih =>
      intro xs
      rw [chunks]
      split
      · simp
      · next hne =>
        have hpos : 0 < xs.length := List.length_pos_of_ne_nil fun h => hne (h ▸ rfl)
        have := ih (xs.drop 8)
        rw [List.length_drop] at this
        rw [List.length_cons]
        obtain hle | hlt := Nat.le_total 8 xs.length
        · omega
        · have hz : xs.drop 8 = [] := List.drop_eq_nil_of_le hlt
          rw [hz] at this ⊢
          cases k <;> simp [chunks] <;> omega
  have hfold : ∀ (cs : List (List Byte)) (i : Nat) (t : State), off + 8 * (i + cs.length) ≤ o + 7 →
      (foldIdx (fun i s c => s.setReg (off + 8 * i) (ofLE c)) i t cs).reg o = t.reg o := fun cs => by
    induction cs with
    | nil => exact fun i t _ => rfl
    | cons c cs ih =>
      intro i t hi
      rw [List.length_cons] at hi
      exact (ih (i + 1) _ (by omega)).trans (State.reg_setReg_ne _ _ (by omega))
  have := hlen bs.length bs
  exact hfold _ 0 s (by omega)

/-! ### The checks before a command's own (R327) -/

theorem nymakRow_go {mb : Nat} {r : NyReq} {mine : Bool} {s : State} {f : State → List Byte → Ans} (hmb : mb < 8) (hm : mine = true) :
    nymakRow mb r mine s f = .next (s.nymakGo mb r f) := by
  rw [nymakRow, decide_eq_true hmb, onUnit_true, if_pos hm]

/-- A doorbell that a stage core takes is judged. -/
theorem State.nymakGo_taken {mb : Nat} {r : NyReq} {s : State} {f : State → List Byte → Ans} (h : NyTaken mb s) :
    s.nymakGo mb r f = (Says.accepted s mb r).serve mb r f := by
  obtain ⟨-, hoff, hlink, hserve, hbusy⟩ := h
  rw [State.nymakGo, hoff, hlink, hserve, if_neg (by decide), if_neg (by decide), if_neg (ne_true_of_eq_false hbusy), Says.accepted]

/-- A request that passes the checks before its command's own reaches them. -/
theorem State.serve_ready {mb : Nat} {r : NyReq} {u : State} {f : State → List Byte → Ans}
    (h : ((!u.isIn .recovering || servedRecovering r.opcode) &&
      (r.opcode == 1 || (r.session != 0 && r.session == (u.mb mb).session)) && !u.badFormat r) = true) :
    (∀ t st res, f u r.arg = .done t st res → u.serve mb r f = t.respond mb st.code res) ∧
    ∀ t, f u r.arg = .goes t → u.serve mb r f = t := by
  simp only [Bool.and_eq_true, Bool.or_eq_true, Bool.not_eq_true', beq_iff_eq, bne_iff_ne] at h
  obtain ⟨⟨hrec, hses⟩, hform⟩ := h
  have h1 : ¬(u.isIn .recovering = true ∧ (!servedRecovering r.opcode) = true) := by
    rintro ⟨hr, hs⟩
    rw [Bool.not_eq_true'] at hs
    obtain h | h := hrec
    · rw [hr] at h
      cases h
    · rw [hs] at h
      cases h
  have h2 : ¬(r.opcode ≠ 1 ∧ (r.session = 0 ∨ r.session ≠ (u.mb mb).session)) := by
    rintro ⟨hop, hno⟩
    obtain h | ⟨h0, hs⟩ := hses
    · exact hop h
    · exact hno.elim h0 fun h => h hs
  refine ⟨fun t st res hf => ?_, fun t hf => ?_⟩
  · rw [State.serve, if_neg h1, if_neg h2, if_neg (ne_true_of_eq_false hform), hf]
  · rw [State.serve, if_neg h1, if_neg h2, if_neg (ne_true_of_eq_false hform), hf]

/-- A command that passes its checks ends with its status and result. -/
theorem nymakRow_done {mb : Nat} {r : NyReq} {mine : Bool} {s t : State} {f : State → List Byte → Ans} {st : St} {res : List Byte}
    (h : NyReady mb r s) (hm : mine = true) (hf : f (Says.accepted s mb r) r.arg = .done t st res) :
    nymakRow mb r mine s f = .next (t.respond mb st.code res) := by
  rw [nymakRow_go h.1.1 hm, State.nymakGo_taken h.1, (State.serve_ready h.2).1 _ _ _ hf]

/-- A command that passes its checks and goes on. -/
theorem nymakRow_goes {mb : Nat} {r : NyReq} {mine : Bool} {s t : State} {f : State → List Byte → Ans}
    (h : NyReady mb r s) (hm : mine = true) (hf : f (Says.accepted s mb r) r.arg = .goes t) : nymakRow mb r mine s f = .next t := by
  rw [nymakRow_go h.1.1 hm, State.nymakGo_taken h.1, (State.serve_ready h.2).2 _ hf]

/-- Every mailbox command runs behind the same doorbell. -/
theorem exec_of_nyRow {mb : Nat} {r : NyReq} {pkg : Package} {ns : Nat} {i : Instr} {op : Nat} (h : NyRow mb r pkg ns i op) (hop : r.opcode = op)
    (hmb : mb < 8) (s : State) : ∃ f, exec i s = .next (s.nymakGo mb r f) := by
  have hm : (r.opcode == op) = true := beq_iff_eq.2 hop
  simp only [NyRow, List.mem_cons, Prod.mk.injEq, List.not_mem_nil, or_false] at h
  rcases h with ⟨rfl, rfl⟩ | ⟨rfl, rfl⟩ | ⟨rfl, rfl⟩ | ⟨rfl, rfl⟩ | ⟨rfl, rfl⟩ | ⟨rfl, rfl⟩ | ⟨rfl, rfl⟩ | ⟨rfl, rfl⟩ | ⟨rfl, rfl⟩ |
    ⟨rfl, rfl⟩ | ⟨rfl, rfl⟩ | ⟨rfl, rfl⟩ | ⟨rfl, rfl⟩ | ⟨rfl, rfl⟩ | ⟨rfl, rfl⟩ | ⟨rfl, rfl⟩ | ⟨rfl, rfl⟩ | ⟨rfl, rfl⟩ | ⟨rfl, rfl⟩ |
    ⟨rfl, rfl⟩ | ⟨rfl, rfl⟩ <;> exact ⟨_, nymakRow_go hmb hm⟩

/-! ### A response (R326) -/

/-- A response is its head of 32 bytes with the result, the mailbox's registers, and its vector. -/
theorem State.respond_of_cmd {s : State} {mb : Nat} {r : NyReq} {stamp : Nat} (h : (s.mb mb).cmd = some (r, stamp)) (status : Nat) (res : List Byte) :
    ∃ head, head.length = 32 ∧ s.respond mb status res =
      (((((((s.putArea (mbBase mb + 0x4000) (head ++ res)).modMb mb fun m => { m with cmd := none }).set (Reg.MB_STATUS_busy mb) 0).set
        (Reg.MB_STATUS_done mb) 1).set (Reg.MB_STATUS_last_status mb) status).set (Reg.MB_STATUS_last_opcode mb) r.opcode).emit (.msix (1 + mb))) := by
  rw [State.respond, h]
  refine ⟨_, ?_, rfl⟩
  simp only [List.length_append, length_toLE]

/-- A field of a mailbox's status after its fields have been written. -/
theorem State.mbStatus_after (u : State) (mb status op : Nat) :
    let t := (((u.set (Reg.MB_STATUS_busy mb) 0).set (Reg.MB_STATUS_done mb) 1).set (Reg.MB_STATUS_last_status mb) status).set (Reg.MB_STATUS_last_opcode mb) op
    t.flag (Reg.MB_STATUS_busy mb) = false ∧ t.flag (Reg.MB_STATUS_done mb) = true ∧
      t.get (Reg.MB_STATUS_last_status mb) = status % 2 ^ (Reg.MB_STATUS_last_status mb).w ∧
      t.get (Reg.MB_STATUS_last_opcode mb) = op % 2 ^ (Reg.MB_STATUS_last_opcode mb).w := by
  have hdis : ∀ (s : State) (f g : RF) (v : Nat), g.off = f.off → g.lo + g.w ≤ 64 → (g.lo + g.w ≤ f.lo ∨ f.lo + f.w ≤ g.lo) → (s.set f v).get g = s.get g :=
    fun s f g v ho h64 hd => State.get_set_disjoint s v ho h64 hd
  refine ⟨?_, ?_, ?_, ?_⟩
  · rw [State.flag, hdis _ (Reg.MB_STATUS_last_opcode mb) (Reg.MB_STATUS_busy mb) _ rfl (by simp [Reg.MB_STATUS_busy]) (by simp [Reg.MB_STATUS_busy, Reg.MB_STATUS_last_opcode]),
      hdis _ (Reg.MB_STATUS_last_status mb) (Reg.MB_STATUS_busy mb) _ rfl (by simp [Reg.MB_STATUS_busy]) (by simp [Reg.MB_STATUS_busy, Reg.MB_STATUS_last_status]),
      hdis _ (Reg.MB_STATUS_done mb) (Reg.MB_STATUS_busy mb) _ rfl (by simp [Reg.MB_STATUS_busy]) (by simp [Reg.MB_STATUS_busy, Reg.MB_STATUS_done]),
      State.get_set_self _ _ _ (by simp [Reg.MB_STATUS_busy])]
    simp
  · rw [State.flag, hdis _ (Reg.MB_STATUS_last_opcode mb) (Reg.MB_STATUS_done mb) _ rfl (by simp [Reg.MB_STATUS_done]) (by simp [Reg.MB_STATUS_done, Reg.MB_STATUS_last_opcode]),
      hdis _ (Reg.MB_STATUS_last_status mb) (Reg.MB_STATUS_done mb) _ rfl (by simp [Reg.MB_STATUS_done]) (by simp [Reg.MB_STATUS_done, Reg.MB_STATUS_last_status]),
      State.get_set_self _ _ _ (by simp [Reg.MB_STATUS_done])]
    simp [Reg.MB_STATUS_done]
  · rw [hdis _ (Reg.MB_STATUS_last_opcode mb) (Reg.MB_STATUS_last_status mb) _ rfl (by simp [Reg.MB_STATUS_last_status]) (by simp [Reg.MB_STATUS_last_status, Reg.MB_STATUS_last_opcode]),
      State.get_set_self _ _ _ (by simp [Reg.MB_STATUS_last_status])]
  · exact State.get_set_self _ _ _ (by simp [Reg.MB_STATUS_last_opcode])

theorem State.reg_mbStatus_ne (u : State) {mb o : Nat} (h : o ≠ 0x1008008 + mb * 0x10000) (status op : Nat) :
    ((((u.set (Reg.MB_STATUS_busy mb) 0).set (Reg.MB_STATUS_done mb) 1).set (Reg.MB_STATUS_last_status mb) status).set (Reg.MB_STATUS_last_opcode mb) op).reg o =
      u.reg o := by
  rw [State.reg_set_ne _ (Reg.MB_STATUS_last_opcode mb) _ h, State.reg_set_ne _ (Reg.MB_STATUS_last_status mb) _ h,
    State.reg_set_ne _ (Reg.MB_STATUS_done mb) _ h, State.reg_set_ne _ (Reg.MB_STATUS_busy mb) _ h]

/-- What a response leaves in the mailbox, its area and its registers. -/
theorem State.respond_leaves {mb status : Nat} {r : NyReq} {stamp : Nat} {res : List Byte} {s : State} (hcmd : (s.mb mb).cmd = some (r, stamp))
    (hlen : res.length ≤ 0x3000) :
    let t := s.respond mb status res
    t.flag (Reg.MB_STATUS_busy mb) = false ∧ t.flag (Reg.MB_STATUS_done mb) = true ∧
      t.get (Reg.MB_STATUS_last_status mb) = status % 2 ^ (Reg.MB_STATUS_last_status mb).w ∧
      t.get (Reg.MB_STATUS_last_opcode mb) = r.opcode % 2 ^ (Reg.MB_STATUS_last_opcode mb).w ∧ (t.mb mb).cmd = none ∧
      t.out = s.out ++ [.msix (1 + mb)] ∧ t.mem = s.mem ∧ t.cells = s.cells ∧
      ∀ i, i < res.length → bits (t.reg (mbBase mb + 0x4020 + i / 8 * 8)) (i % 8 * 8) 8 = (nth res i (0 : Byte)).toNat := by
  obtain ⟨head, hhead, hr⟩ := State.respond_of_cmd hcmd status res
  dsimp only
  rw [hr]
  generalize hu : (s.putArea (mbBase mb + 0x4000) (head ++ res)).modMb mb (fun m => { m with cmd := none }) = u
  obtain ⟨hbusy, hdone, hstatus, hop⟩ := State.mbStatus_after u mb status r.opcode
  have hmb : u.mb mb = { s.mb mb with cmd := none } := by
    rw [← hu, State.mb_modMb_self]
    rw [State.mb, State.putArea_host, State.mb]
  have hout : u.out = s.out := by
    rw [← hu]
    exact State.putArea_out _ _ _
  refine ⟨hbusy, hdone, hstatus, hop, congrArg MbSt.cmd hmb, congrArg (· ++ [Out.msix (1 + mb)]) hout, ?_, ?_, fun i hi => ?_⟩
  · have hmem : u.mem = s.mem := by
      rw [← hu]
      exact State.putArea_mem _ _ _
    exact hmem
  · have hcells : u.cells = s.cells := by
      rw [← hu]
      exact State.putArea_cells _ _ _
    exact hcells
  · rw [State.reg_emit, State.reg_mbStatus_ne u (by simp only [mbBase]; omega), ← hu, State.reg_modMb,
      show mbBase mb + 0x4020 + i / 8 * 8 = mbBase mb + 0x4000 + (32 + i) / 8 * 8 by omega, show i % 8 * 8 = (32 + i) % 8 * 8 by omega,
      State.byte_putArea (by rw [List.length_append]; omega)]
    rw [nth, nth, List.getD_append_right _ _ _ _ (by omega), hhead, Nat.add_sub_cancel_left]

/-! ### Deferrals (R334) -/

theorem bitAt_of_bits {x n : Nat} (h : bits x n 1 = 1) : bitAt x n = true := by
  rw [bits, Nat.shiftRight_eq_div_pow, Nat.pow_one] at h
  rw [bitAt, Nat.testBit_eq_decide_div_mod_eq, h]
  rfl

/-- A valid entry that is not final becomes final with its status, and the mailbox shows it. -/
theorem State.finalDefer_leaves {mb e st : Nat} {s : State} (hvalid : bitAt (s.reg (deferAt mb e)) 0 = true)
    (hopen : bitAt (s.reg (deferAt mb e)) 1 = false) :
    let t := s.finalDefer mb e st
    bitAt (t.reg (deferAt mb e)) 1 = true ∧ bits (t.reg (deferAt mb e)) 16 8 = st % 256 ∧ t.flag (Reg.MB_STATUS_deferred mb) = true ∧
      t.out = s.out ++ [.msix (1 + mb)] ∧ t.mem = s.mem ∧ t.cells = s.cells := by
  have hne : deferAt mb e ≠ 0x1008008 + mb * 0x10000 := by simp only [deferAt, mbBase]; omega
  dsimp only
  rw [State.finalDefer, hvalid, hopen]
  generalize hw : setBits (setBits (s.reg (deferAt mb e)) 1 1 1) 16 8 st = w
  dsimp only
  rw [if_pos (show (true && !false) = true from rfl)]
  have hreg : ∀ (u : State) (n : Nat), (((u.setReg (deferAt mb e) w).set (Reg.MB_STATUS_defer_pending mb) n).set (Reg.MB_STATUS_deferred mb) 1).reg (deferAt mb e) =
      w % 2 ^ 64 := fun u n => by
    rw [State.reg_set_ne _ (Reg.MB_STATUS_deferred mb) _ hne, State.reg_set_ne _ (Reg.MB_STATUS_defer_pending mb) _ hne, State.reg_setReg_self]
  refine ⟨bitAt_of_bits ?_, ?_, ?_, rfl, rfl, rfl⟩
  · rw [State.reg_emit, hreg, bits_mod_64 _ _ _ (by decide), ← hw, bits_setBits_disjoint _ _ _ _ _ _ (by decide)]
    exact bits_setBits_self _ 1 1 1
  · rw [State.reg_emit, hreg, bits_mod_64 _ _ _ (by decide), ← hw]
    exact bits_setBits_self _ 16 8 st
  · have hget : ∀ u : State, (u.set (Reg.MB_STATUS_deferred mb) 1).get (Reg.MB_STATUS_deferred mb) = 1 := fun u =>
      State.get_set_self u _ _ (by simp [Reg.MB_STATUS_deferred])
    exact congrArg (· != 0) (hget _)

/-- Settles O47: a doorbell is judged in the order of the checks, and a response leaves its registers and its bytes. -/
theorem mailboxProtocol : Obligations.MailboxProtocol := by
  refine ⟨fun mb r s hmb hoff hlink hserve pkg ns i op hrow hop => ⟨fun hbusy => ?_, fun hbusy => ⟨fun hrec hs => ?_, fun hrec hop1 hses => ?_, fun hrec hses hform => ?_⟩⟩,
    fun mb r s => ⟨fun hready hk => ?_, fun hmb hoff hlink hserve hdark => ?_⟩, fun mb status r stamp res s _ hcmd hlen => State.respond_leaves hcmd hlen,
    fun mb e st s hmb he hfind hvalid hopen => ?_⟩
  · obtain ⟨f, hx⟩ := exec_of_nyRow hrow hop hmb s
    rw [hx, State.nymakGo, hoff, hlink, hserve, if_neg (by decide), if_neg (by decide), if_pos hbusy]
  · obtain ⟨f, hx⟩ := exec_of_nyRow hrow hop hmb s
    rw [hx, State.nymakGo_taken ⟨hmb, hoff, hlink, hserve, hbusy⟩, State.serve, if_pos ⟨hrec, by rw [hs]; rfl⟩]
  · obtain ⟨f, hx⟩ := exec_of_nyRow hrow hop hmb s
    rw [hx, State.nymakGo_taken ⟨hmb, hoff, hlink, hserve, hbusy⟩, State.serve, if_neg fun h => absurd h.1 (ne_true_of_eq_false hrec), if_pos ⟨hop1, hses⟩]
  · obtain ⟨f, hx⟩ := exec_of_nyRow hrow hop hmb s
    have hpass : ¬(r.opcode ≠ 1 ∧ (r.session = 0 ∨ r.session ≠ ((Says.accepted s mb r).mb mb).session)) := by
      rintro ⟨hop1, hno⟩
      obtain h | ⟨h0, hs⟩ := hses
      · exact hop1 h
      · exact hno.elim h0 fun h => h hs
    rw [hx, State.nymakGo_taken ⟨hmb, hoff, hlink, hserve, hbusy⟩, State.serve, if_neg fun h => absurd h.1 (ne_true_of_eq_false hrec), if_neg hpass, if_pos hform]
  · exact nymakRow_done hready (by rw [hk]; simp) rfl
  · change execMbDoorbellGo mb r s = _
    rw [execMbDoorbellGo, nymakRow_go hmb (by rw [hserve]; rfl), State.nymakGo, hoff, hlink, hserve, if_neg (by decide), if_pos (show (!false) = true from rfl),
      if_neg (ne_true_of_eq_false hdark)]
  · have hv : decide (mb < 8 ∧ e < 64) = true := decide_eq_true ⟨hmb, he⟩
    change ∃ t, execDeferralFinal mb e s = .next t ∧ _
    rw [execDeferralFinal, hv, onUnit_true, hfind]
    exact ⟨_, rfl, State.finalDefer_leaves hvalid hopen⟩

end Sys2Proof.Machine
end

section
/-! PROOFS. What mailbox commands do (O48). -/

namespace Sys2Proof.Machine
open Sys2Proof.Says

/-! ### HELLO (R329) -/

theorem State.accepted_cmd (s : State) (mb : Nat) (r : NyReq) : ((Says.accepted s mb r).mb mb).cmd = some (r, s.now) := by
  rw [Says.accepted, State.mb_modMb_self]

theorem State.accepted_frame (s : State) (mb : Nat) (r : NyReq) : (Says.accepted s mb r).mem = s.mem ∧ (Says.accepted s mb r).cells = s.cells := by
  rw [Says.accepted, State.putRequest]
  generalize reqHeader r ++ _ = bs
  exact ⟨State.putArea_mem s (mbBase mb) bs, State.putArea_cells s (mbBase mb) bs⟩

theorem State.closeSession_leaves (s : State) (mb : Nat) :
    ((s.closeSession mb).mb mb).cmd = (s.mb mb).cmd ∧ (s.closeSession mb).mem = s.mem ∧ (s.closeSession mb).cells = s.cells := by
  have hcmd : ((s.modMb mb fun m => { m with session := 0 }).mb mb).cmd = (s.mb mb).cmd := by rw [State.mb_modMb_self]
  rw [State.closeSession]
  split
  · exact ⟨hcmd, rfl, rfl⟩
  · exact ⟨hcmd, rfl, rfl⟩

/-- A response leaves the mailbox's session. -/
theorem State.respond_session {mb : Nat} {r : NyReq} {stamp : Nat} {s : State} (hcmd : (s.mb mb).cmd = some (r, stamp)) (status : Nat) {res : List Byte}
    (hlen : res.length ≤ 0x3000) : ((s.respond mb status res).mb mb).session = (s.mb mb).session ∧
      (s.respond mb status res).get (Reg.MB_STATUS_session_open mb) = s.get (Reg.MB_STATUS_session_open mb) := by
  obtain ⟨head, hhead, hr⟩ := State.respond_of_cmd hcmd status res
  rw [hr]
  generalize hu : (s.putArea (mbBase mb + 0x4000) (head ++ res)).modMb mb (fun m => { m with cmd := none }) = u
  have hmb : u.mb mb = { s.mb mb with cmd := none } := by
    rw [← hu, State.mb_modMb_self, State.mb, State.putArea_host, State.mb]
  have hopen : u.get (Reg.MB_STATUS_session_open mb) = s.get (Reg.MB_STATUS_session_open mb) := by
    rw [← hu]
    refine State.get_of_reg ((State.reg_modMb _ _ _ _).trans (State.reg_putArea_beyond ?_))
    rw [List.length_append]
    simp only [Reg.MB_STATUS_session_open, mbBase]
    omega
  refine ⟨(congrArg MbSt.session hmb : (u.mb mb).session = _), ?_⟩
  refine Eq.trans (b := ((((u.set (Reg.MB_STATUS_busy mb) 0).set (Reg.MB_STATUS_done mb) 1).set (Reg.MB_STATUS_last_status mb) status).set
    (Reg.MB_STATUS_last_opcode mb) r.opcode).get (Reg.MB_STATUS_session_open mb)) rfl ?_
  rw [State.get_set_disjoint (f := Reg.MB_STATUS_last_opcode mb) (g := Reg.MB_STATUS_session_open mb) _ _ rfl (by simp [Reg.MB_STATUS_session_open])
      (by simp [Reg.MB_STATUS_session_open, Reg.MB_STATUS_last_opcode]),
    State.get_set_disjoint (f := Reg.MB_STATUS_last_status mb) (g := Reg.MB_STATUS_session_open mb) _ _ rfl (by simp [Reg.MB_STATUS_session_open])
      (by simp [Reg.MB_STATUS_session_open, Reg.MB_STATUS_last_status]),
    State.get_set_disjoint (f := Reg.MB_STATUS_done mb) (g := Reg.MB_STATUS_session_open mb) _ _ rfl (by simp [Reg.MB_STATUS_session_open])
      (by simp [Reg.MB_STATUS_session_open, Reg.MB_STATUS_done]),
    State.get_set_disjoint (f := Reg.MB_STATUS_busy mb) (g := Reg.MB_STATUS_session_open mb) _ _ rfl (by simp [Reg.MB_STATUS_session_open])
      (by simp [Reg.MB_STATUS_session_open, Reg.MB_STATUS_busy]), hopen]

/-- A session opens: its number is free, and the mailbox answers OK. -/
theorem State.hello_opens {mb : Nat} {r : NyReq} {stamp : Nat} {u : State} (hcmd : (u.mb mb).cmd = some (r, stamp)) {b : List Byte} (hlen : 5 ≤ b.length)
    (hv : argN b 0 4 = 1) (ho : argN b 4 1 = 0) : ∃ t res n, u.hello mb b = .done t .ok res ∧ 0 < n ∧ n < 2 ^ 32 ∧
      ((t.respond mb St.ok.code res).mb mb).session = n ∧ (t.respond mb St.ok.code res).flag (Reg.MB_STATUS_session_open mb) = true ∧
      (t.respond mb St.ok.code res).get (Reg.MB_STATUS_last_status mb) = 0 ∧ (t.respond mb St.ok.code res).mem = u.mem ∧
      (t.respond mb St.ok.code res).cells = u.cells := by
  obtain ⟨hc, hm, hcl⟩ := State.closeSession_leaves u mb
  rw [State.hello, if_neg (by omega)]
  dsimp only
  rw [if_neg (by omega)]
  generalize u.closeSession mb = v at hc hm hcl
  generalize hn : v.draw.1.toNat % (2 ^ 32 - 1) + 1 = n
  have hlt : n < 2 ^ 32 := by
    have := Nat.mod_lt v.draw.1.toNat (by decide : 0 < 2 ^ 32 - 1)
    omega
  generalize ht : (v.draw.2.modMb mb fun m => { m with session := n }).set (Reg.MB_STATUS_session_open mb) 1 = t
  have hmb : t.mb mb = { v.mb mb with session := n } := by
    rw [← ht]
    exact State.mb_modMb_self v.draw.2 mb fun m => { m with session := n }
  have hcmd' : (t.mb mb).cmd = some (r, stamp) := by rw [hmb, ← hcmd, ← hc]
  have hmem : t.mem = u.mem := by rw [← ht, ← hm]; rfl
  have hcells : t.cells = u.cells := by rw [← ht, ← hcl]; rfl
  have hopen : t.get (Reg.MB_STATUS_session_open mb) = 1 := by
    rw [← ht]
    exact State.get_set_self _ (Reg.MB_STATUS_session_open mb) 1 (by simp [Reg.MB_STATUS_session_open])
  generalize hres : _ ++ toLE 4 16352 = res
  have hlen : res.length ≤ 0x3000 := by
    rw [← hres]
    simp only [List.length_append, length_toLE]
    decide
  obtain ⟨-, -, hstatus, -, -, -, hrmem, hrcells, -⟩ := State.respond_leaves (status := St.ok.code) hcmd' hlen
  obtain ⟨hsession, hkeeps⟩ := State.respond_session hcmd' St.ok.code hlen
  refine ⟨t, res, n, rfl, by omega, hlt, hsession.trans (by rw [hmb]), ?_, ?_, hrmem.trans hmem, hrcells.trans hcells⟩
  · rw [State.flag, hkeeps, hopen]
    rfl
  · rw [hstatus]
    exact Nat.zero_mod _

/-! ### Arguments -/

theorem any_bits_range {b : List Byte} (h : ∀ g, g < 64 → bits (argN b (24 + g) 1) 4 3 = 0) :
    (((List.range 64).map fun g => argN b (24 + g) 1).any fun e => bits e 4 3 != 0) = false := by
  rw [List.any_eq_false]
  intro e he
  obtain ⟨g, hg, rfl⟩ := List.mem_map.1 he
  rw [h g (List.mem_range.1 hg)]
  decide

theorem any_missing_range {b : List Byte} {n : Nat} (h : ∀ g, g < n → g < 64 ∧ bitAt (argN b (24 + g) 1) 7 = true) :
    ((List.range n).any fun g => !bitAt (nth ((List.range 64).map fun g => argN b (24 + g) 1) g 0) 7) = false := by
  rw [List.any_eq_false]
  intro g hg
  obtain ⟨hlt, hbit⟩ := h g (List.mem_range.1 hg)
  have hat : nth ((List.range 64).map fun g => argN b (24 + g) 1) g 0 = argN b (24 + g) 1 := by
    rw [nth, List.getD_eq_getElem?_getD, List.getElem?_map, List.getElem?_range hlt]
    rfl
  rw [hat, hbit]
  decide

theorem oldestCairn_of_cairn {s t : State} (h : t.cairn = s.cairn) : t.oldestCairn = s.oldestCairn := by
  rw [State.oldestCairn, State.oldestCairn, State.cairns, State.cairns, h]

theorem newestCairn_of_cairn {s t : State} (h : t.cairn = s.cairn) : t.newestCairn = s.newestCairn := by
  rw [State.newestCairn, State.newestCairn, State.cairns, State.cairns, h]

/-! ### Channels, belays and loads -/

/-- A creation between a stage core and a receiving endpoint that is free (R337). -/
theorem State.joinEp_core {u : State} {mb : Nat} {b : List Byte} (hpeer : argN b 1 1 = 0) (hid : argN b 2 2 < 64) (hlen : 12 ≤ b.length)
    (hrsv : argN b 12 20 = 0) {c k : Nat} (hc : u.physical (argN b 4 2) = some c) (hopen : u.openEp c (argN b 6 1) = true)
    (hfree : u.joined ⟨c, argN b 6 1⟩ = none) (hk : u.freeChan = some k) (hrecv : epSends (u.ep c (argN b 6 1)).cfg = false)
    (hdrain : u.drainsAt ⟨0xF000 + argN b 2 2, 0⟩ ⟨c, argN b 6 1⟩ = none) :
    let ty := if epKind (u.ep c (argN b 6 1)).cfg = 3 then 3 else if u.inPair ⟨c, argN b 6 1⟩ then 5 else 2
    u.joinEp mb b = .done ((u.modChan k fun ch => { ChanSt.init with
      gen := ch.gen, live := true, ty := ty, send := some ⟨0xF000 + argN b 2 2, 0⟩, recv := some ⟨c, argN b 6 1⟩ }).chanUp k
        ⟨0xF000 + argN b 2 2, 0⟩ ⟨c, argN b 6 1⟩) .ok (toLE 4 (ty * 2 ^ 28 + (u.chan k).gen * 2 ^ 16 + k)) := by
  dsimp only
  rw [State.joinEp]
  simp only [hpeer, hc, Option.getD_some]
  rw [if_neg (by rw [hopen, hrsv, decide_eq_true hid]; simp; omega), if_neg (fun h => absurd h.1 (by decide)), if_neg (fun h => absurd h.1 (by decide)),
    hfree, hk]
  dsimp only
  rw [if_neg (by simp), if_neg (by simp), hrecv]
  simp only [Bool.false_eq_true, if_false]
  rw [State.makeChan, hdrain, Nat.shiftLeft_eq, Nat.shiftLeft_eq]

/-- A belay that keeps every range of its argument is armed (R308). -/
theorem belayRow_arms {u : State} {b : List Byte} {p : Loaded} (hlen : 144 ≤ b.length) (hn : argN b 16 2 = 1) (hr : argN b 18 6 = 0)
    (hr2 : argN b 88 40 = 0) (hreg : argN b 0 8 % 65536 = 0) (hsize : argN b 8 8 % 131072 = 0) (hjob : inJob (argN b 0 8) (argN b 8 8) = true)
    (hents : ∀ g, g < 64 → bits (argN b (24 + g) 1) 4 3 = 0) (hgroups : ∀ g, g < p.pkg.folds.length → g < 64 ∧ bitAt (argN b (24 + g) 1) 7 = true)
    (he : bits (argN b 128 8) 39 25 = 0) (he2 : argN b 140 4 = 0) (hext : u.extentOk (belayExtent b 0) = true)
    (hfit : 4096 + (belayExtent b 0).2.2.2 ≤ argN b 8 8 / 2) :
    (b.length < 128 || argN b 16 2 == 0 || 4096 < argN b 16 2 || b.length < 128 + 16 * argN b 16 2 || argN b 18 6 != 0 || argN b 88 40 != 0 ||
      argN b 0 8 % 65536 != 0 || argN b 8 8 % 131072 != 0 || !inJob (argN b 0 8) (argN b 8 8) ||
      ((List.range 64).map fun g => argN b (24 + g) 1).any (fun e => bits e 4 3 != 0) ||
      ((List.range p.pkg.folds.length).any fun g => !bitAt (nth ((List.range 64).map fun g => argN b (24 + g) 1) g 0) 7) ||
      ((List.range (argN b 16 2)).any fun i => bits (argN b (128 + 16 * i) 8) 39 25 != 0 || argN b (140 + 16 * i) 4 != 0) ||
      !((List.range (argN b 16 2)).map (belayExtent b)).all u.extentOk ||
      argN b 8 8 / 2 < 4096 + (((List.range (argN b 16 2)).map (belayExtent b)).map fun e => e.2.2.2).sum : Bool) = false := by
  rw [any_bits_range hents, any_missing_range hgroups, hn, hr, hr2, hreg, hsize, hjob]
  have hone : List.range 1 = [0] := rfl
  simp only [hone, List.map_cons, List.map_nil, List.any_cons, List.any_nil, List.all_cons, List.all_nil, hext, Nat.mul_zero, Nat.add_zero, he, he2,
    List.sum_cons, List.sum_nil, decide_eq_false (by omega : ¬b.length < 128), decide_eq_false (by omega : ¬b.length < 128 + 16 * 1),
    decide_eq_false (by omega : ¬argN b 8 8 / 2 < 4096 + (belayExtent b 0).2.2.2)]
  decide

/-- With no change waiting, none is filtered out. -/
theorem State.modActs_noChanges {u : State} (h : u.acts.changes = []) (F : Nat × Change → Bool) (num : Nat) :
    (u.modActs fun a => { a with queue := [], nextNum := num, fixed := none, changes := a.changes.filter F }) =
      u.modActs fun a => { a with queue := [], nextNum := num, fixed := none } := by
  rw [State.modActs, State.modActs, h]
  rfl

/-- A load that passes every order of Table 8.5. -/
theorem State.judgeLoad_ok {u : State} {b : List Byte} {pkg : Package} {rsv : List Nat} (hr : u.isIn .ready = true)
    (hd : u.flag Reg.DOR_DEBUG_unlocked = false) (ha : u.loadArgOk b = true) (hm : u.magicOk b = true) (hdig : u.digestOk b = true)
    (hsec : u.sectionsOk (argN b 0 8) (u.packageOf (argN b 0 8) pkg) = true) (hcast : u.castFenced (u.packageOf (argN b 0 8) pkg) = false)
    (hres : u.reserveFor (argN b 0 8) (u.packageOf (argN b 0 8) pkg) = some rsv) :
    u.judgeLoad b pkg = (.ok, u.loadPackage b (u.packageOf (argN b 0 8) pkg) rsv) := by
  rw [State.judgeLoad]
  rw [hr, hd, ha, hm, hdig, hsec, hcast, hres]
  rfl

/-- Settles O48: a command that passes its own tests ends with OK and its result, or goes on. -/
theorem mailboxCommands : Obligations.MailboxCommands := by
  refine ⟨fun mb r s hready => ?_, fun l s hl hstrike hr => ?_⟩
  · obtain ⟨hmem, hcells⟩ := State.accepted_frame s mb r
    have hcmd := State.accepted_cmd s mb r
    generalize hu : Says.accepted s mb r = u at hmem hcells hcmd
    have hdone : ∀ {mine : Bool} {f : State → List Byte → Ans} {t : State} {st : St} {res : List Byte}, mine = true → f u r.arg = .done t st res →
        nymakRow mb r mine s f = .next (t.respond mb st.code res) := fun hm hf => nymakRow_done hready hm (by rw [hu]; exact hf)
    have hgoes : ∀ {mine : Bool} {f : State → List Byte → Ans} {t : State}, mine = true → f u r.arg = .goes t →
        nymakRow mb r mine s f = .next t := fun hm hf => nymakRow_goes hready hm (by rw [hu]; exact hf)
    clear hready
    generalize hb : r.arg = b at hdone hgoes
    have hop : ∀ {op : Nat}, r.opcode = op → (r.opcode == op) = true := fun h => beq_iff_eq.2 h
    refine ⟨fun ho hlen hv => ⟨fun h0 => ?_, fun h1 => hdone (hop ho) ?_⟩, fun ho hs pkg => ⟨hdone (hop ho) ?_, ?_⟩, fun ho hl hs hq hrun ns => hgoes (hop ho) ?_,
      fun ho h0 hpeer hid hlen hrsv c k hc hopen hfree hk hrecv hdrain => ⟨_, _, hdone (hop ho) ?_, rfl, rfl⟩,
      fun ho hlen hty ch hch hpkg => hdone (hop ho) ?_, fun ho hlen hpos hmax hkind hrsv hrun hpkg hroom hend h0 hlast => hdone (hop ho) ?_,
      fun ho hlen h0 hch => hdone (hop ho) ?_, fun ho ha i hi hbind hsum hopen hst => hdone (hop ho) ?_, fun ho hlen hn hopen hgen => hdone (hop ho) ?_,
      fun ho hrun hbel p hp hlen hn hr hr2 hreg hsize hjob hents hgroups he he2 hext hfit => hgoes (hop ho) ?_, fun ho hrun _ => hdone (hop ho) ?_,
      fun ho hlen h1 h0 hrsv hr hs ns => hgoes (hop ho) ?_, fun ho hlen h0 => hdone (hop ho) ?_, fun ho hlen hbme => hdone (hop ho) ?_,
      fun ho hlen hmode hr => hdone (hop ho) ?_, fun ho hlen ha hl hmax hend hbme => ⟨fun hk => hdone (hop ho) ?_, fun hk hv => hdone (hop ho) ?_⟩⟩
    · obtain ⟨t, res, n, hf, hpos, hlt, hsession, hopen, hstatus, htm, htc⟩ := State.hello_opens hcmd hlen hv h0
      exact ⟨_, n, hdone (hop ho) hf, hpos, hlt, hsession, hopen, hstatus, htm.trans hmem, htc.trans hcells⟩
    · rw [State.hello, if_neg (by omega)]
      exact if_pos h1
    · rw [hs]
      rfl
    · intro p hr hd ha hm hdig hsec hcast rsv hres
      have hj : u.judgeLoad b pkg = (.ok, u.loadPackage b (u.packageOf (argN b 0 8) pkg) rsv) :=
        State.judgeLoad_ok hr hd ha hm hdig hsec hcast hres
      refine ⟨u.loadPackage b (u.packageOf (argN b 0 8) pkg) rsv, hdone (hop ho) ?_, rfl⟩
      generalize u.loadPackage b (u.packageOf (argN b 0 8) pkg) rsv = t at hj
      rw [hs, hj]
      rfl
    · rw [hl, hs, hq, hrun]
      rfl
    · dsimp only
      rw [h0]
      exact State.joinEp_core hpeer hid hlen hrsv hc hopen hfree hk hrecv hdrain
    · dsimp only
      rw [if_neg (by omega), if_neg hty, hch]
      exact if_neg (ne_true_of_eq_false hpkg)
    · have hany : (u.acts.queue.any fun a => a.count == 0) = false :=
        List.any_eq_false.2 fun a ha => by simpa using hend a ha
      have hafter : (u.lastCurtain.any fun t => decide (argN b 0 8 < t)) = false := by
        cases hc : u.lastCurtain with
        | none => rfl
        | some t => exact decide_eq_false (Nat.not_lt.2 (hlast t hc))
      have hsome : u.pkg.isNone = false := by rw [← Option.not_isSome, hpkg]; rfl
      dsimp only
      rw [if_neg h0, if_neg (by omega), hrun, hsome, if_neg (by simp), hany, hafter, if_neg (by simp), if_neg (by omega)]
      rfl
    · dsimp only
      rw [if_neg (by omega), hch, h0, if_neg (fun h => absurd h.1 (by decide)), State.modActs_noChanges hch]
      rfl
    · dsimp only
      rw [ha, hi]
      dsimp only
      rw [if_neg (not_not_intro hbind), if_neg (show ¬(!true) = true by decide)]
      exact (if_neg (Nat.not_lt.2 hsum)).trans ((if_neg (ne_true_of_eq_false hopen)).trans (if_neg hst))
    · dsimp only
      rw [if_neg (by omega), if_pos ⟨hopen, hgen⟩]
    · dsimp only
      rw [hp]
      dsimp only
      rw [belayRow_arms hlen hn hr hr2 hreg hsize hjob hents hgroups he he2 hext hfit, hrun, hbel, hn]
      simp only [List.map_map]
      rfl
    · rw [if_pos hrun]
    · dsimp only
      have hwhole : (if (1 == 1) = true then [(0, 0x01AE00000000)] else argRegions b 16 0) = [(0, 0x01AE00000000)] := if_pos rfl
      have hall : [(0, 0x01AE00000000)].all areaOk = true := by decide
      have hsum : ([(0, 0x01AE00000000)].map fun a : Nat × Nat => a.2 / 65536).sum = 0x01AE00000000 / 65536 := List.sum_singleton
      rw [h1, h0, hrsv, hr, hs, hwhole, hall, hsum, if_neg (by simp; omega), Bool.not_true, if_neg Bool.false_ne_true, Option.isSome_none,
        if_neg Bool.false_ne_true]
    · dsimp only
      rw [h0, if_neg (by simp; omega)]
      rfl
    · have hcairn : (if (copyCairns (argN b 4 4) (u.cairnsFrom (argN b 0 4))).1.isEmpty then u else
          (u.request 2 4 0 (copyCairns (argN b 4 4) (u.cairnsFrom (argN b 0 4))).1.length).emit
            (.hostWrite (argN b 8 8) (copyCairns (argN b 4 4) (u.cairnsFrom (argN b 0 4))).1)).cairn = u.cairn := by
        split
        · rfl
        · exact State.request_cairn _ _ _ _ _
      dsimp only
      rw [hbme, if_neg (by simp; omega), oldestCairn_of_cairn hcairn, newestCairn_of_cairn hcairn]
    · rw [if_neg (by omega), if_pos hr]
    · dsimp only
      rw [hbme, if_neg (by simp; omega), if_pos hk]
    · dsimp only
      rw [hbme, if_neg (by simp; omega), if_neg (not_not_intro hk), hv]
      rfl
  · change Host.Outcome.next _ = _
    rw [hl]
    dsimp only
    rw [hstrike, hr]
    rfl

end Sys2Proof.Machine
end

section
/-! PROOFS. Host rings (O49). -/

namespace Sys2Proof.Machine
open Sys2Proof.Says

/-- A doorbell of a ring that is up, with the panel and the link in service. -/
theorem exec_ringDoorbell {off w : Nat} {v : Word64} {s : State} (ho : off < 0x100000) (h64 : off % 64 = 0) (hoff : s.isIn .off = false)
    (hdark : s.isIn .dark = false) (hlink : s.linkServes = true) (hup : (s.ring (off / 64)).up = true) (hw : w = 4 ∨ w = 8) (write : Bool) :
    exec (.ringDoorbell off w write v) s =
      .next (if write then s.ringPosition (off / 64) (v.toNat % 2 ^ 32) else s.emit (.barRead off (s.doorbellWord off w))) := by
  have hwidth : ((w == 4 || w == 8) && off % w == 0) = true := by
    obtain rfl | rfl := hw
    · have : off % 4 = 0 := by omega
      rw [this]
      rfl
    · have : off % 8 = 0 := by omega
      rw [this]
      rfl
  change execRingDoorbell off w write v s = _
  rw [execRingDoorbell, decide_eq_true ho, onUnit_true, hoff, hdark, hlink, hwidth, hup, h64]
  cases write <;> rfl

/-- A position within the bounds of its ring is taken. -/
theorem State.ringPosition_head {s : State} {i p : Nat} (hs : (s.ring i).stopped = false) (hp : p < (s.ring i).grans) (hb : (s.ring i).binding = 3)
    (hf : (p + (s.ring i).grans - (s.ring i).head) % (s.ring i).grans ≤ (s.ring i).fill) :
    s.ringPosition i p = s.modRing i fun r => { r with head := p } := by
  rw [State.ringPosition]
  rw [hs, if_neg Bool.false_ne_true, if_pos hb, decide_eq_false (Nat.not_le.2 hp), decide_eq_false (Nat.not_lt.2 hf), Bool.or_self, if_neg Bool.false_ne_true,
    State.modRing, State.modRing, if_pos hb]

theorem State.ringPosition_tail {s : State} {i p : Nat} (hs : (s.ring i).stopped = false) (hp : p < (s.ring i).grans) (hb : (s.ring i).binding ≠ 3)
    (hf : (s.ring i).fill + (p + (s.ring i).grans - (s.ring i).tail) % (s.ring i).grans ≤ (s.ring i).grans - 1) :
    s.ringPosition i p = s.modRing i fun r => { r with tail := p } := by
  rw [State.ringPosition]
  rw [hs, if_neg Bool.false_ne_true, if_neg hb, decide_eq_false (Nat.not_le.2 hp), decide_eq_false (Nat.not_lt.2 hf), Bool.or_self, if_neg Bool.false_ne_true,
    State.modRing, State.modRing, if_neg hb]

/-- A position beyond its ring stops it. -/
theorem State.ringPosition_beyond {s : State} {i p : Nat} (hs : (s.ring i).stopped = false) (hp : (s.ring i).grans ≤ p) :
    s.ringPosition i p = (s.ringErr i 6 (s.ring i).seq true).writeBackRing i := by
  rw [State.ringPosition]
  rw [hs, if_neg Bool.false_ne_true, decide_eq_true hp, Bool.true_or, if_pos rfl]

/-- An entry that no submission ring carries, judged at its ring's head. -/
theorem exec_padEntry {i : Nat} {e : List Byte} (hi : i < 16384) (hf : foreignEntry e = true) (s : State) :
    exec (.padEntry i e) s = .next (s.serveEntry i (ofLE (e.take 1)) e fun s _ => some s) := by
  change execPadEntry i e s = _
  rw [execPadEntry, decide_eq_true hi, onUnit_true, if_pos hf]

theorem State.serveEntry_pad {s : State} {i n : Nat} {e : List Byte} (h : s.readRing i e = .pad n) (f : State → List Byte → Option State) :
    s.serveEntry i (ofLE (e.take 1)) e f = s.passEntry i n false := by
  unfold State.serveEntry
  rw [h, beq_self_eq_true]
  rfl

theorem State.serveEntry_skip {s : State} {i code seq n : Nat} {e : List Byte} (h : s.readRing i e = .skip code seq n) (f : State → List Byte → Option State) :
    s.serveEntry i (ofLE (e.take 1)) e f = (s.ringErr i code seq false).passEntry i n (ofLE (e.take 1) != 0) := by
  unfold State.serveEntry
  rw [h, beq_self_eq_true]
  rfl

/-- Settles O49: each access, entry and timer takes the branch that its conditions select. -/
theorem rings : Obligations.Rings := by
  refine ⟨fun off v s ho h64 hoff hdark hlink hup hs w hw => ⟨fun hp hb hf => ?_, fun hp hb hf => ?_, fun hp => ?_, ?_⟩, fun i n e s hi hf => ⟨fun h => ?_, fun seq h => ?_⟩,
    fun i n seq e b s hi hread hty hlive hdrain hhandle hsend c k hrecv hc hmin hmax hpo hrsv hbody hfit => ?_,
    fun i s hi => ⟨fun hrun hlive hs hb => ?_, fun t ht hrun hlive hdue => ?_, fun hlive hs => ?_, fun hc => ⟨fun hn => ?_, fun mb e a hn => ?_⟩⟩⟩
  · rw [exec_ringDoorbell ho h64 hoff hdark hlink hup hw, if_pos rfl, State.ringPosition_head hs hp hb hf]
  · rw [exec_ringDoorbell ho h64 hoff hdark hlink hup hw, if_pos rfl, State.ringPosition_tail hs hp hb hf]
  · rw [exec_ringDoorbell ho h64 hoff hdark hlink hup hw, if_pos rfl, State.ringPosition_beyond hs hp]
  · rw [exec_ringDoorbell ho h64 hoff hdark hlink hup hw, if_neg Bool.false_ne_true]
  · rw [exec_padEntry hi hf, State.serveEntry_pad h]
  · rw [exec_padEntry hi hf, State.serveEntry_skip h]
  · change execMessageEntry i e s = _
    rw [execMessageEntry, decide_eq_true hi, onUnit_true]
    refine congrArg Host.Outcome.next (State.serveEntry_taken hread hty ?_)
    simp only [List.drop_zero, hrecv]
    rw [if_pos hc, hlive, hdrain, hhandle, hsend, hrsv, beq_self_eq_true, beq_self_eq_true, decide_eq_false (Nat.not_lt.2 hmin),
      decide_eq_false (Nat.not_lt.2 hmax), decide_eq_false (Nat.not_lt.2 hbody), decide_eq_false (Nat.not_lt.2 hfit),
      Nat.div_eq_of_lt (Nat.lt_succ_of_le hpo)]
    exact if_neg (by decide)
  · change execCompletionDelivery i s = _
    rw [execCompletionDelivery, decide_eq_true hi, onUnit_true]
    dsimp only
    rw [hrun, hlive, hs, hb]
    rfl
  · change execRingIrqTimer i s = _
    rw [execRingIrqTimer, decide_eq_true hi, onUnit_true]
    dsimp only
    rw [ht]
    dsimp only
    rw [hrun, hlive, decide_eq_true hdue]
    rfl
  · change execHostAccessError i s = _
    rw [execHostAccessError, decide_eq_true hi, onUnit_true]
    dsimp only
    rw [hlive, hs]
    refine congrArg Host.Outcome.next ?_
    rw [show (true && !false) = true from rfl, when_true, State.ringErr]
    simp only [Bool.or_true]
    rfl
  · obtain ⟨x, hx⟩ := Option.isSome_iff_exists.1 hc
    change execRingShutdownDone i s = _
    rw [execRingShutdownDone, decide_eq_true hi, onUnit_true]
    dsimp only
    rw [hx, hn]
  · obtain ⟨x, hx⟩ := Option.isSome_iff_exists.1 hc
    change execRingShutdownDone i s = _
    rw [execRingShutdownDone, decide_eq_true hi, onUnit_true]
    dsimp only
    rw [hx, hn]

end Sys2Proof.Machine
end

section
/-! PROOFS. Bring-up and the contacts (O50). -/

namespace Sys2Proof.Machine
open Sys2Proof.Says

/-! ### Folds that write registers -/

theorem foldl_regs_only {α : Type} {f : State → α → State} (hf : ∀ s a, f s a = { s with regs := (f s a).regs }) (l : List α) (s : State) :
    l.foldl f s = { s with regs := (l.foldl f s).regs } := by
  induction l generalizing s with
  | nil => rfl
  | cons a l ih =>
    rw [List.foldl_cons, ih, hf s a]

theorem foldl_reg {α : Type} {f : State → α → State} {o : Nat} (hf : ∀ s a, (f s a).reg o = s.reg o) (l : List α) (s : State) :
    (l.foldl f s).reg o = s.reg o := by
  induction l generalizing s with
  | nil => rfl
  | cons a l ih => exact (ih _).trans (hf s a)

/-- Seams that start training write registers of the windows only. -/
theorem State.seamStart_eq (s : State) : s.seamStart = { s with regs := s.seamStart.regs } :=
  foldl_regs_only (fun s _ => foldl_regs_only (fun s _ => State.sets_eq s _) _ s) _ s

theorem State.reg_seamStart {s : State} {o : Nat} (h : o < 0x2000000) : s.seamStart.reg o = s.reg o :=
  foldl_reg (fun s g => foldl_reg (fun s p => State.reg_sets_ne _ _ fun q hq => by
    simp only [List.mem_cons, List.not_mem_nil, or_false] at hq
    obtain rfl | rfl := hq <;> simp only [Reg.SEAM_STATUS_state, Reg.SEAM_STATUS_hub, winBase] <;> omega) _ s) _ s

/-! ### Registers below 0x10000 while rope rings end -/

theorem State.reg_setRing_low {s : State} {o : Nat} (h : o < 0x10000) (i st : Nat) : (s.setRing i st).reg o = s.reg o := by
  have hsets : ∀ (t : State) (f g : RF) (v w : Nat), 0x80000 ≤ f.off → 0x80000 ≤ g.off → (t.sets [(f, v), (g, w)]).reg o = t.reg o :=
    fun t f g v w hf hg => State.reg_sets_ne _ _ fun q hq => by
      simp only [List.mem_cons, List.not_mem_nil, or_false] at hq
      obtain rfl | rfl := hq <;> dsimp only <;> omega
  have hbase : (s.sets [(Reg.ROPE_STATUS_state (2 * i), st), (Reg.ROPE_STATUS_state (2 * i + 1), st)]).reg o = s.reg o :=
    hsets _ _ _ _ _ (by simp [Reg.ROPE_STATUS_state]) (by simp [Reg.ROPE_STATUS_state])
  rw [State.setRing]
  generalize s.sets [(Reg.ROPE_STATUS_state (2 * i), st), (Reg.ROPE_STATUS_state (2 * i + 1), st)] = u at hbase
  have hopen : (if st = 3 ∨ st = 4 then u
      else u.sets [(Reg.ROPE_STATUS_bypass_open (2 * i), 0), (Reg.ROPE_STATUS_bypass_open (2 * i + 1), 0)]).reg o = s.reg o := by
    split
    · exact hbase
    · exact (hsets _ _ _ _ _ (by simp [Reg.ROPE_STATUS_bypass_open]) (by simp [Reg.ROPE_STATUS_bypass_open])).trans hbase
  split
  · exact hopen
  · exact (State.reg_raise_ne _ (by simp only [Reg.EVENT_STATUS_events]; omega)).trans hopen

theorem State.regs_endRing (s : State) (i st : Nat) : (s.endRing i st).regs = (s.setRing i st).regs := by
  rw [State.endRing]
  generalize s.setRing i st = u
  rfl

theorem State.reg_endRing_low {s : State} {o : Nat} (h : o < 0x10000) (i st : Nat) : (s.endRing i st).reg o = s.reg o := by
  rw [State.reg, State.regs_endRing]
  exact State.reg_setRing_low h i st

theorem State.reg_resetRope_low {s : State} {o : Nat} (h : o < 0x10000) : s.resetRope.reg o = s.reg o := by
  have hfold : ((List.range 3).foldl (fun s i => s.endRing i 0) s).reg o = s.reg o := foldl_reg (fun _ i => State.reg_endRing_low h i 0) _ s
  rw [State.resetRope]
  generalize (List.range 3).foldl (fun s i => s.endRing i 0) s = u at hfold
  exact hfold

theorem State.reg_fieldOff_low {s : State} {o : Nat} (h : o < 0x10000) : s.fieldOff.reg o = s.reg o := by
  have hreset := State.reg_resetRope_low (s := s) h
  rw [State.fieldOff]
  generalize s.resetRope = u at hreset
  exact hreset

/-! ### Transitions -/

theorem State.isIn_goto (s : State) (p : PState) : (s.goto p).isIn p = true := by
  have hget : (s.goto p).get Reg.PANEL_STATE_state = p.code := by
    rw [State.goto, State.get_of_reg (g := Reg.PANEL_STATE_state) (State.reg_raise_ne _ (by decide)),
      State.get_set_disjoint (f := Reg.PANEL_STATE_state_changed) (g := Reg.PANEL_STATE_state) _ _ rfl (by decide) (by decide), State.wrap,
      State.get_set_disjoint (f := Reg.PANEL_STATE_transition_count) (g := Reg.PANEL_STATE_state) _ _ rfl (by decide) (by decide),
      State.get_set_self (f := Reg.PANEL_STATE_state) _ _ (by decide)]
    cases p <;> rfl
  rw [State.isIn, State.pst, hget]
  exact beq_self_eq_true _

/-- A field of the sequencer's status through a transition. -/
theorem State.seqStatus_goto {g : RF} (hg : g.off = 0x108) (s : State) (p : PState) : (s.goto p).get g = s.get g :=
  State.get_of_reg (State.reg_goto (by rw [hg]; decide) (by rw [hg]; decide) p)

/-! ### Steps (R350-R353) -/

/-- What a step that fails leaves: the panel in STANDBY, no step running, and only a cold start to follow. -/
theorem State.failStep_leaves (s : State) (cause unit : Nat) :
    (s.failStep cause unit).isIn .standby = true ∧ (s.failStep cause unit).flag Reg.SEQ_STATUS_running = false ∧
      (s.failStep cause unit).flag Reg.SEQ_STATUS_cold_only = true := by
  rw [State.failStep]
  generalize hu : s.sets [(Reg.SEQ_RESULT_fail_cause, cause), (Reg.SEQ_RESULT_fail_step, s.seq.next), (Reg.SEQ_RESULT_fail_unit, unit),
    (Reg.SEQ_STATUS_step, s.seq.next), (Reg.SEQ_STATUS_running, 0), (Reg.SEQ_STATUS_cold_only, 1)] = u
  have hrun : u.get Reg.SEQ_STATUS_running = 0 := by
    rw [← hu]
    exact (State.get_set_disjoint (f := Reg.SEQ_STATUS_cold_only) (g := Reg.SEQ_STATUS_running) _ _ rfl (by decide) (by decide)).trans
      (State.get_set_self (f := Reg.SEQ_STATUS_running) _ 0 (by decide))
  have hcold : u.get Reg.SEQ_STATUS_cold_only = 1 := by
    rw [← hu]
    exact State.get_set_self (f := Reg.SEQ_STATUS_cold_only) _ 1 (by decide)
  generalize hv : (if s.flag Reg.SEQ_STATUS_running then
    u.sets [(Reg.SEQ_STEP_TIME_us s.seq.next, min ((u.now - u.seq.stepAt) / 1000) (2 ^ 32 - 1)), (Reg.SEQ_STEP_TIME_skipped s.seq.next, 0)] else u) = v
  have hreg : v.reg 0x108 = u.reg 0x108 := by
    rw [← hv]
    split
    · refine State.reg_sets_ne _ _ fun q hq => ?_
      simp only [List.mem_cons, List.not_mem_nil, or_false] at hq
      obtain rfl | rfl := hq <;> simp only [Reg.SEQ_STEP_TIME_us, Reg.SEQ_STEP_TIME_skipped] <;> omega
    · rfl
  have hoff : (v.modSeq fun q => { q with env := none }).fieldOff.reg 0x108 = u.reg 0x108 := (State.reg_fieldOff_low (by decide)).trans hreg
  refine ⟨State.isIn_goto _ _, ?_, ?_⟩
  · rw [State.flag, State.seqStatus_goto (g := Reg.SEQ_STATUS_running) rfl, State.get_of_reg (g := Reg.SEQ_STATUS_running) hoff, hrun]
    rfl
  · rw [State.flag, State.seqStatus_goto (g := Reg.SEQ_STATUS_cold_only) rfl, State.get_of_reg (g := Reg.SEQ_STATUS_cold_only) hoff, hcold]
    rfl

/-- The registers that a completed step leaves. -/
theorem State.stepDone_leaves (s : State) (skipped : Bool) :
    (s.stepDone skipped).flag Reg.SEQ_STATUS_running = false ∧ (s.stepDone skipped).flag Reg.SEQ_STATUS_skipped = skipped ∧
      (s.stepDone skipped).seq.next = s.seq.next + 1 ∧ (s.stepDone skipped).mem = s.mem := by
  rw [State.stepDone]
  generalize hu : s.sets [(Reg.SEQ_STATUS_running, 0), (Reg.SEQ_STATUS_step_done, 1), (Reg.SEQ_STATUS_skipped, b2n skipped),
    (Reg.SEQ_STEP_TIME_us s.seq.next, min ((s.now - s.seq.stepAt) / 1000) (2 ^ 32 - 1)), (Reg.SEQ_STEP_TIME_skipped s.seq.next, b2n skipped)] = u
  have hreg : u.reg 0x108 = (((s.set Reg.SEQ_STATUS_running 0).set Reg.SEQ_STATUS_step_done 1).set Reg.SEQ_STATUS_skipped (b2n skipped)).reg 0x108 := by
    rw [← hu]
    exact (State.reg_set_ne _ (Reg.SEQ_STEP_TIME_skipped s.seq.next) _ (by simp only [Reg.SEQ_STEP_TIME_skipped]; omega)).trans
      (State.reg_set_ne _ (Reg.SEQ_STEP_TIME_us s.seq.next) _ (by simp only [Reg.SEQ_STEP_TIME_us]; omega))
  have hseq : u.seq = s.seq := by rw [← hu, State.sets_eq]
  have hmem : u.mem = s.mem := by rw [← hu, State.sets_eq]
  have hget : ∀ g : RF, g.off = 0x108 → ((u.modSeq fun q => { q with next := q.next + 1, env := none }).raise .sequencer).get g = u.get g :=
    fun g hg => State.get_of_reg ((State.reg_raise_ne _ (by rw [hg]; decide)).trans rfl)
  refine ⟨?_, ?_, ?_, ?_⟩
  · rw [State.flag, hget Reg.SEQ_STATUS_running rfl, State.get_of_reg (g := Reg.SEQ_STATUS_running) hreg,
      State.get_set_disjoint (f := Reg.SEQ_STATUS_skipped) (g := Reg.SEQ_STATUS_running) _ _ rfl (by decide) (by decide),
      State.get_set_disjoint (f := Reg.SEQ_STATUS_step_done) (g := Reg.SEQ_STATUS_running) _ _ rfl (by decide) (by decide),
      State.get_set_self (f := Reg.SEQ_STATUS_running) _ _ (by decide)]
    rfl
  · rw [State.flag, hget Reg.SEQ_STATUS_skipped rfl, State.get_of_reg (g := Reg.SEQ_STATUS_skipped) hreg,
      State.get_set_self (f := Reg.SEQ_STATUS_skipped) _ _ (by decide)]
    cases skipped <;> rfl
  · rw [State.raise_seq]
    exact congrArg (fun q : SeqSt => q.next + 1) hseq
  · rw [State.raise_mem]
    exact hmem

/-- The state in which a step has begun, before what single steps do. -/
def State.stepBegun (s : State) (code : Nat) (env : StepEnv) : State :=
  (s.sets [(Reg.SEQ_STATUS_last_err, 0), (Reg.SEQ_STATUS_step, code), (Reg.SEQ_STATUS_running, 1)]).modSeq
    fun q => { q with stepAt := s.now, env := some env, losses := 0 }

theorem State.stepBegun_leaves {code : Nat} (hc : code < 16) (s : State) (env : StepEnv) :
    (s.stepBegun code env).flag Reg.SEQ_STATUS_running = true ∧ (s.stepBegun code env).get Reg.SEQ_STATUS_step = code ∧
      (s.stepBegun code env).get Reg.SEQ_STATUS_last_err = 0 ∧ (s.stepBegun code env).flag Reg.SEQ_STATUS_warm = s.flag Reg.SEQ_STATUS_warm ∧
      (s.stepBegun code env).flag Reg.SEQ_STATUS_partner_needed = s.flag Reg.SEQ_STATUS_partner_needed ∧
      (s.stepBegun code env).seq = { s.seq with stepAt := s.now, env := some env, losses := 0 } ∧
      (s.stepBegun code env).mem = s.mem ∧ (s.stepBegun code env).cells = s.cells := by
  have hget : ∀ g, (s.stepBegun code env).get g = (((s.set Reg.SEQ_STATUS_last_err 0).set Reg.SEQ_STATUS_step code).set Reg.SEQ_STATUS_running 1).get g :=
    fun g => rfl
  have hbeside : ∀ g : RF, g.off = 0x108 → g.lo + g.w ≤ 64 → (g.lo + g.w ≤ 0 ∨ 4 ≤ g.lo) → (g.lo + g.w ≤ 4 ∨ 5 ≤ g.lo) → (g.lo + g.w ≤ 8 ∨ 11 ≤ g.lo) →
      (s.stepBegun code env).get g = s.get g := fun g hoff h64 hstep hrun herr => by
    rw [hget, State.get_set_disjoint (f := Reg.SEQ_STATUS_running) (g := g) _ _ hoff h64 hrun,
      State.get_set_disjoint (f := Reg.SEQ_STATUS_step) (g := g) _ _ hoff h64 hstep,
      State.get_set_disjoint (f := Reg.SEQ_STATUS_last_err) (g := g) _ _ hoff h64 herr]
  refine ⟨?_, ?_, ?_, congrArg (· != 0) (hbeside Reg.SEQ_STATUS_warm rfl (by decide) (by decide) (by decide) (by decide)),
    congrArg (· != 0) (hbeside Reg.SEQ_STATUS_partner_needed rfl (by decide) (by decide) (by decide) (by decide)), rfl, rfl, rfl⟩
  · rw [State.flag, hget, State.get_set_self (f := Reg.SEQ_STATUS_running) _ _ (by decide)]
    rfl
  · rw [hget, State.get_set_disjoint (f := Reg.SEQ_STATUS_running) (g := Reg.SEQ_STATUS_step) _ _ rfl (by decide) (by decide),
      State.get_set_self (f := Reg.SEQ_STATUS_step) _ _ (by decide)]
    exact Nat.mod_eq_of_lt hc
  · rw [hget, State.get_set_disjoint (f := Reg.SEQ_STATUS_running) (g := Reg.SEQ_STATUS_last_err) _ _ rfl (by decide) (by decide),
      State.get_set_disjoint (f := Reg.SEQ_STATUS_step) (g := Reg.SEQ_STATUS_last_err) _ _ rfl (by decide) (by decide),
      State.get_set_self (f := Reg.SEQ_STATUS_last_err) _ _ (by decide)]
    exact Nat.zero_mod _

/-- What MAP_MERGE and SEAM_TRAIN do as they begin changes neither the status nor the sequencer. -/
theorem State.stepEntered {u : State} {code : Nat} :
    let v := if code = 8 ∧ !u.warm then u.modMaps fun m => { m with coldStarts := m.coldStarts + 1 } else u
    let w := if code = 4 then v.seamStart else v
    w.reg 0x108 = u.reg 0x108 ∧ w.seq = u.seq ∧ w.mem = u.mem ∧ w.cells = u.cells := by
  dsimp only
  generalize hv : (if code = 8 ∧ !u.warm then u.modMaps fun m => { m with coldStarts := m.coldStarts + 1 } else u) = v
  have hkeep : v.reg 0x108 = u.reg 0x108 ∧ v.seq = u.seq ∧ v.mem = u.mem ∧ v.cells = u.cells := by
    rw [← hv]
    split <;> exact ⟨rfl, rfl, rfl, rfl⟩
  obtain ⟨hreg, hseq, hmem, hcells⟩ := hkeep
  split
  · refine ⟨(State.reg_seamStart (by decide)).trans hreg, ?_, ?_, ?_⟩
    · rw [State.seamStart_eq]; exact hseq
    · rw [State.seamStart_eq]; exact hmem
    · rw [State.seamStart_eq]; exact hcells
  · exact ⟨hreg, hseq, hmem, hcells⟩

/-- The code that is expected begins its step. -/
theorem State.seqStep_expected {s : State} {code : Nat} {env : StepEnv} (hb : s.isIn .bringup = true) (hr : s.flag Reg.SEQ_STATUS_running = false)
    (hn : s.seq.next = code) : ∃ w : State, w.reg 0x108 = (s.stepBegun code env).reg 0x108 ∧ w.seq = (s.stepBegun code env).seq ∧
      w.mem = (s.stepBegun code env).mem ∧ w.cells = (s.stepBegun code env).cells ∧
      s.seqStep code env = if w.skips code then w.stepDone true
        else if code = 5 ∧ w.warm then
          if w.loadedSet.valid ∧ (w.loadedSet.words.find? fun p => p.1 == Reg.DRAM_CFG_rate.off).map (·.2) = some (w.get Reg.DRAM_CFG_rate) then w else w.failStep 8 0
        else w := by
  obtain ⟨hreg, hseq, hmem, hcells⟩ := State.stepEntered (u := s.stepBegun code env) (code := code)
  refine ⟨_, hreg, hseq, hmem, hcells, ?_⟩
  rw [State.seqStep, hb, hr, hn, if_neg (by decide), if_neg (by decide), if_neg (not_not_intro rfl)]
  rfl

/-- On a cold start the step that is expected begins. -/
theorem State.seqStep_begins {s : State} {code : Nat} {env : StepEnv} (hc : code < 16) (hb : s.isIn .bringup = true)
    (hr : s.flag Reg.SEQ_STATUS_running = false) (hn : s.seq.next = code) (hw : s.warm = false)
    (hp : code = 9 → s.flag Reg.SEQ_STATUS_partner_needed = true) :
    let t := s.seqStep code env
    t.flag Reg.SEQ_STATUS_running = true ∧ t.get Reg.SEQ_STATUS_step = code ∧ t.get Reg.SEQ_STATUS_last_err = 0 ∧
      t.seq = { s.seq with stepAt := s.now, env := some env, losses := 0 } ∧ t.mem = s.mem ∧ t.cells = s.cells := by
  obtain ⟨hrun, hstep, herr, hwarm, hpartner, hseq, hmem, hcells⟩ := State.stepBegun_leaves hc s env
  obtain ⟨w, hwreg, hwseq, hwmem, hwcells, ht⟩ := State.seqStep_expected (env := env) hb hr hn
  have hwcold : w.warm = false := by
    rw [State.warm, State.flag, State.get_of_reg (g := Reg.SEQ_STATUS_warm) hwreg]
    exact hwarm.trans hw
  have hskip : w.skips code = false := by
    rw [State.skips, hwcold, Bool.false_and, Bool.false_or]
    by_cases h9 : code = 9
    · have hneed : w.flag Reg.SEQ_STATUS_partner_needed = true := by
        rw [State.flag, State.get_of_reg (g := Reg.SEQ_STATUS_partner_needed) hwreg]
        exact hpartner.trans (hp h9)
      rw [hneed]
      exact Bool.and_false _
    · rw [beq_false_of_ne h9, Bool.false_and]
  dsimp only
  rw [ht, hskip, if_neg Bool.false_ne_true, hwcold, if_neg fun h => Bool.false_ne_true h.2]
  refine ⟨?_, (State.get_of_reg (g := Reg.SEQ_STATUS_step) hwreg).trans hstep, (State.get_of_reg (g := Reg.SEQ_STATUS_last_err) hwreg).trans herr,
    hwseq.trans hseq, hwmem.trans hmem, hwcells.trans hcells⟩
  rw [State.flag, State.get_of_reg (g := Reg.SEQ_STATUS_running) hwreg]
  exact hrun

/-- On a warm start BIST and PARTNER_CHECK are skipped. -/
theorem State.seqStep_skips {s : State} {code : Nat} {env : StepEnv} (hc : code = 7 ∨ code = 9) (hb : s.isIn .bringup = true)
    (hr : s.flag Reg.SEQ_STATUS_running = false) (hn : s.seq.next = code) (hw : s.warm = true) :
    let t := s.seqStep code env
    t.flag Reg.SEQ_STATUS_running = false ∧ t.flag Reg.SEQ_STATUS_skipped = true ∧ t.seq.next = code + 1 ∧ t.mem = s.mem := by
  obtain ⟨-, -, -, hwarm, -, hseq, hmem, -⟩ := State.stepBegun_leaves (code := code) (by omega) s env
  obtain ⟨w, hwreg, hwseq, hwmem, -, ht⟩ := State.seqStep_expected (env := env) hb hr hn
  have hwwarm : w.warm = true := by
    rw [State.warm, State.flag, State.get_of_reg (g := Reg.SEQ_STATUS_warm) hwreg]
    exact hwarm.trans hw
  have hskip : w.skips code = true := by
    rw [State.skips, hwwarm]
    obtain rfl | rfl := hc <;> rfl
  obtain ⟨hrun, hskipped, hnext, hdmem⟩ := State.stepDone_leaves w true
  dsimp only
  rw [ht, hskip, if_pos rfl]
  refine ⟨hrun, hskipped, ?_, hdmem.trans (hwmem.trans hmem)⟩
  rw [hnext, hwseq, hseq, ← hn]

/-- Every write of a step's code runs the same sequencer. -/
theorem exec_stepRow {v : Word64} {env : StepEnv} {s : State} {p : (Word64 → StepEnv → Instr) × Nat}
    (hp : p ∈ ([(.powerCheck, 1), (.secureBoot, 2), (.fwLoad, 3), (.seamTrain, 4), (.dramTrain, 5), (.ropeTrain, 6), (.bist, 7), (.mapMerge, 8),
      (.partnerCheck, 9), (.riggingBase, 10), (.dressRehearsal, 11), (.strikeStep, 12), (.readyStep, 13)] : List ((Word64 → StepEnv → Instr) × Nat)))
    (hv : v.toNat % 16 = p.2) (hoff : s.isIn .off = false) : p.2 < 16 ∧ exec (p.1 v env) s = .next (s.seqStep p.2 env) := by
  have hrow : exec (p.1 v env) s = seqRow p.2 v s fun s => s.seqStep p.2 env := by
    simp only [List.mem_cons, List.not_mem_nil, or_false] at hp
    obtain rfl | rfl | rfl | rfl | rfl | rfl | rfl | rfl | rfl | rfl | rfl | rfl | rfl := hp <;> rfl
  refine ⟨by omega, hrow.trans ?_⟩
  rw [seqRow, if_pos ⟨hv, by rw [hoff]; rfl⟩]

/-! ### Starts (R351, R355) -/

theorem State.dorStart_frame (s : State) (cold : Bool) : (s.dorStart cold).mem = s.mem ∧ (s.dorStart cold).cells = s.cells ∧ (s.dorStart cold).chans = s.chans := by
  have hkem : (((s.dropJobKey).modDor fun d => { d with queue := [], keys := true }).makeKem).mem = s.mem ∧
      (((s.dropJobKey).modDor fun d => { d with queue := [], keys := true }).makeKem).cells = s.cells ∧
      (((s.dropJobKey).modDor fun d => { d with queue := [], keys := true }).makeKem).chans = s.chans := by
    rw [State.makeKem, State.dropJobKey]
    exact ⟨by simp, by simp, by simp⟩
  rw [State.dorStart]
  generalize ((s.dropJobKey).modDor fun d => { d with queue := [], keys := true }).makeKem = u at hkem
  split
  · dsimp only
    rw [State.sets_eq]
    exact hkem
  · exact hkem

/-- The panel in BRINGUP, before code 1; a cold start has cleared memory, cells and channels. -/
theorem State.enterBringup_leaves (s : State) (warm : Bool) :
    ((s.enterBringup warm).set Reg.SEQ_STATUS_last_err 0).isIn .bringup = true ∧ ((s.enterBringup warm).set Reg.SEQ_STATUS_last_err 0).seq.next = 1 ∧
      ((s.enterBringup warm).set Reg.SEQ_STATUS_last_err 0).flag Reg.SEQ_STATUS_warm = warm ∧
      (warm = false → ((s.enterBringup warm).set Reg.SEQ_STATUS_last_err 0).mem.cells = [] ∧ ((s.enterBringup warm).set Reg.SEQ_STATUS_last_err 0).cells = [] ∧
        ((s.enterBringup warm).set Reg.SEQ_STATUS_last_err 0).chans = []) := by
  have hlast : ∀ u : State, u.seq.next = 1 → (warm = false → u.mem.cells = [] ∧ u.cells = [] ∧ u.chans = []) →
      (((u.set Reg.SEQ_STATUS_warm (b2n warm)).goto .bringup).set Reg.SEQ_STATUS_last_err 0).isIn .bringup = true ∧
      (((u.set Reg.SEQ_STATUS_warm (b2n warm)).goto .bringup).set Reg.SEQ_STATUS_last_err 0).seq.next = 1 ∧
      (((u.set Reg.SEQ_STATUS_warm (b2n warm)).goto .bringup).set Reg.SEQ_STATUS_last_err 0).flag Reg.SEQ_STATUS_warm = warm ∧
      (warm = false → (((u.set Reg.SEQ_STATUS_warm (b2n warm)).goto .bringup).set Reg.SEQ_STATUS_last_err 0).mem.cells = [] ∧
        (((u.set Reg.SEQ_STATUS_warm (b2n warm)).goto .bringup).set Reg.SEQ_STATUS_last_err 0).cells = [] ∧
        (((u.set Reg.SEQ_STATUS_warm (b2n warm)).goto .bringup).set Reg.SEQ_STATUS_last_err 0).chans = []) := fun u hu hcold => by
    refine ⟨(State.isIn_of_reg (State.reg_set_ne _ Reg.SEQ_STATUS_last_err _ (by decide)) _).trans (State.isIn_goto _ _), ?_, ?_, fun hw => ?_⟩
    · simp [hu]
    · rw [State.flag, State.get_set_disjoint (f := Reg.SEQ_STATUS_last_err) (g := Reg.SEQ_STATUS_warm) _ _ rfl (by decide) (by decide),
        State.seqStatus_goto (g := Reg.SEQ_STATUS_warm) rfl, State.get_set_self (f := Reg.SEQ_STATUS_warm) _ _ (by decide)]
      cases warm <;> rfl
    · simpa using hcold hw
  rw [State.enterBringup]
  dsimp only
  generalize hC : (if warm = true then _ else _ : State) = C
  have hcold : warm = false → C.mem.cells = [] ∧ C.cells = [] ∧ C.chans = [] := by
    rintro rfl
    rw [← hC, if_neg Bool.false_ne_true]
    exact ⟨rfl, rfl, rfl⟩
  clear hC
  generalize hD : (C.dorStart (!warm)).modRcv (fun r => { r with hangs := [], restarts := [] }) = D
  obtain ⟨hdmem, hdcells, hdchans⟩ := State.dorStart_frame C (!warm)
  have hDmem : D.mem = C.mem := by rw [← hD]; exact hdmem
  have hDcells : D.cells = C.cells := by rw [← hD]; exact hdcells
  have hDchans : D.chans = C.chans := by rw [← hD]; exact hdchans
  generalize hE : D.sets ((List.range 13).map fun i => (⟨(Reg.SEQ_STEP_TIME_us (i + 1)).off, 0, 64⟩, 0)) = E
  have hEmem : E.mem = D.mem := by rw [← hE, State.sets_eq]
  have hEcells : E.cells = D.cells := by rw [← hE, State.sets_eq]
  have hEchans : E.chans = D.chans := by rw [← hE, State.sets_eq]
  clear hE hD
  refine hlast _ rfl fun hw => ?_
  obtain ⟨hCmem, hCcells, hCchans⟩ := hcold hw
  refine ⟨?_, hEcells.trans (hDcells.trans hCcells), hEchans.trans (hDchans.trans hCchans)⟩
  rw [← hCmem, ← hDmem]
  exact congrArg MemSt.cells hEmem

/-! ### The contacts (R457-R459) -/

/-- What is shown of the input changes its own register and the events. -/
theorem State.showInput_leaves (s : State) : s.showInput = { s with regs := s.showInput.regs, out := s.showInput.out } ∧
    ∀ o, o ≠ 0x408 → o ≠ 0x10000 → s.showInput.reg o = s.reg o := by
  rw [State.showInput]
  generalize hu : s.sets _ = u
  have heq : u = { s with regs := u.regs } := by rw [← hu]; exact State.sets_eq s _
  have hreg : ∀ o, o ≠ 0x408 → u.reg o = s.reg o := fun o ho => by
    rw [← hu]
    refine State.reg_sets_ne _ _ fun q hq => ?_
    simp only [List.mem_cons, List.not_mem_nil, or_false] at hq
    obtain rfl | rfl | rfl | rfl := hq <;> exact ho
  split
  · refine ⟨?_, fun o ho he => (State.reg_raise_ne _ he).trans (hreg o ho)⟩
    rw [State.raise_eq]
    exact congrArg (fun t : State => { t with regs := (u.raise .power).regs, out := (u.raise .power).out }) heq
  · refine ⟨?_, fun o ho _ => hreg o ho⟩
    conv_lhs => rw [heq]
    rw [heq]

/-- The panel enters STANDBY, only a cold start to follow. -/
theorem State.standbyEntry_enters {s : State} (hoff : s.isIn .off = true) (ha : s.pins.alwaysOn = true) (ht : s.pins.testN = true) :
    ∃ t, exec .standbyEntry s = .next t ∧ t.isIn .standby = true ∧ t.now = 0 ∧ t.flag Reg.SEQ_STATUS_cold_only = true ∧
      t.pins = { s.pins with resetN := true, sampled := s.pins.straps % 8 } ∧ t.mem = s.mem ∧ t.cells = s.cells := by
  change ∃ t, execStandbyEntry s = .next t ∧ _
  rw [execStandbyEntry, if_pos ⟨hoff, ha, ht⟩]
  dsimp only
  generalize hv : State.draw (State.modPins { s with now := 0, power := .init } fun p => { p with resetN := true, sampled := p.straps % 8 }) = d
  generalize hu : d.2.sets [(Reg.PANEL_STATE_state, 1), (Reg.SEQ_STATUS_cold_only, 1), (Reg.DOR_DEBUG_challenge, d.1.toNat % 2 ^ 32)] = u
  have hreg : u.reg 0x10 = (d.2.set Reg.PANEL_STATE_state 1).reg 0x10 ∧ u.reg 0x108 = ((d.2.set Reg.PANEL_STATE_state 1).set Reg.SEQ_STATUS_cold_only 1).reg 0x108 := by
    rw [← hu]
    exact ⟨(State.reg_set_ne _ Reg.DOR_DEBUG_challenge _ (by decide)).trans (State.reg_set_ne _ Reg.SEQ_STATUS_cold_only _ (by decide)),
      State.reg_set_ne _ Reg.DOR_DEBUG_challenge _ (by decide)⟩
  have hrest : u.now = 0 ∧ u.pins = { s.pins with resetN := true, sampled := s.pins.straps % 8 } ∧ u.mem = s.mem ∧ u.cells = s.cells := by
    rw [← hu, State.sets_eq, ← hv]
    exact ⟨rfl, rfl, rfl, rfl⟩
  obtain ⟨hnow, hpins, hmem, hcells⟩ := hrest
  obtain ⟨heq, hkeep⟩ := State.showInput_leaves u
  refine ⟨u.showInput, rfl, ?_, ?_, ?_, ?_, ?_, ?_⟩
  · rw [State.isIn, State.pst, State.get_of_reg (g := Reg.PANEL_STATE_state) ((hkeep 0x10 (by decide) (by decide)).trans hreg.1),
      State.get_set_self (f := Reg.PANEL_STATE_state) _ _ (by decide)]
    rfl
  · rw [heq]
    exact hnow
  · rw [State.flag, State.get_of_reg (g := Reg.SEQ_STATUS_cold_only) ((hkeep 0x108 (by decide) (by decide)).trans hreg.2),
      State.get_set_self (f := Reg.SEQ_STATUS_cold_only) _ _ (by decide)]
    rfl
  · rw [heq]
    exact hpins
  · rw [heq]
    exact hmem
  · rw [heq]
    exact hcells

/-- A panel that has left for OFF keeps what flash and fuses hold. -/
theorem State.offState_leaves (s : State) : s.offState.isIn .off = true ∧ s.offState.pins = { s.pins with alwaysOn := false } ∧
    s.offState.mem = State.reset.mem ∧ s.offState.cairn = ⟨[], s.cairn.flash, s.cairn.next⟩ ∧ s.offState.pkg = none := by
  rw [State.offState]
  dsimp only
  generalize hu : State.sets _ [(Reg.PANEL_STATE_state, 0), (Reg.DOR_STATUS_svn_stage, _), (Reg.DOR_STATUS_svn_house, _)] = u
  have hrest : u.pins = { s.pins with alwaysOn := false } ∧ u.mem = State.reset.mem ∧ u.cairn = ⟨[], s.cairn.flash, s.cairn.next⟩ ∧ u.pkg = none := by
    rw [← hu, State.sets_eq]
    exact ⟨rfl, rfl, rfl, rfl⟩
  refine ⟨?_, hrest⟩
  have hget : u.get Reg.PANEL_STATE_state = 0 := by
    rw [← hu]
    refine (State.get_of_reg (g := Reg.PANEL_STATE_state) ((State.reg_set_ne _ Reg.DOR_STATUS_svn_house _ (by decide)).trans
      (State.reg_set_ne _ Reg.DOR_STATUS_svn_stage _ (by decide)))).trans ?_
    exact State.get_set_self (f := Reg.PANEL_STATE_state) _ 0 (by decide)
  rw [State.isIn, State.pst, hget]
  rfl

/-- Going to OFF ends in OFF. -/
theorem State.isIn_goOff (s : State) : s.goOff.isIn .off = true := by
  rw [State.goOff]
  split
  · assumption
  · exact (State.offState_leaves s).1

/-- A step under way, judged as it completes. -/
theorem exec_stepComplete {s : State} {e : StepEnv} (he : s.seq.env = some e) (hb : s.isIn .bringup = true) (hr : s.flag Reg.SEQ_STATUS_running = true) :
    exec .stepComplete s = .next
      (if s.seq.stepAt + s.stepBound s.seq.next e < s.now then s.failStep 0x0C 0
      else if e.cause ≠ 0 ∧ s.seq.next ≠ 6 ∧ s.seq.next < 12 then
        (if s.seq.next = 5 then s.set (Reg.DRAM_CH_STATUS_state (e.unit % 24)) 2 else s).failStep e.cause e.unit
      else if s.seq.next = 13 then s.readyStep e
      else match s.stepWork s.seq.next e with
        | (t, none) => t.stepDone false
        | (t, some (cause, unit)) => t.failStep cause unit) := by
  change execStepComplete s = _
  rw [execStepComplete, he]
  refine congrArg Host.Outcome.next ((if_neg ?_).trans ?_)
  · rw [hb, hr]
    decide
  · rfl

theorem exec_stepTimeout {s : State} {e : StepEnv} (he : s.seq.env = some e) (hb : s.isIn .bringup = true) (hr : s.flag Reg.SEQ_STATUS_running = true) :
    exec .stepTimeout s = .next (if s.seq.stepAt + s.stepBound s.seq.next e < s.now then s.failStep 0x0C 0 else s) := by
  change execStepTimeout s = _
  rw [execStepTimeout, he]
  exact congrArg Host.Outcome.next (if_congr ⟨fun h => h.2.2, fun h => ⟨hb, hr, h⟩⟩ rfl rfl)

/-- A START outside what forbids it. -/
theorem State.seqStart_allowed {s : State} {warm : Bool} (hb : s.isIn .bringup = false) (hrec : s.isIn .recovering = false) (hdark : s.isIn .dark = false)
    (hs : s.seq.start = none) (hd : s.flag Reg.DOR_DEBUG_unlocked = false) (hrun : s.isIn .running = false) :
    s.seqStart warm = if warm && s.flag Reg.SEQ_STATUS_cold_only then s.set Reg.SEQ_STATUS_last_err 3
      else (s.enterBringup warm).set Reg.SEQ_STATUS_last_err 0 := by
  rw [State.seqStart, hb, hrec, hdark, hs, hd, hrun]
  rfl

/-- Settles O50: starts, steps, the load recheck and the contacts take the branch that their conditions select. -/
theorem bringUp : Obligations.BringUp := by
  refine ⟨⟨fun v env s hoff p hp hv => ?_, fun v s hoff hb hrec hdark hs hd hrun => ⟨fun hv => ?_, fun hv hc => ?_, fun hv hc => ?_⟩, fun e s he hb hr =>
      ⟨fun hl => ?_, fun hl => ?_, fun hl hc h5 h6 h12 => ?_, fun hl hc h5 => ?_, fun hl hc h13 t ht => ?_, fun hl hc h13 t cause unit ht => ?_, fun hl h13 => ?_⟩,
      fun cause unit s => State.failStep_leaves s cause unit, fun s => ⟨fun hr h0 h1 hlim => ?_, fun e hr hre => ?_, fun t ht hh hdue => ?_⟩⟩,
    fun s => ⟨fun hoff hlo hhi => ?_, State.standbyEntry_enters, fun hoff => ?_, fun hoff => ?_, fun k hk hdue => ?_, fun ha => ?_⟩⟩
  · obtain ⟨hlt, hx⟩ := exec_stepRow (env := env) hp hv hoff
    rw [hx]
    refine ⟨fun hb => ?_, fun hb hr => ?_, fun hb hr hn => ?_, fun hb hr hn hw hpn => ⟨_, rfl, State.seqStep_begins hlt hb hr hn hw hpn⟩,
      fun hb hr hn hw hc => ⟨_, rfl, State.seqStep_skips hc hb hr hn hw⟩⟩
    · rw [State.seqStep, hb]
      rfl
    · rw [State.seqStep, hb, hr]
      rfl
    · rw [State.seqStep, hb, hr, if_neg (by decide), if_neg (by decide), if_pos (Ne.symm hn)]
  · obtain ⟨hin, hnext, hwarm, hcold⟩ := State.enterBringup_leaves s false
    obtain ⟨hmem, hcells, hchans⟩ := hcold rfl
    refine ⟨_, ?_, rfl, hin, hnext, hmem, hwarm, hcells, hchans⟩
    change execStartCold v s = _
    rw [execStartCold, seqRow, if_pos ⟨hv, by rw [hoff]; rfl⟩, State.seqStart_allowed hb hrec hdark hs hd hrun]
    rfl
  · change execStartWarm v s = _
    rw [execStartWarm, seqRow, if_pos ⟨hv, by rw [hoff]; rfl⟩, State.seqStart_allowed hb hrec hdark hs hd hrun, hc]
    rfl
  · obtain ⟨hin, hnext, hwarm, -⟩ := State.enterBringup_leaves s true
    refine ⟨_, ?_, rfl, hin, hnext, hwarm⟩
    change execStartWarm v s = _
    rw [execStartWarm, seqRow, if_pos ⟨hv, by rw [hoff]; rfl⟩, State.seqStart_allowed hb hrec hdark hs hd hrun, hc]
    rfl
  · rw [exec_stepTimeout he hb hr, exec_stepComplete he hb hr, if_pos hl, if_pos hl]
    exact ⟨rfl, rfl⟩
  · rw [exec_stepTimeout he hb hr, if_neg hl]
  · rw [exec_stepComplete he hb hr, if_neg hl, if_pos ⟨hc, h6, h12⟩, if_neg h5]
  · rw [exec_stepComplete he hb hr, if_neg hl, if_pos ⟨hc, by omega, by omega⟩, if_pos h5]
  · rw [exec_stepComplete he hb hr, if_neg hl, if_neg (by omega), if_neg h13, ht]
  · rw [exec_stepComplete he hb hr, if_neg hl, if_neg (by omega), if_neg h13, ht]
  · rw [exec_stepComplete he hb hr, if_neg hl, if_neg (by omega), if_pos h13]
  · have hor : (s.isIn .ready || s.isIn .running) = true := by simpa using hr
    change execLoadRecheck s = _
    rw [execLoadRecheck, hor, h0, h1, decide_eq_true hlim]
    rfl
  · have hor : (s.isIn .ready || s.isIn .running) = true := by simpa using hr
    change ∃ t, execLoadRecheckDone e s = .next t ∧ _
    rw [execLoadRecheckDone, hor, hre]
    refine ⟨_, rfl, rfl, rfl, rfl, fun hbad => ?_⟩
    dsimp only
    rw [hbad]
    rfl
  · change execPowerBandLight s = _
    rw [execPowerBandLight, ht]
    exact congrArg Host.Outcome.next (if_pos ⟨hh, hdue⟩)
  · exact congrArg Host.Outcome.next (if_pos ⟨hoff, hlo, hhi⟩)
  · obtain ⟨hin, hpins, hmem, hcairn, hpkg⟩ := State.offState_leaves s
    have hgo : s.goOff = s.offState := if_neg (ne_true_of_eq_false hoff)
    refine ⟨_, rfl, State.isIn_goOff s, rfl, rfl, ?_, ?_, ?_, ?_⟩
    · exact (congrArg State.mem hgo).trans hmem
    · exact congrArg CairnSt.staging ((congrArg State.cairn hgo).trans hcairn)
    · exact (congrArg CairnSt.flash ((congrArg State.cairn hgo).trans hcairn)).trans rfl
    · exact (congrArg State.pkg hgo).trans hpkg
  · obtain ⟨hin, hpins, hmem, hcairn, hpkg⟩ := State.offState_leaves s
    have hgo : s.goOff = s.offState := if_neg (ne_true_of_eq_false hoff)
    refine ⟨_, rfl, State.isIn_goOff s, rfl, rfl, ?_, ?_, ?_⟩
    · exact (congrArg State.mem hgo).trans hmem
    · exact (congrArg CairnSt.flash ((congrArg State.cairn hgo).trans hcairn)).trans rfl
    · exact (congrArg State.pkg hgo).trans hpkg
  · change ∃ t, execPowerLoss s = .next t ∧ _
    rw [execPowerLoss, hk]
    exact ⟨_, congrArg Host.Outcome.next (if_pos (Or.inl hdue)), State.isIn_goOff s, rfl⟩
  · exact congrArg Host.Outcome.next (if_pos ha)

end Sys2Proof.Machine
end

section
/-! PROOFS. Rope frames (O51). -/

namespace Sys2Proof.Machine
open Sys2Proof.Says

/-! ### Rope ports and rings -/

theorem rport_modPortR_self (s : State) (p : Nat) (f : RopePortSt → RopePortSt) : (s.modPortR p f).rport p = f (s.rport p) :=
  SMap.getD_put_self ..

theorem rport_modPortR_ne (s : State) {p q : Nat} (h : q ≠ p) (f : RopePortSt → RopePortSt) : (s.modPortR p f).rport q = s.rport q :=
  SMap.getD_put_ne _ _ _ h

theorem rring_modRingR_self (s : State) (i : Nat) (f : RopeRingSt → RopeRingSt) : (s.modRingR i f).rring i = f (s.rring i) :=
  SMap.getD_put_self ..

theorem rport_of_rope {s u : State} (h : u.rope = s.rope) (p : Nat) : u.rport p = s.rport p := congrArg (fun r : RopeSt => SMap.getD r.ports p .init) h

/-- What a port sends and what is acknowledged to it leave the number it expects. -/
theorem ropePump_expect (p n : Nat) (s : State) : ((s.ropePump p n).rport p).expect = (s.rport p).expect := by
  induction n generalizing s with
  | zero => rfl
  | succ n ih =>
    rw [State.ropePump]
    split
    · rfl
    · split
      · rw [ih, rport_of_rope (State.emit_rope _ _), rport_modPortR_self]
      · rfl

theorem ropeCtrl_expect (s : State) (p : Nat) (nak : Bool) : ((s.ropeCtrl p nak).rport p).expect = (s.rport p).expect := by
  rw [State.ropeCtrl, State.ropeCtrlWith, rport_of_rope (State.emit_rope _ _), rport_modPortR_self]

theorem ropeAcked_expect (s : State) (p : Nat) (f : RopeFrame) : ((s.ropeAcked p f).rport p).expect = (s.rport p).expect := by
  have hif (c : Prop) [Decidable c] (u : State) (g : RopePortSt → RopePortSt) (hg : ∀ x, (g x).expect = x.expect) :
      ((if c then u.modPortR p g else u).rport p).expect = (u.rport p).expect := by
    by_cases hc : c
    · rw [if_pos hc, rport_modPortR_self, hg]
    · rw [if_neg hc]
  rw [State.ropeAcked, ropePump_expect, hif, hif]
  · exact fun _ => rfl
  · exact fun _ => rfl

theorem ropeReceive_accepts {p : Nat} {f : RopeFrame} {s : State} (hfec : f.fec = 0) (htag : f.tagOk = true) (hseq : fSeq f = (s.rport p).expect) :
    (s.ropeReceive p f true).1 = true ∧ ((s.ropeReceive p f true).2.rport p).expect = ((s.rport p).expect + 1) % 2 ^ 16 := by
  rw [State.ropeReceive, if_neg (not_not_intro hfec), if_neg (by rw [htag]; decide), if_neg (not_not_intro hseq)]
  refine ⟨rfl, ?_⟩
  dsimp only
  split
  · rw [ropeCtrl_expect, rport_of_rope (State.request_rope ..), ropeAcked_expect, rport_modPortR_self]
  · rw [rport_of_rope (State.request_rope ..), ropeAcked_expect, rport_modPortR_self]

theorem ropeReceive_fec {p : Nat} {f : RopeFrame} {s : State} {tagged : Bool} (h : f.fec ≠ 0) :
    s.ropeReceive p f tagged = (false, (s.inc (Reg.ROPE_COUNTS_fec_uncorrected p) f.fec).ropeNak p) := by
  rw [State.ropeReceive, if_pos h]

theorem ropeReceive_tag {p : Nat} {f : RopeFrame} {s : State} (hfec : f.fec = 0) (htag : f.tagOk = false) :
    s.ropeReceive p f true = (false, (s.tagFail p).ropeNak p) := by
  rw [State.ropeReceive, if_neg (not_not_intro hfec), if_pos (by rw [htag]; decide)]

theorem ropeReceive_seq {p : Nat} {f : RopeFrame} {s : State} (hfec : f.fec = 0) (htag : f.tagOk = true) (hseq : fSeq f ≠ (s.rport p).expect) :
    s.ropeReceive p f true = (false, s.ropeNak p) := by
  rw [State.ropeReceive, if_neg (not_not_intro hfec), if_neg (by rw [htag]; decide), if_pos hseq]

/-! ### Frames by type -/

section Frames
variable {p : Nat} {f : RopeFrame} {s : State}

theorem exec_streamFrame (hp : p < 6) (hup : s.portUp p = true) (ht : fType f = 1) (dram : List DramErr) :
    ((s.ropeReceive p f true).1 = false → exec (.streamFrame p ⟨f, dram⟩) s = .next (s.ropeReceive p f true).2) ∧
    ((s.ropeReceive p f true).1 = true → (s.ropeReceive p f true).2.ownRank (fDst f) = false →
      exec (.streamFrame p ⟨f, dram⟩) s = .next ((s.ropeReceive p f true).2.ropeForward p f)) ∧
    ((s.ropeReceive p f true).1 = true → (s.ropeReceive p f true).2.ownRank (fDst f) = true →
      (∀ base len, SMap.get? (s.ropeReceive p f true).2.rope.landings (fStream f) = some (base, len) → 32 * fOffset f + f.payload.length ≤ len →
        exec (.streamFrame p ⟨f, dram⟩) s = .next (((s.ropeReceive p f true).2.request 0 2 0 f.payload.length).writeGrans
          (base + 32 * fOffset f) (fGrans f) dram)) ∧
      (SMap.get? (s.ropeReceive p f true).2.rope.landings (fStream f) = none →
        exec (.streamFrame p ⟨f, dram⟩) s = .next ((s.ropeReceive p f true).2.inc (Reg.ROPE_COUNTS_landing_drop_count p)))) := by
  change (_ → execStreamFrame p ⟨f, dram⟩ s = _) ∧ (_ → _ → execStreamFrame p ⟨f, dram⟩ s = _) ∧
    (_ → _ → (∀ base len, _ → _ → execStreamFrame p ⟨f, dram⟩ s = _) ∧ (_ → execStreamFrame p ⟨f, dram⟩ s = _))
  rw [execStreamFrame, decide_eq_true hp, onUnit_true, if_pos ⟨ht, hup⟩]
  generalize s.ropeReceive p f true = r
  dsimp only
  refine ⟨fun hr => ?_, fun hr hown => ?_, fun hr hown => ⟨fun base len hl hfit => ?_, fun hl => ?_⟩⟩
  · rw [hr]
    rfl
  · rw [hr, hown]
    rfl
  · rw [hr, hown, hl]
    exact congrArg Host.Outcome.next (if_pos hfit)
  · rw [hr, hown, hl]
    rfl

theorem exec_partialFrame (hp : p < 6) (hup : s.portUp p = true) (ht : fType f = 2) (hr : (s.ropeReceive p f true).1 = true) (dram : List DramErr)
    {t : Team} (hteam : (s.ropeReceive p f true).2.rope.team = some t) :
    (t.rank ≠ fDst f → exec (.partialFrame p ⟨f, dram⟩) s = .next ((s.ropeReceive p f true).2.ropeForward p f)) ∧
    (t.rank = fDst f → ∀ x, t.shardOf (fStream f) = some x → exec (.partialFrame p ⟨f, dram⟩) s =
      .next (if bitAt (fFlags f) 2 then (s.ropeReceive p f true).2.contribute t x (fStep f) (some (fSrc f)) 0 0 0 0 [] dram
        else (s.ropeReceive p f true).2.contribute t x (fStep f) (some (fSrc f)) 0 (fCount f) (32 * fOffset f) x.bytes (fGrans f) dram)) ∧
    (t.rank = fDst f → t.shardOf (fStream f) = none →
      exec (.partialFrame p ⟨f, dram⟩) s = .next ((s.ropeReceive p f true).2.inc Reg.ROPE_RED_COUNTS_late_in)) := by
  change (_ → execPartialFrame p ⟨f, dram⟩ s = _) ∧ (_ → ∀ x, _ → execPartialFrame p ⟨f, dram⟩ s = _) ∧
    (_ → _ → execPartialFrame p ⟨f, dram⟩ s = _)
  rw [execPartialFrame, decide_eq_true hp, onUnit_true, if_pos ⟨ht, hup⟩]
  generalize s.ropeReceive p f true = r at hr hteam ⊢
  dsimp only
  rw [hr, Bool.not_true, if_neg Bool.false_ne_true, hteam]
  refine ⟨fun hd => congrArg Host.Outcome.next (if_pos hd), fun hd x hx => ?_, fun hd hx => ?_⟩
  · dsimp only
    rw [if_neg (not_not_intro hd), hx]
  · dsimp only
    rw [if_neg (not_not_intro hd), hx]

theorem exec_paramFrame (hp : p < 6) (hup : s.portUp p = true) (ht : fType f = 3) (hr : (s.ropeReceive p f true).1 = true) (dram : List DramErr)
    {t : Team} (hteam : (s.ropeReceive p f true).2.rope.team = some t) (hd : t.rank = fDst f) {x : Shard} (hx : t.shardOf (fStream f) = some x)
    (hstep : ((s.ropeReceive p f true).2.redStep x.shard (fStep f)).isSome = true) (ho : fOffset f ≠ 0) :
    exec (.paramFrame p ⟨f, dram⟩) s =
      .next ((s.ropeReceive p f true).2.params t x (fStep f) (32 * fOffset f) (bitAt (fFlags f) 0) (fGrans f) dram) := by
  change execParamFrame p ⟨f, dram⟩ s = _
  rw [execParamFrame, decide_eq_true hp, onUnit_true, if_pos ⟨ht, hup⟩]
  generalize s.ropeReceive p f true = r at hr hteam hstep ⊢
  have hnone : ((r.2.redStep x.shard (fStep f)).isNone = true) = False := by
    rw [← Option.not_isSome, hstep]
    exact eq_false Bool.false_ne_true
  dsimp only
  rw [hr, Bool.not_true, if_neg Bool.false_ne_true, hteam]
  dsimp only
  rw [if_neg (not_not_intro hd), hx]
  dsimp only
  rw [if_neg (of_eq_false hnone), if_neg ho]

theorem exec_ctrlFrame (hp : p < 6) (ht : fType f = 4) (hopen : s.sessionOpen p = true) (hfec : f.fec = 0) :
    (f.tagOk = false → exec (.ctrlFrame p f) s = .next (s.tagFail p)) ∧
    (f.tagOk = true → f.payload.length < 32 → bitAt (fFlags f) 3 = false → exec (.ctrlFrame p f) s = .next (s.ropeAcked p f)) := by
  have hin : ¬ (fType f ≠ 4 ∨ (!(s.sessionOpen p || s.ringSt (p / 2) == 5)) = true) := by
    rw [hopen, ht, Bool.true_or]
    decide
  change (_ → execCtrlFrame p f s = _) ∧ (_ → _ → _ → execCtrlFrame p f s = _)
  rw [execCtrlFrame, decide_eq_true hp, onUnit_true, if_neg hin, if_neg (not_not_intro hfec)]
  refine ⟨fun htag => ?_, fun htag hlen hnak => ?_⟩
  · rw [htag]
    rfl
  · rw [htag, hnak]
    exact congrArg Host.Outcome.next (if_pos hlen)

/-- A piece of a HELLO at a stage-left port, once it is accepted. -/
theorem exec_ropeHelloFrame (hp : p < 6) (ht : fType f = 5) (hopen : s.sessionOpen p = true) (hleft : p % 2 = 0)
    (hr : (s.ropeReceive p f false).1 = true) {q : Option (List Byte) × State}
    (hq : (s.ropeReceive p f false).2.collect p (helloLen + sigLen) f = q) :
    (∀ m, q.1 = some m → exec (.ropeHelloFrame p f) s = .next (q.2.answerHello p m)) ∧
      (q.1 = none → exec (.ropeHelloFrame p f) s = .next q.2) := by
  change (∀ m, _ → execRopeHelloFrame p f s = _) ∧ (_ → execRopeHelloFrame p f s = _)
  rw [execRopeHelloFrame, decide_eq_true hp, onUnit_true, if_pos ⟨ht, hopen⟩]
  dsimp only
  rw [hr, Bool.not_true, if_neg Bool.false_ne_true, hq]
  refine ⟨fun m hm => ?_, fun hm => ?_⟩
  · rw [hm]
    exact congrArg Host.Outcome.next (if_pos hleft)
  · rw [hm]

/-- A piece of a SESSION at a stage-right port, once it is accepted. -/
theorem exec_sessionFrame (hp : p < 6) (ht : fType f = 6) (hopen : s.sessionOpen p = true) (hright : p % 2 = 1)
    (hr : (s.ropeReceive p f false).1 = true) {q : Option (List Byte) × State}
    (hq : (s.ropeReceive p f false).2.collect p (sessionLen + sigLen) f = q) :
    (∀ m, q.1 = some m → exec (.sessionFrame p f) s = .next (q.2.takeSession p m)) ∧
      (q.1 = none → exec (.sessionFrame p f) s = .next q.2) := by
  have hleft : ¬ p % 2 = 0 := by omega
  change (∀ m, _ → execSessionFrame p f s = _) ∧ (_ → execSessionFrame p f s = _)
  rw [execSessionFrame, decide_eq_true hp, onUnit_true, if_pos ⟨ht, hopen⟩]
  dsimp only
  rw [hr, Bool.not_true, if_neg Bool.false_ne_true, if_neg hleft, hq]
  refine ⟨fun m hm => ?_, fun hm => ?_⟩
  · rw [hm]
    exact congrArg Host.Outcome.next (if_neg hleft)
  · rw [hm]

end Frames

/-! ### Timers of a port -/

section Timers
variable {p : Nat} {s : State}

theorem exec_ropeAckTimer (hp : p < 6) (h : (s.rport p).accepted ≠ 0) (hat : (s.rport p).ackAt + 2000 ≤ s.now) :
    exec (.ropeAckTimer p) s = .next (s.ropeCtrl p false) := by
  change execRopeAckTimer p s = _
  rw [execRopeAckTimer, decide_eq_true hp, onUnit_true]
  dsimp only
  rw [bne_iff_ne.2 h, decide_eq_true hat, Bool.and_self, when_true]

theorem exec_ropeReplayTimeout (hp : p < 6) (h : (s.rport p).unacked ≠ []) (htr : (s.rport p).trained = true)
    (hat : (s.rport p).progressAt + 10000 ≤ s.now) : exec (.ropeReplayTimeout p) s = .next (s.ropeReplay p) := by
  change execRopeReplayTimeout p s = _
  rw [execRopeReplayTimeout, decide_eq_true hp, onUnit_true]
  dsimp only
  rw [List.isEmpty_eq_false_iff.2 h, htr, decide_eq_true hat, Bool.not_false, Bool.and_self, Bool.and_self, when_true]

theorem exec_reassemblyTimeout (hp : p < 6) {ty n t : Nat} {bs : List Byte} (h : (s.rport p).part = some (ty, n, bs, t))
    (hat : t + 100000000 ≤ s.now) : exec (.reassemblyTimeout p) s = .next (s.dropPart p) := by
  change execReassemblyTimeout p s = _
  rw [execReassemblyTimeout, decide_eq_true hp, onUnit_true, h]
  dsimp only
  rw [decide_eq_true hat, when_true]

end Timers

end Sys2Proof.Machine

namespace Sys2Proof
open Machine

/-- Settles O51: a frame is accepted exactly when its codewords, its tag and its number pass, and what is sent meanwhile leaves the
number expected next. -/
theorem ropeFrames : Obligations.RopeFrames := by
  unfold Obligations.RopeFrames
  refine ⟨fun p f s => ⟨ropeReceive_fec, ropeReceive_tag, ropeReceive_seq, rfl, ropeReceive_accepts⟩, fun p f dram s hp hup => ?_,
    fun p f s hp => ⟨?_, ?_, ?_⟩, fun p s hp => ⟨exec_ropeAckTimer hp, exec_ropeReplayTimeout hp, fun _ _ _ _ => exec_reassemblyTimeout hp⟩⟩
  · exact ⟨fun ht => exec_streamFrame hp hup ht dram, fun ht hr t hteam => exec_partialFrame hp hup ht hr dram hteam,
      fun ht hr t x hteam hd hx hstep ho => exec_paramFrame hp hup ht hr dram hteam hd hx hstep ho⟩
  · exact fun ht hopen hfec => exec_ctrlFrame hp ht hopen hfec
  · intro ht hopen hleft r q hr
    have hexec := exec_ropeHelloFrame hp ht hopen hleft hr (q := q) rfl
    clear_value q
    obtain ⟨m | m, u⟩ := q
    · exact hexec.2 rfl
    · exact hexec.1 m rfl
  · intro ht hopen hright r q hr
    have hexec := exec_sessionFrame hp ht hopen hright hr (q := q) rfl
    clear_value q
    obtain ⟨m | m, u⟩ := q
    · exact hexec.2 rfl
    · exact hexec.1 m rfl

end Sys2Proof
end

section
/-! PROOFS. Rope rings, lanes and ROPE_CONFIG (O52). -/

namespace Sys2Proof.Machine
open Sys2Proof.Says

/-! ### The state of a ring -/

section SetRing
variable (s : State) (i st : Nat)

/-- Setting a ring's state changes registers and raises the rope event; it changes nothing else. -/
theorem State.setRing_eq : s.setRing i st = { s with regs := (s.setRing i st).regs, out := (s.setRing i st).out } := by
  have hopen : ∀ u : State, u = { s with regs := u.regs, out := u.out } →
      ∀ fs, u.sets fs = { s with regs := (u.sets fs).regs, out := (u.sets fs).out } := by
    intro u hu fs
    rw [State.sets_eq, hu]
  have hraise : ∀ u : State, u = { s with regs := u.regs, out := u.out } →
      u.raise .rope = { s with regs := (u.raise .rope).regs, out := (u.raise .rope).out } := by
    intro u hu
    rw [State.raise_eq, hu]
  have h0 := hopen s rfl [(Reg.ROPE_STATUS_state (2 * i), st), (Reg.ROPE_STATUS_state (2 * i + 1), st)]
  rw [State.setRing]
  generalize s.sets [(Reg.ROPE_STATUS_state (2 * i), st), (Reg.ROPE_STATUS_state (2 * i + 1), st)] = u at h0
  split
  · split
    · exact h0
    · exact hopen u h0 _
  · split
    · exact hraise u h0
    · exact hraise _ (hopen u h0 _)

theorem State.setRing_rope : (s.setRing i st).rope = s.rope := by rw [State.setRing_eq]
theorem State.setRing_mem : (s.setRing i st).mem = s.mem := by rw [State.setRing_eq]
theorem State.setRing_cells : (s.setRing i st).cells = s.cells := by rw [State.setRing_eq]

end SetRing

/-- The rope event leaves the registers of the ports. -/
theorem State.get_raise_port (s : State) {f : RF} (h : 0x80000 ≤ f.off) (e : Ev) : (s.raise e).get f = s.get f :=
  State.get_of_reg (State.reg_raise_ne _ (by simp only [Reg.EVENT_STATUS_events]; omega))

theorem State.get_sets_two (s : State) (f g : RF) (v w : Nat) : s.sets [(f, v), (g, w)] = (s.set f v).set g w := rfl

theorem State.ringSt_setRing (s : State) (i : Nat) {st : Nat} (h : st < 8) : (s.setRing i st).ringSt i = st := by
  have h0 : (s.sets [(Reg.ROPE_STATUS_state (2 * i), st), (Reg.ROPE_STATUS_state (2 * i + 1), st)]).get (Reg.ROPE_STATUS_state (2 * i)) = st := by
    rw [State.get_sets_two, State.get_set_ne (f := Reg.ROPE_STATUS_state (2 * i + 1)) (g := Reg.ROPE_STATUS_state (2 * i)) _ _
      (by simp only [Reg.ROPE_STATUS_state]; omega), State.get_set_self _ _ _ (by simp [Reg.ROPE_STATUS_state])]
    exact Nat.mod_eq_of_lt h
  have hopen : ∀ u : State, (u.sets [(Reg.ROPE_STATUS_bypass_open (2 * i), 0), (Reg.ROPE_STATUS_bypass_open (2 * i + 1), 0)]).get
      (Reg.ROPE_STATUS_state (2 * i)) = u.get (Reg.ROPE_STATUS_state (2 * i)) := fun u => by
    rw [State.get_sets_two, State.get_set_ne (f := Reg.ROPE_STATUS_bypass_open (2 * i + 1)) (g := Reg.ROPE_STATUS_state (2 * i)) _ _
        (by simp only [Reg.ROPE_STATUS_state, Reg.ROPE_STATUS_bypass_open]; omega),
      State.get_set_disjoint (f := Reg.ROPE_STATUS_bypass_open (2 * i)) (g := Reg.ROPE_STATUS_state (2 * i)) _ _ rfl
        (by simp [Reg.ROPE_STATUS_state]) (.inl (by simp [Reg.ROPE_STATUS_state, Reg.ROPE_STATUS_bypass_open]))]
  rw [State.ringSt, State.setRing]
  generalize s.sets [(Reg.ROPE_STATUS_state (2 * i), st), (Reg.ROPE_STATUS_state (2 * i + 1), st)] = u at h0
  have hclosed : (if st = 3 ∨ st = 4 then u else u.sets [(Reg.ROPE_STATUS_bypass_open (2 * i), 0), (Reg.ROPE_STATUS_bypass_open (2 * i + 1), 0)]).get
      (Reg.ROPE_STATUS_state (2 * i)) = st := by
    split
    · exact h0
    · exact (hopen u).trans h0
  split
  · exact hclosed
  · exact (State.get_raise_port _ (by simp [Reg.ROPE_STATUS_state]) _).trans hclosed

/-- A ring that comes UP keeps its bypass as it is. -/
theorem State.bypass_setRing_up (s : State) (i p : Nat) : (s.setRing i 4).get (Reg.ROPE_STATUS_bypass_open p) = s.get (Reg.ROPE_STATUS_bypass_open p) := by
  have hset : ∀ (u : State) (q v : Nat), (u.set (Reg.ROPE_STATUS_state q) v).get (Reg.ROPE_STATUS_bypass_open p) = u.get (Reg.ROPE_STATUS_bypass_open p) := by
    intro u q v
    by_cases h : q = p
    · rw [h, State.get_set_disjoint (f := Reg.ROPE_STATUS_state p) (g := Reg.ROPE_STATUS_bypass_open p) _ _ rfl
        (by simp [Reg.ROPE_STATUS_bypass_open]) (.inr (by simp [Reg.ROPE_STATUS_state, Reg.ROPE_STATUS_bypass_open]))]
    · exact State.get_set_ne (f := Reg.ROPE_STATUS_state q) (g := Reg.ROPE_STATUS_bypass_open p) _ _
        (by simp only [Reg.ROPE_STATUS_state, Reg.ROPE_STATUS_bypass_open]; omega)
  rw [State.setRing, State.get_sets_two, if_pos (Or.inr rfl)]
  split
  · rw [hset, hset]
  · rw [State.get_raise_port _ (by simp [Reg.ROPE_STATUS_bypass_open]), hset, hset]

/-! ### Ports and rings -/

section Port
variable {p : Nat} {s : State}

theorem exec_fecThreshold {l : Nat} (hp : p < 6) (hl : l < 16) (hup : s.portUp p = true) (hok : s.spareOk p l = true) :
    exec (.fecThreshold p l) s = .next (s.askSpare p l 1) := by
  change execFecThreshold p l s = _
  rw [execFecThreshold, decide_eq_true (And.intro hp hl), onUnit_true, hup, hok, Bool.and_self, when_true]

theorem exec_spareSwap {l y : Nat} (hp : p < 6) (hl : l < 16) (hup : s.portUp p = true) (hy : ((s.rport p).lanes.find? fun z => z % 32 == l) = some y) :
    exec (.spareSwap p l) s = .next ((s.modPortR p fun z => { z with lanes := z.lanes.erase y }).spareLane p l (if y / 32 = 2 then 2 else 1)
      (s.sparedCount p + 1)) := by
  change execSpareSwap p l s = _
  rw [execSpareSwap, decide_eq_true (And.intro hp hl), onUnit_true, hy]
  dsimp only
  rw [hup, when_true]

theorem exec_ropeHelloRetry (hp : p < 6) (hright : p % 2 = 1) (hst : s.ringSt (p / 2) = 2) (hexp : bitAt (s.rring (p / 2)).expected 1 = true)
    (hses : bitAt (s.rring (p / 2)).session 1 = false) (hat : (s.rport p).sessionAt + 100000000 ≤ s.now) :
    exec (.ropeHelloRetry p) s = .next (s.sendHello p 5) := by
  change execRopeHelloRetry p s = _
  rw [execRopeHelloRetry, decide_eq_true hp, onUnit_true]
  dsimp only
  rw [beq_iff_eq.2 hright, beq_iff_eq.2 hst, hexp, hses, decide_eq_true hat, Bool.not_false, Bool.and_self, Bool.and_self, Bool.and_self,
    Bool.and_self, when_true]

theorem exec_ropeRekey (hp : p < 6) (hright : p % 2 = 1) (hup : s.portUp p = true) (hses : bitAt (s.rring (p / 2)).session 1 = true)
    (hdue : (s.rport p).sessionAt + 3600000000000 ≤ s.now ∨ 2 ^ 40 ≤ (s.rport p).frames) :
    exec (.ropeRekey p) s = .next (s.sendHello p 6) := by
  have hdue : (decide ((s.rport p).sessionAt + 3600000000000 ≤ s.now) || decide (2 ^ 40 ≤ (s.rport p).frames)) = true := by
    rw [← Bool.decide_or]
    exact decide_eq_true hdue
  change execRopeRekey p s = _
  rw [execRopeRekey, decide_eq_true hp, onUnit_true]
  dsimp only
  rw [beq_iff_eq.2 hright, hup, hses, hdue, Bool.and_self, Bool.and_self, Bool.and_self, when_true]

theorem exec_ropeTrainingDone_spares (hp : p < 6) (bad : List Nat) (htr : (s.rport p).trained = false) (hst : s.ringSt (p / 2) = 1)
    (hexp : bitAt (s.rring (p / 2)).expected (p % 2) = true) :
    exec (.ropeTrainingDone p true bad) s = .next ((s.modPortR p fun y => { y with trained := true }).ringOn (p / 2)) ∧
      exec (.ropeTrainingDone p false bad) s = .next (s.ringDown (p / 2)) := by
  change execRopeTrainingDone p true bad s = _ ∧ execRopeTrainingDone p false bad s = _
  rw [execRopeTrainingDone, execRopeTrainingDone, decide_eq_true hp, onUnit_true, onUnit_true]
  dsimp only
  rw [htr, if_neg Bool.false_ne_true, if_pos hst, hexp, Bool.not_true, if_neg Bool.false_ne_true, if_pos rfl, if_neg Bool.false_ne_true,
    if_pos hst, if_neg Bool.false_ne_true, if_neg Bool.false_ne_true]
  exact ⟨rfl, rfl⟩

theorem exec_ropeTrainingDone_opening (hp : p < 6) (bad : List Nat) (htr : (s.rport p).trained = false) (hst : s.ringSt (p / 2) = 3)
    (hopen : s.flag (Reg.ROPE_STATUS_bypass_open p) = true) (hexp : bitAt (s.rring (p / 2)).expected (p % 2) = true) :
    exec (.ropeTrainingDone p true bad) s = .next ((s.trainLanes p bad).ringUp (p / 2)) ∧
      exec (.ropeTrainingDone p false bad) s = .next (s.ringDown (p / 2)) := by
  have hne : ¬ s.ringSt (p / 2) = 1 := by omega
  change execRopeTrainingDone p true bad s = _ ∧ execRopeTrainingDone p false bad s = _
  rw [execRopeTrainingDone, execRopeTrainingDone, decide_eq_true hp, onUnit_true, onUnit_true]
  dsimp only
  rw [htr, if_neg Bool.false_ne_true, if_neg hne, if_pos ⟨hst, hopen⟩, hexp, Bool.not_true, if_neg Bool.false_ne_true, if_neg Bool.false_ne_true,
    if_neg Bool.false_ne_true, if_neg hne, if_pos ⟨hst, hopen⟩, if_neg Bool.false_ne_true]
  exact ⟨rfl, rfl⟩

/-- The other side of a ring's sessions stays when this side's link is lost. -/
theorem bitAt_session_lost (x p : Nat) : bitAt (x &&& (3 - 2 ^ (p % 2))) (p % 2) = false := by
  have hbit : (3 - 2 ^ (p % 2)).testBit (p % 2) = false := by
    obtain h | h := Nat.mod_two_eq_zero_or_one p
    · rw [h]
      rfl
    · rw [h]
      rfl
  rw [bitAt, Nat.testBit_land, hbit, Bool.and_false]

theorem rport_ringCounted (s : State) (f : RF) (i : Nat) (g : RopeRingSt → RopeRingSt) (q : Nat) : ((s.inc f).modRingR i g).rport q = s.rport q := rfl

theorem exec_ropeLinkLost (hp : p < 6) (hup : s.portUp p = true) : exec (.ropeLinkLost p) s =
    .next (((s.modPortR p fun x => { RopePortSt.init with lanes := x.lanes, msgNo := x.msgNo }).inc (Reg.ROPE_STATUS_retrain_count p)).modRingR (p / 2)
      fun r => { r with session := r.session &&& (3 - 2 ^ (p % 2)) }) := by
  change execRopeLinkLost p s = _
  rw [execRopeLinkLost, decide_eq_true hp, onUnit_true, hup, when_true]

end Port

section Ring
variable {i : Nat} {s : State}

theorem exec_bypassOpen (hi : i < 3) (hst : s.ringSt i = 3) (hclosed : s.flag (Reg.ROPE_STATUS_bypass_open (2 * i)) = false)
    (hat : (s.rring i).breakAt ≤ s.now) : exec (.bypassOpen i) s =
      .next ((((s.sets [(Reg.ROPE_STATUS_bypass_open (2 * i), 1), (Reg.ROPE_STATUS_bypass_open (2 * i + 1), 1)]).modPortR (2 * i)
        fun x => { x with trained := false }).modPortR (2 * i + 1) fun x => { x with trained := false }).ringUp i) := by
  change execBypassOpen i s = _
  rw [execBypassOpen, decide_eq_true hi, onUnit_true, beq_iff_eq.2 hst, hclosed, decide_eq_true hat, Bool.not_false, Bool.and_self, Bool.and_self, when_true]

/-- A ring that opens comes UP, or stays as it is; its ports, its bypass and memory stay. -/
theorem State.ringUp_leaves (s : State) (i : Nat) : (s.ringUp i).rope = s.rope ∧ (s.ringUp i).mem = s.mem ∧
    ∀ p, (s.ringUp i).flag (Reg.ROPE_STATUS_bypass_open p) = s.flag (Reg.ROPE_STATUS_bypass_open p) := by
  rw [State.ringUp]
  split
  · exact ⟨State.setRing_rope .., State.setRing_mem .., fun p => congrArg (· != 0) (State.bypass_setRing_up s i p)⟩
  · exact ⟨rfl, rfl, fun _ => rfl⟩

theorem exec_ropeDisableDrainEnd (hi : i < 3) (hst : s.ringSt i = 5) (hat : (s.rring i).disabledAt + 1000000 ≤ s.now) :
    ((s.rring i).next = none → exec (.ropeDisableDrainEnd i) s = .next ((s.endRing i 6).modRingR i fun r => { r with next := none })) ∧
    (∀ mb e sel, (s.rring i).next = some (mb, e, sel) → exec (.ropeDisableDrainEnd i) s =
      .next ((((s.endRing i 6).modRingR i fun r => { r with next := none }).openRing i sel).settleDefer mb e .ok)) := by
  change (_ → execRopeDisableDrainEnd i s = _) ∧ (∀ mb e sel, _ → execRopeDisableDrainEnd i s = _)
  rw [execRopeDisableDrainEnd, decide_eq_true hi, onUnit_true]
  dsimp only
  rw [beq_iff_eq.2 hst, decide_eq_true hat, Bool.or_true, Bool.and_self, when_true]
  refine ⟨fun hn => ?_, fun mb e sel hn => ?_⟩
  · rw [hn]
  · rw [hn]

end Ring

/-! ### ROPE_CONFIG -/

theorem State.accepted_now (s : State) (mb : Nat) (r : NyReq) : (Says.accepted s mb r).now = s.now := by
  rw [Says.accepted, State.putRequest]
  generalize reqHeader r ++ _ = bs
  exact State.putArea_now s (mbBase mb) bs

/-- A ring that is disabled while it is UP drains: its ports take no more frames. -/
theorem State.drains (s : State) (i : Nat) : ∃ t, (((((s.setRing i 5).modPortR (2 * i) fun x => { x with waiting := [] }).modPortR (2 * i + 1)
      fun x => { x with waiting := [] }).modRingR i fun r => { r with disabledAt := s.now })) = t ∧ t.ringSt i = 5 ∧ (t.rport (2 * i)).waiting = [] ∧
    (t.rport (2 * i + 1)).waiting = [] ∧ (t.rring i).disabledAt = s.now ∧ t.mem = s.mem ∧ t.cells = s.cells := by
  have hst : (s.setRing i 5).ringSt i = 5 := State.ringSt_setRing s i (by decide)
  have hmem := State.setRing_mem s i 5
  have hcells := State.setRing_cells s i 5
  generalize s.setRing i 5 = u at hst hmem hcells
  have hport (v : State) (q : Nat) : (v.modRingR i fun r => { r with disabledAt := s.now }).rport q = v.rport q := rfl
  refine ⟨_, rfl, hst, ?_, ?_, ?_, hmem, hcells⟩
  · rw [hport, rport_modPortR_ne _ (by omega), rport_modPortR_self]
  · rw [hport, rport_modPortR_self]
  · rw [rring_modRingR_self]

/-- Settles O52: each step of a ring does what its state and its ports ask for, and an operation of ROPE_CONFIG ends with OK. -/
theorem ropeRings : Obligations.RopeRings := by
  unfold Obligations.RopeRings
  refine ⟨fun p s hp => ⟨fun l hl hup hok => exec_fecThreshold hp hl hup hok, fun l y hl hup hy => exec_spareSwap hp hl hup hy,
    exec_ropeHelloRetry hp, exec_ropeRekey hp, fun bad => exec_ropeTrainingDone_spares hp bad, fun bad => exec_ropeTrainingDone_opening hp bad,
    fun hup => ⟨_, exec_ropeLinkLost hp hup, ?_, ?_, fun q hq => ?_, rfl, rfl⟩⟩, fun i s hi => ⟨fun hst hclosed hat => ?_, exec_ropeDisableDrainEnd hi⟩,
    fun mb r s hready ho => ?_⟩
  · exact (rport_ringCounted _ _ _ _ _).trans (rport_modPortR_self s p _)
  · rw [rring_modRingR_self]
    exact bitAt_session_lost _ _
  · exact (rport_ringCounted _ _ _ _ _).trans (rport_modPortR_ne s hq _)
  · refine ⟨_, exec_bypassOpen hi hst hclosed hat, ?_⟩
    generalize hu : s.sets [(Reg.ROPE_STATUS_bypass_open (2 * i), 1), (Reg.ROPE_STATUS_bypass_open (2 * i + 1), 1)] = u
    have hleft : u.flag (Reg.ROPE_STATUS_bypass_open (2 * i)) = true := by
      rw [← hu, State.flag, State.get_sets_two, State.get_set_ne (f := Reg.ROPE_STATUS_bypass_open (2 * i + 1))
        (g := Reg.ROPE_STATUS_bypass_open (2 * i)) _ _ (by simp only [Reg.ROPE_STATUS_bypass_open]; omega),
        State.get_set_self _ _ _ (by simp [Reg.ROPE_STATUS_bypass_open])]
      rfl
    have hright : u.flag (Reg.ROPE_STATUS_bypass_open (2 * i + 1)) = true := by
      rw [← hu, State.flag, State.get_sets_two, State.get_set_self _ _ _ (by simp [Reg.ROPE_STATUS_bypass_open])]
      rfl
    have hmem : u.mem = s.mem := by rw [← hu, State.sets_mem]
    obtain ⟨hrope, hkeep, hflag⟩ := State.ringUp_leaves ((u.modPortR (2 * i) fun x => { x with trained := false }).modPortR (2 * i + 1)
      fun x => { x with trained := false }) i
    refine ⟨(hflag _).trans hleft, (hflag _).trans hright, ?_, ?_, hkeep.trans hmem⟩
    · rw [rport_of_rope hrope, rport_modPortR_ne _ (by omega), rport_modPortR_self]
    · rw [rport_of_rope hrope, rport_modPortR_self]
  · obtain ⟨hmem, hcells⟩ := State.accepted_frame s mb r
    have hnow : (Says.accepted s mb r).now = s.now := State.accepted_now s mb r
    generalize hu : Says.accepted s mb r = u at hmem hcells hnow
    have hdone : ∀ {op : Nat} {f : State → List Byte → Ans} {t : State} {st : St} {res : List Byte}, 64 ≤ r.arg.length → argN r.arg 3 1 = 0 →
        argN r.arg 24 40 = 0 → argN r.arg 0 1 = op → f u r.arg = .done t st res → ropeRow op mb r s f = .next (t.respond mb st.code res) :=
      fun hlen h3 h24 hop hf => nymakRow_done hready (by rw [ho, hop, beq_self_eq_true, beq_self_eq_true, Bool.and_self])
        (by rw [hu, if_neg (by omega), hf])
    clear hready
    generalize r.arg = b at hdone
    dsimp only
    intro hlen h3 h24
    refine ⟨fun hop hi hsel h3' h4' h5' => hdone hlen h3 h24 hop ?_, fun hop hi hnext => ⟨fun h4' h5' => hdone hlen h3 h24 hop ?_, fun h4' => ?_⟩,
      fun hop hn hl => hdone hlen h3 h24 hop ?_, fun hop hi hok => hdone hlen h3 h24 hop ?_, fun hop hbase hjob hrun => hdone hlen h3 h24 hop ?_,
      fun hop => hdone hlen h3 h24 hop rfl⟩
    · dsimp only
      rw [if_neg (by omega), if_neg h5', if_neg (by omega)]
    · dsimp only
      rw [if_neg (by omega), hnext]
      dsimp only
      rw [if_neg h4', if_neg h5']
    · obtain ⟨t, ht, hst, hl, hr, hd, hm, hc⟩ := State.drains u (argN b 1 1)
      refine ⟨t, hdone hlen h3 h24 hop ?_, hst, hl, hr, hd.trans hnow, hm.trans hmem, hc.trans hcells⟩
      dsimp only
      rw [if_neg (by omega), hnext]
      dsimp only
      rw [if_pos h4', ht]
    · dsimp only
      rw [if_neg (by omega)]
    · dsimp only
      rw [hok, if_neg (by simp; omega)]
    · dsimp only
      rw [hrun, hjob, if_neg (by decide), if_neg (by simp; omega)]

end Sys2Proof.Machine
end

section
/-! PROOFS. The gradient reduction (O53). -/

namespace Sys2Proof.Machine
open Sys2Proof.Says

/-! ### What a write of granules leaves, poison or not -/

/-- From the first state to the second only the bytes of one run, marks of DRAM and counts have changed. -/
def KeepsBeyond (a n : Nat) (s t : State) : Prop :=
  t.rope = s.rope ∧ t.cells = s.cells ∧ ∀ x, x < a ∨ a + n ≤ x → t.byte x = s.byte x

theorem KeepsBeyond.refl (a n : Nat) (s : State) : KeepsBeyond a n s s := ⟨rfl, rfl, fun _ _ => rfl⟩

theorem KeepsBeyond.append {a m n : Nat} {s t u : State} (h : KeepsBeyond a m s t) (h' : KeepsBeyond (a + m) n t u) : KeepsBeyond a (m + n) s u := by
  obtain ⟨hr, hc, hb⟩ := h
  obtain ⟨hr', hc', hb'⟩ := h'
  exact ⟨hr'.trans hr, hc'.trans hc, fun x hx => (hb' x (by omega)).trans (hb x (by omega))⟩

theorem keepsBeyond_writeBytes (a : Nat) (bs : List Byte) (s : State) : KeepsBeyond a bs.length s (s.writeBytes a bs) :=
  ⟨State.writeBytes_rope .., State.writeBytes_cells .., fun _ hx => State.byte_writeBytes_out _ _ hx⟩

/-- A read without a DRAM error counts poison at most. -/
theorem State.readUnit_quiet (s : State) (u : Nat) :
    (s.readUnit u []).2 = s ∨ (s.readUnit u []).2 = s.inc (Reg.DRAM_CH_STATUS_poison_read_count (dramChan (64 * u))) := by
  unfold State.readUnit
  dsimp only
  rw [List.find?_nil, List.find?_nil]
  split
  · exact .inl rfl
  · dsimp only
    split
    · exact .inr rfl
    · exact .inl rfl

theorem keepsBeyond_writeUnit (a : Nat) (bs : List Byte) (poison : Bool) (s : State) : KeepsBeyond a bs.length s (s.writeUnit a bs poison []) := by
  have hfill : KeepsBeyond a 0 s (s.fillGranule a) := by
    rw [State.fillGranule_eq]
    exact ⟨rfl, rfl, fun _ _ => rfl⟩
  have hread : ∀ v : State, KeepsBeyond a 0 v (v.readUnit (a / 64) []).2 := fun v => by
    obtain h | h := State.readUnit_quiet v (a / 64)
    · rw [h]
      exact .refl _ _ _
    · rw [h]
      exact ⟨rfl, rfl, fun _ _ => rfl⟩
  rw [← Nat.zero_add bs.length]
  refine hfill.append ?_
  rw [State.writeUnit]
  generalize s.fillGranule a = v
  dsimp only
  split
  · exact keepsBeyond_writeBytes a bs v
  · rw [← Nat.zero_add bs.length]
    refine (hread v).append ?_
    generalize v.readUnit (a / 64) [] = r
    split
    · exact ⟨rfl, rfl, fun _ _ => rfl⟩
    · exact keepsBeyond_writeBytes a bs r.2

theorem keepsBeyond_parts (parts : List (List Gran)) (a : Nat) (s : State) :
    KeepsBeyond a (parts.flatMap fun c => c.flatMap (·.data)).length s
      (parts.foldl (fun (p : Nat × State) (c : List Gran) =>
        let bs := c.flatMap (·.data)
        (p.1 + bs.length, if bs.isEmpty then p.2 else p.2.writeUnit p.1 bs (c.any (·.poison)) [])) (a, s)).2 := by
  induction parts generalizing a s with
  | nil => exact .refl _ _ _
  | cons c cs ih =>
    rw [List.flatMap_cons, List.length_append, List.foldl_cons]
    refine KeepsBeyond.append ?_ (ih _ _)
    dsimp only
    split
    · exact .refl _ _ _
    · exact keepsBeyond_writeUnit _ _ _ _

/-- The parts of a list of granules hold the list. -/
theorem flatten_granuleParts (a : Nat) (gs : List Gran) :
    (if a % 64 = 0 then chunks 2 gs.length gs else [gs.take 1] ++ chunks 2 gs.length (gs.drop 1)).flatten = gs := by
  split
  · exact flatten_chunks (by decide) _ (Nat.le_refl _)
  · rw [List.singleton_append, List.flatten_cons, flatten_chunks (by decide) _ (by rw [List.length_drop]; omega), List.take_append_drop]

theorem keepsBeyond_writeGrans (a : Nat) (gs : List Gran) (s : State) : KeepsBeyond a (gs.flatMap (·.data)).length s (s.writeGrans a gs []) := by
  have hflat := flatten_granuleParts a gs
  rw [State.writeGrans]
  generalize (if a % 64 = 0 then chunks 2 gs.length gs else [gs.take 1] ++ chunks 2 gs.length (gs.drop 1)) = parts at hflat
  have hdata : (parts.flatMap fun c => c.flatMap (·.data)) = gs.flatMap (·.data) := by
    rw [← hflat, ← List.flatMap_id, List.flatMap_assoc]
    rfl
  rw [← hdata]
  exact keepsBeyond_parts parts a s

/-! ### A step of a shard opens (R389, R390) -/

/-- Step k of one shard opens and its buffer starts as −0. -/
def State.openShard (k : Nat) (s : State) (x : Shard) : State :=
  ((s.modRope fun r => { r with steps := (r.steps.filter fun y => y.shard != x.shard || k < y.k + 2) ++
    [⟨x.shard, k, [], [], false, 0, 0, 0, false⟩] }).request 0 2 0 x.bytes).writeGrans (x.buf k) (List.replicate (x.bytes / 32) redZero) []

theorem length_redZeros (n : Nat) : ((List.replicate n redZero).flatMap (·.data)).length = n * 32 := by
  have h : redZero.data.length = 32 := by decide
  rw [List.flatMap_replicate, List.length_flatten, List.map_replicate, List.sum_replicate, h, smul_eq_mul]

theorem State.openShard_leaves (k : Nat) (s : State) (x : Shard) :
    (s.openShard k x).rope = { s.rope with steps := (s.rope.steps.filter fun y => y.shard != x.shard || k < y.k + 2) ++
      [⟨x.shard, k, [], [], false, 0, 0, 0, false⟩] } ∧
    (s.openShard k x).cells = s.cells ∧
    ∀ a, a < x.buf k ∨ x.buf k + x.bytes / 32 * 32 ≤ a → (s.openShard k x).byte a = s.byte a := by
  rw [State.openShard]
  have hmod : ∀ f : RopeSt → RopeSt, ((s.modRope f).request 0 2 0 x.bytes).rope = f s.rope ∧ ((s.modRope f).request 0 2 0 x.bytes).cells = s.cells ∧
      ∀ a, ((s.modRope f).request 0 2 0 x.bytes).byte a = s.byte a := fun f =>
    ⟨(State.request_rope ..).trans (State.modRope_rope ..), (State.request_cells ..).trans (State.modRope_cells ..),
      fun a => State.byte_congr ((State.request_mem ..).trans (State.modRope_mem ..)) a⟩
  obtain ⟨hrope, hcells, hbyte⟩ := hmod fun r => { r with steps := (r.steps.filter fun y => y.shard != x.shard || k < y.k + 2) ++
    [⟨x.shard, k, [], [], false, 0, 0, 0, false⟩] }
  obtain ⟨hr, hc, hb⟩ := keepsBeyond_writeGrans (x.buf k) (List.replicate (x.bytes / 32) redZero) ((s.modRope fun r =>
    { r with steps := (r.steps.filter fun y => y.shard != x.shard || k < y.k + 2) ++
      [⟨x.shard, k, [], [], false, 0, 0, 0, false⟩] }).request 0 2 0 x.bytes)
  rw [length_redZeros] at hb
  exact ⟨hr.trans hrope, hc.trans hcells, fun a ha => (hb a ha).trans (hbyte a)⟩

/-- Once the step has opened for every shard of a list: the new steps, and what stays. -/
theorem State.openShards_leave (k : Nat) (xs : List Shard) (s : State) :
    (∀ x ∈ xs, ∃ y ∈ (xs.foldl (State.openShard k) s).rope.steps, y.shard = x.shard ∧ y.k = k ∧ y.contribs = []) ∧
    (∀ y ∈ s.rope.steps, y.k = k → y ∈ (xs.foldl (State.openShard k) s).rope.steps) ∧
    (xs.foldl (State.openShard k) s).rope.team = s.rope.team ∧ (xs.foldl (State.openShard k) s).cells = s.cells ∧
    ∀ a, (∀ x ∈ xs, a < x.buf k ∨ x.buf k + x.bytes / 32 * 32 ≤ a) → (xs.foldl (State.openShard k) s).byte a = s.byte a := by
  induction xs generalizing s with
  | nil => exact ⟨nofun, fun _ h _ => h, rfl, rfl, fun _ _ => rfl⟩
  | cons x xs ih =>
    obtain ⟨hrope, hcells, hbyte⟩ := State.openShard_leaves k s x
    obtain ⟨hnew, hold, hteam, hc, hb⟩ := ih (s.openShard k x)
    rw [List.foldl_cons]
    refine ⟨List.forall_mem_cons.2 ⟨⟨⟨x.shard, k, [], [], false, 0, 0, 0, false⟩, hold _ ?_ rfl, rfl, rfl, rfl⟩, hnew⟩, fun y hy hk => hold y ?_ hk,
      hteam.trans (by rw [hrope]), hc.trans hcells, fun a ha => (hb a fun z hz => ha z (.tail _ hz)).trans (hbyte a (ha x (.head _)))⟩
    · rw [hrope]
      exact List.mem_append_right _ (.head _)
    · rw [hrope]
      exact List.mem_append_left _ (List.mem_filter.2 ⟨hy, by rw [hk, decide_eq_true (by omega), Bool.or_true]⟩)

theorem exec_reductionStepOpen {k : Nat} {t : Team} {s : State} (ht : s.rope.team = some t) (hr : s.isIn .running = true) (hat : t.openOf k ≤ s.now)
    (hold : ∀ x ∈ s.rope.steps, x.k < k) : exec (.reductionStepOpen k) s = .next (t.shards.foldl (State.openShard k) s) := by
  have hall : (s.rope.steps.all fun x => decide (x.k < k)) = true := List.all_eq_true.2 fun x hx => decide_eq_true (hold x hx)
  change execReductionStepOpen k s = _
  rw [execReductionStepOpen, ht]
  dsimp only
  rw [hr, decide_eq_true hat, hall, Bool.and_self, Bool.and_self, when_true]
  rfl

/-! ### The end of a node's loop -/

section Ends
variable {sh k : Nat} {t : Team} {x : Shard} {r : RedStep} {s : State}

theorem exec_reductionCutoff (dram : List DramErr) (ht : s.rope.team = some t) (hx : t.shardOf sh = some x) (hs : s.redStep sh k = some r)
    (hr : s.isIn .running = true) (hat : t.cutoff sh k ≤ s.now) (hc : ∀ c ∈ r.contribs, c.complete = true) :
    exec (.reductionCutoff ⟨sh, dram⟩ k) s = .next (s.endStep t x k false dram) := by
  change execReductionCutoff ⟨sh, dram⟩ k s = _
  rw [execReductionCutoff, ht]
  dsimp only
  rw [hx, hs]
  dsimp only
  rw [hr, decide_eq_true hat, List.all_eq_true.2 hc, Bool.and_self, Bool.and_self, when_true]

theorem exec_reductionAbandon (dram : List DramErr) (ht : s.rope.team = some t) (hx : t.shardOf sh = some x) (hr : s.isIn .running = true)
    (hat : t.cutoff sh k + t.level ≤ s.now) : exec (.reductionAbandon ⟨sh, dram⟩ k) s = .next (s.endStep t x k true dram) := by
  change execReductionAbandon ⟨sh, dram⟩ k s = _
  rw [execReductionAbandon, ht]
  dsimp only
  rw [hx]
  dsimp only
  rw [hr, decide_eq_true hat, Bool.and_self, when_true]

theorem State.endStep_ended (dram : List DramErr) (hs : s.redStep x.shard k = some r) (he : r.ended = true) (b : Bool) : s.endStep t x k b dram = s := by
  rw [State.endStep, hs]
  exact if_pos he

/-- A node that is not the summit abandons what is incomplete: an empty partial goes to its parent. -/
theorem State.endStep_abandons (dram : List DramErr) (hs : s.redStep x.shard k = some r) (he : r.ended = false) (hself : t.self x.shard ≠ 0)
    (hc : ∃ c ∈ r.contribs, c.complete = false) : s.endStep t x k true dram =
      ((s.modRed x.shard k fun y => { y with ended := true, count := 0 }).inc Reg.ROPE_RED_COUNTS_late_in).ropeTo t 2 4 (t.parent x.shard)
        x.shard k 0 0 0 [] := by
  have hany : (r.contribs.any fun c => !c.complete) = true := by
    obtain ⟨c, hmem, hcomp⟩ := hc
    exact List.any_eq_true.2 ⟨c, hmem, by rw [hcomp]; rfl⟩
  rw [State.endStep, hs]
  dsimp only
  rw [he, if_neg Bool.false_ne_true, hany, Bool.true_and, if_pos rfl, if_neg hself, if_pos rfl, if_pos rfl]
  rfl

end Ends

/-- Settles O53: the step opens shard by shard, and a node's loop ends at its cutoff or without the contributions that are incomplete. -/
theorem reduction : Obligations.Reduction := by
  unfold Obligations.Reduction
  refine ⟨fun mb r s hready ho => ?_, fun k t s ht hr hat hold => ?_, fun sh k dram t x r s ht hx hs hr =>
      ⟨exec_reductionCutoff dram ht hx hs hr, exec_reductionAbandon dram ht hx hr⟩,
    fun t x k r dram s hs => ⟨fun he b => State.endStep_ended dram hs he b, State.endStep_abandons dram hs⟩⟩
  · have hop : (r.opcode == 0x91) = true := beq_iff_eq.2 ho
    refine ⟨fun hr hlen hok => ?_, fun hr => ?_⟩
    · refine nymakRow_done hready hop ?_
      dsimp only
      rw [hr, hok, if_neg (by decide), if_neg (by simp; omega)]
    · refine nymakRow_done hready hop ?_
      dsimp only
      rw [hr]
      rfl
  · obtain ⟨hnew, -, hteam, hcells, hbyte⟩ := State.openShards_leave k t.shards s
    exact ⟨_, exec_reductionStepOpen ht hr hat hold, hnew, hteam.trans ht, hcells, hbyte⟩

end Sys2Proof.Machine
end

section
/-! PROOFS. Input power, power step, reference and house clock (O55). -/

namespace Sys2Proof.Machine
open Sys2Proof.Says

/-! ### Events -/

theorem Ev.bit_lt (e : Ev) : e.bit < 9 := by cases e <;> decide

/-- A raised event stands in the status register. -/
theorem State.events_raise (s : State) (e : Ev) : bitAt ((s.raise e).get Reg.EVENT_STATUS_events) e.bit = true := by
  rw [State.raise]
  dsimp only
  by_cases h : bitAt (s.get Reg.EVENT_STATUS_events) e.bit = true
  · rw [if_pos h]
    exact h
  · rw [if_neg h]
    have hset : bitAt ((s.set Reg.EVENT_STATUS_events (s.get Reg.EVENT_STATUS_events + 2 ^ e.bit)).get Reg.EVENT_STATUS_events) e.bit = true := by
      rw [State.get_set_self _ _ _ (by decide), bitAt, Nat.testBit_mod_two_pow, decide_eq_true (show e.bit < Reg.EVENT_STATUS_events.w from Ev.bit_lt e), Bool.true_and, Nat.add_comm,
        Nat.testBit_two_pow_add_eq, ← bitAt, Bool.eq_false_of_not_eq_true h]
      rfl
    split
    · exact hset
    · exact hset

theorem State.get_of_regs {s t : State} {g : RF} (h : t.regs = s.regs) : t.get g = s.get g :=
  State.get_of_reg (by rw [State.reg, State.reg, h])

/-! ### Input (R396, R397) -/

theorem State.showInput_shows (s : State) : s.showInput.get Reg.POWER_STATUS_input_mv = s.pins.mv % 2 ^ 16 ∧
    s.showInput.flag Reg.POWER_STATUS_undervolt = decide (s.pins.mv < 54000) ∧ s.showInput.flag Reg.POWER_STATUS_overvolt = decide (62000 < s.pins.mv) := by
  have hraise : ∀ (u : State) (c : Bool) (f : RF), f.off = 0x408 → (if c = true then u.raise .power else u).get f = u.get f := fun u c f hf => by
    cases c with
    | true => exact State.get_of_reg (State.reg_raise_ne _ (by rw [hf]; decide))
    | false => rfl
  have hbit : ∀ b : Bool, (b2n b % 2 ^ 1 != 0) = b := by decide
  change s.showInput.get Reg.POWER_STATUS_input_mv = s.pins.mv % 2 ^ 16 ∧
    (s.showInput.get Reg.POWER_STATUS_undervolt != 0) = decide (s.pins.mv < 54000) ∧
    (s.showInput.get Reg.POWER_STATUS_overvolt != 0) = decide (62000 < s.pins.mv)
  rw [State.showInput, hraise _ _ Reg.POWER_STATUS_input_mv rfl, hraise _ _ Reg.POWER_STATUS_undervolt rfl,
    hraise _ _ Reg.POWER_STATUS_overvolt rfl]
  have hsets : ∀ n, s.sets [(Reg.POWER_STATUS_input_mv, s.pins.mv), (Reg.POWER_STATUS_undervolt, b2n (decide (s.pins.mv < 54000))),
      (Reg.POWER_STATUS_overvolt, b2n (decide (62000 < s.pins.mv))), (Reg.POWER_STATUS_converters, n)] =
      (((s.set Reg.POWER_STATUS_input_mv s.pins.mv).set Reg.POWER_STATUS_undervolt (b2n (decide (s.pins.mv < 54000)))).set
        Reg.POWER_STATUS_overvolt (b2n (decide (62000 < s.pins.mv)))).set Reg.POWER_STATUS_converters n := fun _ => rfl
  rw [hsets]
  refine ⟨?_, ?_, ?_⟩
  · rw [State.get_set_disjoint (f := Reg.POWER_STATUS_converters) (g := Reg.POWER_STATUS_input_mv) _ _ rfl (by decide) (by decide),
      State.get_set_disjoint (f := Reg.POWER_STATUS_overvolt) (g := Reg.POWER_STATUS_input_mv) _ _ rfl (by decide) (by decide),
      State.get_set_disjoint (f := Reg.POWER_STATUS_undervolt) (g := Reg.POWER_STATUS_input_mv) _ _ rfl (by decide) (by decide),
      State.get_set_self _ _ _ (by decide)]
    rfl
  · rw [State.get_set_disjoint (f := Reg.POWER_STATUS_converters) (g := Reg.POWER_STATUS_undervolt) _ _ rfl (by decide) (by decide),
      State.get_set_disjoint (f := Reg.POWER_STATUS_overvolt) (g := Reg.POWER_STATUS_undervolt) _ _ rfl (by decide) (by decide),
      State.get_set_self _ _ _ (by decide)]
    exact hbit _
  · rw [State.get_set_disjoint (f := Reg.POWER_STATUS_converters) (g := Reg.POWER_STATUS_overvolt) _ _ rfl (by decide) (by decide),
      State.get_set_self _ _ _ (by decide)]
    exact hbit _

theorem State.showInput_now (s : State) : s.showInput.now = s.now := by rw [(State.showInput_leaves s).1]
theorem State.showInput_power (s : State) : s.showInput.power = s.power := by rw [(State.showInput_leaves s).1]
theorem State.showInput_mem (s : State) : s.showInput.mem = s.mem := by rw [(State.showInput_leaves s).1]
theorem State.showInput_cells (s : State) : s.showInput.cells = s.cells := by rw [(State.showInput_leaves s).1]
theorem State.showInput_pins (s : State) : s.showInput.pins = s.pins := by rw [(State.showInput_leaves s).1]
theorem State.showInput_pst (s : State) : s.showInput.pst = s.pst :=
  State.get_of_reg (g := Reg.PANEL_STATE_state) ((State.showInput_leaves s).2 _ (by decide) (by decide))

/-- When the input has left the range in which the panel stays up (Table 16.1). -/
def State.outSince (s : State) (mv : Nat) : Option Nat := if 52000 ≤ mv ∧ mv ≤ 63000 then none else some (s.power.outAt.getD s.now)

/-- The input at `mv` millivolts. -/
def State.supplied (s : State) (mv : Nat) : State := { s with pins := { s.pins with mv := mv }, power := { s.power with outAt := s.outSince mv } }

theorem exec_inputVoltageChange (mv : Nat) (s : State) :
    (s.isIn .off = true → exec (.inputVoltageChange mv) s = .next (s.supplied mv)) ∧
    (s.isIn .off = false → s.isIn .bringup = false → exec (.inputVoltageChange mv) s = .next (s.supplied mv).showInput) := by
  have hkeep : (if (decide (52000 ≤ mv) && decide (mv ≤ 63000)) = true then none else some (s.power.outAt.getD s.now)) = s.outSince mv := by
    rw [State.outSince, ← Bool.decide_and]
    by_cases h : 52000 ≤ mv ∧ mv ≤ 63000
    · rw [if_pos h, if_pos (decide_eq_true h)]
    · rw [if_neg h, if_neg (by simpa using h)]
  have hsup : (State.modPower { s with pins := { s.pins with mv := mv } } fun p =>
      { p with outAt := if (decide (52000 ≤ mv) && decide (mv ≤ 63000)) = true then none else some (p.outAt.getD s.now) }) = s.supplied mv := by
    rw [State.supplied, ← hkeep]
    rfl
  change (_ → execInputVoltageChange mv s = _) ∧ (_ → _ → execInputVoltageChange mv s = _)
  rw [execInputVoltageChange]
  dsimp only
  rw [hsup]
  refine ⟨fun hoff => ?_, fun hoff hb => ?_⟩
  · exact congrArg Host.Outcome.next (if_pos hoff)
  · have hb' : (s.supplied mv).showInput.isIn .bringup = false := by
      rw [State.isIn, State.showInput_pst]
      exact hb
    rw [if_neg (ne_true_of_eq_false (show (s.supplied mv).isIn .off = false from hoff)), hb', Bool.and_false]
    rfl

theorem exec_converterFail {n : Nat} {s : State} (hn : n < 16) (hp : s.powered = true) :
    (s.power.failed.contains n = false → exec (.converterFail n) s =
      .next ((s.modPower fun p => { p with failed := NSet.add p.failed n }).showInput.raise .power)) ∧
    (s.power.failed.contains n = true → exec (.converterFail n) s = .next s) := by
  change (_ → execConverterFail n s = _) ∧ (_ → execConverterFail n s = _)
  rw [execConverterFail, decide_eq_true hn, onUnit_true, hp]
  refine ⟨fun hf => ?_, fun hf => ?_⟩
  · rw [hf, Bool.not_false, Bool.and_self, when_true]
  · rw [hf, Bool.not_true, Bool.and_false, when_false]

/-! ### The power step (R399, R400) -/

theorem Says.sampledPower_now (s : State) (w : Nat) : (sampledPower s w).now = s.now := by
  simp only [sampledPower, State.modSeq_now, State.set_now, State.showInput_now, State.modPower_now]

theorem exec_powerSample {s : State} (hp : s.powered = true) (w : Nat) : exec (.powerSample w) s =
    .next (if ((sampledPower s w).power.hold.any fun t => decide (s.now < t)) = true then
      if (if (sampledPower s w).flag Reg.POWER_CTRL_peak_enable = true then 16000 else s.effLimit) < w then
        (sampledPower s w).modPower fun p => { p with hold := some (s.now + 1000000) } else sampledPower s w
    else if ((if (sampledPower s w).flag Reg.POWER_CTRL_peak_enable = true then 16000 else s.effLimit) < w) ∨
        ((if s.effLimit < w then some ((sampledPower s w).power.overAt.getD s.now) else none).any fun t => decide (t + 10000000 ≤ s.now)) = true then
      (sampledPower s w).fastCut
    else (sampledPower s w).modPower fun p => { p with overAt := if s.effLimit < w then some ((sampledPower s w).power.overAt.getD s.now) else none }) := by
  have hnow := Says.sampledPower_now s w
  generalize hv : sampledPower s w = v at hnow
  rw [sampledPower] at hv
  change execPowerSample w s = _
  rw [execPowerSample, hp]
  dsimp only at hv ⊢
  simp only [decide_eq_true_eq, Bool.or_eq_true]
  rw [hv, hnow, Bool.not_true, if_neg Bool.false_ne_true]

/-- A fast cut stands at code 12 for 1 ms, and is told. -/
theorem State.fastCut_holds (s : State) : s.fastCut.get Reg.POWER_STATUS_power_step = 12 ∧ s.fastCut.power.hold = some (s.now + 1000000) ∧
    bitAt (s.fastCut.get Reg.EVENT_STATUS_events) Ev.power.bit = true := by
  have hset : (s.setPowerStep 12).get Reg.POWER_STATUS_power_step = 12 := State.get_set_self s _ _ (by decide)
  have hpower : ∀ v : State, (v.modPower fun p => { p with hold := some (s.now + 1000000), overAt := none }).power.hold = some (s.now + 1000000) :=
    fun _ => rfl
  have hget : ∀ (v : State) (f : PowerSt → PowerSt) (g : RF), (v.modPower f).get g = v.get g := fun _ _ _ => rfl
  rw [State.fastCut]
  refine ⟨?_, ?_, State.events_raise _ _⟩
  · rw [State.get_of_reg (State.reg_raise_ne _ (by decide)), State.inc,
      State.get_set_disjoint (f := Reg.POWER_STATUS_limit_events) (g := Reg.POWER_STATUS_power_step) _ _ rfl (by decide) (by decide), hget, hset]
  · rw [State.raise_power, State.inc_power]
    exact hpower _

section Steps
variable {s : State}

theorem exec_powerStepRaise (hp : s.powered = true) (hh : s.power.hold = none) (ha : s.effLimit < s.average)
    (hc : s.get Reg.POWER_STATUS_power_step < 12) (hat : s.power.stepAt + 100000 ≤ s.now) :
    exec .powerStepRaise s = .next (s.setPowerStep (s.get Reg.POWER_STATUS_power_step + 1)) := by
  change execPowerStepRaise s = _
  rw [execPowerStepRaise, hp, hh, decide_eq_true ha, decide_eq_true hc, decide_eq_true hat]
  rfl

theorem exec_powerStepLower (hp : s.powered = true) (hh : s.power.hold = none) (ha : 20 * s.average < 19 * s.effLimit)
    (hc : 0 < s.get Reg.POWER_STATUS_power_step) (hat : s.power.stepAt + 1000000 ≤ s.now) :
    exec .powerStepLower s = .next (s.setPowerStep (s.get Reg.POWER_STATUS_power_step - 1)) := by
  change execPowerStepLower s = _
  rw [execPowerStepLower, hp, hh, decide_eq_true ha, decide_eq_true hc, decide_eq_true hat]
  rfl

theorem exec_fastCutHoldEnd {t : Nat} (hh : s.power.hold = some t) (hat : t ≤ s.now) :
    exec .fastCutHoldEnd s = .next (s.modPower fun p => { p with hold := none, stepAt := s.now, overAt := none }) := by
  change execFastCutHoldEnd s = _
  rw [execFastCutHoldEnd, hh]
  exact congrArg Host.Outcome.next (if_pos hat)

/-- A region's code is the highest asked for, in BRINGUP 6 at least. -/
theorem State.wantedCode_eq (s : State) (g : Nat) : s.wantedCode g = max (max (s.thermal g).step (max (s.get Reg.POWER_STATUS_power_step)
    (s.get (Reg.REGION_FCAP_fstep_max g)))) (if s.isIn .bringup then 6 else 0) := by
  rw [State.wantedCode]
  split
  · rfl
  · rw [Nat.max_zero]

theorem exec_frequencyChange {g : Nat} (hg : regionValid g = true) (hp : s.powered = true) (ht : s.get (Reg.REGION_THERMAL_tstate g) < 2) :
    exec (.frequencyChange g) s = .next ((s.clockMark g).set (Reg.REGION_THERMAL_fstep g) (max (max (s.thermal g).step
      (max (s.get Reg.POWER_STATUS_power_step) (s.get (Reg.REGION_FCAP_fstep_max g)))) (if s.isIn .bringup then 6 else 0))) := by
  change execFrequencyChange g s = _
  rw [execFrequencyChange, onRegion_of_valid hg, hp, decide_eq_true ht, Bool.and_self, when_true, State.wantedCode_eq]

/-! ### Reference and house clock (R402-R404) -/

theorem exec_refclkLost_raises (hoff : s.isIn .off = false) (hl : s.flag Reg.POWER_STATUS_ref_lost = false) : exec .refclkLost s =
    .next (State.raise { s.sets [(Reg.POWER_STATUS_ref_lost, 1), (Reg.HC_SYNC_locked, 0)] with clock := ⟨some s.now, 0⟩ } .power) := by
  have hif : ¬ (s.isIn .off || s.flag Reg.POWER_STATUS_ref_lost) = true := by rw [hoff, hl]; decide
  change execRefclkLost s = _
  rw [execRefclkLost, if_neg hif]

/-- A lost reference is told, and nothing is locked any more. -/
theorem exec_refclkLost (hoff : s.isIn .off = false) (hl : s.flag Reg.POWER_STATUS_ref_lost = false) :
    ∃ t, exec .refclkLost s = .next t ∧ t.flag Reg.POWER_STATUS_ref_lost = true ∧ t.flag Reg.HC_SYNC_locked = false ∧ t.clock = ⟨some s.now, 0⟩ ∧
      t.pst = s.pst ∧ t.mem = s.mem ∧ t.cells = s.cells := by
  have hlost : (s.sets [(Reg.POWER_STATUS_ref_lost, 1), (Reg.HC_SYNC_locked, 0)]).get Reg.POWER_STATUS_ref_lost = 1 := by
    rw [State.get_sets_two, State.get_set_ne (f := Reg.HC_SYNC_locked) (g := Reg.POWER_STATUS_ref_lost) _ _ (by decide),
      State.get_set_self _ _ _ (by decide)]
    rfl
  have hlocked : (s.sets [(Reg.POWER_STATUS_ref_lost, 1), (Reg.HC_SYNC_locked, 0)]).get Reg.HC_SYNC_locked = 0 := by
    rw [State.get_sets_two, State.get_set_self _ _ _ (by decide)]
    rfl
  have hpst : (s.sets [(Reg.POWER_STATUS_ref_lost, 1), (Reg.HC_SYNC_locked, 0)]).get Reg.PANEL_STATE_state = s.pst := by
    rw [State.get_sets_two, State.get_set_ne (f := Reg.HC_SYNC_locked) (g := Reg.PANEL_STATE_state) _ _ (by decide),
      State.get_set_ne (f := Reg.POWER_STATUS_ref_lost) (g := Reg.PANEL_STATE_state) _ _ (by decide), State.pst]
  have hmem := State.sets_mem s [(Reg.POWER_STATUS_ref_lost, 1), (Reg.HC_SYNC_locked, 0)]
  have hcells := State.sets_cells s [(Reg.POWER_STATUS_ref_lost, 1), (Reg.HC_SYNC_locked, 0)]
  refine ⟨_, exec_refclkLost_raises hoff hl, ?_⟩
  generalize s.sets [(Reg.POWER_STATUS_ref_lost, 1), (Reg.HC_SYNC_locked, 0)] = u at hlost hlocked hpst hmem hcells ⊢
  generalize hv : ({ u with clock := ⟨some s.now, 0⟩ } : State) = v
  have hraise : ∀ g : RF, g.off ≠ 0x10000 → (v.raise .power).get g = u.get g := fun g hg =>
    (State.get_of_reg (State.reg_raise_ne _ hg)).trans (State.get_of_regs (by rw [← hv]))
  refine ⟨?_, ?_, (State.raise_clock ..).trans (by rw [← hv]), (hraise _ (by decide)).trans hpst,
    (State.raise_mem ..).trans (by rw [← hv, hmem]), (State.raise_cells ..).trans (by rw [← hv, hcells])⟩
  · rw [State.flag, hraise _ (by decide), hlost]
    rfl
  · rw [State.flag, hraise _ (by decide), hlocked]
    rfl

theorem exec_refclkReturn (hoff : s.isIn .off = false) :
    exec .refclkReturn s = .next { s.set Reg.POWER_STATUS_ref_lost 0 with clock := { s.clock with lostAt := none } } := by
  change execRefclkReturn s = _
  rw [execRefclkReturn, if_neg (ne_true_of_eq_false hoff)]

/-- With no strike and no start under way, time that passes changes the clock alone. -/
theorem State.elapse_idle (hs : s.host.strike = none) (hq : s.seq.start = none) (t : Nat) : s.elapse t = { s with now := max s.now t } := by
  rw [State.elapse, State.endStrike, show ({ s with now := max s.now t } : State).host.strike = none from hs]
  rw [State.finishStart, show ({ s with now := max s.now t } : State).seq.start = none from hq]

theorem exec_houseClockBeacon (hoff : s.isIn .off = false) (t : Nat) (hs : s.host.strike = none) (hq : s.seq.start = none) :
    exec (.houseClockBeacon t) s = .next { s with now := max s.now t } := by
  change execHouseClockBeacon t s = _
  rw [execHouseClockBeacon, hoff, if_neg Bool.false_ne_true, State.elapse_idle hs hq]

/-- What an exchange with a locked neighbour shows: the offset, the depth, whether the clock is locked, and a step counted. -/
def State.showSync (u : State) (off : Int) (depth : Nat) (locked step : Bool) : State :=
  let v := u.sets [(Reg.HC_SYNC_offset_ns, ofSigned 16 (clampInt (-32768) 32767 off)), (Reg.HC_SYNC_depth, min (depth + 1) 0xFF),
    (Reg.HC_SYNC_locked, b2n locked)]
  if step then v.inc Reg.HC_SYNC_step_count else v

theorem State.showSync_eq (u : State) (off : Int) (depth : Nat) (locked step : Bool) :
    u.showSync off depth locked step = { u with regs := (u.showSync off depth locked step).regs } := by
  have heq := State.sets_eq u [(Reg.HC_SYNC_offset_ns, ofSigned 16 (clampInt (-32768) 32767 off)), (Reg.HC_SYNC_depth, min (depth + 1) 0xFF),
    (Reg.HC_SYNC_locked, b2n locked)]
  rw [State.showSync]
  generalize u.sets _ = v at heq
  have hinc : v.inc Reg.HC_SYNC_step_count = { v with regs := (v.inc Reg.HC_SYNC_step_count).regs } := rfl
  cases step with
  | true =>
    rw [if_pos rfl]
    exact hinc.trans (congrArg (fun x : State => { x with regs := (v.inc Reg.HC_SYNC_step_count).regs }) heq)
  | false => exact heq

theorem State.showSync_shows (u : State) (off : Int) (depth : Nat) (locked step : Bool) :
    (u.showSync off depth locked step).get Reg.HC_SYNC_offset_ns = ofSigned 16 (clampInt (-32768) 32767 off) ∧
    (u.showSync off depth locked step).get Reg.HC_SYNC_depth = min (depth + 1) 0xFF ∧
    (u.showSync off depth locked step).flag Reg.HC_SYNC_locked = locked ∧ (u.showSync off depth locked step).pst = u.pst := by
  have hstep : ∀ (v : State) (g : RF), g.off = 0x418 ∧ g.lo + g.w ≤ 48 ∨ g.off ≠ 0x418 →
      (if step = true then v.inc Reg.HC_SYNC_step_count else v).get g = v.get g := fun v g hg => by
    cases step with
    | false => rfl
    | true =>
      obtain ⟨ho, hw⟩ | ho := hg
      · exact State.get_set_disjoint (f := Reg.HC_SYNC_step_count) (g := g) _ _ ho (by omega) (.inl hw)
      · exact State.get_set_ne (f := Reg.HC_SYNC_step_count) (g := g) _ _ ho
  have hsets : u.sets [(Reg.HC_SYNC_offset_ns, ofSigned 16 (clampInt (-32768) 32767 off)), (Reg.HC_SYNC_depth, min (depth + 1) 0xFF),
      (Reg.HC_SYNC_locked, b2n locked)] = ((u.set Reg.HC_SYNC_offset_ns (ofSigned 16 (clampInt (-32768) 32767 off))).set Reg.HC_SYNC_depth
        (min (depth + 1) 0xFF)).set Reg.HC_SYNC_locked (b2n locked) := rfl
  have hoff : ofSigned 16 (clampInt (-32768) 32767 off) < 2 ^ 16 := by
    rw [ofSigned]
    omega
  change (u.showSync off depth locked step).get _ = _ ∧ (u.showSync off depth locked step).get _ = _ ∧
    ((u.showSync off depth locked step).get Reg.HC_SYNC_locked != 0) = _ ∧ (u.showSync off depth locked step).get Reg.PANEL_STATE_state = _
  rw [State.showSync, hsets, hstep _ _ (by decide), hstep _ _ (by decide), hstep _ _ (by decide), hstep _ _ (by decide)]
  refine ⟨?_, ?_, ?_, ?_⟩
  · rw [State.get_set_disjoint (f := Reg.HC_SYNC_locked) (g := Reg.HC_SYNC_offset_ns) _ _ rfl (by decide) (by decide),
      State.get_set_disjoint (f := Reg.HC_SYNC_depth) (g := Reg.HC_SYNC_offset_ns) _ _ rfl (by decide) (by decide),
      State.get_set_self _ _ _ (by decide)]
    exact Nat.mod_eq_of_lt hoff
  · rw [State.get_set_disjoint (f := Reg.HC_SYNC_locked) (g := Reg.HC_SYNC_depth) _ _ rfl (by decide) (by decide),
      State.get_set_self _ _ _ (by decide)]
    exact Nat.mod_eq_of_lt (by simp only [Reg.HC_SYNC_depth]; omega)
  · rw [State.get_set_self _ _ _ (by decide)]
    cases locked <;> rfl
  · rw [State.get_set_ne (f := Reg.HC_SYNC_locked) (g := Reg.PANEL_STATE_state) _ _ (by decide),
      State.get_set_ne (f := Reg.HC_SYNC_depth) (g := Reg.PANEL_STATE_state) _ _ (by decide),
      State.get_set_ne (f := Reg.HC_SYNC_offset_ns) (g := Reg.PANEL_STATE_state) _ _ (by decide), State.pst]

/-- The exchange of a follower whose port carries frames (R404). -/
theorem exec_hcSyncExchange (t2 t3 t4 depth : Nat) (hoff : s.isIn .off = false) (hsrc : s.get Reg.HC_SYNC_source = 1) (hring : s.get Reg.HC_SYNC_ring < 3)
    (hup : s.portUp s.syncPort = true) {u : State} (hu : s.ropeCtrlWith s.syncPort false (toLE 8 2 ++ toLE 8 s.now ++ toLE 16 0) = u) :
    exec (.hcSyncExchange t2 t3 t4 false depth) s = .next (State.set { u with clock := { u.clock with inLock := 0 } } Reg.HC_SYNC_locked 0) ∧
    ∀ (off : Int) (n : Nat), (((t2 : Int) - u.now) + ((t3 : Int) - t4)).tdiv 2 = off → (if -5 ≤ off ∧ off ≤ 5 then u.clock.inLock + 1 else 0) = n →
      ∃ step w v, exec (.hcSyncExchange t2 t3 t4 true depth) s = .next (v.elapse (max v.now t4 + u.correction off)) ∧
        v = { w with clock := { w.clock with inLock := n } } ∧ w = u.showSync off depth (decide (16 ≤ n) && u.clock.lostAt.isNone) step := by
  have hif : ¬ (s.isIn .off = true ∨ s.get Reg.HC_SYNC_source ≠ 1 ∨ 3 ≤ s.get Reg.HC_SYNC_ring ∨ (!s.portUp s.syncPort) = true) := by
    rw [hoff, hsrc, hup]
    simp [hring]
  change execHcSyncExchange t2 t3 t4 false depth s = _ ∧ ∀ off n, _ → _ → ∃ step w v, execHcSyncExchange t2 t3 t4 true depth s = _ ∧ _
  rw [execHcSyncExchange, execHcSyncExchange, if_neg hif, if_neg hif, hu]
  refine ⟨rfl, fun off n hf hn => ⟨!u.isIn .running && decide (1000000 < off), _, _, ?_, rfl, rfl⟩⟩
  have hn' : (if (decide (-5 ≤ off) && decide (off ≤ 5)) = true then u.clock.inLock + 1 else 0) = n := by
    rw [← Bool.decide_and, ← hn]
    exact if_congr (by rw [decide_eq_true_eq]) rfl rfl
  dsimp only
  rw [Bool.not_true, if_neg Bool.false_ne_true, hf, hn']
  rfl

end Steps

/-- Settles O55: what is shown follows what is measured, and the house clock goes forward alone. -/
theorem powerAndClocks : Obligations.PowerAndClocks := by
  unfold Obligations.PowerAndClocks
  refine ⟨fun mv s => ⟨(exec_inputVoltageChange mv s).1, fun hoff hb => ⟨_, (exec_inputVoltageChange mv s).2 hoff hb, ?_⟩⟩,
    fun n s hn hp => ⟨fun hf => ⟨_, (exec_converterFail hn hp).1 hf, ?_⟩, (exec_converterFail hn hp).2⟩, fun w s hp => ?_,
    fun s => ?_, fun s hoff => ⟨exec_refclkLost hoff, exec_refclkReturn hoff, fun t hs hq => exec_houseClockBeacon hoff t hs hq⟩,
    fun t2 t3 t4 depth s hoff hsrc hring hup => ?_⟩
  · obtain ⟨hmv, hunder, hover⟩ := State.showInput_shows (s.supplied mv)
    exact ⟨State.showInput_pins _, State.showInput_power _, hmv, hunder, hover, State.showInput_mem _, State.showInput_cells _, State.showInput_pst _⟩
  · exact ⟨(State.raise_power ..).trans (State.showInput_power _), State.events_raise _ _, (State.raise_mem ..).trans (State.showInput_mem _),
      (State.raise_cells ..).trans (State.showInput_cells _)⟩
  · have hexec := exec_powerSample hp w
    dsimp only
    generalize sampledPower s w = v at *
    refine ⟨fun hheld hpeak hlong => ?_, fun hheld hcut => ?_, fun hheld => ?_⟩
    · rw [hexec, if_neg (ne_true_of_eq_false hheld), if_neg (not_or.2 ⟨of_decide_eq_false hpeak, ne_true_of_eq_false hlong⟩)]
    · rw [hexec, if_neg (ne_true_of_eq_false hheld), if_pos (hcut.imp_left of_decide_eq_true)]
    · rw [hexec, if_pos hheld]
      exact congrArg Host.Outcome.next (if_congr decide_eq_true_iff.symm rfl rfl)
  · obtain ⟨hstep, hhold, hev⟩ := State.fastCut_holds s
    exact ⟨hstep, hhold, hev, exec_powerStepRaise, exec_powerStepLower, fun _ => exec_fastCutHoldEnd, fun _ => exec_frequencyChange⟩
  · dsimp only
    generalize hu : s.ropeCtrlWith (2 * s.get Reg.HC_SYNC_ring + s.get Reg.HC_SYNC_side) false (toLE 8 2 ++ toLE 8 s.now ++ toLE 16 0) = u
    obtain ⟨hlost, hkept⟩ := exec_hcSyncExchange t2 t3 t4 depth hoff hsrc hring hup hu
    have hrest : u.now = s.now ∧ u.clock = s.clock ∧ u.host = s.host ∧ u.seq = s.seq ∧ u.mem = s.mem ∧ u.cells = s.cells ∧ u.regs = s.regs := by
      rw [← hu]
      exact ⟨rfl, rfl, rfl, rfl, rfl, rfl, rfl⟩
    obtain ⟨hnow, hclock, hhost, hseq, hmem, hcells, hregs⟩ := hrest
    rw [hclock] at hlost hkept
    rw [hnow] at hkept
    refine ⟨hlost, fun hs hq => ?_⟩
    obtain ⟨step, w, v, hexec, hv, hw⟩ := hkept _ _ rfl rfl
    generalize (((t2 : Int) - s.now) + ((t3 : Int) - t4)).tdiv 2 = off at *
    generalize (if -5 ≤ off ∧ off ≤ 5 then s.clock.inLock + 1 else 0) = n at *
    have hpst : u.pst = s.pst := State.get_of_regs hregs
    have hcor : u.correction off = if off ≤ 0 then 0 else if s.isIn .running = true then min off.toNat 10
        else if 1000000 < off then off.toNat else min off.toNat 10000 := by
      rw [State.correction, State.isIn, hpst, ← State.isIn]
    obtain ⟨hshow, hdepth, hlocked, hsame⟩ := State.showSync_shows u off depth (decide (16 ≤ n) && s.clock.lostAt.isNone) step
    have heq := State.showSync_eq u off depth (decide (16 ≤ n) && s.clock.lostAt.isNone) step
    rw [← hw] at hshow hdepth hlocked hsame heq
    have hvregs : v.regs = w.regs := by rw [hv]
    have hvrest : v.now = s.now ∧ v.clock = { s.clock with inLock := n } ∧ v.host = s.host ∧ v.seq = s.seq ∧ v.out = u.out ∧ v.mem = s.mem ∧
        v.cells = s.cells := by
      rw [hv, heq, ← hclock]
      exact ⟨hnow, rfl, hhost, hseq, rfl, hmem, hcells⟩
    obtain ⟨hvnow, hvclock, hvhost, hvseq, hvout, hvmem, hvcells⟩ := hvrest
    rw [State.elapse_idle (hvhost ▸ hs) (hvseq ▸ hq), hcor] at hexec
    refine ⟨_, hexec, hvclock, (State.get_of_regs hvregs).trans hshow, (State.get_of_regs hvregs).trans hdepth,
      (congrArg (· != 0) (State.get_of_regs hvregs)).trans hlocked, ?_, hvout, hvmem, hvcells, (State.get_of_regs hvregs).trans (hsame.trans hpst)⟩
    dsimp only
    rw [hvnow]
    omega

end Sys2Proof.Machine
end

section
/-! PROOFS. Thermal steps, GHOST, CUT and the return of a region (O56). -/

namespace Sys2Proof.Machine
open Sys2Proof.Says

/-! ### Registers beside those of the seams -/

/-- An offset at which no register of a seam link or a crossing stands. -/
def OffSeams (o : Nat) : Prop := ∀ r x, 0xE000 ≤ x → x < 0x10000 → o ≠ winBase r + x

theorem offSeams_low {o : Nat} (h : o < 0x2000000) : OffSeams o := fun r x _ _ => by
  rw [winBase]
  omega

theorem offSeams_thermal (g : Nat) : OffSeams (Reg.REGION_THERMAL_tstate g).off := fun r x _ _ => by
  simp only [Reg.REGION_THERMAL_tstate, winBase]
  omega

theorem seamLink_lt (b d : Nat) : seamLink b d < 12 := by
  have h := bkB_lt b
  unfold seamLink
  split <;> omega

theorem seamRegs_lt {b d : Nat} {r : Nat × Nat} (h : r ∈ seamRegs b d) : r.2 < 12 := by
  rw [seamRegs] at h
  obtain rfl | h := List.mem_cons.1 h
  · exact seamLink_lt b d
  · split at h
    · rw [List.mem_singleton.1 h]
      exact seamLink_lt _ _
    · exact nomatch h

/-- Setting a field of every register of a link leaves the registers beside the seams. -/
theorem reg_setSeams {o : Nat} (ho : OffSeams o) {f : Nat → Nat → RF} (hf : ∀ g i, (f g i).off = winBase g + 0xE000 + i * 0x10) (v b d : Nat) (s : State) :
    ((seamRegs b d).foldl (fun s r => s.set (f r.1 r.2) v) s).reg o = s.reg o :=
  List.foldlRecOn (motive := fun t : State => t.reg o = s.reg o) (seamRegs b d) _ rfl fun t ht r hr => by
    have hi := seamRegs_lt hr
    have hne := ho r.1 (0xE000 + r.2 * 0x10) (by omega) (by omega)
    rw [State.reg_set_ne _ _ _ (by rw [hf]; omega), ht]

theorem setSeams_eq (f : Nat → Nat → RF) (v b d : Nat) (s : State) : (seamRegs b d).foldl (fun s r => s.set (f r.1 r.2) v) s =
    { s with regs := ((seamRegs b d).foldl (fun s r => s.set (f r.1 r.2) v) s).regs } := foldl_regs_only (fun _ _ => rfl) _ s

theorem State.showGhost_eq (s : State) (g : Nat) : s.showGhost g = { s with regs := (s.showGhost g).regs } :=
  foldl_regs_only (fun _ _ => setSeams_eq _ _ _ _ _) _ s

theorem State.reg_showGhost {o : Nat} (ho : OffSeams o) (s : State) (g : Nat) : (s.showGhost g).reg o = s.reg o :=
  foldl_reg (fun s _ => reg_setSeams ho (fun _ _ => rfl) _ _ _ s) _ s

/-- Whether a link runs under ghost light is shown beside its state. -/
theorem State.get_showGhost_state (s : State) (g r i : Nat) :
    (s.showGhost g).get (Reg.SEAM_STATUS_state r i) = s.get (Reg.SEAM_STATUS_state r i) := by
  refine List.foldlRecOn (motive := fun t : State => t.get (Reg.SEAM_STATUS_state r i) = s.get (Reg.SEAM_STATUS_state r i)) (regionLinks g) _ rfl
    fun t ht p _ => ?_
  refine List.foldlRecOn (motive := fun t : State => t.get (Reg.SEAM_STATUS_state r i) = s.get (Reg.SEAM_STATUS_state r i)) (seamRegs p.1 p.2) _ ht
    fun u hu q _ => ?_
  by_cases h : (Reg.SEAM_STATUS_state r i).off = (Reg.SEAM_STATUS_ghost q.1 q.2).off
  · rw [State.get_set_disjoint (f := Reg.SEAM_STATUS_ghost q.1 q.2) (g := Reg.SEAM_STATUS_state r i) _ _ h
      (by simp [Reg.SEAM_STATUS_state]) (.inl (by simp [Reg.SEAM_STATUS_state, Reg.SEAM_STATUS_ghost])), hu]
  · rw [State.get_set_ne (f := Reg.SEAM_STATUS_ghost q.1 q.2) (g := Reg.SEAM_STATUS_state r i) _ _ h, hu]

/-! ### Sensors and thermal steps (R405, R406) -/

section Sense
variable (s : State) (g : Nat) (t : Int)

theorem State.senseTemp_reg {o : Nat} (h : o ≠ (Reg.REGION_THERMAL_temp g).off) : (s.senseTemp g t).reg o = s.reg o := State.reg_set_ne _ _ _ h

theorem State.tstate_senseTemp : (s.senseTemp g t).tstate g = s.tstate g :=
  State.get_set_disjoint (f := Reg.REGION_THERMAL_temp g) (g := Reg.REGION_THERMAL_tstate g) _ _ rfl (by simp [Reg.REGION_THERMAL_tstate])
    (.inl (by simp [Reg.REGION_THERMAL_tstate, Reg.REGION_THERMAL_temp]))

theorem State.lost_senseTemp : (s.senseTemp g t).flag (Reg.REGION_THERMAL_lost g) = s.flag (Reg.REGION_THERMAL_lost g) :=
  congrArg (· != 0) (State.get_set_disjoint (f := Reg.REGION_THERMAL_temp g) (g := Reg.REGION_THERMAL_lost g) _ _ rfl (by simp [Reg.REGION_THERMAL_lost])
    (.inl (by simp [Reg.REGION_THERMAL_lost, Reg.REGION_THERMAL_temp])))

theorem State.isIn_senseTemp (p : PState) : (s.senseTemp g t).isIn p = s.isIn p :=
  State.isIn_of_reg (s.senseTemp_reg g t (by simp only [Reg.PANEL_STATE_state, Reg.REGION_THERMAL_temp, winBase]; omega)) p

theorem State.step_senseTemp : ((s.senseTemp g t).thermal g).step = (s.thermal g).step := by
  rw [State.senseTemp, State.thermal_modTherm_self]
  rfl

end Sense

section Steps
variable {g : Nat} {temp : Int} {s : State}

theorem exec_thermalStepUp (hg : regionValid g = true) (hp : s.powered = true) (ht : s.tstate g < 2) :
    (760 ≤ temp → s.temp g < 760 ∨ (s.thermal g).stepAt + 100000 ≤ s.now → (s.thermal g).step < 12 → exec (.thermalStepUp g temp) s =
      .next (if s.tstate g = 0 then ((s.senseTemp g temp).modTherm g fun x => { x with step := x.step + 1, stepAt := s.now }).dim g
        else (s.senseTemp g temp).modTherm g fun x => { x with step := x.step + 1, stepAt := s.now })) ∧
    ((temp < 760 ∨ ¬(s.temp g < 760 ∨ (s.thermal g).stepAt + 100000 ≤ s.now) ∨ 12 ≤ (s.thermal g).step) →
      exec (.thermalStepUp g temp) s = .next (s.senseTemp g temp)) := by
  have hst : ∀ f, ((s.senseTemp g temp).modTherm g f).tstate g = s.tstate g := fun _ => s.tstate_senseTemp g temp
  have hnow : (s.senseTemp g temp).now = s.now := rfl
  have hif : (decide (760 ≤ temp) && (decide (s.temp g < 760) || decide ((s.thermal g).stepAt + 100000 ≤ s.now)) &&
      decide ((s.thermal g).step < 12)) = true ↔ 760 ≤ temp ∧ (s.temp g < 760 ∨ (s.thermal g).stepAt + 100000 ≤ s.now) ∧ (s.thermal g).step < 12 := by
    simp only [Bool.and_eq_true, Bool.or_eq_true, decide_eq_true_eq, and_assoc]
  change (_ → _ → _ → execThermalStepUp g temp s = _) ∧ (_ → execThermalStepUp g temp s = _)
  rw [execThermalStepUp, onRegion_of_valid hg, hp, decide_eq_true ht, Bool.and_self, if_pos rfl]
  dsimp only
  rw [State.step_senseTemp, hst, hnow]
  refine ⟨fun h1 h2 h3 => ?_, fun h => ?_⟩
  · rw [if_pos (hif.2 ⟨h1, h2, h3⟩)]
  · rw [if_neg (fun h' => ?_)]
    obtain ⟨h1, h2, h3⟩ := hif.1 h'
    obtain h | h | h := h
    · omega
    · exact h h2
    · omega

theorem exec_thermalStepDown (hg : regionValid g = true) (hp : s.powered = true) (ht : s.tstate g < 2) :
    (temp < 736 → (s.thermal g).stepAt + 1000000 ≤ s.now → 0 < (s.thermal g).step → exec (.thermalStepDown g temp) s =
      .next (if (s.thermal g).step = 1 then ((s.senseTemp g temp).modTherm g fun x => { x with step := x.step - 1, stepAt := s.now }).set
        (Reg.REGION_THERMAL_tstate g) 0 else (s.senseTemp g temp).modTherm g fun x => { x with step := x.step - 1, stepAt := s.now })) ∧
    ((736 ≤ temp ∨ s.now < (s.thermal g).stepAt + 1000000 ∨ (s.thermal g).step = 0) →
      exec (.thermalStepDown g temp) s = .next (s.senseTemp g temp)) := by
  have hnow : (s.senseTemp g temp).now = s.now := rfl
  have hif : (decide (temp < 736) && decide ((s.thermal g).stepAt + 1000000 ≤ s.now) && decide (0 < (s.thermal g).step)) = true ↔
      temp < 736 ∧ (s.thermal g).stepAt + 1000000 ≤ s.now ∧ 0 < (s.thermal g).step := by
    simp only [Bool.and_eq_true, decide_eq_true_eq, and_assoc]
  have hstep : (((s.senseTemp g temp).modTherm g fun x => { x with step := x.step - 1, stepAt := s.now }).thermal g).step = (s.thermal g).step - 1 := by
    rw [State.thermal_modTherm_self]
    exact congrArg (· - 1) (s.step_senseTemp g temp)
  change (_ → _ → _ → execThermalStepDown g temp s = _) ∧ (_ → execThermalStepDown g temp s = _)
  rw [execThermalStepDown, onRegion_of_valid hg, hp, decide_eq_true ht, Bool.and_self, if_pos rfl]
  dsimp only
  rw [State.step_senseTemp, hnow, hstep]
  refine ⟨fun h1 h2 h3 => ?_, fun h => ?_⟩
  · rw [if_pos (hif.2 ⟨h1, h2, h3⟩)]
    exact congrArg Host.Outcome.next (if_congr (by omega) rfl rfl)
  · rw [if_neg (fun h' => ?_)]
    obtain ⟨h1, h2, h3⟩ := hif.1 h'
    omega

end Steps

/-! ### GHOST and CUT (R405, R407, R408) -/

section Dark
variable {g : Nat} {temp : Int} {s : State}

theorem exec_ghostEntry (hg : regionValid g = true) (hp : s.powered = true) (working : Nat) (ht : s.tstate g < 2) :
    (working % 256 = 0 → exec (.ghostEntry g temp working) s = .next ((s.set (Reg.REGION_THERMAL_sensors_ok g) working).ghost g)) ∧
    (working % 256 ≠ 0 → 920 ≤ temp → exec (.ghostEntry g temp working) s =
      .next (((s.set (Reg.REGION_THERMAL_sensors_ok g) working).senseTemp g temp).cut g)) ∧
    (working % 256 ≠ 0 → temp < 920 → (840 ≤ temp ∨ ((((s.set (Reg.REGION_THERMAL_sensors_ok g) working).senseTemp g temp).thermal g).hotAt.any
        fun t => decide (t + 100000000 ≤ s.now)) = true) → exec (.ghostEntry g temp working) s =
      .next (((s.set (Reg.REGION_THERMAL_sensors_ok g) working).senseTemp g temp).ghost g)) ∧
    (working % 256 ≠ 0 → temp < 840 → ((((s.set (Reg.REGION_THERMAL_sensors_ok g) working).senseTemp g temp).thermal g).hotAt.any
        fun t => decide (t + 100000000 ≤ s.now)) = false → exec (.ghostEntry g temp working) s =
      .next ((s.set (Reg.REGION_THERMAL_sensors_ok g) working).senseTemp g temp)) := by
  change (_ → execGhostEntry g temp working s = _) ∧ (_ → _ → execGhostEntry g temp working s = _) ∧
    (_ → _ → _ → execGhostEntry g temp working s = _) ∧ (_ → _ → _ → execGhostEntry g temp working s = _)
  rw [execGhostEntry, onRegion_of_valid hg, hp, decide_eq_true ht, Bool.and_self, if_pos rfl]
  dsimp only
  have hnow : ((s.set (Reg.REGION_THERMAL_sensors_ok g) working).senseTemp g temp).now = s.now := rfl
  rw [hnow]
  generalize (s.set (Reg.REGION_THERMAL_sensors_ok g) working).senseTemp g temp = v
  refine ⟨fun h0 => by rw [if_pos h0], fun h0 h1 => by rw [if_neg h0, if_pos h1], fun h0 h1 h2 => ?_, fun h0 h1 h2 => ?_⟩
  · rw [if_neg h0, if_neg (by omega), if_pos (by rw [Bool.or_eq_true, decide_eq_true_eq]; exact h2)]
  · rw [if_neg h0, if_neg (by omega), h2, Bool.or_false, if_neg (by rw [decide_eq_true_eq]; omega)]

theorem exec_cutEntry (hg : regionValid g = true) (hp : s.powered = true) (ht : s.tstate g < 3) (h : 920 ≤ temp) :
    exec (.cutEntry g temp) s = .next ((s.senseTemp g temp).cut g) := by
  change execCutEntry g temp s = _
  rw [execCutEntry, onRegion_of_valid hg, hp, decide_eq_true ht, Bool.and_self, if_pos rfl]
  exact congrArg Host.Outcome.next (if_pos h)

theorem exec_regulatorFault (hg : regionValid g = true) (hp : s.powered = true) (ht : s.tstate g < 3) (h : s.power.regFault.contains g = false) :
    exec (.regulatorFault g) s = .next (State.cut (s.modPower fun p => { p with regFault := NSet.add p.regFault g }) g) := by
  change execRegulatorFault g s = _
  rw [execRegulatorFault, onRegion_of_valid hg, hp, h, Bool.not_false, Bool.and_self, when_true]
  exact congrArg Host.Outcome.next (if_pos ht)

/-- A region that went dark: counted, told and reported. -/
theorem State.wentDark_tells {s : State} (hb : s.isIn .bringup = false) (g : Nat) :
    (s.wentDark g).tstate g = s.tstate g ∧ ⟨dieUnit g, 0, 9, faultWay 12 (gOf (dieUnit g))⟩ ∈ (s.wentDark g).mesh.reports ∧
    bitAt ((s.wentDark g).get Reg.EVENT_STATUS_events) Ev.thermal.bit = true ∧ (s.wentDark g).mem = s.mem ∧ (s.wentDark g).cells = s.cells ∧
    (s.wentDark g).mesh.xr = s.mesh.xr ∧ ∀ r i, i < 12 → (s.wentDark g).get (Reg.SEAM_STATUS_state r i) = s.get (Reg.SEAM_STATUS_state r i) := by
  have hreg : ∀ o, o ≠ 0x10000 → o ≠ (Reg.REGION_THERMAL_dark_count g).off → ((s.inc (Reg.REGION_THERMAL_dark_count g)).raise .thermal).reg o = s.reg o :=
    fun o he ho => (State.reg_raise_ne _ he).trans (State.reg_set_ne _ _ _ ho)
  have hb' : ((s.inc (Reg.REGION_THERMAL_dark_count g)).raise .thermal).isIn .bringup = false := (State.isIn_of_reg (hreg _ (by decide)
    (by simp only [Reg.PANEL_STATE_state, Reg.REGION_THERMAL_dark_count, winBase]; omega)) _).trans hb
  have htst : ((s.inc (Reg.REGION_THERMAL_dark_count g)).raise .thermal).get (Reg.REGION_THERMAL_tstate g) = s.get (Reg.REGION_THERMAL_tstate g) :=
    (State.get_of_reg (State.reg_raise_ne _ (by simp only [Reg.REGION_THERMAL_tstate, Reg.EVENT_STATUS_events, winBase]; omega))).trans
      (State.get_set_disjoint (f := Reg.REGION_THERMAL_dark_count g) (g := Reg.REGION_THERMAL_tstate g) _ _ rfl (by simp [Reg.REGION_THERMAL_tstate])
        (.inl (by simp [Reg.REGION_THERMAL_tstate, Reg.REGION_THERMAL_dark_count])))
  have hev := State.events_raise (s.inc (Reg.REGION_THERMAL_dark_count g)) .thermal
  have hmem := (State.raise_mem (s.inc (Reg.REGION_THERMAL_dark_count g)) .thermal).trans (State.inc_mem _ _ _)
  have hcells := (State.raise_cells (s.inc (Reg.REGION_THERMAL_dark_count g)) .thermal).trans (State.inc_cells _ _ _)
  have hmesh := (State.raise_mesh (s.inc (Reg.REGION_THERMAL_dark_count g)) .thermal).trans (State.inc_mesh _ _ _)
  have hseam : ∀ r i, i < 12 → ((s.inc (Reg.REGION_THERMAL_dark_count g)).raise .thermal).get (Reg.SEAM_STATUS_state r i) = s.get (Reg.SEAM_STATUS_state r i) := fun r i hi =>
    State.get_of_reg (hreg _ (by simp only [Reg.SEAM_STATUS_state, winBase]; omega)
      (by simp only [Reg.SEAM_STATUS_state, Reg.REGION_THERMAL_dark_count, winBase]; omega))
  rw [State.wentDark]
  generalize (s.inc (Reg.REGION_THERMAL_dark_count g)).raise .thermal = u at *
  rw [if_neg (ne_true_of_eq_false hb')]
  exact ⟨htst, List.mem_append_right _ (.head _), hev, hmem, hcells, show u.mesh.xr = s.mesh.xr from congrArg _ hmesh, hseam⟩

/-- Only links, crossings and registers change between two states. -/
def SameButLinks (s t : State) : Prop := t.mem = s.mem ∧ t.cells = s.cells

theorem SameButLinks.trans {s t u : State} (h : SameButLinks s t) (h' : SameButLinks t u) : SameButLinks s u := ⟨h'.1.trans h.1, h'.2.trans h.2⟩

/-- A dark region shows it at its links, and tells. -/
theorem State.showsDark {s : State} (hb : s.isIn .bringup = false) (g : Nat) :
    ((s.showGhost g).wentDark g).tstate g = s.tstate g ∧
    ⟨dieUnit g, 0, 9, faultWay 12 (gOf (dieUnit g))⟩ ∈ ((s.showGhost g).wentDark g).mesh.reports ∧
    bitAt (((s.showGhost g).wentDark g).get Reg.EVENT_STATUS_events) Ev.thermal.bit = true ∧ SameButLinks s ((s.showGhost g).wentDark g) ∧
    (∀ b d, ((s.showGhost g).wentDark g).linkState b d = s.linkState b d) ∧ ∀ b, ((s.showGhost g).wentDark g).xr b = s.xr b := by
  have htst : (s.showGhost g).tstate g = s.tstate g := State.get_of_reg (State.reg_showGhost (offSeams_thermal g) _ _)
  have hb' : (s.showGhost g).isIn .bringup = false := (State.isIn_of_reg (State.reg_showGhost (offSeams_low (by decide)) _ _) _).trans hb
  have hlinks : ∀ b d, (s.showGhost g).linkState b d = s.linkState b d := fun b d => State.get_showGhost_state s g _ _
  have hshow := State.showGhost_eq s g
  have hsame : SameButLinks s (s.showGhost g) := by
    rw [hshow]
    exact ⟨rfl, rfl⟩
  have hxr : (s.showGhost g).mesh.xr = s.mesh.xr := by rw [hshow]
  clear hshow
  generalize s.showGhost g = w at *
  obtain ⟨ht, hr, he, hm, hc, hx, hl⟩ := State.wentDark_tells hb' g
  exact ⟨ht.trans htst, hr, he, hsame.trans ⟨hm, hc⟩, fun b d => (hl _ _ (seamLink_lt b d)).trans (hlinks b d),
    fun b => congrArg (fun m => SMap.getD m b XrSt.init) (hx.trans hxr)⟩

theorem State.ghost_dark {s : State} (hb : s.isIn .bringup = false) (g : Nat) :
    (s.ghost g).tstate g = 2 ∧ ⟨dieUnit g, 0, 9, faultWay 12 (gOf (dieUnit g))⟩ ∈ (s.ghost g).mesh.reports ∧
    bitAt ((s.ghost g).get Reg.EVENT_STATUS_events) Ev.thermal.bit = true ∧ SameButLinks s (s.ghost g) := by
  have hdark : SameButLinks s ((s.clockMark g).set (Reg.REGION_THERMAL_tstate g) 2) := ⟨rfl, rfl⟩
  have htst : ((s.clockMark g).set (Reg.REGION_THERMAL_tstate g) 2).tstate g = 2 := State.get_set_self _ _ _ (by simp [Reg.REGION_THERMAL_tstate])
  have hstart : ((s.clockMark g).set (Reg.REGION_THERMAL_tstate g) 2).isIn .bringup = false :=
    (State.isIn_of_reg (State.reg_set_ne _ _ _ (by simp only [Reg.PANEL_STATE_state, Reg.REGION_THERMAL_tstate, winBase]; omega)) _).trans hb
  rw [State.ghost]
  generalize (s.clockMark g).set (Reg.REGION_THERMAL_tstate g) 2 = r at *
  obtain ⟨ht, hr, he, hm, -, -⟩ := State.showsDark hstart g
  exact ⟨ht.trans htst, hr, he, hdark.trans hm⟩

/-! ### CUT takes down the region's links and empties its crossings -/

/-- A crossing that holds no flit. -/
def XrSt.Empty (x : XrSt) : Prop := x.stages = [] ∧ x.vc1 = [] ∧ x.vc2 = [] ∧ x.vc3 = []

theorem XrSt.Empty.dropOutput {x : XrSt} (h : x.Empty) (d : Nat) : (x.dropOutput d).1.Empty := by
  obtain ⟨h0, h1, h2, h3⟩ := h
  refine ⟨?_, ?_, h2, h3⟩
  · rw [XrSt.dropOutput]
    dsimp only
    rw [h0]
    rfl
  · rw [XrSt.dropOutput]
    dsimp only
    rw [h1]
    rfl

/-- What the cut of one link leaves: crossings that are empty stay so. -/
theorem State.cutLink_leaves (s : State) (b d : Nat) :
    SameButLinks s (s.cutLink b d) ∧ (∀ c, (s.xr c).Empty → ((s.cutLink b d).xr c).Empty) ∧
    ∀ o, (∀ n, o ≠ (Reg.XR_COUNTS_unroutable_count n).off) → (s.cutLink b d).reg o = (s.setLink b d 5).reg o := by
  have hlink : s.setLink b d 5 = { s with regs := (s.setLink b d 5).regs } := setSeams_eq _ _ _ _ _
  have hsame : SameButLinks s (s.setLink b d 5) := by
    rw [hlink]
    exact ⟨rfl, rfl⟩
  have hxr : ∀ c, (s.setLink b d 5).xr c = s.xr c := fun c => by
    rw [hlink]
    rfl
  rw [State.cutLink]
  generalize s.setLink b d 5 = u at hsame hxr
  dsimp only
  have hwire : ∀ (v : State) (k : Nat) (c : Nat), (v.modWire k WireSt.emptied).xr c = v.xr c := fun _ _ _ => rfl
  split
  · next n _ =>
    refine ⟨hsame.trans ⟨rfl, rfl⟩, fun c hc => ?_, fun o ho => State.reg_set_ne _ _ _ (ho n)⟩
    have hc' : ((u.modWire (b * 4 + d) WireSt.emptied).xr c).Empty := by
      rw [hwire, hxr]
      exact hc
    have hinc : ∀ (v : State) (f : RF) (k : Nat), (v.inc f k).xr c = v.xr c := fun _ _ _ => rfl
    rw [hinc]
    by_cases h : c = n
    · rw [h, State.xr_modXr_self]
      rw [h] at hc'
      exact (hc'.dropOutput _).dropOutput _
    · rw [State.xr_modXr_ne _ _ h, hwire]
      exact hc'
  · split
    · refine ⟨hsame.trans ⟨rfl, rfl⟩, fun c hc => ?_, fun o _ => rfl⟩
      rw [hwire, hwire, hxr]
      exact hc
    · refine ⟨hsame.trans ⟨rfl, rfl⟩, fun c hc => ?_, fun o _ => rfl⟩
      rw [hwire, hxr]
      exact hc

theorem unroutable_ne_state {r i : Nat} (hi : i < 12) (n : Nat) : (Reg.SEAM_STATUS_state r i).off ≠ (Reg.XR_COUNTS_unroutable_count n).off := by
  have := bkB_lt n
  simp only [Reg.SEAM_STATUS_state, Reg.XR_COUNTS_unroutable_count, winBase]
  omega

theorem State.get_setState (s : State) (q : Nat × Nat) (r i : Nat) :
    ((s.set (Reg.SEAM_STATUS_state q.1 q.2) 5).get (Reg.SEAM_STATUS_state r i) = 5 ∨
      (Reg.SEAM_STATUS_state r i).off ≠ (Reg.SEAM_STATUS_state q.1 q.2).off ∧
      (s.set (Reg.SEAM_STATUS_state q.1 q.2) 5).get (Reg.SEAM_STATUS_state r i) = s.get (Reg.SEAM_STATUS_state r i)) := by
  by_cases h : (Reg.SEAM_STATUS_state r i).off = (Reg.SEAM_STATUS_state q.1 q.2).off
  · have hf : Reg.SEAM_STATUS_state r i = Reg.SEAM_STATUS_state q.1 q.2 := by
      simpa [Reg.SEAM_STATUS_state] using h
    rw [hf, State.get_set_self _ _ _ (by simp [Reg.SEAM_STATUS_state])]
    exact .inl rfl
  · exact .inr ⟨h, State.get_set_ne (f := Reg.SEAM_STATUS_state q.1 q.2) (g := Reg.SEAM_STATUS_state r i) _ _ h⟩

theorem get_setStates_keeps (l : List (Nat × Nat)) (r i : Nat) {s : State} (h : s.get (Reg.SEAM_STATUS_state r i) = 5) :
    (l.foldl (fun s q => s.set (Reg.SEAM_STATUS_state q.1 q.2) 5) s).get (Reg.SEAM_STATUS_state r i) = 5 :=
  List.foldlRecOn (motive := fun t : State => t.get (Reg.SEAM_STATUS_state r i) = 5) l _ h fun t ht q _ => by
    obtain h | ⟨-, h⟩ := State.get_setState t q r i
    · exact h
    · exact h.trans ht

/-- A link that is cut is down, and stays down as the others are cut. -/
theorem State.linkState_setLink_down (s : State) (b d : Nat) : (s.setLink b d 5).linkState b d = 5 := by
  rw [State.setLink, seamRegs, List.foldl_cons, State.linkState]
  refine get_setStates_keeps _ _ _ ?_
  obtain h | ⟨h, -⟩ := State.get_setState s (bkG b, seamLink b d) (bkG b) (seamLink b d)
  · exact h
  · exact absurd rfl h

theorem State.linkState_cutLink_self (s : State) (b d : Nat) : (s.cutLink b d).linkState b d = 5 :=
  (State.get_of_reg ((s.cutLink_leaves b d).2.2 _ (unroutable_ne_state (seamLink_lt b d)))).trans (s.linkState_setLink_down b d)

theorem State.linkState_cutLink_down {s : State} {b d : Nat} (h : s.linkState b d = 5) (p : Nat × Nat) : (s.cutLink p.1 p.2).linkState b d = 5 :=
  (State.get_of_reg ((s.cutLink_leaves p.1 p.2).2.2 _ (unroutable_ne_state (seamLink_lt b d)))).trans (get_setStates_keeps _ _ _ h)

/-- After the cut of a list of links each of them is down. -/
theorem State.cutLinks_down (l : List (Nat × Nat)) (s : State) :
    ∀ p, (p ∈ l ∨ s.linkState p.1 p.2 = 5) → (l.foldl (fun s p => s.cutLink p.1 p.2) s).linkState p.1 p.2 = 5 := by
  induction l generalizing s with
  | nil => exact fun p hp => hp.resolve_left (by simp)
  | cons q l ih =>
    refine fun p hp => ih _ p ?_
    obtain hp | hp := hp
    · obtain rfl | hp := List.mem_cons.1 hp
      · exact .inr (s.linkState_cutLink_self p.1 p.2)
      · exact .inl hp
    · exact .inr (State.linkState_cutLink_down hp q)

theorem State.reg_cutLink {o : Nat} (ho : OffSeams o) (s : State) (b d : Nat) : (s.cutLink b d).reg o = s.reg o := by
  refine ((s.cutLink_leaves b d).2.2 o fun n => ?_).trans (reg_setSeams ho (fun _ _ => rfl) _ _ _ s)
  have hn := bkB_lt n
  have hne := ho (bkG n) (0xE100 + bkB n * 0x10) (by omega) (by omega)
  simp only [Reg.XR_COUNTS_unroutable_count]
  omega

theorem State.emptied_crossings (l : List Nat) (s : State) :
    ∀ b, (b ∈ l ∨ (s.xr b).Empty) → ((l.foldl (fun s b => s.modXr b XrSt.emptied) s).xr b).Empty := by
  induction l generalizing s with
  | nil => exact fun p hp => hp.resolve_left (by simp)
  | cons c l ih =>
    refine fun b hb => ih _ b ?_
    by_cases h : b = c
    · rw [h, State.xr_modXr_self]
      exact .inr ⟨rfl, rfl, rfl, rfl⟩
    · rw [State.xr_modXr_ne _ _ h]
      exact hb.imp_left fun hb => (List.mem_cons.1 hb).resolve_left h

/-- What the emptied crossings of a region leave. -/
theorem State.emptied_leaves (l : List Nat) (s : State) : SameButLinks s (l.foldl (fun s b => s.modXr b XrSt.emptied) s) ∧
    ∀ o, (l.foldl (fun s b => s.modXr b XrSt.emptied) s).reg o = s.reg o := by
  refine ⟨?_, fun o => foldl_reg (f := fun s b => s.modXr b XrSt.emptied) (fun _ _ => rfl) l s⟩
  exact List.foldlRecOn (motive := fun t : State => SameButLinks s t) l _ ⟨rfl, rfl⟩ fun t ht _ _ => ht.trans ⟨rfl, rfl⟩

/-- What the cut of links leaves. -/
theorem State.cutLinks_leave (l : List (Nat × Nat)) (s : State) : SameButLinks s (l.foldl (fun s p => s.cutLink p.1 p.2) s) ∧
    (∀ b, (s.xr b).Empty → ((l.foldl (fun s p => s.cutLink p.1 p.2) s).xr b).Empty) ∧
    ∀ o, OffSeams o → (l.foldl (fun s p => s.cutLink p.1 p.2) s).reg o = s.reg o := by
  refine ⟨?_, fun b h => ?_, fun o ho => foldl_reg (fun t p => State.reg_cutLink ho t p.1 p.2) l s⟩
  · exact List.foldlRecOn (motive := fun t : State => SameButLinks s t) l _ ⟨rfl, rfl⟩ fun t ht p _ => ht.trans (t.cutLink_leaves p.1 p.2).1
  · exact List.foldlRecOn (motive := fun t : State => (t.xr b).Empty) l _ h fun t ht p _ => (t.cutLink_leaves p.1 p.2).2.1 b ht

theorem State.cut_dark {s : State} (hb : s.isIn .bringup = false) (g : Nat) :
    (s.cut g).tstate g = 3 ∧ ⟨dieUnit g, 0, 9, faultWay 12 (gOf (dieUnit g))⟩ ∈ (s.cut g).mesh.reports ∧
    bitAt ((s.cut g).get Reg.EVENT_STATUS_events) Ev.thermal.bit = true ∧ SameButLinks s (s.cut g) ∧
    (∀ p ∈ regionLinks g, (s.cut g).linkState p.1 p.2 = 5) ∧ ∀ b ∈ regionBlocks g, ((s.cut g).xr b).Empty := by
  have hdark : SameButLinks s ((s.clockMark g).set (Reg.REGION_THERMAL_tstate g) 3) := ⟨rfl, rfl⟩
  have htst : ((s.clockMark g).set (Reg.REGION_THERMAL_tstate g) 3).tstate g = 3 := State.get_set_self _ _ _ (by simp [Reg.REGION_THERMAL_tstate])
  have hstart : ((s.clockMark g).set (Reg.REGION_THERMAL_tstate g) 3).isIn .bringup = false :=
    (State.isIn_of_reg (State.reg_set_ne _ _ _ (by simp only [Reg.PANEL_STATE_state, Reg.REGION_THERMAL_tstate, winBase]; omega)) _).trans hb
  rw [State.cut]
  generalize (s.clockMark g).set (Reg.REGION_THERMAL_tstate g) 3 = r at *
  -- the crossings of the region lose what they hold
  have hempty := State.emptied_crossings (regionBlocks g) r
  obtain ⟨hsame, hreg⟩ := State.emptied_leaves (regionBlocks g) r
  generalize (regionBlocks g).foldl (fun s b => s.modXr b XrSt.emptied) r = u at *
  -- its links go down, one after the other
  have hdown := State.cutLinks_down (regionLinks g) u
  obtain ⟨hcut, hxr, hkept⟩ := State.cutLinks_leave (regionLinks g) u
  generalize (regionLinks g).foldl (fun s p => s.cutLink p.1 p.2) u = v at *
  -- and the region shows as dark
  have hvb : v.isIn .bringup = false :=
    (State.isIn_of_reg ((hkept _ (offSeams_low (by decide))).trans (hreg _)) _).trans hstart
  have hvt : v.tstate g = 3 := (State.get_of_reg ((hkept _ (offSeams_thermal g)).trans (hreg _))).trans htst
  obtain ⟨ht, hr, he, hm, hl, hx⟩ := State.showsDark hvb g
  exact ⟨ht.trans hvt, hr, he, hdark.trans (hsame.trans (hcut.trans hm)), fun p hp => (hl _ _).trans (hdown p (.inl hp)),
    fun b hb => (hx b).symm ▸ hxr b (hempty b (.inl hb))⟩

end Dark

/-! ### Return (R409) -/

section Return
variable {g : Nat} {temp : Int} {s : State}

theorem State.mayReturn_senseTemp (hp : s.powered = true) (hr : s.isIn .recovering = false) (hl : s.flag (Reg.REGION_THERMAL_lost g) = false)
    (hf : s.power.regFault.contains g = false) (ns : Nat) :
    (s.senseTemp g temp).mayReturn g ns = ((s.senseTemp g temp).thermal g).coolAt.any fun t => decide (t + ns ≤ s.now) := by
  have hp' : (s.senseTemp g temp).powered = true := by
    rw [State.powered, State.isIn_senseTemp, State.isIn_senseTemp]
    exact hp
  have hf' : (s.senseTemp g temp).power.regFault.contains g = false := hf
  have hnow : (s.senseTemp g temp).now = s.now := rfl
  rw [State.mayReturn, hp', State.isIn_senseTemp, hr, State.lost_senseTemp, hl, hf', hnow]
  rfl

theorem exec_cutExit (hg : regionValid g = true) (hp : s.powered = true) (ht : s.tstate g = 3) :
    exec (.cutExit g temp) s = .next (if (s.senseTemp g temp).mayReturn g 1000000000 = true then
      (((((s.senseTemp g temp).set (Reg.REGION_THERMAL_tstate g) 2).inc (Reg.REGION_THERMAL_dark_count g)).restoreLinks g).showGhost g).raise .thermal
      else s.senseTemp g temp) := by
  change execCutExit g temp s = _
  rw [execCutExit, onRegion_of_valid hg, hp, beq_iff_eq.2 ht, Bool.and_self, if_pos rfl]

theorem exec_ghostExit (hg : regionValid g = true) (hp : s.powered = true) (ht : s.tstate g = 2) :
    exec (.ghostExit g temp) s = .next (if (s.senseTemp g temp).mayReturn g 100000000 = true then (s.senseTemp g temp).light g
      else s.senseTemp g temp) := by
  change execGhostExit g temp s = _
  rw [execGhostExit, onRegion_of_valid hg, hp, beq_iff_eq.2 ht, Bool.and_self, if_pos rfl]

/-- The strike of a cell that returns writes its own register alone. -/
theorem State.reg_strikeReturn_thermal (s : State) (g c : Nat) :
    (s.strikeReturn c).reg (Reg.REGION_THERMAL_tstate g).off = s.reg (Reg.REGION_THERMAL_tstate g).off := by
  have hb : bOf c < 8 := bits_lt c 5 3
  have hc : cOf c < 8 := bits_lt c 0 3
  have hne : (Reg.REGION_THERMAL_tstate g).off ≠ (Reg.CELL_EPOCH_epoch c).off := by
    simp only [Reg.REGION_THERMAL_tstate, Reg.CELL_EPOCH_epoch, winBase]
    omega
  have hstrike : (s.strikeCell c).regs = s.regs := (State.modCell_regs ..).trans (State.clearMem_regs ..)
  rw [State.strikeReturn, State.wrap, State.wrap, State.reg_set_ne _ (Reg.CELL_EPOCH_return_count c) _ hne, State.reg_set_ne _ _ _ hne, State.reg,
    State.reg, hstrike]

/-- A region that lights is DIMMED and starts at code 12. -/
theorem State.light_dimmed (s : State) (g : Nat) : (s.light g).tstate g = 1 ∧ (s.light g).get (Reg.REGION_THERMAL_fstep g) = 12 := by
  have hdim : (((s.clockMark g).dim g).modTherm g fun x => { x with step := 12, stepAt := s.now }).get (Reg.REGION_THERMAL_tstate g) = 1 :=
    (State.get_set_disjoint (f := Reg.REGION_THERMAL_dim_count g) (g := Reg.REGION_THERMAL_tstate g) ((s.clockMark g).set (Reg.REGION_THERMAL_tstate g) 1) _ rfl
      (by simp [Reg.REGION_THERMAL_tstate]) (.inl (by simp [Reg.REGION_THERMAL_tstate, Reg.REGION_THERMAL_dim_count]))).trans
      (State.get_set_self _ _ _ (by simp [Reg.REGION_THERMAL_tstate]))
  rw [State.light]
  generalize ((s.clockMark g).dim g).modTherm g _ = u at hdim
  have hstruck : ((regionCells g).foldl State.strikeReturn u).get (Reg.REGION_THERMAL_tstate g) = 1 :=
    (State.get_of_reg (foldl_reg (fun s c => s.reg_strikeReturn_thermal g c) _ u)).trans hdim
  generalize (regionCells g).foldl State.strikeReturn u = v at hstruck
  have hraise : ∀ (w : State) (f : RF), f.off = (Reg.REGION_THERMAL_tstate g).off → ((w.showGhost g).raise .thermal).get f = w.get f := fun w f hf => by
    rw [State.get_of_reg (State.reg_raise_ne _ (by rw [hf]; simp only [Reg.REGION_THERMAL_tstate, Reg.EVENT_STATUS_events, winBase]; omega)),
      State.get_of_reg (State.reg_showGhost (by rw [hf]; exact offSeams_thermal g) _ _)]
  rw [State.tstate, hraise _ (Reg.REGION_THERMAL_tstate g) rfl, hraise _ (Reg.REGION_THERMAL_fstep g) rfl]
  refine ⟨?_, State.get_set_self _ _ _ (by simp [Reg.REGION_THERMAL_fstep])⟩
  rw [State.get_set_disjoint (f := Reg.REGION_THERMAL_fstep g) (g := Reg.REGION_THERMAL_tstate g) _ _ rfl (by simp [Reg.REGION_THERMAL_tstate])
    (.inl (by simp [Reg.REGION_THERMAL_tstate, Reg.REGION_THERMAL_fstep]))]
  exact hstruck

theorem exec_regionControllerUnreachable (hg : regionValid g = true) (hf : s.firmware = true) (hb : s.isIn .bringup = false)
    (hu : s.maps.unreached.contains g = false) {v : State} (hv : (if (s.modMaps fun m => { m with unreached := NSet.add m.unreached g }).spareMode = true then
      (s.modMaps fun m => { m with unreached := NSet.add m.unreached g }).set (Reg.REGION_THERMAL_lost g) 1
      else s.modMaps fun m => { m with unreached := NSet.add m.unreached g }) = v) :
    exec (.regionControllerUnreachable g) s = .next (if v.regionUsed g = true then v.fenceRoute else v) := by
  change execRegionControllerUnreachable g s = _
  rw [execRegionControllerUnreachable, onRegion_of_valid hg, hf, hb, hu, Bool.not_false, Bool.and_self, Bool.and_self, when_true]
  rw [← hv]
  rfl

theorem exec_regionReturnDone (hg : regionValid g = true) {q : Nat × Nat × Option Nat} (fails : List RehearsalFail)
    (hq : (s.host.requal.find? fun q => q.1 == g) = some q) (hin : s.isIn .ready = true ∨ s.isIn .running = true)
    (hp : ∀ p ∈ s.placed, gOf (bits p.2 0 16) ≠ g) :
    exec (.regionReturnDone g true fails) s = .next ((s.returnRegion g fails).requalEnds q .ok) ∧
      exec (.regionReturnDone g false fails) s = .next (s.requalEnds q .fenced) := by
  have hany : (s.placed.any fun p => gOf (bits p.2 0 16) == g) = false := List.any_eq_false.2 fun p hm => by simpa using hp p hm
  have hif : ¬ (!(s.isIn .ready || s.isIn .running) || s.placed.any fun p => gOf (bits p.2 0 16) == g) = true := by
    rw [hany, (Bool.or_eq_true _ _).mpr hin]
    decide
  change execRegionReturnDone g true fails s = _ ∧ execRegionReturnDone g false fails s = _
  rw [execRegionReturnDone, execRegionReturnDone, onRegion_of_valid hg, onRegion_of_valid hg, hq]
  dsimp only
  rw [if_neg hif, if_pos rfl, if_neg hif, if_neg Bool.false_ne_true]
  exact ⟨rfl, rfl⟩

end Return

/-! ### REQUALIFY (R370, R371) -/

theorem State.candidate_fixed {s : State} {e : MapEnt} (h : s.maps.fixed e = true) : s.candidate e = none := by
  rw [State.candidate, if_pos (.inl h)]

/-- The field map that is written is the one in use. -/
theorem State.field_writeField (s : State) (es : List MapEnt) : (s.writeField es).maps.field = es := by
  rw [State.writeField, State.modMaps]
  dsimp only
  split
  · next h =>
    have hB : ¬ ((!true) = true ∨ max (if s.maps.copyA.ok = true then s.maps.copyA.seq else 0) (if s.maps.copyB.ok = true then s.maps.copyB.seq else 0) + 1
        ≤ s.maps.copyA.seq) := by
      rw [if_pos h.1]
      simp
    rw [MapSt.field]
    dsimp only
    rw [if_neg (fun h' => hB h'.2), if_pos rfl]
  · next h =>
    rw [MapSt.field]
    dsimp only
    refine if_pos ⟨rfl, ?_⟩
    by_cases hB : s.maps.copyB.ok = true
    · rw [if_pos hB]
      exact .inr (by omega)
    · exact .inl (by simpa using hB)

theorem State.candidate_marked {s t : State} {e : MapEnt} (hf : s.maps.fixed e = false) (hn : s.maps.field.any e.names = true)
    (h : s.candidate e = some t) : t.maps.field = s.maps.field.map fun f => if f.names e then { f with candidate := true, passes := 0 } else f := by
  rw [State.candidate, if_neg (by rw [hf, hn]; decide)] at h
  rw [← Option.some.inj h]
  exact State.field_writeField _ _

/-- A region that REQUALIFY may name does not wait for one already. -/
theorem State.idle_of_requalOk {s : State} {g : Nat} (h : s.requalOk g = true) : (s.host.requal.any fun q => q.1 == g) = false := by
  rw [State.requalOk] at h
  exact (Bool.not_eq_eq_eq_not.1 (Bool.and_eq_true_iff.1 h).2)

/-- Settles O56: the measured temperature decides a region's step and its dark states, and a region returns with its cells struck. -/
theorem thermalControl : Obligations.ThermalControl := by
  unfold Obligations.ThermalControl
  refine ⟨fun g temp s hg hp ht => ⟨(exec_thermalStepUp hg hp ht).1, (exec_thermalStepUp hg hp ht).2, (exec_thermalStepDown hg hp ht).1,
      (exec_thermalStepDown hg hp ht).2⟩,
    fun g working temp s hg hp => ⟨exec_ghostEntry hg hp working, exec_cutEntry hg hp, exec_regulatorFault hg hp⟩,
    fun g s hg hb => ⟨?_, ?_⟩, fun g temp s hg hp hr hl hf => ?_,
    fun g s hg => ⟨fun hf hb hu => exec_regionControllerUnreachable hg hf hb hu rfl, fun q fails => exec_regionReturnDone hg fails⟩,
    fun mb r s hready ho => ?_⟩
  · obtain ⟨ht, hrep, he, hm, hc⟩ := State.ghost_dark hb g
    exact ⟨ht, hrep, he, hm, hc⟩
  · obtain ⟨ht, hrep, he, ⟨hm, hc⟩, hlinks, hempty⟩ := State.cut_dark hb g
    exact ⟨ht, hrep, he, hm, hc, hlinks, hempty⟩
  · have hmay := State.mayReturn_senseTemp (temp := temp) hp hr hl hf
    refine ⟨fun ht hc => ?_, fun ht hc => ?_, fun ht hc => ?_, fun ht hc => ?_, State.light_dimmed _ g⟩
    · rw [exec_cutExit hg hp ht, hmay, if_pos hc]
    · rw [exec_cutExit hg hp ht, hmay, if_neg (ne_true_of_eq_false hc)]
    · rw [exec_ghostExit hg hp ht, hmay, if_pos hc]
    · rw [exec_ghostExit hg hp ht, hmay, if_neg (ne_true_of_eq_false hc)]
  · have hcmd := State.accepted_cmd s mb r
    generalize hu : Says.accepted s mb r = u at hcmd
    have hop : (r.opcode == 0x71) = true := beq_iff_eq.2 ho
    have hdone : ∀ {f : State → List Byte → Ans} {t : State} {st : St} {res : List Byte}, f u r.arg = .done t st res →
        nymakRow mb r (r.opcode == 0x71) s f = .next (t.respond mb st.code res) := fun hf => nymakRow_done hready hop (by rw [hu]; exact hf)
    have hgoes : ∀ {f : State → List Byte → Ans} {t : State}, f u r.arg = .goes t →
        nymakRow mb r (r.opcode == 0x71) s f = .next t := fun hf => nymakRow_goes hready hop (by rw [hu]; exact hf)
    clear hready
    generalize r.arg = b at hdone hgoes
    dsimp only
    refine fun h1 h4 hn hmax hlen => ⟨fun h0 hvalid => hdone ?_, fun h0 hone hcol hrow hok => ⟨fun hplaced => hgoes ?_, fun hplaced e he => hdone ?_⟩, fun e =>
      ⟨State.candidate_fixed, fun hf hn t ht => State.candidate_marked hf hn ht⟩⟩
    · have hany : ((List.range (argN b 2 2)).any fun i => (bits (argN b (8 + 8 * i) 8) 0 4 == 1 || bits (argN b (8 + 8 * i) 8) 0 4 == 3 ||
          bits (argN b (8 + 8 * i) 8) 0 4 == 4) && !cellValid (bits (argN b (8 + 8 * i) 8) 8 16)) = false := by
        refine List.any_eq_false.2 fun i hi hbad => ?_
        obtain ⟨hkind, hcell⟩ := Bool.and_eq_true_iff.1 hbad
        rw [hvalid i (List.mem_range.1 hi) (by simpa [or_assoc] using hkind)] at hcell
        exact Bool.false_ne_true hcell
      dsimp only
      rw [if_neg (by omega), if_pos h0, hany, if_neg Bool.false_ne_true]
    · have hany : (u.placed.any fun q => gOf (bits q.2 0 16) == argN b 9 1 * 12 + argN b 8 1) = false :=
        List.any_eq_false.2 fun q hq => by simpa using hplaced q hq
      dsimp only
      rw [if_neg (by omega), if_neg (by omega), if_neg (by omega), State.idle_of_requalOk hok, if_neg Bool.false_ne_true, hok, Bool.not_true,
        if_neg Bool.false_ne_true, hany, if_neg Bool.false_ne_true]
    · have hany : (u.placed.any fun q => gOf (bits q.2 0 16) == argN b 9 1 * 12 + argN b 8 1) = true := by
        obtain ⟨q, hq, hg⟩ := hplaced
        exact List.any_eq_true.2 ⟨q, hq, beq_iff_eq.2 hg⟩
      dsimp only
      rw [if_neg (by omega), if_neg (by omega), if_neg (by omega), State.idle_of_requalOk hok, if_neg Bool.false_ne_true, hok, Bool.not_true,
        if_neg Bool.false_ne_true, hany, if_pos rfl, State.defer, he, hcmd]
      dsimp only
      rw [ho]

end Sys2Proof.Machine
end

section
/-! PROOFS. Doreana: enrolment, debug unlock, evidence, the job key (O57). -/

namespace Sys2Proof.Machine
open Sys2Proof.Says

/-! ### Owner enrolment (R414, R415) -/

section Enrol
variable {v : Word64} {s : State}

theorem State.doreanaAnswers_of (hoff : s.isIn .off = false) (hdark : s.isIn .dark = false) (hlink : s.linkServes = true) : s.doreanaAnswers = true := by
  rw [State.doreanaAnswers, hoff, hdark, hlink]
  rfl

theorem exec_dorEnrol (ha : s.doreanaAnswers = true) (h0 : v.getLsbD 0 = true) (h1 : v.getLsbD 1 = false) : exec (.dorEnrol v) s = .next s.enrol := by
  change execDorEnrol v s = _
  rw [execDorEnrol, ha, h0, h1, Bool.and_self, if_pos rfl, if_neg Bool.false_ne_true]

theorem exec_dorPolicy (ha : s.doreanaAnswers = true) (h1 : v.getLsbD 1 = true) (h0 : v.getLsbD 0 = false) : exec (.dorPolicy v) s = .next s.setPolicy := by
  change execDorPolicy v s = _
  rw [execDorPolicy, ha, h0, h1]
  rfl

/-- The record is decided by the state, its form, a free slot and the signature, in this order. -/
theorem State.enrol_cases (s : State) :
    (s.isIn .standby = false → s.enrol = s.set Reg.DOR_STATUS_enrol_err 3) ∧
    (s.isIn .standby = true → s.recordForm = false → s.enrol = s.set Reg.DOR_STATUS_enrol_err 4) ∧
    (s.isIn .standby = true → s.recordForm = true → 4 ≤ s.dor.owners.length → s.enrol = s.set Reg.DOR_STATUS_enrol_err 2) ∧
    (s.isIn .standby = true → s.recordForm = true → s.dor.owners.length < 4 → s.dor.owner.isSome = true → s.ownerSigned = false →
      s.enrol = s.set Reg.DOR_STATUS_enrol_err 1) ∧
    (s.isIn .standby = true → s.recordForm = true → s.dor.owners.length < 4 → (s.dor.owner = none ∨ s.ownerSigned = true) →
      s.enrol = (s.set Reg.DOR_STATUS_enrol_err 0).modDor fun d =>
        { d with owners := (d.owners.map fun o => (o.1, true)) ++ [(s.staged 0 64, false)], policy := nth (s.staged 64 1) 0 (0 : Byte) == 1 }) := by
  rw [State.enrol]
  refine ⟨fun h => ?_, fun h hf => ?_, fun h hf hn => ?_, fun h hf hn ho hs => ?_, fun h hf hn hs => ?_⟩
  · rw [h]
    rfl
  · rw [h, hf]
    rfl
  · rw [h, hf, if_pos hn]
    rfl
  · rw [h, hf, if_neg (Nat.not_le.2 hn), ho, hs]
    rfl
  · have hpass : ¬ (s.dor.owner.isSome = true ∧ (!s.ownerSigned) = true) := by
      obtain ho | hs := hs
      · rw [ho]
        exact fun h => Bool.false_ne_true h.1
      · rw [hs]
        exact fun h => Bool.false_ne_true h.2
    rw [h, hf, if_neg (Nat.not_le.2 hn), if_neg hpass]
    rfl

theorem State.setPolicy_cases (s : State) :
    ((s.isIn .standby = true ∨ s.isIn .bringup = true) → s.recordForm = true → s.dor.owner = some (s.staged 0 64) → s.ownerSigned = true →
      s.setPolicy = (s.set Reg.DOR_STATUS_enrol_err 0).modDor fun d => { d with policy := nth (s.staged 64 1) 0 (0 : Byte) == 1 }) ∧
    ((s.isIn .standby = true ∨ s.isIn .bringup = true) → s.recordForm = true → (s.dor.owner ≠ some (s.staged 0 64) ∨ s.ownerSigned = false) →
      s.setPolicy = s.set Reg.DOR_STATUS_enrol_err 1) ∧
    ((s.isIn .standby = true ∨ s.isIn .bringup = true) → s.recordForm = false → s.setPolicy = s.set Reg.DOR_STATUS_enrol_err 4) ∧
    (s.isIn .standby = false → s.isIn .bringup = false → s.setPolicy = s.set Reg.DOR_STATUS_enrol_err 3) := by
  have hstate : (s.isIn .standby = true ∨ s.isIn .bringup = true) → (s.isIn .standby || s.isIn .bringup) = true := (Bool.or_eq_true _ _).mpr
  rw [State.setPolicy]
  refine ⟨fun h hf ho hs => ?_, fun h hf hs => ?_, fun h hf => ?_, fun h hb => ?_⟩
  · rw [hstate h, hf, if_neg (by decide), if_neg (by decide), if_neg (by rw [ho, hs]; simp)]
  · rw [hstate h, hf, if_neg (by decide), if_neg (by decide), if_pos (hs.imp_right fun h => by rw [h]; rfl)]
  · rw [hstate h, hf]
    rfl
  · rw [h, hb]
    rfl

end Enrol

/-! ### Erasure -/

theorem State.byte_eraseArea_in {s : State} {base len a : Nat} (h : base / 65536 * 65536 ≤ a)
    (h' : a < (base / 65536 + (len + 65535) / 65536) * 65536) : (s.eraseArea base len).byte a = 0 :=
  State.byte_clearMem_in s _ _ _ ⟨h, h'⟩

/-- A byte that reads 0 still does after an erasure. -/
theorem State.byte_clearMem_zero {s : State} {a : Nat} (h : s.byte a = 0) (lo hi : Nat) : (s.clearMem lo hi).byte a = 0 := by
  by_cases hin : lo ≤ a ∧ a < hi
  · exact State.byte_clearMem_in s lo hi a hin
  · exact (State.byte_clearMem_out s lo hi a (by omega)).trans h

theorem State.byte_eraseArea_zero {s : State} {a : Nat} (h : s.byte a = 0) (base len : Nat) : (s.eraseArea base len).byte a = 0 :=
  State.byte_clearMem_zero h _ _

theorem State.dorLog_dor (s : State) (ty : Nat) (digest detail : List Byte) : (s.dorLog ty digest detail).dor = { s.dor with
    log := foldLog s.now s.dor.log ++ [⟨s.dor.total, ty, s.now, digest, detail⟩], total := s.dor.total + 1
    digest := shake256 64 (s.dor.digest ++ (⟨s.dor.total, ty, s.now, digest, detail⟩ : LogEnt).bytes) } := by
  rw [State.dorLog]
  split <;> rfl

/-- A log entry changes Doreana's state and its registers. -/
theorem State.dorLog_eq (s : State) (ty : Nat) (digest detail : List Byte) :
    s.dorLog ty digest detail = { s with dor := (s.dorLog ty digest detail).dor, regs := (s.dorLog ty digest detail).regs } := by
  rw [State.dorLog]
  split <;> rfl

/-! ### Debug (R426, R427) -/

/-- What the reset of one rope ring leaves. -/
theorem State.endRing_frame (s : State) (i : Nat) : (s.endRing i 0).dor = s.dor ∧ (s.endRing i 0).freeIdx = s.freeIdx ∧
    (s.endRing i 0).cells = s.cells ∧
    ∀ p, (s.endRing i 0).rport p = if p / 2 = i then { RopePortSt.init with lanes := (s.rport p).lanes } else s.rport p := by
  have heq := State.setRing_eq s i 0
  rw [State.endRing]
  generalize s.setRing i 0 = u at heq
  have hrope : u.rope = s.rope := by rw [heq]
  have hdor : u.dor = s.dor := by rw [heq]
  have hfree : u.freeIdx = s.freeIdx := by rw [heq]
  have hcells : u.cells = s.cells := by rw [heq]
  refine ⟨hdor, hfree, hcells, fun p => ?_⟩
  have hring : ((u.resetLinks i).modRingR i fun r => { r with session := 0, breakAt := 0 }).rport p = (u.resetLinks i).rport p := rfl
  rw [hring, State.resetLinks]
  by_cases h1 : p = 2 * i + 1
  · rw [h1, rport_modPortR_self, rport_modPortR_ne _ (by omega), if_pos (by omega), rport_of_rope hrope]
  · rw [rport_modPortR_ne _ h1]
    by_cases h0 : p = 2 * i
    · rw [h0, rport_modPortR_self, if_pos (by omega), rport_of_rope hrope]
    · rw [rport_modPortR_ne _ h0, if_neg (by omega), rport_of_rope hrope]

/-- The rings reset one after the other. -/
theorem State.endRings_frame (s : State) : ((List.range 3).foldl (fun s i => s.endRing i 0) s).dor = s.dor ∧
    ((List.range 3).foldl (fun s i => s.endRing i 0) s).freeIdx = s.freeIdx ∧ ((List.range 3).foldl (fun s i => s.endRing i 0) s).cells = s.cells ∧
    ∀ p, p < 6 → ((List.range 3).foldl (fun s i => s.endRing i 0) s).rport p = { RopePortSt.init with lanes := (s.rport p).lanes } := by
  rw [show List.range 3 = [0, 1, 2] from rfl, List.foldl_cons, List.foldl_cons, List.foldl_cons, List.foldl_nil]
  obtain ⟨hd0, hf0, hc0, hp0⟩ := State.endRing_frame s 0
  generalize s.endRing 0 0 = u0 at *
  obtain ⟨hd1, hf1, hc1, hp1⟩ := State.endRing_frame u0 1
  generalize u0.endRing 1 0 = u1 at *
  obtain ⟨hd2, hf2, hc2, hp2⟩ := State.endRing_frame u1 2
  generalize u1.endRing 2 0 = u2 at *
  refine ⟨hd2.trans (hd1.trans hd0), hf2.trans (hf1.trans hf0), hc2.trans (hc1.trans hc0), fun p hp => ?_⟩
  rw [hp2, hp1, hp0]
  obtain h | h | h : p / 2 = 0 ∨ p / 2 = 1 ∨ p / 2 = 2 := by omega
  · rw [if_neg (by omega), if_neg (by omega), if_pos h]
  · rw [if_neg (by omega), if_pos h, if_neg (by omega)]
  · rw [if_pos h, if_neg (by omega), if_neg (by omega)]

theorem State.resetRope_frame (s : State) : s.resetRope.dor = s.dor ∧ s.resetRope.freeIdx = s.freeIdx ∧ s.resetRope.cells = s.cells ∧
    ∀ p, p < 6 → s.resetRope.rport p = { RopePortSt.init with lanes := (s.rport p).lanes } := by
  have hframe := State.endRings_frame s
  rw [State.resetRope]
  generalize (List.range 3).foldl (fun s i => s.endRing i 0) s = u at hframe
  exact hframe

/-- Everything that an accepted token wipes and sets (R427). -/
theorem State.unlock_wipes (s : State) (scope : Nat) :
    (s.unlock scope).flag Reg.DOR_DEBUG_unlocked = true ∧ (s.unlock scope).get Reg.DOR_DEBUG_scope = scope % 8 ∧
    (s.unlock scope).freeIdx = s.freeIdx ∧ (s.unlock scope).dor.keys = false ∧ (s.unlock scope).dor.jobKey = none ∧
    (s.unlock scope).flag Reg.DOR_STATUS_kem_ready = false ∧ (s.unlock scope).dor.total = s.dor.total + 1 ∧
    (∀ p, p < 6 → (s.unlock scope).rport p = { RopePortSt.init with lanes := (s.rport p).lanes }) ∧
    (s.unlock scope).cells = SMap.mapVal (fun _ x => x.struck) s.cells ∧
    ∀ a, a < keyTable ∨ (keyTable + 0x4000000 ≤ a ∧ a < 0x01B000000000) ∨ (0x800000000000 ≤ a ∧ a < 0x810000000000) → (s.unlock scope).byte a = 0 := by
  have htotal : (s.dorLog 0x0B (shake256 64 (s.staged 0 69)) []).dor.total = s.dor.total + 1 := by rw [State.dorLog_dor]
  have hlog := State.dorLog_eq s 0x0B (shake256 64 (s.staged 0 69)) []
  rw [State.unlock]
  generalize s.dorLog 0x0B (shake256 64 (s.staged 0 69)) [] = u1 at htotal hlog
  have hport1 : ∀ p, u1.rport p = s.rport p := fun p => by rw [hlog]; rfl
  have hcells1 : u1.cells = s.cells := by rw [hlog]
  have hfree1 : u1.freeIdx = s.freeIdx := by rw [hlog]
  clear hlog
  obtain ⟨hdor2, hfree2, hcells2, hport2⟩ := State.resetRope_frame u1
  generalize u1.resetRope = u2 at *
  have hsp : ∀ a, 0x800000000000 ≤ a ∧ a < 0x810000000000 → u2.strikeAll.byte a = 0 := fun a ha =>
    (State.byte_congr (s := u2.clearMem 0x800000000000 0x810000000000) rfl a).trans (State.byte_clearMem_in u2 _ _ a ha)
  have hcells3 : u2.strikeAll.cells = SMap.mapVal (fun _ x => x.struck) u2.cells := rfl
  have hrest3 : u2.strikeAll.dor = u2.dor ∧ u2.strikeAll.freeIdx = u2.freeIdx ∧ u2.strikeAll.rope = u2.rope := ⟨rfl, rfl, rfl⟩
  generalize u2.strikeAll = u3 at *
  obtain ⟨hdor3, hfree3, hrope3⟩ := hrest3
  have hsp4 : ∀ a, 0x800000000000 ≤ a ∧ a < 0x810000000000 → u3.eraseSnapshot.byte a = 0 := fun a ha =>
    (State.byte_congr (State.set_mem ..) a).trans (State.byte_eraseArea_zero (hsp a ha) _ _)
  have hrest4 : u3.eraseSnapshot.dor = u3.dor ∧ u3.eraseSnapshot.freeIdx = u3.freeIdx ∧ u3.eraseSnapshot.rope = u3.rope ∧
      u3.eraseSnapshot.cells = u3.cells := ⟨rfl, rfl, rfl, rfl⟩
  generalize u3.eraseSnapshot = u4 at *
  obtain ⟨hdor4, hfree4, hrope4, hcells4⟩ := hrest4
  have hbyte5 : ∀ a, a < keyTable ∨ (keyTable + 0x4000000 ≤ a ∧ a < 0x01B000000000) ∨ (0x800000000000 ≤ a ∧ a < 0x810000000000) →
      ((u4.eraseArea 0 keyTable).eraseArea (keyTable + 0x4000000) 0x1FC000000).byte a = 0 := by
    intro a ha
    simp only [keyTable] at ha
    obtain h | h | h := ha
    · exact State.byte_eraseArea_zero (State.byte_eraseArea_in (by omega) (by simp only [keyTable]; omega)) _ _
    · exact State.byte_eraseArea_in (by simp only [keyTable]; omega) (by simp only [keyTable]; omega)
    · exact State.byte_eraseArea_zero (State.byte_eraseArea_zero (hsp4 a h) _ _) _ _
  have hrest5 : ((u4.eraseArea 0 keyTable).eraseArea (keyTable + 0x4000000) 0x1FC000000).dor = u4.dor ∧
      ((u4.eraseArea 0 keyTable).eraseArea (keyTable + 0x4000000) 0x1FC000000).freeIdx = u4.freeIdx ∧
      ((u4.eraseArea 0 keyTable).eraseArea (keyTable + 0x4000000) 0x1FC000000).rope = u4.rope ∧
      ((u4.eraseArea 0 keyTable).eraseArea (keyTable + 0x4000000) 0x1FC000000).cells = u4.cells := ⟨rfl, rfl, rfl, rfl⟩
  generalize (u4.eraseArea 0 keyTable).eraseArea (keyTable + 0x4000000) 0x1FC000000 = u5 at *
  obtain ⟨hdor5, hfree5, hrope5, hcells5⟩ := hrest5
  have hkey6 : (u5.dropJobKey.modDor fun d => { d with keys := false, dramKey := [] }).dor = { u5.dor with jobKey := none, keys := false, dramKey := [] } := rfl
  have hrest6 : (u5.dropJobKey.modDor fun d => { d with keys := false, dramKey := [] }).freeIdx = u5.freeIdx ∧
      (u5.dropJobKey.modDor fun d => { d with keys := false, dramKey := [] }).rope = u5.rope ∧
      (u5.dropJobKey.modDor fun d => { d with keys := false, dramKey := [] }).cells = u5.cells ∧
      (u5.dropJobKey.modDor fun d => { d with keys := false, dramKey := [] }).mem = u5.mem := ⟨rfl, rfl, rfl, rfl⟩
  dsimp only
  generalize u5.dropJobKey.modDor (fun d => { d with keys := false, dramKey := [] }) = u6 at *
  obtain ⟨hfree6, hrope6, hcells6, hmem6⟩ := hrest6
  have hset : ∀ g : RF, ((u6.set Reg.DOR_STATUS_kem_ready 0).sets [(Reg.DOR_DEBUG_unlocked, 1), (Reg.DOR_DEBUG_scope, scope)]).get g =
      (((u6.set Reg.DOR_STATUS_kem_ready 0).set Reg.DOR_DEBUG_unlocked 1).set Reg.DOR_DEBUG_scope scope).get g := fun _ => rfl
  refine ⟨?_, ?_, hfree6.trans (hfree5.trans (hfree4.trans (hfree3.trans (hfree2.trans hfree1)))), congrArg DorSt.keys hkey6, congrArg DorSt.jobKey hkey6, ?_,
    (congrArg DorSt.total hkey6).trans ?_, fun p hp => ?_, ?_, fun a ha =>
      (State.byte_congr ((State.sets_mem ..).trans ((State.set_mem ..).trans hmem6)) a).trans (hbyte5 a ha)⟩
  · rw [State.flag, hset, State.get_set_disjoint (f := Reg.DOR_DEBUG_scope) (g := Reg.DOR_DEBUG_unlocked) _ _ rfl (by decide) (by decide),
      State.get_set_self _ _ _ (by decide)]
    rfl
  · rw [hset, State.get_set_self _ _ _ (by decide)]
    rfl
  · rw [State.flag, hset, State.get_set_ne (f := Reg.DOR_DEBUG_scope) (g := Reg.DOR_STATUS_kem_ready) _ _ (by decide),
      State.get_set_ne (f := Reg.DOR_DEBUG_unlocked) (g := Reg.DOR_STATUS_kem_ready) _ _ (by decide), State.get_set_self _ _ _ (by decide)]
    rfl
  · exact (congrArg DorSt.total (hdor5.trans (hdor4.trans (hdor3.trans hdor2)))).trans htotal
  · refine (rport_of_rope (s := u2) ?_ p).trans ((hport2 p hp).trans (by rw [hport1]))
    exact ((State.sets_rope ..).trans (State.set_rope ..)).trans <| hrope6.trans (hrope5.trans (hrope4.trans hrope3))
  · exact hcells6.trans (hcells5.trans (hcells4.trans (hcells3.trans (by rw [hcells2, hcells1]))))

section Unlock
variable {v : Word64} {s : State}

theorem exec_dorUnlock (ha : s.doreanaAnswers = true) (h0 : v.getLsbD 0 = true) {u : State}
    (hu : (if ((s.isIn .standby || s.isIn .ready) && s.tokenOk) = true then s.unlock (argN (s.staged 68 1) 0 1)
      else s.inc Reg.DOR_DEBUG_unlock_fail_count) = u) :
    exec (.dorUnlock v) s = .next (State.set { u with freeIdx := u.freeIdx + 1 } Reg.DOR_DEBUG_challenge ((Config.freeValue u.freeIdx).toNat % 2 ^ 32)) := by
  change execDorUnlock v s = _
  rw [execDorUnlock, ha, h0, Bool.and_self, if_pos rfl]
  dsimp only
  rw [hu]
  rfl

/-- The challenge that follows an attempt stands beside the other fields of its register. -/
theorem State.challenge_leaves (u : State) (n c : Nat) (hc : c < 2 ^ 32) :
    (State.set { u with freeIdx := n } Reg.DOR_DEBUG_challenge c).flag Reg.DOR_DEBUG_unlocked = u.flag Reg.DOR_DEBUG_unlocked ∧
    (State.set { u with freeIdx := n } Reg.DOR_DEBUG_challenge c).get Reg.DOR_DEBUG_scope = u.get Reg.DOR_DEBUG_scope ∧
    (State.set { u with freeIdx := n } Reg.DOR_DEBUG_challenge c).get Reg.DOR_DEBUG_challenge = c ∧
    (State.set { u with freeIdx := n } Reg.DOR_DEBUG_challenge c).flag Reg.DOR_STATUS_kem_ready = u.flag Reg.DOR_STATUS_kem_ready := by
  have hregs : ∀ g : RF, ({ u with freeIdx := n } : State).get g = u.get g := fun g => State.get_of_regs rfl
  refine ⟨?_, ?_, ?_, ?_⟩
  · rw [State.flag, State.get_set_disjoint (f := Reg.DOR_DEBUG_challenge) (g := Reg.DOR_DEBUG_unlocked) _ _ rfl (by decide) (by decide), hregs, State.flag]
  · rw [State.get_set_disjoint (f := Reg.DOR_DEBUG_challenge) (g := Reg.DOR_DEBUG_scope) _ _ rfl (by decide) (by decide), hregs]
  · rw [State.get_set_self _ _ _ (by decide)]
    exact Nat.mod_eq_of_lt hc
  · rw [State.flag, State.get_set_ne (f := Reg.DOR_DEBUG_challenge) (g := Reg.DOR_STATUS_kem_ready) _ _ (by decide), hregs, State.flag]

end Unlock

/-! ### Evidence (R420-R422) -/

theorem padTo_of_length {n : Nat} {bs : List Byte} (h : bs.length = n) : padTo n bs = bs := by
  rw [padTo, List.take_of_length_le (by omega), h, Nat.sub_self, List.replicate_zero, List.append_nil]

theorem padTo_append {n : Nat} {a : List Byte} (h : a.length ≤ n) (b : List Byte) : padTo n (a ++ b) = a ++ padTo (n - a.length) b := by
  rw [padTo, padTo, List.take_append, List.take_of_length_le h, List.length_append, List.append_assoc, Nat.sub_add_eq]

/-- What follows a head of 8 bytes. -/
theorem padTo_at_eight {n x y z : Nat} {b : List Byte} (hb : b.length = 32) (hn : 40 ≤ n) (c rest : List Byte) :
    ((padTo n (toLE 2 x ++ (toLE 2 y ++ (toLE 4 z ++ (b ++ c)))) ++ rest).drop 8).take 32 = b := by
  have hlen : (toLE 2 x ++ (toLE 2 y ++ toLE 4 z)).length = 8 := by simp only [List.length_append, length_toLE]
  have hassoc : toLE 2 x ++ (toLE 2 y ++ (toLE 4 z ++ (b ++ c))) = (toLE 2 x ++ (toLE 2 y ++ toLE 4 z)) ++ (b ++ c) := by
    simp only [List.append_assoc]
  rw [hassoc, padTo_append (by omega), padTo_append (by omega), List.append_assoc, List.drop_left' hlen, List.append_assoc, List.take_left' hb]

/-- The evidence carries the nonce of its request, 8 bytes from its start. -/
theorem State.nonce_evidence (s : State) {nonce : List Byte} (h : nonce.length = 32) (first n : Nat) :
    ((s.evidence nonce first n).drop 8).take 32 = nonce := by
  rw [State.evidence, State.evidenceBody, padTo_of_length h]
  simp only [List.append_assoc]
  exact padTo_at_eight h (by decide) _ _

section Evidence
variable {s : State}

theorem exec_evidenceSign {q : EvReq} {rest : List EvReq} (hq : s.dor.queue = q :: rest) (hk : s.flag Reg.DOR_STATUS_kem_ready = true)
    (hkeys : s.dor.keys = true) : exec .evidenceSign s =
      .next (if q.mb = 8 then ((s.setQueue (rest.map fun (r : EvReq) => { r with atT := s.now })).inc Reg.DOR_STATUS_attest_count).emit
          (.doe (s.evidence q.nonce q.first ((q.maxBytes - 31616) / 96)))
        else ((((s.setQueue (rest.map fun (r : EvReq) => { r with atT := s.now })).inc Reg.DOR_STATUS_attest_count).emit
          (.hostWrite q.dest (s.evidence q.nonce q.first ((q.maxBytes - 31616) / 96)))).respond q.mb St.ok.code
            (toLE 4 (s.evidence q.nonce q.first ((q.maxBytes - 31616) / 96)).length ++
              toLE 4 (s.dor.pick q.first ((q.maxBytes - 31616) / 96)).length))) := by
  change execEvidenceSign s = _
  rw [execEvidenceSign, hq]
  exact congrArg Host.Outcome.next (if_pos ⟨hk, hkeys⟩)

theorem exec_doeAttest {obj : List Byte} (hoff : s.isIn .off = false) :
    ((obj.length ≠ 37 ∨ s.flag Reg.DOR_DEBUG_unlocked = true) → exec (.doeAttest obj) s = .next (s.emit (.doe []))) ∧
    (obj.length = 37 → s.isIn .dark = false → s.flag Reg.DOR_DEBUG_unlocked = false →
      (argN obj 36 1 = 1 → exec (.doeAttest obj) s = .next (s.emit (.doe Config.certificate))) ∧
      (argN obj 36 1 = 0 → s.dor.queue.length < 4 → exec (.doeAttest obj) s =
        .next (s.setQueue (s.dor.queue ++ [(⟨8, obj.take 32, argN obj 32 4, 0, 1048576, s.now⟩ : EvReq)])))) := by
  change (_ → execDoeAttest obj s = _) ∧ (_ → _ → _ → (_ → execDoeAttest obj s = _) ∧ (_ → _ → execDoeAttest obj s = _))
  rw [execDoeAttest, hoff, if_neg Bool.false_ne_true]
  refine ⟨fun h => ?_, fun hlen hd hu => ⟨fun h1 => ?_, fun h0 hn => ?_⟩⟩
  · rw [if_pos (h.elim .inl fun h => .inr (.inr (.inr h)))]
  · rw [hd, hu, if_neg (by simp [hlen, h1]), if_pos h1]
  · rw [hd, hu, if_neg (by simp [hlen, h0]), if_neg (by omega), if_neg (Nat.not_le.2 hn)]

theorem exec_kemKeyMake (hoff : s.isIn .off = false) (hd : s.isIn .dark = false) (hk : s.dor.keys = true) (hr : s.flag Reg.DOR_STATUS_kem_ready = false) :
    ∃ t, exec .kemKeyMake s = .next t ∧ t.flag Reg.DOR_STATUS_kem_ready = true ∧ t.dor = { s.dor with kemId := (s.dor.kemId + 1) % 2 ^ 32 } ∧
      t.mem = s.mem ∧ t.cells = s.cells := by
  change ∃ t, execKemKeyMake s = .next t ∧ _
  rw [execKemKeyMake, hoff, hd, hk, hr]
  refine ⟨s.makeKem, rfl, ?_, rfl, rfl, rfl⟩
  rw [State.flag, State.makeKem, State.get_set_self _ _ _ (by decide)]
  rfl

end Evidence

/-! ### The job key (R423, R424) -/

/-- A response writes the mailbox's area and registers, and nothing of Doreana, memory or cells. -/
theorem State.respond_keeps {mb : Nat} {r : NyReq} {stamp : Nat} {s : State} (hcmd : (s.mb mb).cmd = some (r, stamp)) (status : Nat) (res : List Byte) :
    (s.respond mb status res).get (Reg.MB_STATUS_last_status mb) = status % 2 ^ 8 ∧ (s.respond mb status res).dor = s.dor ∧
    (s.respond mb status res).mem = s.mem ∧ (s.respond mb status res).cells = s.cells ∧
    (s.respond mb status res).host.keySession = s.host.keySession ∧ (s.respond mb status res).tel = s.tel := by
  obtain ⟨head, -, hr⟩ := State.respond_of_cmd hcmd status res
  have heq := State.putArea_eq s (mbBase mb + 0x4000) (head ++ res)
  rw [hr]
  generalize s.putArea (mbBase mb + 0x4000) (head ++ res) = u at heq
  have hrest : (u.modMb mb fun m => { m with cmd := none }).dor = s.dor ∧ (u.modMb mb fun m => { m with cmd := none }).mem = s.mem ∧
      (u.modMb mb fun m => { m with cmd := none }).cells = s.cells ∧ (u.modMb mb fun m => { m with cmd := none }).host.keySession = s.host.keySession ∧
      (u.modMb mb fun m => { m with cmd := none }).tel = s.tel := by
    rw [heq]
    exact ⟨rfl, rfl, rfl, rfl, rfl⟩
  generalize u.modMb mb (fun m => { m with cmd := none }) = w at hrest
  obtain ⟨hdor, hmem, hcells, hkey, htel⟩ := hrest
  obtain ⟨-, -, hstatus, -⟩ := State.mbStatus_after w mb status r.opcode
  exact ⟨hstatus, hdor, hmem, hcells, hkey, htel⟩

theorem State.accepted_dor (s : State) (mb : Nat) (r : NyReq) : (Says.accepted s mb r).dor = s.dor := by
  rw [Says.accepted, State.putRequest]
  generalize reqHeader r ++ _ = bs
  exact State.putArea_dor s (mbBase mb) bs

/-- The job key in place: the snapshot erased, the log a measurement longer, the KEM key used up, the session noted. -/
def State.keyTaken (u : State) (mb : Nat) (k digest : List Byte) : State :=
  ((((u.dropKem.modDor fun d => { d with jobKey := some (padTo 32 k) }).set Reg.DOR_STATUS_job_key 1).eraseSnapshot).dorLog 0x0A digest []).modHost
    fun h => { h with keySession := mb + 1 }

theorem State.keyTaken_leaves (u : State) (mb : Nat) {k : List Byte} (hk : k.length = 32) (digest : List Byte) :
    (u.keyTaken mb k digest).dor.jobKey = some k ∧ (u.keyTaken mb k digest).flag Reg.DOR_STATUS_job_key = true ∧
    (u.keyTaken mb k digest).flag Reg.DOR_STATUS_kem_ready = false ∧ (u.keyTaken mb k digest).host.keySession = mb + 1 ∧
    (u.keyTaken mb k digest).flag Reg.RECOVERY_STATUS_snapshot_valid = false ∧ (u.keyTaken mb k digest).dor.total = u.dor.total + 1 ∧
    (∀ a, 0x01AE18000000 ≤ a → a < 0x01AE28000000 → (u.keyTaken mb k digest).byte a = 0) ∧ (u.keyTaken mb k digest).cells = u.cells ∧
    ((u.keyTaken mb k digest).mb mb).cmd = (u.mb mb).cmd := by
  rw [State.keyTaken, padTo_of_length hk]
  have hkem : (u.dropKem.modDor fun d => { d with jobKey := some k }).get Reg.DOR_STATUS_kem_ready = 0 := State.get_set_self _ _ _ (by decide)
  have hrest1 : (u.dropKem.modDor fun d => { d with jobKey := some k }).dor = { u.dor with kemAt := u.now, jobKey := some k } ∧
      (u.dropKem.modDor fun d => { d with jobKey := some k }).cells = u.cells ∧
      (u.dropKem.modDor fun d => { d with jobKey := some k }).host = u.host := ⟨rfl, rfl, rfl⟩
  generalize u.dropKem.modDor (fun d => { d with jobKey := some k }) = u1 at *
  obtain ⟨hdor1, hcells1, hhost1⟩ := hrest1
  have hbyte : ∀ a, 0x01AE18000000 ≤ a → a < 0x01AE28000000 → (u1.set Reg.DOR_STATUS_job_key 1).eraseSnapshot.byte a = 0 := fun a h h' =>
    (State.byte_congr (State.set_mem ..) a).trans (State.byte_eraseArea_in (by omega) (by omega))
  have hkem2 : (u1.set Reg.DOR_STATUS_job_key 1).eraseSnapshot.get Reg.DOR_STATUS_kem_ready = 0 := by
    rw [State.eraseSnapshot, State.get_set_ne (f := Reg.RECOVERY_STATUS_snapshot_valid) (g := Reg.DOR_STATUS_kem_ready) _ _ (by decide)]
    refine (State.get_of_regs rfl).trans ((State.get_set_disjoint (f := Reg.DOR_STATUS_job_key) (g := Reg.DOR_STATUS_kem_ready) u1 1 rfl (by decide) (by decide)).trans hkem)
  have hjob2 : (u1.set Reg.DOR_STATUS_job_key 1).eraseSnapshot.get Reg.DOR_STATUS_job_key = 1 := by
    rw [State.eraseSnapshot, State.get_set_ne (f := Reg.RECOVERY_STATUS_snapshot_valid) (g := Reg.DOR_STATUS_job_key) _ _ (by decide)]
    exact (State.get_of_regs rfl).trans (State.get_set_self u1 Reg.DOR_STATUS_job_key 1 (by decide))
  have hsnap2 : (u1.set Reg.DOR_STATUS_job_key 1).eraseSnapshot.get Reg.RECOVERY_STATUS_snapshot_valid = 0 := State.get_set_self _ _ _ (by decide)
  have hrest2 : (u1.set Reg.DOR_STATUS_job_key 1).eraseSnapshot.dor = u1.dor ∧ (u1.set Reg.DOR_STATUS_job_key 1).eraseSnapshot.cells = u1.cells ∧
      (u1.set Reg.DOR_STATUS_job_key 1).eraseSnapshot.host = u1.host := ⟨rfl, rfl, rfl⟩
  generalize (u1.set Reg.DOR_STATUS_job_key 1).eraseSnapshot = u2 at *
  obtain ⟨hdor2, hcells2, hhost2⟩ := hrest2
  have hdor3 := State.dorLog_dor u2 0x0A digest []
  have heq3 := State.dorLog_eq u2 0x0A digest []
  have hget3 : ∀ g : RF, g.off ≠ 0x200000 ∨ g.off = 0x200000 ∧ g.lo + g.w ≤ 6 → (u2.dorLog 0x0A digest []).get g = u2.get g := by
    intro g hg
    have hset : ∀ (w : State) (n : Nat) (f : RF), f.off = 0x200000 → 6 ≤ f.lo → (w.set f n).get g = w.get g := fun w n f ho hlo => by
      obtain h | ⟨h, hw⟩ := hg
      · exact State.get_set_ne (f := f) (g := g) _ _ (by rw [ho]; exact h)
      · exact State.get_set_disjoint (f := f) (g := g) _ _ (h.trans ho.symm) (by omega) (.inl (by omega))
    rw [State.dorLog]
    split
    · rw [hset _ _ Reg.DOR_STATUS_log_folded rfl (by decide), hset _ _ Reg.DOR_STATUS_log_entries rfl (by decide)]
      exact State.get_of_regs rfl
    · rw [hset _ _ Reg.DOR_STATUS_log_entries rfl (by decide)]
      exact State.get_of_regs rfl
  generalize u2.dorLog 0x0A digest [] = u3 at *
  have hget : ∀ g : RF, (u3.modHost fun h => { h with keySession := mb + 1 }).get g = u3.get g := fun g => State.get_of_regs rfl
  have hmem3 : u3.mem = u2.mem := by rw [heq3]
  have hcells3 : u3.cells = u2.cells := by rw [heq3]
  have hhost3 : u3.host = u.host := Eq.trans (by rw [heq3]) (hhost2.trans hhost1)
  refine ⟨?_, ?_, ?_, rfl, ?_, ?_, fun a h h' => (State.byte_congr hmem3 a).trans (hbyte a h h'), hcells3.trans (hcells2.trans hcells1), ?_⟩
  · exact (congrArg DorSt.jobKey hdor3).trans (congrArg DorSt.jobKey (hdor2.trans hdor1))
  · rw [State.flag, hget, hget3 _ (by decide), hjob2]
    rfl
  · rw [State.flag, hget, hget3 _ (by decide), hkem2]
    rfl
  · rw [State.flag, hget, hget3 _ (by decide), hsnap2]
    rfl
  · exact (congrArg DorSt.total hdor3).trans (congrArg (·.total + 1) (hdor2.trans hdor1))
  · change (SMap.getD u3.host.mbs mb .init).cmd = (SMap.getD u.host.mbs mb .init).cmd
    rw [hhost3]

/-- Settles O57: each record, token, request and key is decided by its tests in their order, and an accepted one does its whole work. -/
theorem doreanaCommands : Obligations.DoreanaCommands := by
  unfold Obligations.DoreanaCommands
  refine ⟨fun v s hoff hdark hlink => ?_, fun s hoff => ⟨fun ir => ?_, exec_kemKeyMake hoff, fun obj hlen hdark hu => (exec_doeAttest hoff).2 hlen hdark hu,
      fun obj => (exec_doeAttest hoff).1⟩,
    fun q rest s hq hk hkeys => ⟨fun hn => ⟨State.nonce_evidence s hn _ _, List.length_take_le _ _⟩, fun hmb => ?_, fun hmb => ?_⟩,
    fun mb r s hready => ?_⟩
  · have ha := State.doreanaAnswers_of hoff hdark hlink
    refine ⟨fun h0 h1 => ?_, fun h1 h0 => ?_, fun h0 hst hok => ?_, fun h0 hno => ?_⟩
    · rw [exec_dorEnrol ha h0 h1]
      obtain ⟨h3, h4, h2, h1, hok⟩ := State.enrol_cases s
      exact ⟨fun h => congrArg _ (h3 h), fun h hf => congrArg _ (h4 h hf), fun h hf hn => congrArg _ (h2 h hf hn),
        fun h hf hn ho hs => congrArg _ (h1 h hf hn ho hs), fun h hf hn hs => congrArg _ (hok h hf hn hs)⟩
    · rw [exec_dorPolicy ha h1 h0]
      obtain ⟨hok, h1, h4, h3⟩ := State.setPolicy_cases s
      exact ⟨fun h hf ho hs => congrArg _ (hok h hf ho hs), fun h hf hs => congrArg _ (h1 h hf hs), fun h hf => congrArg _ (h4 h hf),
        fun h hb => congrArg _ (h3 h hb)⟩
    · have htaken : ((s.isIn .standby || s.isIn .ready) && s.tokenOk) = true := by
        rw [(Bool.or_eq_true _ _).mpr hst, hok, Bool.and_self]
      obtain ⟨hun, hscope, hfree, hkeys, hjob, hkem, htotal, hports, hcells, hbytes⟩ := State.unlock_wipes s (argN (s.staged 68 1) 0 1)
      refine ⟨_, exec_dorUnlock ha h0 (if_pos htaken), ?_⟩
      rw [hfree]
      generalize s.unlock (argN (s.staged 68 1) 0 1) = u at *
      obtain ⟨cu, cs, cc, ck⟩ := State.challenge_leaves u (s.freeIdx + 1) ((Config.freeValue s.freeIdx).toNat % 2 ^ 32) (Nat.mod_lt _ (by decide))
      exact ⟨cu.trans hun, cs.trans hscope, cc, hkeys, hjob, ck.trans hkem, htotal, hports, hcells,
        fun a ha => (State.byte_congr (State.set_mem ..) a).trans (hbytes a ha)⟩
    · have hrefused : ¬ ((s.isIn .standby || s.isIn .ready) && s.tokenOk) = true := by
        obtain ⟨h, h'⟩ | h := hno
        · rw [h, h']
          exact Bool.false_ne_true
        · rw [h, Bool.and_false]
          exact Bool.false_ne_true
      exact exec_dorUnlock ha h0 (if_neg hrefused)
  · change execJtagInstruction ir s = _
    rw [execJtagInstruction, hoff, if_neg Bool.false_ne_true]
    rfl
  · rw [exec_evidenceSign hq hk hkeys, if_pos hmb]
  · rw [exec_evidenceSign hq hk hkeys, if_neg hmb]
  · have hcmd := State.accepted_cmd s mb r
    obtain ⟨-, hcells⟩ := State.accepted_frame s mb r
    have hdor := State.accepted_dor s mb r
    generalize hu : Says.accepted s mb r = u at hcmd hcells hdor
    have hdone : ∀ {op : Nat} {f : State → List Byte → Ans} {t : State} {st : St} {res : List Byte}, r.opcode = op → f u r.arg = .done t st res →
        nymakRow mb r (r.opcode == op) s f = .next (t.respond mb st.code res) := fun hop hf => nymakRow_done hready (beq_iff_eq.2 hop) (by rw [hu]; exact hf)
    have hgoes : ∀ {op : Nat} {f : State → List Byte → Ans} {t : State}, r.opcode = op → f u r.arg = .goes t →
        nymakRow mb r (r.opcode == op) s f = .next t := fun hop hf => nymakRow_goes hready (beq_iff_eq.2 hop) (by rw [hu]; exact hf)
    clear hready
    generalize r.arg = b at hdone hgoes
    dsimp only
    refine ⟨fun ho hlen h37 h40 h48 hbme => ⟨fun hun h1 => hdone ho ?_, fun hun h1 => hdone ho ?_, fun hun h0 hn => hgoes ho ?_, fun hun h0 hn => hdone ho ?_⟩,
      fun ho hlen h4 => ⟨fun hun => hdone ho ?_, fun hun hno => hdone ho ?_, fun hun hkem hid => ⟨fun hw => hdone ho ?_, fun k hw hk => ?_⟩⟩⟩
    · dsimp only
      rw [hbme, hun, if_neg (by simp; omega), if_pos rfl]
    · dsimp only
      rw [hbme, hun, if_neg (by simp; omega), if_neg Bool.false_ne_true, if_pos h1]
    · dsimp only
      rw [hbme, hun, if_neg (by simp; omega), if_neg Bool.false_ne_true, if_neg (by omega), if_neg (Nat.not_le.2 hn)]
    · dsimp only
      rw [hbme, hun, if_neg (by simp; omega), if_neg Bool.false_ne_true, if_neg (by omega), if_pos hn]
    · rw [hun, if_neg (by omega), if_pos rfl]
    · rw [hun, if_neg (by omega), if_neg Bool.false_ne_true, if_pos (hno.imp_left fun h => by rw [h]; rfl)]
    · dsimp only
      rw [hun, hkem, if_neg (by omega), if_neg Bool.false_ne_true, if_neg (by simp [hid]), hw]
    · have hf : execKeyImport mb r s = .next ((u.keyTaken mb k (shake256 64 ((b.drop 8).take 1568))).respond mb St.ok.code
          (u.keyTaken mb k (shake256 64 ((b.drop 8).take 1568))).jobKeyId) := by
        refine hdone ho ?_
        dsimp only
        rw [hun, hkem, if_neg (by omega), if_neg Bool.false_ne_true, if_neg (by simp [hid]), hw]
        rfl
      obtain ⟨hjob, hjobf, hkemf, hkey, hsnap, htotal, hbytes, htc, htcmd⟩ := State.keyTaken_leaves u mb hk (shake256 64 ((b.drop 8).take 1568))
      generalize u.keyTaken mb k (shake256 64 ((b.drop 8).take 1568)) = t at *
      obtain ⟨hstatus, htdor, htmem, htcells, htkey, -⟩ := State.respond_keeps (htcmd.trans hcmd) St.ok.code t.jobKeyId
      have hget : ∀ g : RF, g.off < 0x1000000 → (t.respond mb St.ok.code t.jobKeyId).get g = t.get g := fun g hg => State.get_of_reg (State.reg_respond hg _ _ _)
      refine ⟨_, hf, (congrArg DorSt.jobKey htdor).trans hjob, (congrArg (· != 0) (hget _ (by decide))).trans hjobf,
        (congrArg (· != 0) (hget _ (by decide))).trans hkemf, htkey.trans hkey, (congrArg (· != 0) (hget _ (by decide))).trans hsnap,
        (congrArg DorSt.total htdor).trans (htotal.trans (by rw [hdor])), hstatus,
        fun a h h' => (State.byte_congr htmem a).trans (hbytes a h h'), htcells.trans (htc.trans hcells)⟩

end Sys2Proof.Machine
end

section
/-! PROOFS. The out-of-band port (O59). -/

namespace Sys2Proof.Machine
open Sys2Proof.Says

/-! ### Tables written entry by entry -/

theorem SMap.getD_foldl_put_ne {α : Type} {a : Nat} (d : α) (l : List (Nat × α)) (h : ∀ p ∈ l, p.1 ≠ a) (m : SMap α) :
    SMap.getD (l.foldl (fun m p => SMap.put m p.1 p.2) m) a d = SMap.getD m a d :=
  List.foldlRecOn (motive := fun n : SMap α => SMap.getD n a d = SMap.getD m a d) l _ rfl fun n hn p hp => by
    rw [SMap.getD_put_ne _ _ _ (h p hp).symm, hn]

theorem SMap.mem_put_self {α : Type} (m : SMap α) (a : Nat) (x : α) : (a, x) ∈ SMap.put m a x := (SMap.mem_ins _ _ _ _).2 (.inl rfl)

theorem SMap.mem_del_of_ne {α : Type} {a : Nat} {p : Nat × α} (h : p.1 ≠ a) {m : SMap α} (hp : p ∈ m) : p ∈ SMap.del m a := by
  induction m with
  | nil => exact hp
  | cons q m ih =>
    rw [SMap.del]
    split
    · next hq => exact ih ((List.mem_cons.1 hp).resolve_left fun e => h (e ▸ hq))
    · exact (List.mem_cons.1 hp).elim (fun e => e ▸ .head _) fun hm => .tail _ (ih hm)

theorem SMap.mem_put_of_ne {α : Type} {a : Nat} {x : α} {p : Nat × α} (h : p.1 ≠ a) {m : SMap α} (hp : p ∈ m) : p ∈ SMap.put m a x :=
  (SMap.mem_ins _ _ _ _).2 (.inr (SMap.mem_del_of_ne h hp))

theorem ne_of_filter_nil {α : Type} {a : Nat} {l : List (Nat × α)} (h : (l.filter fun p => p.1 == a) = []) : ∀ p ∈ l, p.1 ≠ a := fun p hp => by
  have := List.filter_eq_nil_iff.1 h p hp
  simpa using this

/-- An entry written once reads back. -/
theorem SMap.getD_foldl_put_once {α : Type} {a : Nat} {v : α} (d : α) (l : List (Nat × α)) (h : (l.filter fun p => p.1 == a) = [(a, v)]) (m : SMap α) :
    SMap.getD (l.foldl (fun m p => SMap.put m p.1 p.2) m) a d = v := by
  induction l generalizing m with
  | nil => exact absurd h (by simp)
  | cons p l ih =>
    rw [List.foldl_cons]
    by_cases hp : p.1 = a
    · rw [List.filter_cons_of_pos (p := fun q : Nat × α => q.1 == a) (beq_iff_eq.2 hp), List.cons.injEq] at h
      obtain ⟨hpv, hrest⟩ := h
      rw [SMap.getD_foldl_put_ne d l (ne_of_filter_nil hrest), hpv, SMap.getD_put_self]
    · rw [List.filter_cons_of_neg (by simpa using hp)] at h
      exact ih h _

/-! ### Sensors (R431, R432) -/

/-- A refreshed value of a region's sensor is its temperature. -/
def State.refresh (s : State) (p : Nat × Int) : State := if p.1 < 0x200 ∧ s.powered then s.senseTemp (p.1 % 0x100) p.2 else s

/-- What one refreshed value leaves. -/
theorem State.refresh_leaves (s : State) (p : Nat × Int) : (s.refresh p).mem = s.mem ∧ (s.refresh p).cells = s.cells ∧ (s.refresh p).pins = s.pins ∧
    (s.refresh p).tel = s.tel ∧ ∀ o, o < 0x2000000 → (s.refresh p).reg o = s.reg o := by
  rw [State.refresh]
  split
  · exact ⟨rfl, rfl, rfl, rfl, fun o ho => s.senseTemp_reg _ _ (by simp only [Reg.REGION_THERMAL_temp, winBase]; omega)⟩
  · exact ⟨rfl, rfl, rfl, rfl, fun _ _ => rfl⟩

theorem State.refreshes_leave (l : List (Nat × Int)) (s : State) : (l.foldl State.refresh s).mem = s.mem ∧ (l.foldl State.refresh s).cells = s.cells ∧
    (l.foldl State.refresh s).pins = s.pins ∧ (l.foldl State.refresh s).tel = s.tel ∧ ∀ o, o < 0x2000000 → (l.foldl State.refresh s).reg o = s.reg o :=
  List.foldlRecOn (motive := fun t : State => t.mem = s.mem ∧ t.cells = s.cells ∧ t.pins = s.pins ∧ t.tel = s.tel ∧ ∀ o, o < 0x2000000 → t.reg o = s.reg o)
    l _ ⟨rfl, rfl, rfl, rfl, fun _ _ => rfl⟩ fun t ⟨hm, hc, hp, ht, hr⟩ p _ => by
      obtain ⟨hm', hc', hp', ht', hr'⟩ := t.refresh_leaves p
      exact ⟨hm'.trans hm, hc'.trans hc, hp'.trans hp, ht'.trans ht, fun o ho => (hr' o ho).trans (hr o ho)⟩

theorem State.powered_of_regs {s t : State} (h : ∀ o, o < 0x2000000 → t.reg o = s.reg o) : t.powered = s.powered := by
  rw [State.powered, State.powered, State.isIn_of_reg (h _ (by decide)), State.isIn_of_reg (h _ (by decide))]

theorem toSigned_ofSigned {x : Int} (h : -2048 ≤ x) (h' : x ≤ 2047) : toSigned 12 (ofSigned 12 x % 2 ^ 12) = x := by
  have hx : ofSigned 12 x % 2 ^ 12 % 2 ^ 12 = (x % 4096).toNat := by
    rw [ofSigned]
    norm_num
    omega
  rw [toSigned, hx]
  norm_num
  split <;> omega

theorem clampInt_range (v : Int) : -2048 ≤ clampInt (-2048) 2047 v ∧ clampInt (-2048) 2047 v ≤ 2047 := by
  rw [clampInt]
  split <;> [skip; split] <;> omega

theorem State.temp_senseTemp (s : State) (g : Nat) (v : Int) : (s.senseTemp g v).temp g = clampInt (-2048) 2047 v := by
  obtain ⟨h, h'⟩ := clampInt_range v
  have hget : (s.senseTemp g v).get (Reg.REGION_THERMAL_temp g) = ofSigned 12 (clampInt (-2048) 2047 v) % 2 ^ 12 :=
    State.get_set_self _ _ _ (by simp [Reg.REGION_THERMAL_temp])
  rw [State.temp, hget, toSigned_ofSigned h h']

theorem State.temp_refresh_ne (s : State) {p : Nat × Int} {g : Nat} (h : p.1 < 0x200 → p.1 % 0x100 ≠ g) : (s.refresh p).temp g = s.temp g := by
  rw [State.refresh]
  split
  · next hp =>
    have hne := h hp.1
    rw [State.temp, State.temp, State.get_of_reg (s.senseTemp_reg _ _ (by simp only [Reg.REGION_THERMAL_temp, winBase]; omega))]
  · rfl

/-- A region's sensor refreshed once shows its value. -/
theorem State.temp_refreshes {id : Nat} {v : Int} (hid : id < 0x200) (hlow : 0x100 ≤ id) (l : List (Nat × Int)) (hl : ∀ p ∈ l, p.1 < 0x200 → 0x100 ≤ p.1)
    (h : (l.filter fun p => p.1 == id) = [(id, v)]) {s : State} (hp : s.powered = true) :
    (l.foldl State.refresh s).temp (id % 0x100) = clampInt (-2048) 2047 v := by
  induction l generalizing s with
  | nil => exact absurd h (by simp)
  | cons p l ih =>
    rw [List.foldl_cons]
    by_cases hpid : p.1 = id
    · rw [List.filter_cons_of_pos (p := fun q : Nat × Int => q.1 == id) (beq_iff_eq.2 hpid), List.cons.injEq] at h
      obtain ⟨hpv, hrest⟩ := h
      have hkeep : (l.foldl State.refresh (s.refresh p)).temp (id % 0x100) = (s.refresh p).temp (id % 0x100) :=
        List.foldlRecOn (motive := fun t : State => t.temp (id % 0x100) = (s.refresh p).temp (id % 0x100)) l _ rfl fun t ht q hq => by
          have hne := ne_of_filter_nil hrest q hq
          rw [State.temp_refresh_ne t fun hq' => by have := hl q (.tail _ hq) hq'; omega, ht]
      rw [hkeep, hpv, State.refresh, if_pos ⟨hid, hp⟩, State.temp_senseTemp]
    · rw [List.filter_cons_of_neg (by simpa using hpid)] at h
      exact ih (fun q hq => hl q (.tail _ hq)) h ((State.powered_of_regs (s.refresh_leaves p).2.2.2.2).trans hp)

theorem low_of_sensorKind {id : Nat} (h : sensorKind id = some true) (hid : id < 0x200) : 0x100 ≤ id := by
  rw [sensorKind] at h
  split at h
  · next hc => exact hc.1
  · split at h
    · next hc => omega
    · split at h
      · next hc => omega
      · split at h <;> simp at h

/-- The numeric sensors that a refresh may set: input and its power show what they are. -/
def refreshable (p : Nat × Int) : Bool := sensorKind p.1 == some true && p.1 != 0x401 && p.1 != 0x403

/-- The panel's own two values, refreshed with the others. -/
def State.ownValues (s : State) : List (Nat × Int) := [(0x401, (s.pins.mv : Int)), (0x403, (s.get Reg.POWER_STATUS_input_w : Int))]

/-- The sensors' table takes refreshed values, and the panel's own two over them. -/
def State.setSensors (s : State) (vs : List (Nat × Int)) : State :=
  { s with tel := { s.tel with sensors := (vs ++ s.ownValues).foldl (fun m p => SMap.put m p.1 p.2) s.tel.sensors } }

theorem State.setSensors_reg (s : State) (vs : List (Nat × Int)) (o : Nat) : (s.setSensors vs).reg o = s.reg o := rfl

theorem State.setSensors_mem (s : State) (vs : List (Nat × Int)) : (s.setSensors vs).mem = s.mem := rfl

theorem State.setSensors_cells (s : State) (vs : List (Nat × Int)) : (s.setSensors vs).cells = s.cells := rfl

theorem State.setSensors_sensors (s : State) (vs : List (Nat × Int)) :
    (s.setSensors vs).tel.sensors = (vs ++ s.ownValues).foldl (fun m p => SMap.put m p.1 p.2) s.tel.sensors := rfl

theorem State.setSensors_temp (s : State) (vs : List (Nat × Int)) (g : Nat) : (s.setSensors vs).temp g = s.temp g := by
  rw [State.temp, State.temp, State.get_of_reg (s.setSensors_reg vs _)]

/-- The state that a refresh leaves before a start is judged. -/
def State.refreshed (s : State) (values : List (Nat × Int)) : State :=
  ((values.filter refreshable).foldl State.refresh s).setSensors (values.filter refreshable)

/-- Whether a sensor's value is critical or fatal. -/
def State.critical (s : State) (p : Nat × Int) : Bool := s.sensorUp p.1 && decide (2 ≤ s.threshold p.1 p.2) && p.1 != 0x400

theorem exec_sensorRefresh {s : State} (hoff : s.isIn .off = false) (values : List (Nat × Int)) :
    ((s.refreshed values).isIn .bringup = false → exec (.sensorRefresh values) s = .next (s.refreshed values)) ∧
    ((s.refreshed values).isIn .bringup = true → (∃ p ∈ (s.refreshed values).tel.sensors, (s.refreshed values).critical p = true) →
      ∃ unit, exec (.sensorRefresh values) s = .next ((s.refreshed values).failStep 1 unit)) := by
  have hexec : execSensorRefresh values s = .next (match (s.refreshed values).tel.sensors.find? (s.refreshed values).critical with
      | some p => if (s.refreshed values).isIn .bringup then (s.refreshed values).failStep 1 (if p.1 < 0x200 then dieUnit (p.1 % 0x100) else 0)
        else s.refreshed values
      | none => s.refreshed values) := by
    rw [execSensorRefresh, hoff, if_neg Bool.false_ne_true]
    rfl
  change (_ → execSensorRefresh values s = _) ∧ (_ → _ → ∃ unit, execSensorRefresh values s = _)
  rw [hexec]
  generalize s.refreshed values = t
  refine ⟨fun hb => ?_, fun hb ⟨p, hp, hcrit⟩ => ?_⟩
  · rw [hb]
    cases t.tel.sensors.find? t.critical <;> rfl
  · obtain ⟨q, hq⟩ := Option.isSome_iff_exists.1 (List.find?_isSome.2 ⟨p, hp, hcrit⟩)
    rw [hq, hb]
    exact ⟨_, rfl⟩

/-- The sensors' table takes the refreshed values, and the panel's own two over them. -/
theorem getD_sensors (vs : List (Nat × Int)) (mv w : Int) (m : SMap Int) :
    let n := (vs ++ [(0x401, mv), (0x403, w)]).foldl (fun (m : SMap Int) (p : Nat × Int) => SMap.put m p.1 p.2) m
    SMap.getD n 0x401 0 = mv ∧ SMap.getD n 0x403 0 = w ∧
      ∀ id v, (vs.filter fun p => p.1 == id) = [(id, v)] → id ≠ 0x401 → id ≠ 0x403 → SMap.getD n id 0 = v := by
  rw [List.foldl_append]
  dsimp only [List.foldl_cons, List.foldl_nil]
  refine ⟨?_, SMap.getD_put_self .., fun id v hid h1 h3 => ?_⟩
  · rw [SMap.getD_put_ne _ _ _ (by decide), SMap.getD_put_self]
  · rw [SMap.getD_put_ne _ _ _ h3, SMap.getD_put_ne _ _ _ h1, SMap.getD_foldl_put_once _ _ hid]

theorem State.refreshed_leaves (s : State) (values : List (Nat × Int)) :
    (s.refreshed values).mem = s.mem ∧ (s.refreshed values).cells = s.cells ∧ (∀ o, o < 0x2000000 → (s.refreshed values).reg o = s.reg o) ∧
    SMap.getD (s.refreshed values).tel.sensors 0x401 0 = s.pins.mv ∧
    SMap.getD (s.refreshed values).tel.sensors 0x403 0 = s.get Reg.POWER_STATUS_input_w ∧
    ∀ id v, (values.filter fun p => p.1 == id) = [(id, v)] → sensorKind id = some true → id ≠ 0x401 → id ≠ 0x403 →
      SMap.getD (s.refreshed values).tel.sensors id 0 = v ∧ (id < 0x200 → s.powered = true → (s.refreshed values).temp (id % 0x100) = clampInt (-2048) 2047 v) := by
  obtain ⟨hmem, hcells, hpins, -, hreg⟩ := State.refreshes_leave (values.filter refreshable) s
  have hlow : ∀ p ∈ values.filter refreshable, p.1 < 0x200 → 0x100 ≤ p.1 := fun p hp => by
    have hk := (List.mem_filter.1 hp).2
    rw [refreshable, Bool.and_eq_true_iff, Bool.and_eq_true_iff] at hk
    exact low_of_sensorKind (beq_iff_eq.1 hk.1.1)
  have hone : ∀ id v, (values.filter fun p => p.1 == id) = [(id, v)] → sensorKind id = some true → id ≠ 0x401 → id ≠ 0x403 →
      ((values.filter refreshable).filter fun p => p.1 == id) = [(id, v)] := by
    intro id v hid hk h1 h3
    have hself : refreshable (id, v) = true := by
      rw [refreshable, hk, bne_iff_ne.2 h1, bne_iff_ne.2 h3]
      rfl
    rw [List.filter_filter, List.filter_congr (q := fun p => refreshable p && p.1 == id) fun p _ => Bool.and_comm _ _, ← List.filter_filter, hid,
      List.filter_cons_of_pos hself, List.filter_nil]
  have htemp : ∀ id v, sensorKind id = some true → id < 0x200 → ((values.filter refreshable).filter fun p => p.1 == id) = [(id, v)] → s.powered = true →
      ((values.filter refreshable).foldl State.refresh s).temp (id % 0x100) = clampInt (-2048) 2047 v := fun id v hk hid h hp =>
    State.temp_refreshes hid (low_of_sensorKind hk hid) _ hlow h hp
  rw [State.refreshed]
  generalize (values.filter refreshable).foldl State.refresh s = u at hmem hcells hpins hreg htemp ⊢
  have hw : u.get Reg.POWER_STATUS_input_w = s.get Reg.POWER_STATUS_input_w := State.get_of_reg (hreg _ (by decide))
  rw [State.setSensors_mem, State.setSensors_cells, State.setSensors_sensors, State.ownValues, hpins, hw]
  obtain ⟨hmv, hinput, hvalue⟩ := getD_sensors (values.filter refreshable) s.pins.mv (s.get Reg.POWER_STATUS_input_w) u.tel.sensors
  refine ⟨hmem, hcells, fun o ho => (u.setSensors_reg _ o).trans (hreg o ho), hmv, hinput, fun id v hid hk h1 h3 =>
    ⟨hvalue id v (hone id v hid hk h1 h3) h1 h3, fun hid' hp => ?_⟩⟩
  rw [State.setSensors_temp]
  exact htemp id v hk hid' (hone id v hid hk h1 h3) hp

/-- A hot regulator or converter is critical in any state. -/
theorem State.critical_of_hot (s : State) {id : Nat} {v : Int} (hlow : 0x410 ≤ id) (hhigh : id ≤ 0x41F) (hv : 900 ≤ v) : s.critical (id, v) = true := by
  have hup : s.sensorUp id = true := if_neg (by omega)
  have hthr : s.threshold id v = 2 := by
    rw [State.threshold, if_neg (by omega)]
    split
    all_goals omega
  rw [State.critical, hup, hthr]
  exact bne_iff_ne.2 (show id ≠ 0x400 by omega)

/-- During BRINGUP a hot sensor ends the start. -/
theorem sensorRefresh_hot {s : State} (hoff : s.isIn .off = false) (hb : s.isIn .bringup = true) (hnone : s.tel.sensors = []) {id : Nat} {v : Int}
    (hlow : 0x410 ≤ id) (hhigh : id ≤ 0x41F) (hv : 900 ≤ v) : ∃ t, exec (.sensorRefresh [(id, v)]) s = .next t ∧ t.isIn .standby = true := by
  have hkind : sensorKind id = some true := by
    rw [sensorKind, if_neg (by omega), if_neg (by omega), if_pos (by omega)]
  have hown : refreshable (id, v) = true := by
    rw [refreshable, hkind, bne_iff_ne.2 (show id ≠ 0x401 by omega), bne_iff_ne.2 (show id ≠ 0x403 by omega)]
    rfl
  have hskip : s.refresh (id, v) = s := if_neg fun h => absurd h.1 (by omega)
  have hrefreshed : s.refreshed [(id, v)] = s.setSensors [(id, v)] := by
    rw [State.refreshed, List.filter_cons_of_pos hown, List.filter_nil, List.foldl_cons, hskip, List.foldl_nil]
  have hmem : (id, v) ∈ (s.setSensors [(id, v)]).tel.sensors := by
    rw [State.setSensors_sensors, hnone]
    exact SMap.mem_put_of_ne (show id ≠ 0x403 by omega) (SMap.mem_put_of_ne (show id ≠ 0x401 by omega) (SMap.mem_put_self _ _ _))
  have hstill : (s.setSensors [(id, v)]).isIn .bringup = true := (State.isIn_of_reg (State.setSensors_reg ..) _).trans hb
  obtain ⟨unit, hexec⟩ := (exec_sensorRefresh hoff [(id, v)]).2 (hrefreshed ▸ hstill)
    (hrefreshed ▸ ⟨(id, v), hmem, State.critical_of_hot _ hlow hhigh hv⟩)
  exact ⟨_, hexec, (State.failStep_leaves _ _ _).1⟩

/-- Outside BRINGUP a refresh shows the values and changes no state. -/
theorem sensorRefresh_shows {s : State} (hoff : s.isIn .off = false) (hb : s.isIn .bringup = false) (values : List (Nat × Int)) :
    ∃ t, exec (.sensorRefresh values) s = .next t ∧
      SMap.getD t.tel.sensors 0x401 0 = s.pins.mv ∧ SMap.getD t.tel.sensors 0x403 0 = s.get Reg.POWER_STATUS_input_w ∧
      (∀ id v, (values.filter fun p => p.1 == id) = [(id, v)] → sensorKind id = some true → id ≠ 0x401 → id ≠ 0x403 →
        SMap.getD t.tel.sensors id 0 = v ∧ (id < 0x200 → s.powered = true → t.temp (id % 0x100) = clampInt (-2048) 2047 v)) ∧
      t.mem = s.mem ∧ t.cells = s.cells ∧ t.pst = s.pst := by
  obtain ⟨hmem, hcells, hreg, hmv, hinput, hvalue⟩ := s.refreshed_leaves values
  have hbring : (s.refreshed values).isIn .bringup = false := (State.isIn_of_reg (hreg _ (by decide)) _).trans hb
  exact ⟨_, (exec_sensorRefresh hoff values).1 hbring, hmv, hinput, hvalue, hmem, hcells, State.get_of_reg (hreg _ (by decide))⟩

/-- Settles O59: each message of the out-of-band port is answered by its rule, and refreshed sensors read back. -/
theorem management : Obligations.Management := by
  intro s hoff
  refine ⟨fun _ => rfl, fun eid h h' => ?_, fun eid h => ?_, fun a => ?_, fun ty h0 h1 h7 => ?_, fun values hb => sensorRefresh_shows hoff hb values,
    fun id v hb hnone hlow hhigh hv _ _ _ => sensorRefresh_hot hoff hb hnone hlow hhigh hv, fun w => ⟨fun hd => ?_, fun hd => ?_⟩, ?_,
    fun n => ⟨fun h => ?_, fun c cs h => ?_⟩, fun p l => ⟨fun hd => ?_, fun hd hp hok => ?_, fun hd hbad => ?_⟩⟩
  · change execSetEndpointId eid s = _
    rw [execSetEndpointId, hoff, if_neg Bool.false_ne_true, if_neg (by omega)]
  · change execSetEndpointId eid s = _
    rw [execSetEndpointId, hoff, if_neg Bool.false_ne_true, if_pos h]
  · change execDynamicAddressAssign a s = _
    rw [execDynamicAddressAssign, hoff, if_neg Bool.false_ne_true]
    rfl
  · change execOobUnsupportedMessage ty s = _
    rw [execOobUnsupportedMessage, hoff, if_neg (by simp [h0, h1, h7])]
  · change execLimitEffecter w s = _
    rw [execLimitEffecter, hoff, if_neg Bool.false_ne_true, hd, if_neg Bool.false_ne_true]
  · change execLimitEffecter w s = _
    rw [execLimitEffecter, hoff, if_neg Bool.false_ne_true, hd, if_pos rfl]
  · change execStateCmd s = _
    rw [execStateCmd, hoff, if_neg Bool.false_ne_true]
  · change execCairnGet n s = _
    rw [execCairnGet, hoff, if_neg Bool.false_ne_true, h]
  · change execCairnGet n s = _
    rw [execCairnGet, hoff, if_neg Bool.false_ne_true, h]
  · change execRopeSpare p l s = _
    rw [execRopeSpare, hoff, if_neg Bool.false_ne_true, hd, if_pos rfl]
  · change execRopeSpare p l s = _
    rw [execRopeSpare, hoff, if_neg Bool.false_ne_true, hd, if_neg Bool.false_ne_true, hok, if_neg (by simp; omega)]
  · change execRopeSpare p l s = _
    rw [execRopeSpare, hoff, if_neg Bool.false_ne_true, hd, if_neg Bool.false_ne_true, if_pos (by simpa using hbad)]

end Sys2Proof.Machine
end

section
/-! PROOFS. Telemetry: its configuration, samples and staging (O60). -/

namespace Sys2Proof.Machine
open Sys2Proof.Says

/-! ### The configuration (R435) -/

/-- A command's acceptance changes nothing of telemetry. -/
theorem State.accepted_tel (s : State) (mb : Nat) (r : NyReq) : (Says.accepted s mb r).tel = s.tel ∧ (Says.accepted s mb r).cairn = s.cairn := by
  rw [Says.accepted, State.putRequest]
  generalize reqHeader r ++ _ = bs
  rw [State.putArea_eq]
  exact ⟨rfl, rfl⟩

/-- A command's acceptance changes no register below the mailboxes. -/
theorem State.accepted_reg (s : State) (mb : Nat) (r : NyReq) {o : Nat} (h : o < 0x1000000) : (Says.accepted s mb r).reg o = s.reg o := by
  rw [Says.accepted, State.putRequest]
  generalize reqHeader r ++ _ = bs
  have hbusy : o ≠ (Reg.MB_STATUS_busy mb).off := by
    simp only [Reg.MB_STATUS_busy]
    omega
  calc _ = ((s.putArea (mbBase mb) bs).set (Reg.MB_STATUS_busy mb) 1).reg o := State.reg_modMb ..
    _ = (s.putArea (mbBase mb) bs).reg o := State.reg_set_ne _ _ _ hbusy
    _ = s.reg o := State.reg_putArea (by simp only [mbBase]; omega) bs

/-- Telemetry as `TELEM_STATUS` shows it. -/
def State.showTelemetry (s : State) (enabled kinds ring : Nat) : State :=
  s.sets [(Reg.TELEM_STATUS_enabled, enabled), (Reg.TELEM_STATUS_kinds, kinds), (Reg.TELEM_STATUS_ring, ring)]

theorem State.showTelemetry_shows (s : State) (enabled kinds ring : Nat) :
    (s.showTelemetry enabled kinds ring).get Reg.TELEM_STATUS_enabled = enabled % 2 ∧
    (s.showTelemetry enabled kinds ring).get Reg.TELEM_STATUS_kinds = kinds % 32 ∧
    (s.showTelemetry enabled kinds ring).get Reg.TELEM_STATUS_ring = ring % 2 ^ 32 := by
  dsimp only [State.showTelemetry, State.sets, List.foldl_cons, List.foldl_nil]
  refine ⟨?_, ?_, State.get_set_self _ _ _ (by decide)⟩
  · rw [State.get_set_disjoint (f := Reg.TELEM_STATUS_ring) (g := Reg.TELEM_STATUS_enabled) _ _ rfl (by decide) (by decide),
      State.get_set_disjoint (f := Reg.TELEM_STATUS_kinds) (g := Reg.TELEM_STATUS_enabled) _ _ rfl (by decide) (by decide)]
    exact State.get_set_self _ _ _ (by decide)
  · rw [State.get_set_disjoint (f := Reg.TELEM_STATUS_ring) (g := Reg.TELEM_STATUS_kinds) _ _ rfl (by decide) (by decide)]
    exact State.get_set_self _ _ _ (by decide)

theorem State.showTelemetry_reg (s : State) (enabled kinds ring : Nat) {o : Nat} (h : o ≠ 0x40000) : (s.showTelemetry enabled kinds ring).reg o = s.reg o :=
  State.reg_sets_ne _ _ (by simpa [Reg.TELEM_STATUS_enabled, Reg.TELEM_STATUS_kinds, Reg.TELEM_STATUS_ring] using h)

/-- What `TELEM_STATUS` shows is the only change. -/
theorem State.showTelemetry_eq (s : State) (enabled kinds ring : Nat) :
    s.showTelemetry enabled kinds ring = { s with regs := (s.showTelemetry enabled kinds ring).regs } := rfl

theorem ofLE_lt (bs : List Byte) : ofLE bs < 256 ^ bs.length := by
  induction bs with
  | nil => exact Nat.one_pos
  | cons b bs ih =>
    have := b.isLt
    rw [ofLE, Nat.shiftLeft_eq, List.length_cons, Nat.pow_succ]
    omega

theorem argN_lt (b : List Byte) (o k : Nat) : argN b o k < 256 ^ k :=
  (ofLE_lt _).trans_le (Nat.pow_le_pow_right (by decide) (List.length_take_le _ _))

/-- Telemetry turned off. -/
theorem telemetryConfig_off {mb : Nat} {r : NyReq} {s : State} (hready : NyReady mb r s) (hop : r.opcode = 0xA0) (hlen : 4 ≤ r.arg.length)
    (hring : argN r.arg 0 4 = 0) : ∃ t, exec (.telemetryConfig mb r) s = .next t ∧ t.flag Reg.TELEM_STATUS_enabled = false ∧
      t.get Reg.TELEM_STATUS_kinds = 0 ∧ t.get Reg.TELEM_STATUS_ring = 0 ∧ t.tel = s.tel ∧ t.mem = s.mem ∧ t.cells = s.cells := by
  have hexec : exec (.telemetryConfig mb r) s = .next (((Says.accepted s mb r).showTelemetry 0 0 0).respond mb St.ok.code []) :=
    nymakRow_done hready (beq_iff_eq.2 hop) (by dsimp only; rw [if_neg (by omega), if_pos hring]; rfl)
  have hcmd := State.accepted_cmd s mb r
  obtain ⟨hmem, hcells⟩ := State.accepted_frame s mb r
  obtain ⟨htel, -⟩ := State.accepted_tel s mb r
  generalize Says.accepted s mb r = u at hexec hcmd hmem hcells htel
  obtain ⟨he, hk, hr⟩ := u.showTelemetry_shows 0 0 0
  have heq := u.showTelemetry_eq 0 0 0
  generalize u.showTelemetry 0 0 0 = v at hexec he hk hr heq
  have hvcmd : (v.mb mb).cmd = some (r, s.now) := by rw [heq]; exact hcmd
  obtain ⟨-, -, hm, hc, -, ht⟩ := State.respond_keeps hvcmd St.ok.code []
  have hget : ∀ g : RF, g.off < 0x1000000 → (v.respond mb St.ok.code []).get g = v.get g := fun g hg => State.get_of_reg (State.reg_respond hg _ _ _)
  refine ⟨_, hexec, (congrArg (· != 0) ((hget _ (by decide)).trans he)).trans rfl, (hget _ (by decide)).trans hk, (hget _ (by decide)).trans hr,
    ht.trans ?_, hm.trans ?_, hc.trans ?_⟩
  · rw [heq]; exact htel
  · rw [heq]; exact hmem
  · rw [heq]; exact hcells

/-- Telemetry turned on: what TELEMETRY_CONFIG leaves before its answer. -/
def State.startTelemetry (s : State) (kinds ring depth ctr regions : Nat) : State :=
  let u := s.showTelemetry 1 kinds ring
  { u with tel := { u.tel with
    depthUs := depth, counterUs := ctr, regions := regions, depthAt := u.now, counterAt := u.now
    cairnSeen := u.cairn.next, dropsSeen := u.reg 0x40008 } }

theorem State.startTelemetry_leaves (s : State) (mb kinds ring depth ctr regions : Nat) :
    let t := s.startTelemetry kinds ring depth ctr regions
    t.get Reg.TELEM_STATUS_enabled = 1 ∧ t.get Reg.TELEM_STATUS_kinds = kinds % 32 ∧ t.get Reg.TELEM_STATUS_ring = ring % 2 ^ 32 ∧
    t.mem = s.mem ∧ t.cells = s.cells ∧ t.mb mb = s.mb mb ∧
    t.tel = { s.tel with
      depthUs := depth, counterUs := ctr, regions := regions, depthAt := s.now, counterAt := s.now
      cairnSeen := s.cairn.next, dropsSeen := s.reg 0x40008 } := by
  obtain ⟨he, hk, hr⟩ := s.showTelemetry_shows 1 kinds ring
  have hdrops : (s.showTelemetry 1 kinds ring).reg 0x40008 = s.reg 0x40008 := s.showTelemetry_reg _ _ _ (by decide)
  have heq := s.showTelemetry_eq 1 kinds ring
  rw [State.startTelemetry]
  generalize s.showTelemetry 1 kinds ring = u at *
  dsimp only
  rw [hdrops]
  refine ⟨(State.get_of_regs rfl).trans he, (State.get_of_regs rfl).trans hk, (State.get_of_regs rfl).trans hr, ?_⟩
  rw [heq]
  exact ⟨rfl, rfl, rfl, rfl⟩


/-- A configuration whose fields are in their ranges. -/
structure TelemetryOk (b : List Byte) : Prop where
  length : 64 ≤ b.length
  kinds : argN b 4 1 ≤ 31
  zero : argN b 5 3 = 0
  depth : 0 < argN b 8 4 ∧ argN b 8 4 ≤ 10000
  counter : 1000 ≤ argN b 12 4 ∧ argN b 12 4 ≤ 1000000
  tail : argN b 34 30 = 0
  regions : ∀ g, bitAt (argN b 16 18) g = true → regionValid g = true

/-- Telemetry turned on for a ring that takes it. -/
theorem telemetryConfig_on {mb : Nat} {r : NyReq} {s : State} (hready : NyReady mb r s) (hop : r.opcode = 0xA0) (hok : TelemetryOk r.arg)
    (hring : argN r.arg 0 4 ≠ 0) {i : Nat} (hi : (Says.accepted s mb r).ringOf (argN r.arg 0 4) = some i)
    (hbind : ((Says.accepted s mb r).ring i).binding = 3) : ∃ t, exec (.telemetryConfig mb r) s = .next t ∧
      t.flag Reg.TELEM_STATUS_enabled = true ∧ t.get Reg.TELEM_STATUS_kinds = argN r.arg 4 1 ∧ t.get Reg.TELEM_STATUS_ring = argN r.arg 0 4 ∧
      t.tel = { s.tel with
        depthUs := argN r.arg 8 4, counterUs := argN r.arg 12 4, regions := argN r.arg 16 18, depthAt := s.now, counterAt := s.now
        cairnSeen := s.cairn.next, dropsSeen := s.reg 0x40008 } ∧
      t.get (Reg.MB_STATUS_last_status mb) = 0 ∧ t.mem = s.mem ∧ t.cells = s.cells := by
  obtain ⟨hlen, hkinds, hzero, hdepth, hctr, htail, hregions⟩ := hok
  have hregs : ((List.range 144).any fun g => bitAt (argN r.arg 16 18) g && !regionValid g) = false := by
    refine List.any_eq_false.2 fun g _ => ?_
    cases hg : bitAt (argN r.arg 16 18) g
    · simp
    · simp [hregions g hg]
  have hwide : argN r.arg 16 18 < 2 ^ 144 := (argN_lt _ _ _).trans_eq (by norm_num)
  have hring32 : argN r.arg 0 4 % 2 ^ 32 = argN r.arg 0 4 := Nat.mod_eq_of_lt ((argN_lt _ _ _).trans_eq (by norm_num))
  have hexec : exec (.telemetryConfig mb r) s = .next (((Says.accepted s mb r).startTelemetry (argN r.arg 4 1) (argN r.arg 0 4) (argN r.arg 8 4)
      (argN r.arg 12 4) (argN r.arg 16 18)).respond mb St.ok.code []) := by
    refine nymakRow_done hready (beq_iff_eq.2 hop) ?_
    dsimp only
    rw [if_neg (by omega), if_neg hring, hi]
    dsimp only
    rw [hregs, if_neg (by simp; omega)]
    rfl
  have hcmd := State.accepted_cmd s mb r
  have hnow := State.accepted_now s mb r
  have hdrops := State.accepted_reg s mb r (o := 0x40008) (by decide)
  obtain ⟨hmem, hcells⟩ := State.accepted_frame s mb r
  obtain ⟨htel, hcairn⟩ := State.accepted_tel s mb r
  generalize Says.accepted s mb r = u at hexec hcmd hmem hcells htel hcairn hnow hdrops
  generalize r.arg = b at *
  obtain ⟨he, hk, hr, hm, hc, hmb, ht⟩ := u.startTelemetry_leaves mb (argN b 4 1) (argN b 0 4) (argN b 8 4) (argN b 12 4) (argN b 16 18)
  generalize u.startTelemetry (argN b 4 1) (argN b 0 4) (argN b 8 4) (argN b 12 4) (argN b 16 18) = v at hexec he hk hr hm hc hmb ht
  have hvcmd : (v.mb mb).cmd = some (r, s.now) := by rw [hmb]; exact hcmd
  obtain ⟨hstatus, -, hm', hc', -, ht'⟩ := State.respond_keeps hvcmd St.ok.code []
  have hget : ∀ g : RF, g.off < 0x1000000 → (v.respond mb St.ok.code []).get g = v.get g := fun g hg => State.get_of_reg (State.reg_respond hg _ _ _)
  refine ⟨_, hexec, congrArg (· != 0) ((hget _ (by decide)).trans he), (hget _ (by decide)).trans (hk.trans (Nat.mod_eq_of_lt (by omega))),
    (hget _ (by decide)).trans (hr.trans hring32), ht'.trans (ht.trans ?_), hstatus, hm'.trans (hm.trans hmem), hc'.trans (hc.trans hcells)⟩
  rw [htel, hcairn, hnow, hdrops]

/-! ### Depths (R436) -/

theorem State.depthByte_toNat {s : State} {c n : Nat} (h : epKind (s.ep c n).cfg ≠ 0) :
    (s.depthByte c n).toNat = min 254 ((254 * s.fill c n + max (s.cap c n) 1 - 1) / max (s.cap c n) 1) := by
  rw [State.depthByte, if_neg h]
  exact Nat.mod_eq_of_lt (by omega)

/-- A quotient rounded up exceeds a number exactly when the dividend exceeds its multiple. -/
theorem lt_ceilDiv_iff {a d k : Nat} (h : 0 < d) : k < (a + d - 1) / d ↔ k * d < a := by
  rw [Nat.lt_iff_add_one_le, Nat.le_div_iff_mul_le h, Nat.add_mul]
  omega

theorem State.depthByte_marks {s : State} {c n : Nat} (h : epKind (s.ep c n).cfg ≠ 0) :
    (s.depthByte c n = 0 ↔ s.fill c n = 0) ∧ (s.depthByte c n = 254 ↔ 254 * s.fill c n > 253 * max (s.cap c n) 1) ∧ s.depthByte c n ≠ 255 := by
  have hval := State.depthByte_toNat h
  have hd : 0 < max (s.cap c n) 1 := by omega
  have h0 := lt_ceilDiv_iff (a := 254 * s.fill c n) (k := 0) hd
  have h253 := lt_ceilDiv_iff (a := 254 * s.fill c n) (k := 253) hd
  generalize (254 * s.fill c n + max (s.cap c n) 1 - 1) / max (s.cap c n) 1 = q at *
  rw [← BitVec.toNat_inj, ← BitVec.toNat_inj, Ne, ← BitVec.toNat_inj, hval]
  change (min 254 q = 0 ↔ _) ∧ (min 254 q = 254 ↔ _) ∧ ¬ min 254 q = 255
  omega

/-! ### Staging (R438) -/

theorem insertRec_perm (r : TelRec) (l : List TelRec) : (insertRec r l).Perm (r :: l) := by
  induction l with
  | nil => exact .refl _
  | cons x xs ih =>
    rw [insertRec]
    split
    · exact .refl _
    · exact (ih.cons x).trans (.swap r x xs)

theorem insertRec_sorted (r : TelRec) {l : List TelRec} (h : l.Pairwise fun a b => a.stamp ≤ b.stamp) :
    (insertRec r l).Pairwise fun a b => a.stamp ≤ b.stamp := by
  induction l with
  | nil => exact List.pairwise_singleton _ _
  | cons x xs ih =>
    obtain ⟨hx, hxs⟩ := List.pairwise_cons.1 h
    rw [insertRec]
    split
    · next hlt => exact List.pairwise_cons.2 ⟨fun b hb => (List.mem_cons.1 hb).elim (fun e => e ▸ hlt.le) fun hb => hlt.le.trans (hx b hb), h⟩
    · next hge =>
      refine List.pairwise_cons.2 ⟨fun b hb => ?_, ih hxs⟩
      obtain e | hb := List.mem_cons.1 ((insertRec_perm r xs).mem_iff.1 hb)
      · exact e ▸ Nat.le_of_not_lt hge
      · exact hx b hb

/-! ### Samples (R436, R437) -/

/-- A depth sample's regions are those selected when its time came. -/
theorem exec_depthSample {s : State} (hon : s.flag Reg.TELEM_STATUS_enabled = true) (hus : 0 < s.tel.depthUs) (hat : s.tel.depthAt < s.tickOf s.tel.depthUs) :
    let t := s.tickOf s.tel.depthUs
    let v : State := { s with tel := { s.tel with depthAt := t } }
    (bitAt (s.get Reg.TELEM_STATUS_kinds) 0 = false → exec .depthSample s = .next v) ∧
    (bitAt (s.get Reg.TELEM_STATUS_kinds) 0 = true → exec .depthSample s = .next ((allRegions.filter s.sampled).foldl (fun u g =>
      u.stageKind 1 1 (g % 12 + g / 12 * 256) t ((regionCells g).flatMap fun c => (List.range 32).map fun n => u.depthByte c n)) v)) := by
  intro t v
  have hexec : exec .depthSample s = .next (if bitAt (s.get Reg.TELEM_STATUS_kinds) 0 then (allRegions.filter s.sampled).foldl (fun u g =>
      u.stageKind 1 1 (g % 12 + g / 12 * 256) t ((regionCells g).flatMap fun c => (List.range 32).map fun n => u.depthByte c n)) v else v) := by
    change execDepthSample s = _
    rw [execDepthSample]
    simp only [Nat.shiftLeft_eq]
    exact congrArg _ (if_pos ⟨hon, hus, hat⟩)
  rw [hexec]
  exact ⟨fun h => congrArg _ (if_neg (ne_true_of_eq_false h)), fun h => congrArg _ (if_pos h)⟩

theorem exec_counterSample {s : State} (hon : s.flag Reg.TELEM_STATUS_enabled = true) (hus : 0 < s.tel.counterUs)
    (hat : s.tel.counterAt < s.tickOf s.tel.counterUs) :
    let k := fun n => bitAt (s.get Reg.TELEM_STATUS_kinds) n
    let t := s.tickOf s.tel.counterUs
    let v : State := { s with tel := { s.tel with counterAt := t } }
    let v := if k 1 then v.sampleChannels t else v
    let v := if k 2 then v.sampleHub t else v
    let v := if k 3 then v.sampleRope t else v
    exec .counterSample s = .next (if k 4 then (v.sampleDrops t).sampleCairn t else v.sampleDrops t) := by
  change execCounterSample s = _
  rw [execCounterSample]
  exact congrArg _ (if_pos ⟨hon, hus, hat⟩)

/-- The first staged record leaves staging when its ring takes it. -/
theorem exec_telemetryWrite {s : State} {r : TelRec} {rest : List TelRec} {i : Nat} (hst : s.tel.staged = r :: rest) (hr : s.ringOf r.ring = some i)
    (hrun : s.ringsRun = true) (hw : (s.ring i).waiting = []) (hstop : (s.ring i).stopped = false) :
    let t := (s.post r.ring ⟨0x50, r.body⟩).deliverEntry i
    exec .telemetryWrite s = .next (if (t.ring i).waiting = [] then t.setStaged rest else s) := by
  intro t
  have hexec : exec .telemetryWrite s = .next (if (t.ring i).waiting.isEmpty then t.setStaged rest else s) := by
    change execTelemetryWrite s = _
    rw [execTelemetryWrite, hst]
    dsimp only
    rw [hr]
    dsimp only
    rw [hrun, hw, hstop, if_pos (by decide)]
  rw [hexec]
  simp only [List.isEmpty_iff]

/-- Settles O60: the configuration, the depths, the staging in the order of the stamps, and the samples and writes that follow. -/
theorem telemetry : Obligations.Telemetry := by
  refine ⟨fun mb r s hready hop => ⟨fun hlen hring => telemetryConfig_off hready hop hlen hring, fun hlen hring hnone => ?_,
      fun i hlen hring hi hbind hkinds hzero hd hd' hc hc' htail hregions =>
        telemetryConfig_on hready hop ⟨hlen, hkinds, hzero, ⟨hd, hd'⟩, ⟨hc, hc'⟩, htail, hregions⟩ hring hi hbind⟩,
    fun c n s h => State.depthByte_marks h, fun r s => ⟨fun h => if_pos h, fun h => if_neg (Nat.not_le.2 h), insertRec_sorted r, insertRec_perm r _⟩,
    fun s => ⟨fun hon => ⟨exec_depthSample hon, exec_counterSample hon⟩, fun r rest i => exec_telemetryWrite⟩⟩
  refine nymakRow_done hready (beq_iff_eq.2 hop) ?_
  dsimp only
  rw [if_neg (by omega), if_neg hring, hnone]

end Sys2Proof.Machine
end
